-- ==== Sys2Proof/Word.lean ====
section
/-! DEFINITION. The word types of the Q1280 (00_scope.md R8 to R10): bytes, 64-bit register words, units of 80 digits. -/
namespace Sys2Proof

/-- One byte of a record, byte 0 first in transmission order (R9). -/
abbrev Byte := BitVec 8

/-- A record or a part of one. -/
abbrev Bytes := List Byte

/-- The word of a register: every register is 64 bits wide (R10); bit 0 is the least significant (R8). -/
abbrev Word64 := BitVec 64

/-- The value bits or the mask bits of one unit of 80 ternary digits (01_architecture.md). -/
abbrev Unit80 := BitVec 80

/-- The value bits, the mask bits or the key field of a whole entry of at most four units, unit 0 in the low digits (R144). -/
abbrev Digits := BitVec 320

end Sys2Proof
end

