-- ==== Sys2Proof/Syntax.lean ====
section
/-! DEFINITION. The commands of the block and their operands. A command is one row of spec/opcode_table.json. An
operand `t` is the stroke of the tide at which the command happens (R46). What comes from outside (the bytes of the flash, of
a token or of a wrapped item), the errors of a physical read and the pilot's choice of a plan are operands
(notes/assumptions/5.md, 6.md, 7.md). -/
namespace Sys2Proof

/-- A source of records (R178): a logical quay, a host ring, a peer window, or the SEED section. -/
inductive Source where
  | quay (q : Nat)
  | hostRing (r : Nat)
  | window (w : Nat)
  | seed
deriving DecidableEq, Repr

/-- A link of lanes (R448, R486): a logical quay, or a ring port. -/
inductive Port where
  | quay (q : Nat)
  | east
  | west
deriving DecidableEq, Repr

/-- What the memory returns for a read of a stripe (R543, R545): the columns whose severity is flagged, the columns that lie in a
refresh the read does not wait for, and the bytes that come back wrong: column, byte of the column, the bits that differ. Columns 10 to
19 are those of the stripe that follows, where the read goes on into it. -/
structure DramRead where
  flagged : List Nat
  waived : List Nat
  errors : List (Nat × Nat × Byte)
deriving DecidableEq, Repr

/-- What the read of one stripe of the wide counters returned (R546, R584). -/
structure StripeRead where
  stripe : Nat
  how : DramRead
deriving DecidableEq, Repr

/-- A row tag that an activation read with an error (R266, R267): the logical bank and row, and whether it was corrected. -/
structure TagFault where
  bank : Nat
  row : Nat
  corrected : Bool
deriving DecidableEq, Repr

/-- The outcome of the check of a row tag on a scrub read (R266, R267). -/
inductive TagCheck where
  | ok
  | corrected
  | uncorrectable
deriving DecidableEq, Repr

/-- What the reads of one scrub line returned (R273): the unit checks, the shadow reads of the units, the tag checks and the
metadata-shadow reads, each in unit or row order. -/
structure LineCheck where
  units : List Bool
  shadow : List DramRead
  tags : List TagCheck
  metas : List DramRead
deriving DecidableEq, Repr

/-- The reads of one row: the unit checks, the shadow reads of the units and, after them, the metadata-shadow read. -/
structure RowRead where
  units : List Bool
  shadow : List DramRead
deriving DecidableEq, Repr

/-- An occupied row that the exit from Deep does not restore (R286, R588): the units whose shadow stripes fail to decode, as a mask. -/
structure RowLoss where
  bank : Nat
  row : Nat
  units : Nat
deriving DecidableEq, Repr

/-- The shadow and data reads of an M3 disagreement (R213): for the primary and the mirror winner, whether the array-shadow and
metadata-shadow reads passed within the window, and whether the associated data returned within it. -/
structure MirrorReads where
  primaryPass : Bool
  mirrorPass : Bool
  primaryData : Bool
  mirrorData : Bool
deriving DecidableEq, Repr

/-- One move of the pilot (R236): an entry goes from one row of a bank to another row of the same bank. -/
structure Move where
  bank : Nat
  src : Nat
  dst : Nat
deriving DecidableEq, Repr

/-- The pilot's choice for an insertion (R235, R237): the bank and row of the new entry, the moves of each step, the labels
that a class L renumbering gives (logical entry number, label), and whether the pilot found no plan at all (R240). -/
structure Plan where
  bank : Nat
  row : Nat
  steps : List (List Move)
  relabel : List (Nat × Nat)
  noPlan : Bool
deriving DecidableEq, Repr

/-- One entry of a scroll's section table (R87). -/
structure Section where
  typ : Nat
  isSealed : Nat
  recordCount : Nat
  offset : Nat
  storedLen : Nat
deriving DecidableEq, Repr

/-- A key of the seal store (R93, R421): its identifier, its use and its value. -/
structure KeyEntry where
  keyId : Nat
  use : Nat
  value : Bytes
deriving DecidableEq, Repr

/-- What discovery finds (R84): whether step 2 reads SFDP, the enable commands that SFDP lists, whether it lists an 8D-8D-8D read at
200 MHz, whether step 3 enables 4-byte addressing and 8D-8D-8D, and whether step 4 reads the SFDP header again. -/
structure SfdpRead where
  read : Bool
  enableCommands : Bytes
  lists8D : Bool
  enabled : Bool
  readAgain : Bool
deriving DecidableEq, Repr

/-- The header and KEYS of one scroll copy as read (R87, R93): the 4,096 bytes of the header and the stored bytes of KEYS. -/
structure HeaderRead where
  bytes : Bytes
  keyBytes : Bytes
deriving DecidableEq, Repr

/-- A failed slot of the boot self-test (R608, R611): the physical slot, its failing lines and the first failing line. -/
structure SlotFail where
  slot : Nat
  count : Nat
  line : Nat
deriving DecidableEq, Repr

/-- What the Apply stage found (R107): the slots that failed the self-test of R608, the delay set on which each
pseudo-channel verified (unlisted: set 0), and the pseudo-channels that failed every set (R564, R568). -/
structure ApplyResult where
  failed : List SlotFail
  sets : List (Nat × Nat)
  dead : List Nat
deriving DecidableEq, Repr

/-- A GLYPH record (R98): its stored bytes (R89), the set that its contents belong to, and whether they end the set. -/
structure GlyphRecord where
  stored : Bytes
  set : Nat
  lastOfSet : Bool
deriving DecidableEq, Repr

/-- A read that the device issued to the host (R538). -/
inductive HostRead where
  | ringFetch (ring : Nat)
  | flashProgram
  | dma (fn : Nat)
deriving DecidableEq, Repr

/-- The commands of the block: one constructor for each row of spec/opcode_table.json, in the table's order. -/
inductive Instr where
  /-- POWER_ON_RESET (R590). -/
  | powerOnReset
  /-- MAIN_RAILS_VALID (R592). -/
  | mainRailsValid (selfTest : Bool)
  /-- RAIL_SEQUENCE_TIMEOUT (R591). -/
  | railSequenceTimeout
  /-- RAIL_SEQUENCE_RETRY (R591). -/
  | railSequenceRetry
  /-- DISCOVERY (R84). -/
  | discovery (d : SfdpRead)
  /-- COPY_CORE_READ_END (R104). -/
  | copyCoreReadEnd (stored : Bytes)
  /-- COPY_READ_TIMEOUT (R107). -/
  | copyReadTimeout
  /-- CORE_APPLY_COMPLETE (R107). -/
  | coreApplyComplete (r : ApplyResult)
  /-- APPLY_FAILURE (R107). -/
  | applyFailure
  /-- GLYPH_RECORD_VERIFIED (R98). -/
  | glyphRecordVerified (t : Nat) (g : GlyphRecord)
  /-- SEED_RECORD_VERIFIED (R99). -/
  | seedRecordVerified (t : Nat) (stored : Bytes) (ended : List Nat)
  /-- GLB_BOOT_REBOOT (R106). -/
  | glbBootReboot (t : Nat) (fn : Nat) (w : Word64)
  /-- GLB_BOOT_RETRY (R111). -/
  | glbBootRetry (t : Nat) (fn : Nat) (w : Word64)
  /-- FLASH_PROG_GO (R112). -/
  | flashProgGo (t : Nat) (fn : Nat) (w : Word64)
  /-- FLASH_PROG_DONE (R112). -/
  | flashProgDone (t : Nat) (data : Option Bytes) (back : Bytes)
  /-- TIDE_BOUNDARY (R646). -/
  | tideBoundary
  /-- COMMIT_STROKE (R54). -/
  | commitStroke
  /-- PPS_EDGE (R76). -/
  | ppsEdge (t : Nat)
  /-- PPS_LOST (R79). -/
  | ppsLost (t : Nat)
  /-- GLB_TIDE_STEP_ARM (R80). -/
  | glbTideStepArm (t : Nat) (fn : Nat) (w : Word64)
  /-- LATCHED_READ (R75). -/
  | latchedRead (t : Nat) (fn : Nat) (off : Nat) (size : Nat)
  /-- RC_FIELD_READ (R11). -/
  | rcFieldRead (t : Nat) (fn : Nat) (off : Nat) (size : Nat)
  /-- REGISTER_WRITE (R12). -/
  | registerWrite (t : Nat) (fn : Nat) (off : Nat) (data : Bytes)
  /-- GLB_MODE_GO (R122). -/
  | glbModeGo (t : Nat) (fn : Nat) (w : Word64)
  /-- SET_MODE (R436). -/
  | setMode (t : Nat) (src : Source)
  /-- MODE_PREPARATION_DONE (R125). -/
  | modePreparationDone (t : Nat)
  /-- SEARCH_REQUEST (R184). -/
  | searchRequest (t : Nat) (src : Source) (rec : Bytes)
  /-- DISPATCH (R67). -/
  | dispatch (t : Nat)
  /-- BUSY_RESULT (R27). -/
  | busyResult (t : Nat)
  /-- ACTIVATION (R28). -/
  | activation (t : Nat) (tags : List TagFault)
  /-- RESOLUTION (R201). -/
  | resolution (t : Nat)
  /-- HIT_UPDATE_APPLY (R31). -/
  | hitUpdateApply (t : Nat)
  /-- REAL_TIME_READ_RETURN (R203). -/
  | realTimeReadReturn (t : Nat) (search : Nat) (look : Nat) (how : DramRead)
  /-- DATA_LATE (R204). -/
  | dataLate (t : Nat)
  /-- CHAINED_PIPE_FRONT (R211). -/
  | chainedPipeFront (t : Nat)
  /-- MIRROR_VALIDATION (R214). -/
  | mirrorValidation (t : Nat) (search : Nat) (look : Nat) (v : MirrorReads)
  /-- ASSEMBLY (R220). -/
  | assembly (t : Nat)
  /-- RESULT_RELEASE (R26). -/
  | resultRelease (t : Nat)
  /-- TABLE_COMMAND (R173). -/
  | tableCommand (t : Nat) (src : Source) (rec : Bytes)
  /-- COMMAND_DROP_FROZEN (R437). -/
  | commandDropFrozen (t : Nat) (src : Source)
  /-- COMMAND_WRITE_APPLY (R61). -/
  | commandWriteApply (t : Nat)
  /-- INSERT (R176). -/
  | insert (t : Nat) (src : Source) (plan : Plan)
  /-- DELETE (R244). -/
  | delete (t : Nat) (src : Source)
  /-- MODIFY_AD (R181). -/
  | modifyAd (t : Nat) (src : Source)
  /-- READ_ENTRY (R182). -/
  | readEntry (t : Nat) (src : Source)
  /-- COUNTER_READ (R376). -/
  | counterRead (t : Nat) (src : Source)
  /-- COUNTER_WRITE (R376). -/
  | counterWrite (t : Nat) (src : Source)
  /-- TABLE_CREATE (R160). -/
  | tableCreate (t : Nat) (src : Source)
  /-- TABLE_DELETE (R162). -/
  | tableDelete (t : Nat) (src : Source)
  /-- TABLE_FLUSH (R162). -/
  | tableFlush (t : Nat) (src : Source)
  /-- DI_WRITE (R166). -/
  | diWrite (t : Nat) (src : Source)
  /-- DI_READ (R166). -/
  | diRead (t : Nat) (src : Source)
  /-- TRACE (R378). -/
  | trace (t : Nat) (src : Source)
  /-- TRACE_ACTIVATION (R381). -/
  | traceActivation (t : Nat) (tags : List TagFault)
  /-- TABLE_DIGEST (R386). -/
  | tableDigest (t : Nat) (src : Source)
  /-- DIGEST_READ (R387). -/
  | digestRead (t : Nat) (how : List RowRead) (tags : List TagFault)
  /-- STREAM_OPEN (R347). -/
  | streamOpen (t : Nat) (src : Source)
  /-- STREAM_CLOSE (R349). -/
  | streamClose (t : Nat) (src : Source)
  /-- STREAM_RESET (R348). -/
  | streamReset (t : Nat) (src : Source)
  /-- GLYPH_LOAD (R345). -/
  | glyphLoad (t : Nat) (src : Source)
  /-- GLYPH_UNLOAD (R343). -/
  | glyphUnload (t : Nat) (src : Source)
  /-- BERTH_WRITE (R415). -/
  | berthWrite (t : Nat) (src : Source)
  /-- BERTH_FORGIVE (R414). -/
  | berthForgive (t : Nat) (src : Source)
  /-- MASTER_WRITE (R431). -/
  | masterWrite (t : Nat) (src : Source)
  /-- THAW (R440). -/
  | thaw (t : Nat) (src : Source)
  /-- POWER (R581). -/
  | power (t : Nat) (src : Source)
  /-- LC_CHANGE (R444). -/
  | lcChange (t : Nat) (src : Source) (ownerKeyA : Bytes)
  /-- KEY_WRAP (R425). -/
  | keyWrap (t : Nat) (src : Source)
  /-- KEY_WRAP_COMPLETE (R597). -/
  | keyWrapComplete (t : Nat)
  /-- BANK_SERVICE (R615). -/
  | bankService (t : Nat) (src : Source)
  /-- PC_FENCE (R617). -/
  | pcFence (t : Nat) (src : Source)
  /-- LANE_RETIRE (R617). -/
  | laneRetire (t : Nat) (src : Source)
  /-- SCRIBE_SERVICE (R615). -/
  | scribeService (t : Nat) (src : Source)
  /-- COMMAND_HEAD_TIMEOUT (R595). -/
  | commandHeadTimeout (src : Source)
  /-- COMMAND_COMPLETION_TIMEOUT (R596). -/
  | commandCompletionTimeout
  /-- INSERT_PLAN_STEP (R236). -/
  | insertPlanStep (t : Nat) (id : Nat) (held : Bool)
  /-- INSERT_ROLLBACK (R247). -/
  | insertRollback (t : Nat)
  /-- RESPACING (R240). -/
  | respacing (t : Nat) (tid : Nat) (moves : List Move)
  /-- CHART_SPLIT (R254). -/
  | chartSplit (t : Nat) (tid : Nat) (pos : Nat)
  /-- CHART_MERGE (R255). -/
  | chartMerge (t : Nat) (tid : Nat)
  /-- RESEQUENCING (R143). -/
  | resequencing (t : Nat) (tid : Nat)
  /-- TABLE_RELABEL (R242). -/
  | tableRelabel (t : Nat) (tid : Nat)
  /-- MIRROR_BUILD (R130). -/
  | mirrorBuild (t : Nat)
  /-- TABLE_FREEING (R162). -/
  | tableFreeing (t : Nat) (tid : Nat)
  /-- HOT_PROMOTION (R260). -/
  | hotPromotion (t : Nat) (len : Nat)
  /-- HOT_DECAY (R260). -/
  | hotDecay
  /-- PINNED_LINE_FILL (R259). -/
  | pinnedLineFill (t : Nat) (len : Nat)
  /-- AD_CHANGE_WRITE (R262). -/
  | adChangeWrite (t : Nat)
  /-- PIL_DRAIN (R264). -/
  | pilDrain (t : Nat) (fn : Nat) (w : Word64)
  /-- PIL_RETURN (R265). -/
  | pilReturn (t : Nat) (fn : Nat) (w : Word64)
  /-- BANK_DRAIN_COPY (R264). -/
  | bankDrainCopy (t : Nat) (how : RowRead)
  /-- DRAIN_COMPLETE (R265). -/
  | drainComplete (t : Nat)
  /-- SCRUB_READ (R273). -/
  | scrubRead (t : Nat)
  /-- SCRUB_COMPARE (R276). -/
  | scrubCompare (t : Nat) (c : LineCheck)
  /-- REPAIR_WRITE (R278). -/
  | repairWrite (t : Nat)
  /-- SHADOW_STRIPE_REBUILD (R279). -/
  | shadowStripeRebuild (t : Nat) (stripe : Nat) (units : List Bool)
  /-- META_REBUILD (R280). -/
  | metaRebuild (t : Nat) (len : Nat)
  /-- LEN_WITHHELD (R280). -/
  | lenWithheld (t : Nat) (len : Nat)
  /-- TAG_RESTORE_SEARCH_END (R283). -/
  | tagRestoreSearchEnd (t : Nat) (pass : Bool)
  /-- FILTER_ENTRY_EXPIRY (R300). -/
  | filterEntryExpiry
  /-- LRN_FILTER_FLUSH (R304). -/
  | lrnFilterFlush (t : Nat) (fn : Nat) (w : Word64)
  /-- DEVICE_EPOCH_ADVANCE (R305). -/
  | deviceEpochAdvance
  /-- SWEEP_PASS_START (R307). -/
  | sweepPassStart
  /-- SWEEP_EXAMINE (R308). -/
  | sweepExamine (t : Nat)
  /-- MANIFEST_COMMIT (R319). -/
  | manifestCommit (t : Nat) (bad : Bool)
  /-- GAP_ADMIT (R321). -/
  | gapAdmit (t : Nat)
  /-- MANIFEST_RELEASE (R322). -/
  | manifestRelease (t : Nat) (fn : Nat) (w : Word64)
  /-- MANIFEST_REWIND (R322). -/
  | manifestRewind (t : Nat) (fn : Nat) (w : Word64)
  /-- MANIFEST_MARK (R322). -/
  | manifestMark (t : Nat) (fn : Nat) (w : Word64)
  /-- MANIFEST_WIN_READ (R323). -/
  | manifestWinRead (t : Nat) (fn : Nat) (byte : Nat) (size : Nat)
  /-- MANIFEST_DELIVERY (R324). -/
  | manifestDelivery (t : Nat)
  /-- MANIFEST_DELIVERY_RELEASE (R324). -/
  | manifestDeliveryRelease (t : Nat)
  /-- STREAM_CHUNK (R353). -/
  | streamChunk (t : Nat) (src : Source) (rec : Bytes)
  /-- CHUNK_ASSIGNMENT (R355). -/
  | chunkAssignment
  /-- STREAM_STATE_READ_RETURN (R358). -/
  | streamStateReadReturn (t : Nat) (scribe : Nat) (how : DramRead)
  /-- STREAM_STATE_READ_LATE (R358). -/
  | streamStateReadLate (scribe : Nat)
  /-- CHUNK_RUN (R361). -/
  | chunkRun (t : Nat) (scribe : Nat)
  /-- CHUNK_WATCHDOG (R362). -/
  | chunkWatchdog (scribe : Nat)
  /-- CHUNK_REPORT (R363). -/
  | chunkReport (scribe : Nat)
  /-- GLYPH_COPY_DONE (R333). -/
  | glyphCopyDone (t : Nat) (set : Nat)
  /-- PARTITION_LOAD_DONE (R336). -/
  | partitionLoadDone (t : Nat) (set : Nat)
  /-- SCB_GLYPH_LOAD (R341). -/
  | scbGlyphLoad (t : Nat) (fn : Nat) (w : Word64)
  /-- SCB_GLYPH_UNLOAD (R343). -/
  | scbGlyphUnload (t : Nat) (fn : Nat) (w : Word64)
  /-- SCB_SCRIBE_OFFLINE (R367). -/
  | scbScribeOffline (t : Nat) (fn : Nat) (w : Word64)
  /-- SCB_SCRIBE_ONLINE (R368). -/
  | scbScribeOnline (t : Nat) (fn : Nat) (w : Word64)
  /-- FOLD (R371). -/
  | fold (t : Nat)
  /-- FOLD_READ_RETURN (R372). -/
  | foldReadReturn (t : Nat) (len : Nat) (how : DramRead)
  /-- TEL_CNT_WRITE (R373). -/
  | telCntWrite (t : Nat) (fn : Nat) (data : Bytes)
  /-- TEL_CNT_READ (R377). -/
  | telCntRead (t : Nat) (fn : Nat) (byte : Nat) (size : Nat)
  /-- COUNT_READ_RETURN (R374). -/
  | countReadReturn (t : Nat) (how : DramRead)
  /-- QUEUE_SAMPLE_CAPTURE (R389). -/
  | queueSampleCapture
  /-- SAMPLE_POST (R390). -/
  | samplePost (t : Nat)
  /-- TELEMETRY_DELIVERY (R393). -/
  | telemetryDelivery (t : Nat)
  /-- CAPTURE_RESTART (R394). -/
  | captureRestart (t : Nat) (fn : Nat) (w : Word64)
  /-- BTH_FORGIVE (R416). -/
  | bthForgive (t : Nat) (fn : Nat) (w : Word64)
  /-- SEC_THAW (R440). -/
  | secThaw (t : Nat) (fn : Nat) (w : Word64)
  /-- AUTO_THAW (R440). -/
  | autoThaw
  /-- TAMPER_TRIP (R443). -/
  | tamperTrip (t : Nat) (causes : Nat)
  /-- TAMPER_HOLD_END (R443). -/
  | tamperHoldEnd
  /-- ENTROPY_HEALTH_FAIL (R420). -/
  | entropyHealthFail (t : Nat)
  /-- DEBUG_TOKEN (R446). -/
  | debugToken (t : Nat) (key : Bytes) (sig : Bytes)
  /-- TAP_INSTRUCTION (R445). -/
  | tapInstruction (ir : Nat)
  /-- QUY_ENABLE (R474). -/
  | quyEnable (t : Nat) (fn : Nat) (w : Word64)
  /-- QUY_RESET (R482). -/
  | quyReset (t : Nat) (fn : Nat) (w : Word64)
  /-- QUY_RETRAIN (R474). -/
  | quyRetrain (t : Nat) (fn : Nat) (w : Word64)
  /-- LANE_LOCK (R474). -/
  | laneLock (t : Nat) (p : Port)
  /-- LANE_LOCK_TIMEOUT (R478). -/
  | laneLockTimeout (t : Nat) (p : Port) (lane : Nat)
  /-- CODEWORD_LOCK (R474). -/
  | codewordLock (t : Nat) (p : Port)
  /-- ALIGN_TIMEOUT (R474). -/
  | alignTimeout (t : Nat) (p : Port)
  /-- INIT (R475). -/
  | init (t : Nat) (p : Port) (width : Nat)
  /-- INIT_DONE (R476). -/
  | initDone (t : Nat) (p : Port)
  /-- INIT_TIMEOUT (R474). -/
  | initTimeout (t : Nat) (p : Port)
  /-- FRAME_RECEIVE (R460). -/
  | frameReceive (t : Nat) (p : Port) (errors : Nat) (frame : Bytes)
  /-- REPLAY_TIMEOUT (R461). -/
  | replayTimeout (t : Nat) (p : Port)
  /-- LIVENESS_TIMEOUT (R480). -/
  | livenessTimeout (t : Nat) (p : Port)
  /-- LANE_LOSS_OF_LOCK (R477). -/
  | laneLossOfLock (t : Nat) (p : Port) (lane : Nat)
  /-- SER_LIMIT_EXCEEDED (R477). -/
  | serLimitExceeded (t : Nat) (p : Port) (lane : Nat)
  /-- LANE_BAD (R477). -/
  | laneBad (t : Nat) (p : Port) (lane : Nat)
  /-- WIDTH_ACK (R475). -/
  | widthAck (t : Nat) (p : Port)
  /-- RETRAIN_LOCK (R478). -/
  | retrainLock (t : Nat) (p : Port) (lane : Nat)
  /-- RING_RECORD_LAUNCH (R491). -/
  | ringRecordLaunch (t : Nat)
  /-- RING_SEARCH_RECORD (R492). -/
  | ringSearchRecord (t : Nat) (rec : Bytes)
  /-- RING_RECORD_LATE (R495). -/
  | ringRecordLate (t : Nat)
  /-- CENSUS_PROBE_LAUNCH (R501). -/
  | censusProbeLaunch
  /-- CENSUS (R500). -/
  | census (t : Nat) (msg : Bytes)
  /-- CENSUS_TIMEOUT (R503). -/
  | censusTimeout (t : Nat)
  /-- FORCE_PROBE_TIMEOUT (R504). -/
  | forceProbeTimeout (t : Nat)
  /-- RNG_JOIN (R509). -/
  | rngJoin (t : Nat) (fn : Nat) (w : Word64)
  /-- RNG_LEAVE (R510). -/
  | rngLeave (t : Nat) (fn : Nat) (w : Word64)
  /-- LEAVE_COMPLETE (R510). -/
  | leaveComplete (t : Nat)
  /-- DOORBELL (R530). -/
  | doorbell (t : Nat) (fn : Nat) (slot : Nat) (data : Bytes)
  /-- HST_RING_ENABLE (R522). -/
  | hstRingEnable (t : Nat) (fn : Nat) (w : Word64)
  /-- HST_RING_RESET (R522). -/
  | hstRingReset (t : Nat) (fn : Nat) (w : Word64)
  /-- RING_FETCH (R523). -/
  | ringFetch (t : Nat) (ring : Nat) (rec : Bytes)
  /-- HOST_RING_WRITE (R527). -/
  | hostRingWrite (t : Nat) (ring : Nat)
  /-- PEER_WINDOW_TLP (R533). -/
  | peerWindowTlp (t : Nat) (off : Nat) (data : Bytes)
  /-- HST_WIN_COMMIT (R532). -/
  | hstWinCommit (t : Nat) (fn : Nat) (w : Word64)
  /-- FLR (R539). -/
  | flr (t : Nat) (fn : Nat)
  /-- FLR_COMPLETE (R539). -/
  | flrComplete (fn : Nat)
  /-- PERST_N_ASSERT (R539). -/
  | perstNAssert
  /-- HOT_RESET (R539). -/
  | hotReset
  /-- LINK_DOWN (R540). -/
  | linkDown
  /-- LINK_UP (R540). -/
  | linkUp (gen : Nat) (width : Nat) (flit : Bool)
  /-- COMPLETION_TIMEOUT (R538). -/
  | completionTimeout (t : Nat) (rd : HostRead)
  /-- LATE_CPL (R538). -/
  | lateCpl (t : Nat)
  /-- REFRESH_DUE (R556). -/
  | refreshDue (pc : Nat)
  /-- STACK_TEMP_READOUT (R557). -/
  | stackTempReadout (t : Nat) (stack : Nat) (temp : Int)
  /-- VERIFY_START (R563). -/
  | verifyStart (pc : Nat)
  /-- VERIFY_END (R562). -/
  | verifyEnd (t : Nat) (pc : Nat) (ok : Bool)
  /-- REBUILD_STRIPES (R566). -/
  | rebuildStripes (t : Nat) (n : Nat)
  /-- DRAM_COMMAND_WATCHDOG (R569). -/
  | dramCommandWatchdog (t : Nat) (pc : Nat)
  /-- PWR_WAKE_REGISTER (R586). -/
  | pwrWakeRegister (t : Nat) (fn : Nat) (w : Word64)
  /-- PWR_IDLE_REQUEST (R578). -/
  | pwrIdleRequest (t : Nat) (fn : Nat) (w : Word64)
  /-- PWR_LOW_STATE_REQUEST (R580). -/
  | pwrLowStateRequest (t : Nat) (fn : Nat) (w : Word64)
  /-- AUTO_IDLE_ENTRY (R578). -/
  | autoIdleEntry
  /-- IDLE_WAKE (R579). -/
  | idleWake (t : Nat)
  /-- ENTRY_DRAIN_END (R582). -/
  | entryDrainEnd
  /-- BULK_FOLD (R584). -/
  | bulkFold (reads : List StripeRead)
  /-- ENTRY_COMPLETE (R582). -/
  | entryComplete
  /-- RTC_ALARM (R586). -/
  | rtcAlarm (count : Nat)
  /-- PERST_N_WAKE (R586). -/
  | perstNWake
  /-- EXIT_COMPLETE (R588). -/
  | exitComplete (rtc : Nat) (lost : List RowLoss)
  /-- EXIT_LANE_TIMEOUT (R589). -/
  | exitLaneTimeout (t : Nat) (p : Port)
  /-- PWR_DOMAIN_RESET (R593). -/
  | pwrDomainReset (t : Nat) (fn : Nat) (w : Word64)
  /-- DOMAIN_RESET_END (R593). -/
  | domainResetEnd
  /-- MGMT_WATCHDOG (R594). -/
  | mgmtWatchdog (t : Nat)
  /-- FLT_WIN_READ (R604). -/
  | fltWinRead (t : Nat) (fn : Nat) (byte : Nat) (size : Nat)
  /-- FAULT_LOG_DELIVERY (R604). -/
  | faultLogDelivery (t : Nat)
  /-- DIE_TEMP_READOUT (R641). -/
  | dieTempReadout (t : Nat) (temps : List Int)
  /-- ARY_BIST_GO (R612). -/
  | aryBistGo (t : Nat) (fn : Nat) (w : Word64)
  /-- BIST_COMPLETE (R614). -/
  | bistComplete (t : Nat) (count : Nat) (line : Nat)
  /-- GET_IDENT (R642). -/
  | getIdent
  /-- GET_STATE (R642). -/
  | getState
  /-- GET_DIE_TEMP (R642). -/
  | getDieTemp
  /-- GET_STACK_TEMP (R642). -/
  | getStackTemp
  /-- GET_TAMPER (R642). -/
  | getTamper
  /-- WAKE (R643). -/
  | wake (t : Nat)
  /-- COPY_HEADER_KEYS_READ_END (R103). -/
  | copyHeaderKeysReadEnd (h : HeaderRead)
  /-- FRAME_TRANSMIT (R467). -/
  | frameTransmit (t : Nat) (p : Port)
  /-- SHADOW_WRITE_COMPLETE (R271). -/
  | shadowWriteComplete (t : Nat) (bank : Nat) (line : Nat)
  /-- UR_OR_CA_COMPLETION (R538). -/
  | urOrCaCompletion (t : Nat) (ring : Nat)
  /-- RING_RECORD_FORWARD (R498). -/
  | ringRecordForward (t : Nat)
  /-- MIRROR_COPY_FREEING (R132). -/
  | mirrorCopyFreeing (t : Nat)
  /-- HOT_WAY_DEMOTION (R263). -/
  | hotWayDemotion (t : Nat)
  /-- QUADRANT_ROW_REWRITE (R290). -/
  | quadrantRowRewrite (t : Nat) (bank : Nat) (row : Nat)
  /-- VDD_AON_REMOVED (R591). -/
  | vddAonRemoved
  /-- HOST_DMA_ACCESS (R43). -/
  | hostDmaAccess (t : Nat) (write : Bool) (addr : Nat) (len : Nat) (data : Bytes)
  /-- VF_ENABLE (R516). -/
  | vfEnable (enable : Bool) (numVfs : Nat)
  /-- TAP_TEST_LOGIC_RESET (R630). -/
  | tapTestLogicReset
deriving DecidableEq, Repr

end Sys2Proof
end

