-- ==== Sys2Proof/Decode.lean ====
section
/-! DEFINITION. The commands of a block have no encoding of a processor's kind: spec/opcode_table.json gives no row any bits, so
that no word spells a command. -/
namespace Sys2Proof

/-- The command that a word spells by the table's bits: none, since no row of the table gives bits. -/
def decodeTableWord (_nbits _w : Nat) : Option Instr := none

end Sys2Proof
end

