-- ==== Sys2Proof/Config.lean ====
section
/-! DEFINITION. What an implementation fixes and the values that the spec leaves open: constants without a body, so that no
proof can see their values (notes/assumptions/3.md). Each is applied to the model's free-value counter, to the operands it
depends on, or to both. -/
namespace Sys2Proof

/-- The value of a counter field after it has passed its greatest value, where the spec does not say that it holds or wraps. -/
opaque Config.counterOverflow : Nat → Nat

/-- A value that the spec leaves open and on which nothing else depends. -/
opaque Config.freeNat : Nat → Nat

/-- The strokes from a wake event in Idle until the gated domains are clocked again: at most 96 (R579). -/
opaque Config.wakeStrokes : Nat → Nat

/-- The RTC units that a boot or a wake from Off-Guard takes before the tide count resumes (R82). -/
opaque Config.awayUnits : Nat → Nat

/-- The output of the deterministic random bit generator (R421, R443), one draw per count. -/
opaque Config.random : Nat → Nat

/-- The key-encryption key, from the fuse secret and the life-cycle state (R93). -/
opaque Config.keyEncryptionKey : Bytes → Nat → Bytes

/-- The transport private key, from the fuse secret. -/
opaque Config.transportPrivate : Bytes → Nat

/-- The start state of an automaton, from its hot image (R347). -/
opaque Config.startState : Bytes → Nat

/-- One step of an automaton (R361): from the hot image, the state, the repetition counters, the stream offset and the byte
consumed, the next state and counters and the patterns that match at that offset. -/
opaque Config.automaton : Bytes → Nat → Bytes → Nat → Byte → Nat × Bytes × List Nat

/-- The end-anchored patterns that match when a stream closes (R331, R350), from the hot image, the state and the counters. -/
opaque Config.closing : Bytes → Nat → Bytes → List Nat

/-- The kind of a TAP instruction code (R445): 0 a public instruction other than EXTEST and its kin, 1 EXTEST, EXTEST_PULSE or
EXTEST_TRAIN, 2 a debug instruction, otherwise a code without an instruction. -/
opaque Config.tapKind : Nat → Nat

/-- The product (R7): 0 a component part, 1 the adapter BM-1280S, otherwise the adapter BM-1280R. -/
opaque Config.product : Nat

/-- The code of the IDCODE instruction of the TAP (R619). -/
opaque Config.tapIdcode : Nat

/-- The bank of a column address of a pseudo-channel of a stack (R559). -/
opaque Config.bankOf : Nat → Nat

/-- The row of a column address of a pseudo-channel of a stack (R559). -/
opaque Config.rowOf : Nat → Nat

/-- The next value of the generator of a pseudo-channel (R559). -/
opaque Config.nextDraw : Nat → Nat

end Sys2Proof
end

