-- ==== Sys2Proof/Machine/Table.lean ====
section
/-! DEFINITION. Plain-data containers: a sparse table keyed by Nat, and a byte memory in canonical form (addresses strictly
rising, no byte equal to what an unlisted address reads as, which is zero: notes/assumptions/4.md). -/
namespace Sys2Proof.Machine

/-- A sparse table: keys strictly rising. -/
abbrev Table (α : Type) := List (Nat × α)

/-- The value held under a key. -/
def Table.find {α : Type} (m : Table α) (k : Nat) : Option α :=
  match m with
  | [] => none
  | (j, v) :: rest => if j = k then some v else Table.find rest k

/-- The value held under a key, or a default. -/
def Table.findD {α : Type} (m : Table α) (k : Nat) (d : α) : α := (m.find k).getD d

/-- Whether a key is held. -/
def Table.has {α : Type} (m : Table α) (k : Nat) : Bool := (m.find k).isSome

/-- The table with a value placed under a key. -/
def Table.put {α : Type} (m : Table α) (k : Nat) (v : α) : Table α :=
  match m with
  | [] => [(k, v)]
  | (j, u) :: rest =>
    if k < j then (k, v) :: (j, u) :: rest
    else if k = j then (k, v) :: rest
    else (j, u) :: Table.put rest k v

/-- The table without a key. -/
def Table.del {α : Type} (m : Table α) (k : Nat) : Table α := m.filter (fun p => p.1 ≠ k)

/-- The table with one value changed, where the key is held. -/
def Table.modify {α : Type} (m : Table α) (k : Nat) (f : α → α) : Table α :=
  m.map (fun p => if p.1 = k then (p.1, f p.2) else p)

/-- The values of a table in key order. -/
def Table.vals {α : Type} (m : Table α) : List α := m.map (·.2)

/-- The keys of a table in order. -/
def Table.keys {α : Type} (m : Table α) : List Nat := m.map (·.1)

/-- A byte memory: address and byte pairs. -/
abbrev Memory := List (Nat × Byte)

/-- Addresses strictly rise from `lo` on and no listed byte is zero. -/
def Memory.risingFrom (lo : Nat) (m : Memory) : Bool :=
  match m with
  | [] => true
  | (a, b) :: rest => decide (lo ≤ a) && decide (b ≠ 0) && Memory.risingFrom (a + 1) rest

/-- The canonical form. -/
def Memory.wf (m : Memory) : Bool := Memory.risingFrom 0 m

/-- One byte read; an unlisted address reads zero. -/
def Memory.get (m : Memory) (a : Nat) : Byte :=
  match m with
  | [] => 0
  | (j, b) :: rest => if j = a then b else Memory.get rest a

/-- One byte written, keeping the canonical form: writing zero removes the entry. -/
def Memory.set (m : Memory) (a : Nat) (b : Byte) : Memory :=
  match m with
  | [] => if b = 0 then [] else [(a, b)]
  | (j, c) :: rest =>
    if a < j then (if b = 0 then (j, c) :: rest else (a, b) :: (j, c) :: rest)
    else if a = j then (if b = 0 then rest else (a, b) :: rest)
    else (j, c) :: Memory.set rest a b

/-- `n` bytes read from an address up. -/
def Memory.read (m : Memory) (a : Nat) : Nat → Bytes
  | 0 => []
  | n + 1 => Memory.get m a :: Memory.read m (a + 1) n

/-- Bytes written from an address up. -/
def Memory.write (m : Memory) (a : Nat) (bs : Bytes) : Memory :=
  match bs with
  | [] => m
  | b :: rest => Memory.write (m.set a b) (a + 1) rest

/-- `n` bytes zeroed from an address up: every listed byte of the range goes. -/
def Memory.clear (m : Memory) (a n : Nat) : Memory := m.filter (fun p => p.1 < a || a + n ≤ p.1)

/-- A little-endian number of `n` bytes (R9). -/
def leBytes (v : Nat) : Nat → Bytes
  | 0 => []
  | n + 1 => BitVec.ofNat 8 v :: leBytes (v / 256) n

/-- The number that little-endian bytes spell (R9). -/
def leNat : Bytes → Nat
  | [] => 0
  | b :: rest => b.toNat + 256 * leNat rest

/-- A field of a record: `n` bytes from byte `i`, little-endian (R9). A byte past the end reads zero. -/
def fieldLE (bs : Bytes) (i n : Nat) : Nat := leNat ((bs.drop i).take n)

/-- Byte `i` of a record. -/
def byteAt (bs : Bytes) (i : Nat) : Nat := ((bs[i]?).getD 0).toNat

/-- Whether bytes `i` up, `n` of them, are all zero (reserved bytes, R13). -/
def zerosAt (bs : Bytes) (i n : Nat) : Bool := ((bs.drop i).take n).all (· = 0)

/-- `n` zero bytes. -/
def zeros (n : Nat) : Bytes := List.replicate n 0

/-- Bit `i` of a number. -/
def bitOf (v i : Nat) : Bool := v.testBit i

/-- A Bool as a number. -/
def b2n (b : Bool) : Nat := if b then 1 else 0

/-- A number with bit `i` set or cleared. -/
def setBit (v i : Nat) (b : Bool) : Nat := if v.testBit i = b then v else if b then v + 2 ^ i else v - 2 ^ i

/-- Two's complement of an integer in `n` bits. -/
def twos (v : Int) (n : Nat) : Nat := (v % (2 ^ n : Nat)).toNat

/-- The integer that `n` bits in two's complement spell. -/
def untwos (v n : Nat) : Int := if v < 2 ^ (n - 1) then v else (v : Int) - (2 ^ n : Nat)

end Sys2Proof.Machine
end

