-- ==== Sys2Proof/Machine/Crypto.lean ====
section
/-! DEFINITION. The algorithms that the table "Algorithms and their uses" of 13_security.md names: SHA-384, AES-256 with its modes GCM,
KW and CMAC, ECDSA and ECDH over P-384, and the two key derivations of R424 and R432. The standards that the spec names give them
(notes/assumptions/5.md). Words and field elements are numbers here; a string of bytes is read most significant byte first. -/
namespace Sys2Proof.Machine

/-- A number is evaluated before what depends on it. -/
def forced {α : Type} (n : Nat) (k : Nat → α) : α :=
  match n with
  | 0 => k 0
  | m + 1 => k (m + 1)

/-- The number that bytes spell, the most significant byte first. -/
def beNum (bs : Bytes) : Nat := bs.foldl (fun a b => 256 * a + b.toNat) 0

/-- The bytes of a number, the most significant first. -/
def beBytes (v n : Nat) : Bytes := (leBytes v n).reverse

/-- The text of the spec as bytes. -/
def asciiBytes (cs : List Nat) : Bytes := cs.map (BitVec.ofNat 8)

/-- A list in groups of `n`, at most `fuel` of them. -/
def inGroups {α : Type} (n : Nat) : Nat → List α → List (List α)
  | 0, _ => []
  | fuel + 1, xs => if xs.isEmpty then [] else xs.take n :: inGroups n fuel (xs.drop n)

/-! SHA-384 (FIPS 180-4). -/

/-- A 64-bit word rotated right. -/
def rotr64 (x n : Nat) : Nat := (x >>> n) ||| ((x <<< (64 - n)) % 2 ^ 64)

/-- The round constants, five 64-bit words to a number. -/
def shaRows : List Nat :=
  [0x428a2f98d728ae227137449123ef65cdb5c0fbcfec4d3b2fe9b5dba58189dbbc3956c25bf348b538,
   0x59f111f1b605d019923f82a4af194f9bab1c5ed5da6d8118d807aa98a303024212835b0145706fbe,
   0x243185be4ee4b28c550c7dc3d5ffb4e272be5d74f27b896f80deb1fe3b1696b19bdc06a725c71235,
   0xc19bf174cf692694e49b69c19ef14ad2efbe4786384f25e30fc19dc68b8cd5b5240ca1cc77ac9c65,
   0x2de92c6f592b02754a7484aa6ea6e4835cb0a9dcbd41fbd476f988da831153b5983e5152ee66dfab,
   0xa831c66d2db43210b00327c898fb213fbf597fc7beef0ee4c6e00bf33da88fc2d5a79147930aa725,
   0x06ca6351e003826f142929670a0e6e7027b70a8546d22ffc2e1b21385c26c9264d2c6dfc5ac42aed,
   0x53380d139d95b3df650a73548baf63de766a0abb3c77b2a881c2c92e47edaee692722c851482353b,
   0xa2bfe8a14cf10364a81a664bbc423001c24b8b70d0f89791c76c51a30654be30d192e819d6ef5218,
   0xd69906245565a910f40e35855771202a106aa07032bbd1b819a4c116b8d2d0c81e376c085141ab53,
   0x2748774cdf8eeb9934b0bcb5e19b48a8391c0cb3c5c95a634ed8aa4ae3418acb5b9cca4f7763e373,
   0x682e6ff3d6b2b8a3748f82ee5defb2fc78a5636f43172f6084c87814a1f0ab728cc702081a6439ec,
   0x90befffa23631e28a4506cebde82bde9bef9a3f7b2c67915c67178f2e372532bca273eceea26619c,
   0xd186b8c721c0c207eada7dd6cde0eb1ef57d4f7fee6ed17806f067aa72176fba0a637dc5a2c898a6,
   0x113f9804bef90dae1b710b35131c471b28db77f523047d8432caab7b40c724933c9ebe0a15c9bebc,
   0x431d67c49c100d4c4cc5d4becb3e42b6597f299cfc657e2a5fcb6fab3ad6faec6c44198c4a475817]

/-- The constant of round `i`. -/
def shaK (i : Nat) : Nat := (shaRows.getD (i / 5) 0 >>> (64 * (4 - i % 5))) % 2 ^ 64

/-- The eight working words. -/
structure ShaState where
  a : Nat
  b : Nat
  c : Nat
  d : Nat
  e : Nat
  f : Nat
  g : Nat
  h : Nat
deriving DecidableEq, Repr

/-- The start value of SHA-384. -/
def shaStart : ShaState :=
  let w (i : Nat) : Nat := (0xcbbb9d5dc1059ed8629a292a367cd5079159015a3070dd17152fecd8f70e593967332667ffc00b318eb44a8768581511db0c2e0d64f98fa747b5481dbefa4fa4 >>> (64 * (7 - i))) % 2 ^ 64
  ⟨w 0, w 1, w 2, w 3, w 4, w 5, w 6, w 7⟩

/-- One round with its constant and its message word. -/
def ShaState.round (s : ShaState) (k w : Nat) : ShaState :=
  let big1 := rotr64 s.e 14 ^^^ rotr64 s.e 18 ^^^ rotr64 s.e 41
  let choice := (s.e &&& s.f) ^^^ ((2 ^ 64 - 1 - s.e) &&& s.g)
  let big0 := rotr64 s.a 28 ^^^ rotr64 s.a 34 ^^^ rotr64 s.a 39
  let major := (s.a &&& s.b) ^^^ (s.a &&& s.c) ^^^ (s.b &&& s.c)
  forced (s.h + big1 + choice + k + w) (fun t1 =>
    forced ((t1 + big0 + major) % 2 ^ 64) (fun a =>
      forced ((s.d + t1) % 2 ^ 64) (fun e => ⟨a, s.a, s.b, s.c, e, s.e, s.f, s.g⟩)))

/-- The next message word, from the sixteen words before it, the oldest first. -/
def shaNext (ws : List Nat) : Nat :=
  let s0 (x : Nat) : Nat := rotr64 x 1 ^^^ rotr64 x 8 ^^^ (x >>> 7)
  let s1 (x : Nat) : Nat := rotr64 x 19 ^^^ rotr64 x 61 ^^^ (x >>> 6)
  (s1 (ws.getD 14 0) + ws.getD 9 0 + s0 (ws.getD 1 0) + ws.getD 0 0) % 2 ^ 64

/-- Rounds `i` up, with a window of sixteen message words. -/
def shaRounds : Nat → Nat → List Nat → ShaState → ShaState
  | 0, _, _, s => s
  | n + 1, i, ws, s =>
    forced (shaNext ws) (fun w => shaRounds n (i + 1) (ws.drop 1 ++ [w]) (s.round (shaK i) (ws.getD 0 0)))

/-- A block of 128 bytes is taken in. -/
def ShaState.block (s : ShaState) (bs : Bytes) : ShaState :=
  let t := shaRounds 80 0 ((inGroups 8 16 bs).map beNum) s
  let sum (x y : Nat) (k : Nat → ShaState) : ShaState := forced ((x + y) % 2 ^ 64) k
  sum s.a t.a (fun a => sum s.b t.b (fun b => sum s.c t.c (fun c => sum s.d t.d (fun d => sum s.e t.e (fun e =>
    sum s.f t.f (fun f => sum s.g t.g (fun g => sum s.h t.h (fun h => ⟨a, b, c, d, e, f, g, h⟩))))))))

/-- The message with its padding: a one bit, zeros, and its length in bits. -/
def shaPad (bs : Bytes) : Bytes :=
  bs ++ [0x80] ++ zeros ((239 - bs.length % 128) % 128) ++ beBytes (8 * bs.length) 16

/-- SHA-384: 48 bytes. -/
def sha384 (bs : Bytes) : Bytes :=
  let p := shaPad bs
  let s := (inGroups 128 (p.length / 128) p).foldl ShaState.block shaStart
  [s.a, s.b, s.c, s.d, s.e, s.f].flatMap (fun w => beBytes w 8)

/-! AES-256 (FIPS 197). A state and a round key are numbers of sixteen bytes, the first the most significant, column after column. -/

/-- The S-box, a row of sixteen bytes to a number. -/
def sboxRows : List Nat :=
  [0x637c777bf26b6fc53001672bfed7ab76, 0xca82c97dfa5947f0add4a2af9ca472c0,
   0xb7fd9326363ff7cc34a5e5f171d83115, 0x04c723c31896059a071280e2eb27b275,
   0x09832c1a1b6e5aa0523bd6b329e32f84, 0x53d100ed20fcb15b6acbbe394a4c58cf,
   0xd0efaafb434d338545f9027f503c9fa8, 0x51a3408f929d38f5bcb6da2110fff3d2,
   0xcd0c13ec5f974417c4a77e3d645d1973, 0x60814fdc222a908846eeb814de5e0bdb,
   0xe0323a0a4906245cc2d3ac629195e479, 0xe7c8376d8dd54ea96c56f4ea657aae08,
   0xba78252e1ca6b4c6e8dd741f4bbd8b8a, 0x703eb5664803f60e613557b986c11d9e,
   0xe1f8981169d98e949b1e87e9ce5528df, 0x8ca1890dbfe6426841992d0fb054bb16]

/-- The inverse S-box. -/
def invSboxRows : List Nat :=
  [0x52096ad53036a538bf40a39e81f3d7fb, 0x7ce339829b2fff87348e4344c4dee9cb,
   0x547b9432a6c2233dee4c950b42fac34e, 0x082ea16628d924b2765ba2496d8bd125,
   0x72f8f66486689816d4a45ccc5d65b692, 0x6c704850fdedb9da5e154657a78d9d84,
   0x90d8ab008cbcd30af7e45805b8b34506, 0xd02c1e8fca3f0f02c1afbd0301138a6b,
   0x3a9111414f67dcea97f2cfcef0b4e673, 0x96ac7422e7ad3585e2f937e81c75df6e,
   0x47f11a711d29c5896fb7620eaa18be1b, 0xfc563e4bc6d279209adbc0fe78cd5af4,
   0x1fdda8338807c731b11210592780ec5f, 0x60517fa919b54a0d2de57a9f93c99cef,
   0xa0e03b4dae2af5b0c8ebbb3c83539961, 0x172b047eba77d626e169146355210c7d]

/-- An S-box looked up. -/
def sboxOf (rows : List Nat) (x : Nat) : Nat := (rows.getD (x / 16) 0 >>> (8 * (15 - x % 16))) % 256

/-- The sixteen bytes of a state, each an element of GF(2^8) under x^8 + x^4 + x^3 + x + 1, times x. -/
def aesDouble (st : Nat) : Nat :=
  ((st &&& 0x7F7F7F7F7F7F7F7F7F7F7F7F7F7F7F7F) <<< 1) ^^^ (((st >>> 7) &&& 0x01010101010101010101010101010101) * 0x1B)

/-- The bytes of each column moved up by one, the first to the end. -/
def aesTurn (st : Nat) : Nat :=
  ((st <<< 8) &&& 0xFFFFFF00FFFFFF00FFFFFF00FFFFFF00) ||| ((st >>> 24) &&& 0x000000FF000000FF000000FF000000FF)

/-- The columns mixed: 2, 3, 1, 1. -/
def mixColumns (st : Nat) : Nat :=
  forced (aesTurn st) (fun t1 => forced (aesTurn t1) (fun t2 => aesDouble (st ^^^ t1) ^^^ t1 ^^^ t2 ^^^ aesTurn t2))

/-- The columns mixed back: 14, 11, 13, 9, that is, 4 times each byte and that two below it added before they are mixed. -/
def unmixColumns (st : Nat) : Nat :=
  forced (st ^^^ aesTurn (aesTurn st)) (fun y => mixColumns (st ^^^ aesDouble (aesDouble y)))

/-- Every byte looked up in an S-box, and row `r` turned by `d * r` columns. -/
def aesSub (rows : List Nat) (d st : Nat) : Nat :=
  (List.range 16).foldl (fun acc i =>
    forced (256 * acc + sboxOf rows ((st >>> (8 * (15 - (i + 4 * d * (i % 4)) % 16))) % 256)) id) 0

/-- The bytes of a word looked up in the S-box. -/
def subWord (w : Nat) : Nat := (List.range 4).foldl (fun acc i => 256 * acc + sboxOf sboxRows ((w >>> (8 * (3 - i))) % 256)) 0

/-- The words of the key schedule, the latest first. -/
def keyWords : Nat → Nat → List Nat → List Nat
  | 0, _, ws => ws
  | n + 1, i, ws =>
    let prev := ws.getD 0 0
    let mix := if i % 8 = 0 then subWord ((prev <<< 8) % 2 ^ 32 ||| (prev >>> 24)) ^^^ (2 ^ (i / 8 - 1) <<< 24)
      else if i % 8 = 4 then subWord prev else prev
    forced (ws.getD 7 0 ^^^ mix) (fun w => keyWords n (i + 1) (w :: ws))

/-- The fifteen round keys of a key of 32 bytes. -/
def roundKeys (key : Bytes) : List Nat :=
  let ws := (keyWords 52 8 ((inGroups 4 8 key).map beNum).reverse).reverse
  (inGroups 4 15 ws).map (fun k => k.foldl (fun a w => a * 2 ^ 32 + w) 0)

/-- A block encrypted under round keys. -/
def aesEncrypt (ks : List Nat) (block : Nat) : Nat :=
  let last := (List.range 13).foldl (fun st r =>
    forced (aesSub sboxRows 1 st) (fun x => forced (mixColumns x ^^^ ks.getD (r + 1) 0) id)) (block ^^^ ks.getD 0 0)
  aesSub sboxRows 1 last ^^^ ks.getD 14 0

/-- A block decrypted. -/
def aesDecrypt (ks : List Nat) (block : Nat) : Nat :=
  let first := (List.range 13).foldl (fun st r =>
    forced (aesSub invSboxRows 3 st ^^^ ks.getD (13 - r) 0) (fun x => forced (unmixColumns x) id)) (block ^^^ ks.getD 14 0)
  aesSub invSboxRows 3 first ^^^ ks.getD 0 0

/-- A block of bytes encrypted. -/
def aesBlock (ks : List Nat) (bs : Bytes) : Bytes := beBytes (aesEncrypt ks (beNum bs)) 16

/-- A block of bytes decrypted. -/
def aesUnblock (ks : List Nat) (bs : Bytes) : Bytes := beBytes (aesDecrypt ks (beNum bs)) 16

/-- Two strings of bytes added. -/
def xorBytes (xs ys : Bytes) : Bytes := List.zipWith (fun x y => x ^^^ y) xs ys

/-! GCM (SP 800-38D), with a nonce of 96 bits and a tag of 128 bits. -/

/-- A product in GF(2^128) of GCM, bit 0 the most significant. -/
def gcmMul (x y : Nat) : Nat :=
  ((List.range 128).foldl (fun (zv : Nat × Nat) i =>
    forced (if x.testBit (127 - i) then zv.1 ^^^ zv.2 else zv.1) (fun z =>
      forced (if zv.2 % 2 = 1 then (zv.2 / 2) ^^^ (0xE1 * 2 ^ 120) else zv.2 / 2) (fun v => (z, v)))) (0, y)).1

/-- Bytes filled with zeros up to a multiple of 16. -/
def pad16 (bs : Bytes) : Bytes := bs ++ zeros ((16 - bs.length % 16) % 16)

/-- The hash of GCM under its subkey. -/
def ghash (h : Nat) (bs : Bytes) : Nat :=
  (inGroups 16 (bs.length / 16) bs).foldl (fun y b => forced (gcmMul (y ^^^ beNum b) h) id) 0

/-- The key stream of GCM for `n` bytes: the blocks of the counter from 2 on. -/
def gcmStream (ks : List Nat) (nonce : Bytes) (n : Nat) : Bytes :=
  ((List.range ((n + 15) / 16)).flatMap (fun i => aesBlock ks (nonce ++ beBytes (i + 2) 4))).take n

/-- The tag of GCM over a ciphertext and its additional data. -/
def gcmTag (ks : List Nat) (nonce aad ct : Bytes) : Bytes :=
  let h := beNum (aesBlock ks (zeros 16))
  let s := ghash h (pad16 aad ++ pad16 ct ++ beBytes (8 * aad.length) 8 ++ beBytes (8 * ct.length) 8)
  xorBytes (beBytes s 16) (aesBlock ks (nonce ++ beBytes 1 4))

/-- Encryption and decryption by GCM: the same sum with the key stream. -/
def gcmCrypt (ks : List Nat) (nonce text : Bytes) : Bytes := xorBytes text (gcmStream ks nonce text.length)

/-! CMAC (SP 800-38B). -/

/-- A subkey doubled. -/
def cmacDouble (x : Nat) : Nat := if x < 2 ^ 127 then 2 * x else (2 * x % 2 ^ 128) ^^^ 0x87

/-- AES-256-CMAC: 16 bytes. -/
def cmac (key msg : Bytes) : Bytes :=
  let ks := roundKeys key
  let k1 := cmacDouble (beNum (aesBlock ks (zeros 16)))
  let whole := msg.length % 16 = 0 && msg.length != 0
  let n := if whole then msg.length / 16 - 1 else msg.length / 16
  let tail := msg.drop (16 * n)
  let last := if whole then xorBytes tail (beBytes k1 16)
    else xorBytes (tail ++ [0x80] ++ zeros (15 - tail.length)) (beBytes (cmacDouble k1) 16)
  let mid := (inGroups 16 n msg).foldl (fun c b => aesBlock ks (xorBytes c b)) (zeros 16)
  aesBlock ks (xorBytes mid last)

/-! Key wrap KW (SP 800-38F). -/

/-- The integrity value of KW. -/
def kwValue : Bytes := List.replicate 8 0xA6

/-- A key wrapped: 8 bytes longer. -/
def kwWrap (kek text : Bytes) : Bytes :=
  let ks := roundKeys kek
  let n := text.length / 8
  let end_ := (List.range (6 * n)).foldl (fun (ar : Bytes × List Bytes) t =>
    let b := aesBlock ks (ar.1 ++ ar.2.headD [])
    (xorBytes (b.take 8) (beBytes (t + 1) 8), ar.2.drop 1 ++ [b.drop 8])) (kwValue, inGroups 8 n text)
  end_.1 ++ end_.2.flatten

/-- A wrapped key opened, where its integrity value is right. -/
def kwUnwrap (kek wrapped : Bytes) : Option Bytes :=
  let ks := roundKeys kek
  let n := wrapped.length / 8 - 1
  let end_ := (List.range (6 * n)).foldl (fun (ar : Bytes × List Bytes) t =>
    let b := aesUnblock ks (xorBytes ar.1 (beBytes (6 * n - t) 8) ++ ar.2.getLastD [])
    (b.take 8, b.drop 8 :: ar.2.dropLast)) (wrapped.take 8, inGroups 8 n (wrapped.drop 8))
  if 16 ≤ wrapped.length && wrapped.length % 8 = 0 && end_.1 = kwValue then some end_.2.flatten else none

/-! P-384 (FIPS 186-5, SP 800-186). A point is given by X, Y and Z; it is the neutral point where Z is 0. -/

/-- The prime of the field. -/
def p384 : Nat := 2 ^ 384 - 2 ^ 128 - 2 ^ 96 + 2 ^ 32 - 1
/-- The order of the base point. -/
def n384 : Nat := 0xffffffffffffffffffffffffffffffffffffffffffffffffc7634d81f4372ddf581a0db248b0a77aecec196accc52973
/-- The coefficient b of the curve; the coefficient a is -3. -/
def b384 : Nat := 0xb3312fa7e23ee7e4988e056be3f82d19181d9c6efe8141120314088f5013875ac656398d8a2ed19d2a85c8edd3ec2aef
/-- The base point. -/
def gx384 : Nat := 0xaa87ca22be8b05378eb1c71ef320ad746e1d3b628ba79b9859f741e082542a385502f25dbf55296c3a545e3872760ab7
/-- The base point. -/
def gy384 : Nat := 0x3617de4a96262c6f5d9e98bf9292dc29f8f41dbd289a147ce9da3113b5f0b8c00a60b1ce1d7e819d7a431d7c90ea0e5f

/-- A point of the curve, in Jacobian coordinates. -/
structure Point where
  x : Nat
  y : Nat
  z : Nat
deriving DecidableEq, Repr

/-- The neutral point. -/
def Point.zero : Point := ⟨1, 1, 0⟩
/-- The base point. -/
def Point.base : Point := ⟨gx384, gy384, 1⟩

/-- A product in the field, evaluated before what follows. -/
def fieldMul {α : Type} (a b : Nat) (k : Nat → α) : α := forced (a * b % p384) k
/-- A difference in the field. -/
def fieldSub {α : Type} (a b : Nat) (k : Nat → α) : α := forced ((a + p384 - b) % p384) k

/-- A point doubled. -/
def Point.double (p : Point) : Point :=
  fieldMul p.z p.z (fun zz =>
  fieldMul p.y p.y (fun yy =>
  fieldMul p.x yy (fun xyy =>
  fieldMul (p.x + p384 - zz) (p.x + zz) (fun u =>
  fieldMul (3 * u) (3 * u) (fun mm =>
  fieldSub mm (8 * xyy % p384) (fun x3 =>
  fieldMul (3 * u) (4 * xyy + p384 - x3) (fun l =>
  fieldMul (8 * yy) yy (fun r =>
  fieldSub l r (fun y3 =>
  fieldMul (2 * p.y) p.z (fun z3 => ⟨x3, y3, z3⟩))))))))))

/-- Two points added. -/
def Point.add (p q : Point) : Point :=
  if p.z = 0 then q
  else if q.z = 0 then p
  else
    fieldMul p.z p.z (fun zz1 =>
    fieldMul q.z q.z (fun zz2 =>
    fieldMul p.x zz2 (fun u1 =>
    fieldMul q.x zz1 (fun u2 =>
    fieldMul (p.y * q.z) zz2 (fun s1 =>
    fieldMul (q.y * p.z) zz1 (fun s2 =>
    if u1 = u2 then (if s1 = s2 then p.double else Point.zero)
    else
      fieldSub u2 u1 (fun h =>
      fieldSub s2 s1 (fun r =>
      fieldMul h h (fun hh =>
      fieldMul hh h (fun hhh =>
      fieldMul u1 hh (fun v =>
      fieldMul r r (fun rr =>
      fieldSub rr ((hhh + 2 * v) % p384) (fun x3 =>
      fieldMul r (v + p384 - x3) (fun l =>
      fieldMul s1 hhh (fun m =>
      fieldSub l m (fun y3 =>
      fieldMul (p.z * q.z) h (fun z3 => ⟨x3, y3, z3⟩)))))))))))))))))

/-- A point taken `k` times, from the highest of 384 bits down. -/
def Point.times (k : Nat) (p : Point) : Point :=
  (List.range 384).foldl (fun (q : Point) i => if k.testBit (383 - i) then (q.double).add p else q.double) Point.zero

/-- A power modulo a number. -/
def powMod (m b e : Nat) : Nat :=
  (List.range 384).foldl (fun r i =>
    forced (r * r % m) (fun q => if e.testBit (383 - i) then forced (q * b % m) id else q)) 1

/-- The affine coordinates of a point. -/
def Point.affine (p : Point) : Nat × Nat :=
  let zi := powMod p384 p.z (p384 - 2)
  fieldMul zi zi (fun zz => (p.x * zz % p384, p.y * zz % p384 * zi % p384))

/-- A public key of 97 bytes (SEC 1, uncompressed): a point of the curve. -/
def pointOf (bs : Bytes) : Option Point :=
  let x := beNum ((bs.drop 1).take 48)
  let y := beNum ((bs.drop 49).take 48)
  if bs.length = 97 && byteAt bs 0 = 4 && x < p384 && y < p384 && y * y % p384 = (x * x * x + (p384 - 3) * x + b384) % p384 then
    some ⟨x, y, 1⟩
  else none

/-- The public key of a private key. -/
def publicKey (d : Nat) : Bytes :=
  let xy := (Point.times d Point.base).affine
  [0x04] ++ beBytes xy.1 48 ++ beBytes xy.2 48

/-- ECDSA with SHA-384: a signature of 96 bytes over a message verifies under a public key. -/
def ecdsaOk (key msg sig : Bytes) : Bool :=
  match pointOf key with
  | none => false
  | some q =>
    let r := beNum (sig.take 48)
    let s := beNum (sig.drop 48)
    let w := powMod n384 s (n384 - 2)
    let u1 := beNum (sha384 msg) * w % n384
    let u2 := r * w % n384
    let p := (Point.times u1 Point.base).add (Point.times u2 q)
    sig.length == 96 && r != 0 && r < n384 && s != 0 && s < n384 && p.z != 0 && p.affine.1 % n384 == r

/-- The x-coordinate of the shared point of a private key and a public key (ECDH), 48 bytes; none where the key is no point. -/
def ecdh (d : Nat) (key : Bytes) : Option Bytes :=
  match pointOf key with
  | none => none
  | some q =>
    let p := Point.times d q
    if p.z = 0 then none else some (beBytes p.affine.1 48)

/-! The derivations of the spec. -/

/-- The transport wrapping key (R424): the first 32 bytes of SHA-384 over a counter of 1, Z and the text ALSRXPT1. -/
def transportKey (z : Bytes) : Bytes :=
  (sha384 (beBytes 1 4 ++ z ++ asciiBytes [0x41, 0x4C, 0x53, 0x52, 0x58, 0x50, 0x54, 0x31])).take 32

/-- The session key of a master under a command-authentication key and the boot nonce (R432): two blocks of CMAC. -/
def sessionKey (key nonce : Bytes) (master : Nat) : Bytes :=
  let block (i : Nat) : Bytes := cmac key
    (beBytes i 1 ++ asciiBytes [0x41, 0x4C, 0x53, 0x52, 0x43, 0x4D, 0x44, 0x31] ++ [0x00] ++ nonce ++ leBytes master 4 ++
      beBytes 256 2)
  block 1 ++ block 2

end Sys2Proof.Machine
end

