-- ==== Sys2Proof/Machine/Regs.lean ====
section
/-! DEFINITION. The registers of BAR0 (R1, R2, R4) and their fields: offset, access code and reset value of each, from the register tables
of every chapter and the register index of 21_registers.md. A field whose reset value the spec does not give rests at zero
(notes/assumptions/2.md). -/
namespace Sys2Proof.Machine

/-- Access codes of register fields (R12). -/
inductive Acc where
  | ro | rw | w1c | w1s | rc | wo
deriving DecidableEq, Repr

/-- One field of a register: access code, lowest bit, width and reset value. -/
structure FieldDesc where
  acc : Acc
  lo : Nat
  width : Nat
  reset : Nat
deriving DecidableEq, Repr

/-- The registers (21_registers.md, Register index). `BTH_GRANT` stands for BTH_GRANT0 to BTH_GRANT63. -/
inductive Reg where
  | GLB_IDENT
  | GLB_DEV_SIGNATURE
  | GLB_ACCESS_LOG
  | GLB_TIDE_COUNT
  | GLB_TIDE_CTL
  | GLB_TOD_NEXT
  | GLB_PPS_CAPTURE
  | GLB_TIDE_STATUS
  | GLB_BOOT_STATUS
  | GLB_BOOT_ERROR
  | GLB_BOOT_CTL
  | GLB_FLASH_PROG_ADDR
  | GLB_FLASH_PROG_CTL
  | GLB_MODE_CTL
  | GLB_MODE_STATUS
  | PIL_STATUS
  | PIL_INSERT_COUNT
  | PIL_TABLE_SEL
  | PIL_TABLE_INFO
  | PIL_CHART_INFO
  | PIL_HOT_CTL
  | PIL_HOT_STATUS
  | PIL_DRAIN_CTL
  | PIL_DRAIN_STATUS
  | ARY_SCRUB_CTL
  | ARY_SCRUB_STATUS
  | ARY_INTEG_COUNT0
  | ARY_INTEG_COUNT1
  | ARY_INTEG_COUNT2
  | ARY_BANK_SEL
  | ARY_BANK_INFO
  | ARY_BIST_CTL
  | ARY_BIST_STATUS
  | ARY_HEALTH
  | LRN_MNF_CTL
  | LRN_MNF_STATUS
  | LRN_MNF_PTR
  | LRN_MNF_WM
  | LRN_MNF_WIN0
  | LRN_MNF_WIN1
  | LRN_MNF_WIN2
  | LRN_MNF_WIN3
  | LRN_MNF_COUNT
  | LRN_FILTER_CTL
  | LRN_FILTER_STATUS
  | LRN_AGE_CTL
  | LRN_AGE_STATUS
  | LRN_AGE_COUNT
  | SCB_STATUS
  | SCB_ONLINE
  | SCB_ACTIVE
  | SCB_SCRIBE_CTL
  | SCB_GLYPH_ADDR
  | SCB_GLYPH_CTL
  | SCB_SET_SEL
  | SCB_SET_INFO
  | SCB_CACHE_STATUS
  | SCB_COUNT0
  | SCB_COUNT1
  | TEL_CNT_SEL
  | TEL_CNT_READ
  | TEL_CNT_WRITE
  | TEL_CNT_STATUS
  | TEL_SAMPLE_CTL
  | TEL_MIRROR_SEL
  | TEL_MIRROR_CTL
  | TEL_DEST_CTL
  | TEL_CAPTURE_PTR
  | TEL_DROP_COUNT
  | BTH_SEL
  | BTH_INFO
  | BTH_QUOTA
  | BTH_LEVEL_C
  | BTH_LEVEL_P
  | BTH_RATE
  | BTH_SHAPER_CTL
  | BTH_COLOUR_COUNT
  | BTH_STATUS
  | BTH_GLYPH_MASK
  | BTH_MASTER_SEL
  | BTH_MASTER_RANGE
  | BTH_GRANT
  | SEC_STATUS
  | SEC_BOOT_NONCE0
  | SEC_BOOT_NONCE1
  | SEC_UID0
  | SEC_UID1
  | SEC_TAMPER_LOG
  | SEC_FREEZE_SEL
  | SEC_FREEZE_INFO
  | SEC_THAW
  | QUY_SEL
  | QUY_STATUS
  | QUY_CTL
  | QUY_LANES
  | QUY_POOLS
  | QUY_ERR_COUNT
  | QUY_CORR_COUNT
  | QUY_RESULT_COUNT
  | QUY_XOFF
  | RNG_STATUS
  | RNG_PORT_STATUS
  | RNG_CTL
  | RNG_COUNT0
  | RNG_COUNT1
  | HST_STATUS
  | HST_DMA_REJECT
  | HST_CPL_COUNT
  | HST_HOST_COUNT
  | HST_RING_SEL
  | HST_RING_BASE
  | HST_RING_WB
  | HST_RING_CTL
  | HST_RING_STATUS
  | HST_WIN_SEL
  | HST_WIN_NEXT
  | HST_WIN_ACTIVE
  | HST_WIN_CTL
  | HST_WIN_COUNT
  | MEM_STATUS
  | MEM_CTL
  | MEM_RT_CTL
  | MEM_PC_SEL
  | MEM_PC_INFO
  | MEM_ERR_COUNT
  | MEM_REBUILD
  | PWR_STATE_CTL
  | PWR_STATE_STATUS
  | PWR_WAKE_CTL
  | PWR_RTC
  | PWR_DOMAIN_STATUS
  | PWR_DOMAIN_RESET
  | PWR_RESET_CAUSE
  | FLT_STATUS
  | FLT_CTL
  | FLT_ROUTE
  | FLT_WIN0
  | FLT_WIN1
  | FLT_WIN2
  | FLT_WIN3
  | FLT_COUNT0
  | FLT_COUNT1
  | TST_IDCODE
  | TST_TAP_STATUS
deriving DecidableEq, Repr

/-- The BAR0 offset of each register. -/
def Reg.offset : Reg → Nat
  | .GLB_IDENT => 0x00000000
  | .GLB_DEV_SIGNATURE => 0x00000008
  | .GLB_ACCESS_LOG => 0x00000018
  | .GLB_TIDE_COUNT => 0x00000100
  | .GLB_TIDE_CTL => 0x00000108
  | .GLB_TOD_NEXT => 0x00000110
  | .GLB_PPS_CAPTURE => 0x00000118
  | .GLB_TIDE_STATUS => 0x00000120
  | .GLB_BOOT_STATUS => 0x00000200
  | .GLB_BOOT_ERROR => 0x00000208
  | .GLB_BOOT_CTL => 0x00000210
  | .GLB_FLASH_PROG_ADDR => 0x00000218
  | .GLB_FLASH_PROG_CTL => 0x00000220
  | .GLB_MODE_CTL => 0x00000300
  | .GLB_MODE_STATUS => 0x00000308
  | .PIL_STATUS => 0x00100000
  | .PIL_INSERT_COUNT => 0x00100008
  | .PIL_TABLE_SEL => 0x00100010
  | .PIL_TABLE_INFO => 0x00100018
  | .PIL_CHART_INFO => 0x00100020
  | .PIL_HOT_CTL => 0x00100040
  | .PIL_HOT_STATUS => 0x00100048
  | .PIL_DRAIN_CTL => 0x00100060
  | .PIL_DRAIN_STATUS => 0x00100068
  | .ARY_SCRUB_CTL => 0x00200000
  | .ARY_SCRUB_STATUS => 0x00200008
  | .ARY_INTEG_COUNT0 => 0x00200010
  | .ARY_INTEG_COUNT1 => 0x00200018
  | .ARY_INTEG_COUNT2 => 0x00200020
  | .ARY_BANK_SEL => 0x00200040
  | .ARY_BANK_INFO => 0x00200048
  | .ARY_BIST_CTL => 0x00200080
  | .ARY_BIST_STATUS => 0x00200088
  | .ARY_HEALTH => 0x00200090
  | .LRN_MNF_CTL => 0x00300000
  | .LRN_MNF_STATUS => 0x00300008
  | .LRN_MNF_PTR => 0x00300010
  | .LRN_MNF_WM => 0x00300018
  | .LRN_MNF_WIN0 => 0x00300020
  | .LRN_MNF_WIN1 => 0x00300028
  | .LRN_MNF_WIN2 => 0x00300030
  | .LRN_MNF_WIN3 => 0x00300038
  | .LRN_MNF_COUNT => 0x00300040
  | .LRN_FILTER_CTL => 0x00300080
  | .LRN_FILTER_STATUS => 0x00300088
  | .LRN_AGE_CTL => 0x003000C0
  | .LRN_AGE_STATUS => 0x003000C8
  | .LRN_AGE_COUNT => 0x003000D0
  | .SCB_STATUS => 0x00400000
  | .SCB_ONLINE => 0x00400008
  | .SCB_ACTIVE => 0x00400010
  | .SCB_SCRIBE_CTL => 0x00400018
  | .SCB_GLYPH_ADDR => 0x00400020
  | .SCB_GLYPH_CTL => 0x00400028
  | .SCB_SET_SEL => 0x00400030
  | .SCB_SET_INFO => 0x00400038
  | .SCB_CACHE_STATUS => 0x00400040
  | .SCB_COUNT0 => 0x00400048
  | .SCB_COUNT1 => 0x00400050
  | .TEL_CNT_SEL => 0x00500000
  | .TEL_CNT_READ => 0x00500008
  | .TEL_CNT_WRITE => 0x00500010
  | .TEL_CNT_STATUS => 0x00500018
  | .TEL_SAMPLE_CTL => 0x00500040
  | .TEL_MIRROR_SEL => 0x00500080
  | .TEL_MIRROR_CTL => 0x00500088
  | .TEL_DEST_CTL => 0x005000C0
  | .TEL_CAPTURE_PTR => 0x005000C8
  | .TEL_DROP_COUNT => 0x005000D0
  | .BTH_SEL => 0x00600000
  | .BTH_INFO => 0x00600008
  | .BTH_QUOTA => 0x00600010
  | .BTH_LEVEL_C => 0x00600018
  | .BTH_LEVEL_P => 0x00600020
  | .BTH_RATE => 0x00600028
  | .BTH_SHAPER_CTL => 0x00600030
  | .BTH_COLOUR_COUNT => 0x00600038
  | .BTH_STATUS => 0x00600040
  | .BTH_GLYPH_MASK => 0x00600048
  | .BTH_MASTER_SEL => 0x00600080
  | .BTH_MASTER_RANGE => 0x00600088
  | .BTH_GRANT => 0x00600100
  | .SEC_STATUS => 0x00700000
  | .SEC_BOOT_NONCE0 => 0x00700008
  | .SEC_BOOT_NONCE1 => 0x00700010
  | .SEC_UID0 => 0x00700018
  | .SEC_UID1 => 0x00700020
  | .SEC_TAMPER_LOG => 0x00700028
  | .SEC_FREEZE_SEL => 0x00700040
  | .SEC_FREEZE_INFO => 0x00700048
  | .SEC_THAW => 0x00700050
  | .QUY_SEL => 0x00800000
  | .QUY_STATUS => 0x00800008
  | .QUY_CTL => 0x00800010
  | .QUY_LANES => 0x00800018
  | .QUY_POOLS => 0x00800020
  | .QUY_ERR_COUNT => 0x00800028
  | .QUY_CORR_COUNT => 0x00800030
  | .QUY_RESULT_COUNT => 0x00800038
  | .QUY_XOFF => 0x00800100
  | .RNG_STATUS => 0x00900000
  | .RNG_PORT_STATUS => 0x00900008
  | .RNG_CTL => 0x00900010
  | .RNG_COUNT0 => 0x00900018
  | .RNG_COUNT1 => 0x00900020
  | .HST_STATUS => 0x00A00000
  | .HST_DMA_REJECT => 0x00A00008
  | .HST_CPL_COUNT => 0x00A00010
  | .HST_HOST_COUNT => 0x00A00018
  | .HST_RING_SEL => 0x00A00040
  | .HST_RING_BASE => 0x00A00048
  | .HST_RING_WB => 0x00A00050
  | .HST_RING_CTL => 0x00A00058
  | .HST_RING_STATUS => 0x00A00060
  | .HST_WIN_SEL => 0x00A00080
  | .HST_WIN_NEXT => 0x00A00088
  | .HST_WIN_ACTIVE => 0x00A00090
  | .HST_WIN_CTL => 0x00A00098
  | .HST_WIN_COUNT => 0x00A000A0
  | .MEM_STATUS => 0x00B00000
  | .MEM_CTL => 0x00B00008
  | .MEM_RT_CTL => 0x00B00010
  | .MEM_PC_SEL => 0x00B00040
  | .MEM_PC_INFO => 0x00B00048
  | .MEM_ERR_COUNT => 0x00B00050
  | .MEM_REBUILD => 0x00B00058
  | .PWR_STATE_CTL => 0x00C00000
  | .PWR_STATE_STATUS => 0x00C00008
  | .PWR_WAKE_CTL => 0x00C00010
  | .PWR_RTC => 0x00C00018
  | .PWR_DOMAIN_STATUS => 0x00C00020
  | .PWR_DOMAIN_RESET => 0x00C00028
  | .PWR_RESET_CAUSE => 0x00C00030
  | .FLT_STATUS => 0x00D00000
  | .FLT_CTL => 0x00D00008
  | .FLT_ROUTE => 0x00D00010
  | .FLT_WIN0 => 0x00D00020
  | .FLT_WIN1 => 0x00D00028
  | .FLT_WIN2 => 0x00D00030
  | .FLT_WIN3 => 0x00D00038
  | .FLT_COUNT0 => 0x00D00040
  | .FLT_COUNT1 => 0x00D00048
  | .TST_IDCODE => 0x00E00000
  | .TST_TAP_STATUS => 0x00E00008

/-- The fields of each register, highest bits first. -/
def Reg.fields : Reg → List FieldDesc
  | .GLB_IDENT => [⟨.ro, 48, 16, 0xA15⟩, ⟨.ro, 32, 16, 0x1280⟩, ⟨.ro, 24, 8, 0x1⟩, ⟨.ro, 16, 8, 0x0⟩, ⟨.ro, 8, 8, 0x10⟩]
  | .GLB_DEV_SIGNATURE => [⟨.ro, 0, 64, 0x51312800E25A0001⟩]
  | .GLB_ACCESS_LOG => [⟨.rc, 48, 16, 0x0⟩, ⟨.ro, 40, 8, 0x0⟩, ⟨.ro, 36, 4, 0x0⟩, ⟨.ro, 3, 23, 0x0⟩]
  | .GLB_TIDE_COUNT => [⟨.ro, 0, 64, 0x0⟩]
  | .GLB_TIDE_CTL => [⟨.rw, 16, 8, 0x64⟩, ⟨.ro, 12, 4, 0x0⟩, ⟨.rw, 2, 1, 0x0⟩, ⟨.w1s, 1, 1, 0x0⟩, ⟨.rw, 0, 1, 0x0⟩]
  | .GLB_TOD_NEXT => [⟨.rw, 0, 41, 0x0⟩]
  | .GLB_PPS_CAPTURE => [⟨.ro, 8, 56, 0x0⟩, ⟨.ro, 0, 8, 0x0⟩]
  | .GLB_TIDE_STATUS => [⟨.ro, 32, 32, 0x0⟩, ⟨.ro, 16, 16, 0x0⟩, ⟨.w1c, 3, 1, 0x0⟩, ⟨.w1c, 2, 1, 0x0⟩, ⟨.ro, 1, 1, 0x0⟩, ⟨.ro, 0, 1, 0x0⟩]
  | .GLB_BOOT_STATUS => [⟨.ro, 32, 32, 0x0⟩, ⟨.ro, 16, 4, 0x0⟩, ⟨.w1c, 11, 1, 0x0⟩, ⟨.w1c, 10, 1, 0x0⟩, ⟨.ro, 9, 1, 0x0⟩, ⟨.ro, 8, 1, 0x0⟩, ⟨.w1c, 5, 1, 0x0⟩, ⟨.ro, 4, 1, 0x0⟩, ⟨.ro, 0, 4, 0x0⟩]
  | .GLB_BOOT_ERROR => [⟨.ro, 8, 8, 0x0⟩, ⟨.ro, 0, 8, 0x0⟩]
  | .GLB_BOOT_CTL => [⟨.w1s, 1, 1, 0x0⟩, ⟨.w1s, 0, 1, 0x0⟩]
  | .GLB_FLASH_PROG_ADDR => [⟨.rw, 0, 64, 0x0⟩]
  | .GLB_FLASH_PROG_CTL => [⟨.rw, 32, 32, 0x0⟩, ⟨.rw, 16, 16, 0x0⟩, ⟨.ro, 2, 2, 0x0⟩, ⟨.ro, 1, 1, 0x0⟩, ⟨.w1s, 0, 1, 0x0⟩]
  | .GLB_MODE_CTL => [⟨.w1s, 7, 1, 0x0⟩, ⟨.rw, 0, 3, 0x0⟩]
  | .GLB_MODE_STATUS => [⟨.ro, 32, 32, 0x0⟩, ⟨.ro, 24, 8, 0x0⟩, ⟨.ro, 16, 4, 0x0⟩, ⟨.w1c, 12, 1, 0x0⟩, ⟨.ro, 11, 1, 0x0⟩, ⟨.ro, 8, 3, 0x0⟩, ⟨.ro, 0, 3, 0x0⟩]
  | .PIL_STATUS => [⟨.ro, 32, 9, 0x0⟩, ⟨.ro, 7, 1, 0x0⟩, ⟨.ro, 6, 1, 0x0⟩, ⟨.ro, 5, 1, 0x0⟩, ⟨.w1c, 2, 1, 0x0⟩, ⟨.w1c, 1, 1, 0x0⟩, ⟨.w1c, 0, 1, 0x0⟩]
  | .PIL_INSERT_COUNT => [⟨.rc, 32, 32, 0x0⟩, ⟨.rc, 0, 32, 0x0⟩]
  | .PIL_TABLE_SEL => [⟨.rw, 0, 16, 0x0⟩]
  | .PIL_TABLE_INFO => [⟨.ro, 32, 32, 0x0⟩, ⟨.ro, 7, 25, 0x0⟩, ⟨.ro, 2, 2, 0x0⟩, ⟨.ro, 1, 1, 0x0⟩, ⟨.ro, 0, 1, 0x0⟩]
  | .PIL_CHART_INFO => [⟨.ro, 32, 32, 0x0⟩, ⟨.ro, 22, 10, 0x0⟩, ⟨.ro, 17, 5, 0x0⟩, ⟨.ro, 12, 5, 0x0⟩, ⟨.ro, 8, 4, 0x0⟩]
  | .PIL_HOT_CTL => [⟨.rw, 16, 4, 0x4⟩, ⟨.rw, 8, 8, 0x4⟩, ⟨.rw, 0, 1, 0x1⟩]
  | .PIL_HOT_STATUS => [⟨.ro, 42, 22, 0x0⟩, ⟨.ro, 21, 21, 0x0⟩, ⟨.ro, 0, 21, 0x0⟩]
  | .PIL_DRAIN_CTL => [⟨.rw, 7, 9, 0x0⟩, ⟨.rw, 1, 2, 0x0⟩, ⟨.w1s, 0, 1, 0x0⟩]
  | .PIL_DRAIN_STATUS => [⟨.ro, 32, 16, 0x0⟩, ⟨.ro, 4, 4, 0x0⟩, ⟨.w1c, 1, 1, 0x0⟩, ⟨.ro, 0, 1, 0x0⟩]
  | .ARY_SCRUB_CTL => [⟨.rw, 16, 8, 0x40⟩, ⟨.rw, 1, 1, 0x1⟩, ⟨.rw, 0, 1, 0x1⟩]
  | .ARY_SCRUB_STATUS => [⟨.ro, 40, 24, 0x0⟩, ⟨.ro, 16, 22, 0x0⟩, ⟨.ro, 8, 7, 0x0⟩, ⟨.w1c, 5, 1, 0x0⟩, ⟨.w1c, 4, 1, 0x0⟩, ⟨.w1c, 3, 1, 0x0⟩, ⟨.w1c, 2, 1, 0x0⟩, ⟨.w1c, 1, 1, 0x0⟩, ⟨.w1c, 0, 1, 0x0⟩]
  | .ARY_INTEG_COUNT0 => [⟨.rc, 32, 32, 0x0⟩, ⟨.rc, 0, 32, 0x0⟩]
  | .ARY_INTEG_COUNT1 => [⟨.rc, 48, 16, 0x0⟩, ⟨.rc, 32, 16, 0x0⟩, ⟨.rc, 16, 16, 0x0⟩, ⟨.rc, 0, 16, 0x0⟩]
  | .ARY_INTEG_COUNT2 => [⟨.rc, 48, 16, 0x0⟩, ⟨.rc, 32, 16, 0x0⟩, ⟨.rc, 16, 16, 0x0⟩, ⟨.ro, 0, 16, 0x0⟩]
  | .ARY_BANK_SEL => [⟨.rw, 0, 9, 0x0⟩]
  | .ARY_BANK_INFO => [⟨.ro, 48, 16, 0x0⟩, ⟨.ro, 32, 16, 0x0⟩, ⟨.ro, 22, 2, 0x0⟩, ⟨.ro, 21, 1, 0x0⟩, ⟨.ro, 19, 2, 0x0⟩, ⟨.ro, 16, 3, 0x0⟩, ⟨.ro, 11, 5, 0x0⟩]
  | .ARY_BIST_CTL => [⟨.rw, 14, 2, 0x0⟩, ⟨.rw, 11, 3, 0x0⟩, ⟨.rw, 6, 5, 0x0⟩, ⟨.w1s, 0, 1, 0x0⟩]
  | .ARY_BIST_STATUS => [⟨.ro, 48, 16, 0x0⟩, ⟨.ro, 32, 16, 0x0⟩, ⟨.ro, 15, 17, 0x0⟩, ⟨.ro, 5, 2, 0x0⟩, ⟨.w1c, 3, 1, 0x0⟩, ⟨.w1c, 2, 1, 0x0⟩, ⟨.w1c, 1, 1, 0x0⟩, ⟨.ro, 0, 1, 0x0⟩]
  | .ARY_HEALTH => [⟨.ro, 16, 10, 0x0⟩, ⟨.ro, 0, 10, 0x0⟩]
  | .LRN_MNF_CTL => [⟨.rw, 32, 12, 0x0⟩, ⟨.rw, 4, 2, 0x0⟩, ⟨.w1s, 3, 1, 0x0⟩, ⟨.w1s, 2, 1, 0x0⟩, ⟨.w1s, 1, 1, 0x0⟩, ⟨.rw, 0, 1, 0x1⟩]
  | .LRN_MNF_STATUS => [⟨.ro, 32, 16, 0x0⟩, ⟨.ro, 4, 1, 0x0⟩, ⟨.w1c, 3, 1, 0x0⟩, ⟨.w1c, 2, 1, 0x0⟩, ⟨.w1c, 1, 1, 0x0⟩, ⟨.ro, 0, 1, 0x0⟩]
  | .LRN_MNF_PTR => [⟨.ro, 48, 16, 0x0⟩, ⟨.ro, 32, 16, 0x0⟩, ⟨.ro, 16, 16, 0x0⟩, ⟨.ro, 0, 16, 0x0⟩]
  | .LRN_MNF_WM => [⟨.rw, 32, 16, 0x6000⟩, ⟨.rw, 0, 16, 0x2000⟩]
  | .LRN_MNF_WIN0 => [⟨.ro, 0, 64, 0x0⟩]
  | .LRN_MNF_WIN1 => [⟨.ro, 0, 64, 0x0⟩]
  | .LRN_MNF_WIN2 => [⟨.ro, 0, 64, 0x0⟩]
  | .LRN_MNF_WIN3 => [⟨.ro, 0, 64, 0x0⟩]
  | .LRN_MNF_COUNT => [⟨.rc, 32, 32, 0x0⟩, ⟨.rc, 0, 32, 0x0⟩]
  | .LRN_FILTER_CTL => [⟨.w1s, 16, 1, 0x0⟩, ⟨.rw, 0, 16, 0x10⟩]
  | .LRN_FILTER_STATUS => [⟨.rc, 32, 32, 0x0⟩, ⟨.rc, 16, 16, 0x0⟩, ⟨.ro, 0, 13, 0x0⟩]
  | .LRN_AGE_CTL => [⟨.rw, 0, 5, 0x10⟩]
  | .LRN_AGE_STATUS => [⟨.ro, 32, 24, 0x0⟩, ⟨.ro, 24, 8, 0x0⟩, ⟨.ro, 16, 8, 0x0⟩, ⟨.ro, 0, 8, 0x0⟩]
  | .LRN_AGE_COUNT => [⟨.rc, 32, 32, 0x0⟩, ⟨.rc, 0, 32, 0x0⟩]
  | .SCB_STATUS => [⟨.ro, 32, 21, 0x0⟩, ⟨.ro, 7, 1, 0x0⟩, ⟨.w1c, 2, 1, 0x0⟩, ⟨.w1c, 1, 1, 0x0⟩, ⟨.w1c, 0, 1, 0x0⟩]
  | .SCB_ONLINE => [⟨.ro, 0, 64, 0x0⟩]
  | .SCB_ACTIVE => [⟨.ro, 0, 64, 0x0⟩]
  | .SCB_SCRIBE_CTL => [⟨.ro, 16, 4, 0x0⟩, ⟨.rw, 8, 6, 0x0⟩, ⟨.rw, 1, 2, 0x0⟩, ⟨.w1s, 0, 1, 0x0⟩]
  | .SCB_GLYPH_ADDR => [⟨.rw, 0, 36, 0x0⟩]
  | .SCB_GLYPH_CTL => [⟨.rw, 32, 32, 0x0⟩, ⟨.ro, 28, 4, 0x0⟩, ⟨.rw, 8, 6, 0x0⟩, ⟨.ro, 3, 1, 0x0⟩, ⟨.rw, 1, 2, 0x0⟩, ⟨.w1s, 0, 1, 0x0⟩]
  | .SCB_SET_SEL => [⟨.rw, 0, 6, 0x0⟩]
  | .SCB_SET_INFO => [⟨.ro, 43, 21, 0x0⟩, ⟨.ro, 27, 16, 0x0⟩, ⟨.ro, 20, 4, 0x0⟩, ⟨.ro, 16, 4, 0x0⟩, ⟨.ro, 8, 1, 0x0⟩, ⟨.ro, 0, 3, 0x0⟩]
  | .SCB_CACHE_STATUS => [⟨.ro, 48, 10, 0x100⟩, ⟨.ro, 32, 10, 0x100⟩, ⟨.ro, 16, 10, 0x100⟩, ⟨.ro, 0, 10, 0x100⟩]
  | .SCB_COUNT0 => [⟨.rc, 32, 32, 0x0⟩, ⟨.rc, 0, 32, 0x0⟩]
  | .SCB_COUNT1 => [⟨.rc, 48, 16, 0x0⟩, ⟨.rc, 32, 16, 0x0⟩, ⟨.rc, 16, 16, 0x0⟩, ⟨.rc, 0, 16, 0x0⟩]
  | .TEL_CNT_SEL => [⟨.rw, 0, 32, 0x0⟩]
  | .TEL_CNT_READ => [⟨.ro, 0, 64, 0x0⟩]
  | .TEL_CNT_WRITE => [⟨.wo, 0, 64, 0x0⟩]
  | .TEL_CNT_STATUS => [⟨.rc, 32, 32, 0x0⟩, ⟨.ro, 8, 7, 0x0⟩, ⟨.ro, 3, 5, 0x0⟩, ⟨.w1c, 2, 1, 0x0⟩, ⟨.w1c, 1, 1, 0x0⟩, ⟨.w1c, 0, 1, 0x0⟩]
  | .TEL_SAMPLE_CTL => [⟨.rw, 8, 1, 0x0⟩, ⟨.rw, 0, 5, 0x10⟩]
  | .TEL_MIRROR_SEL => [⟨.rw, 0, 4, 0x0⟩]
  | .TEL_MIRROR_CTL => [⟨.rw, 48, 16, 0x1⟩, ⟨.rw, 34, 14, 0x0⟩, ⟨.rw, 20, 12, 0x0⟩, ⟨.rw, 18, 2, 0x0⟩, ⟨.rw, 1, 1, 0x0⟩, ⟨.rw, 0, 1, 0x0⟩]
  | .TEL_DEST_CTL => [⟨.rw, 20, 12, 0x0⟩, ⟨.rw, 18, 2, 0x3⟩, ⟨.ro, 0, 13, 0x0⟩]
  | .TEL_CAPTURE_PTR => [⟨.ro, 40, 24, 0x0⟩, ⟨.ro, 34, 1, 0x0⟩, ⟨.rw, 33, 1, 0x0⟩, ⟨.ro, 3, 30, 0x0⟩]
  | .TEL_DROP_COUNT => [⟨.rc, 32, 32, 0x0⟩, ⟨.rc, 0, 32, 0x0⟩]
  | .BTH_SEL => [⟨.rw, 0, 14, 0x0⟩]
  | .BTH_INFO => [⟨.ro, 32, 25, 0x0⟩, ⟨.ro, 8, 7, 0x0⟩, ⟨.ro, 2, 1, 0x0⟩, ⟨.ro, 0, 2, 0x0⟩]
  | .BTH_QUOTA => [⟨.ro, 0, 25, 0x0⟩]
  | .BTH_LEVEL_C => [⟨.ro, 0, 64, 0x0⟩]
  | .BTH_LEVEL_P => [⟨.ro, 0, 64, 0x0⟩]
  | .BTH_RATE => [⟨.ro, 32, 32, 0x0⟩, ⟨.ro, 0, 32, 0x0⟩]
  | .BTH_SHAPER_CTL => [⟨.ro, 1, 1, 0x0⟩, ⟨.w1s, 0, 1, 0x0⟩]
  | .BTH_COLOUR_COUNT => [⟨.rc, 42, 21, 0x0⟩, ⟨.rc, 21, 21, 0x0⟩, ⟨.rc, 0, 21, 0x0⟩]
  | .BTH_STATUS => [⟨.w1c, 0, 1, 0x0⟩]
  | .BTH_GLYPH_MASK => [⟨.ro, 0, 64, 0x0⟩]
  | .BTH_MASTER_SEL => [⟨.rw, 0, 32, 0x0⟩]
  | .BTH_MASTER_RANGE => [⟨.ro, 32, 15, 0x0⟩, ⟨.ro, 0, 14, 0x0⟩]
  | .BTH_GRANT => [⟨.ro, 16, 4, 0x0⟩, ⟨.ro, 0, 16, 0x0⟩]
  | .SEC_STATUS => [⟨.ro, 20, 6, 0x0⟩, ⟨.ro, 16, 4, 0x0⟩, ⟨.w1c, 10, 1, 0x0⟩, ⟨.w1c, 9, 1, 0x0⟩, ⟨.w1c, 8, 1, 0x0⟩, ⟨.ro, 7, 1, 0x0⟩, ⟨.ro, 6, 1, 0x0⟩, ⟨.ro, 5, 1, 0x0⟩, ⟨.ro, 2, 1, 0x0⟩, ⟨.ro, 1, 1, 0x0⟩, ⟨.ro, 0, 1, 0x0⟩]
  | .SEC_BOOT_NONCE0 => [⟨.ro, 0, 64, 0x0⟩]
  | .SEC_BOOT_NONCE1 => [⟨.ro, 0, 64, 0x0⟩]
  | .SEC_UID0 => [⟨.ro, 0, 64, 0x0⟩]
  | .SEC_UID1 => [⟨.ro, 0, 64, 0x0⟩]
  | .SEC_TAMPER_LOG => [⟨.ro, 48, 16, 0x0⟩, ⟨.ro, 0, 7, 0x0⟩]
  | .SEC_FREEZE_SEL => [⟨.rw, 0, 32, 0x0⟩]
  | .SEC_FREEZE_INFO => [⟨.ro, 32, 32, 0x0⟩, ⟨.rc, 16, 16, 0x0⟩, ⟨.rc, 8, 8, 0x0⟩, ⟨.ro, 4, 4, 0x0⟩, ⟨.ro, 0, 1, 0x0⟩]
  | .SEC_THAW => [⟨.wo, 0, 32, 0x0⟩]
  | .QUY_SEL => [⟨.rw, 0, 6, 0x0⟩]
  | .QUY_STATUS => [⟨.ro, 32, 24, 0x0⟩, ⟨.ro, 24, 8, 0x0⟩, ⟨.ro, 18, 2, 0x0⟩, ⟨.ro, 17, 1, 0x1⟩, ⟨.ro, 16, 1, 0x0⟩, ⟨.w1c, 7, 1, 0x0⟩, ⟨.w1c, 6, 1, 0x0⟩, ⟨.w1c, 5, 1, 0x0⟩, ⟨.w1c, 4, 1, 0x0⟩, ⟨.ro, 0, 3, 0x0⟩]
  | .QUY_CTL => [⟨.rw, 32, 32, 0x10000⟩, ⟨.w1s, 2, 1, 0x0⟩, ⟨.w1s, 1, 1, 0x0⟩, ⟨.rw, 0, 1, 0x1⟩]
  | .QUY_LANES => [⟨.ro, 0, 64, 0x0⟩]
  | .QUY_POOLS => [⟨.ro, 0, 48, 0x0⟩]
  | .QUY_ERR_COUNT => [⟨.rc, 48, 16, 0x0⟩, ⟨.rc, 32, 16, 0x0⟩, ⟨.rc, 16, 16, 0x0⟩, ⟨.rc, 8, 8, 0x0⟩, ⟨.rc, 0, 8, 0x0⟩]
  | .QUY_CORR_COUNT => [⟨.rc, 0, 64, 0x0⟩]
  | .QUY_RESULT_COUNT => [⟨.rc, 32, 32, 0x0⟩, ⟨.rc, 0, 32, 0x0⟩]
  | .QUY_XOFF => [⟨.ro, 0, 12, 0xFFF⟩]
  | .RNG_STATUS => [⟨.ro, 48, 16, 0x0⟩, ⟨.ro, 40, 8, 0x0⟩, ⟨.ro, 32, 8, 0x0⟩, ⟨.ro, 28, 4, 0x0⟩, ⟨.ro, 20, 8, 0x0⟩, ⟨.ro, 17, 3, 0x0⟩, ⟨.ro, 16, 1, 0x1⟩, ⟨.ro, 15, 1, 0x0⟩, ⟨.ro, 14, 1, 0x0⟩, ⟨.ro, 13, 1, 0x0⟩, ⟨.w1c, 3, 1, 0x0⟩, ⟨.w1c, 2, 1, 0x0⟩, ⟨.w1c, 1, 1, 0x0⟩, ⟨.w1c, 0, 1, 0x0⟩]
  | .RNG_PORT_STATUS => [⟨.ro, 48, 16, 0x0⟩, ⟨.ro, 32, 16, 0x0⟩, ⟨.ro, 11, 1, 0x0⟩, ⟨.ro, 8, 3, 0x0⟩, ⟨.ro, 3, 1, 0x0⟩, ⟨.ro, 0, 3, 0x0⟩]
  | .RNG_CTL => [⟨.w1s, 2, 1, 0x0⟩, ⟨.w1s, 1, 1, 0x0⟩, ⟨.rw, 0, 1, 0x1⟩]
  | .RNG_COUNT0 => [⟨.rc, 32, 32, 0x0⟩, ⟨.rc, 0, 32, 0x0⟩]
  | .RNG_COUNT1 => [⟨.rc, 48, 16, 0x0⟩, ⟨.rc, 32, 16, 0x0⟩, ⟨.rc, 16, 16, 0x0⟩, ⟨.rc, 0, 16, 0x0⟩]
  | .HST_STATUS => [⟨.ro, 13, 3, 0x0⟩, ⟨.ro, 8, 5, 0x0⟩, ⟨.ro, 7, 1, 0x0⟩, ⟨.w1c, 2, 1, 0x0⟩, ⟨.w1c, 1, 1, 0x0⟩, ⟨.ro, 0, 1, 0x0⟩]
  | .HST_DMA_REJECT => [⟨.rc, 0, 32, 0x0⟩]
  | .HST_CPL_COUNT => [⟨.rc, 32, 32, 0x0⟩, ⟨.rc, 0, 32, 0x0⟩]
  | .HST_HOST_COUNT => [⟨.rc, 32, 32, 0x0⟩, ⟨.rc, 16, 16, 0x0⟩, ⟨.rc, 0, 16, 0x0⟩]
  | .HST_RING_SEL => [⟨.rw, 0, 12, 0x0⟩]
  | .HST_RING_BASE => [⟨.rw, 12, 52, 0x0⟩]
  | .HST_RING_WB => [⟨.rw, 3, 61, 0x0⟩]
  | .HST_RING_CTL => [⟨.rw, 48, 4, 0x0⟩, ⟨.rw, 40, 5, 0x6⟩, ⟨.rw, 32, 3, 0x0⟩, ⟨.rw, 24, 2, 0x0⟩, ⟨.rw, 16, 2, 0x0⟩, ⟨.ro, 4, 4, 0x0⟩, ⟨.ro, 2, 2, 0x0⟩, ⟨.w1s, 1, 1, 0x0⟩, ⟨.rw, 0, 1, 0x0⟩]
  | .HST_RING_STATUS => [⟨.ro, 32, 32, 0x0⟩, ⟨.ro, 0, 32, 0x0⟩]
  | .HST_WIN_SEL => [⟨.rw, 0, 4, 0x0⟩]
  | .HST_WIN_NEXT => [⟨.rw, 32, 4, 0x0⟩, ⟨.rw, 16, 14, 0x0⟩, ⟨.rw, 8, 8, 0x0⟩, ⟨.rw, 0, 1, 0x0⟩]
  | .HST_WIN_ACTIVE => [⟨.ro, 48, 16, 0x0⟩, ⟨.ro, 32, 4, 0x0⟩, ⟨.ro, 16, 14, 0x0⟩, ⟨.ro, 8, 8, 0x0⟩, ⟨.ro, 0, 1, 0x0⟩]
  | .HST_WIN_CTL => [⟨.ro, 4, 4, 0x0⟩, ⟨.ro, 1, 1, 0x0⟩, ⟨.w1s, 0, 1, 0x0⟩]
  | .HST_WIN_COUNT => [⟨.rc, 48, 16, 0x0⟩, ⟨.rc, 32, 16, 0x0⟩, ⟨.rc, 16, 16, 0x0⟩, ⟨.rc, 0, 16, 0x0⟩]
  | .MEM_STATUS => [⟨.ro, 40, 8, 0x0⟩, ⟨.ro, 32, 8, 0x0⟩, ⟨.ro, 15, 1, 0x0⟩, ⟨.ro, 14, 1, 0x0⟩, ⟨.ro, 13, 1, 0x0⟩, ⟨.ro, 12, 1, 0x0⟩, ⟨.ro, 11, 1, 0x0⟩, ⟨.ro, 10, 1, 0x0⟩, ⟨.ro, 9, 1, 0x0⟩, ⟨.ro, 8, 1, 0x0⟩, ⟨.w1c, 5, 1, 0x0⟩, ⟨.w1c, 4, 1, 0x0⟩, ⟨.w1c, 3, 1, 0x0⟩, ⟨.w1c, 2, 1, 0x0⟩, ⟨.w1c, 1, 1, 0x0⟩, ⟨.w1c, 0, 1, 0x0⟩]
  | .MEM_CTL => [⟨.rw, 24, 8, 0x30⟩, ⟨.rw, 16, 8, 0x10⟩, ⟨.rw, 8, 5, 0xC⟩]
  | .MEM_RT_CTL => [⟨.rw, 32, 11, 0x300⟩, ⟨.rw, 0, 11, 0x100⟩]
  | .MEM_PC_SEL => [⟨.rw, 0, 6, 0x0⟩]
  | .MEM_PC_INFO => [⟨.rc, 32, 16, 0x0⟩, ⟨.ro, 22, 2, 0x0⟩, ⟨.ro, 16, 6, 0x0⟩, ⟨.ro, 10, 2, 0x0⟩, ⟨.ro, 4, 4, 0x0⟩, ⟨.ro, 0, 4, 0x0⟩]
  | .MEM_ERR_COUNT => [⟨.rc, 48, 16, 0x0⟩, ⟨.rc, 32, 16, 0x0⟩, ⟨.rc, 16, 16, 0x0⟩, ⟨.rc, 0, 16, 0x0⟩]
  | .MEM_REBUILD => [⟨.ro, 32, 24, 0x0⟩, ⟨.ro, 7, 1, 0x0⟩, ⟨.ro, 0, 6, 0x0⟩]
  | .PWR_STATE_CTL => [⟨.rw, 16, 16, 0x40⟩, ⟨.rw, 8, 1, 0x0⟩, ⟨.rw, 1, 3, 0x0⟩, ⟨.w1s, 0, 1, 0x0⟩]
  | .PWR_STATE_STATUS => [⟨.ro, 20, 4, 0x0⟩, ⟨.ro, 16, 4, 0x0⟩, ⟨.ro, 11, 1, 0x0⟩, ⟨.ro, 10, 1, 0x0⟩, ⟨.w1c, 9, 1, 0x0⟩, ⟨.ro, 0, 3, 0x0⟩]
  | .PWR_WAKE_CTL => [⟨.rw, 63, 1, 0x0⟩, ⟨.rw, 49, 1, 0x1⟩, ⟨.rw, 48, 1, 0x1⟩, ⟨.rw, 0, 48, 0x0⟩]
  | .PWR_RTC => [⟨.ro, 0, 48, 0x0⟩]
  | .PWR_DOMAIN_STATUS => [⟨.ro, 0, 60, 0x0⟩]
  | .PWR_DOMAIN_RESET => [⟨.ro, 12, 4, 0x0⟩, ⟨.w1s, 8, 1, 0x0⟩, ⟨.rw, 0, 5, 0x0⟩]
  | .PWR_RESET_CAUSE => [⟨.rc, 32, 16, 0x0⟩, ⟨.w1c, 7, 1, 0x0⟩, ⟨.w1c, 6, 1, 0x0⟩, ⟨.w1c, 5, 1, 0x0⟩, ⟨.w1c, 4, 1, 0x0⟩, ⟨.w1c, 3, 1, 0x0⟩, ⟨.w1c, 2, 1, 0x0⟩, ⟨.w1c, 1, 1, 0x0⟩, ⟨.w1c, 0, 1, 0x1⟩]
  | .FLT_STATUS => [⟨.ro, 48, 13, 0x0⟩, ⟨.w1c, 8, 1, 0x0⟩, ⟨.w1c, 0, 5, 0x0⟩]
  | .FLT_CTL => [⟨.rw, 32, 12, 0x0⟩, ⟨.rw, 4, 2, 0x0⟩, ⟨.rw, 0, 1, 0x1⟩]
  | .FLT_ROUTE => [⟨.rw, 0, 40, 0x303030200⟩]
  | .FLT_WIN0 => [⟨.ro, 0, 64, 0x0⟩]
  | .FLT_WIN1 => [⟨.ro, 0, 64, 0x0⟩]
  | .FLT_WIN2 => [⟨.ro, 0, 64, 0x0⟩]
  | .FLT_WIN3 => [⟨.ro, 0, 64, 0x0⟩]
  | .FLT_COUNT0 => [⟨.rc, 48, 12, 0x0⟩, ⟨.rc, 36, 12, 0x0⟩, ⟨.rc, 24, 12, 0x0⟩, ⟨.rc, 12, 12, 0x0⟩, ⟨.rc, 0, 12, 0x0⟩]
  | .FLT_COUNT1 => [⟨.rc, 32, 32, 0x0⟩, ⟨.rc, 0, 32, 0x0⟩]
  | .TST_IDCODE => [⟨.ro, 0, 32, 0x11280A2B⟩]
  | .TST_TAP_STATUS => [⟨.ro, 8, 8, 0x0⟩, ⟨.ro, 1, 1, 0x0⟩, ⟨.w1c, 0, 1, 0x1⟩]

/-- The registers of block GLB, by ascending offset. -/
def Reg.blockGLB : List Reg :=
  [.GLB_IDENT, .GLB_DEV_SIGNATURE, .GLB_ACCESS_LOG, .GLB_TIDE_COUNT, .GLB_TIDE_CTL, .GLB_TOD_NEXT, .GLB_PPS_CAPTURE, .GLB_TIDE_STATUS, .GLB_BOOT_STATUS, .GLB_BOOT_ERROR, .GLB_BOOT_CTL, .GLB_FLASH_PROG_ADDR, .GLB_FLASH_PROG_CTL, .GLB_MODE_CTL, .GLB_MODE_STATUS]

/-- The registers of block PIL, by ascending offset. -/
def Reg.blockPIL : List Reg :=
  [.PIL_STATUS, .PIL_INSERT_COUNT, .PIL_TABLE_SEL, .PIL_TABLE_INFO, .PIL_CHART_INFO, .PIL_HOT_CTL, .PIL_HOT_STATUS, .PIL_DRAIN_CTL, .PIL_DRAIN_STATUS]

/-- The registers of block ARY, by ascending offset. -/
def Reg.blockARY : List Reg :=
  [.ARY_SCRUB_CTL, .ARY_SCRUB_STATUS, .ARY_INTEG_COUNT0, .ARY_INTEG_COUNT1, .ARY_INTEG_COUNT2, .ARY_BANK_SEL, .ARY_BANK_INFO, .ARY_BIST_CTL, .ARY_BIST_STATUS, .ARY_HEALTH]

/-- The registers of block LRN, by ascending offset. -/
def Reg.blockLRN : List Reg :=
  [.LRN_MNF_CTL, .LRN_MNF_STATUS, .LRN_MNF_PTR, .LRN_MNF_WM, .LRN_MNF_WIN0, .LRN_MNF_WIN1, .LRN_MNF_WIN2, .LRN_MNF_WIN3, .LRN_MNF_COUNT, .LRN_FILTER_CTL, .LRN_FILTER_STATUS, .LRN_AGE_CTL, .LRN_AGE_STATUS, .LRN_AGE_COUNT]

/-- The registers of block SCB, by ascending offset. -/
def Reg.blockSCB : List Reg :=
  [.SCB_STATUS, .SCB_ONLINE, .SCB_ACTIVE, .SCB_SCRIBE_CTL, .SCB_GLYPH_ADDR, .SCB_GLYPH_CTL, .SCB_SET_SEL, .SCB_SET_INFO, .SCB_CACHE_STATUS, .SCB_COUNT0, .SCB_COUNT1]

/-- The registers of block TEL, by ascending offset. -/
def Reg.blockTEL : List Reg :=
  [.TEL_CNT_SEL, .TEL_CNT_READ, .TEL_CNT_WRITE, .TEL_CNT_STATUS, .TEL_SAMPLE_CTL, .TEL_MIRROR_SEL, .TEL_MIRROR_CTL, .TEL_DEST_CTL, .TEL_CAPTURE_PTR, .TEL_DROP_COUNT]

/-- The registers of block BTH, by ascending offset. -/
def Reg.blockBTH : List Reg :=
  [.BTH_SEL, .BTH_INFO, .BTH_QUOTA, .BTH_LEVEL_C, .BTH_LEVEL_P, .BTH_RATE, .BTH_SHAPER_CTL, .BTH_COLOUR_COUNT, .BTH_STATUS, .BTH_GLYPH_MASK, .BTH_MASTER_SEL, .BTH_MASTER_RANGE, .BTH_GRANT]

/-- The registers of block SEC, by ascending offset. -/
def Reg.blockSEC : List Reg :=
  [.SEC_STATUS, .SEC_BOOT_NONCE0, .SEC_BOOT_NONCE1, .SEC_UID0, .SEC_UID1, .SEC_TAMPER_LOG, .SEC_FREEZE_SEL, .SEC_FREEZE_INFO, .SEC_THAW]

/-- The registers of block QUY, by ascending offset. -/
def Reg.blockQUY : List Reg :=
  [.QUY_SEL, .QUY_STATUS, .QUY_CTL, .QUY_LANES, .QUY_POOLS, .QUY_ERR_COUNT, .QUY_CORR_COUNT, .QUY_RESULT_COUNT, .QUY_XOFF]

/-- The registers of block RNG, by ascending offset. -/
def Reg.blockRNG : List Reg :=
  [.RNG_STATUS, .RNG_PORT_STATUS, .RNG_CTL, .RNG_COUNT0, .RNG_COUNT1]

/-- The registers of block HST, by ascending offset. -/
def Reg.blockHST : List Reg :=
  [.HST_STATUS, .HST_DMA_REJECT, .HST_CPL_COUNT, .HST_HOST_COUNT, .HST_RING_SEL, .HST_RING_BASE, .HST_RING_WB, .HST_RING_CTL, .HST_RING_STATUS, .HST_WIN_SEL, .HST_WIN_NEXT, .HST_WIN_ACTIVE, .HST_WIN_CTL, .HST_WIN_COUNT]

/-- The registers of block MEM, by ascending offset. -/
def Reg.blockMEM : List Reg :=
  [.MEM_STATUS, .MEM_CTL, .MEM_RT_CTL, .MEM_PC_SEL, .MEM_PC_INFO, .MEM_ERR_COUNT, .MEM_REBUILD]

/-- The registers of block PWR, by ascending offset. -/
def Reg.blockPWR : List Reg :=
  [.PWR_STATE_CTL, .PWR_STATE_STATUS, .PWR_WAKE_CTL, .PWR_RTC, .PWR_DOMAIN_STATUS, .PWR_DOMAIN_RESET, .PWR_RESET_CAUSE]

/-- The registers of block FLT, by ascending offset. -/
def Reg.blockFLT : List Reg :=
  [.FLT_STATUS, .FLT_CTL, .FLT_ROUTE, .FLT_WIN0, .FLT_WIN1, .FLT_WIN2, .FLT_WIN3, .FLT_COUNT0, .FLT_COUNT1]

/-- The registers of block TST, by ascending offset. -/
def Reg.blockTST : List Reg :=
  [.TST_IDCODE, .TST_TAP_STATUS]

/-- Every register once, by ascending offset. -/
def Reg.all : List Reg :=
  Reg.blockGLB ++ Reg.blockPIL ++ Reg.blockARY ++ Reg.blockLRN ++ Reg.blockSCB ++ Reg.blockTEL ++ Reg.blockBTH ++ Reg.blockSEC ++ Reg.blockQUY ++ Reg.blockRNG ++ Reg.blockHST ++ Reg.blockMEM ++ Reg.blockPWR ++ Reg.blockFLT ++ Reg.blockTST

/-- A named field of a register. -/
structure Fld where
  reg : Reg
  lo : Nat
  width : Nat
deriving DecidableEq, Repr

/-- GLB_IDENT.family, RO (00_scope.md). -/
def Fld.GLB_IDENT_family : Fld := ⟨.GLB_IDENT, 48, 16⟩
/-- GLB_IDENT.part, RO (00_scope.md). -/
def Fld.GLB_IDENT_part : Fld := ⟨.GLB_IDENT, 32, 16⟩
/-- GLB_IDENT.step_major, RO (00_scope.md). -/
def Fld.GLB_IDENT_step_major : Fld := ⟨.GLB_IDENT, 24, 8⟩
/-- GLB_IDENT.step_minor, RO (00_scope.md). -/
def Fld.GLB_IDENT_step_minor : Fld := ⟨.GLB_IDENT, 16, 8⟩
/-- GLB_IDENT.rev_id, RO (00_scope.md). -/
def Fld.GLB_IDENT_rev_id : Fld := ⟨.GLB_IDENT, 8, 8⟩
/-- GLB_DEV_SIGNATURE.signature, RO (00_scope.md). -/
def Fld.GLB_DEV_SIGNATURE_signature : Fld := ⟨.GLB_DEV_SIGNATURE, 0, 64⟩
/-- GLB_ACCESS_LOG.count, RC (21_registers.md). -/
def Fld.GLB_ACCESS_LOG_count : Fld := ⟨.GLB_ACCESS_LOG, 48, 16⟩
/-- GLB_ACCESS_LOG.function, RO (21_registers.md). -/
def Fld.GLB_ACCESS_LOG_function : Fld := ⟨.GLB_ACCESS_LOG, 40, 8⟩
/-- GLB_ACCESS_LOG.reason, RO (21_registers.md). -/
def Fld.GLB_ACCESS_LOG_reason : Fld := ⟨.GLB_ACCESS_LOG, 36, 4⟩
/-- GLB_ACCESS_LOG.offset, RO (21_registers.md). -/
def Fld.GLB_ACCESS_LOG_offset : Fld := ⟨.GLB_ACCESS_LOG, 3, 23⟩
/-- GLB_TIDE_COUNT.count, RO (02_tide.md). -/
def Fld.GLB_TIDE_COUNT_count : Fld := ⟨.GLB_TIDE_COUNT, 0, 64⟩
/-- GLB_TIDE_CTL.trim_limit, RW (02_tide.md). -/
def Fld.GLB_TIDE_CTL_trim_limit : Fld := ⟨.GLB_TIDE_CTL, 16, 8⟩
/-- GLB_TIDE_CTL.step_gen, RO (02_tide.md). -/
def Fld.GLB_TIDE_CTL_step_gen : Fld := ⟨.GLB_TIDE_CTL, 12, 4⟩
/-- GLB_TIDE_CTL.pps_falling, RW (02_tide.md). -/
def Fld.GLB_TIDE_CTL_pps_falling : Fld := ⟨.GLB_TIDE_CTL, 2, 1⟩
/-- GLB_TIDE_CTL.step, W1S (02_tide.md). -/
def Fld.GLB_TIDE_CTL_step : Fld := ⟨.GLB_TIDE_CTL, 1, 1⟩
/-- GLB_TIDE_CTL.lock_en, RW (02_tide.md). -/
def Fld.GLB_TIDE_CTL_lock_en : Fld := ⟨.GLB_TIDE_CTL, 0, 1⟩
/-- GLB_TOD_NEXT.seconds, RW (02_tide.md). -/
def Fld.GLB_TOD_NEXT_seconds : Fld := ⟨.GLB_TOD_NEXT, 0, 41⟩
/-- GLB_PPS_CAPTURE.tide, RO (02_tide.md). -/
def Fld.GLB_PPS_CAPTURE_tide : Fld := ⟨.GLB_PPS_CAPTURE, 8, 56⟩
/-- GLB_PPS_CAPTURE.stroke, RO (02_tide.md). -/
def Fld.GLB_PPS_CAPTURE_stroke : Fld := ⟨.GLB_PPS_CAPTURE, 0, 8⟩
/-- GLB_TIDE_STATUS.phase_err, RO (02_tide.md). -/
def Fld.GLB_TIDE_STATUS_phase_err : Fld := ⟨.GLB_TIDE_STATUS, 32, 32⟩
/-- GLB_TIDE_STATUS.trim, RO (02_tide.md). -/
def Fld.GLB_TIDE_STATUS_trim : Fld := ⟨.GLB_TIDE_STATUS, 16, 16⟩
/-- GLB_TIDE_STATUS.step_done, W1C (02_tide.md). -/
def Fld.GLB_TIDE_STATUS_step_done : Fld := ⟨.GLB_TIDE_STATUS, 3, 1⟩
/-- GLB_TIDE_STATUS.pps_lost, W1C (02_tide.md). -/
def Fld.GLB_TIDE_STATUS_pps_lost : Fld := ⟨.GLB_TIDE_STATUS, 2, 1⟩
/-- GLB_TIDE_STATUS.holdover, RO (02_tide.md). -/
def Fld.GLB_TIDE_STATUS_holdover : Fld := ⟨.GLB_TIDE_STATUS, 1, 1⟩
/-- GLB_TIDE_STATUS.locked, RO (02_tide.md). -/
def Fld.GLB_TIDE_STATUS_locked : Fld := ⟨.GLB_TIDE_STATUS, 0, 1⟩
/-- GLB_BOOT_STATUS.scroll_seq, RO (03_scroll_and_boot.md). -/
def Fld.GLB_BOOT_STATUS_scroll_seq : Fld := ⟨.GLB_BOOT_STATUS, 32, 32⟩
/-- GLB_BOOT_STATUS.life_cycle, RO (03_scroll_and_boot.md). -/
def Fld.GLB_BOOT_STATUS_life_cycle : Fld := ⟨.GLB_BOOT_STATUS, 16, 4⟩
/-- GLB_BOOT_STATUS.seed_err, W1C (03_scroll_and_boot.md). -/
def Fld.GLB_BOOT_STATUS_seed_err : Fld := ⟨.GLB_BOOT_STATUS, 11, 1⟩
/-- GLB_BOOT_STATUS.glyph_err, W1C (03_scroll_and_boot.md). -/
def Fld.GLB_BOOT_STATUS_glyph_err : Fld := ⟨.GLB_BOOT_STATUS, 10, 1⟩
/-- GLB_BOOT_STATUS.seed_done, RO (03_scroll_and_boot.md). -/
def Fld.GLB_BOOT_STATUS_seed_done : Fld := ⟨.GLB_BOOT_STATUS, 9, 1⟩
/-- GLB_BOOT_STATUS.glyph_done, RO (03_scroll_and_boot.md). -/
def Fld.GLB_BOOT_STATUS_glyph_done : Fld := ⟨.GLB_BOOT_STATUS, 8, 1⟩
/-- GLB_BOOT_STATUS.fallback, W1C (03_scroll_and_boot.md). -/
def Fld.GLB_BOOT_STATUS_fallback : Fld := ⟨.GLB_BOOT_STATUS, 5, 1⟩
/-- GLB_BOOT_STATUS.copy, RO (03_scroll_and_boot.md). -/
def Fld.GLB_BOOT_STATUS_copy : Fld := ⟨.GLB_BOOT_STATUS, 4, 1⟩
/-- GLB_BOOT_STATUS.stage, RO (03_scroll_and_boot.md). -/
def Fld.GLB_BOOT_STATUS_stage : Fld := ⟨.GLB_BOOT_STATUS, 0, 4⟩
/-- GLB_BOOT_ERROR.err_b, RO (03_scroll_and_boot.md). -/
def Fld.GLB_BOOT_ERROR_err_b : Fld := ⟨.GLB_BOOT_ERROR, 8, 8⟩
/-- GLB_BOOT_ERROR.err_a, RO (03_scroll_and_boot.md). -/
def Fld.GLB_BOOT_ERROR_err_a : Fld := ⟨.GLB_BOOT_ERROR, 0, 8⟩
/-- GLB_BOOT_CTL.reboot, W1S (03_scroll_and_boot.md). -/
def Fld.GLB_BOOT_CTL_reboot : Fld := ⟨.GLB_BOOT_CTL, 1, 1⟩
/-- GLB_BOOT_CTL.retry, W1S (03_scroll_and_boot.md). -/
def Fld.GLB_BOOT_CTL_retry : Fld := ⟨.GLB_BOOT_CTL, 0, 1⟩
/-- GLB_FLASH_PROG_ADDR.host_addr, RW (03_scroll_and_boot.md). -/
def Fld.GLB_FLASH_PROG_ADDR_host_addr : Fld := ⟨.GLB_FLASH_PROG_ADDR, 0, 64⟩
/-- GLB_FLASH_PROG_CTL.flash_off, RW (03_scroll_and_boot.md). -/
def Fld.GLB_FLASH_PROG_CTL_flash_off : Fld := ⟨.GLB_FLASH_PROG_CTL, 32, 32⟩
/-- GLB_FLASH_PROG_CTL.pages, RW (03_scroll_and_boot.md). -/
def Fld.GLB_FLASH_PROG_CTL_pages : Fld := ⟨.GLB_FLASH_PROG_CTL, 16, 16⟩
/-- GLB_FLASH_PROG_CTL.result, RO (03_scroll_and_boot.md). -/
def Fld.GLB_FLASH_PROG_CTL_result : Fld := ⟨.GLB_FLASH_PROG_CTL, 2, 2⟩
/-- GLB_FLASH_PROG_CTL.busy, RO (03_scroll_and_boot.md). -/
def Fld.GLB_FLASH_PROG_CTL_busy : Fld := ⟨.GLB_FLASH_PROG_CTL, 1, 1⟩
/-- GLB_FLASH_PROG_CTL.go, W1S (03_scroll_and_boot.md). -/
def Fld.GLB_FLASH_PROG_CTL_go : Fld := ⟨.GLB_FLASH_PROG_CTL, 0, 1⟩
/-- GLB_MODE_CTL.go, W1S (04_modes.md). -/
def Fld.GLB_MODE_CTL_go : Fld := ⟨.GLB_MODE_CTL, 7, 1⟩
/-- GLB_MODE_CTL.target, RW (04_modes.md). -/
def Fld.GLB_MODE_CTL_target : Fld := ⟨.GLB_MODE_CTL, 0, 3⟩
/-- GLB_MODE_STATUS.since, RO (04_modes.md). -/
def Fld.GLB_MODE_STATUS_since : Fld := ⟨.GLB_MODE_STATUS, 32, 32⟩
/-- GLB_MODE_STATUS.permitted, RO (04_modes.md). -/
def Fld.GLB_MODE_STATUS_permitted : Fld := ⟨.GLB_MODE_STATUS, 24, 8⟩
/-- GLB_MODE_STATUS.result, RO (04_modes.md). -/
def Fld.GLB_MODE_STATUS_result : Fld := ⟨.GLB_MODE_STATUS, 16, 4⟩
/-- GLB_MODE_STATUS.changed, W1C (04_modes.md). -/
def Fld.GLB_MODE_STATUS_changed : Fld := ⟨.GLB_MODE_STATUS, 12, 1⟩
/-- GLB_MODE_STATUS.pending, RO (04_modes.md). -/
def Fld.GLB_MODE_STATUS_pending : Fld := ⟨.GLB_MODE_STATUS, 11, 1⟩
/-- GLB_MODE_STATUS.pending_mode, RO (04_modes.md). -/
def Fld.GLB_MODE_STATUS_pending_mode : Fld := ⟨.GLB_MODE_STATUS, 8, 3⟩
/-- GLB_MODE_STATUS.mode, RO (04_modes.md). -/
def Fld.GLB_MODE_STATUS_mode : Fld := ⟨.GLB_MODE_STATUS, 0, 3⟩
/-- PIL_STATUS.in_flight, RO (07_pilot.md). -/
def Fld.PIL_STATUS_in_flight : Fld := ⟨.PIL_STATUS, 32, 9⟩
/-- PIL_STATUS.drain_busy, RO (07_pilot.md). -/
def Fld.PIL_STATUS_drain_busy : Fld := ⟨.PIL_STATUS, 7, 1⟩
/-- PIL_STATUS.split_busy, RO (07_pilot.md). -/
def Fld.PIL_STATUS_split_busy : Fld := ⟨.PIL_STATUS, 6, 1⟩
/-- PIL_STATUS.respace_busy, RO (07_pilot.md). -/
def Fld.PIL_STATUS_respace_busy : Fld := ⟨.PIL_STATUS, 5, 1⟩
/-- PIL_STATUS.rollback, W1C (07_pilot.md). -/
def Fld.PIL_STATUS_rollback : Fld := ⟨.PIL_STATUS, 2, 1⟩
/-- PIL_STATUS.no_space, W1C (07_pilot.md). -/
def Fld.PIL_STATUS_no_space : Fld := ⟨.PIL_STATUS, 1, 1⟩
/-- PIL_STATUS.deferred, W1C (07_pilot.md). -/
def Fld.PIL_STATUS_deferred : Fld := ⟨.PIL_STATUS, 0, 1⟩
/-- PIL_INSERT_COUNT.rolled_back, RC (07_pilot.md). -/
def Fld.PIL_INSERT_COUNT_rolled_back : Fld := ⟨.PIL_INSERT_COUNT, 32, 32⟩
/-- PIL_INSERT_COUNT.completed, RC (07_pilot.md). -/
def Fld.PIL_INSERT_COUNT_completed : Fld := ⟨.PIL_INSERT_COUNT, 0, 32⟩
/-- PIL_TABLE_SEL.tid, RW (05_tables_and_entries.md). -/
def Fld.PIL_TABLE_SEL_tid : Fld := ⟨.PIL_TABLE_SEL, 0, 16⟩
/-- PIL_TABLE_INFO.units, RO (05_tables_and_entries.md). -/
def Fld.PIL_TABLE_INFO_units : Fld := ⟨.PIL_TABLE_INFO, 32, 32⟩
/-- PIL_TABLE_INFO.entries, RO (05_tables_and_entries.md). -/
def Fld.PIL_TABLE_INFO_entries : Fld := ⟨.PIL_TABLE_INFO, 7, 25⟩
/-- PIL_TABLE_INFO.state, RO (05_tables_and_entries.md). -/
def Fld.PIL_TABLE_INFO_state : Fld := ⟨.PIL_TABLE_INFO, 2, 2⟩
/-- PIL_TABLE_INFO.reseq, RO (05_tables_and_entries.md). -/
def Fld.PIL_TABLE_INFO_reseq : Fld := ⟨.PIL_TABLE_INFO, 1, 1⟩
/-- PIL_TABLE_INFO.sel_valid, RO (05_tables_and_entries.md). -/
def Fld.PIL_TABLE_INFO_sel_valid : Fld := ⟨.PIL_TABLE_INFO, 0, 1⟩
/-- PIL_CHART_INFO.version, RO (07_pilot.md). -/
def Fld.PIL_CHART_INFO_version : Fld := ⟨.PIL_CHART_INFO, 32, 32⟩
/-- PIL_CHART_INFO.banks, RO (07_pilot.md). -/
def Fld.PIL_CHART_INFO_banks : Fld := ⟨.PIL_CHART_INFO, 22, 10⟩
/-- PIL_CHART_INFO.shared, RO (07_pilot.md). -/
def Fld.PIL_CHART_INFO_shared : Fld := ⟨.PIL_CHART_INFO, 17, 5⟩
/-- PIL_CHART_INFO.fanout, RO (07_pilot.md). -/
def Fld.PIL_CHART_INFO_fanout : Fld := ⟨.PIL_CHART_INFO, 12, 5⟩
/-- PIL_CHART_INFO.sel_bits, RO (07_pilot.md). -/
def Fld.PIL_CHART_INFO_sel_bits : Fld := ⟨.PIL_CHART_INFO, 8, 4⟩
/-- PIL_HOT_CTL.decay_k, RW (07_pilot.md). -/
def Fld.PIL_HOT_CTL_decay_k : Fld := ⟨.PIL_HOT_CTL, 16, 4⟩
/-- PIL_HOT_CTL.promote_thresh, RW (07_pilot.md). -/
def Fld.PIL_HOT_CTL_promote_thresh : Fld := ⟨.PIL_HOT_CTL, 8, 8⟩
/-- PIL_HOT_CTL.auto_en, RW (07_pilot.md). -/
def Fld.PIL_HOT_CTL_auto_en : Fld := ⟨.PIL_HOT_CTL, 0, 1⟩
/-- PIL_HOT_STATUS.auto_lines, RO (07_pilot.md). -/
def Fld.PIL_HOT_STATUS_auto_lines : Fld := ⟨.PIL_HOT_STATUS, 42, 22⟩
/-- PIL_HOT_STATUS.pinned_lines, RO (07_pilot.md). -/
def Fld.PIL_HOT_STATUS_pinned_lines : Fld := ⟨.PIL_HOT_STATUS, 21, 21⟩
/-- PIL_HOT_STATUS.pin_wait, RO (07_pilot.md). -/
def Fld.PIL_HOT_STATUS_pin_wait : Fld := ⟨.PIL_HOT_STATUS, 0, 21⟩
/-- PIL_DRAIN_CTL.bank, RW (07_pilot.md). -/
def Fld.PIL_DRAIN_CTL_bank : Fld := ⟨.PIL_DRAIN_CTL, 7, 9⟩
/-- PIL_DRAIN_CTL.op, RW (07_pilot.md). -/
def Fld.PIL_DRAIN_CTL_op : Fld := ⟨.PIL_DRAIN_CTL, 1, 2⟩
/-- PIL_DRAIN_CTL.go, W1S (07_pilot.md). -/
def Fld.PIL_DRAIN_CTL_go : Fld := ⟨.PIL_DRAIN_CTL, 0, 1⟩
/-- PIL_DRAIN_STATUS.rows_left, RO (07_pilot.md). -/
def Fld.PIL_DRAIN_STATUS_rows_left : Fld := ⟨.PIL_DRAIN_STATUS, 32, 16⟩
/-- PIL_DRAIN_STATUS.result, RO (07_pilot.md). -/
def Fld.PIL_DRAIN_STATUS_result : Fld := ⟨.PIL_DRAIN_STATUS, 4, 4⟩
/-- PIL_DRAIN_STATUS.done, W1C (07_pilot.md). -/
def Fld.PIL_DRAIN_STATUS_done : Fld := ⟨.PIL_DRAIN_STATUS, 1, 1⟩
/-- PIL_DRAIN_STATUS.busy, RO (07_pilot.md). -/
def Fld.PIL_DRAIN_STATUS_busy : Fld := ⟨.PIL_DRAIN_STATUS, 0, 1⟩
/-- ARY_SCRUB_CTL.drain_thresh, RW (08_integrity.md). -/
def Fld.ARY_SCRUB_CTL_drain_thresh : Fld := ⟨.ARY_SCRUB_CTL, 16, 8⟩
/-- ARY_SCRUB_CTL.auto_drain, RW (08_integrity.md). -/
def Fld.ARY_SCRUB_CTL_auto_drain : Fld := ⟨.ARY_SCRUB_CTL, 1, 1⟩
/-- ARY_SCRUB_CTL.scrub_en, RW (08_integrity.md). -/
def Fld.ARY_SCRUB_CTL_scrub_en : Fld := ⟨.ARY_SCRUB_CTL, 0, 1⟩
/-- ARY_SCRUB_STATUS.passes, RO (08_integrity.md). -/
def Fld.ARY_SCRUB_STATUS_passes : Fld := ⟨.ARY_SCRUB_STATUS, 40, 24⟩
/-- ARY_SCRUB_STATUS.position, RO (08_integrity.md). -/
def Fld.ARY_SCRUB_STATUS_position : Fld := ⟨.ARY_SCRUB_STATUS, 16, 22⟩
/-- ARY_SCRUB_STATUS.prio_depth, RO (08_integrity.md). -/
def Fld.ARY_SCRUB_STATUS_prio_depth : Fld := ⟨.ARY_SCRUB_STATUS, 8, 7⟩
/-- ARY_SCRUB_STATUS.prio_drop, W1C (08_integrity.md). -/
def Fld.ARY_SCRUB_STATUS_prio_drop : Fld := ⟨.ARY_SCRUB_STATUS, 5, 1⟩
/-- ARY_SCRUB_STATUS.withheld, W1C (08_integrity.md). -/
def Fld.ARY_SCRUB_STATUS_withheld : Fld := ⟨.ARY_SCRUB_STATUS, 4, 1⟩
/-- ARY_SCRUB_STATUS.lost, W1C (08_integrity.md). -/
def Fld.ARY_SCRUB_STATUS_lost : Fld := ⟨.ARY_SCRUB_STATUS, 3, 1⟩
/-- ARY_SCRUB_STATUS.tag_lost, W1C (08_integrity.md). -/
def Fld.ARY_SCRUB_STATUS_tag_lost : Fld := ⟨.ARY_SCRUB_STATUS, 2, 1⟩
/-- ARY_SCRUB_STATUS.rebuilt, W1C (08_integrity.md). -/
def Fld.ARY_SCRUB_STATUS_rebuilt : Fld := ⟨.ARY_SCRUB_STATUS, 1, 1⟩
/-- ARY_SCRUB_STATUS.repaired, W1C (08_integrity.md). -/
def Fld.ARY_SCRUB_STATUS_repaired : Fld := ⟨.ARY_SCRUB_STATUS, 0, 1⟩
/-- ARY_INTEG_COUNT0.unit_repairs, RC (08_integrity.md). -/
def Fld.ARY_INTEG_COUNT0_unit_repairs : Fld := ⟨.ARY_INTEG_COUNT0, 32, 32⟩
/-- ARY_INTEG_COUNT0.discarded, RC (08_integrity.md). -/
def Fld.ARY_INTEG_COUNT0_discarded : Fld := ⟨.ARY_INTEG_COUNT0, 0, 32⟩
/-- ARY_INTEG_COUNT1.tag_corrected, RC (08_integrity.md). -/
def Fld.ARY_INTEG_COUNT1_tag_corrected : Fld := ⟨.ARY_INTEG_COUNT1, 48, 16⟩
/-- ARY_INTEG_COUNT1.tag_uncorr, RC (08_integrity.md). -/
def Fld.ARY_INTEG_COUNT1_tag_uncorr : Fld := ⟨.ARY_INTEG_COUNT1, 32, 16⟩
/-- ARY_INTEG_COUNT1.stripe_rebuilds, RC (08_integrity.md). -/
def Fld.ARY_INTEG_COUNT1_stripe_rebuilds : Fld := ⟨.ARY_INTEG_COUNT1, 16, 16⟩
/-- ARY_INTEG_COUNT1.lost, RC (08_integrity.md). -/
def Fld.ARY_INTEG_COUNT1_lost : Fld := ⟨.ARY_INTEG_COUNT1, 0, 16⟩
/-- ARY_INTEG_COUNT2.corrected, RC (08_integrity.md). -/
def Fld.ARY_INTEG_COUNT2_corrected : Fld := ⟨.ARY_INTEG_COUNT2, 48, 16⟩
/-- ARY_INTEG_COUNT2.suspect, RC (08_integrity.md). -/
def Fld.ARY_INTEG_COUNT2_suspect : Fld := ⟨.ARY_INTEG_COUNT2, 32, 16⟩
/-- ARY_INTEG_COUNT2.verify_fail, RC (08_integrity.md). -/
def Fld.ARY_INTEG_COUNT2_verify_fail : Fld := ⟨.ARY_INTEG_COUNT2, 16, 16⟩
/-- ARY_INTEG_COUNT2.withheld, RO (08_integrity.md). -/
def Fld.ARY_INTEG_COUNT2_withheld : Fld := ⟨.ARY_INTEG_COUNT2, 0, 16⟩
/-- ARY_BANK_SEL.bank, RW (08_integrity.md). -/
def Fld.ARY_BANK_SEL_bank : Fld := ⟨.ARY_BANK_SEL, 0, 9⟩
/-- ARY_BANK_INFO.repairs_pass, RO (08_integrity.md). -/
def Fld.ARY_BANK_INFO_repairs_pass : Fld := ⟨.ARY_BANK_INFO, 48, 16⟩
/-- ARY_BANK_INFO.repairs_total, RO (08_integrity.md). -/
def Fld.ARY_BANK_INFO_repairs_total : Fld := ⟨.ARY_BANK_INFO, 32, 16⟩
/-- ARY_BANK_INFO.width, RO (08_integrity.md). -/
def Fld.ARY_BANK_INFO_width : Fld := ⟨.ARY_BANK_INFO, 22, 2⟩
/-- ARY_BANK_INFO.spare, RO (08_integrity.md). -/
def Fld.ARY_BANK_INFO_spare : Fld := ⟨.ARY_BANK_INFO, 21, 1⟩
/-- ARY_BANK_INFO.quadrant, RO (08_integrity.md). -/
def Fld.ARY_BANK_INFO_quadrant : Fld := ⟨.ARY_BANK_INFO, 19, 2⟩
/-- ARY_BANK_INFO.block, RO (08_integrity.md). -/
def Fld.ARY_BANK_INFO_block : Fld := ⟨.ARY_BANK_INFO, 16, 3⟩
/-- ARY_BANK_INFO.slot, RO (08_integrity.md). -/
def Fld.ARY_BANK_INFO_slot : Fld := ⟨.ARY_BANK_INFO, 11, 5⟩
/-- ARY_BIST_CTL.quadrant, RW (20_test_and_service.md). -/
def Fld.ARY_BIST_CTL_quadrant : Fld := ⟨.ARY_BIST_CTL, 14, 2⟩
/-- ARY_BIST_CTL.block, RW (20_test_and_service.md). -/
def Fld.ARY_BIST_CTL_block : Fld := ⟨.ARY_BIST_CTL, 11, 3⟩
/-- ARY_BIST_CTL.slot, RW (20_test_and_service.md). -/
def Fld.ARY_BIST_CTL_slot : Fld := ⟨.ARY_BIST_CTL, 6, 5⟩
/-- ARY_BIST_CTL.go, W1S (20_test_and_service.md). -/
def Fld.ARY_BIST_CTL_go : Fld := ⟨.ARY_BIST_CTL, 0, 1⟩
/-- ARY_BIST_STATUS.fail_count, RO (20_test_and_service.md). -/
def Fld.ARY_BIST_STATUS_fail_count : Fld := ⟨.ARY_BIST_STATUS, 48, 16⟩
/-- ARY_BIST_STATUS.fail_line, RO (20_test_and_service.md). -/
def Fld.ARY_BIST_STATUS_fail_line : Fld := ⟨.ARY_BIST_STATUS, 32, 16⟩
/-- ARY_BIST_STATUS.ops_left, RO (20_test_and_service.md). -/
def Fld.ARY_BIST_STATUS_ops_left : Fld := ⟨.ARY_BIST_STATUS, 15, 17⟩
/-- ARY_BIST_STATUS.health, RO (20_test_and_service.md). -/
def Fld.ARY_BIST_STATUS_health : Fld := ⟨.ARY_BIST_STATUS, 5, 2⟩
/-- ARY_BIST_STATUS.refused, W1C (20_test_and_service.md). -/
def Fld.ARY_BIST_STATUS_refused : Fld := ⟨.ARY_BIST_STATUS, 3, 1⟩
/-- ARY_BIST_STATUS.done, W1C (20_test_and_service.md). -/
def Fld.ARY_BIST_STATUS_done : Fld := ⟨.ARY_BIST_STATUS, 2, 1⟩
/-- ARY_BIST_STATUS.failed, W1C (20_test_and_service.md). -/
def Fld.ARY_BIST_STATUS_failed : Fld := ⟨.ARY_BIST_STATUS, 1, 1⟩
/-- ARY_BIST_STATUS.busy, RO (20_test_and_service.md). -/
def Fld.ARY_BIST_STATUS_busy : Fld := ⟨.ARY_BIST_STATUS, 0, 1⟩
/-- ARY_HEALTH.failed_slots, RO (20_test_and_service.md). -/
def Fld.ARY_HEALTH_failed_slots : Fld := ⟨.ARY_HEALTH, 16, 10⟩
/-- ARY_HEALTH.unavailable, RO (20_test_and_service.md). -/
def Fld.ARY_HEALTH_unavailable : Fld := ⟨.ARY_HEALTH, 0, 10⟩
/-- LRN_MNF_CTL.dest_index, RW (09_learning_and_aging.md). -/
def Fld.LRN_MNF_CTL_dest_index : Fld := ⟨.LRN_MNF_CTL, 32, 12⟩
/-- LRN_MNF_CTL.dest, RW (09_learning_and_aging.md). -/
def Fld.LRN_MNF_CTL_dest : Fld := ⟨.LRN_MNF_CTL, 4, 2⟩
/-- LRN_MNF_CTL.release, W1S (09_learning_and_aging.md). -/
def Fld.LRN_MNF_CTL_release : Fld := ⟨.LRN_MNF_CTL, 3, 1⟩
/-- LRN_MNF_CTL.rewind, W1S (09_learning_and_aging.md). -/
def Fld.LRN_MNF_CTL_rewind : Fld := ⟨.LRN_MNF_CTL, 2, 1⟩
/-- LRN_MNF_CTL.mark, W1S (09_learning_and_aging.md). -/
def Fld.LRN_MNF_CTL_mark : Fld := ⟨.LRN_MNF_CTL, 1, 1⟩
/-- LRN_MNF_CTL.en, RW (09_learning_and_aging.md). -/
def Fld.LRN_MNF_CTL_en : Fld := ⟨.LRN_MNF_CTL, 0, 1⟩
/-- LRN_MNF_STATUS.occupancy, RO (09_learning_and_aging.md). -/
def Fld.LRN_MNF_STATUS_occupancy : Fld := ⟨.LRN_MNF_STATUS, 32, 16⟩
/-- LRN_MNF_STATUS.gap_pending, RO (09_learning_and_aging.md). -/
def Fld.LRN_MNF_STATUS_gap_pending : Fld := ⟨.LRN_MNF_STATUS, 4, 1⟩
/-- LRN_MNF_STATUS.bad, W1C (09_learning_and_aging.md). -/
def Fld.LRN_MNF_STATUS_bad : Fld := ⟨.LRN_MNF_STATUS, 3, 1⟩
/-- LRN_MNF_STATUS.dropped, W1C (09_learning_and_aging.md). -/
def Fld.LRN_MNF_STATUS_dropped : Fld := ⟨.LRN_MNF_STATUS, 2, 1⟩
/-- LRN_MNF_STATUS.underrun, W1C (09_learning_and_aging.md). -/
def Fld.LRN_MNF_STATUS_underrun : Fld := ⟨.LRN_MNF_STATUS, 1, 1⟩
/-- LRN_MNF_STATUS.xoff, RO (09_learning_and_aging.md). -/
def Fld.LRN_MNF_STATUS_xoff : Fld := ⟨.LRN_MNF_STATUS, 0, 1⟩
/-- LRN_MNF_PTR.commit, RO (09_learning_and_aging.md). -/
def Fld.LRN_MNF_PTR_commit : Fld := ⟨.LRN_MNF_PTR, 48, 16⟩
/-- LRN_MNF_PTR.read, RO (09_learning_and_aging.md). -/
def Fld.LRN_MNF_PTR_read : Fld := ⟨.LRN_MNF_PTR, 32, 16⟩
/-- LRN_MNF_PTR.mark, RO (09_learning_and_aging.md). -/
def Fld.LRN_MNF_PTR_mark : Fld := ⟨.LRN_MNF_PTR, 16, 16⟩
/-- LRN_MNF_PTR.release, RO (09_learning_and_aging.md). -/
def Fld.LRN_MNF_PTR_release : Fld := ⟨.LRN_MNF_PTR, 0, 16⟩
/-- LRN_MNF_WM.high, RW (09_learning_and_aging.md). -/
def Fld.LRN_MNF_WM_high : Fld := ⟨.LRN_MNF_WM, 32, 16⟩
/-- LRN_MNF_WM.low, RW (09_learning_and_aging.md). -/
def Fld.LRN_MNF_WM_low : Fld := ⟨.LRN_MNF_WM, 0, 16⟩
/-- LRN_MNF_WIN0.bytes, RO (09_learning_and_aging.md). -/
def Fld.LRN_MNF_WIN0_bytes : Fld := ⟨.LRN_MNF_WIN0, 0, 64⟩
/-- LRN_MNF_WIN1.bytes, RO (09_learning_and_aging.md). -/
def Fld.LRN_MNF_WIN1_bytes : Fld := ⟨.LRN_MNF_WIN1, 0, 64⟩
/-- LRN_MNF_WIN2.bytes, RO (09_learning_and_aging.md). -/
def Fld.LRN_MNF_WIN2_bytes : Fld := ⟨.LRN_MNF_WIN2, 0, 64⟩
/-- LRN_MNF_WIN3.bytes, RO (09_learning_and_aging.md). -/
def Fld.LRN_MNF_WIN3_bytes : Fld := ⟨.LRN_MNF_WIN3, 0, 64⟩
/-- LRN_MNF_COUNT.dropped, RC (09_learning_and_aging.md). -/
def Fld.LRN_MNF_COUNT_dropped : Fld := ⟨.LRN_MNF_COUNT, 32, 32⟩
/-- LRN_MNF_COUNT.bad, RC (09_learning_and_aging.md). -/
def Fld.LRN_MNF_COUNT_bad : Fld := ⟨.LRN_MNF_COUNT, 0, 32⟩
/-- LRN_FILTER_CTL.flush, W1S (09_learning_and_aging.md). -/
def Fld.LRN_FILTER_CTL_flush : Fld := ⟨.LRN_FILTER_CTL, 16, 1⟩
/-- LRN_FILTER_CTL.window, RW (09_learning_and_aging.md). -/
def Fld.LRN_FILTER_CTL_window : Fld := ⟨.LRN_FILTER_CTL, 0, 16⟩
/-- LRN_FILTER_STATUS.suppressed, RC (09_learning_and_aging.md). -/
def Fld.LRN_FILTER_STATUS_suppressed : Fld := ⟨.LRN_FILTER_STATUS, 32, 32⟩
/-- LRN_FILTER_STATUS.contended, RC (09_learning_and_aging.md). -/
def Fld.LRN_FILTER_STATUS_contended : Fld := ⟨.LRN_FILTER_STATUS, 16, 16⟩
/-- LRN_FILTER_STATUS.live, RO (09_learning_and_aging.md). -/
def Fld.LRN_FILTER_STATUS_live : Fld := ⟨.LRN_FILTER_STATUS, 0, 13⟩
/-- LRN_AGE_CTL.k, RW (09_learning_and_aging.md). -/
def Fld.LRN_AGE_CTL_k : Fld := ⟨.LRN_AGE_CTL, 0, 5⟩
/-- LRN_AGE_STATUS.position, RO (09_learning_and_aging.md). -/
def Fld.LRN_AGE_STATUS_position : Fld := ⟨.LRN_AGE_STATUS, 32, 24⟩
/-- LRN_AGE_STATUS.er, RO (09_learning_and_aging.md). -/
def Fld.LRN_AGE_STATUS_er : Fld := ⟨.LRN_AGE_STATUS, 24, 8⟩
/-- LRN_AGE_STATUS.ep, RO (09_learning_and_aging.md). -/
def Fld.LRN_AGE_STATUS_ep : Fld := ⟨.LRN_AGE_STATUS, 16, 8⟩
/-- LRN_AGE_STATUS.epoch, RO (09_learning_and_aging.md). -/
def Fld.LRN_AGE_STATUS_epoch : Fld := ⟨.LRN_AGE_STATUS, 0, 8⟩
/-- LRN_AGE_COUNT.aged, RC (09_learning_and_aging.md). -/
def Fld.LRN_AGE_COUNT_aged : Fld := ⟨.LRN_AGE_COUNT, 32, 32⟩
/-- LRN_AGE_COUNT.removed, RC (09_learning_and_aging.md). -/
def Fld.LRN_AGE_COUNT_removed : Fld := ⟨.LRN_AGE_COUNT, 0, 32⟩
/-- SCB_STATUS.streams_open, RO (10_scribes.md). -/
def Fld.SCB_STATUS_streams_open : Fld := ⟨.SCB_STATUS, 32, 21⟩
/-- SCB_STATUS.reload_busy, RO (10_scribes.md). -/
def Fld.SCB_STATUS_reload_busy : Fld := ⟨.SCB_STATUS, 7, 1⟩
/-- SCB_STATUS.fault, W1C (10_scribes.md). -/
def Fld.SCB_STATUS_fault : Fld := ⟨.SCB_STATUS, 2, 1⟩
/-- SCB_STATUS.admit_fail, W1C (10_scribes.md). -/
def Fld.SCB_STATUS_admit_fail : Fld := ⟨.SCB_STATUS, 1, 1⟩
/-- SCB_STATUS.admitted, W1C (10_scribes.md). -/
def Fld.SCB_STATUS_admitted : Fld := ⟨.SCB_STATUS, 0, 1⟩
/-- SCB_ONLINE.online, RO (10_scribes.md). -/
def Fld.SCB_ONLINE_online : Fld := ⟨.SCB_ONLINE, 0, 64⟩
/-- SCB_ACTIVE.active, RO (10_scribes.md). -/
def Fld.SCB_ACTIVE_active : Fld := ⟨.SCB_ACTIVE, 0, 64⟩
/-- SCB_SCRIBE_CTL.result, RO (10_scribes.md). -/
def Fld.SCB_SCRIBE_CTL_result : Fld := ⟨.SCB_SCRIBE_CTL, 16, 4⟩
/-- SCB_SCRIBE_CTL.scribe, RW (10_scribes.md). -/
def Fld.SCB_SCRIBE_CTL_scribe : Fld := ⟨.SCB_SCRIBE_CTL, 8, 6⟩
/-- SCB_SCRIBE_CTL.op, RW (10_scribes.md). -/
def Fld.SCB_SCRIBE_CTL_op : Fld := ⟨.SCB_SCRIBE_CTL, 1, 2⟩
/-- SCB_SCRIBE_CTL.go, W1S (10_scribes.md). -/
def Fld.SCB_SCRIBE_CTL_go : Fld := ⟨.SCB_SCRIBE_CTL, 0, 1⟩
/-- SCB_GLYPH_ADDR.addr, RW (10_scribes.md). -/
def Fld.SCB_GLYPH_ADDR_addr : Fld := ⟨.SCB_GLYPH_ADDR, 0, 36⟩
/-- SCB_GLYPH_CTL.length, RW (10_scribes.md). -/
def Fld.SCB_GLYPH_CTL_length : Fld := ⟨.SCB_GLYPH_CTL, 32, 32⟩
/-- SCB_GLYPH_CTL.result, RO (10_scribes.md). -/
def Fld.SCB_GLYPH_CTL_result : Fld := ⟨.SCB_GLYPH_CTL, 28, 4⟩
/-- SCB_GLYPH_CTL.set, RW (10_scribes.md). -/
def Fld.SCB_GLYPH_CTL_set : Fld := ⟨.SCB_GLYPH_CTL, 8, 6⟩
/-- SCB_GLYPH_CTL.busy, RO (10_scribes.md). -/
def Fld.SCB_GLYPH_CTL_busy : Fld := ⟨.SCB_GLYPH_CTL, 3, 1⟩
/-- SCB_GLYPH_CTL.op, RW (10_scribes.md). -/
def Fld.SCB_GLYPH_CTL_op : Fld := ⟨.SCB_GLYPH_CTL, 1, 2⟩
/-- SCB_GLYPH_CTL.go, W1S (10_scribes.md). -/
def Fld.SCB_GLYPH_CTL_go : Fld := ⟨.SCB_GLYPH_CTL, 0, 1⟩
/-- SCB_SET_SEL.set, RW (10_scribes.md). -/
def Fld.SCB_SET_SEL_set : Fld := ⟨.SCB_SET_SEL, 0, 6⟩
/-- SCB_SET_INFO.streams, RO (10_scribes.md). -/
def Fld.SCB_SET_INFO_streams : Fld := ⟨.SCB_SET_INFO, 43, 21⟩
/-- SCB_SET_INFO.patterns, RO (10_scribes.md). -/
def Fld.SCB_SET_INFO_patterns : Fld := ⟨.SCB_SET_INFO, 27, 16⟩
/-- SCB_SET_INFO.admit_err, RO (10_scribes.md). -/
def Fld.SCB_SET_INFO_admit_err : Fld := ⟨.SCB_SET_INFO, 20, 4⟩
/-- SCB_SET_INFO.part_log2, RO (10_scribes.md). -/
def Fld.SCB_SET_INFO_part_log2 : Fld := ⟨.SCB_SET_INFO, 16, 4⟩
/-- SCB_SET_INFO.half, RO (10_scribes.md). -/
def Fld.SCB_SET_INFO_half : Fld := ⟨.SCB_SET_INFO, 8, 1⟩
/-- SCB_SET_INFO.state, RO (10_scribes.md). -/
def Fld.SCB_SET_INFO_state : Fld := ⟨.SCB_SET_INFO, 0, 3⟩
/-- SCB_CACHE_STATUS.cap1, RO (10_scribes.md). -/
def Fld.SCB_CACHE_STATUS_cap1 : Fld := ⟨.SCB_CACHE_STATUS, 48, 10⟩
/-- SCB_CACHE_STATUS.free1, RO (10_scribes.md). -/
def Fld.SCB_CACHE_STATUS_free1 : Fld := ⟨.SCB_CACHE_STATUS, 32, 10⟩
/-- SCB_CACHE_STATUS.cap0, RO (10_scribes.md). -/
def Fld.SCB_CACHE_STATUS_cap0 : Fld := ⟨.SCB_CACHE_STATUS, 16, 10⟩
/-- SCB_CACHE_STATUS.free0, RO (10_scribes.md). -/
def Fld.SCB_CACHE_STATUS_free0 : Fld := ⟨.SCB_CACHE_STATUS, 0, 10⟩
/-- SCB_COUNT0.chunks_done, RC (10_scribes.md). -/
def Fld.SCB_COUNT0_chunks_done : Fld := ⟨.SCB_COUNT0, 32, 32⟩
/-- SCB_COUNT0.matches, RC (10_scribes.md). -/
def Fld.SCB_COUNT0_matches : Fld := ⟨.SCB_COUNT0, 0, 32⟩
/-- SCB_COUNT1.faulted, RC (10_scribes.md). -/
def Fld.SCB_COUNT1_faulted : Fld := ⟨.SCB_COUNT1, 48, 16⟩
/-- SCB_COUNT1.state_late, RC (10_scribes.md). -/
def Fld.SCB_COUNT1_state_late : Fld := ⟨.SCB_COUNT1, 32, 16⟩
/-- SCB_COUNT1.out_of_seq, RC (10_scribes.md). -/
def Fld.SCB_COUNT1_out_of_seq : Fld := ⟨.SCB_COUNT1, 16, 16⟩
/-- SCB_COUNT1.unreported, RC (10_scribes.md). -/
def Fld.SCB_COUNT1_unreported : Fld := ⟨.SCB_COUNT1, 0, 16⟩
/-- TEL_CNT_SEL.handle, RW (11_observability.md). -/
def Fld.TEL_CNT_SEL_handle : Fld := ⟨.TEL_CNT_SEL, 0, 32⟩
/-- TEL_CNT_READ.count, RO (11_observability.md). -/
def Fld.TEL_CNT_READ_count : Fld := ⟨.TEL_CNT_READ, 0, 64⟩
/-- TEL_CNT_WRITE.value, WO (11_observability.md). -/
def Fld.TEL_CNT_WRITE_value : Fld := ⟨.TEL_CNT_WRITE, 0, 64⟩
/-- TEL_CNT_STATUS.folds, RC (11_observability.md). -/
def Fld.TEL_CNT_STATUS_folds : Fld := ⟨.TEL_CNT_STATUS, 32, 32⟩
/-- TEL_CNT_STATUS.fold_queue, RO (11_observability.md). -/
def Fld.TEL_CNT_STATUS_fold_queue : Fld := ⟨.TEL_CNT_STATUS, 8, 7⟩
/-- TEL_CNT_STATUS.places, RO (11_observability.md). -/
def Fld.TEL_CNT_STATUS_places : Fld := ⟨.TEL_CNT_STATUS, 3, 5⟩
/-- TEL_CNT_STATUS.stale, W1C (11_observability.md). -/
def Fld.TEL_CNT_STATUS_stale : Fld := ⟨.TEL_CNT_STATUS, 2, 1⟩
/-- TEL_CNT_STATUS.refused, W1C (11_observability.md). -/
def Fld.TEL_CNT_STATUS_refused : Fld := ⟨.TEL_CNT_STATUS, 1, 1⟩
/-- TEL_CNT_STATUS.sat, W1C (11_observability.md). -/
def Fld.TEL_CNT_STATUS_sat : Fld := ⟨.TEL_CNT_STATUS, 0, 1⟩
/-- TEL_SAMPLE_CTL.en, RW (11_observability.md). -/
def Fld.TEL_SAMPLE_CTL_en : Fld := ⟨.TEL_SAMPLE_CTL, 8, 1⟩
/-- TEL_SAMPLE_CTL.k, RW (11_observability.md). -/
def Fld.TEL_SAMPLE_CTL_k : Fld := ⟨.TEL_SAMPLE_CTL, 0, 5⟩
/-- TEL_MIRROR_SEL.session, RW (11_observability.md). -/
def Fld.TEL_MIRROR_SEL_session : Fld := ⟨.TEL_MIRROR_SEL, 0, 4⟩
/-- TEL_MIRROR_CTL.ratio, RW (11_observability.md). -/
def Fld.TEL_MIRROR_CTL_ratio : Fld := ⟨.TEL_MIRROR_CTL, 48, 16⟩
/-- TEL_MIRROR_CTL.berth, RW (11_observability.md). -/
def Fld.TEL_MIRROR_CTL_berth : Fld := ⟨.TEL_MIRROR_CTL, 34, 14⟩
/-- TEL_MIRROR_CTL.dest_index, RW (11_observability.md). -/
def Fld.TEL_MIRROR_CTL_dest_index : Fld := ⟨.TEL_MIRROR_CTL, 20, 12⟩
/-- TEL_MIRROR_CTL.dest, RW (11_observability.md). -/
def Fld.TEL_MIRROR_CTL_dest : Fld := ⟨.TEL_MIRROR_CTL, 18, 2⟩
/-- TEL_MIRROR_CTL.with_result, RW (11_observability.md). -/
def Fld.TEL_MIRROR_CTL_with_result : Fld := ⟨.TEL_MIRROR_CTL, 1, 1⟩
/-- TEL_MIRROR_CTL.en, RW (11_observability.md). -/
def Fld.TEL_MIRROR_CTL_en : Fld := ⟨.TEL_MIRROR_CTL, 0, 1⟩
/-- TEL_DEST_CTL.dest_index, RW (11_observability.md). -/
def Fld.TEL_DEST_CTL_dest_index : Fld := ⟨.TEL_DEST_CTL, 20, 12⟩
/-- TEL_DEST_CTL.dest, RW (11_observability.md). -/
def Fld.TEL_DEST_CTL_dest : Fld := ⟨.TEL_DEST_CTL, 18, 2⟩
/-- TEL_DEST_CTL.held, RO (11_observability.md). -/
def Fld.TEL_DEST_CTL_held : Fld := ⟨.TEL_DEST_CTL, 0, 13⟩
/-- TEL_CAPTURE_PTR.wraps, RO (11_observability.md). -/
def Fld.TEL_CAPTURE_PTR_wraps : Fld := ⟨.TEL_CAPTURE_PTR, 40, 24⟩
/-- TEL_CAPTURE_PTR.stopped, RO (11_observability.md). -/
def Fld.TEL_CAPTURE_PTR_stopped : Fld := ⟨.TEL_CAPTURE_PTR, 34, 1⟩
/-- TEL_CAPTURE_PTR.stop, RW (11_observability.md). -/
def Fld.TEL_CAPTURE_PTR_stop : Fld := ⟨.TEL_CAPTURE_PTR, 33, 1⟩
/-- TEL_CAPTURE_PTR.word, RO (11_observability.md). -/
def Fld.TEL_CAPTURE_PTR_word : Fld := ⟨.TEL_CAPTURE_PTR, 3, 30⟩
/-- TEL_DROP_COUNT.sample, RC (11_observability.md). -/
def Fld.TEL_DROP_COUNT_sample : Fld := ⟨.TEL_DROP_COUNT, 32, 32⟩
/-- TEL_DROP_COUNT.mirror, RC (11_observability.md). -/
def Fld.TEL_DROP_COUNT_mirror : Fld := ⟨.TEL_DROP_COUNT, 0, 32⟩
/-- BTH_SEL.berth, RW (12_berths_and_shaping.md). -/
def Fld.BTH_SEL_berth : Fld := ⟨.BTH_SEL, 0, 14⟩
/-- BTH_INFO.units, RO (12_berths_and_shaping.md). -/
def Fld.BTH_INFO_units : Fld := ⟨.BTH_INFO, 32, 25⟩
/-- BTH_INFO.grants, RO (12_berths_and_shaping.md). -/
def Fld.BTH_INFO_grants : Fld := ⟨.BTH_INFO, 8, 7⟩
/-- BTH_INFO.shaper_en, RO (12_berths_and_shaping.md). -/
def Fld.BTH_INFO_shaper_en : Fld := ⟨.BTH_INFO, 2, 1⟩
/-- BTH_INFO.class_ceiling, RO (12_berths_and_shaping.md). -/
def Fld.BTH_INFO_class_ceiling : Fld := ⟨.BTH_INFO, 0, 2⟩
/-- BTH_QUOTA.unit_quota, RO (12_berths_and_shaping.md). -/
def Fld.BTH_QUOTA_unit_quota : Fld := ⟨.BTH_QUOTA, 0, 25⟩
/-- BTH_LEVEL_C.level, RO (12_berths_and_shaping.md). -/
def Fld.BTH_LEVEL_C_level : Fld := ⟨.BTH_LEVEL_C, 0, 64⟩
/-- BTH_LEVEL_P.level, RO (12_berths_and_shaping.md). -/
def Fld.BTH_LEVEL_P_level : Fld := ⟨.BTH_LEVEL_P, 0, 64⟩
/-- BTH_RATE.pir, RO (12_berths_and_shaping.md). -/
def Fld.BTH_RATE_pir : Fld := ⟨.BTH_RATE, 32, 32⟩
/-- BTH_RATE.cir, RO (12_berths_and_shaping.md). -/
def Fld.BTH_RATE_cir : Fld := ⟨.BTH_RATE, 0, 32⟩
/-- BTH_SHAPER_CTL.forgive_pending, RO (12_berths_and_shaping.md). -/
def Fld.BTH_SHAPER_CTL_forgive_pending : Fld := ⟨.BTH_SHAPER_CTL, 1, 1⟩
/-- BTH_SHAPER_CTL.forgive, W1S (12_berths_and_shaping.md). -/
def Fld.BTH_SHAPER_CTL_forgive : Fld := ⟨.BTH_SHAPER_CTL, 0, 1⟩
/-- BTH_COLOUR_COUNT.red, RC (12_berths_and_shaping.md). -/
def Fld.BTH_COLOUR_COUNT_red : Fld := ⟨.BTH_COLOUR_COUNT, 42, 21⟩
/-- BTH_COLOUR_COUNT.yellow, RC (12_berths_and_shaping.md). -/
def Fld.BTH_COLOUR_COUNT_yellow : Fld := ⟨.BTH_COLOUR_COUNT, 21, 21⟩
/-- BTH_COLOUR_COUNT.green, RC (12_berths_and_shaping.md). -/
def Fld.BTH_COLOUR_COUNT_green : Fld := ⟨.BTH_COLOUR_COUNT, 0, 21⟩
/-- BTH_STATUS.refused, W1C (12_berths_and_shaping.md). -/
def Fld.BTH_STATUS_refused : Fld := ⟨.BTH_STATUS, 0, 1⟩
/-- BTH_GLYPH_MASK.glyph_mask, RO (12_berths_and_shaping.md). -/
def Fld.BTH_GLYPH_MASK_glyph_mask : Fld := ⟨.BTH_GLYPH_MASK, 0, 64⟩
/-- BTH_MASTER_SEL.master, RW (12_berths_and_shaping.md). -/
def Fld.BTH_MASTER_SEL_master : Fld := ⟨.BTH_MASTER_SEL, 0, 32⟩
/-- BTH_MASTER_RANGE.count, RO (12_berths_and_shaping.md). -/
def Fld.BTH_MASTER_RANGE_count : Fld := ⟨.BTH_MASTER_RANGE, 32, 15⟩
/-- BTH_MASTER_RANGE.first, RO (12_berths_and_shaping.md). -/
def Fld.BTH_MASTER_RANGE_first : Fld := ⟨.BTH_MASTER_RANGE, 0, 14⟩
/-- BTH_GRANT.rights, RO (12_berths_and_shaping.md). -/
def Fld.BTH_GRANT_rights : Fld := ⟨.BTH_GRANT, 16, 4⟩
/-- BTH_GRANT.tid, RO (12_berths_and_shaping.md). -/
def Fld.BTH_GRANT_tid : Fld := ⟨.BTH_GRANT, 0, 16⟩
/-- SEC_STATUS.lc_changes, RO (13_security.md). -/
def Fld.SEC_STATUS_lc_changes : Fld := ⟨.SEC_STATUS, 20, 6⟩
/-- SEC_STATUS.life_cycle, RO (13_security.md). -/
def Fld.SEC_STATUS_life_cycle : Fld := ⟨.SEC_STATUS, 16, 4⟩
/-- SEC_STATUS.thaw_refused, W1C (13_security.md). -/
def Fld.SEC_STATUS_thaw_refused : Fld := ⟨.SEC_STATUS, 10, 1⟩
/-- SEC_STATUS.drbg_fail, W1C (13_security.md). -/
def Fld.SEC_STATUS_drbg_fail : Fld := ⟨.SEC_STATUS, 9, 1⟩
/-- SEC_STATUS.tamper_seen, W1C (13_security.md). -/
def Fld.SEC_STATUS_tamper_seen : Fld := ⟨.SEC_STATUS, 8, 1⟩
/-- SEC_STATUS.frozen_any, RO (13_security.md). -/
def Fld.SEC_STATUS_frozen_any : Fld := ⟨.SEC_STATUS, 7, 1⟩
/-- SEC_STATUS.debug_open, RO (13_security.md). -/
def Fld.SEC_STATUS_debug_open : Fld := ⟨.SEC_STATUS, 6, 1⟩
/-- SEC_STATUS.approved, RO (13_security.md). -/
def Fld.SEC_STATUS_approved : Fld := ⟨.SEC_STATUS, 5, 1⟩
/-- SEC_STATUS.debug_lock, RO (13_security.md). -/
def Fld.SEC_STATUS_debug_lock : Fld := ⟨.SEC_STATUS, 2, 1⟩
/-- SEC_STATUS.cmd_auth, RO (13_security.md). -/
def Fld.SEC_STATUS_cmd_auth : Fld := ⟨.SEC_STATUS, 1, 1⟩
/-- SEC_STATUS.certified, RO (13_security.md). -/
def Fld.SEC_STATUS_certified : Fld := ⟨.SEC_STATUS, 0, 1⟩
/-- SEC_BOOT_NONCE0.nonce, RO (13_security.md). -/
def Fld.SEC_BOOT_NONCE0_nonce : Fld := ⟨.SEC_BOOT_NONCE0, 0, 64⟩
/-- SEC_BOOT_NONCE1.nonce, RO (13_security.md). -/
def Fld.SEC_BOOT_NONCE1_nonce : Fld := ⟨.SEC_BOOT_NONCE1, 0, 64⟩
/-- SEC_UID0.uid, RO (13_security.md). -/
def Fld.SEC_UID0_uid : Fld := ⟨.SEC_UID0, 0, 64⟩
/-- SEC_UID1.uid, RO (13_security.md). -/
def Fld.SEC_UID1_uid : Fld := ⟨.SEC_UID1, 0, 64⟩
/-- SEC_TAMPER_LOG.events, RO (13_security.md). -/
def Fld.SEC_TAMPER_LOG_events : Fld := ⟨.SEC_TAMPER_LOG, 48, 16⟩
/-- SEC_TAMPER_LOG.cause, RO (13_security.md). -/
def Fld.SEC_TAMPER_LOG_cause : Fld := ⟨.SEC_TAMPER_LOG, 0, 7⟩
/-- SEC_FREEZE_SEL.master, RW (13_security.md). -/
def Fld.SEC_FREEZE_SEL_master : Fld := ⟨.SEC_FREEZE_SEL, 0, 32⟩
/-- SEC_FREEZE_INFO.thaw_tide, RO (13_security.md). -/
def Fld.SEC_FREEZE_INFO_thaw_tide : Fld := ⟨.SEC_FREEZE_INFO, 32, 32⟩
/-- SEC_FREEZE_INFO.dropped, RC (13_security.md). -/
def Fld.SEC_FREEZE_INFO_dropped : Fld := ⟨.SEC_FREEZE_INFO, 16, 16⟩
/-- SEC_FREEZE_INFO.violations, RC (13_security.md). -/
def Fld.SEC_FREEZE_INFO_violations : Fld := ⟨.SEC_FREEZE_INFO, 8, 8⟩
/-- SEC_FREEZE_INFO.cause, RO (13_security.md). -/
def Fld.SEC_FREEZE_INFO_cause : Fld := ⟨.SEC_FREEZE_INFO, 4, 4⟩
/-- SEC_FREEZE_INFO.frozen, RO (13_security.md). -/
def Fld.SEC_FREEZE_INFO_frozen : Fld := ⟨.SEC_FREEZE_INFO, 0, 1⟩
/-- SEC_THAW.master, WO (13_security.md). -/
def Fld.SEC_THAW_master : Fld := ⟨.SEC_THAW, 0, 32⟩
/-- QUY_SEL.lquay, RW (14_quay_links.md). -/
def Fld.QUY_SEL_lquay : Fld := ⟨.QUY_SEL, 0, 6⟩
/-- QUY_STATUS.rx_expect, RO (14_quay_links.md). -/
def Fld.QUY_STATUS_rx_expect : Fld := ⟨.QUY_STATUS, 32, 24⟩
/-- QUY_STATUS.retired, RO (14_quay_links.md). -/
def Fld.QUY_STATUS_retired : Fld := ⟨.QUY_STATUS, 24, 8⟩
/-- QUY_STATUS.width, RO (14_quay_links.md). -/
def Fld.QUY_STATUS_width : Fld := ⟨.QUY_STATUS, 18, 2⟩
/-- QUY_STATUS.xoff, RO (14_quay_links.md). -/
def Fld.QUY_STATUS_xoff : Fld := ⟨.QUY_STATUS, 17, 1⟩
/-- QUY_STATUS.retraining, RO (14_quay_links.md). -/
def Fld.QUY_STATUS_retraining : Fld := ⟨.QUY_STATUS, 16, 1⟩
/-- QUY_STATUS.went_down, W1C (14_quay_links.md). -/
def Fld.QUY_STATUS_went_down : Fld := ⟨.QUY_STATUS, 7, 1⟩
/-- QUY_STATUS.narrowed, W1C (14_quay_links.md). -/
def Fld.QUY_STATUS_narrowed : Fld := ⟨.QUY_STATUS, 6, 1⟩
/-- QUY_STATUS.lane_retired, W1C (14_quay_links.md). -/
def Fld.QUY_STATUS_lane_retired : Fld := ⟨.QUY_STATUS, 5, 1⟩
/-- QUY_STATUS.replay, W1C (14_quay_links.md). -/
def Fld.QUY_STATUS_replay : Fld := ⟨.QUY_STATUS, 4, 1⟩
/-- QUY_STATUS.state, RO (14_quay_links.md). -/
def Fld.QUY_STATUS_state : Fld := ⟨.QUY_STATUS, 0, 3⟩
/-- QUY_CTL.ser_limit, RW (14_quay_links.md). -/
def Fld.QUY_CTL_ser_limit : Fld := ⟨.QUY_CTL, 32, 32⟩
/-- QUY_CTL.retrain, W1S (14_quay_links.md). -/
def Fld.QUY_CTL_retrain : Fld := ⟨.QUY_CTL, 2, 1⟩
/-- QUY_CTL.reset, W1S (14_quay_links.md). -/
def Fld.QUY_CTL_reset : Fld := ⟨.QUY_CTL, 1, 1⟩
/-- QUY_CTL.enable, RW (14_quay_links.md). -/
def Fld.QUY_CTL_enable : Fld := ⟨.QUY_CTL, 0, 1⟩
/-- QUY_LANES.lanes, RO (14_quay_links.md). -/
def Fld.QUY_LANES_lanes : Fld := ⟨.QUY_LANES, 0, 64⟩
/-- QUY_POOLS.pools, RO (14_quay_links.md). -/
def Fld.QUY_POOLS_pools : Fld := ⟨.QUY_POOLS, 0, 48⟩
/-- QUY_ERR_COUNT.uncorrectable, RC (14_quay_links.md). -/
def Fld.QUY_ERR_COUNT_uncorrectable : Fld := ⟨.QUY_ERR_COUNT, 48, 16⟩
/-- QUY_ERR_COUNT.crc_fail, RC (14_quay_links.md). -/
def Fld.QUY_ERR_COUNT_crc_fail : Fld := ⟨.QUY_ERR_COUNT, 32, 16⟩
/-- QUY_ERR_COUNT.replays, RC (14_quay_links.md). -/
def Fld.QUY_ERR_COUNT_replays : Fld := ⟨.QUY_ERR_COUNT, 16, 16⟩
/-- QUY_ERR_COUNT.overrun, RC (14_quay_links.md). -/
def Fld.QUY_ERR_COUNT_overrun : Fld := ⟨.QUY_ERR_COUNT, 8, 8⟩
/-- QUY_ERR_COUNT.discarded, RC (14_quay_links.md). -/
def Fld.QUY_ERR_COUNT_discarded : Fld := ⟨.QUY_ERR_COUNT, 0, 8⟩
/-- QUY_CORR_COUNT.corrected, RC (14_quay_links.md). -/
def Fld.QUY_CORR_COUNT_corrected : Fld := ⟨.QUY_CORR_COUNT, 0, 64⟩
/-- QUY_RESULT_COUNT.redirected, RC (14_quay_links.md). -/
def Fld.QUY_RESULT_COUNT_redirected : Fld := ⟨.QUY_RESULT_COUNT, 32, 32⟩
/-- QUY_RESULT_COUNT.lost, RC (14_quay_links.md). -/
def Fld.QUY_RESULT_COUNT_lost : Fld := ⟨.QUY_RESULT_COUNT, 0, 32⟩
/-- QUY_XOFF.level, RO (14_quay_links.md). -/
def Fld.QUY_XOFF_level : Fld := ⟨.QUY_XOFF, 0, 12⟩
/-- RNG_STATUS.epoch, RO (15_ring.md). -/
def Fld.RNG_STATUS_epoch : Fld := ⟨.RNG_STATUS, 48, 16⟩
/-- RNG_STATUS.present, RO (15_ring.md). -/
def Fld.RNG_STATUS_present : Fld := ⟨.RNG_STATUS, 40, 8⟩
/-- RNG_STATUS.weight2, RO (15_ring.md). -/
def Fld.RNG_STATUS_weight2 : Fld := ⟨.RNG_STATUS, 32, 8⟩
/-- RNG_STATUS.hops, RO (15_ring.md). -/
def Fld.RNG_STATUS_hops : Fld := ⟨.RNG_STATUS, 28, 4⟩
/-- RNG_STATUS.members, RO (15_ring.md). -/
def Fld.RNG_STATUS_members : Fld := ⟨.RNG_STATUS, 20, 8⟩
/-- RNG_STATUS.member, RO (15_ring.md). -/
def Fld.RNG_STATUS_member : Fld := ⟨.RNG_STATUS, 17, 3⟩
/-- RNG_STATUS.solo, RO (15_ring.md). -/
def Fld.RNG_STATUS_solo : Fld := ⟨.RNG_STATUS, 16, 1⟩
/-- RNG_STATUS.leader, RO (15_ring.md). -/
def Fld.RNG_STATUS_leader : Fld := ⟨.RNG_STATUS, 15, 1⟩
/-- RNG_STATUS.gate_e, RO (15_ring.md). -/
def Fld.RNG_STATUS_gate_e : Fld := ⟨.RNG_STATUS, 14, 1⟩
/-- RNG_STATUS.gate_w, RO (15_ring.md). -/
def Fld.RNG_STATUS_gate_w : Fld := ⟨.RNG_STATUS, 13, 1⟩
/-- RNG_STATUS.solo_entered, W1C (15_ring.md). -/
def Fld.RNG_STATUS_solo_entered : Fld := ⟨.RNG_STATUS, 3, 1⟩
/-- RNG_STATUS.census_timeout, W1C (15_ring.md). -/
def Fld.RNG_STATUS_census_timeout : Fld := ⟨.RNG_STATUS, 2, 1⟩
/-- RNG_STATUS.epoch_changed, W1C (15_ring.md). -/
def Fld.RNG_STATUS_epoch_changed : Fld := ⟨.RNG_STATUS, 1, 1⟩
/-- RNG_STATUS.late, W1C (15_ring.md). -/
def Fld.RNG_STATUS_late : Fld := ⟨.RNG_STATUS, 0, 1⟩
/-- RNG_PORT_STATUS.east_retired, RO (15_ring.md). -/
def Fld.RNG_PORT_STATUS_east_retired : Fld := ⟨.RNG_PORT_STATUS, 48, 16⟩
/-- RNG_PORT_STATUS.west_retired, RO (15_ring.md). -/
def Fld.RNG_PORT_STATUS_west_retired : Fld := ⟨.RNG_PORT_STATUS, 32, 16⟩
/-- RNG_PORT_STATUS.west_narrow, RO (15_ring.md). -/
def Fld.RNG_PORT_STATUS_west_narrow : Fld := ⟨.RNG_PORT_STATUS, 11, 1⟩
/-- RNG_PORT_STATUS.west_state, RO (15_ring.md). -/
def Fld.RNG_PORT_STATUS_west_state : Fld := ⟨.RNG_PORT_STATUS, 8, 3⟩
/-- RNG_PORT_STATUS.east_narrow, RO (15_ring.md). -/
def Fld.RNG_PORT_STATUS_east_narrow : Fld := ⟨.RNG_PORT_STATUS, 3, 1⟩
/-- RNG_PORT_STATUS.east_state, RO (15_ring.md). -/
def Fld.RNG_PORT_STATUS_east_state : Fld := ⟨.RNG_PORT_STATUS, 0, 3⟩
/-- RNG_CTL.leave, W1S (15_ring.md). -/
def Fld.RNG_CTL_leave : Fld := ⟨.RNG_CTL, 2, 1⟩
/-- RNG_CTL.join, W1S (15_ring.md). -/
def Fld.RNG_CTL_join : Fld := ⟨.RNG_CTL, 1, 1⟩
/-- RNG_CTL.auto_join, RW (15_ring.md). -/
def Fld.RNG_CTL_auto_join : Fld := ⟨.RNG_CTL, 0, 1⟩
/-- RNG_COUNT0.searched, RC (15_ring.md). -/
def Fld.RNG_COUNT0_searched : Fld := ⟨.RNG_COUNT0, 32, 32⟩
/-- RNG_COUNT0.launched, RC (15_ring.md). -/
def Fld.RNG_COUNT0_launched : Fld := ⟨.RNG_COUNT0, 0, 32⟩
/-- RNG_COUNT1.late, RC (15_ring.md). -/
def Fld.RNG_COUNT1_late : Fld := ⟨.RNG_COUNT1, 48, 16⟩
/-- RNG_COUNT1.discarded, RC (15_ring.md). -/
def Fld.RNG_COUNT1_discarded : Fld := ⟨.RNG_COUNT1, 32, 16⟩
/-- RNG_COUNT1.passed, RC (15_ring.md). -/
def Fld.RNG_COUNT1_passed : Fld := ⟨.RNG_COUNT1, 16, 16⟩
/-- RNG_COUNT1.partial, RC (15_ring.md). -/
def Fld.RNG_COUNT1_partial : Fld := ⟨.RNG_COUNT1, 0, 16⟩
/-- HST_STATUS.gen, RO (16_host_interface.md). -/
def Fld.HST_STATUS_gen : Fld := ⟨.HST_STATUS, 13, 3⟩
/-- HST_STATUS.width, RO (16_host_interface.md). -/
def Fld.HST_STATUS_width : Fld := ⟨.HST_STATUS, 8, 5⟩
/-- HST_STATUS.flit, RO (16_host_interface.md). -/
def Fld.HST_STATUS_flit : Fld := ⟨.HST_STATUS, 7, 1⟩
/-- HST_STATUS.flr_seen, W1C (16_host_interface.md). -/
def Fld.HST_STATUS_flr_seen : Fld := ⟨.HST_STATUS, 2, 1⟩
/-- HST_STATUS.link_lost, W1C (16_host_interface.md). -/
def Fld.HST_STATUS_link_lost : Fld := ⟨.HST_STATUS, 1, 1⟩
/-- HST_STATUS.link_up, RO (16_host_interface.md). -/
def Fld.HST_STATUS_link_up : Fld := ⟨.HST_STATUS, 0, 1⟩
/-- HST_DMA_REJECT.count, RC (16_host_interface.md). -/
def Fld.HST_DMA_REJECT_count : Fld := ⟨.HST_DMA_REJECT, 0, 32⟩
/-- HST_CPL_COUNT.timeouts, RC (16_host_interface.md). -/
def Fld.HST_CPL_COUNT_timeouts : Fld := ⟨.HST_CPL_COUNT, 32, 32⟩
/-- HST_CPL_COUNT.late, RC (16_host_interface.md). -/
def Fld.HST_CPL_COUNT_late : Fld := ⟨.HST_CPL_COUNT, 0, 32⟩
/-- HST_HOST_COUNT.lost, RC (16_host_interface.md). -/
def Fld.HST_HOST_COUNT_lost : Fld := ⟨.HST_HOST_COUNT, 32, 32⟩
/-- HST_HOST_COUNT.flr_discarded, RC (16_host_interface.md). -/
def Fld.HST_HOST_COUNT_flr_discarded : Fld := ⟨.HST_HOST_COUNT, 16, 16⟩
/-- HST_HOST_COUNT.seed_lost, RC (16_host_interface.md). -/
def Fld.HST_HOST_COUNT_seed_lost : Fld := ⟨.HST_HOST_COUNT, 0, 16⟩
/-- HST_RING_SEL.ring, RW (16_host_interface.md). -/
def Fld.HST_RING_SEL_ring : Fld := ⟨.HST_RING_SEL, 0, 12⟩
/-- HST_RING_BASE.base, RW (16_host_interface.md). -/
def Fld.HST_RING_BASE_base : Fld := ⟨.HST_RING_BASE, 12, 52⟩
/-- HST_RING_WB.addr, RW (16_host_interface.md). -/
def Fld.HST_RING_WB_addr : Fld := ⟨.HST_RING_WB, 3, 61⟩
/-- HST_RING_CTL.pair, RW (16_host_interface.md). -/
def Fld.HST_RING_CTL_pair : Fld := ⟨.HST_RING_CTL, 48, 4⟩
/-- HST_RING_CTL.size_log2, RW (16_host_interface.md). -/
def Fld.HST_RING_CTL_size_log2 : Fld := ⟨.HST_RING_CTL, 40, 5⟩
/-- HST_RING_CTL.vector, RW (16_host_interface.md). -/
def Fld.HST_RING_CTL_vector : Fld := ⟨.HST_RING_CTL, 32, 3⟩
/-- HST_RING_CTL.class, RW (16_host_interface.md). -/
def Fld.HST_RING_CTL_class : Fld := ⟨.HST_RING_CTL, 24, 2⟩
/-- HST_RING_CTL.kind, RW (16_host_interface.md). -/
def Fld.HST_RING_CTL_kind : Fld := ⟨.HST_RING_CTL, 16, 2⟩
/-- HST_RING_CTL.cause, RO (16_host_interface.md). -/
def Fld.HST_RING_CTL_cause : Fld := ⟨.HST_RING_CTL, 4, 4⟩
/-- HST_RING_CTL.state, RO (16_host_interface.md). -/
def Fld.HST_RING_CTL_state : Fld := ⟨.HST_RING_CTL, 2, 2⟩
/-- HST_RING_CTL.reset, W1S (16_host_interface.md). -/
def Fld.HST_RING_CTL_reset : Fld := ⟨.HST_RING_CTL, 1, 1⟩
/-- HST_RING_CTL.en, RW (16_host_interface.md). -/
def Fld.HST_RING_CTL_en : Fld := ⟨.HST_RING_CTL, 0, 1⟩
/-- HST_RING_STATUS.dev_index, RO (16_host_interface.md). -/
def Fld.HST_RING_STATUS_dev_index : Fld := ⟨.HST_RING_STATUS, 32, 32⟩
/-- HST_RING_STATUS.host_index, RO (16_host_interface.md). -/
def Fld.HST_RING_STATUS_host_index : Fld := ⟨.HST_RING_STATUS, 0, 32⟩
/-- HST_WIN_SEL.window, RW (16_host_interface.md). -/
def Fld.HST_WIN_SEL_window : Fld := ⟨.HST_WIN_SEL, 0, 4⟩
/-- HST_WIN_NEXT.slot, RW (16_host_interface.md). -/
def Fld.HST_WIN_NEXT_slot : Fld := ⟨.HST_WIN_NEXT, 32, 4⟩
/-- HST_WIN_NEXT.berth, RW (16_host_interface.md). -/
def Fld.HST_WIN_NEXT_berth : Fld := ⟨.HST_WIN_NEXT, 16, 14⟩
/-- HST_WIN_NEXT.function, RW (16_host_interface.md). -/
def Fld.HST_WIN_NEXT_function : Fld := ⟨.HST_WIN_NEXT, 8, 8⟩
/-- HST_WIN_NEXT.en, RW (16_host_interface.md). -/
def Fld.HST_WIN_NEXT_en : Fld := ⟨.HST_WIN_NEXT, 0, 1⟩
/-- HST_WIN_ACTIVE.gen, RO (16_host_interface.md). -/
def Fld.HST_WIN_ACTIVE_gen : Fld := ⟨.HST_WIN_ACTIVE, 48, 16⟩
/-- HST_WIN_ACTIVE.slot, RO (16_host_interface.md). -/
def Fld.HST_WIN_ACTIVE_slot : Fld := ⟨.HST_WIN_ACTIVE, 32, 4⟩
/-- HST_WIN_ACTIVE.berth, RO (16_host_interface.md). -/
def Fld.HST_WIN_ACTIVE_berth : Fld := ⟨.HST_WIN_ACTIVE, 16, 14⟩
/-- HST_WIN_ACTIVE.function, RO (16_host_interface.md). -/
def Fld.HST_WIN_ACTIVE_function : Fld := ⟨.HST_WIN_ACTIVE, 8, 8⟩
/-- HST_WIN_ACTIVE.en, RO (16_host_interface.md). -/
def Fld.HST_WIN_ACTIVE_en : Fld := ⟨.HST_WIN_ACTIVE, 0, 1⟩
/-- HST_WIN_CTL.result, RO (16_host_interface.md). -/
def Fld.HST_WIN_CTL_result : Fld := ⟨.HST_WIN_CTL, 4, 4⟩
/-- HST_WIN_CTL.pending, RO (16_host_interface.md). -/
def Fld.HST_WIN_CTL_pending : Fld := ⟨.HST_WIN_CTL, 1, 1⟩
/-- HST_WIN_CTL.commit, W1S (16_host_interface.md). -/
def Fld.HST_WIN_CTL_commit : Fld := ⟨.HST_WIN_CTL, 0, 1⟩
/-- HST_WIN_COUNT.nowin, RC (16_host_interface.md). -/
def Fld.HST_WIN_COUNT_nowin : Fld := ⟨.HST_WIN_COUNT, 48, 16⟩
/-- HST_WIN_COUNT.malformed, RC (16_host_interface.md). -/
def Fld.HST_WIN_COUNT_malformed : Fld := ⟨.HST_WIN_COUNT, 32, 16⟩
/-- HST_WIN_COUNT.overrun, RC (16_host_interface.md). -/
def Fld.HST_WIN_COUNT_overrun : Fld := ⟨.HST_WIN_COUNT, 16, 16⟩
/-- HST_WIN_COUNT.violations, RC (16_host_interface.md). -/
def Fld.HST_WIN_COUNT_violations : Fld := ⟨.HST_WIN_COUNT, 0, 16⟩
/-- MEM_STATUS.temp1, RO (17_dram.md). -/
def Fld.MEM_STATUS_temp1 : Fld := ⟨.MEM_STATUS, 40, 8⟩
/-- MEM_STATUS.temp0, RO (17_dram.md). -/
def Fld.MEM_STATUS_temp0 : Fld := ⟨.MEM_STATUS, 32, 8⟩
/-- MEM_STATUS.degraded, RO (17_dram.md). -/
def Fld.MEM_STATUS_degraded : Fld := ⟨.MEM_STATUS, 15, 1⟩
/-- MEM_STATUS.rebuild_busy, RO (17_dram.md). -/
def Fld.MEM_STATUS_rebuild_busy : Fld := ⟨.MEM_STATUS, 14, 1⟩
/-- MEM_STATUS.panic1, RO (17_dram.md). -/
def Fld.MEM_STATUS_panic1 : Fld := ⟨.MEM_STATUS, 13, 1⟩
/-- MEM_STATUS.panic0, RO (17_dram.md). -/
def Fld.MEM_STATUS_panic0 : Fld := ⟨.MEM_STATUS, 12, 1⟩
/-- MEM_STATUS.hot1, RO (17_dram.md). -/
def Fld.MEM_STATUS_hot1 : Fld := ⟨.MEM_STATUS, 11, 1⟩
/-- MEM_STATUS.hot0, RO (17_dram.md). -/
def Fld.MEM_STATUS_hot0 : Fld := ⟨.MEM_STATUS, 10, 1⟩
/-- MEM_STATUS.dbl1, RO (17_dram.md). -/
def Fld.MEM_STATUS_dbl1 : Fld := ⟨.MEM_STATUS, 9, 1⟩
/-- MEM_STATUS.dbl0, RO (17_dram.md). -/
def Fld.MEM_STATUS_dbl0 : Fld := ⟨.MEM_STATUS, 8, 1⟩
/-- MEM_STATUS.uncorrectable, W1C (17_dram.md). -/
def Fld.MEM_STATUS_uncorrectable : Fld := ⟨.MEM_STATUS, 5, 1⟩
/-- MEM_STATUS.watchdog, W1C (17_dram.md). -/
def Fld.MEM_STATUS_watchdog : Fld := ⟨.MEM_STATUS, 4, 1⟩
/-- MEM_STATUS.fenced, W1C (17_dram.md). -/
def Fld.MEM_STATUS_fenced : Fld := ⟨.MEM_STATUS, 3, 1⟩
/-- MEM_STATUS.set_changed, W1C (17_dram.md). -/
def Fld.MEM_STATUS_set_changed : Fld := ⟨.MEM_STATUS, 2, 1⟩
/-- MEM_STATUS.corrected, W1C (17_dram.md). -/
def Fld.MEM_STATUS_corrected : Fld := ⟨.MEM_STATUS, 1, 1⟩
/-- MEM_STATUS.hot_seen, W1C (17_dram.md). -/
def Fld.MEM_STATUS_hot_seen : Fld := ⟨.MEM_STATUS, 0, 1⟩
/-- MEM_CTL.wr_high, RW (17_dram.md). -/
def Fld.MEM_CTL_wr_high : Fld := ⟨.MEM_CTL, 24, 8⟩
/-- MEM_CTL.wr_low, RW (17_dram.md). -/
def Fld.MEM_CTL_wr_low : Fld := ⟨.MEM_CTL, 16, 8⟩
/-- MEM_CTL.nrr_k, RW (17_dram.md). -/
def Fld.MEM_CTL_nrr_k : Fld := ⟨.MEM_CTL, 8, 5⟩
/-- MEM_RT_CTL.panic_on, RW (17_dram.md). -/
def Fld.MEM_RT_CTL_panic_on : Fld := ⟨.MEM_RT_CTL, 32, 11⟩
/-- MEM_RT_CTL.panic_off, RW (17_dram.md). -/
def Fld.MEM_RT_CTL_panic_off : Fld := ⟨.MEM_RT_CTL, 0, 11⟩
/-- MEM_PC_SEL.pc, RW (17_dram.md). -/
def Fld.MEM_PC_SEL_pc : Fld := ⟨.MEM_PC_SEL, 0, 6⟩
/-- MEM_PC_INFO.flags, RC (17_dram.md). -/
def Fld.MEM_PC_INFO_flags : Fld := ⟨.MEM_PC_INFO, 32, 16⟩
/-- MEM_PC_INFO.state, RO (17_dram.md). -/
def Fld.MEM_PC_INFO_state : Fld := ⟨.MEM_PC_INFO, 22, 2⟩
/-- MEM_PC_INFO.serves, RO (17_dram.md). -/
def Fld.MEM_PC_INFO_serves : Fld := ⟨.MEM_PC_INFO, 16, 6⟩
/-- MEM_PC_INFO.set, RO (17_dram.md). -/
def Fld.MEM_PC_INFO_set : Fld := ⟨.MEM_PC_INFO, 10, 2⟩
/-- MEM_PC_INFO.postponed, RO (17_dram.md). -/
def Fld.MEM_PC_INFO_postponed : Fld := ⟨.MEM_PC_INFO, 4, 4⟩
/-- MEM_PC_INFO.fails, RO (17_dram.md). -/
def Fld.MEM_PC_INFO_fails : Fld := ⟨.MEM_PC_INFO, 0, 4⟩
/-- MEM_ERR_COUNT.uncorrectable, RC (17_dram.md). -/
def Fld.MEM_ERR_COUNT_uncorrectable : Fld := ⟨.MEM_ERR_COUNT, 48, 16⟩
/-- MEM_ERR_COUNT.column_corrected, RC (17_dram.md). -/
def Fld.MEM_ERR_COUNT_column_corrected : Fld := ⟨.MEM_ERR_COUNT, 32, 16⟩
/-- MEM_ERR_COUNT.reconstructed, RC (17_dram.md). -/
def Fld.MEM_ERR_COUNT_reconstructed : Fld := ⟨.MEM_ERR_COUNT, 16, 16⟩
/-- MEM_ERR_COUNT.watchdog, RC (17_dram.md). -/
def Fld.MEM_ERR_COUNT_watchdog : Fld := ⟨.MEM_ERR_COUNT, 0, 16⟩
/-- MEM_REBUILD.next_stripe, RO (17_dram.md). -/
def Fld.MEM_REBUILD_next_stripe : Fld := ⟨.MEM_REBUILD, 32, 24⟩
/-- MEM_REBUILD.active, RO (17_dram.md). -/
def Fld.MEM_REBUILD_active : Fld := ⟨.MEM_REBUILD, 7, 1⟩
/-- MEM_REBUILD.spare, RO (17_dram.md). -/
def Fld.MEM_REBUILD_spare : Fld := ⟨.MEM_REBUILD, 0, 6⟩
/-- PWR_STATE_CTL.idle_tides, RW (18_power_and_reset.md). -/
def Fld.PWR_STATE_CTL_idle_tides : Fld := ⟨.PWR_STATE_CTL, 16, 16⟩
/-- PWR_STATE_CTL.auto_idle, RW (18_power_and_reset.md). -/
def Fld.PWR_STATE_CTL_auto_idle : Fld := ⟨.PWR_STATE_CTL, 8, 1⟩
/-- PWR_STATE_CTL.target, RW (18_power_and_reset.md). -/
def Fld.PWR_STATE_CTL_target : Fld := ⟨.PWR_STATE_CTL, 1, 3⟩
/-- PWR_STATE_CTL.go, W1S (18_power_and_reset.md). -/
def Fld.PWR_STATE_CTL_go : Fld := ⟨.PWR_STATE_CTL, 0, 1⟩
/-- PWR_STATE_STATUS.result, RO (18_power_and_reset.md). -/
def Fld.PWR_STATE_STATUS_result : Fld := ⟨.PWR_STATE_STATUS, 20, 4⟩
/-- PWR_STATE_STATUS.wake_src, RO (18_power_and_reset.md). -/
def Fld.PWR_STATE_STATUS_wake_src : Fld := ⟨.PWR_STATE_STATUS, 16, 4⟩
/-- PWR_STATE_STATUS.leaving, RO (18_power_and_reset.md). -/
def Fld.PWR_STATE_STATUS_leaving : Fld := ⟨.PWR_STATE_STATUS, 11, 1⟩
/-- PWR_STATE_STATUS.entering, RO (18_power_and_reset.md). -/
def Fld.PWR_STATE_STATUS_entering : Fld := ⟨.PWR_STATE_STATUS, 10, 1⟩
/-- PWR_STATE_STATUS.woke, W1C (18_power_and_reset.md). -/
def Fld.PWR_STATE_STATUS_woke : Fld := ⟨.PWR_STATE_STATUS, 9, 1⟩
/-- PWR_STATE_STATUS.state, RO (18_power_and_reset.md). -/
def Fld.PWR_STATE_STATUS_state : Fld := ⟨.PWR_STATE_STATUS, 0, 3⟩
/-- PWR_WAKE_CTL.alarm_en, RW (18_power_and_reset.md). -/
def Fld.PWR_WAKE_CTL_alarm_en : Fld := ⟨.PWR_WAKE_CTL, 63, 1⟩
/-- PWR_WAKE_CTL.perst_en, RW (18_power_and_reset.md). -/
def Fld.PWR_WAKE_CTL_perst_en : Fld := ⟨.PWR_WAKE_CTL, 49, 1⟩
/-- PWR_WAKE_CTL.smbus_en, RW (18_power_and_reset.md). -/
def Fld.PWR_WAKE_CTL_smbus_en : Fld := ⟨.PWR_WAKE_CTL, 48, 1⟩
/-- PWR_WAKE_CTL.alarm, RW (18_power_and_reset.md). -/
def Fld.PWR_WAKE_CTL_alarm : Fld := ⟨.PWR_WAKE_CTL, 0, 48⟩
/-- PWR_RTC.count, RO (18_power_and_reset.md). -/
def Fld.PWR_RTC_count : Fld := ⟨.PWR_RTC, 0, 48⟩
/-- PWR_DOMAIN_STATUS.domains, RO (18_power_and_reset.md). -/
def Fld.PWR_DOMAIN_STATUS_domains : Fld := ⟨.PWR_DOMAIN_STATUS, 0, 60⟩
/-- PWR_DOMAIN_RESET.result, RO (18_power_and_reset.md). -/
def Fld.PWR_DOMAIN_RESET_result : Fld := ⟨.PWR_DOMAIN_RESET, 12, 4⟩
/-- PWR_DOMAIN_RESET.go, W1S (18_power_and_reset.md). -/
def Fld.PWR_DOMAIN_RESET_go : Fld := ⟨.PWR_DOMAIN_RESET, 8, 1⟩
/-- PWR_DOMAIN_RESET.domain, RW (18_power_and_reset.md). -/
def Fld.PWR_DOMAIN_RESET_domain : Fld := ⟨.PWR_DOMAIN_RESET, 0, 5⟩
/-- PWR_RESET_CAUSE.watchdog_restarts, RC (18_power_and_reset.md). -/
def Fld.PWR_RESET_CAUSE_watchdog_restarts : Fld := ⟨.PWR_RESET_CAUSE, 32, 16⟩
/-- PWR_RESET_CAUSE.watchdog, W1C (18_power_and_reset.md). -/
def Fld.PWR_RESET_CAUSE_watchdog : Fld := ⟨.PWR_RESET_CAUSE, 7, 1⟩
/-- PWR_RESET_CAUSE.domain, W1C (18_power_and_reset.md). -/
def Fld.PWR_RESET_CAUSE_domain : Fld := ⟨.PWR_RESET_CAUSE, 6, 1⟩
/-- PWR_RESET_CAUSE.reboot, W1C (18_power_and_reset.md). -/
def Fld.PWR_RESET_CAUSE_reboot : Fld := ⟨.PWR_RESET_CAUSE, 5, 1⟩
/-- PWR_RESET_CAUSE.tamper, W1C (18_power_and_reset.md). -/
def Fld.PWR_RESET_CAUSE_tamper : Fld := ⟨.PWR_RESET_CAUSE, 4, 1⟩
/-- PWR_RESET_CAUSE.hot_reset, W1C (18_power_and_reset.md). -/
def Fld.PWR_RESET_CAUSE_hot_reset : Fld := ⟨.PWR_RESET_CAUSE, 3, 1⟩
/-- PWR_RESET_CAUSE.perst, W1C (18_power_and_reset.md). -/
def Fld.PWR_RESET_CAUSE_perst : Fld := ⟨.PWR_RESET_CAUSE, 2, 1⟩
/-- PWR_RESET_CAUSE.off_guard, W1C (18_power_and_reset.md). -/
def Fld.PWR_RESET_CAUSE_off_guard : Fld := ⟨.PWR_RESET_CAUSE, 1, 1⟩
/-- PWR_RESET_CAUSE.power_on, W1C (18_power_and_reset.md). -/
def Fld.PWR_RESET_CAUSE_power_on : Fld := ⟨.PWR_RESET_CAUSE, 0, 1⟩
/-- FLT_STATUS.held, RO (19_faults_and_recovery.md). -/
def Fld.FLT_STATUS_held : Fld := ⟨.FLT_STATUS, 48, 13⟩
/-- FLT_STATUS.overflow, W1C (19_faults_and_recovery.md). -/
def Fld.FLT_STATUS_overflow : Fld := ⟨.FLT_STATUS, 8, 1⟩
/-- FLT_STATUS.pending, W1C (19_faults_and_recovery.md). -/
def Fld.FLT_STATUS_pending : Fld := ⟨.FLT_STATUS, 0, 5⟩
/-- FLT_CTL.dest_index, RW (19_faults_and_recovery.md). -/
def Fld.FLT_CTL_dest_index : Fld := ⟨.FLT_CTL, 32, 12⟩
/-- FLT_CTL.dest, RW (19_faults_and_recovery.md). -/
def Fld.FLT_CTL_dest : Fld := ⟨.FLT_CTL, 4, 2⟩
/-- FLT_CTL.en, RW (19_faults_and_recovery.md). -/
def Fld.FLT_CTL_en : Fld := ⟨.FLT_CTL, 0, 1⟩
/-- FLT_ROUTE.route, RW (19_faults_and_recovery.md). -/
def Fld.FLT_ROUTE_route : Fld := ⟨.FLT_ROUTE, 0, 40⟩
/-- FLT_WIN0.bytes, RO (19_faults_and_recovery.md). -/
def Fld.FLT_WIN0_bytes : Fld := ⟨.FLT_WIN0, 0, 64⟩
/-- FLT_WIN1.bytes, RO (19_faults_and_recovery.md). -/
def Fld.FLT_WIN1_bytes : Fld := ⟨.FLT_WIN1, 0, 64⟩
/-- FLT_WIN2.bytes, RO (19_faults_and_recovery.md). -/
def Fld.FLT_WIN2_bytes : Fld := ⟨.FLT_WIN2, 0, 64⟩
/-- FLT_WIN3.bytes, RO (19_faults_and_recovery.md). -/
def Fld.FLT_WIN3_bytes : Fld := ⟨.FLT_WIN3, 0, 64⟩
/-- FLT_COUNT0.class4, RC (19_faults_and_recovery.md). -/
def Fld.FLT_COUNT0_class4 : Fld := ⟨.FLT_COUNT0, 48, 12⟩
/-- FLT_COUNT0.class3, RC (19_faults_and_recovery.md). -/
def Fld.FLT_COUNT0_class3 : Fld := ⟨.FLT_COUNT0, 36, 12⟩
/-- FLT_COUNT0.class2, RC (19_faults_and_recovery.md). -/
def Fld.FLT_COUNT0_class2 : Fld := ⟨.FLT_COUNT0, 24, 12⟩
/-- FLT_COUNT0.class1, RC (19_faults_and_recovery.md). -/
def Fld.FLT_COUNT0_class1 : Fld := ⟨.FLT_COUNT0, 12, 12⟩
/-- FLT_COUNT0.class0, RC (19_faults_and_recovery.md). -/
def Fld.FLT_COUNT0_class0 : Fld := ⟨.FLT_COUNT0, 0, 12⟩
/-- FLT_COUNT1.edit_collide, RC (19_faults_and_recovery.md). -/
def Fld.FLT_COUNT1_edit_collide : Fld := ⟨.FLT_COUNT1, 32, 32⟩
/-- FLT_COUNT1.dropped, RC (19_faults_and_recovery.md). -/
def Fld.FLT_COUNT1_dropped : Fld := ⟨.FLT_COUNT1, 0, 32⟩
/-- TST_IDCODE.idcode, RO (21_registers.md). -/
def Fld.TST_IDCODE_idcode : Fld := ⟨.TST_IDCODE, 0, 32⟩
/-- TST_TAP_STATUS.ir, RO (21_registers.md). -/
def Fld.TST_TAP_STATUS_ir : Fld := ⟨.TST_TAP_STATUS, 8, 8⟩
/-- TST_TAP_STATUS.restricted, RO (21_registers.md). -/
def Fld.TST_TAP_STATUS_restricted : Fld := ⟨.TST_TAP_STATUS, 1, 1⟩
/-- TST_TAP_STATUS.tap_reset, W1C (21_registers.md). -/
def Fld.TST_TAP_STATUS_tap_reset : Fld := ⟨.TST_TAP_STATUS, 0, 1⟩

end Sys2Proof.Machine
end

