-- ==== Sys2Proof/Machine/State.lean ====
section
/-! DEFINITION. The state of the Q1280: every register, queue, buffer, counter, mode and pin that the spec gives the block, as
plain data, with the queue of the commands that wait, and the state right after power-on reset. Every number is in natural units
(strokes, tides, bytes); a register word, a record byte or a digit field is a bit vector. A sparse `Table` lists only what
differs from the stated default. -/
namespace Sys2Proof.Machine

/-- What stops the block. No command of the model raises a fault: every effect the spec gives is a next state. -/
inductive Fault where
  /-- An address outside the 24 GiB of usable DRAM (R42) or the 16 MiB of direct-index SRAM reached memory. Raised by no
  command: every address the spec's rules build lies inside its region. Safe. -/
  | addressOutside
deriving DecidableEq, Repr

/-- Why a command has no meaning here. -/
inductive Refusal where
  /-- The command has no meaning in this model yet: raised by `exec` for a row not modelled. Safe. -/
  | notModelled (mnemonic : String)
deriving DecidableEq, Repr

/-- An operation on the flash device (R84, R112), by its xSPI pins. -/
inductive FlashOp where
  /-- A pulse on XSPI_RESET_N. -/
  | resetPulse
  /-- SFDP read in the 1S-1S-1S protocol at 25 MHz. -/
  | readSfdp
  /-- The commands that enable 4-byte addressing and 8D-8D-8D. -/
  | enable (commands : Bytes)
  /-- The SFDP header read in 8D-8D-8D. -/
  | readSfdpHeader
  /-- The 4 KiB sector at an address erased. -/
  | erase (addr : Nat)
  /-- Bytes programmed from an address up. -/
  | program (addr : Nat) (data : Bytes)
  /-- Bytes read from an address up. -/
  | read (addr len : Nat)
deriving DecidableEq, Repr

/-- Something that leaves the device: a record or frame on a link, a write or read of host memory, an interrupt, the bytes a
host read returns, an answer on SMBus. The model logs them in order (notes/assumptions/1.md). -/
inductive Emit where
  /-- A record is offered to the transmitter of a logical quay (R457). -/
  | offered (q : Nat) (rec : Bytes)
  /-- A codeword of two frames is put on a port's lanes (R449): its number, its width code, its frames. -/
  | codeword (p : Port) (num width : Nat) (frame0 frame1 : Bytes)
  /-- A write to host memory. -/
  | hostWrite (addr : Nat) (data : Bytes)
  /-- A read of host memory that the device issues. -/
  | hostRead (addr len : Nat)
  /-- The message of an MSI-X vector of a function, and the stroke in which it is sent (R531, R605). -/
  | msix (fn vector stroke : Nat)
  /-- An AER message: Completion Timeout of a function. -/
  | aer (fn : Nat)
  /-- The bytes a register read or a host DMA read returns. -/
  | readData (fn : Nat) (data : Bytes)
  /-- An operation on the flash device. -/
  | flash (op : FlashOp)
  /-- The answer of the SMBus target. -/
  | smbus (data : Bytes)
deriving DecidableEq, Repr

/-- The grid of strokes and the tide counter (R46, R74 to R82). -/
structure Clock where
  /-- Tides since power-on reset, the model's own index of the grid: it never steps. -/
  grid : Nat
  /-- The stroke of the tide, 0 to 255. -/
  stroke : Nat
  /-- GLB_TIDE_COUNT, modulo 2^64. -/
  count : Nat
  /-- The count that the next boundary takes by a step (R80). -/
  stepTo : Option Nat
  /-- The core clock trim in force, in 1/16 ppm. -/
  trim : Int
  /-- The trim that the next boundary sets (R77). -/
  trimNext : Option Int
  /-- The phase error of the previous accepted edge, where R77 may use it. -/
  prevErr : Option Int
  /-- Consecutive edges with a phase error of at most 2 strokes (R78). -/
  goodEdges : Nat
  /-- The last accepted edge, as grid tide × 256 + stroke, moved back by the strokes spent away in Retain or Deep. -/
  lastEdge : Option Int
  /-- The grid tide at which lock_en last became 1. -/
  lockSince : Nat
deriving DecidableEq, Repr

/-- Latches of bytes 4 to 7 that one function holds (R75). -/
structure Latches where
  tide : Nat
  levelC : Nat
  levelP : Nat
  count : Nat
  rtc : Nat
deriving DecidableEq, Repr

/-- The fuses (R103, R105, R444). -/
structure Fuses where
  lifeCycle : Nat
  secFloor : Nat
  uid : Nat
  lcChanges : Nat
  /-- SHA-384 of the owner public key (R103, R444). -/
  ownerHash : Bytes
  /-- The fuse secret, the root of the key hierarchy. -/
  secret : Bytes
  /-- SHA-384 of the public key of the debug authority (R446). -/
  debugHash : Bytes
deriving DecidableEq, Repr

/-- The DEVICE record in force (R95). -/
structure DeviceRec where
  permitted : Nat
  bootMode : Nat
  certified : Bool
  cmdAuth : Bool
  debugLock : Bool
  subVendor : Nat
  subId : Nat
deriving DecidableEq, Repr

/-- Boot (R103 to R117): the stage, the copy being tried or in force, what was read of it and the background sections. -/
structure Boot where
  /-- 0 ROM, 1 Discovery, 2 Read A, 3 Read B, 4 Apply, 5 Serving, 14 Recovery, 15 halted. -/
  stage : Nat
  /-- The copy being tried or in force: 0 A, 1 B. -/
  copy : Nat
  errA : Nat
  errB : Nat
  /-- The header of the copy being read, once checks 1 to 8 have passed. -/
  header : Option HeaderRead
  /-- The CORE records of the accepted copy. -/
  core : List Bytes
  /-- Apply is complete; the next boundary opens the first dispatch tide. -/
  applied : Bool
  /-- This boot follows power-on reset (R608). -/
  powerOn : Bool
  /-- This boot is an exit from Off-Guard (R115 to R117). -/
  fromOffGuard : Bool
  /-- The copy in force at the last entry to Off-Guard, held in PD00 (R115). -/
  recordedCopy : Nat
  glyphDone : Bool
  seedDone : Bool
  /-- The glyph sets and insertions completed from the sections, and the record being taken, for SECTION_REJECTED. -/
  glyphSets : Nat
  glyphRecord : Nat
  seedInserted : Nat
  seedRecord : Nat
  /-- The stored bytes of the GLYPH or SEED section read so far (R91). -/
  sectionBytes : Bytes
  /-- The tables whose last SEED insertion has been read (R102). -/
  seedEnded : List Nat
  /-- The enable commands that discovery found, held in PD00 (R85). -/
  enableCommands : Bytes
  /-- The firmware of the copy in force has been started (R107). -/
  firmwareRuns : Bool
  /-- The last SEED record has verified; seed_done follows when its insertions complete. -/
  seedClosed : Bool
  device : DeviceRec
  scrollSeq : Nat
deriving DecidableEq, Repr

/-- An entry to a low-power state (R582): the target; the step reached, 0 accepted, 1 intake stopped and draining, 3 leaving the ring
and saving; the grid tide of its first boundary; the last grid tide in which a record was accepted; the bulk fold is made (R584). -/
structure PowerEntry where
  target : Nat
  step : Nat
  start : Nat
  lastRecord : Nat
  folded : Bool
deriving DecidableEq, Repr

/-- A domain reset that runs or waits for its boundary (R593): its first grid tide, and the accepted POWER command that asked. -/
structure DomainReset where
  domain : Nat
  started : Bool
  start : Nat
  command : Option Nat
deriving DecidableEq, Repr

/-- Power states, the sequencer and domain resets (R575 to R594). -/
structure Power where
  /-- 0 Run, 1 Idle, 2 Doze, 3 Retain, 4 Deep, 5 Off-Guard. -/
  state : Nat
  entry : Option PowerEntry
  /-- An exit runs, with its wake source (R588). -/
  exit : Option Nat
  /-- A wake event held during entry (R587). -/
  heldWake : Option Nat
  /-- A request for Idle waits for the quiet conditions from a grid tide on (R578): that tide, and the POWER command that asked. -/
  idleAt : Option (Nat × Option Nat)
  /-- Consecutive quiet tides, and whether this tide has a record accepted or work that R578 names. -/
  quietTides : Nat
  accepted : Bool
  /-- The stroke from which the gated domains are clocked again after an Idle wake (R579), as grid × 256 + stroke. -/
  clockedAt : Nat
  domainReset : Option DomainReset
  mainEn : Bool
  railsValid : Bool
  railFails : Nat
  halted : Bool
  vddAon : Bool
  rtc : Nat
  /-- The part of an RTC unit that the tides since have added, in 1/5,859,375 (notes/assumptions/70.md). -/
  rtcPart : Nat
  /-- The tide count and RTC count recorded at entry (R82). -/
  tideRecord : Nat
  rtcRecord : Nat
  /-- A tamper hold is in force (R443). -/
  tamperHold : Bool
  /-- Wake source of the last wake. -/
  wakeSrc : Nat
  result : Nat
  resetResult : Nat
  /-- PCIe domains are held in reset (R592, PERST_N). -/
  pcieReset : Bool
deriving DecidableEq, Repr

/-- A record of the fault log: the stroke of its posting, the register block that posted it, its class (R601), its 32 bytes (R600). -/
structure FaultRec where
  stamp : Nat
  block : Nat
  cls : Nat
  bytes : Bytes
deriving DecidableEq, Repr

/-- The fault log (R600 to R604): held records, oldest first; the record last freed through the window, which an empty window shows
(R323, R604); counts carried in PD00 (R603). -/
structure FaultLog where
  held : List FaultRec
  lastTaken : Bytes
  carried : Option (List Nat × Nat)
deriving DecidableEq, Repr

/-- Health of a physical slot (R607). -/
inductive Health where
  | serving | free | testing | failed
deriving DecidableEq, Repr

/-- A slot's health and the outcome of its last test (R607, R611). -/
structure SlotState where
  health : Health
  failCount : Nat
  failLine : Nat
deriving DecidableEq, Repr

/-- A running self-test (R612): the slot and the operations left; `started` from the boundary after acceptance. -/
structure Bist where
  slot : Nat
  opsLeft : Nat
  started : Bool
  /-- The test has ended: the slot becomes FREE or FAILED at the boundary. -/
  ended : Option (Nat × Nat)
deriving DecidableEq, Repr

/-- Test and live service (R607 to R619), the TAP and the die sensors (R641). -/
structure Service where
  /-- Slots that differ from the default: slots 0 to 15 of a block SERVING their own bank, slot 16 FREE. -/
  slots : Table SlotState
  bist : Option Bist
  bistQueue : List Nat
  unavailable : List Nat
  tapIr : Nat
  dieTemps : List Int
  dieHot : Bool
deriving DecidableEq, Repr

/-- The output pins whose cells lie in PD00 (R632), and the levels that they take in the stroke after `at_` (R325, R471, R606). -/
structure Pins where
  /-- QXOFF0 to QXOFF11, bit n for physical quay n. -/
  qxoff : Nat
  mnfXoff : Bool
  /-- ALERT_N is driven low. -/
  alert : Bool
  lgHoldE : Bool
  lgHoldW : Bool
  nextQxoff : Nat
  nextMnf : Bool
  nextAlert : Bool
  at_ : Nat
deriving DecidableEq, Repr

/-- A valid grant slot of a berth record (R397). -/
structure Grant where
  slot : Nat
  tid : Nat
  search : Bool
  edit : Bool
  counterRead : Bool
deriving DecidableEq, Repr

/-- A berth record (R397). -/
structure BerthRec where
  ceiling : Nat
  shaperEn : Bool
  quota : Nat
  cir : Nat
  cbs : Nat
  pir : Nat
  pbs : Nat
  glyphMask : Nat
  grants : List Grant
deriving DecidableEq, Repr

/-- The reset record of a berth (R396). -/
def BerthRec.reset : BerthRec := ⟨0, false, 0, 0, 0, 0, 0, 0, []⟩

/-- A berth: its record in force, the shaper levels in 1/65,536 lookup (R410), and a forgive that waits for its boundary. -/
structure Berth where
  record : BerthRec
  levelC : Int
  levelP : Int
  forgivePending : Bool
deriving DecidableEq, Repr

/-- The berth right after boot (R396). -/
def Berth.reset : Berth := ⟨BerthRec.reset, 0, 0, false⟩

/-- A MASTER record (R428). A key_id of 65,535 is none. -/
structure MasterRec where
  first : Nat
  count : Nat
  keyId : Nat
  user : Bool
  supervisor : Bool
  maint : Bool
  thawMs : Nat
deriving DecidableEq, Repr

/-- A freeze in force (R437, R440): cause, the tide F of its first stroke, the auto-thaw boundary as grid tide. -/
structure Freeze where
  cause : Nat
  since : Nat
  thawAt : Option Nat
  /-- GLB_TIDE_COUNT of the auto-thaw boundary. -/
  thawCount : Nat
  /-- The stroke after which the freeze holds, as grid × 256 + stroke. -/
  fromStroke : Nat
  /-- A thaw that waits for its boundary: the grid tide it opens, the stroke of acceptance, the info of THAWED (R440, R442). -/
  thawAccepted : Option (Nat × Nat × Nat)
  /-- A violation that R441 counts as a new freeze, with its cause and cookie. -/
  again : Option (Nat × Nat)
deriving DecidableEq, Repr

/-- A master: its record where it has one, the last verified cookie (R434), its freeze, the commands dropped and the
violations counted while frozen are fields of SEC_FREEZE_INFO in the register store. -/
structure Master where
  record : Option MasterRec
  lastCookie : Nat
  freeze : Option Freeze
  /-- A stream master's thaw time, that of the master that opened the stream (R430). -/
  streamThawMs : Nat
deriving DecidableEq, Repr

/-- A master with no record (R430). -/
def Master.reset : Master := ⟨none, 0, none, 1000⟩

/-- Security (R418 to R446): the contents of the seal store (R421), tamper and debug. The DRBG stands as `Config.random`
(notes/assumptions/5.md). -/
structure Security where
  /-- The key-encryption key, the transport key and the DRBG state are loaded (ROM stage). -/
  rootKeys : Bool
  /-- The key-encryption key, 32 bytes. -/
  kek : Bytes
  /-- The transport private key. -/
  transport : Nat
  /-- The keys of KEYS, unwrapped. -/
  keys : List KeyEntry
  /-- The session key of each master that has one (R432), 32 bytes. -/
  sessions : Table Bytes
  bootNonce : Nat
  selfTestOk : Bool
  drbgFailed : Bool
  debugOpen : Bool
  tamperEvents : Nat
  tamperCause : Nat
  /-- A KEY_WRAP runs: its command's source and completion key. -/
  keyWrap : Option Nat
  /-- An LC_CHANGE waits for its boundary. -/
  lcPending : Bool
deriving DecidableEq, Repr

/-- A table definition (R158). -/
structure TableDef where
  tid : Nat
  cls : Nat
  width : Nat
  adSize : Nat
  evict : Nat
  hot : Nat
  seedGate : Bool
  ringSpan : Bool
  learn : Bool
  ageEn : Bool
  autoRemove : Bool
  zeroMiss : Bool
  owner : Nat
  ageLimit : Nat
  indexBits : Nat
  quota : Nat
  depth : Nat
deriving DecidableEq, Repr

/-- A table's state (PIL_TABLE_INFO.state): awaiting its seed gate, live, or being freed after a flush or a delete. -/
inductive TableState where
  | gated | live | flushed | deleted
deriving DecidableEq, Repr

/-- A chart version (R249): selector positions, 2^b buckets of logical banks, the shared banks, and the tide count at the
boundary where it took effect. -/
structure Chart where
  selector : List Nat
  buckets : List (List Nat)
  shared : List Nat
  version : Nat
  /-- Each listed bank stands for its pair (R130, R252): the mirror banks are named. -/
  mirror : Bool
deriving DecidableEq, Repr

/-- A resequencing pass (R143): the counter before it, and the entries still to renumber, latest first, with their sequences. -/
structure Reseq where
  left : List (Nat × Nat)
deriving DecidableEq, Repr

/-- A table: its definition, its state, the insertion-sequence counter (R139), the occupied units with their charges (R406), the
chart in force and the next version (R251), the resequencing and relabelling passes, and direct-index segments (R164). -/
structure TableRec where
  df : TableDef
  state : TableState
  counter : Nat
  units : Nat
  chart : Chart
  chartNext : Option Chart
  reseq : Option Reseq
  /-- Labels that a whole-table renumbering has still to write: logical entry number and label (R242). -/
  relabel : List (Nat × Nat)
  segments : List Nat
  /-- Chart work that runs (R254, R255): 0 none, 1 a split, 2 a merge. -/
  work : Nat
  /-- Pairs of sibling buckets that a merge has united, by the lower bucket (R255). -/
  merged : List Nat
  /-- The chart as the copy of the other parity holds it (R36, R252). -/
  chartPrev : Chart
  /-- The grid tide from which an insertion that waited for a renumbering is accepted (R242). -/
  relabelFrom : Nat
deriving DecidableEq, Repr

/-- The state of a row tag (R226). -/
inductive RowState where
  | empty | armed | live | retiring
deriving DecidableEq, Repr

/-- A row tag (R226). -/
structure Tag where
  state : RowState
  ptide : Bool
  tnum : Nat
  gen : Nat
  len : Nat
  keyHi : Nat
  keyLo : Nat
deriving DecidableEq, Repr

/-- The value and mask of one array unit (R144). -/
structure UnitBits where
  value : Unit80
  mask : Unit80
deriving DecidableEq, Repr

/-- The owner of a span (R232). -/
structure SpanOwner where
  tid : Nat
  width : Nat
deriving DecidableEq, Repr

/-- An entry as the pilot holds it: the generation and table of its logical entry number, its home bank and row, what its row
carries, and whether it is being placed, live or retired and waiting for its boundary. -/
inductive EntryState where
  | placing | live | retired
deriving DecidableEq, Repr

/-- An entry (R152, R226, R241). -/
structure Entry where
  gen : Nat
  tid : Nat
  width : Nat
  state : EntryState
  bank : Nat
  row : Nat
  keyHi : Nat
  keyLo : Nat
  /-- The insertion sequence (R139), which class L rows do not carry. -/
  seq : Nat
  value : Digits
  mask : Digits
  /-- The grid tide of the boundary from which searches find it. -/
  inForce : Nat
  /-- Its units count against the quotas; those of a victim do not from its insertion's acceptance (R248). -/
  charged : Bool
deriving DecidableEq, Repr

/-- A command in a FIFO (R60, R173): its record, its master, the stroke from which it is eligible, and the tide in which it
reached the head. -/
structure Cmd where
  record : Bytes
  master : Nat
  eligible : Nat
  headTide : Option Nat
  /-- The COMPLETE ring of its reply, where a host ring or a window carried it (State.ticket). -/
  reply : Nat
  /-- Its delimited length differs from its computed length (R455). -/
  badLength : Bool
deriving DecidableEq, Repr

/-- An accepted command that has not posted its completion (R61, R596). -/
structure Accepted where
  id : Nat
  src : Source
  record : Bytes
  master : Nat
  reply : Nat
  tide : Nat
  /-- The tide in whose write phase it is applied. -/
  applyTide : Nat
  applied : Bool
  /-- The completion, once known: result, handle, victim, sequence and payload. -/
  result : Option (Nat × Nat × Nat × Nat × Bytes)
  /-- The boundary at which the completion is posted: before this grid tide's stroke 0. -/
  postAt : Option Nat
  /-- The label of the class L entry that a READ_ENTRY has read (R182). -/
  label : Nat
deriving DecidableEq, Repr

/-- An insertion in flight (R235 to R248). -/
structure Insertion where
  id : Nat
  tid : Nat
  len : Nat
  gen : Nat
  tide : Nat
  bound : Nat
  keyHi : Nat
  keyLo : Nat
  value : Digits
  mask : Digits
  ad : Bytes
  plan : Plan
  nextStep : Nat
  stepTide : Nat
  victim : Option Nat
  /-- The victim's handle, and its hit count once its number is freed (R316). -/
  victimHandle : Nat
  victimCount : Nat
  /-- The grid tide of the last write, once made. -/
  lastWrite : Option Nat
  /-- A rollback with its result code: the written row is retired in the next write phase. -/
  rollback : Option Nat
  /-- Entries whose new labels are still to be written (R242), in the order of writing. -/
  relabels : List Nat
  /-- The rollback has been written: the flight ends at the next boundary. -/
  rolledBack : Bool
  /-- The victim's row has been retired by this insertion (R248, R316). -/
  evicted : Bool
deriving DecidableEq, Repr

/-- A hot-store line (R258, R260). -/
structure HotLine where
  len : Nat
  pinned : Bool
  warmth : Nat
  data : Bytes
  /-- The grid tide from which the line may be rewritten, while a demotion runs. -/
  freeFrom : Option Nat
deriving DecidableEq, Repr

/-- A hot-store tag of a logical entry number (R258, R261): the way, the grid tide from which it is valid, and from which it is
cleared. -/
structure HotTag where
  way : Nat
  validFrom : Nat
  clearFrom : Option Nat
deriving DecidableEq, Repr

/-- An associated-data change that waits for strokes 87 to 95 of its tide (R262). -/
structure AdChange where
  len : Nat
  data : Bytes
  tide : Nat
deriving DecidableEq, Repr

/-- The hot store (R258 to R263). -/
structure HotStore where
  lines : Table HotLine
  tags : Table HotTag
  filter : Table Nat
  pinWait : List Nat
  adChanges : List AdChange
  decayStart : Nat
  /-- The stroke of the last data write of R262, as grid × 256 + stroke, and the writes made in it. -/
  adAt : Nat
  adNow : Nat
deriving DecidableEq, Repr

/-- A bank drain or return that runs (R264, R265): rows copied so far, and whether the switch is latched. -/
structure Drain where
  bank : Nat
  op : Nat
  target : Nat
  total : Nat
  copied : Nat
  startTide : Nat
  latched : Bool
deriving DecidableEq, Repr

/-- The arrays and the pilot's view of them (R16 to R22, R226 to R248). Keys: a slot's unit or row is slot × 32,768 + index; a
span is bank × 512 + span; a bank served by another slot than its own is listed in `served`. -/
structure Arrays where
  units : Table UnitBits
  tags : Table Tag
  spans : Table SpanOwner
  served : Table Nat
  drain : Option Drain
  drainResult : Nat
  /-- Banks of a reset quadrant whose rows are to be rewritten, and the rows already rewritten, as bank × 32,768 + row (R290). -/
  rewriteBanks : List Nat
  rewritten : List Nat
  /-- Mirror rows still to free after M3, as bank × 32,768 + row (R132), and to build before it (R130). -/
  mirrorFree : List Nat
  mirrorBuild : List Nat
  /-- The grid tide for which write-phase operations are counted, and those used per bank by command writes and by the rest of the
  pilot's work (R55, R238). -/
  opsAt : Nat
  cmdOps : Table Nat
  planOps : Table Nat
  /-- The port strokes taken in that tide (R35, R55): stroke × 1,024 + slot, for each operation of a slot's port. -/
  ports : List Nat
  respaceBusy : Bool
deriving DecidableEq, Repr

/-- Logical entry numbers (R154 to R156, R282): the entries, generations, the free list with the grid tide of freeing, the lowest
number never used, numbers withheld, and numbers whose metadata line is pending with the pass of the failure (R280). -/
structure Numbers where
  entries : Table Entry
  gens : Table Nat
  fresh : Nat
  freed : List (Nat × Nat)
  withheld : List Nat
  pendingMeta : Table Nat
  /-- Numbers of a deleted or flushed table still to free: tid, logical entry number (R162). -/
  freeing : List (Nat × Nat)
deriving DecidableEq, Repr

/-- A step of an insertion as the pilot journal holds it (R246): the insertion, the bank, the moves, and whether it writes the new
entry. -/
structure JournalStep where
  flight : Nat
  bank : Nat
  moves : List Move
  last : Bool
deriving DecidableEq, Repr

/-- Commands and insertions (R60, R235, R595). -/
structure Commands where
  /-- The FIFO of each source, by source key. -/
  fifos : Table (List Cmd)
  accepted : List Accepted
  nextId : Nat
  flights : List Insertion
  /-- Commands taken in this tide and in this stroke (R60), the stroke they count for, and the sources served in it. -/
  taken : Nat
  takenStroke : Nat
  takenAt : Nat
  takenFrom : List Nat
  droppedFrom : List Nat
  /-- Edits applied in this write phase: source key, and the object they name (R599). -/
  edits : List (Nat × Nat)
  /-- The pilot journal (R42, R246): the steps of the insertions in flight, oldest first. -/
  journal : List JournalStep
deriving DecidableEq, Repr

/-- A scrub read whose shadow reads are outstanding (R273, R274). -/
structure ScrubRead where
  bank : Nat
  line : Nat
  verify : Bool
  dirty : Bool
deriving DecidableEq, Repr

/-- A line in the priority queue (R275). -/
structure PrioLine where
  bank : Nat
  line : Nat
  verify : Bool
deriving DecidableEq, Repr

/-- A repair that waits for a write phase (R278). -/
inductive RepairKind where
  /-- The unit is rewritten from the shadow. -/
  | unitFix (unit : Nat)
  /-- The unit is rewritten from the copy in the partner bank (R288). -/
  | unitCopy (unit : Nat)
  /-- The unit, and nothing else, is set to canonical zeros. -/
  | unitZero (unit : Nat)
  /-- The tag of a row is rewritten from the metadata shadow. -/
  | tagFix (row : Nat)
  /-- The row is retired. -/
  | retire (row : Nat)
  /-- The row is written EMPTY. -/
  | emptyRow (row : Nat)
  /-- The row, which no metadata line owns, is retired. -/
  | orphan (row : Nat)
  /-- The row is restored from the shadows as an ARMED row; the tide count of the tag error. -/
  | restore (row : Nat) (len : Nat) (tide : Nat)
deriving DecidableEq, Repr

/-- A queued repair. -/
structure Repair where
  bank : Nat
  kind : RepairKind
deriving DecidableEq, Repr

/-- A search of the metadata shadow for a lost tag (R283). -/
structure TagSearch where
  bank : Nat
  row : Nat
  tide : Nat
  grid : Nat
deriving DecidableEq, Repr

/-- The scrubber (R266 to R292). -/
structure Scrub where
  position : Nat
  passes : Nat
  prio : List PrioLine
  reads : List ScrubRead
  /-- The stroke of the last scrub reads, as grid × 256 + stroke. -/
  readAt : Option Nat
  /-- Array-shadow stripes being rebuilt (R279). -/
  stripes : List Nat
  /-- Lines that the rebuilding of stripes has still to read as priority reads (R279, R288): stripe, bank, line. -/
  stripeReads : List (Nat × Nat × Nat)
  /-- Pending numbers that a passing tag has named since their failure (R280). -/
  metaSeen : List Nat
  repairs : List Repair
  /-- Outstanding shadow writes per line, by bank × 8,192 + line (R271). -/
  unsettled : Table Nat
  repairsPass : Table Nat
  repairsTotal : Table Nat
  /-- Lines not repaired again in this pass (R284), and the items under verification: bank × 8,192 + line, item. -/
  barred : List Nat
  verifying : List (Nat × Nat)
  tagSearches : List TagSearch
deriving DecidableEq, Repr

/-- A learn-filter entry (R300): table and key, the first source and tide count, the contender. -/
structure FilterEntry where
  tid : Nat
  key : Digits
  source : Nat
  tide : Nat
  contender : Option Nat
deriving DecidableEq, Repr

/-- A manifest record in the posting buffer (R319): its slots of 32 bytes, the grid tide before which it is not committed, and the
logical entry number whose count the next boundary writes into it (R313). -/
structure ManifestRec where
  slots : List Bytes
  holdUntil : Nat
  fill : Option Nat
  /-- The stroke of its admission, as grid × 256 + stroke. -/
  at_ : Nat
deriving DecidableEq, Repr

/-- A pending GAP (R321): records and slots dropped, the tide counts of the first and last drop. -/
structure Gap where
  records : Nat
  slots : Nat
  first : Nat
  last : Nat
  /-- The stroke of the last drop, as grid × 256 + stroke. -/
  at_ : Nat
deriving DecidableEq, Repr

/-- The manifest queue (R318 to R325). The pointers count slots without end: slot index and wrap bit are the value modulo
65,536. -/
structure Manifest where
  release : Nat
  mark : Nat
  read : Nat
  commit : Nat
  ring : Table Bytes
  posting : List ManifestRec
  /-- Slots of the first posted record already committed. -/
  done : Nat
  gap : Option Gap
  /-- The slot last taken through the window (R323). -/
  lastTaken : Bytes
  /-- Slots of the record being delivered (R324). -/
  delivering : Nat
  /-- The stroke of the last commit, as grid × 256 + stroke. -/
  commitAt : Option Nat
deriving DecidableEq, Repr

/-- What the first sweep pass after Retain or Deep needs (R310): the epoch at entry, the boundaries passed, the sweep position and
the references at entry. -/
structure AwayPass where
  e0 : Nat
  n : Nat
  position : Nat
  er : Nat
  ep : Nat
deriving DecidableEq, Repr

/-- The learn filter, the device epoch and the aging sweep (R300 to R311). -/
structure Learning where
  filter : List FilterEntry
  /-- The window in force (R304). -/
  window : Nat
  epoch : Nat
  /-- The exponent k in force (R305). -/
  k : Nat
  position : Nat
  er : Nat
  ep : Nat
  /-- A pass has ended or none has run: one starts at the next boundary. -/
  passDue : Bool
  away : Option AwayPass
  /-- That pass runs. -/
  awayRuns : Bool
  /-- Entries due for auto-removal in the stroke that follows (R58), and the grid tide in whose slack a removal stalled. -/
  removals : List Nat
  stalledAt : Option Nat
  /-- Entries reported behind a removal that is due: where it stalls, they are examined no second time (R58, R307). -/
  reported : List Nat
  fresh : List Nat
  /-- The stroke of the last examination, as grid × 256 + stroke. -/
  examinedAt : Option Nat
  /-- The epoch advance, filter expiry and pass start of this boundary have been made: grid tide. -/
  advancedAt : Nat
deriving DecidableEq, Repr

/-- A stamp and an increment that fall due (R31, R202): the handle's number and generation, and the stroke. -/
structure HitUpdate where
  len : Nat
  gen : Nat
  due : Nat
deriving DecidableEq, Repr

/-- A candidate that a bank returns, or a winner (R199, R201): where its row lies, its number and generation, its keys. -/
structure Cand where
  bank : Nat
  row : Nat
  len : Nat
  gen : Nat
  keyHi : Nat
  keyLo : Nat
deriving DecidableEq, Repr

/-- A search request that waits for dispatch (R67): its source, master, last-bit stroke, class after the ceiling, and record. -/
structure Request where
  src : Source
  master : Nat
  s0 : Nat
  /-- The tide count of the tide of `s0`. -/
  tide : Nat
  cls : Nat
  record : Bytes
  /-- The COMPLETE ring of its reply, where a host ring or a window carried it (State.ticket). -/
  reply : Nat
  /-- Its delimited length differs from its computed length (R455), or its window does not own its berth (R535). -/
  badLength : Bool
  wrongBerth : Bool
deriving DecidableEq, Repr

/-- One lookup of a dispatched search: its descriptor (R185) and how far it has come. -/
structure Look where
  desc : Nat
  /-- The status once decided (R223). -/
  status : Option Nat
  /-- The definition of the table looked up, once resolved. -/
  df : Option TableDef
  key : Digits
  index : Nat
  banks : List Nat
  winner : Option Cand
  /-- The winner of the mirror quadrants in M3 (R212). -/
  mirror : Option Cand
  disagree : Bool
  /-- The data in force for the lookup (R205), fixed when its winner is known. -/
  data : Bytes
  /-- A real-time read of the data is outstanding (R203). -/
  reading : Bool
  /-- The tide whose entries, charts and grants the lookup sees (R189, R210). -/
  view : Nat
  /-- A chained lookup whose front has passed its checks (R211). -/
  frontDone : Bool
  /-- The table identifier, once the slot or the chain word is resolved; 0 before. -/
  tid : Nat
  /-- The outcome fixed ahead of its stage: of a direct-index read (R207), of a hot-store read (R203), or of the checks of a chained lookup in the tide of
  stroke d + 256 (R210, R211). -/
  pre : Option Nat
  /-- Both copies are looked up (R212): the mode at dispatch is M3 and the chart read names the mirror banks. -/
  m3 : Bool
deriving DecidableEq, Repr

/-- A search in flight, from its dispatch or its BUSY to its release (R25, R218). -/
structure Search where
  id : Nat
  req : Request
  /-- The dispatch stroke, as grid × 256 + stroke; the search was not dispatched (BUSY) where it is none. -/
  d : Option Nat
  pipe : Nat
  /-- The mode that fixes its latency (R127). -/
  mode : Nat
  /-- Strokes added for ring hops (R216), and whether it is a ring search. -/
  extra : Nat
  ring : Bool
  /-- Bits [7:0] of the ring epoch in force at dispatch (R490). -/
  epoch : Nat
  /-- Its activations are split between two strokes (R71). -/
  split : Bool
  /-- The activations that a split search makes in stroke d + 256, and whether they have been made (R71). -/
  first : Nat
  half : Bool
  /-- A check that ended the whole search (R192). -/
  status : Option Nat
  looks : List Look
  activated : Bool
  resolved : Bool
  chainActivated : Bool
  chainResolved : Bool
  assembled : Option Bytes
deriving DecidableEq, Repr

/-- The search core (R184 to R225). -/
structure SearchCore where
  waiting : List Request
  /-- The round-robin pointer of each class (R68). -/
  pointers : List Nat
  flights : List Search
  nextId : Nat
  /-- Activations charged per stroke (R29, R190), by grid × 256 + stroke. -/
  charges : Table Nat
  /-- Strokes that R71 has closed to further dispatch. -/
  closed : List Nat
  /-- The last stroke dispatched. -/
  doneAt : Option Nat
  /-- Associated data that a change replaced: number, the grid tide from which the new data is in force, the old bytes (R205). -/
  adOld : List (Nat × Nat × Bytes)
deriving DecidableEq, Repr

/-- The operating mode (R118 to R134). -/
structure ModeState where
  mode : Nat
  /-- The target of the pending change, when one is pending. -/
  pending : Option Nat
  /-- The preparation of the pending change still runs (R125). -/
  preparing : Bool
  /-- The grid tide that is the turn tide of the pending change (R65). -/
  turnTide : Option Nat
  /-- The SET_MODE that requested the change: its accepted-command identifier. -/
  command : Option Nat
  /-- The mode before the last change, and the grid tide at whose first boundary that change took effect. -/
  before : Nat
  since : Nat
deriving DecidableEq, Repr

/-- State codes of a glyph slot (SCB_SET_INFO.state). -/
inductive GlyphState where
  | empty | loading | admitted | reloading | failed
deriving DecidableEq, Repr

/-- A glyph slot (R332 to R343). -/
structure Glyph where
  state : GlyphState
  imageLen : Nat
  hotBytes : Nat
  patterns : Nat
  admitErr : Nat
  partLog2 : Nat
  half : Nat
  /-- The copy still runs: the image has not come to admission. -/
  copying : Bool
  /-- The digest of the command body, for check 6 of R333, and the accepted command that loads the slot. -/
  expected : Option Bytes
  command : Option Nat
  /-- The load was made through SCB_GLYPH_CTL. -/
  byRegister : Bool
  /-- The stroke at which the load of its hot image into its partition ends (R337), as grid × 256 + stroke. -/
  loadEnd : Nat
deriving DecidableEq, Repr

/-- A slot that holds no set. -/
def Glyph.reset : Glyph := ⟨.empty, 0, 0, 0, 0, 0, 0, false, none, none, false, 0⟩

/-- An open stream (R344 to R349): its handle's generation, its set, the grid tide from which its chunks are assigned, and the
half of its set. The rest of its state is the 64 bytes of R344 in DRAM. -/
structure Stream where
  gen : Nat
  set : Nat
  fromTide : Nat
deriving DecidableEq, Repr

/-- A queued chunk (R353). -/
structure Chunk where
  src : Source
  s0 : Nat
  cls : Nat
  set : Nat
  stream : Nat
  record : Bytes
  /-- The COMPLETE ring of its carrier, where a host ring or a window carried it (State.ticket). -/
  reply : Nat
  /-- Its credit has been returned (R465): it was assigned once and its state read was late. -/
  credited : Bool
deriving DecidableEq, Repr

/-- How an assigned chunk ended (R363): its chunk status, its cause, the matches reported (end offset, pattern, at close) and the
matches found; the tide count of its tide, and the destination and ack_all of its stream then. -/
structure ChunkEnd where
  status : Nat
  cause : Nat
  reported : List (Nat × Nat × Bool)
  found : Nat
  tide : Nat
  dest : Nat
  index : Nat
  ackAll : Bool
  /-- The stream state that stroke 255 writes back (R359), where the chunk has run. -/
  after : Option Bytes
deriving DecidableEq, Repr

/-- A chunk assigned to a scribe (R355): the grid tide in which it runs, whether it is a continuation, whether its state read is
outstanding or failed its check, and its end. -/
structure Assigned where
  chunk : Chunk
  runTide : Nat
  continuation : Bool
  reading : Bool
  badState : Bool
  ended : Option ChunkEnd
deriving DecidableEq, Repr

/-- A scribe (R366 to R368): online, the grid tide from which it may be assigned, the boundary at which it goes offline, and its
chunks, that of the running tide first. -/
structure Scribe where
  online : Bool
  assignFrom : Nat
  offlineAt : Option Nat
  onlineAt : Option Nat
  work : List Assigned
deriving DecidableEq, Repr

/-- A scribe at reset: online. -/
def Scribe.reset : Scribe := ⟨true, 0, none, none, []⟩

/-- A record that waits in a half's match buffer (R365): the half, its destination (1 a host ring, 2 a logical quay) and index, its
bytes, and the ring entries reserved for it, where it is the reply to a host's chunk (R523). -/
structure Report where
  half : Nat
  dest : Nat
  index : Nat
  bytes : Bytes
  reserved : Nat
deriving DecidableEq, Repr

/-- The scribes (R328 to R369). -/
structure Scribes where
  glyphs : Table Glyph
  streams : Table Stream
  gens : Table Nat
  fresh : Nat
  freed : List Nat
  queue : List Chunk
  scribes : Table Scribe
  /-- The set after which the round-robin of R355 goes on, per half and class. -/
  lastSet : Table Nat
  reports : List Report
  /-- The grid tide for which the scheduler last ran. -/
  assignedAt : Option Nat
deriving DecidableEq, Repr

/-- A pending-fold place (R370): ADD an amount, or SET a value. -/
structure FoldPlace where
  len : Nat
  isSet : Bool
  amount : Nat
  /-- A wide-counter read of the place is outstanding, with the bytes as they stood when it was issued. -/
  wide : Option Nat
deriving DecidableEq, Repr

/-- A host write of a count that waits for a place (R373). -/
structure HeldWrite where
  len : Nat
  value : Nat
  /-- The accepted COUNTER_WRITE it belongs to, when a command made it. -/
  command : Option Nat
deriving DecidableEq, Repr

/-- A coherent count read that waits for its wide-counter read (R374, R377): the reader's function, or the accepted command. -/
structure CountRead where
  len : Nat
  partialSum : Nat
  wide : Nat
  /-- A host write of the entry waits for a place, and the read waits behind it (R373). -/
  behindWrite : Bool
  fn : Nat
  byte : Nat
  size : Nat
deriving DecidableEq, Repr

/-- Hit counters, folds and coherent reads (R370 to R377). -/
structure Counters where
  narrow : Table Nat
  stamps : Table Nat
  /-- Updates that fell due and are not yet applied (R31). -/
  updates : List HitUpdate
  foldQueue : List Nat
  places : List FoldPlace
  held : List HeldWrite
  reads : List CountRead
  /-- The stroke of the last fold, as grid × 256 + stroke. -/
  foldAt : Option Nat
  /-- The count last latched for the physical function by TEL_CNT_READ. -/
  latched : Nat
  /-- The tide count at the boundary of the last epoch advance (R376). -/
  epochTide : Nat
  /-- The stroke of the last applied update, as grid × 256 + stroke, and the updates taken in it (R34): the
  entries incremented, 2^24 for one discarded. -/
  appliedAt : Nat
  appliedNow : List Nat
deriving DecidableEq, Repr

/-- A row that a trace activation returned (R381). -/
structure TraceRow where
  handle : Nat
  keyHi : Nat
  keyLo : Nat
  bank : Nat
  row : Nat
deriving DecidableEq, Repr

/-- A held trace (R378 to R384). -/
structure Trace where
  id : Nat
  tid : Nat
  key : Digits
  mask : Digits
  /-- The banks still to visit, taken at the first activation. -/
  banks : Option (List Nat)
  visited : List Nat
  first : Nat
  last : Nat
  rows : List TraceRow
  more : Bool
  unstable : Bool
  version : Nat
deriving DecidableEq, Repr

/-- A held digest (R385 to R387): the lines still to read, as bank × 8,192 + line. -/
structure Digest where
  number : Nat
  tid : Nat
  cookie : Nat
  lines : Option (List Nat)
  visited : List Nat
  sum : Nat
  entries : Nat
  incomplete : Bool
  unstable : Bool
  version : Nat
deriving DecidableEq, Repr

/-- A telemetry record that waits for its destination (R393): destination code, index and record. -/
structure TelRecord where
  dest : Nat
  index : Nat
  mirror : Bool
  digest : Bool
  bytes : Bytes
deriving DecidableEq, Repr

/-- A mirror session in force (R391). -/
structure Session where
  en : Bool
  berth : Nat
  ratio : Nat
  dest : Nat
  index : Nat
  withResult : Bool
  counted : Nat
deriving DecidableEq, Repr

/-- Captured values of one queue (R389), still to post. -/
structure Sample where
  isRing : Bool
  queue : Nat
  tide : Nat
  depths : List Nat
  waits : List Nat
  cls : Nat
deriving DecidableEq, Repr

/-- Tracing, digests, sampling, the mirror and the capture buffer (R378 to R395). -/
structure Observe where
  traces : List Trace
  digests : List Digest
  nextDigest : Nat
  sampleK : Nat
  sampleEn : Bool
  samples : List Sample
  samplesTide : Nat
  capturedAt : Nat
  /-- Greatest wait since the last capture, by queue and class: quay × 4 + class, or 1,000 + host ring. -/
  waits : Table Nat
  buffer : List TelRecord
  sessions : Table Session
  captureWord : Nat
  captureWraps : Nat
  captureStopped : Bool
  /-- Trace and digest operations used, and the stroke they count for. -/
  traceOps : Nat
  traceAt : Nat
deriving DecidableEq, Repr

/-- State codes of a logical quay or ring port (QUY_STATUS.state). -/
inductive LinkState where
  | off | down | train | align | initing | up | failed
deriving DecidableEq, Repr

/-- One physical lane of a port (QUY_LANES): usable by configuration, locked, retired, retrains, and a retrain that runs. -/
structure Lane where
  usable : Bool
  locked : Bool
  retired : Bool
  retrains : Nat
  retraining : Bool
  /-- The stroke in which its present retrain began. -/
  since : Nat
deriving DecidableEq, Repr

/-- A DATA frame in the replay buffer (R461): its sequence number, its bytes, the stroke of its last transmission and its
replays. -/
structure SentFrame where
  seq : Nat
  bytes : Bytes
  sentAt : Nat
  replays : Nat
deriving DecidableEq, Repr

/-- A record that waits in a transmit buffer (R457, R470): its bytes, its class (result, completion, secondary or REDIRECT), what
it returns when its last word is sent, and its origin where it is a REDIRECT. -/
inductive TxKind where
  /-- A search result: it returns these words to the pool of its request. -/
  | result (pool : Nat) (words : Nat)
  | completion
  | secondary
  /-- A manifest under delivery (R324). -/
  | manifest
  | redirect (origin : Nat) (isResult : Bool) (pool : Nat) (words : Nat)
deriving DecidableEq, Repr

/-- A record that waits in a transmit buffer. -/
structure TxRecord where
  kind : TxKind
  bytes : Bytes
  /-- Words already packed into frames. -/
  sent : Nat
deriving DecidableEq, Repr

/-- A link of lanes: a logical quay or a ring port (R447 to R482, R486). -/
structure Link where
  state : LinkState
  /-- Width in lanes now, and as configured. -/
  width : Nat
  fullWidth : Nat
  minWidth : Nat
  lanes : List Lane
  /-- The first physical lane of the configured lanes, and the first current lane within them. -/
  laneBase : Nat
  lo : Nat
  /-- A width change that has not applied: the first lane, the width and the codeword number from which it applies, and whether
  its WIDTH_ACK has come (R475, R477). -/
  widthTo : Option (Nat × Nat × Nat)
  widthAcked : Bool
  /-- Control messages that wait for a CTRL frame (CENSUS, LANE_BAD answers). -/
  ctl : List Bytes
  rxExpect : Nat
  txNext : Nat
  nak : Bool
  /-- The ack for which a replay last began, and its stroke (R461). -/
  replayFrom : Option (Nat × Nat)
  replay : List SentFrame
  /-- Words charged per pool since INIT, and the limits sent (R464, R465). -/
  charged : List Nat
  limits : List Nat
  poolSize : List Nat
  /-- The peer's limit for secondary records and the words charged to it (R468). -/
  peerLimit : Nat
  peerCharged : Nat
  /-- A partly received record: its words so far (R455). -/
  partialRec : List Bytes
  tx : List TxRecord
  cwNum : Nat
  rotation : Nat
  /-- INIT and INIT_DONE sent, and INIT_DONE received. -/
  initSent : Bool
  doneSent : Bool
  doneSeen : Bool
  /-- The stroke of the last passing frame, and of entry into the present state (grid × 256 + stroke). -/
  lastFrame : Nat
  since : Nat
  /-- Records redirected since UP (QUAY_DOWN info_b). -/
  redirected : Nat
  /-- The frame that carries the last word of the manifest under delivery (R324). -/
  manifestSeq : Option Nat
  /-- The rec_type of the record taken last, while only zero words have followed it (R455); 0 for none. -/
  afterRecord : Nat
  group : Option Nat
  xoffHigh : Nat
  xoffLow : Nat
deriving DecidableEq, Repr

/-- One entry of LINKS (R473). -/
structure LinksEntry where
  split : Nat
  minWidth : Nat
  lanes : Nat
  group : List Nat
  pools : List Nat
  xoffHigh : Nat
  xoffLow : Nat
deriving DecidableEq, Repr

/-- The LINKS record in force: ring fields (R485) and the twelve quay entries (R473). -/
structure LinksRec where
  ringEnable : Bool
  member : Nat
  members : Nat
  ringMinWidth : Nat
  eastLanes : Nat
  westLanes : Nat
  quays : List LinksEntry
deriving DecidableEq, Repr

/-- The quay and ring links. -/
structure Links where
  record : LinksRec
  quays : Table Link
  east : Link
  west : Link
deriving DecidableEq, Repr

/-- A ring epoch (R500): number, members counted, members of hop weight 2. -/
structure Epoch where
  number : Nat
  present : Nat
  weight2 : Nat
deriving DecidableEq, Repr

/-- A ring record at a member (R492, R498): its bytes, the stroke of its receipt, its dispatch stroke once dispatched, what the
member found, and the stroke at which it is transmitted. -/
structure RingRec where
  bytes : Bytes
  received : Nat
  dispatched : Option Nat
  passThrough : Bool
  /-- The definition of the slice searched, where the record's checks pass and the slice matches (R492). -/
  df : Option TableDef
  key : Digits
  banks : List Nat
  /-- Both copies are looked up (R212): the mode at the dispatch is M3. -/
  m3 : Bool
  winner : Option Cand
  /-- The winner of the mirror quadrants in M3. -/
  mirror : Option Cand
  activated : Bool
  resolved : Bool
  sendAt : Option Nat
deriving DecidableEq, Repr

/-- A lookup launched as origin (R491, R494): tag, search and look, the origin's own contribution, the merged record. -/
structure Launch where
  tag : Nat
  search : Nat
  look : Nat
  own : Bytes
  merged : Option Bytes
  /-- The stroke at which it is launched, and whether it has been. -/
  at_ : Nat
  sent : Bool
deriving DecidableEq, Repr

/-- The ring (R484 to R511). -/
structure Ring where
  joined : Bool
  gatesOpen : Bool
  epoch : Epoch
  previous : Epoch
  solo : Bool
  /-- An epoch or the solo epoch that the next boundary takes. -/
  epochNext : Option Epoch
  soloNext : Option Nat
  launches : List Launch
  nextTag : Nat
  queue : List RingRec
  /-- The member's own probe that is out, and its own force probe that is out: the grid tide of the launch. -/
  probe : Option Nat
  forced : Option Nat
  /-- The member's own commit that is out. -/
  commit : Option Epoch
  lastCensus : Nat
  /-- A leave that runs: its launch tide. -/
  leaving : Option Nat
  /-- The number and launcher of the last commit taken (R503). -/
  lastCommit : Option (Nat × Nat)
deriving DecidableEq, Repr

/-- State of a host ring (HST_RING_CTL.state). -/
inductive RingState where
  | disabled | active | error
deriving DecidableEq, Repr

/-- A reply or event that waits to be written to a host ring: whether it is the manifest record under delivery, or a
reserved reply with its reserved entries. -/
inductive RingWriteKind where
  | reply (reserved : Nat)
  | event
  | manifest
deriving DecidableEq, Repr

/-- A record waiting to be written to a host ring. -/
structure RingWrite where
  kind : RingWriteKind
  bytes : Bytes
deriving DecidableEq, Repr

/-- A host ring (R519 to R531). Its control fields kind, size, pair, class, vector and en are in HST_RING_CTL. -/
structure HostRing where
  state : RingState
  cause : Nat
  devIndex : Nat
  hostIndex : Nat
  reserved : Nat
  /-- Armed by a doorbell, with its consumer index (R531). -/
  armed : Option Nat
  writes : List RingWrite
  /-- The consumer index of a SUBMIT ring has moved since its last write-back (R522). -/
  moved : Bool
  /-- How often the ring has been disabled: a reservation made before is void (R528). -/
  era : Nat
deriving DecidableEq, Repr

/-- A ring at its reset value. -/
def HostRing.reset : HostRing := ⟨.disabled, 0, 0, 0, 0, none, [], false, 0⟩

/-- A window record (R532). -/
structure WinRec where
  en : Bool
  fn : Nat
  berth : Nat
  slot : Nat
deriving DecidableEq, Repr

/-- A peer window: its active record and generation, the FIFO's occupancy and the bytes freed (R536). -/
structure Window where
  active : WinRec
  gen : Nat
  held : Nat
  freed : Nat
deriving DecidableEq, Repr

/-- The PCIE record in force (R514). -/
structure PcieRec where
  widthMax : Nat
  genMax : Nat
  totalVfs : Nat
  ringsPerVf : Nat
  bar2 : Bool
deriving DecidableEq, Repr

/-- A function: FLR in progress, its Completion Timeout Value, its vectors masked (R537, R539). -/
structure Function where
  flr : Bool
  timeoutValue : Nat
  latches : Latches
deriving DecidableEq, Repr

/-- The host interface (R512 to R541). -/
structure HostIf where
  pcie : PcieRec
  linkUp : Bool
  gen : Nat
  width : Nat
  flit : Bool
  numVfs : Nat
  functions : Table Function
  rings : Table HostRing
  windows : Table Window
  winPending : Bool
  winResult : Nat
  /-- The next host source per class (R525): host rings 0 to 4,095, then 4,096 + window. -/
  pointers : List Nat
  /-- Host dispatches in this tide. -/
  dispatches : Nat
  /-- Register writes held in Doze (R627): function, offset, bytes. -/
  heldWrites : List (Nat × Nat × Bytes)
  /-- Doorbell writes held from step 1 of an entry until the exit (R582): function, slot, bytes. -/
  heldDoorbells : List (Nat × Nat × Bytes)
  /-- TLPs of peer windows held from step 1 of an entry until the exit (R582): offset in BAR2, bytes. -/
  heldTlps : List (Nat × Bytes)
  /-- The stroke of the last record of GLB_ACCESS_LOG (R629). -/
  accessAt : Option Nat
  /-- Reads abandoned whose completion may still come (R538). -/
  abandoned : Nat
  /-- Flash programming runs (R112). -/
  flashBusy : Bool
deriving DecidableEq, Repr

/-- State of a pseudo-channel (MEM_PC_INFO.state). -/
inductive PcState where
  | inService | fenced | idleSpare | rebuilding
deriving DecidableEq, Repr

/-- A verification that runs on a pseudo-channel (R562, R564): the grid tide at which it ends, the sets that have failed in this
sequence, and whether it brings up a spare for a fenced pseudo-channel or follows the command watchdog. -/
structure Verify where
  ends : Nat
  failed : List Nat
  spareFor : Option Nat
  watchdog : Bool
deriving DecidableEq, Repr

/-- A pseudo-channel (R545 to R569). -/
structure Pseudo where
  state : PcState
  serves : Nat
  set : Nat
  postponed : Nat
  fails : Nat
  verify : Option Verify
  /-- A fence waits for the boundary (R565). -/
  fencing : Bool
  /-- A refresh waits for real-time reads (R556), and the grid tide in which one last fell due. -/
  refreshDue : Bool
  refreshAt : Option Nat
deriving DecidableEq, Repr

/-- A stack (R555 to R560). -/
structure Stack where
  temp : Int
  doubled : Bool
  doubleNext : Option Bool
  hot : Bool
  coolNext : Bool
  /-- Panic up to the stroke `panicAt`, and after it (R555). -/
  panic : Bool
  panicNext : Bool
  panicAt : Nat
  waiting : Nat
deriving DecidableEq, Repr

/-- A rebuild (R566): the fenced pseudo-channel, its spare, the next stripe of the group. -/
structure Rebuild where
  pc : Nat
  spare : Nat
  next : Nat
  /-- Stripes rebuilt in this tide, and the grid tide they count for. -/
  tideCount : Nat
  tide : Nat
deriving DecidableEq, Repr

/-- The in-package memory (R542 to R574). The stored bytes are `State.dram`. -/
structure Dram where
  pcs : Table Pseudo
  stackStates : List Stack
  rebuilds : List Rebuild
  nsets : Nat
  /-- Valid sets that differ from set 0 alone: pseudo-channel, sets. -/
  validSets : Table (List Nat)
  /-- The chart shadow (R42, R252): the current chart of each table, by table identifier. -/
  chartShadow : Table Chart
  /-- The delay sets in force (R561): the DRAM_SETS record of CORE. -/
  sets : Bytes
  /-- The generator of each pseudo-channel (R559), 32 bits; the row open in each bank, by pseudo-channel + 64 × bank; and the adjacent
  rows refreshed for each pseudo-channel. -/
  generators : Table Nat
  openRows : Table Nat
  neighbours : Table Nat
deriving DecidableEq, Repr

/-- The commands that wait in a pseudo-channel (R553, R554): reads and buffered writes, each a client port and a column address,
oldest first; whether a write drain runs; the commands issued since each of ports 2 to 7 last received one; whether the last command
was of ports 2 to 7 (R560). -/
structure PcQueue where
  reads : List (Nat × Nat)
  writes : List (Nat × Nat)
  draining : Bool
  since : List Nat
  low : Bool
deriving DecidableEq, Repr

/-- A pseudo-channel with nothing waiting. -/
def PcQueue.reset : PcQueue := ⟨[], [], false, [0, 0, 0, 0, 0, 0], false⟩


/-- A change that waits for the boundary at which it takes effect (R63, R64, R646). -/
inductive Change where
  | master (m : Nat) (r : MasterRec)
  | berth (b : Nat) (r : BerthRec)
  | forgive (b : Nat)
  | tableCreate (df : TableDef) (id : Nat)
  | tableDelete (tid : Nat)
  | tableFlush (tid : Nat)
  | winCommit
  | filterWindow (w : Nat)
  | filterFlush
  | ageK (k : Nat)
  | sampler (en : Bool) (k : Nat)
  | mirror (n : Nat) (x : Session)
  | streamReset (n : Nat)
  | streamClose (n : Nat)
  | glyphReady (set : Nat)
  | glyphUnload (set : Nat)
  | pcFence (pc : Nat)
  | laneRetire (p : Port) (lane : Nat)
  | lifeCycle (new floor : Nat) (hash : Bytes)
  | bistStart
deriving DecidableEq, Repr

/-- A change and the grid tide at whose first boundary it takes effect. -/
structure Due where
  tide : Nat
  change : Change
deriving DecidableEq, Repr

/-- What this stroke has added to RC fields (R15): the stroke, as grid × 256 + stroke, the register words before its updates, and
the updates, by register key. -/
structure RcStroke where
  at_ : Nat
  before : Table Word64
  added : Table Word64
deriving DecidableEq, Repr

/-- What the spec gives the machine, as it stood at the start of a stroke (R621). -/
structure Snapshot where
  clock : Clock
  regs : Table Word64
  setBits : Table Word64
  setAt : Nat
  rc : RcStroke
  fuses : Fuses
  boot : Boot
  power : Power
  faults : FaultLog
  service : Service
  pins : Pins
  berths : Table Berth
  masters : Table Master
  security : Security
  tables : Table TableRec
  arrays : Arrays
  numbers : Numbers
  cmds : Commands
  hot : HotStore
  scrub : Scrub
  learning : Learning
  manifest : Manifest
  mode : ModeState
  search : SearchCore
  scribes : Scribes
  counters : Counters
  observe : Observe
  links : Links
  ring : Ring
  host : HostIf
  dramCtl : Dram
  dram : Memory
  diram : Memory
  scratch : Memory
  memQueues : Table PcQueue
  due : List Due
deriving DecidableEq, Repr

/-- The state of the Q1280. -/
@[ext]
structure State where
  clock : Clock
  /-- The register fields that hold a stored value, where it differs from the reset value: key offset + 2^26 × index. -/
  regs : Table Word64
  /-- The W1C bits that hardware set in the stroke `setAt`, by register key: a clear in that stroke loses to them (R14). -/
  setBits : Table Word64
  setAt : Nat
  rc : RcStroke
  fuses : Fuses
  boot : Boot
  power : Power
  faults : FaultLog
  service : Service
  pins : Pins
  berths : Table Berth
  masters : Table Master
  security : Security
  tables : Table TableRec
  arrays : Arrays
  numbers : Numbers
  cmds : Commands
  hot : HotStore
  scrub : Scrub
  learning : Learning
  manifest : Manifest
  mode : ModeState
  search : SearchCore
  scribes : Scribes
  counters : Counters
  observe : Observe
  links : Links
  ring : Ring
  host : HostIf
  dramCtl : Dram
  /-- The usable bytes of DRAM (R42, R542). -/
  dram : Memory
  /-- The direct-index SRAM (R164). -/
  diram : Memory
  /-- The general scratchpad (R36): what R107 and R112 put there. -/
  scratch : Memory
  /-- The command queues and write buffers of the pseudo-channels that are not empty (R553, R554). -/
  memQueues : Table PcQueue
  /-- Changes that wait for a boundary. -/
  due : List Due
  /-- The same at the start of the stroke, which reads of registers return (R621). -/
  start : Snapshot
  /-- The model's own: how many free values have been taken (notes/assumptions/3.md). -/
  freeCounter : Nat
  /-- The model's own: everything that left the device, oldest first (notes/assumptions/1.md). -/
  out : List Emit
  /-- The model's own: the commands that wait, the next first. -/
  pending : List Instr
deriving DecidableEq, Repr

/-- The state as it is, as a snapshot. -/
def State.snapshot (s : State) : Snapshot :=
  { clock := s.clock, regs := s.regs, setBits := s.setBits, setAt := s.setAt, rc := s.rc, fuses := s.fuses
    boot := s.boot, power := s.power, faults := s.faults, service := s.service, pins := s.pins, berths := s.berths
    masters := s.masters, security := s.security, tables := s.tables, arrays := s.arrays, numbers := s.numbers
    cmds := s.cmds, hot := s.hot, scrub := s.scrub, learning := s.learning, manifest := s.manifest, mode := s.mode
    search := s.search, scribes := s.scribes, counters := s.counters, observe := s.observe, links := s.links
    ring := s.ring, host := s.host, dramCtl := s.dramCtl, dram := s.dram, diram := s.diram, scratch := s.scratch
    memQueues := s.memQueues, due := s.due }

/-- The state with a snapshot in place of what the spec gives it. -/
def State.view (s : State) (x : Snapshot) : State :=
  { s with
    clock := x.clock, regs := x.regs, setBits := x.setBits, setAt := x.setAt, rc := x.rc, fuses := x.fuses
    boot := x.boot, power := x.power, faults := x.faults, service := x.service, pins := x.pins, berths := x.berths
    masters := x.masters, security := x.security, tables := x.tables, arrays := x.arrays, numbers := x.numbers
    cmds := x.cmds, hot := x.hot, scrub := x.scrub, learning := x.learning, manifest := x.manifest, mode := x.mode
    search := x.search, scribes := x.scribes, counters := x.counters, observe := x.observe, links := x.links
    ring := x.ring, host := x.host, dramCtl := x.dramCtl, dram := x.dram, diram := x.diram, scratch := x.scratch
    memQueues := x.memQueues, due := x.due }

/-- The DEVICE record before a scroll is applied. -/
def DeviceRec.reset : DeviceRec := ⟨0, 0, false, false, false, 0, 0⟩

/-- A port whose lanes are held in reset. -/
def Link.reset : Link :=
  { state := .off, width := 0, fullWidth := 0, minWidth := 0, lanes := [], laneBase := 0, lo := 0, widthTo := none, widthAcked := false, ctl := [],
    rxExpect := 0, txNext := 0, nak := false, replayFrom := none, replay := [], charged := [], limits := [], poolSize := [],
    peerLimit := 0, peerCharged := 0, partialRec := [], tx := [], cwNum := 0, rotation := 0, initSent := false,
    doneSent := false, doneSeen := false, lastFrame := 0, since := 0, redirected := 0, manifestSeq := none,
    afterRecord := 0, group := none, xoffHigh := 0, xoffLow := 0 }

/-- The LINKS record before a scroll is applied: no quay, no ring. -/
def LinksRec.reset : LinksRec := ⟨false, 0, 0, 0, 0, 0, []⟩

/-- The clock at power-on reset. -/
def Clock.reset : Clock :=
  { grid := 0, stroke := 0, count := 0, stepTo := none, trim := 0, trimNext := none, prevErr := none, goodEdges := 0,
    lastEdge := none, lockSince := 0 }

/-- Boot at power-on reset: the ROM stage. -/
def Boot.reset : Boot :=
  { stage := 0, copy := 0, errA := 0, errB := 0, header := none, core := [], applied := false, powerOn := true,
    fromOffGuard := false, recordedCopy := 0, glyphDone := false, seedDone := false, glyphSets := 0, glyphRecord := 0,
    seedInserted := 0, seedRecord := 0, sectionBytes := [], seedEnded := [], enableCommands := [], firmwareRuns := false, seedClosed := false,
    device := DeviceRec.reset, scrollSeq := 0 }

/-- Power at power-on reset: PWR_MAIN_EN driven high, the rails not yet reported valid (R591, R632). -/
def Power.reset : Power :=
  { state := 0, entry := none, exit := none, heldWake := none, idleAt := none, quietTides := 0, accepted := false,
    clockedAt := 0, domainReset := none, mainEn := true, railsValid := false, railFails := 0, halted := false, vddAon := true,
    rtc := 0, rtcPart := 0, tideRecord := 0, rtcRecord := 0, tamperHold := false, wakeSrc := 0, result := 0, resetResult := 0,
    pcieReset := true }

/-- Security at power-on reset. -/
def Security.reset : Security :=
  { rootKeys := false, kek := zeros 32, transport := 0, keys := [], sessions := [], bootNonce := 0, selfTestOk := false,
    drbgFailed := false, debugOpen := false, tamperEvents := 0, tamperCause := 0, keyWrap := none, lcPending := false }

/-- The arrays at power-on reset: every row EMPTY, every unit canonical zeros. -/
def Arrays.reset : Arrays :=
  { units := [], tags := [], spans := [], served := [], drain := none, drainResult := 0, rewriteBanks := [], rewritten := [],
    mirrorFree := [], mirrorBuild := [], opsAt := 0, cmdOps := [], planOps := [], ports := [], respaceBusy := false }

/-- Learning at power-on reset. -/
def Learning.reset : Learning :=
  { filter := [], window := 16, epoch := 0, k := 16, position := 0, er := 0, ep := 0, passDue := true, away := none,
    awayRuns := false, removals := [], stalledAt := none, reported := [], fresh := [], examinedAt := none, advancedAt := 0 }

/-- The manifest queue at power-on reset. -/
def Manifest.reset : Manifest :=
  { release := 0, mark := 0, read := 0, commit := 0, ring := [], posting := [], done := 0, gap := none, lastTaken := [],
    delivering := 0, commitAt := none }

/-- The observability unit at power-on reset. -/
def Observe.reset : Observe :=
  { traces := [], digests := [], nextDigest := 0, sampleK := 0, sampleEn := false, samples := [], samplesTide := 0, capturedAt := 0,
    waits := [], buffer := [], sessions := [], captureWord := 0, captureWraps := 0, captureStopped := false, traceOps := 0,
    traceAt := 0 }

/-- The ring at power-on reset. -/
def Ring.reset : Ring :=
  { joined := false, gatesOpen := false, epoch := ⟨0, 0, 0⟩, previous := ⟨0, 0, 0⟩, solo := true, epochNext := none,
    soloNext := none, launches := [], nextTag := 0, queue := [], probe := none, forced := none, commit := none, lastCensus := 0,
    leaving := none, lastCommit := none }

/-- The host interface at power-on reset. -/
def HostIf.reset : HostIf :=
  { pcie := ⟨0, 0, 0, 0, false⟩, linkUp := false, gen := 0, width := 0, flit := false, numVfs := 0, functions := [], rings := [],
    windows := [], winPending := false, winResult := 0, pointers := [0, 0, 0, 0], dispatches := 0, heldWrites := [], heldDoorbells := [], heldTlps := [],
    accessAt := none, abandoned := 0, flashBusy := false }

/-- A stack at power-on reset. -/
def Stack.reset : Stack :=
  { temp := 0, doubled := false, doubleNext := none, hot := false, coolNext := false, panic := false, panicNext := false,
    panicAt := 0, waiting := 0 }

/-- The machine right after power-on reset is released (R590, R591): every volatile state at its reset value, the fuses as
blown. Values that the spec does not give are those of notes/assumptions/2.md. -/
def Snapshot.reset : Snapshot :=
  { clock := Clock.reset
    regs := []
    setBits := []
    setAt := 0
    rc := ⟨0, [], []⟩
    fuses := ⟨2, 0, 0, 0, zeros 48, zeros 32, zeros 48⟩
    boot := Boot.reset
    power := Power.reset
    faults := ⟨[], [], none⟩
    service := { slots := [], bist := none, bistQueue := [], unavailable := [], tapIr := 0, dieTemps := [], dieHot := false }
    pins := { qxoff := 0xFFF, mnfXoff := true, alert := false, lgHoldE := false, lgHoldW := false, nextQxoff := 0xFFF,
              nextMnf := true, nextAlert := false, at_ := 0 }
    berths := []
    masters := []
    security := Security.reset
    tables := []
    arrays := Arrays.reset
    numbers := { entries := [], gens := [], fresh := 0, freed := [], withheld := [], pendingMeta := [], freeing := [] }
    cmds := { fifos := [], accepted := [], nextId := 0, flights := [], taken := 0, takenStroke := 0, takenAt := 0, takenFrom := [],
              droppedFrom := [], edits := [], journal := [] }
    hot := { lines := [], tags := [], filter := [], pinWait := [], adChanges := [], decayStart := 0, adAt := 0, adNow := 0 }
    scrub := { position := 0, passes := 0, prio := [], reads := [], readAt := none, stripes := [], stripeReads := [],
               metaSeen := [], repairs := [], unsettled := [], repairsPass := [], repairsTotal := [], barred := [], verifying := [],
               tagSearches := [] }
    learning := Learning.reset
    manifest := Manifest.reset
    mode := { mode := 0, pending := none, preparing := false, turnTide := none, command := none, before := 0, since := 0 }
    search := { waiting := [], pointers := [0, 0, 0, 0], flights := [], nextId := 0, charges := [], closed := [], doneAt := none,
                adOld := [] }
    scribes := { glyphs := [], streams := [], gens := [], fresh := 0, freed := [], queue := [], scribes := [], lastSet := [],
                 reports := [], assignedAt := none }
    counters := { narrow := [], stamps := [], updates := [], foldQueue := [], places := [], held := [], reads := [], foldAt := none,
                  latched := 0, epochTide := 0, appliedAt := 0, appliedNow := [] }
    observe := Observe.reset
    links := ⟨LinksRec.reset, [], Link.reset, Link.reset⟩
    ring := Ring.reset
    host := HostIf.reset
    dramCtl := { pcs := [], stackStates := [Stack.reset, Stack.reset], rebuilds := [], nsets := 1, validSets := [],
                 chartShadow := [], sets := [], generators := [], openRows := [], neighbours := [] }
    dram := []
    diram := []
    scratch := []
    memQueues := []
    due := [] }

/-- The machine right after reset, with no command waiting. -/
def State.reset : State :=
  let r := Snapshot.reset
  { clock := r.clock, regs := r.regs, setBits := r.setBits, setAt := r.setAt, rc := r.rc, fuses := r.fuses
    boot := r.boot, power := r.power, faults := r.faults, service := r.service, pins := r.pins, berths := r.berths
    masters := r.masters, security := r.security, tables := r.tables, arrays := r.arrays, numbers := r.numbers
    cmds := r.cmds, hot := r.hot, scrub := r.scrub, learning := r.learning, manifest := r.manifest, mode := r.mode
    search := r.search, scribes := r.scribes, counters := r.counters, observe := r.observe, links := r.links
    ring := r.ring, host := r.host, dramCtl := r.dramCtl, dram := r.dram, diram := r.diram, scratch := r.scratch
    memQueues := r.memQueues, due := r.due
    start := r, freeCounter := 0, out := [], pending := [] }

end Sys2Proof.Machine
end

