-- ==== Sys2Proof/Machine/Layout.lean ====
section
/-! DEFINITION. The parameters of each mode (R49, R53, R56, R60, R118, R366) and the grid of strokes: which stroke is a search,
idle or slack stroke, in which phase of the slack it lies, and when a change takes effect (R63). -/
namespace Sys2Proof.Machine

/-- The parameters of a mode (R49, R56, R60, R118): search strokes 0 to `search` - 1, first slack stroke, pipes, activation cap,
lookups per search, fixed latency in tides, scribes, scrub lines per tide, insertion bound in tides, commands per tide. -/
structure ModeParams where
  search : Nat
  slackAt : Nat
  pipes : Nat
  cap : Nat
  lookups : Nat
  latency : Nat
  units : Nat
  scribes : Nat
  scrubLines : Nat
  bound : Nat
  commands : Nat
deriving DecidableEq, Repr

/-- The mode table (R49, R56, R60, R118). -/
def modeParams (m : Nat) : ModeParams :=
  match m with
  | 0 => ⟨240, 240, 8, 96, 4, 6, 16777216, 64, 16, 64, 64⟩
  | 1 => ⟨240, 240, 8, 64, 4, 6, 16777216, 48, 40, 64, 64⟩
  | 2 => ⟨192, 240, 8, 32, 2, 6, 16777216, 16, 16, 64, 64⟩
  | 3 => ⟨240, 240, 8, 96, 4, 7, 8388608, 48, 40, 64, 64⟩
  | 4 => ⟨224, 224, 8, 64, 4, 6, 16777216, 48, 128, 64, 128⟩
  | 5 => ⟨240, 240, 4, 64, 4, 6, 16777216, 64, 40, 64, 64⟩
  | 6 => ⟨128, 128, 8, 48, 4, 6, 16777216, 16, 16, 16, 512⟩
  | _ => ⟨240, 240, 8, 64, 2, 8, 16777216, 32, 40, 64, 64⟩

/-- The parameters of the mode in force. -/
def State.params (s : State) : ModeParams := modeParams s.mode.mode

/-- The phases of the slack (R53). -/
inductive Phase where
  | write | scrub | trace | commit
deriving DecidableEq, Repr

/-- The phase of slack stroke `i` in a slack of the given length (R53). -/
def phaseOf (slack i : Nat) : Phase :=
  if slack = 16 then (if i < 12 then .write else if i < 14 then .scrub else if i < 15 then .trace else .commit)
  else if slack = 32 then (if i < 20 then .write else if i < 28 then .scrub else if i < 30 then .trace else .commit)
  else (if i < 108 then .write else if i < 124 then .scrub else if i < 127 then .trace else .commit)

/-- The phase of a stroke in a mode, where it is a slack stroke (R49, R53). -/
def strokePhase (m t : Nat) : Option Phase :=
  let p := modeParams m
  if t < p.slackAt then none else some (phaseOf (256 - p.slackAt) (t - p.slackAt))

/-- The last write-phase stroke of a mode. -/
def lastWriteStroke (m : Nat) : Nat :=
  let p := modeParams m
  p.slackAt + (if p.slackAt = 240 then 11 else if p.slackAt = 224 then 19 else 107)

/-- The scrub-phase strokes of a mode (R53). -/
def phaseStrokes (m : Nat) : Nat := if m = 4 then 8 else if m = 6 then 16 else 2

/-- The first scrub-phase stroke of a mode. -/
def firstScrubStroke (m : Nat) : Nat := lastWriteStroke m + 1

/-- The stroke on the whole grid: grid tide × 256 + stroke. -/
def State.now (s : State) : Nat := s.clock.grid * 256 + s.clock.stroke

/-- The state as it is now is the one at the start of the stroke (R621). -/
def State.opens (s : State) : State := { s with start := s.snapshot }

/-- The state at a later stroke of the tide: time runs on and never back, and a new stroke starts from the state as it is. -/
def State.at (s : State) (t : Nat) : State :=
  { s with
    clock := { s.clock with stroke := max s.clock.stroke (min t 255) }
    start :=
      if s.clock.stroke < min t 255 then { s.snapshot with clock := { s.clock with stroke := min t 255 } } else s.start }

/-- The state as it stood at the start of the stroke. -/
def State.opening (s : State) : State := s.view s.start

/-- The phase of the stroke now. -/
def State.phase (s : State) : Option Phase := strokePhase s.mode.mode s.clock.stroke

/-- The stroke is a slack stroke (R49). -/
def State.inSlack (s : State) : Bool := s.phase.isSome

/-- Slack work runs (R575): in Run and Idle, with the main domains up. -/
def State.awake (s : State) : Bool := s.power.state ≤ 1 && s.power.railsValid && !s.power.tamperHold

/-- The stroke lies in the write phase, and slack work runs. -/
def State.inWrite (s : State) : Bool := s.awake && s.phase == some .write

/-- The stroke lies in the scrub phase, and slack work runs. -/
def State.inScrub (s : State) : Bool := s.awake && s.phase == some .scrub

/-- The stroke lies in the trace phase, and slack work runs. -/
def State.inTrace (s : State) : Bool := s.awake && s.phase == some .trace

/-- A power domain is held in reset (R593). -/
def State.domainDown (s : State) (d : Nat) : Bool :=
  match s.power.domainReset with
  | some x => x.started && x.domain == d
  | none => false

/-- Intake is stopped (R582): from step 1 of an entry to Doze or below until the exit ends. -/
def State.intakeStopped (s : State) : Bool :=
  2 ≤ s.power.state || (match s.power.entry with
    | some e => 1 ≤ e.step
    | none => false)

/-- The stroke is a commit stroke; in M4 stroke 254 is one too (R54, R63). -/
def State.inCommit (s : State) : Bool := s.phase == some .commit

/-- The grid tide at whose first boundary a change accepted now takes effect (R63): the next tide, or the one after it. -/
def State.dueTide (s : State) : Nat := s.clock.grid + (if s.inCommit then 2 else 1)

/-- A change put on the list of those that wait for their boundary. -/
def State.defer (s : State) (c : Change) : State := { s with due := s.due ++ [⟨s.dueTide, c⟩] }

/-- This is the turn tide of the pending mode change (R65). -/
def State.turnTide (s : State) : Bool := s.mode.turnTide == some s.clock.grid

/-- The two sets of parameters that limit dispatch: in the turn tide those of both modes (R66). -/
def State.dispatchLimits (s : State) : ModeParams × ModeParams :=
  match s.mode.pending with
  | some m => if s.turnTide then (s.params, modeParams m) else (s.params, s.params)
  | none => (s.params, s.params)

/-- The stroke is a search stroke for dispatch (R24, R49, R51, R66): in idle and slack strokes nothing is dispatched. -/
def State.searchStroke (s : State) (t : Nat) : Bool :=
  let l := s.dispatchLimits
  t < l.1.search && t < l.2.search

/-- The pipes that dispatch may use now (R49, R66). -/
def State.pipesNow (s : State) : Nat := min s.dispatchLimits.1.pipes s.dispatchLimits.2.pipes

/-- The activation cap of dispatch now (R49, R66). -/
def State.capNow (s : State) : Nat := min s.dispatchLimits.1.cap s.dispatchLimits.2.cap

/-- The device serves: the Serving stage (R107). -/
def State.serving (s : State) : Bool := s.boot.stage == 5

/-- The device is in Recovery (R111). -/
def State.recovery (s : State) : Bool := s.boot.stage == 14

/-- The core clock runs: the tides count (R82). -/
def State.clockRuns (s : State) : Bool := s.power.state < 3 && s.power.railsValid

/-- Whether command authentication is required: DEVICE.flags.cmd_auth (R96). -/
def State.cmdAuth (s : State) : Bool := s.boot.device.cmdAuth

/-- Whether the device is certified (R96). -/
def State.certified (s : State) : Bool := s.boot.device.certified

/-- The low `n` bits of the tide count. -/
def State.tideLow (s : State) (n : Nat) : Nat := s.clock.count % 2 ^ n

end Sys2Proof.Machine
end

