-- ==== Sys2Proof/Machine/Ops.lean ====
section
/-! DEFINITION. The named operations that the meanings share: the register store (R11, R12), counters, W1C bits and
what leaves the device. -/
namespace Sys2Proof.Machine

/-- The outcome of a command. -/
abbrev Res := Host.Outcome State Fault Refusal

/-- The key of a register, or of one of its copies or per-object instances, in the register store. -/
def Reg.key (r : Reg) (i : Nat) : Nat := r.offset + 0x4000000 * i

/-- The reset value of a register. -/
def Reg.resetNat (r : Reg) : Nat := (r.fields.map (fun f => f.reset * 2 ^ f.lo)).foldl (fun a b => a + b) 0

/-- The stored word of a register. -/
def State.word (s : State) (r : Reg) (i : Nat) : Nat :=
  match s.regs.find (r.key i) with
  | some w => w.toNat
  | none => r.resetNat

/-- The stored word replaced. A word equal to the reset value is not listed. -/
def State.setWord (s : State) (r : Reg) (i : Nat) (v : Nat) : State :=
  { s with regs := if v % 2 ^ 64 = r.resetNat then s.regs.del (r.key i) else s.regs.put (r.key i) (BitVec.ofNat 64 v) }

/-- A stored field read. -/
def State.fld (s : State) (f : Fld) (i : Nat := 0) : Nat := s.word f.reg i / 2 ^ f.lo % 2 ^ f.width

/-- A word with one field replaced. -/
def Fld.into (f : Fld) (w v : Nat) : Nat :=
  let old := w / 2 ^ f.lo % 2 ^ f.width
  w - old * 2 ^ f.lo + v % 2 ^ f.width * 2 ^ f.lo

/-- A field of a word. -/
def Fld.get (f : Fld) (w : Nat) : Nat := w / 2 ^ f.lo % 2 ^ f.width

/-- A stored field written. -/
def State.setFld (s : State) (f : Fld) (v : Nat) (i : Nat := 0) : State := s.setWord f.reg i (f.into (s.word f.reg i) v)

/-- A stored single-bit field as a Bool. -/
def State.bit (s : State) (f : Fld) (i : Nat := 0) : Bool := s.fld f i != 0

/-- Hardware sets bits of a W1C field; the stroke is noted for R14. -/
def State.raiseBits (s : State) (f : Fld) (v : Nat) (i : Nat := 0) : State :=
  let kept := if s.setAt = s.now then s.setBits else []
  let old := (kept.findD (f.reg.key i) 0).toNat
  let s1 := s.setFld f (s.fld f i ||| v) i
  { s1 with setAt := s.now, setBits := kept.put (f.reg.key i) (BitVec.ofNat 64 (old ||| (v * 2 ^ f.lo))) }

/-- Hardware sets a W1C bit. -/
def State.raise (s : State) (f : Fld) (i : Nat := 0) : State := s.raiseBits f 1 i

/-- The bits of a register that hardware set in this stroke. -/
def State.setNow (s : State) (r : Reg) (i : Nat) : Nat :=
  if s.setAt = s.now then (s.setBits.findD (r.key i) 0).toNat else 0

/-- A field that a read clears (R12). -/
def Fld.isRc (f : Fld) : Bool := f.reg.fields.any (fun d => d.acc == .rc && d.lo == f.lo)

/-- What this stroke has added to RC fields, with one more update (R15). -/
def State.rcAfter (s : State) (f : Fld) (n i : Nat) : RcStroke :=
  let r : RcStroke := if s.rc.at_ = s.now then s.rc else ⟨s.now, [], []⟩
  let k := f.reg.key i
  let sum := (r.added.findD k 0).toNat
  let before := if r.before.has k then r.before else r.before.put k (BitVec.ofNat 64 (s.word f.reg i))
  ⟨s.now, before, r.added.put k (BitVec.ofNat 64 (f.into sum (min (f.get sum + n) (2 ^ f.width - 1))))⟩

/-- An update of an RC field is noted for a read in its stroke (R15). -/
def State.noteRc (s : State) (f : Fld) (n i : Nat) : State := { s with rc := if f.isRc then s.rcAfter f n i else s.rc }

/-- A word of a register as a read in this stroke returns it (R15): `w`, but the RC fields as they stand `now`, without the stroke's
updates. -/
def State.rcWord (s : State) (r : Reg) (i now w : Nat) : Nat :=
  let b := match (if s.rc.at_ = s.now then s.rc.before.find (r.key i) else none) with
    | some x => x.toNat
    | none => now
  r.fields.foldl (fun (x : Nat) d =>
    let f : Fld := ⟨r, d.lo, d.width⟩
    if d.acc == .rc then f.into x (f.get b) else x) w

/-- What a read that clears an RC field leaves of it: the updates of its stroke (R12, R15). -/
def State.rcKept (s : State) (f : Fld) (i : Nat) : Nat :=
  let k := f.reg.key i
  if s.rc.at_ = s.now && s.rc.before.has k then f.get (s.rc.added.findD k 0).toNat else 0

/-- A read clears an RC field: the updates of its stroke are kept (R12, R15). -/
def State.clearRc (s : State) (f : Fld) (i : Nat) : State :=
  let before := s.rc.before.modify (f.reg.key i) (fun b => BitVec.ofNat 64 (f.into b.toNat 0))
  { s.setFld f (s.rcKept f i) i with rc := if s.rc.at_ = s.now then { s.rc with before := before } else s.rc }

/-- A counter field rises. Past its greatest value the spec states no result: a free value (notes/assumptions/3.md). -/
def State.bump (s : State) (f : Fld) (n : Nat := 1) (i : Nat := 0) : State :=
  let v := s.fld f i + n
  let past := decide (2 ^ f.width ≤ v)
  { (s.noteRc f n i).setFld f (if past then Config.counterOverflow s.freeCounter % 2 ^ f.width else v) i with
    freeCounter := if past then s.freeCounter + 1 else s.freeCounter }

/-- A counter field that holds at its greatest value. -/
def State.bumpHold (s : State) (f : Fld) (n : Nat := 1) (i : Nat := 0) : State :=
  (s.noteRc f n i).setFld f (min (s.fld f i + n) (2 ^ f.width - 1)) i

/-- A counter field that counts modulo its size. -/
def State.bumpMod (s : State) (f : Fld) (n : Nat := 1) (i : Nat := 0) : State :=
  (s.noteRc f n i).setFld f ((s.fld f i + n) % 2 ^ f.width) i

/-- Something leaves the device. -/
def State.emit (s : State) (e : Emit) : State := { s with out := s.out ++ [e] }

/-- The first element that a test picks, and the rest. -/
def pickFirst {α : Type} (p : α → Bool) : List α → Option (α × List α)
  | [] => none
  | x :: xs =>
    if p x then some (x, xs)
    else match pickFirst p xs with
      | some (y, ys) => some (y, x :: ys)
      | none => none

/-- The first element that a test picks is changed. -/
def updateFirst {α : Type} (p : α → Bool) (f : α → α) : List α → List α
  | [] => []
  | x :: xs => if p x then f x :: xs else x :: updateFirst p f xs

/-- Every element changed by its index, the first having index `i`. -/
def mapFrom {α : Type} (f : Nat → α → α) (i : Nat) : List α → List α
  | [] => []
  | x :: xs => f i x :: mapFrom f (i + 1) xs

/-- The state after an action for each element of a list, in order. -/
def State.each {α : Type} (s : State) (xs : List α) (f : State → α → State) : State := xs.foldl f s

/-- An action under a condition. -/
def State.when (s : State) (c : Bool) (f : State → State) : State := if c then f s else s

/-- The function that reads or writes holds its own copy of a select register (R294, R417, R624). -/
def Reg.isSelect : Reg → Bool
  | .PIL_TABLE_SEL | .ARY_BANK_SEL | .SCB_SET_SEL | .TEL_CNT_SEL | .TEL_MIRROR_SEL | .BTH_SEL | .BTH_MASTER_SEL
  | .SEC_FREEZE_SEL | .QUY_SEL | .HST_RING_SEL | .MEM_PC_SEL | .HST_WIN_SEL => true
  | _ => false

/-- CRC-32 of stored records (R344): the reflected polynomial of IEEE 802.3, initial value and final inversion of all ones
(notes/assumptions/14.md). -/
def crc32 (bs : Bytes) : Nat :=
  let step (c : Nat) : Nat := if c % 2 = 1 then (c / 2) ^^^ 0xEDB88320 else c / 2
  let one (c : Nat) (b : Byte) : Nat := step (step (step (step (step (step (step (step (c ^^^ b.toNat))))))))
  (bs.foldl one 0xFFFFFFFF) ^^^ 0xFFFFFFFF

end Sys2Proof.Machine
end

