-- ==== Sys2Proof/Machine/Flags.lean ====
section
/-! DEFINITION. The status flags of the fault log (R600 to R606): posting a record sets its class's pending flag and counts it, and
ALERT_N follows from the flags. -/
namespace Sys2Proof.Machine

/-- Free slots of the fault log (R600). -/
def State.faultFree (s : State) : Nat := 4096 - s.faults.held.length

/-- The byte of FLT_ROUTE for a class. -/
def State.route (s : State) (cls : Nat) : Nat := s.fld Fld.FLT_ROUTE_route / 2 ^ (8 * cls) % 256

/-- A record enters behind those of earlier strokes and of lower blocks of this stroke (R600). -/
def FaultLog.insert (l : List FaultRec) (r : FaultRec) : List FaultRec :=
  match l with
  | [] => [r]
  | x :: xs => if x.stamp = r.stamp && r.block < x.block then r :: x :: xs else x :: FaultLog.insert xs r

/-- The count field of a class (FLT_COUNT0). -/
def classCount (cls : Nat) : Fld :=
  match cls with
  | 0 => Fld.FLT_COUNT0_class0
  | 1 => Fld.FLT_COUNT0_class1
  | 2 => Fld.FLT_COUNT0_class2
  | 3 => Fld.FLT_COUNT0_class3
  | _ => Fld.FLT_COUNT0_class4

/-- The vector that FLT_ROUTE names for a class is sent in the next stroke, once (R605). -/
def State.sendVector (s : State) (cls : Nat) : State :=
  let m := Emit.msix 0 (s.route cls / 16 % 8) (s.now + 1)
  { s with out := if (s.route cls).testBit 1 && !s.out.contains m then s.out ++ [m] else s.out }

/-- A write of ones to the pending bits of FLT_STATUS meets bits that records of this stroke set (R14, R605): their vectors are sent
again. -/
def State.resendVectors (s : State) (w : Nat) : State :=
  s.each (List.range 5) (fun t c =>
    if (Fld.FLT_STATUS_pending.get w).testBit c && (Fld.FLT_STATUS_pending.get (s.setNow .FLT_STATUS 0)).testBit c then t.sendVector c else t)

/-- A record is posted to the fault log (R600, R601, R605). -/
def State.postFault (s : State) (cls block : Nat) (bytes : Bytes) : State :=
  let free := s.faultFree
  let kept := if cls ≤ 2 then decide (64 < free) else decide (0 < free)
  let s1 := if kept then
      { s with faults := { s.faults with held := FaultLog.insert s.faults.held ⟨s.now, block, cls, bytes⟩ } }
    else (s.bump Fld.FLT_COUNT1_dropped).raise Fld.FLT_STATUS_overflow
  let s2 := s1.bumpHold (classCount cls)
  let was := (s2.fld Fld.FLT_STATUS_pending).testBit cls
  let s3 := s2.raiseBits Fld.FLT_STATUS_pending (2 ^ cls)
  if was then s3 else s3.sendVector cls

/-- A fault event record (R602, R648). -/
def State.faultEvent (s : State) (code cls block object infoA infoB : Nat) : State :=
  s.postFault cls block ([BitVec.ofNat 8 0x4C, BitVec.ofNat 8 code, BitVec.ofNat 8 cls, BitVec.ofNat 8 block] ++
    leBytes object 4 ++ leBytes s.clock.count 8 ++ leBytes infoA 8 ++ leBytes infoB 8)

/-- ALERT_N is driven low (R606). -/
def State.alertWanted (s : State) : Bool :=
  (List.range 5).any (fun c => (s.fld Fld.FLT_STATUS_pending).testBit c && (s.route c).testBit 0)
    || s.power.tamperHold || s.dramCtl.stackStates.any (·.hot) || s.power.halted

end Sys2Proof.Machine
end

