-- ==== Sys2Proof/Machine/Tenancy.lean ====
section
/-! DEFINITION. Berths, grants and shaping (12_berths_and_shaping.md), masters, roles, violations and freezing
(13_security.md, R426 to R442): the records, their checks, and the shared operations on them. -/
namespace Sys2Proof.Machine

/-- The order of 32-bit sequences (R140): `a` is earlier than `b`. -/
def seqEarlier (a b : Nat) : Bool :=
  let d := (b + 2 ^ 32 - a % 2 ^ 32) % 2 ^ 32
  decide (0 < d) && decide (d < 2 ^ 31)

/-- A well-formed table identifier (R137, R138): ternary 0 to 4,095, direct-index 32,768 to 33,023. -/
def tidOkForm (t : Nat) : Bool := t < 4096 || (0x8000 ≤ t && t ≤ 0x80FF)

/-- A table identifier names a direct-index table. -/
def tidDirect (t : Nat) : Bool := 0x8000 ≤ t

/-- The master that a source's records carry (R315): a quay, or the function that owns a host ring or a window. -/
def quayMaster (q : Nat) : Nat := 0x10000000 + q
/-- The ring neighbour to the west as a master (R315). -/
def westMaster : Nat := 0x20000001
/-- A stream as a master (R315). -/
def streamMaster (n : Nat) : Nat := 0x30000000 + n
/-- The kind of a master identifier (R315). -/
def masterKind (m : Nat) : Nat := m / 2 ^ 28

/-- The key of a source in tables by source, in the order of R100. -/
def sourceKey : Source → Nat
  | .quay q => q
  | .hostRing r => 64 + r
  | .window w => 8192 + w
  | .seed => 9000

/-- The source that a key stands for. -/
def sourceOfKey (k : Nat) : Source :=
  if k < 64 then .quay k else if k < 8192 then .hostRing (k - 64) else if k < 9000 then .window (k - 8192) else .seed

/-- A grant entry of 4 bytes (R397). -/
def Grant.parse (slot : Nat) (bs : Bytes) : Option Grant :=
  let f := byteAt bs 2
  if f.testBit 0 then some ⟨slot, fieldLE bs 0 2, f.testBit 1, f.testBit 2, f.testBit 3⟩ else none

/-- A grant entry is valid (R398). -/
def grantOk (bs : Bytes) : Bool :=
  if (byteAt bs 2).testBit 0 then byteAt bs 2 < 16 && byteAt bs 3 == 0 && tidOkForm (fieldLE bs 0 2)
  else zerosAt bs 0 4

/-- The grants of a BERTH record, from slot `n` on. -/
def parseGrants (bs : Bytes) : Nat → Nat → List Grant
  | _, 0 => []
  | slot, n + 1 =>
    match Grant.parse slot (bs.drop (40 + 4 * slot)) with
    | some g => g :: parseGrants bs (slot + 1) n
    | none => parseGrants bs (slot + 1) n

/-- A BERTH record (R397) as bytes from its byte 0: its berth and its fields. -/
def BerthRec.parse (bs : Bytes) : Nat × BerthRec :=
  (fieldLE bs 4 2 % 16384,
   { ceiling := byteAt bs 6 % 4, shaperEn := (byteAt bs 6).testBit 2, quota := fieldLE bs 8 4, cir := fieldLE bs 16 4,
     cbs := fieldLE bs 20 4, pir := fieldLE bs 24 4, pbs := fieldLE bs 28 4, glyphMask := fieldLE bs 32 8,
     grants := parseGrants bs 0 64 })

/-- A BERTH record is valid (R397, R398). -/
def BerthRec.valid (bs : Bytes) : Bool :=
  let r := (BerthRec.parse bs).2
  bs.length == 296 && fieldLE bs 0 2 == 0x0107 && zerosAt bs 2 2 && fieldLE bs 4 2 < 16384 && byteAt bs 6 < 8
    && zerosAt bs 7 1 && r.quota ≤ 16777216 && zerosAt bs 12 4 && zerosAt bs 23 1 && zerosAt bs 31 1
    && (List.range 64).all (fun n => grantOk (bs.drop (40 + 4 * n)))
    && (!r.shaperEn || (1 ≤ r.cbs && r.cbs ≤ r.pbs && r.cir ≤ r.pir))

/-- A berth (R396). -/
def State.berth (s : State) (b : Nat) : Berth := s.berths.findD b Berth.reset

/-- A berth replaced. -/
def State.setBerth (s : State) (b : Nat) (x : Berth) : State := { s with berths := s.berths.put b x }

/-- A berth holds a right for a table (R404): any valid slot that names it with the right. -/
def BerthRec.right (r : BerthRec) (tid : Nat) (right : Grant → Bool) : Bool := r.grants.any (fun g => g.tid == tid && right g)

/-- The units of every ternary table that a berth owns (R406). -/
def State.berthUnits (s : State) (b : Nat) : Nat :=
  (s.tables.vals.filter (fun t => t.df.owner == b && !tidDirect t.df.tid)).foldl (fun n t => n + t.units) 0

/-- The colours of the shaper (R410). -/
inductive Colour where
  | green | yellow | red
deriving DecidableEq, Repr

/-- The shaper's decision for a cost in lookups, and the berth it leaves (R410, R411). -/
def Berth.shape (b : Berth) (cost : Nat) : Colour × Berth :=
  let c : Int := 65536 * (cost : Int)
  if !b.record.shaperEn then (.green, b)
  else if b.levelP ≤ 0 then (.red, b)
  else if b.levelC ≤ 0 then (.yellow, { b with levelP := b.levelP - c })
  else (.green, { b with levelC := b.levelC - c, levelP := b.levelP - c })

/-- The colour counts (BTH_COLOUR_COUNT). -/
def State.countColour (s : State) (b : Nat) (c : Colour) : State :=
  match c with
  | .green => s.bumpMod Fld.BTH_COLOUR_COUNT_green 1 b
  | .yellow => s.bumpMod Fld.BTH_COLOUR_COUNT_yellow 1 b
  | .red => s.bumpMod Fld.BTH_COLOUR_COUNT_red 1 b

/-- Step 1 of R412: FORGIVE clears debt. -/
def Berth.forgive (b : Berth) : Berth :=
  { b with levelC := max b.levelC 0, levelP := max b.levelP 0, forgivePending := false }

/-- Step 2 of R412: a record takes effect. -/
def Berth.take (b : Berth) (r : BerthRec) : Berth :=
  if r.shaperEn && !b.record.shaperEn then
    { b with record := r, levelC := 65536 * (r.cbs : Int), levelP := 65536 * (r.pbs : Int) }
  else { b with record := r }

/-- Step 3 of R412: refill. A bucket whose rate is 0 keeps its level (R413). -/
def Berth.refill (b : Berth) : Berth :=
  { b with levelC := min (b.levelC + (b.record.cir : Int)) (65536 * (b.record.cbs : Int)),
           levelP := min (b.levelP + (b.record.pir : Int)) (65536 * (b.record.pbs : Int)) }

/-- The refill of a berth whose shaper is off changes no level (R397: no level changes). -/
def Berth.boundary (b : Berth) : Berth := if b.record.shaperEn then b.refill else b

/-- A master (R430). -/
def State.master (s : State) (m : Nat) : Master := s.masters.findD m Master.reset

/-- A master replaced. -/
def State.setMaster (s : State) (m : Nat) (x : Master) : State := { s with masters := s.masters.put m x }

/-- The berth range of a master (R400, R401, R430); a stream's range is its owning berth (R430). -/
def State.berthRange (s : State) (m : Nat) : Nat × Nat :=
  if masterKind m = 3 then (fieldLE (s.dram.read (0x4C000000 + 64 * (m % 2 ^ 20)) 64) 12 2 % 16384, 1)
  else match (s.master m).record with
    | some r => (r.first, r.count)
    | none => if m = 0 then (0, 16384) else (0, 0)

/-- A berth lies in a master's range (R400). -/
def State.inRange (s : State) (m b : Nat) : Bool :=
  let r := s.berthRange m
  r.1 ≤ b && b < r.1 + r.2

/-- The roles (R426). -/
inductive Role where
  | user | supervisor | maint
deriving DecidableEq, Repr

/-- A master holds a role (R426): the supervisor role permits everything the others do. -/
def State.hasRole (s : State) (m : Nat) (r : Role) : Bool :=
  if m = 0 && (!s.cmdAuth || s.recovery) then true
  else match (s.master m).record with
    | none => false
    | some x => match r with
      | .user => x.user || x.supervisor
      | .supervisor => x.supervisor
      | .maint => x.maint || x.supervisor

/-- The MASTER record (R428) in bytes: its master and fields. -/
def MasterRec.parse (bs : Bytes) : Nat × MasterRec :=
  (fieldLE bs 4 4,
   { first := fieldLE bs 8 2 % 16384, count := fieldLE bs 10 2 % 32768, keyId := fieldLE bs 12 2,
     user := (byteAt bs 14).testBit 0, supervisor := (byteAt bs 14).testBit 1, maint := (byteAt bs 14).testBit 2,
     thawMs := fieldLE bs 16 4 })

/-- The use code of a command-authentication key in KEYS (R93). -/
def keyUseCommand : Nat := 2

/-- A MASTER record is valid (R428, R429). -/
def State.masterValid (s : State) (bs : Bytes) : Bool :=
  let m := (MasterRec.parse bs).1
  let r := (MasterRec.parse bs).2
  bs.length == 24 && fieldLE bs 0 2 == 0x0108 && zerosAt bs 2 2 && masterKind m < 3 && m / 2 ^ 24 % 16 == 0 && fieldLE bs 8 2 < 16384
    && fieldLE bs 10 2 < 32768 && r.first + r.count ≤ 16384
    && (r.keyId == 0xFFFF || s.security.keys.any (fun k => k.keyId == r.keyId && k.use == keyUseCommand))
    && byteAt bs 14 < 8 && zerosAt bs 15 1 && r.thawMs ≤ 60000 && !(m == 0 && r.thawMs == 0) && zerosAt bs 20 4

/-- A master record takes effect (R431): it replaces the record whole; a changed key_id restarts the cookie (R434), and the
session key is derived afresh (R421, R432). -/
def State.takeMaster (s : State) (m : Nat) (r : MasterRec) : State :=
  let x := s.master m
  let oldKey := match x.record with | some o => o.keyId | none => 0xFFFF
  let x1 := { x with record := some r, lastCookie := if oldKey = r.keyId then x.lastCookie else 0 }
  let key := (s.security.keys.find? (fun k => k.keyId == r.keyId && k.use == keyUseCommand)).map (fun k => k.value)
  { s.setMaster m x1 with
      security := { s.security with sessions := match key with
        | some k => if r.keyId = 0xFFFF then s.security.sessions.del m
            else s.security.sessions.put m (sessionKey k (leBytes s.security.bootNonce 16) m)
        | none => s.security.sessions.del m } }

/-- The auto-thaw time of a master in milliseconds (R428, R430). -/
def State.thawMs (s : State) (m : Nat) : Nat :=
  let x := s.master m
  match x.record with
  | some r => r.thawMs
  | none => if masterKind m = 3 then x.streamThawMs else 1000

/-- A security record (R442). -/
def State.securityRecord (s : State) (event cause master info thaw : Nat) : State :=
  let cls := if event = 1 then 1 else if event = 2 then 0 else 4
  s.postFault cls 0x7 ([BitVec.ofNat 8 0x48, BitVec.ofNat 8 event, BitVec.ofNat 8 cause, 0] ++ leBytes master 4 ++
    leBytes s.clock.count 8 ++ leBytes info 4 ++ leBytes thaw 4 ++ zeros 8)

/-- The master is frozen in the stroke now (R437). -/
def State.frozen (s : State) (m : Nat) : Bool :=
  match (s.master m).freeze with
  | some f => f.fromStroke ≤ s.now
  | none => false

/-- Any master is frozen (SEC_STATUS.frozen_any). -/
def State.frozenAny (s : State) : Bool := s.masters.vals.any (fun x => match x.freeze with
  | some f => f.fromStroke ≤ s.now
  | none => false)

/-- The tides of an auto-thaw timer (R440). -/
def thawTides (ms : Nat) : Nat := (ms * 5859375 + 999) / 1000

/-- A freeze that begins at a stroke, in grid tide `f` (R437, R440). -/
def State.newFreeze (s : State) (m cause info fromStroke : Nat) : State :=
  let f := fromStroke / 256
  let ms := s.thawMs m
  let at_ := f + thawTides ms + 1
  let count := (s.clock.count + (at_ - s.clock.grid)) % 2 ^ 64
  let fr : Freeze :=
    { cause := cause, since := f, thawAt := if ms = 0 then none else some at_,
      thawCount := if ms = 0 then 0xFFFFFFFF else count % 2 ^ 32, fromStroke := fromStroke, thawAccepted := none, again := none }
  let s1 := s.setMaster m { s.master m with freeze := some fr }
  s1.securityRecord 0x01 cause m info fr.thawCount

/-- The freeze's thaw boundary is the end of this tide, and a violation now freezes the master again (R441). -/
def State.thawEnds (s : State) (f : Freeze) : Bool :=
  (match f.thawAccepted with
   | some (tide, acc, _) => tide == s.clock.grid + 1 && acc ≤ s.now
   | none => false) || f.thawAt == some (s.clock.grid + 1)

/-- A violation by a master is detected in this stroke (R437, R438, R441). -/
def State.violation (s : State) (m cause info : Nat) : State :=
  match (s.master m).freeze with
  | none => s.newFreeze m cause info (s.now + 1)
  | some f =>
    let s1 := s.bumpHold Fld.SEC_FREEZE_INFO_violations 1 m
    if s.thawEnds f && f.again.isNone then s1.setMaster m { s1.master m with freeze := some { f with again := some (cause, info) } }
    else s1

/-- A thaw is accepted for a master (R440): by command (info 1) or by register (info 2). The earliest one acts. -/
def State.thawRequest (s : State) (m info : Nat) : State :=
  match (s.master m).freeze with
  | none => s
  | some f =>
    match f.thawAccepted with
    | some _ => s
    | none => s.setMaster m { s.master m with freeze := some { f with thawAccepted := some (s.dueTide, s.now, info) } }

/-- The thaw of one master at the boundary that opens the present grid tide (R440, R441). -/
def State.thawMaster (s : State) (m : Nat) : State :=
  match (s.master m).freeze with
  | none => s
  | some f =>
    let info : Option Nat := match f.thawAccepted with
      | some (tide, _, i) => if tide ≤ s.clock.grid then some i else (if f.thawAt == some s.clock.grid then some 3 else none)
      | none => if f.thawAt == some s.clock.grid then some 3 else none
    match info with
    | none => s
    | some i =>
      match f.again with
      | some (cause, cookie) => s.newFreeze m cause cookie s.now
      | none => (s.setMaster m { s.master m with freeze := none }).securityRecord 0x02 0 m i 0

/-- All thaws of a boundary (R646 rank 2). -/
def State.thawAll (s : State) : State := s.each s.masters.keys State.thawMaster

/-- All the shapers at a boundary (R412), after the records of the boundary. -/
def State.refillAll (s : State) : State := { s with berths := s.berths.map (fun p => (p.1, p.2.boundary)) }

end Sys2Proof.Machine
end

