-- ==== Sys2Proof/Machine/Links.lean ====
section
/-! DEFINITION. The links of lanes (14_quay_links.md; R486 for the ring ports): configuration, states, widths, credits, frames,
replay, the transmitter, and failover. The meanings of the link commands stand in LinkRx.lean. -/
namespace Sys2Proof.Machine

/-- The width code of a codeword (R449, R486); 3 stands for none on a quay. -/
def widthCode (w : Nat) : Nat :=
  match w with
  | 8 => 0
  | 4 => 1
  | 2 => 2
  | _ => 3

/-- The width in lanes of a LINKS width code of a quay (R473). -/
def quayWidth (code : Nat) : Nat :=
  match code with
  | 0 => 8
  | 1 => 4
  | _ => 2

/-- The link of a port. -/
def State.link (s : State) (p : Port) : Link :=
  match p with
  | .quay q => s.links.quays.findD q Link.reset
  | .east => s.links.east
  | .west => s.links.west

/-- The link of a port replaced; a logical quay that LINKS does not configure stays unused (R448). -/
def State.setLink (s : State) (p : Port) (l : Link) : State :=
  match p with
  | .quay q => if s.links.quays.has q then { s with links := { s.links with quays := s.links.quays.put q l } } else s
  | .east => { s with links := { s.links with east := l } }
  | .west => { s with links := { s.links with west := l } }

/-- A port is configured. -/
def State.hasPort (s : State) (p : Port) : Bool :=
  match p with
  | .quay q => s.links.quays.has q
  | _ => s.links.record.ringEnable

/-- The logical quay of a port, where it is one. -/
def portQuay : Port → Option Nat
  | .quay q => some q
  | _ => none

/-- The index of a port in per-quay registers. -/
def portIndex : Port → Nat
  | .quay q => q
  | .east => 48
  | .west => 49

/-- A W1C bit of QUY_STATUS is set for a logical quay; a ring port has no such bits (RNG_PORT_STATUS). -/
def State.raiseQuay (s : State) (p : Port) (f : Fld) : State :=
  match p with
  | .quay q => s.raise f q
  | _ => s

/-- The physical lanes of a block of the configured lanes are all usable. -/
def Link.blockUsable (l : Link) (lo w : Nat) : Bool :=
  ((l.lanes.drop lo).take w).length == w && ((l.lanes.drop lo).take w).all (fun x => x.usable && !x.retired)

/-- The widest aligned block of usable lanes, at least min_width wide, the lowest first (R477, R479). -/
def Link.choose (l : Link) : Option (Nat × Nat) :=
  let widths := [l.fullWidth, l.fullWidth / 2, l.fullWidth / 4].filter (fun w => l.minWidth ≤ w && 0 < w)
  let blocks := widths.flatMap (fun w => (List.range (l.fullWidth / w)).map (fun i => (i * w, w)))
  blocks.find? (fun b => l.blockUsable b.1 b.2)

/-- The retired lanes as a mask of physical lanes. -/
def Link.retiredMask (l : Link) : Nat :=
  ((List.range l.lanes.length).map (fun i => match l.lanes[i]? with
    | some x => if x.retired then 2 ^ (l.laneBase + i) else 0
    | none => 0)).foldl (fun a b => a + b) 0

/-- A retrain of any lane runs. -/
def Link.retraining (l : Link) : Bool := l.lanes.any (·.retraining)

/-- One lane changed, by physical lane number. -/
def Link.mapLane (l : Link) (lane : Nat) (f : Lane → Lane) : Link :=
  { l with lanes := mapFrom (fun i x => if i = lane then f x else x) l.laneBase l.lanes }

/-- A lane by physical number. -/
def Link.lane (l : Link) (lane : Nat) : Option Lane := if lane < l.laneBase then none else l.lanes[lane - l.laneBase]?

/-- A new link from LINKS: full and least width, first physical lane, usable mask, pools, failover group, watermarks. -/
def Link.configured (full least base mask : Nat) (pools : List Nat) (group : Option Nat) (high low : Nat) : Link :=
  { Link.reset with
      fullWidth := full, minWidth := least, laneBase := base, poolSize := pools, group := group, xoffHigh := high,
      xoffLow := low, charged := pools.map (fun _ => 0), limits := pools.map (fun _ => 0),
      lanes := (List.range full).map (fun i => ⟨mask.testBit (base + i), false, false, 0, false, 0⟩) }

/-- The session of a link at its start: sequences, replay buffer, counts and limits at 0 (R476, R480). -/
def Link.clearSession (l : Link) : Link :=
  { l with
      rxExpect := 0, txNext := 0, nak := false, replayFrom := none, replay := [], charged := l.poolSize.map (fun _ => 0),
      limits := l.poolSize.map (fun _ => 0), peerLimit := 0, peerCharged := 0, partialRec := [], afterRecord := 0,
      initSent := false, doneSent := false, doneSeen := false, widthTo := none, widthAcked := false, manifestSeq := none }

/-- A link is UP. -/
def Link.up (l : Link) : Bool := l.state == .up

/-- The lowest-numbered UP member of a quay's failover group (R481). -/
def State.failover (s : State) (q : Nat) : Option Nat :=
  match (s.link (.quay q)).group with
  | none => none
  | some g => (s.links.quays.filter (fun p => p.2.up && p.2.group == some g && p.1 != q)).head?.map (·.1)

/-- A result or completion is lost (R481). -/
def State.loseRecords (s : State) (q results completions : Nat) : State :=
  if results + completions = 0 then s
  else (s.bump Fld.QUY_RESULT_COUNT_lost (results + completions) q).faultEvent 0x0F 3 0x8 q results completions

/-- The header of a REDIRECT (R481). -/
def redirectHeader (origin : Nat) (rec : Bytes) : Bytes :=
  [BitVec.ofNat 8 0x13, BitVec.ofNat 8 origin] ++ leBytes (1 + rec.length / 8) 2 ++ zeros 4

/-- A record is sent as a REDIRECT on a group member that is UP (R481); the answer says whether there was one. -/
def State.redirect (s : State) (origin : Nat) (isResult again : Bool) (rec : Bytes) : State × Bool :=
  match s.failover origin with
  | none => (s, false)
  | some t =>
    let l := s.link (.quay t)
    let s1 := s.setLink (.quay t) { l with tx := l.tx ++ [⟨.redirect origin isResult 0 0, redirectHeader origin rec ++ rec, 0⟩] }
    let s2 := if again then s1 else
      let o := s1.link (.quay origin)
      (s1.setLink (.quay origin) { o with redirected := o.redirected + 1 }).bump Fld.QUY_RESULT_COUNT_redirected 1 origin
    (s2.emit (.offered t (redirectHeader origin rec ++ rec)), true)

/-- The records of a quay that went down go out by REDIRECT or are lost; secondary records stay held (R481). The count is of the
results and completions lost. -/
def State.redirectAll (s : State) (q : Nat) : List TxRecord → State × Nat × Nat
  | [] => (s, 0, 0)
  | r :: rest =>
    match r.kind with
    | .result _ _ =>
      let (s1, ok) := s.redirect q true false r.bytes
      let (s2, a, b) := State.redirectAll s1 q rest
      (s2, if ok then a else a + 1, b)
    | .completion =>
      let (s1, ok) := s.redirect q false false r.bytes
      let (s2, a, b) := State.redirectAll s1 q rest
      (s2, a, if ok then b else b + 1)
    | .redirect origin isResult _ _ =>
      let body := r.bytes.drop 8
      let (s1, ok) := s.redirect origin isResult true body
      let s2 := if ok then s1 else s1.loseRecords origin (b2n isResult) (b2n (!isResult))
      State.redirectAll s2 q rest
    | _ => State.redirectAll s q rest

/-- The secondary records of a transmit buffer, which a quay that goes down keeps for its producers (R468, R482). -/
def keptSecondary (tx : List TxRecord) : List TxRecord :=
  (tx.filter (fun r => r.kind == .secondary || r.kind == .manifest)).map (fun r => { r with sent := 0 })

/-- A DOWN link starts training, or fails for want of lanes (the state table, R479). -/
def State.bringUp (s : State) (p : Port) : State :=
  let l := s.link p
  match l.choose with
  | none =>
    let s1 := s.setLink p { l with state := .failed, width := 0, since := s.now }
    match p with
    | .quay q => s1.faultEvent 0x02 2 0x8 q l.retiredMask 0
    | _ => s1
  | some (lo, w) =>
    s.setLink p { l with
        state := .train, lo := lo, width := w, since := s.now,
        lanes := l.lanes.map (fun x => { x with locked := false, retraining := false }) }

/-- A link goes DOWN for a cause of R602 and begins bring-up again (R480, R481). A ring port that leaves UP puts the member into
its solo epoch at the next boundary (R504). -/
def State.linkDown (s : State) (p : Port) (cause : Nat) : State :=
  let l := s.link p
  if l.state == .off || l.state == .failed then s
  else
    let wasUp := l.up
    let tx := l.tx
    let s1 := s.setLink p { l.clearSession with state := .down, tx := keptSecondary tx, ctl := [], since := s.now }
    let s2 := match p with
      | .quay q =>
        let (a, lostR, lostC) := s1.redirectAll q tx
        let b := a.loseRecords q lostR lostC
        let c := if wasUp then b.raise Fld.QUY_STATUS_went_down q else b
        c.faultEvent 0x01 1 0x8 q cause (c.link p).redirected
      | _ => if wasUp && s1.ring.joined && !s1.ring.solo then
          { s1 with ring := { s1.ring with soloNext := some 1 } } else s1
    s2.bringUp p

/-- A link goes DOWN and then OFF (QUY_CTL.enable 0). -/
def State.linkOff (s : State) (p : Port) (cause : Nat) : State :=
  let s1 := s.linkDown p cause
  if s1.hasPort p then s1.setLink p { s1.link p with state := .off, width := 0 } else s1

/-- A link enters UP (R476): sequences, counts and limits at 0, then the limits at the pool sizes once the device serves. -/
def State.linkUp (s : State) (p : Port) : State :=
  let l := (s.link p).clearSession
  let limits := if s.serving then l.poolSize else l.poolSize.map (fun _ => 0)
  s.setLink p { l with state := .up, limits := limits, lastFrame := s.now, since := s.now, redirected := 0 }

/-- The limits of every UP link rise to the pool sizes when the device begins to serve (R467, R476). -/
def State.grantCredits (s : State) : State :=
  let up := fun (l : Link) => if l.up then
    { l with limits := (List.range l.poolSize.length).map (fun i => (l.charged.getD i 0 + l.poolSize.getD i 0) % 65536) } else l
  { s with links := { s.links with quays := s.links.quays.map (fun x => (x.1, up x.2)), east := up s.links.east,
                                   west := up s.links.west } }

/-- A charge fits below a limit (R464, R466). -/
def creditFits (limit count charge : Nat) : Bool := (limit + 2 * 65536 - count - charge) % 65536 < 32768

/-- The charge of a record received on a quay and its pool (R465): search requests by qclass as sent, chunks, commands. -/
def quayCharge (rec : Bytes) : Nat × Nat :=
  let words := (rec.length + 7) / 8
  match byteAt rec 0 with
  | 0x10 =>
    let nlook := byteAt rec 1 / 4 % 8
    let n := if 1 ≤ nlook && nlook ≤ 4 then nlook else 0
    (byteAt rec 1 % 4, max words (1 + 5 * n))
  | 0x20 => (4, words)
  | _ => (5, words)

/-- A pool's limit rises by a charge that is returned (R465). -/
def Link.returnCredit (l : Link) (pool n : Nat) : Link :=
  { l with limits := (List.range l.limits.length).map (fun i => (l.limits.getD i 0 + (if i = pool then n else 0)) % 65536) }

/-- A pool's count rises by a charge. -/
def Link.charge (l : Link) (pool n : Nat) : Link :=
  { l with charged := (List.range l.charged.length).map (fun i => (l.charged.getD i 0 + (if i = pool then n else 0)) % 65536) }

/-- The credit of a record that came from a source is returned, and its place in a window's FIFO is freed (R465, R536). A quay
that has left UP since has nothing outstanding. -/
def State.releaseRecord (s : State) (src : Source) (rec : Bytes) : State :=
  match src with
  | .quay q =>
    let l := s.link (.quay q)
    if l.up && !s.intakeStopped then s.setLink (.quay q) (l.returnCredit (quayCharge rec).1 (quayCharge rec).2) else s
  | .window w =>
    { s with host := { s.host with windows := s.host.windows.modify w (fun x =>
        { x with held := x.held - rec.length, freed := x.freed + rec.length }) } }
  | _ => s

/-- The words of a physical quay's completion and secondary buffer in use (R470). -/
def State.secondaryWords (s : State) (q : Nat) : Nat :=
  ((s.links.quays.filter (fun p => p.1 / 4 == q / 4)).map (fun p =>
    ((p.2.tx.filter (fun r => match r.kind with
      | .result _ _ => false
      | .redirect _ _ _ _ => false
      | _ => true)).map (fun r => r.bytes.length / 8)).foldl (fun a b => a + b) 0)).foldl (fun a b => a + b) 0

/-- A secondary record of a length in words has room on a quay that is UP: in its buffer and below the peer's limit (R468). -/
def State.quayRoom (s : State) (q words : Nat) : Bool :=
  let l := s.link (.quay q)
  l.up && s.secondaryWords q + words ≤ 2048 && creditFits l.peerLimit (l.peerCharged +
    ((l.tx.filter (fun r => match r.kind with
      | .result _ _ => false
      | .redirect _ _ _ _ => false
      | _ => true)).map (fun r => r.bytes.length / 8)).foldl (fun a b => a + b) 0) words

/-- The quay's completion space holds the 133 words of the largest completion (R469). -/
def State.completionRoom (s : State) (q : Nat) : Bool := s.secondaryWords q + 133 ≤ 2048

/-- A result is offered to its quay (R457, R481). -/
def State.offerResult (s : State) (q : Nat) (rec : Bytes) (pool words : Nat) : State :=
  let l := s.link (.quay q)
  if l.up then
    (s.setLink (.quay q) { l with tx := l.tx ++ [⟨.result pool words, rec, 0⟩] }).emit (.offered q rec)
  else
    let (s1, ok) := s.redirect q true false rec
    if ok then s1 else s1.loseRecords q 1 0

/-- A completion is offered to its quay (R468, R481). -/
def State.offerCompletion (s : State) (q : Nat) (rec : Bytes) : State :=
  let l := s.link (.quay q)
  if l.up then
    (s.setLink (.quay q) { l with tx := l.tx ++ [⟨.completion, rec, 0⟩] }).emit (.offered q rec)
  else
    let (s1, ok) := s.redirect q false false rec
    if ok then s1 else s1.loseRecords q 0 1

/-- A secondary record that has room is offered to its quay (R468). -/
def State.offerSecondary (s : State) (q : Nat) (kind : TxKind) (rec : Bytes) : State :=
  let l := s.link (.quay q)
  (s.setLink (.quay q) { l with tx := l.tx ++ [⟨kind, rec, 0⟩] }).emit (.offered q rec)

/-- A record may be put on the lanes now: results always; REDIRECTs after the quay's own results; others within the peer's
limit (R468, R481). A record begun goes on first. -/
def Link.sendable (l : Link) (r : TxRecord) : Bool :=
  0 < r.sent || match r.kind with
    | .result _ _ => true
    | .redirect _ _ _ _ => !(l.tx.any (fun x => match x.kind with
        | .result _ _ => true
        | _ => false))
    | _ => creditFits l.peerLimit l.peerCharged (r.bytes.length / 8)

/-- A record is charged against the peer's secondary limit (R468). -/
def TxKind.charged : TxKind → Bool
  | .result _ _ => false
  | .redirect _ _ _ _ => false
  | _ => true

/-- The payload of one DATA frame: up to 37 words of the records queued, with the start bits (R454), and the link it leaves. A
result whose last word is placed returns its credit (R465). -/
def Link.pack (l : Link) : Nat → Nat → Link × List Bytes × Nat
  | 0, _ => (l, [], 0)
  | fuel + 1, at_ =>
    let order := match pickFirst (fun r => 0 < r.sent) l.tx with
      | some x => some x
      | none => pickFirst l.sendable l.tx
    match order with
    | none => (l, [], 0)
    | some (r, rest) =>
      let word := (r.bytes.drop (8 * r.sent)).take 8
      let start := r.sent = 0
      let l1 := if start && r.kind.charged then { l with peerCharged := (l.peerCharged + r.bytes.length / 8) % 65536 } else l
      let last := r.bytes.length ≤ 8 * (r.sent + 1)
      let l2 := if last then
          let l3 := { l1 with tx := rest }
          match r.kind with
          | .result pool words => l3.returnCredit pool words
          | .manifest => { l3 with manifestSeq := some l3.txNext }
          | _ => l3
        else { l1 with tx := { r with sent := r.sent + 1 } :: rest }
      let (l4, ws, starts) := Link.pack l2 fuel (at_ + 1)
      (l4, word :: ws, starts + (if start then 2 ^ at_ else 0))

/-- The bytes of a frame (R453, R454): kind, sequence number, starts and payload; ack, nak and one pool's limit of the link. -/
def Link.frame (l : Link) (kind seq starts : Nat) (payload : Bytes) : Bytes :=
  let cclass := l.rotation % (max 1 l.poolSize.length)
  let head := leBytes seq 3 ++ leBytes l.rxExpect 3 ++ [BitVec.ofNat 8 (kind + 4 * b2n l.nak + 8 * cclass), 0] ++
    leBytes (l.limits.getD cclass 0) 2 ++ leBytes starts 5 ++ zeros 1
  let body := head ++ (payload ++ zeros (296 - payload.length)) ++ zeros 4
  body ++ leBytes (crc32 body) 4

/-- The control message that the state of a link sends (R475): INIT, INIT_DONE or WIDTH; else one that waits (CENSUS). -/
def Link.control (l : Link) : Option Bytes :=
  match l.state with
  | .initing => some (if l.doneSent then [BitVec.ofNat 8 2] ++ zeros 7 else [BitVec.ofNat 8 1, BitVec.ofNat 8 (widthCode l.width)] ++ zeros 6)
  | .up => match l.ctl with
    | c :: _ => some c
    | [] => match if l.widthAcked then none else l.widthTo with
      | some (lo, w, cw) => some ([BitVec.ofNat 8 3, BitVec.ofNat 8 (widthCode w), BitVec.ofNat 8 (if w < l.width && lo != l.lo then 1 else 0), 0] ++
          leBytes cw 2 ++ zeros 2)
      | none => none
  | _ => none

/-- The room for new DATA frames in the replay buffer: 128 frames of a physical quay in equal parts (R462). -/
def Link.replayPart (l : Link) : Nat := if l.fullWidth = 0 then 0 else if 8 < l.fullWidth then 128 else 16 * l.fullWidth

/-- The next frame of a link, and the link after it: a control message, new DATA, or IDLE (R454, R462). -/
def Link.nextFrame (l : Link) (now : Nat) : Link × Bytes :=
  match l.control with
  | some c => ({ l with rotation := (l.rotation + 1) % 6, ctl := if l.state == .up then l.ctl.drop 1 else l.ctl },
               l.frame 2 l.txNext 0 c)
  | none =>
    if l.up && l.replay.length < l.replayPart then
      let (l1, ws, starts) := l.pack 37 0
      if ws.isEmpty then ({ l with rotation := (l.rotation + 1) % 6 }, l.frame 0 l.txNext 0 [])
      else
        let f := l1.frame 1 l.txNext starts ws.flatten
        ({ l1 with rotation := (l.rotation + 1) % 6, txNext := (l.txNext + 1) % 2 ^ 24,
                   replay := l1.replay ++ [⟨l.txNext, f, now, 0⟩] }, f)
    else ({ l with rotation := (l.rotation + 1) % 6 }, l.frame 0 l.txNext 0 [])

/-- The link carries codewords: in ALIGN, INIT and UP (the state table). -/
def Link.sends (l : Link) : Bool := l.state == .align || l.state == .initing || l.state == .up

/-- A result that returns no credit, while no climit is raised (R582). -/
def TxRecord.keepCredit (r : TxRecord) : TxRecord :=
  match r.kind with
  | .result pool _ => { r with kind := .result pool 0 }
  | _ => r

/-- The codeword numbered `a` stands before the one numbered `b` (R140 taken modulo 2^16). -/
def codewordBelow (a b : Nat) : Bool :=
  let d := (b + 65536 - a % 65536) % 65536
  0 < d && d < 32768

/-- A confirmed width change is made. -/
def Link.forceWidth (l : Link) : Link :=
  match if l.widthAcked then l.widthTo else none with
  | some (lo, w, _) => { l with lo := lo, width := w, widthTo := none, widthAcked := false }
  | none => l

/-- A confirmed width change applies from the codeword that its WIDTH names (R475, R477). -/
def Link.takeWidth (l : Link) : Link :=
  match l.widthTo with
  | some (_, _, cw) => if codewordBelow l.cwNum cw then l else l.forceWidth
  | none => l

/-- A link replaced that may have taken a width change: a narrower one is noted (QUY_STATUS.narrowed). -/
def State.setWidth (s : State) (p : Port) (l : Link) : State :=
  let s1 := s.setLink p l
  if l.width < (s.link p).width then s1.raiseQuay p Fld.QUY_STATUS_narrowed else s1

/-- One codeword of two frames leaves a port (R449, R454). -/
def State.transmit (s : State) (p : Port) : State :=
  let l0 := (s.link p).takeWidth
  let l := if s.intakeStopped then { l0 with tx := l0.tx.map TxRecord.keepCredit } else l0
  if !s.hasPort p || !l.sends then s
  else
    let (l1, f0) := l.nextFrame s.now
    let (l2, f1) := l1.nextFrame s.now
    (s.setWidth p { l2 with cwNum := (l.cwNum + 1) % 65536 }).emit (.codeword p l.cwNum (widthCode l.width) f0 f1)

/-- `a` is below `b` in the 24-bit order of frame numbers (R140 taken modulo 2^24, R459). -/
def frameBelow (a b : Nat) : Bool :=
  let d := (b + 2 ^ 24 - a % 2 ^ 24) % 2 ^ 24
  0 < d && d < 2 ^ 23

/-- A kept frame is sent again: unchanged except for ack, nak, cclass and climit (R461), which the rotation of R467 gives. -/
def Link.resend (l : Link) (f : Bytes) : Link × Bytes :=
  let cclass := l.rotation % (max 1 l.poolSize.length)
  let body := f.take 3 ++ leBytes l.rxExpect 3 ++ [BitVec.ofNat 8 (1 + 4 * b2n l.nak + 8 * cclass), 0] ++
    leBytes (l.limits.getD cclass 0) 2 ++ ((f.drop 10).take 306)
  ({ l with rotation := (l.rotation + 1) % 6 }, body ++ leBytes (crc32 body) 4)

/-- Frames are sent again two to a codeword, the codewords numbered on (R449); an IDLE frame goes beside a last one that is alone
(notes/assumptions/140.md). -/
def Link.resendAll (p : Port) (l : Link) : List Bytes → Link × List Emit
  | [] => (l, [])
  | [f] =>
    let a := l.takeWidth.resend f
    ({ a.1 with rotation := (a.1.rotation + 1) % 6, cwNum := (l.cwNum + 1) % 65536 },
      [.codeword p l.cwNum (widthCode a.1.width) a.2 (a.1.frame 0 a.1.txNext 0 [])])
  | f :: g :: rest =>
    let a := l.takeWidth.resend f
    let b := a.1.resend g
    let r := Link.resendAll p { b.1 with cwNum := (l.cwNum + 1) % 65536 } rest
    (r.1, .codeword p l.cwNum (widthCode a.1.width) a.2 b.2 :: r.2)

/-- A replay from frame `n` (R461, R463): every kept frame from it on is sent again with its replays counted; a frame already
replayed 16 times takes the link down (cause 2). -/
def State.replay (s : State) (p : Port) (n : Nat) : State :=
  let l := s.link p
  let again := l.replay.filter (fun f => !frameBelow f.seq n)
  if again.isEmpty then s
  else if again.any (fun f => 16 ≤ f.replays) then s.linkDown p 2
  else
    let r := l.resendAll p (again.map (·.bytes))
    let l1 := { r.1 with
      replayFrom := some (n, s.now),
      replay := l.replay.map (fun f => if frameBelow f.seq n then f else { f with sentAt := s.now, replays := f.replays + 1 }) }
    let s1 := (s.setWidth p l1).raiseQuay p Fld.QUY_STATUS_replay
    let s2 := match p with
      | .quay q => s1.bump Fld.QUY_ERR_COUNT_replays 1 q
      | _ => s1
    { s2 with out := s2.out ++ r.2 }

/-- The link acknowledges frames below `ack` (R461). -/
def Link.acked (l : Link) (ack : Nat) : Link := { l with replay := l.replay.filter (fun f => !frameBelow f.seq ack) }

/-- The lanes that a link has now or, while a narrowing waits to apply, will have: the first and how many. -/
def Link.target (l : Link) : Nat × Nat :=
  match l.widthTo with
  | some (lo, w, _) => if w < l.width then (lo, w) else (l.lo, l.width)
  | none => (l.lo, l.width)

/-- A lane lies within the current width of a link. -/
def Link.carries (l : Link) (lane : Nat) : Bool := l.laneBase + l.lo ≤ lane && lane < l.laneBase + l.lo + l.width

/-- The half of the lanes of a link that excludes a lane (R477): its first lane and its width; all of them where a narrowing that
waits excludes the lane already. -/
def Link.otherHalf (l : Link) (lane : Nat) : Nat × Nat :=
  let (lo, w) := l.target
  if lane < l.laneBase + lo || l.laneBase + lo + w ≤ lane then (lo, w)
  else (if lane < l.laneBase + lo + w / 2 then lo + w / 2 else lo, w / 2)

/-- The half that excludes a lane serves (R479). -/
def Link.narrows (l : Link) (lane : Nat) : Bool :=
  let (lo, half) := l.otherHalf lane
  l.minWidth ≤ half && half != 0 && l.blockUsable lo half

/-- A lane begins a retrain (R477, R478). -/
def Lane.retrain (x : Lane) (now : Nat) : Lane :=
  { x with locked := false, retraining := true, retrains := min 63 (x.retrains + 1), since := now }

/-- A WIDTH to the half without a lane is sent, for a codeword 16 beyond the current one (R477). -/
def Link.narrowTo (l : Link) (lane : Nat) : Link :=
  let (lo, half) := l.otherHalf lane
  { l with widthTo := some (lo, half, (l.cwNum + 16) % 65536), widthAcked := false }

/-- A lane is narrowed away before its retrain (R477, R479). Where no half serves, the link goes DOWN; no cause is given for that, so
it is a free value. -/
def State.narrow (s : State) (p : Port) (lane : Nat) : State :=
  let l := s.link p
  if !l.up || !l.carries lane then s
  else if (l.otherHalf lane) == l.target then s.setLink p (l.mapLane lane (fun x => if x.retraining then x else x.retrain s.now))
  else if !l.narrows lane then
    { s.linkDown p (Config.freeNat s.freeCounter) with freeCounter := s.freeCounter + 1 }
  else s.setLink p ((l.narrowTo lane).mapLane lane (fun x => x.retrain s.now))

/-- The object of LANE_RETIRED (R602). -/
def laneObject : Port → Nat
  | .quay q => q
  | .east => 0x100
  | .west => 0x101

/-- A lane is retired (R478): LANE_RETIRED is posted with the new width code. -/
def State.retireLane (s : State) (p : Port) (lane : Nat) : State :=
  let l := (s.link p).mapLane lane (fun x => { x with locked := false, retired := true, retraining := false })
  let s1 := (s.setLink p l).raiseQuay p Fld.QUY_STATUS_lane_retired
  let w := match l.widthTo with
    | some (_, w, _) => w
    | none => l.width
  s1.faultEvent 0x03 2 (match p with | .quay _ => 0x8 | _ => 0x9) (laneObject p) lane (widthCode w)

/-- Ingress words of a physical quay (R470): requests not dispatched, chunks not assigned and commands not taken. -/
def State.ingressWords (s : State) (pq : Nat) : Nat :=
  let fromQuay := fun (src : Source) => match src with
    | .quay q => q / 4 == pq
    | _ => false
  ((s.search.waiting.filter (fun r => fromQuay r.src)).map (fun r => (r.record.length + 7) / 8)).foldl (fun a b => a + b) 0 +
  ((s.scribes.queue.filter (fun (c : Chunk) => fromQuay c.src && !c.credited)).map (fun c => (c.record.length + 7) / 8)).foldl
    (fun a b => a + b) 0 +
  ((s.cmds.fifos.filter (fun f => f.1 < 48 && f.1 / 4 == pq)).map (fun f =>
    (f.2.map (fun c => (c.record.length + 7) / 8)).foldl (fun a b => a + b) 0)).foldl (fun a b => a + b) 0

/-- The level of QXOFFq (R471), from its level before. -/
def State.qxoff (s : State) (pq : Nat) (was : Bool) : Bool :=
  let ls := s.links.quays.filter (fun x => x.1 / 4 == pq)
  let words := s.ingressWords pq
  let high := match ls.head? with
    | some x => x.2.xoffHigh
    | none => 100
  let low := match ls.head? with
    | some x => x.2.xoffLow
    | none => 100
  if ls.any (fun x => !x.2.up) || !s.serving || s.power.tamperHold || s.intakeStopped || 8192 * high ≤ 100 * words then true
  else if 100 * words ≤ 8192 * low then false else was

end Sys2Proof.Machine
end

