-- ==== Sys2Proof/Machine/Codeword.lean ====
section
/-! DEFINITION. What the lanes of a port carry for a codeword of two frames (R449 to R451), and what a receiver takes from it. A codeword
is one number here: bit 0 is the bit that R449 takes first. -/
namespace Sys2Proof.Machine

/-- The codeword control (R449): cw_num and width, the reserved bits 0. -/
def codewordControl (num width : Nat) : Nat := num % 65536 + 65536 * (width % 4)

/-- One step of the generator x^31 + x^28 + 1 (R451): its next state and the bit it gives (notes/assumptions/141.md). -/
def prbsStep (r : Nat) : Nat × Nat :=
  let b := (b2n (r.testBit 30) + b2n (r.testBit 27)) % 2
  ((2 * r + b) % 2 ^ 31, b)

/-- The first `n` bits of the generator from a state, the first in bit 0. -/
def prbsBits : Nat → Nat → Nat
  | 0, _ => 0
  | n + 1, r => (prbsStep r).2 + 2 * prbsBits n (prbsStep r).1

/-- What scrambles the 5,120 frame bits of the codeword with a number (R451). -/
def scrambler (num : Nat) : Nat := prbsBits 5120 (0x40000000 ||| (num % 65536))

/-- The 5,140 data bits of a codeword (R449, R451): the control, then the bytes of the frames, each from its bit 0, scrambled. -/
def codewordData (num width : Nat) (frame0 frame1 : Bytes) : Nat :=
  codewordControl num width + 2 ^ 20 * ((leNat (frame0 ++ frame1)) ^^^ scrambler num)

/-- What a receiver takes from the data bits of a codeword that decodes: its number, its width code and the bits of its frames. -/
def codewordRead (data : Nat) : Nat × Nat × Nat :=
  let num := data % 65536
  (num, data / 65536 % 4, (data / 2 ^ 20) ^^^ scrambler num)

/-- The 514 data symbols of a codeword (R449): groups of 10 bits, the first bit of a group in bit 0. -/
def dataSymbols (data : Nat) : List (BitVec 10) := (List.range 514).map (fun i => BitVec.ofNat 10 (data / 2 ^ (10 * i)))

/-- A product in GF(2^10) (R447; the field polynomial is that of notes/assumptions/141.md). -/
def gfMul (a b : Nat) : Nat :=
  (List.range 10).foldl (fun acc i =>
    let up := 2 * acc
    let red := if 1024 ≤ up then up ^^^ 0x409 else up
    if b.testBit (9 - i) then red ^^^ a else red) 0

/-- The coefficients of the generator polynomial of RS(544,514), highest first, without the leading 1 (R447). -/
def rsGenerator : List Nat :=
  let root (i : Nat) : Nat := (List.range i).foldl (fun a _ => gfMul a 2) 1
  ((List.range 30).foldl (fun (g : List Nat) i =>
    List.zipWith (fun a b => a ^^^ b) (g ++ [0]) (0 :: g.map (fun c => gfMul c (root i)))) [1]).drop 1

/-- The 30 check symbols that follow the data symbols (R447, R449): the remainder of the division by the generator polynomial. -/
def checkSymbols (xs : List (BitVec 10)) : List (BitVec 10) :=
  (xs.foldl (fun (r : List Nat) x =>
    let f := x.toNat ^^^ r.headD 0
    List.zipWith (fun a g => a ^^^ gfMul f g) (r.drop 1 ++ [0]) rsGenerator) (List.replicate 30 0)).map (BitVec.ofNat 10)

/-- The 544 symbols of a codeword (R449). -/
def codewordSymbols (num width : Nat) (frame0 frame1 : Bytes) : List (BitVec 10) :=
  let xs := dataSymbols (codewordData num width frame0 frame1)
  xs ++ checkSymbols xs

/-- The lane of a symbol of a codeword at a width in lanes (R450). -/
def symbolLane (lanes i : Nat) : Nat := i % lanes

/-- The five PAM4 symbols of a symbol, from the bit pair [1:0] up to [9:8] (R450). -/
def bitPairs (x : BitVec 10) : List (BitVec 2) := (List.range 5).map (fun k => BitVec.ofNat 2 (x.toNat / 4 ^ k))

/-- What a lane sends of a codeword, in order (R450). -/
def laneSymbols (lanes lane : Nat) (xs : List (BitVec 10)) : List (BitVec 2) :=
  (List.range xs.length).flatMap (fun i => if symbolLane lanes i = lane then bitPairs (xs.getD i 0) else [])

/-- What a lane sends of something that leaves the device: a codeword at a port's width in lanes (R449 to R451). -/
def laneOf (lanes lane : Nat) (e : Emit) : List (BitVec 2) :=
  match e with
  | .codeword _ num width f0 f1 => laneSymbols lanes lane (codewordSymbols num width f0 f1)
  | _ => []

/-- The strokes that a codeword lasts, in tenths (R451). -/
def codewordTenths (lanes : Nat) : Nat := 768 / lanes

end Sys2Proof.Machine
end

