-- ==== Sys2Proof/Machine/HostRings.lean ====
section
/-! DEFINITION. Host rings, peer windows and functions (16_host_interface.md): the shared operations. The meanings of the host
commands stand in Host.lean. -/
namespace Sys2Proof.Machine

/-- A host ring (R519). -/
def State.hostRing (s : State) (r : Nat) : HostRing := s.host.rings.findD r HostRing.reset

/-- A host ring replaced. -/
def State.setRing (s : State) (r : Nat) (x : HostRing) : State := { s with host := { s.host with rings := s.host.rings.put r x } }

/-- The function that owns a host ring (R519). -/
def ringFn (r : Nat) : Nat := r / 16

/-- The entries of a ring (R521). -/
def State.ringSize (s : State) (r : Nat) : Nat := 2 ^ s.fld Fld.HST_RING_CTL_size_log2 r

/-- The kind of a ring (R520): 0 SUBMIT, 1 COMPLETE, 2 EVENT. -/
def State.ringKind (s : State) (r : Nat) : Nat := s.fld Fld.HST_RING_CTL_kind r

/-- The COMPLETE ring that a SUBMIT ring names as its pair. -/
def State.ringPair (s : State) (r : Nat) : Nat := 16 * (r / 16) + s.fld Fld.HST_RING_CTL_pair r

/-- A ring is ACTIVE. -/
def State.ringActive (s : State) (r : Nat) : Bool := (s.hostRing r).state == .active

/-- A function's state (R537, R539). -/
def State.function (s : State) (f : Nat) : Function := s.host.functions.findD f ⟨false, 0, ⟨0, 0, 0, 0, 0⟩⟩

/-- A function's state replaced. -/
def State.setFunction (s : State) (f : Nat) (x : Function) : State :=
  { s with host := { s.host with functions := s.host.functions.put f x } }

/-- A function exists: the physical function, and VF 1 to NumVFs (R516). -/
def State.hasFunction (s : State) (f : Nat) : Bool := f ≤ s.host.numVfs

/-- The entries that a record occupies (R521). -/
def ringEntries (rec : Bytes) : Nat := (rec.length + 63) / 64

/-- Entries free in a ring that the device produces, beyond those reserved (R521, R523). -/
def State.ringFree (s : State) (r : Nat) : Nat :=
  let x := s.hostRing r
  s.ringSize r - (x.devIndex + 2 ^ 32 - x.hostIndex) % 2 ^ 32 - x.reserved

/-- The entries that the fetch engine reserves for the reply to a record (R523). -/
def reserveOf (rec : Bytes) : Nat :=
  match byteAt rec 0 with
  | 0x10 =>
    let n := byteAt rec 1 / 4 % 8
    (8 + 40 * (if 1 ≤ n && n ≤ 4 then n else 1) + 63) / 64
  | 0x30 => 17
  | _ => 1

/-- A reservation in a COMPLETE ring as a record keeps it: the ring, and how often it had been disabled then (R528). -/
def State.ticket (s : State) (r : Nat) : Nat := r + 4096 * (s.hostRing r).era

/-- The ring of a reservation. -/
def ticketRing (k : Nat) : Nat := k % 4096

/-- The ring of a reservation has not been disabled since (R528). -/
def State.ticketHolds (s : State) (k : Nat) : Bool := (s.hostRing (ticketRing k)).era == k / 4096

/-- A ring enters ERROR (R526, R530, R531, R538): its vector is sent and RING_ERROR posted. -/
def State.ringError (s : State) (r cause : Nat) : State :=
  let x := s.hostRing r
  let s1 := (s.setRing r { x with state := .error, cause := cause }).emit (.msix (ringFn r) (s.fld Fld.HST_RING_CTL_vector r) s.now)
  s1.faultEvent 0x10 1 0xA r cause x.devIndex

/-- A ring becomes DISABLED: its indices, reservations and waiting replies go; event records stay with their producers (R528).
The replies that waited are counted as lost. -/
def State.ringDisable (s : State) (r : Nat) : State :=
  let x := s.hostRing r
  let replies := x.writes.filter (fun w => match w.kind with
    | .reply _ => true
    | _ => false)
  let events := x.writes.filter (fun w => match w.kind with
    | .reply _ => false
    | _ => true)
  (s.setRing r { HostRing.reset with writes := events, era := x.era + 1 }).when (!replies.isEmpty) (fun t =>
    t.bump Fld.HST_HOST_COUNT_lost replies.length)

/-- A reply goes to its COMPLETE ring (R527), or is discarded: in FLR (R539), with the link down (R540), or where the ring has
been disabled since the reservation (R528). -/
def State.ringReply (s : State) (k entries : Nat) (rec : Bytes) : State :=
  let r := ticketRing k
  let x := s.hostRing r
  if (s.function (ringFn r)).flr then s.bumpHold Fld.HST_HOST_COUNT_flr_discarded
  else if !s.host.linkUp || !s.ticketHolds k || x.reserved < entries then s.bump Fld.HST_HOST_COUNT_lost
  else s.setRing r { x with writes := x.writes ++ [⟨.reply entries, rec⟩] }

/-- A SEED completion goes to host ring 0, or is counted while the ring is not ACTIVE (R101, R529). -/
def State.seedReply (s : State) (rec : Bytes) : State :=
  let x := s.hostRing 0
  if x.state == .active then s.setRing 0 { x with writes := x.writes ++ [⟨.event, rec⟩] }
  else s.bumpHold Fld.HST_HOST_COUNT_seed_lost

/-- An event record finds its ring ACTIVE and with room (R528). -/
def State.eventRoom (s : State) (r : Nat) (rec : Bytes) : Bool :=
  let x := s.hostRing r
  s.host.linkUp && x.state == .active &&
    (x.writes.map (fun w => match w.kind with
      | .reply _ => 0
      | _ => ringEntries w.bytes)).foldl (fun a b => a + b) 0 + ringEntries rec ≤ s.ringFree r

/-- A record is queued for writing to a ring. -/
def State.ringQueue (s : State) (r : Nat) (kind : RingWriteKind) (rec : Bytes) : State :=
  let x := s.hostRing r
  s.setRing r { x with writes := x.writes ++ [⟨kind, rec⟩] }

/-- The memory writes that put a record in a ring of the device (R521): from entry `at_` on, wrapping once. -/
def ringPieces (base size at_ : Nat) (rec : Bytes) : List (Nat × Bytes) :=
  let bytes := rec ++ zeros (64 * ringEntries rec - rec.length)
  let pos := at_ % size
  let first := 64 * (size - pos)
  if bytes.length ≤ first then [(base + 64 * pos, bytes)]
  else [(base + 64 * pos, bytes.take first), (base, bytes.drop first)]

/-- The write-back word (R522): an index and the low 32 bits of the tide count. -/
def State.writeBack (s : State) (r : Nat) : State :=
  s.emit (.hostWrite (s.fld Fld.HST_RING_WB_addr r * 8) (leBytes (s.hostRing r).devIndex 4 ++ leBytes s.clock.count 4))

/-- The first waiting record of a ring is written, where the ring has room: its data, then the producer index, then the vector
of an armed ring (R527, R531). -/
def State.ringWrite (s : State) (r : Nat) : State :=
  let x := s.hostRing r
  match x.writes with
  | [] => s
  | w :: rest =>
    let n := ringEntries w.bytes
    let entries := match w.kind with
      | .reply e => e
      | _ => 0
    let room := match w.kind with
      | .reply _ => n ≤ s.ringFree r + x.reserved
      | _ => n ≤ s.ringFree r
    if !s.host.linkUp || x.state != .active || !room then s
    else
      let base := s.fld Fld.HST_RING_BASE_base r * 4096
      let s1 := s.each (ringPieces base (s.ringSize r) x.devIndex w.bytes) (fun t p => t.emit (.hostWrite p.1 p.2))
      let dev := (x.devIndex + n) % 2 ^ 32
      let fire := match x.armed with
        | some c => decide (0 < (dev + 2 ^ 32 - c) % 2 ^ 32) && decide ((dev + 2 ^ 32 - c) % 2 ^ 32 < 2 ^ 31)
        | none => false
      let s2 := (s1.setRing r { x with
        devIndex := dev, reserved := x.reserved - entries, writes := rest, armed := if fire then none else x.armed }).writeBack r
      if fire then s2.emit (.msix (ringFn r) (s.fld Fld.HST_RING_CTL_vector r) (s.now + 1)) else s2

/-- The select registers (R624). -/
def selectRegs : List Reg :=
  [.PIL_TABLE_SEL, .ARY_BANK_SEL, .SCB_SET_SEL, .TEL_CNT_SEL, .TEL_MIRROR_SEL, .BTH_SEL, .BTH_MASTER_SEL, .SEC_FREEZE_SEL,
   .QUY_SEL, .HST_RING_SEL, .MEM_PC_SEL, .HST_WIN_SEL]

/-- The state of a function at the end of an FLR (R539): its rings DISABLED and at reset, its select registers and latches. Event
records that wait for a ring wait on (R528). -/
def State.fnReset (s : State) (f : Nat) : State :=
  let rings := List.range 16 |>.map (fun i => 16 * f + i)
  let s1 := s.each rings (fun t r =>
    let events := (t.hostRing r).writes.filter (fun w => match w.kind with
      | .reply _ => false
      | _ => true)
    if t.host.rings.has r then t.setRing r { HostRing.reset with writes := events, era := (t.hostRing r).era + 1 } else t)
  let s2 := s1.each rings (fun t r =>
    { t with regs := ((t.regs.del (Reg.key .HST_RING_BASE r)).del (Reg.key .HST_RING_WB r)).del (Reg.key .HST_RING_CTL r) })
  let s3 := s2.each selectRegs (fun t g => { t with regs := t.regs.del (g.key f) })
  s3.setFunction f ⟨false, 0, ⟨0, 0, 0, 0, 0⟩⟩

/-- Every function returns to the state that the end of an FLR gives, and a pending commit of the windows is cleared (R539). -/
def State.hostReset (s : State) : State :=
  let s1 := s.each (List.range (s.host.numVfs + 1)) State.fnReset
  { s1 with host := { s1.host with winPending := false, numVfs := 0 }, due := s1.due.filter (fun d => d.change != .winCommit) }

/-- A window (R532). -/
def State.window (s : State) (w : Nat) : Window := s.host.windows.findD w ⟨⟨false, 0, 0, 0⟩, 0, 0, 0⟩

/-- A window replaced. -/
def State.setWindow (s : State) (w : Nat) (x : Window) : State := { s with host := { s.host with windows := s.host.windows.put w x } }

/-- The staged record of a window (HST_WIN_NEXT). -/
def State.staged (s : State) (w : Nat) : WinRec :=
  ⟨s.bit Fld.HST_WIN_NEXT_en w, s.fld Fld.HST_WIN_NEXT_function w, s.fld Fld.HST_WIN_NEXT_berth w, s.fld Fld.HST_WIN_NEXT_slot w⟩

/-- Every staged window with en 1 names a berth in its function's range and a ring slot of that function (R532). -/
def State.stagedOk (s : State) : Bool :=
  (List.range 16).all (fun w =>
    let x := s.staged w
    !x.en || (s.inRange x.fn x.berth && s.hasFunction x.fn && (x.fn == 0 || x.slot < s.host.pcie.ringsPerVf)))

/-- A commit of the windows takes effect (R532). -/
def State.commitWindows (s : State) : State :=
  let s1 := s.each (List.range 16) (fun t w =>
    let x := t.window w
    let n := t.staged w
    if n == x.active then t else t.setWindow w { x with active := n, gen := (x.gen + 1) % 65536 })
  { s1 with host := { s1.host with winPending := false } }

/-- A write of HST_WIN_CTL.commit (R532). -/
def State.requestCommit (s : State) : State :=
  if s.host.winPending then s
  else if s.stagedOk then
    ({ s with host := { s.host with winPending := true, winResult := 0 } }).defer .winCommit
  else { s with host := { s.host with winResult := 1 } }

/-- The length in bytes that a record's header gives, where its type is one that a host may send (R526, R534). -/
def hostRecordLength (rec : Bytes) : Option Nat :=
  match byteAt rec 0 with
  | 0x10 => some (16 + 8 * (byteAt rec 4 % 16))
  | 0x20 => some (16 + 8 * ((fieldLE rec 2 2 + 7) / 8))
  | 0x30 => if fieldLE rec 2 2 = 0 then none else some (8 * fieldLE rec 2 2)
  | _ => none

/-- A sequence of whole records (R534), with a bound on their number. -/
def splitRecords : Nat → Bytes → Option (List Bytes)
  | _, [] => some []
  | 0, _ => none
  | fuel + 1, bs =>
    match hostRecordLength bs with
    | none => none
    | some n =>
      if bs.length < n then none
      else match splitRecords fuel (bs.drop n) with
        | none => none
        | some rest => some (bs.take n :: rest)

/-- The completion timeout of a function in microseconds (R537). -/
def State.completionTimeout (s : State) (f : Nat) : Nat :=
  match (s.function f).timeoutValue with
  | 1 => 50
  | 2 => 10000
  | _ => 50000

end Sys2Proof.Machine
end

