-- ==== Sys2Proof/Machine/Settle.lean ====
section
/-! DEFINITION. What follows from the state after every command: the output pins (R325, R471, R508, R606) and the lock gates. -/
namespace Sys2Proof.Machine

/-- The occupancy of the manifest queue (R318). -/
def Manifest.occupancy (m : Manifest) : Nat :=
  (m.commit - m.release) + (m.posting.map (fun r => r.slots.length)).foldl (fun a b => a + b) 0

/-- The level of MNF_XOFF, from its level before (R325); high before Serving and while the main domains are off (R632). -/
def State.mnfLevel (s : State) (was : Bool) : Bool :=
  let occ := s.manifest.occupancy
  let high := s.fld Fld.LRN_MNF_WM_high
  let low := s.fld Fld.LRN_MNF_WM_low
  if !s.serving || !s.power.railsValid || 3 ≤ s.power.state || s.power.tamperHold then true
  else if high ≤ occ then true
  else if low < high then (if occ ≤ low then false else was)
  else false

/-- The member's gates are to be open (R508). -/
def State.gatesWanted (s : State) : Bool :=
  s.links.record.ringEnable && s.serving && s.power.state ≤ 2 && s.ring.joined && !s.power.tamperHold && s.power.railsValid &&
    (match s.power.domainReset with
     | some d => !(d.started && (d.domain == 18 || d.domain == 19))
     | none => true)

/-- The lock gates follow their condition; a member whose gates close enters its solo epoch at the next boundary (R504, R508). -/
def State.settleGates (s : State) : State :=
  let w := s.gatesWanted
  let solo := if !w && s.ring.gatesOpen && !s.ring.solo then some 2 else s.ring.soloNext
  { s with ring := { s.ring with gatesOpen := w, soloNext := solo } }

/-- Strokes pass (R82, R443). -/
def State.strokesPass (s : State) : Bool := s.clockRuns && !s.power.tamperHold

/-- The pins as they stand in this stroke, by what earlier strokes have left. -/
def State.pinsNow (s : State) : Pins :=
  let p := s.pins
  if p.at_ < s.now || !s.strokesPass then { p with qxoff := p.nextQxoff, mnfXoff := p.nextMnf, alert := p.nextAlert } else p

/-- The pins settle: MNF_XOFF and QXOFF follow their conditions in the stroke after, and ALERT_N is released in the stroke after
(R325, R471, R606); where no strokes pass, all follow at once. -/
def State.settle (s : State) : State :=
  let s1 := s.settleGates
  let p := s1.pinsNow
  let xoff := ((List.range 12).map (fun q => if s1.qxoff q (p.qxoff.testBit q) then 2 ^ q else 0)).foldl (fun a b => a + b) 0
  let mnf := s1.mnfLevel p.mnfXoff
  { s1 with
      pins :=
        { qxoff := if s1.strokesPass then p.qxoff else xoff
          mnfXoff := if s1.strokesPass then p.mnfXoff else mnf
          alert := s1.alertWanted || (s1.strokesPass && p.alert)
          lgHoldE := s1.ring.gatesOpen, lgHoldW := s1.ring.gatesOpen
          nextQxoff := xoff, nextMnf := mnf, nextAlert := s1.alertWanted, at_ := s1.now } }

end Sys2Proof.Machine
end

