-- ==== Sys2Proof/Machine/Stripe.lean ====
section
/-! DEFINITION. The outer code of the in-package memory (R41, R544, R546): the two check columns of a stripe, and the decoding of the ten
columns that a read returns. -/
namespace Sys2Proof.Machine

/-- A product in GF(2^8) with the field polynomial of R544. -/
def gf8Mul (a b : Nat) : Nat :=
  (List.range 8).foldl (fun acc i =>
    let up := 2 * acc
    let red := if 256 ≤ up then up ^^^ 0x11D else up
    if b.testBit (7 - i) then red ^^^ a else red) 0

/-- A power in GF(2^8). -/
def gf8Pow (a : Nat) : Nat → Nat
  | 0 => 1
  | n + 1 => gf8Mul a (gf8Pow a n)

/-- The inverse of an element that is not 0. -/
def gf8Inv (a : Nat) : Nat := gf8Pow a 254

/-- The weight of column `j` in the syndrome of the root α: the column's symbol is the coefficient of x^(9 - j)
(notes/assumptions/146.md). -/
def columnWeight (j : Nat) : Nat := gf8Pow 2 (9 - j)

/-- The syndromes of one codeword for the roots α^0 and α^1 (R544): its ten symbols in column order. -/
def syndromes (xs : List Nat) : Nat × Nat :=
  (xs.foldl (fun a b => a ^^^ b) 0,
   (mapFrom (fun j x => gf8Mul (columnWeight j) x) 0 xs).foldl (fun a b => a ^^^ b) 0)

/-- The symbols of a codeword with two erased columns solved (R546): the symbols that make both syndromes 0. -/
def solveTwo (xs : List Nat) (e f : Nat) : List Nat :=
  let s := syndromes (mapFrom (fun j x => if j = e || j = f then 0 else x) 0 xs)
  let a := columnWeight e
  let b := columnWeight f
  let y := gf8Mul (gf8Mul a s.1 ^^^ s.2) (gf8Inv (a ^^^ b))
  mapFrom (fun j x => if j = f then y else if j = e then s.1 ^^^ y else x) 0 xs

/-- The two check symbols of eight data symbols (R544): columns 8 and 9. -/
def stripeChecks (data : List Nat) : List Nat := (solveTwo (data ++ [0, 0]) 8 9).drop 8

/-- The symbols of codeword `i` of ten columns of 32 bytes. -/
def codewordOf (cols : List Bytes) (i : Nat) : List Nat := cols.map (fun c => byteAt c i)

/-- Ten columns from their 32 codewords. -/
def columnsOf (words : List (List Nat)) : List Bytes :=
  (List.range 10).map (fun j => words.map (fun w => BitVec.ofNat 8 (w.getD j 0)))

/-- The check columns of eight data columns (R41, R544): the ten columns of the stripe. -/
def withChecks (data : List Bytes) : List Bytes :=
  columnsOf ((List.range 32).map (fun i => codewordOf data i ++ stripeChecks (codewordOf data i)))

/-- The column in which one symbol error explains two syndromes (R546). -/
def errorColumn (s : Nat × Nat) : Option Nat :=
  if s.1 = 0 then none else (List.range 10).find? (fun j => gf8Mul (columnWeight j) s.1 == s.2)

/-- The decoding of ten columns by the number of known erasures (R546): the columns, and whether one was corrected without an
erasure; none where it does not pass. -/
def decodeStripe (cols : List Bytes) (erasures : List Nat) : Option (List Bytes × Bool) :=
  let words := (List.range 32).map (codewordOf cols)
  match erasures with
  | [] =>
    let bad := (words.map syndromes).filter (fun s => s != (0, 0))
    match bad with
    | [] => some (cols, false)
    | s :: _ => match errorColumn s with
      | none => none
      | some j =>
        if bad.all (fun x => errorColumn x == some j) then
          some (columnsOf (words.map (fun w => mapFrom (fun k x => if k = j then x ^^^ (syndromes w).1 else x) 0 w)), true)
        else none
  | [e] =>
    let out := words.map (fun w =>
      let z := mapFrom (fun k x => if k = e then 0 else x) 0 w
      mapFrom (fun k x => if k = e then (syndromes z).1 else x) 0 z)
    if out.all (fun w => syndromes w == (0, 0)) then some (columnsOf out, false) else none
  | [e, f] => some (columnsOf (words.map (fun w => solveTwo w e f)), false)
  | _ => none

end Sys2Proof.Machine
end

