-- ==== Sys2Proof/Machine/Dram.lean ====
section
/-! DEFINITION. The in-package memory (17_dram.md): address mapping, regions (R42), the outcome of a read, refresh, temperature,
verification, fencing, rebuild and the command watchdog; the client ports, command queues and write buffers (R548, R550 to R555). Writes
reach the stored bytes at once (notes/assumptions/8.md). -/
namespace Sys2Proof.Machine

/-- Array shadow of a logical unit (R42): 20 bytes. -/
def shadowAddr (unit : Nat) : Nat := 20 * unit
/-- Metadata shadow of a logical entry number (R42): 16 bytes. -/
def metaAddr (len : Nat) : Nat := 0x14000000 + 16 * len
/-- Associated data of a logical entry number (R42): 32 bytes. -/
def adAddr (len : Nat) : Nat := 0x24000000 + 32 * len
/-- Wide counter of a logical entry number (R42): 8 bytes. -/
def wideAddr (len : Nat) : Nat := 0x44000000 + 8 * len
/-- State of a stream (R42, R344): 64 bytes. -/
def streamAddr (n : Nat) : Nat := 0x4C000000 + 64 * n
/-- Direct-index shadow (R42). -/
def diShadowAddr (a : Nat) : Nat := 0x50000000 + a
/-- The slot of a glyph set (R42, R332): 128 MiB. -/
def glyphAddr (set : Nat) : Nat := 0x82000000 + 0x8000000 * set
/-- The capture buffer (R42, R394). -/
def captureAddr : Nat := 0x282000000
/-- The host DMA region (R42). -/
def hostDmaAddr : Nat := 0x482000000
/-- The end of usable DRAM. -/
def dramEnd : Nat := 0x600000000

/-- Where a DRAM address lies (R542). -/
structure DramPlace where
  stripe : Nat
  group : Nat
  t : Nat
  column : Nat
  position : Nat
  pc : Nat
  columnAddr : Nat
deriving DecidableEq, Repr

/-- The pseudo-channel at a position of a group (R542). -/
def groupPc (g position : Nat) : Nat := if g < 3 then 10 * g + position else 32 + 10 * (g - 3) + position

/-- The mapping of R542. -/
def dramPlace (a : Nat) : DramPlace :=
  let stripe := a / 256
  let g := stripe % 6
  let t := stripe / 6
  let c := a % 256 / 32
  let position := (c + t) % 10
  ⟨stripe, g, t, c, position, groupPc g position, 32 * t⟩

/-- The group of a pseudo-channel; a spare belongs to none (R39). -/
def pcGroup (n : Nat) : Option Nat :=
  if n < 30 then some (n / 10) else if 32 ≤ n && n < 62 then some (3 + (n - 32) / 10) else none

/-- A pseudo-channel at reset (MEM_PC_INFO): in service for itself, or an idle spare. -/
def Pseudo.reset (n : Nat) : Pseudo :=
  ⟨if (pcGroup n).isSome then .inService else .idleSpare, n, 0, 0, 0, none, false, false, none⟩

/-- A pseudo-channel. -/
def State.pc (s : State) (n : Nat) : Pseudo := s.dramCtl.pcs.findD n (Pseudo.reset n)

/-- A pseudo-channel replaced. -/
def State.setPc (s : State) (n : Nat) (x : Pseudo) : State := { s with dramCtl := { s.dramCtl with pcs := s.dramCtl.pcs.put n x } }

/-- The spare, of its own stack only (R40), that serves or rebuilds the place of a group's pseudo-channel. -/
def State.spareOf (s : State) (n : Nat) : Option Nat :=
  ([30, 31, 62, 63].filter (fun k => k / 32 == n / 32)).find? (fun k =>
    (s.pc k).serves == n && ((s.pc k).state == .inService || (s.pc k).state == .rebuilding))

/-- The pseudo-channel of column `j` of a stripe (R542): columns 8 and 9 are the checks. -/
def columnPc (stripe j : Nat) : Nat := groupPc (stripe % 6) ((j + stripe / 6) % 10)

/-- The columns of a pseudo-channel are known erasures at stripe `t` of its group (R545): it is under verification or recovery, or it is
fenced and its place is not yet rebuilt. -/
def State.pcErased (s : State) (n t : Nat) : Bool :=
  let own := s.pc n
  if own.verify.isSome then true
  else if own.state == .fenced then
    match s.spareOf n with
    | none => true
    | some k => (s.pc k).verify.isSome ||
        ((s.pc k).state == .rebuilding && !(s.dramCtl.rebuilds.any (fun r => r.spare == k && t < r.next)))
  else false

/-- The columns of a stripe that are known erasures for a read (R545). -/
def State.erasures (s : State) (stripe : Nat) (how : DramRead) : List Nat :=
  (List.range 10).filter (fun j => how.flagged.contains j || how.waived.contains j || s.pcErased (columnPc stripe j) (stripe / 6))

/-- The ten columns of a stripe as stored (R41): eight data columns and two check columns. -/
def State.stripe (s : State) (stripe : Nat) : List Bytes :=
  withChecks ((List.range 8).map (fun c => s.dram.read (256 * stripe + 32 * c) 32))

/-- The ten columns of a stripe as a read returns them. -/
def State.returned (s : State) (stripe : Nat) (how : DramRead) : List Bytes :=
  mapFrom (fun j c => mapFrom (fun i b =>
    (how.errors.filter (fun x => x.1 == j && x.2.1 == i)).foldl (fun y x => y ^^^ x.2.2) b) 0 c) 0 (s.stripe stripe)

/-- How a read of DRAM ended (R546, R547, R549). -/
inductive DramEnd where
  | direct
  | reconstructed
  | columnCorrected
  | uncorrectable
deriving DecidableEq, Repr

/-- The columns of a stripe that bytes from `a` up touch. -/
def touched (stripe a n : Nat) : List Nat :=
  (List.range 8).filter (fun c => a < 256 * stripe + 32 * c + 32 && 256 * stripe + 32 * c < a + n)

/-- What a read returns in the stripe that lies `i` after that of its first byte: its columns 10 × i to 10 × i + 9. -/
def partRead (how : DramRead) (i : Nat) : DramRead :=
  { flagged := (how.flagged.filter (fun j => j / 10 == i)).map (fun j => j % 10)
    waived := (how.waived.filter (fun j => j / 10 == i)).map (fun j => j % 10)
    errors := (how.errors.filter (fun x => x.1 / 10 == i)).map (fun x => (x.1 % 10, x.2)) }

/-- How a read of some data columns of a stripe ended (R547): direct where none is a known erasure, else by the decoding of the stripe. -/
def State.columnsEnd (s : State) (stripe : Nat) (cols : List Nat) (how : DramRead) : DramEnd :=
  let es := s.erasures stripe how
  if !cols.any (fun c => es.contains c) then .direct
  else match decodeStripe (s.returned stripe how) es with
    | some _ => .reconstructed
    | none => .uncorrectable

/-- The stripes that a read of `n` bytes touches, and how its part in each ended (R547). -/
def State.readParts (s : State) (a n : Nat) (how : DramRead) : List (Nat × DramEnd) :=
  (List.range ((a + n - 1) / 256 + 1 - a / 256)).map (fun i =>
    (a / 256 + i, s.columnsEnd (a / 256 + i) (touched (a / 256 + i) a n) (partRead how i)))

/-- How a read of `n` bytes ended: as the worst of its parts. -/
def State.spanEnd (s : State) (a n : Nat) (how : DramRead) : DramEnd :=
  let l := (s.readParts a n how).map (fun p => p.2)
  if l.contains .uncorrectable then .uncorrectable else if l.contains .reconstructed then .reconstructed else .direct

/-- How a read within one data column ended (R547). -/
def State.readEnd (s : State) (a : Nat) (how : DramRead) : DramEnd := s.columnsEnd (a / 256) [a % 256 / 32] how

/-- How a full-stripe read ended (R546). -/
def State.stripeEnd (s : State) (stripe : Nat) (how : DramRead) : DramEnd :=
  let es := s.erasures stripe how
  match decodeStripe (s.returned stripe how) es with
  | some (_, true) => .columnCorrected
  | some (_, false) => if es.isEmpty then .direct else .reconstructed
  | none => .uncorrectable

/-- What a read returns when nothing is wrong. -/
def DramRead.clean : DramRead := ⟨[], [], []⟩

/-- A memory event record (R573), with its class (R601). -/
def State.memoryEvent (s : State) (event cls pc info addr temp : Nat) : State :=
  s.postFault cls 0xB ([BitVec.ofNat 8 0x44, BitVec.ofNat 8 event, BitVec.ofNat 8 pc, BitVec.ofNat 8 info] ++ zeros 4 ++
    leBytes s.clock.count 8 ++ leBytes addr 8 ++ [BitVec.ofNat 8 temp] ++ zeros 7)

/-- The counts and events of a read's outcome (R546, R547, R549). -/
def State.countEnd (s : State) (a : Nat) (e : DramEnd) : State :=
  let p := dramPlace a
  match e with
  | .direct => s
  | .reconstructed => s.bumpHold Fld.MEM_ERR_COUNT_reconstructed
  | .columnCorrected =>
    ((s.bump Fld.MEM_ERR_COUNT_column_corrected).raise Fld.MEM_STATUS_corrected).memoryEvent 0x08 0 p.pc 0 (256 * p.stripe) 0
  | .uncorrectable =>
    ((s.bump Fld.MEM_ERR_COUNT_uncorrectable).raise Fld.MEM_STATUS_uncorrectable).memoryEvent 0x04 3 p.pc 0 (256 * p.stripe) 0

/-- The pseudo-channel that serves the place of a pseudo-channel: a spare in its place (R542). -/
def State.servingPc (s : State) (n : Nat) : Nat := if (s.pc n).state == .fenced then (s.spareOf n).getD n else n

/-- The columns of a stripe that a read finds flagged by the inner code are counted (R543, MEM_PC_INFO.flags). -/
def State.countFlags (s : State) (stripe : Nat) (how : DramRead) : State :=
  s.each how.flagged (fun x j => x.bumpHold Fld.MEM_PC_INFO_flags 1 (x.servingPc (columnPc stripe j)))

/-- The counts and events of a read within one column. -/
def State.countRead (s : State) (a : Nat) (how : DramRead) : State := (s.countFlags (a / 256) how).countEnd a (s.readEnd a how)

/-- The counts and events of a read of `n` bytes. -/
def State.countSpan (s : State) (a n : Nat) (how : DramRead) : State :=
  s.each (s.readParts a n how) (fun x p => (x.countFlags p.1 (partRead how (p.1 - a / 256))).countEnd (max a (256 * p.1)) p.2)

/-- The state of a stack (R555 to R560). -/
def State.stack (s : State) (n : Nat) : Stack := s.dramCtl.stackStates.getD n Stack.reset

/-- A stack replaced. -/
def State.setStack (s : State) (n : Nat) (x : Stack) : State :=
  { s with dramCtl := { s.dramCtl with stackStates := (List.range 2).map (fun i => if i = n then x else s.stack i) } }

/-- Panic holds in a stack (R555): a change of the buffer tells from the stroke after it. -/
def State.panicking (s : State) (n : Nat) : Bool := if (s.stack n).panicAt < s.now then (s.stack n).panicNext else (s.stack n).panic

/-- The real-time requests that a stack's buffer holds; panic follows them between its two levels, in the stroke after (R555). -/
def State.setWaiting (s : State) (n waiting : Nat) : State :=
  let old := s.panicking n
  let level := if s.fld Fld.MEM_RT_CTL_panic_on ≤ waiting then true else if waiting ≤ s.fld Fld.MEM_RT_CTL_panic_off then false else old
  s.setStack n { s.stack n with waiting := waiting, panic := old, panicNext := level, panicAt := s.now }

/-- The queue of a pseudo-channel. -/
def State.memQueue (s : State) (n : Nat) : PcQueue := s.memQueues.findD n PcQueue.reset

/-- A queue replaced; one at its reset value is not listed. -/
def State.setMemQueue (s : State) (n : Nat) (q : PcQueue) : State :=
  { s with memQueues := if q == PcQueue.reset then s.memQueues.del n else s.memQueues.put n q }

/-- A command that a pseudo-channel issues: a read or a buffered write of a port. -/
structure MemCommand where
  write : Bool
  port : Nat
  column : Nat
deriving DecidableEq, Repr

/-- The oldest waiting read of the first port in the priority order that a test admits (R553). -/
def PcQueue.readOf (q : PcQueue) (p : Nat → Bool) : Option MemCommand :=
  (List.range 8).findSome? (fun k => if p k then (q.reads.find? (fun x => x.1 == k)).map (fun x => ⟨false, x.1, x.2⟩) else none)

/-- The next command of a pseudo-channel (R553 to R555): real-time reads first while panic holds; a read of a port of 2 to 7 that so many
commands have passed by that, with the five other ports before it, 32 would pass; in a drain writes, after real-time reads; else reads in the priority order of the ports, then writes. -/
def PcQueue.next (q : PcQueue) (panic : Bool) : Option MemCommand :=
  let rt := q.readOf (· == 1)
  let write := q.writes.head?.map (fun x => MemCommand.mk true x.1 x.2)
  let starved := q.readOf (fun k => 2 ≤ k && 26 ≤ q.since.getD (k - 2) 0)
  if panic && rt.isSome then rt
  else if starved.isSome then starved
  else if q.draining && (!panic || 64 ≤ q.writes.length) && write.isSome then (if rt.isSome then rt else write)
  else match q.readOf (fun _ => true) with
    | some c => some c
    | none => write

/-- The command that a pseudo-channel issues (R553, R554); with its stack hot, ports 2 to 7 receive at most every second one (R560). -/
def PcQueue.command (q : PcQueue) (panic hot : Bool) : Option MemCommand :=
  (q.next panic).bind (fun c => if hot && q.low && 2 ≤ c.port then q.readOf (· == 1) else some c)

/-- A pseudo-channel issues its command, where it has one: a turn without one lets ports 2 to 7 go on (R560). -/
def PcQueue.issue (q : PcQueue) (panic hot : Bool) (wrLow : Nat) : PcQueue :=
  match q.command panic hot with
  | none => { q with low := false }
  | some d =>
    let reads := if d.write then q.reads else updateFirst (fun x => x == (d.port, d.column)) (fun _ => (0, 0)) q.reads
    let left := reads.filter (fun x => x.1 != 0)
    let writes := if d.write then q.writes.drop 1 else q.writes
    { reads := left, writes := writes, draining := q.draining && wrLow < writes.length,
      since := (List.range 6).map (fun i =>
        if (!d.write && d.port == i + 2) || !left.any (fun x => x.1 == i + 2) then 0 else q.since.getD i 0 + 1),
      low := decide (2 ≤ d.port) }

/-- A command of a pseudo-channel activates the row of its column, unless that row is open; with each activate the generator draws, and
where the low k bits of the draw are 0 the two adjacent rows are refreshed (R559; notes/assumptions/161.md). -/
def State.activate (s : State) (n column : Nat) : State :=
  let d := s.dramCtl
  let key := n + 64 * Config.bankOf column
  let row := Config.rowOf column
  let opens := d.openRows.find key != some row
  let g := Config.nextDraw (d.generators.findD n 0) % 2 ^ 32
  let hit := opens && g % 2 ^ s.fld Fld.MEM_CTL_nrr_k == 0
  { s with dramCtl := { d with
      openRows := d.openRows.put key row
      generators := if opens then d.generators.put n g else d.generators
      neighbours := if hit then d.neighbours.put n (d.neighbours.findD n 0 + 2) else d.neighbours } }

/-- A pseudo-channel issues commands while a test of its queue holds. -/
def State.issueWhile (s : State) (n : Nat) (p : PcQueue → Bool) : Nat → State
  | 0 => s
  | fuel + 1 =>
    let q := s.memQueue n
    if p q then
      let panic := s.panicking (n / 32)
      let hot := (s.stack (n / 32)).hot
      let s1 := s.setMemQueue n (q.issue panic hot (s.fld Fld.MEM_CTL_wr_low))
      State.issueWhile (match q.command panic hot with
        | some d => s1.activate n d.column
        | none => s1) n p fuel
    else s

/-- A read of a column is issued by a port (R550): it waits in the pseudo-channel's queue. In M7 the writes of the column that are still
buffered go before it, ahead of the rest (R552). -/
def State.queueRead (s : State) (port n column : Nat) : State :=
  let k := s.servingPc n
  let q := s.memQueue k
  let writes := if s.mode.mode = 7 then q.writes.filter (fun x => x.2 != column) else q.writes
  s.setMemQueue k { q with reads := q.reads ++ [(port, column)], writes := writes }

/-- A write of a column enters the write buffer of 64 columns (R554): a full buffer first issues commands until it has room; at wr_high
columns a drain starts. -/
def State.queueWrite (s : State) (port n column : Nat) : State :=
  let k := s.servingPc n
  let s1 := s.issueWhile k (fun q => 64 ≤ q.writes.length) 256
  let q := s1.memQueue k
  let writes := q.writes ++ [(port, column)]
  s1.setMemQueue k { q with writes := writes, draining := q.draining || s.fld Fld.MEM_CTL_wr_high ≤ writes.length }

/-- The client port that writes a DRAM address (R42, the table of client ports). -/
def dramPort (a : Nat) : Nat :=
  if a < 0x24000000 then 3 else if a < 0x44000000 then 1 else if a < 0x4C000000 then 5 else if a < 0x50000000 then 2
  else if a < 0x62000000 then 3 else if a < 0x282000000 then 7 else if a < 0x482000000 then 6 else 7

/-- The commands of a write (R548): of less than a stripe the old data columns and both check columns are read, then the new data
columns and the checks are written; of a whole stripe all ten columns are written with no reads. -/
def State.queueStripe (s : State) (port a n stripe : Nat) : State :=
  let cols := touched stripe a n ++ [8, 9]
  let at_ := 32 * (stripe / 6)
  let whole := a ≤ 256 * stripe && 256 * stripe + 256 ≤ a + n
  let s1 := if whole then s else s.each cols (fun x c => x.queueRead port (columnPc stripe c) at_)
  s1.each cols (fun x c => x.queueWrite port (columnPc stripe c) at_)

/-- A stripe that a write changes in part, and whose old contents do not decode (R548): the columns that do not decode are set to zero. -/
def State.spoilStripe (s : State) (a n stripe : Nat) : State :=
  let es := s.erasures stripe DramRead.clean
  let whole := a ≤ 256 * stripe && 256 * stripe + 256 ≤ a + n
  if whole || (decodeStripe (s.returned stripe DramRead.clean) es).isSome then s
  else
    let s1 := { s with dram := (es.filter (fun c => c < 8)).foldl (fun m c => m.write (256 * stripe + 32 * c) (zeros 32)) s.dram }
    s1.countEnd (256 * stripe) .uncorrectable

/-- The stripes that `n` bytes from an address up lie in. -/
def stripesOf (a n : Nat) : List Nat := if n = 0 then [] else (List.range ((a + n - 1) / 256 + 1 - a / 256)).map (fun i => a / 256 + i)

/-- What a write of `n` bytes finds: the stripes that it changes in part and that do not decode (R548). Erasures that are no flag come
from pseudo-channels that are fenced or under verification. -/
def State.spoil (s : State) (a n : Nat) : State :=
  if s.dramCtl.pcs.isEmpty then s else s.each (stripesOf a n) (fun x k => x.spoilStripe a n k)

/-- Bytes written to DRAM, through the port of their region (R548). -/
def State.dramWrite (s : State) (a : Nat) (bs : Bytes) : State :=
  let n := bs.length
  let s1 := (s.spoil a n).each (stripesOf a n) (fun x k => x.queueStripe (dramPort a) a n k)
  { s1 with dram := s1.dram.write a bs }

/-- Bytes read by a port: one request per column (R547). -/
def State.dramIssue (s : State) (port a n : Nat) : State :=
  s.each ((List.range ((a + n - 1) / 32 + 1 - a / 32)).map (fun i => a / 32 + i)) (fun x c =>
    x.queueRead port (columnPc (c / 8) (c % 8)) (32 * (c / 8 / 6)))

/-- A read of bytes has returned: its pseudo-channels have issued it, after what ranks before it (R553). -/
def State.dramReturn (s : State) (port a n : Nat) : State :=
  s.each ((List.range ((a + n - 1) / 32 + 1 - a / 32)).map (fun i => a / 32 + i)) (fun x c =>
    let k := x.servingPc (columnPc (c / 8) (c % 8))
    x.issueWhile k (fun q => q.reads.contains (port, 32 * (c / 8 / 6))) (4 * ((x.memQueue k).reads.length + 65)))

/-- At a boundary every pseudo-channel has issued what waited in it (notes/assumptions/147.md). -/
def State.drainQueues (s : State) : State :=
  s.each s.memQueues.keys (fun x k =>
    let q := x.memQueue k
    (x.issueWhile k (fun y => !y.reads.isEmpty || !y.writes.isEmpty) (4 * (q.reads.length + q.writes.length))).setMemQueue k PcQueue.reset)

/-- A real-time read of bytes is issued to the stack of an address (R555). -/
def State.rtIssue (s : State) (a n : Nat) : State :=
  let k := (dramPlace a).pc / 32
  (s.setWaiting k ((s.stack k).waiting + 1)).dramIssue 1 a n

/-- A pseudo-channel has a real-time read waiting. -/
def State.rtWaiting (s : State) (n : Nat) : Bool := (s.memQueue n).reads.any (fun x => x.1 == 1)

/-- A refresh that waited is issued once no real-time read waits (R556). -/
def State.lateRefresh (s : State) (n : Nat) : State :=
  if (s.pc n).refreshDue && !s.rtWaiting n then s.setPc n { s.pc n with refreshDue := false } else s

/-- A real-time read leaves the buffer of its stack. -/
def State.rtReturn (s : State) (a n : Nat) : State :=
  let k := (dramPlace a).pc / 32
  ((s.setWaiting k ((s.stack k).waiting - 1)).dramReturn 1 a n).lateRefresh (s.servingPc (dramPlace a).pc)

/-- The refresh period of a stack in tides (R556). -/
def Stack.period (x : Stack) : Nat := if x.doubled then 11 else 22

/-- All banks of a pseudo-channel are precharged for a refresh: no row stays open. -/
def State.closeRows (s : State) (pc : Nat) : State :=
  { s with dramCtl := { s.dramCtl with openRows := s.dramCtl.openRows.filter (fun p => p.1 % 64 != pc) } }

/-- An all-bank refresh falls due at stroke 0 (R556, R558): it is postponed in a panic, waits for real-time reads of the pseudo-channel, or
is issued at once. -/
def execRefreshDue (pc : Nat) (s : State) : Res :=
  let x := s.stack (pc / 32)
  let p := { s.pc pc with refreshAt := some s.clock.grid }
  let s1 :=
    if s.clock.stroke != 0 || s.clock.count % x.period != pc % x.period || (s.pc pc).refreshAt == some s.clock.grid then s
    else if s.panicking (pc / 32) && p.postponed < 8 then s.setPc pc { p with postponed := p.postponed + 1 }
    else if s.rtWaiting pc && p.postponed < 8 then s.setPc pc { p with refreshDue := true }
    else (s.setPc pc { p with refreshDue := false }).closeRows pc
  .next s1.settle

/-- The extra refreshes of idle pseudo-channels while no panic holds, one a tide (R558). -/
def State.idleRefresh (s : State) : State :=
  s.each s.dramCtl.pcs.keys (fun t k =>
    let p := t.pc k
    if 0 < p.postponed && !t.panicking (k / 32) && t.memQueue k == PcQueue.reset then
      (t.setPc k { p with postponed := p.postponed - 1 }).closeRows k
    else t)

/-- A stack temperature readout (R557, R560). -/
def execStackTempReadout (t stack : Nat) (temp : Int) (s : State) : Res :=
  let s0 := s.at t
  let x := s0.stack stack
  let dbl := if 85 < temp then some true else if temp ≤ 83 then some false else x.doubleNext
  let y := { x with temp := temp, doubleNext := dbl }
  let s1 :=
    if 95 < temp then
      let s2 := s0.setStack stack { y with hot := true, coolNext := false }
      (s2.raise Fld.MEM_STATUS_hot_seen).memoryEvent 0x06 2 0 stack 0 (twos temp 8)
    else if temp ≤ 90 && x.hot then s0.setStack stack { y with coolNext := true }
    else s0.setStack stack y
  .next s1.settle

/-- The stacks at a boundary: refresh periods and the end of a hot condition (R557, R560). -/
def State.stacksBoundary (s : State) : State :=
  s.each (List.range 2) (fun t n =>
    let x := t.stack n
    let y := { x with doubled := x.doubleNext.getD x.doubled, doubleNext := none }
    if x.coolNext then
      (t.setStack n { y with hot := false, coolNext := false }).memoryEvent 0x07 0 0 n 0 (twos x.temp 8)
    else t.setStack n y)

/-- A delay set of a pseudo-channel (R561): 128 bytes of the DRAM_SETS record. -/
def State.delaySet (s : State) (pc set : Nat) : Bytes := (s.dramCtl.sets.drop (16 + 128 * (s.dramCtl.nsets * pc + set))).take 128

/-- The delay set that a pseudo-channel has in force. -/
def State.delayNow (s : State) (pc : Nat) : Bytes := s.delaySet pc (s.pc pc).set

/-- The valid delay sets of a pseudo-channel (R561): set 0 is always valid. -/
def State.validSets (s : State) (pc : Nat) : List Nat := s.dramCtl.validSets.findD pc [0]

/-- The next valid set in cyclic order after the one in force that has not failed in this sequence (R564). -/
def State.nextSet (s : State) (pc : Nat) (failed : List Nat) : Option Nat :=
  let now := (s.pc pc).set
  let order := (List.range 4).map (fun i => (now + 1 + i) % 4)
  order.find? (fun k => (s.validSets pc).contains k && !failed.contains k)

/-- A verification fails (R564, R565): the next valid set is tried at once, or the pseudo-channel is fenced at the next boundary. -/
def State.verifyFail (s : State) (pc : Nat) (v : Verify) : State :=
  let p := s.pc pc
  let failed := v.failed ++ [p.set]
  let p1 := { p with fails := min 15 (p.fails + 1) }
  match s.nextSet pc failed with
  | some k =>
    let ends := s.clock.grid + (if s.clockRuns then 12 else 0)
    ((s.setPc pc { p1 with set := k, verify := some { v with failed := failed, ends := ends } }).raise
      Fld.MEM_STATUS_set_changed).memoryEvent 0x01 0 pc k 0 0
  | none =>
    { s.setPc pc { p1 with fencing := true, verify := some { v with failed := failed } } with
        due := s.due ++ [⟨s.clock.grid + 1, .pcFence pc⟩] }

/-- The lowest idle spare of a stack that is not being verified. -/
def State.idleSpare (s : State) (stack : Nat) : Option Nat :=
  (if stack = 0 then [30, 31] else [62, 63]).find? (fun k => (s.pc k).state == .idleSpare && (s.pc k).verify.isNone)

/-- A pseudo-channel is fenced at a boundary, and an idle spare of its stack is brought up for its place (R565, R568). -/
def State.fence (s : State) (pc : Nat) : State :=
  let p := s.pc pc
  if p.state == .fenced then s
  else
    let place := match p.verify with
      | some v => v.spareFor.getD p.serves
      | none => p.serves
    let s1 := s.setPc pc { p with state := .fenced, fencing := false, verify := none }
    let needs := (pcGroup place).isSome
    let spare := if needs then s1.idleSpare (pc / 32) else none
    let s2 := match spare with
      | some k => s1.setPc k { s1.pc k with verify := some ⟨s.clock.grid + 12, [], some place, false⟩ }
      | none => s1
    let s3 := { s2 with dramCtl := { s2.dramCtl with rebuilds := s2.dramCtl.rebuilds.filter (fun r => r.spare != pc) } }
    (s3.raise Fld.MEM_STATUS_fenced).memoryEvent 0x02 2 pc (spare.getD 0xFF) 0 0

/-- A verification of a pseudo-channel starts (R562, R563, R570): skipped for fenced pseudo-channels, idle spares, and in Doze. -/
def execVerifyStart (pc : Nat) (s : State) : Res :=
  let p := s.pc pc
  let ok := s.clock.count % 585728 == 9152 * pc && (p.state == .inService || p.state == .rebuilding) && p.verify.isNone &&
    !p.fencing && s.power.state ≤ 1
  let s1 := if ok then s.setPc pc { p with verify := some ⟨s.clock.grid + 12, [], none, false⟩ } else s
  .next s1.settle

/-- Every pseudo-channel in service is verified in the exit from Retain or Deep (R571); the grid does not run until the exit ends. -/
def State.verifyAll (s : State) : State :=
  s.each (List.range 64) (fun t n =>
    let p := t.pc n
    if (p.state == .inService || p.state == .rebuilding) && !p.fencing then
      t.setPc n { p with verify := some ⟨t.clock.grid, [], none, false⟩ }
    else t)

/-- Self-refresh (R571): every postponed refresh is issued and all banks are precharged. -/
def State.selfRefresh (s : State) : State :=
  { s with dramCtl := { s.dramCtl with pcs := s.dramCtl.pcs.map (fun p => (p.1, { p.2 with postponed := 0, refreshDue := false })), openRows := [] } }

/-- The end of a verification that passed: a spare begins to serve and its rebuild starts; a watchdog recovery is reported. -/
def State.verifyPass (s : State) (pc : Nat) (v : Verify) : State :=
  let p := s.pc pc
  let s1 := match v.spareFor with
    | some place =>
      let s2 := s.setPc pc { p with verify := none, state := .rebuilding, serves := place }
      { s2 with dramCtl := { s2.dramCtl with rebuilds := s2.dramCtl.rebuilds ++ [⟨place, pc, 0, 0, s.clock.grid⟩] } }
    | none => s.setPc pc { p with verify := none }
  if v.watchdog then ((s1.bump Fld.MEM_ERR_COUNT_watchdog).raise Fld.MEM_STATUS_watchdog).memoryEvent 0x05 1 pc 0 0 0 else s1

/-- A verification ends, 12 tides after its start (R562, R564, R565). -/
def execVerifyEnd (t pc : Nat) (ok : Bool) (s : State) : Res :=
  let s0 := s.at t
  let s1 := match (s0.pc pc).verify with
    | none => s0
    | some v =>
      if s0.clock.grid < v.ends || (s0.pc pc).fencing then s0
      else if ok then s0.verifyPass pc v else s0.verifyFail pc v
  .next s1.settle

/-- The stripes of a group (R542). -/
def groupStripes : Nat := 16777216

/-- A rebuild writes stripes, up to 64 a tide (R566); with the last one the spare is in service. -/
def execRebuildStripes (t n : Nat) (s : State) : Res :=
  let s0 := s.at t
  let s1 := match s0.dramCtl.rebuilds with
    | [] => s0
    | r :: rest =>
      let used := if r.tide = s0.clock.grid then r.tideCount else 0
      let m := min (min n (64 - used)) (groupStripes - r.next)
      let r1 := { r with next := r.next + m, tideCount := used + m, tide := s0.clock.grid }
      if groupStripes ≤ r1.next then
        let s2 := { s0 with dramCtl := { s0.dramCtl with rebuilds := rest } }
        (s2.setPc r.spare { s2.pc r.spare with state := .inService }).memoryEvent 0x03 0 r.spare 0 0 0
      else { s0 with dramCtl := { s0.dramCtl with rebuilds := r1 :: rest } }
  .next s1.settle

/-- The command watchdog of a pseudo-channel (R569): its columns become known erasures, the delay set in force is written again, and a
verification starts, at whose end service resumes or R564 goes on. The writes buffered wait. -/
def execDramCommandWatchdog (t pc : Nat) (s : State) : Res :=
  let s0 := s.at t
  let p := s0.pc pc
  let s1 := if p.state == .fenced || p.state == .idleSpare || p.fencing then s0
    else s0.setPc pc { p with verify := some ⟨s0.clock.grid + 12, [], p.verify.bind (fun v => v.spareFor), true⟩ }
  .next s1.settle

/-- A group runs degraded (R568): one of its pseudo-channels is fenced and no spare serves it. -/
def State.degraded (s : State) : Bool :=
  (s.dramCtl.pcs.filter (fun e => (pcGroup e.1).isSome && e.2.state == .fenced)).any (fun e => (s.spareOf e.1).isNone)

end Sys2Proof.Machine
end

