-- ==== Sys2Proof/Machine/Arrays.lean ====
section
/-! DEFINITION. The arrays and the entries in them: slots and logical banks (R16 to R22), row tags and their states (R226 to
R231), spans (R232), the shadows (R268 to R271), precedence (R142), matching (R145, R199), operation budgets (R55, R238),
removal (R244, R245) and the tag turn of the commit stroke (R228). -/
namespace Sys2Proof.Machine

/-- The slot that a logical bank has of its own (R18, R19), as q × 136 + b × 17 + k. -/
def ownSlot (l : Nat) : Nat := l / 128 * 136 + l / 16 % 8 * 17 + l % 16
/-- The spare of a logical bank's block (R18). -/
def spareSlot (l : Nat) : Nat := l / 128 * 136 + l / 16 % 8 * 17 + 16
/-- The partner bank of the mirror (R22, R231, R292): the same block and slot of quadrant q XOR 2. -/
def partnerBank (l : Nat) : Nat := (l + 256) % 512
/-- A key of a slot's unit or row, or of a bank's row. -/
def rowKey (slot row : Nat) : Nat := slot * 32768 + row
/-- The key of an array line: four units of a bank (R56). -/
def lineKey (bank line : Nat) : Nat := bank * 8192 + line

/-- A tag of a row that holds nothing. -/
def Tag.reset : Tag := ⟨.empty, false, 0, 0, 0, 0, 0⟩
/-- A unit of canonical zeros. -/
def UnitBits.reset : UnitBits := ⟨0, 0⟩

/-- The physical slot that serves a logical bank (R20). -/
def State.slotOf (s : State) (bank : Nat) : Nat := s.arrays.served.findD bank (ownSlot bank)

/-- The slots that a write of a row goes to: the serving slot, and the target of a drain that has copied the row (R264, R291). -/
def State.slotsOf (s : State) (bank row : Nat) : List Nat :=
  match s.arrays.drain with
  | some d => if d.bank = bank && row < d.copied then [s.slotOf bank, d.target] else [s.slotOf bank]
  | none => [s.slotOf bank]

/-- A row's tag (R226). -/
def State.tag (s : State) (bank row : Nat) : Tag := s.arrays.tags.findD (rowKey (s.slotOf bank) row) Tag.reset

/-- An array unit. -/
def State.unitBits (s : State) (bank unit : Nat) : UnitBits := s.arrays.units.findD (rowKey (s.slotOf bank) unit) UnitBits.reset

/-- The arrays with a tag put in a slot. -/
def Arrays.putTag (a : Arrays) (slot row : Nat) (t : Tag) : Arrays :=
  { a with tags := if t == Tag.reset then a.tags.del (rowKey slot row) else a.tags.put (rowKey slot row) t }

/-- The arrays with a unit put in a slot. -/
def Arrays.putUnit (a : Arrays) (slot unit : Nat) (u : UnitBits) : Arrays :=
  { a with units := if u == UnitBits.reset then a.units.del (rowKey slot unit) else a.units.put (rowKey slot unit) u }

/-- A running trace visits a bank of a table (R380, R383). -/
def Trace.covers (x : Trace) (bank tnum : Nat) : Bool :=
  x.tid % 4096 == tnum && x.banks.isSome && (x.visited.contains bank || (x.banks.getD []).contains bank)

/-- A running digest visits a bank of a table (R387). -/
def Digest.covers (x : Digest) (bank tnum : Nat) : Bool :=
  x.tid % 4096 == tnum && x.lines.isSome && (x.visited.contains bank || (x.lines.getD []).any (fun k => k / 8192 == bank))

/-- A row of the table of `t` is written: running traces and digests that visit its bank are unstable (R383, R387). -/
def State.noteRow (s : State) (bank : Nat) (t : Tag) : State :=
  if t.state == .empty || (s.observe.traces.isEmpty && s.observe.digests.isEmpty) then s
  else { s with observe := { s.observe with
    traces := s.observe.traces.map (fun x => if x.covers bank t.tnum then { x with unstable := true } else x)
    digests := s.observe.digests.map (fun x => if x.covers bank t.tnum then { x with unstable := true } else x) } }

/-- A row's tag written, in every slot that R264 names. -/
def State.putTag (s : State) (bank row : Nat) (t : Tag) : State :=
  let s1 := (s.noteRow bank (s.tag bank row)).noteRow bank t
  { s1 with arrays := (s1.slotsOf bank row).foldl (fun a k => a.putTag k row t) s1.arrays }

/-- A unit of a row written, in every slot that R264 names. -/
def State.putUnit (s : State) (bank row unit : Nat) (u : UnitBits) : State :=
  let s1 := s.noteRow bank (s.tag bank row)
  { s1 with arrays := (s1.slotsOf bank row).foldl (fun a k => a.putUnit k unit u) s1.arrays }

/-- The parity of the tide, on the model's own grid index, which never steps (notes/assumptions/15.md). -/
def State.parity (s : State) : Bool := s.clock.grid % 2 == 1

/-- The mirror is in force, or is being built for a change into M3 (R130, R131, R231). -/
def State.mirroring (s : State) : Bool := s.mode.mode == 3 || s.mode.pending == some 3

/-- The banks in which a row is written: the bank, and its partner in M3, for a row that the mirror build has covered, and for a
row whose mirror copy is still to be freed (R131, R132, R231). -/
def State.writeBanks (s : State) (bank row : Nat) : List Nat :=
  let k := rowKey bank row
  let p := partnerBank bank
  if s.mode.mode == 3 || (s.mode.pending == some 3 && !s.arrays.mirrorBuild.contains k) ||
      s.arrays.mirrorFree.contains (rowKey p row) then [bank, p] else [bank]

/-- A write of a row's tag in its bank and its mirror. -/
def State.writeTag (s : State) (bank row : Nat) (t : Tag) : State :=
  s.each (s.writeBanks bank row) (fun x b => x.putTag b row t)

/-- The width in units of a bank that holds an occupied span (R148, R232). -/
def State.bankWidth (s : State) (bank : Nat) : Option Nat :=
  (s.arrays.spans.find? (fun p => p.1 / 512 == bank)).map (fun p => p.2.width)

/-- The span that a row of a width lies in (R232). -/
def spanOf (bank w row : Nat) : Nat := bank * 512 + w * row / 64

/-- The banks that a row of a bank takes room in: with a mirror its partner too (R148, R231). -/
def State.pairBanks (s : State) (bank : Nat) : List Nat := if s.mirroring then [bank, partnerBank bank] else [bank]

/-- A span is free for a table: its own, or no table's, in a bank of its width or of none (R148, R232); with a mirror in both banks of
the pair. -/
def State.spanFree (s : State) (tid w bank row : Nat) : Bool :=
  (s.pairBanks bank).all (fun b =>
    (match s.arrays.spans.find (spanOf b w row) with
     | some o => o.tid == tid && o.width == w
     | none => true) &&
    (match s.bankWidth b with
     | some v => v == w
     | none => true)) && row < 32768 / w && bank < 512

/-- The span of a row is given to a table, in the bank and, with a mirror, in its partner. -/
def State.takeSpan (s : State) (tid w bank row : Nat) : State :=
  { s with arrays := { s.arrays with spans := (s.pairBanks bank).foldl (fun m b => m.put (spanOf b w row) ⟨tid, w⟩) s.arrays.spans } }

/-- A row of one bank may be written (R229). -/
def State.tagWritable (s : State) (bank row : Nat) : Bool :=
  let t := s.tag bank row
  t.state == .empty || (t.state == .retiring && t.ptide != s.parity)

/-- A row may be written in every bank that its writes go to (R229, R231). -/
def State.writable (s : State) (bank row : Nat) : Bool := (s.writeBanks bank row).all (fun b => s.tagWritable b row)

/-- Unit `j` of a value or a mask (R144). -/
def unitOf (d : Digits) (j : Nat) : Unit80 := d.extractLsb' (80 * j) 80

/-- The digits that bytes spell, unit 0 first (R144). -/
def digitsOf (bs : Bytes) : Digits := BitVec.ofNat 320 (leNat bs)

/-- The width code of records: 0 one unit, 1 two, 2 four. -/
def widthUnits (code : Nat) : Nat := if code = 0 then 1 else if code = 1 then 2 else 4
/-- The code of a width. -/
def unitsCode (w : Nat) : Nat := if w = 1 then 0 else if w = 2 then 1 else 2

/-- An entry (R152). -/
def State.entry (s : State) (len : Nat) : Option Entry := s.numbers.entries.find len

/-- An entry replaced. -/
def State.setEntry (s : State) (len : Nat) (e : Entry) : State :=
  { s with numbers := { s.numbers with entries := s.numbers.entries.put len e } }

/-- The ring member index of this device; 0 outside a ring (R152). -/
def State.member (s : State) : Nat := if s.links.record.ringEnable then s.links.record.member else 0

/-- A handle (R152). -/
def State.handle (s : State) (gen len : Nat) : Nat := s.member * 2 ^ 29 + gen * 2 ^ 24 + len

/-- The handle of a logical entry number as it stands, or null. -/
def State.handleOf (s : State) (len : Nat) : Nat :=
  match s.entry len with
  | some e => s.handle e.gen len
  | none => 0

/-- `precedes` on one device (R142), from the class and the keys of two entries; equal handles answer false. -/
def precedes (cls : Nat) (a b : Nat × Nat × Nat) : Bool :=
  if a.2.2 = b.2.2 then false
  else if cls = 0 then (if a.1 != b.1 then b.1 < a.1 else seqEarlier a.2.1 b.2.1)
  else if cls = 1 then a.1 < b.1
  else seqEarlier a.2.1 b.2.1

/-- The keys of an entry for `precedes`, with its logical entry number. -/
def Entry.keys (e : Entry) (len : Nat) : Nat × Nat × Nat := (e.keyHi, e.keyLo, len)

/-- A metadata shadow line (R269); state 0 FREE, 1 LIVE, 2 LOST, 3 WITHHELD. -/
def metaLine (keyHi keyLo tnum wcode st row bank gen : Nat) : Bytes :=
  leBytes keyHi 4 ++ leBytes keyLo 4 ++ leBytes (tnum % 4096 + wcode * 4096 + st * 16384) 2 ++ leBytes (row % 32768) 2 ++
    leBytes (bank % 512 + gen * 512) 2 ++ zeros 2

/-- The metadata shadow of an entry is written (R270). -/
def State.writeMeta (s : State) (len : Nat) (e : Entry) (st : Nat) : State :=
  s.dramWrite (metaAddr len) (metaLine e.keyHi e.keyLo e.tid (unitsCode e.width) st e.row e.bank e.gen)

/-- Shadow writes issued for a line: it is unsettled until they complete (R271). A line being compared is marked as written
(R274). -/
def State.unsettle (s : State) (bank line n : Nat) : State :=
  let k := lineKey bank line
  { s with scrub := { s.scrub with
      unsettled := s.scrub.unsettled.put k (s.scrub.unsettled.findD k 0 + n),
      reads := s.scrub.reads.map (fun r => if r.bank = bank && r.line = line then { r with dirty := true } else r) } }

/-- A unit or tag of a line is written: a comparison that is outstanding for the line is discarded (R274). -/
def State.touch (s : State) (bank line : Nat) : State :=
  { s with scrub := { s.scrub with
      reads := s.scrub.reads.map (fun r => if r.bank = bank && r.line = line then { r with dirty := true } else r) } }

/-- The line of a row (R56). -/
def lineOf (w row : Nat) : Nat := w * row / 4

/-- The array shadow of a row's units (R268, R270). -/
def State.shadowRow (s : State) (bank w row : Nat) (e : Entry) : State :=
  s.each (List.range w) (fun x j =>
    x.dramWrite (shadowAddr (bank * 32768 + w * row + j))
      (leBytes (unitOf e.value j).toNat 10 ++ leBytes (unitOf e.mask j).toNat 10))

/-- The new label of an entry has still to be written to its row (R242): it belongs to a renumbering that runs. -/
def State.labelPending (s : State) (len : Nat) : Bool :=
  s.cmds.flights.any (fun i => i.relabels.contains len) || s.tables.any (fun p => p.2.relabel.any (fun x => x.1 == len))

/-- The keys that an entry's rows carry (R226): those of the entry, but the label in its row while a new one waits to be written, so
that label order equals list order at every stroke (R242). -/
def State.rowKeys (s : State) (len : Nat) (e : Entry) : Nat × Nat :=
  let t := s.tag e.bank e.row
  if s.labelPending len && t.state != .empty && t.len == len && t.gen == e.gen then (t.keyHi, t.keyLo) else (e.keyHi, e.keyLo)

/-- The tag that places an entry (R227). -/
def State.armedTag (s : State) (len : Nat) (e : Entry) : Tag :=
  let k := s.rowKeys len e
  ⟨.armed, s.parity, e.tid % 4096, e.gen, len, k.1, k.2⟩

/-- The line of a row in both banks of a pair becomes unsettled by a shadow write (R271): the pair has one shadow. -/
def State.unsettlePair (s : State) (bank line n : Nat) : State := s.each (s.pairBanks bank) (fun x b => x.unsettle b line n)

/-- An entry's units and ARMED tag are written to a row, with the shadows of the row (R227, R230, R270). The row becomes the
entry's home. -/
def State.placeRow (s : State) (len bank row : Nat) : State :=
  match s.entry len with
  | none => s
  | some e0 =>
    let e := { e0 with bank := bank, row := row }
    let keys := s.rowKeys len e0
    let tag : Tag := ⟨.armed, s.parity, e.tid % 4096, e.gen, len, keys.1, keys.2⟩
    let k := rowKey bank row
    let uncovered := s.mode.pending == some 3 && s.arrays.mirrorBuild.any (fun x => x / 32768 == bank)
    let s0 := if uncovered && !s.arrays.mirrorBuild.contains k
      then { s with arrays := { s.arrays with mirrorBuild := s.arrays.mirrorBuild ++ [k] } } else s
    let s1 := (s0.takeSpan e.tid e.width bank row).setEntry len e
    let s2 := s1.each (s1.writeBanks bank row) (fun x b =>
      let y := x.each (List.range e.width) (fun z j =>
        z.putUnit b row (e.width * row + j) ⟨unitOf e.value j, unitOf e.mask j⟩)
      (y.putTag b row tag).touch b (lineOf e.width row))
    ((s2.shadowRow bank e.width row e).writeMeta len { e with keyHi := keys.1, keyLo := keys.2 } 1).unsettlePair bank
      (lineOf e.width row) (e.width + 1)

/-- The mirror copy of a row, retired with it, needs no freeing of its own (R132). -/
def State.dropMirror (s : State) (bank row : Nat) : State :=
  { s with arrays := { s.arrays with
      mirrorFree := s.arrays.mirrorFree.filter (fun k => k != rowKey (partnerBank bank) row) } }

/-- A row is retired (R227, R245): LIVE, or ARMED of an earlier slack, becomes RETIRING; ARMED of this slack becomes EMPTY;
RETIRING stays. -/
def State.retireRow (s : State) (bank row w : Nat) : State :=
  (s.each (s.writeBanks bank row) (fun x b =>
    let t := x.tag b row
    let y := match t.state with
      | .live => x.putTag b row { t with state := .retiring, ptide := x.parity }
      | .armed => if t.ptide == x.parity then x.putTag b row Tag.reset
          else x.putTag b row { t with state := .retiring, ptide := x.parity }
      | _ => x
    y.touch b (lineOf w row))).dropMirror bank row

/-- The write-phase strokes of the mode in force (R53). -/
def State.writeStrokes (s : State) : Nat := lastWriteStroke s.mode.mode + 1 - s.params.slackAt

/-- The operations reserved per bank for command writes (R238). -/
def State.bankReserve (s : State) : Nat := if s.mode.mode = 4 then 4 else if s.mode.mode = 6 then 16 else 2

/-- Write-phase operations that a bank has used in this tide: by command writes, and by the rest (R55). -/
def State.bankUsed (s : State) (bank : Nat) : Nat × Nat :=
  if s.arrays.opsAt = s.clock.grid then (s.arrays.cmdOps.findD bank 0, s.arrays.planOps.findD bank 0) else (0, 0)

/-- Write-phase operations used in this tide device-wide. -/
def State.opsUsed (s : State) : Nat × Nat :=
  if s.arrays.opsAt = s.clock.grid then
    (s.arrays.cmdOps.vals.foldl (fun a b => a + b) 0, s.arrays.planOps.vals.foldl (fun a b => a + b) 0)
  else (0, 0)

/-- The write-phase operations of a tide device-wide (R55). No operation spans a boundary: longer work goes on in steps (R62). -/
def State.opsTotal (s : State) : Nat := s.params.cap * s.writeStrokes

/-- The slots whose ports a write to a bank takes (R35): the serving slot, and the target of a drain of the bank that has copied rows
(R264, R291). -/
def State.portSlots (s : State) (bank : Nat) : List Nat :=
  match s.arrays.drain with
  | some d => if d.bank = bank && 0 < d.copied then [s.slotOf bank, d.target] else [s.slotOf bank]
  | none => [s.slotOf bank]

/-- A slot's port in a stroke of the tide (R35). -/
def portKey (stroke slot : Nat) : Nat := stroke * 1024 + slot

/-- The port strokes taken in this tide. -/
def State.portsTaken (s : State) : List Nat := if s.arrays.opsAt = s.clock.grid then s.arrays.ports else []

/-- Operations that a stroke has granted (R55). -/
def grantedIn (ports : List Nat) (stroke : Nat) : Nat := (ports.filter (fun k => k / 1024 == stroke)).length

/-- A stroke can grant one operation to each of some slots together (R35, R55, R231): their ports are free, and the cap holds. -/
def strokeOpen (cap : Nat) (ports slots : List Nat) (stroke : Nat) : Bool :=
  slots.all (fun k => !ports.contains (portKey stroke k)) && grantedIn ports stroke + slots.length ≤ cap

/-- `n` operations on the ports of some slots together take the first strokes that can grant them. -/
def takePorts (cap : Nat) (slots : List Nat) : Nat → List Nat → List Nat → Option (List Nat)
  | 0, _, ports => some ports
  | _ + 1, [], _ => none
  | n + 1, t :: ts, ports =>
    if strokeOpen cap ports slots t then takePorts cap slots n ts (slots.map (portKey t) ++ ports)
    else takePorts cap slots (n + 1) ts ports

/-- The strokes of the write phase that are left, this one included (R53). -/
def State.writeLeft (s : State) : List Nat :=
  let first := max s.clock.stroke s.params.slackAt
  (List.range (lastWriteStroke s.mode.mode + 1 - first)).map (fun i => first + i)

/-- The ports taken once `n` operations on some slots have been granted in the write phase; none where they are not (R35, R55). -/
def State.grant (s : State) (slots : List Nat) (n : Nat) : Option (List Nat) :=
  takePorts s.params.cap slots n s.writeLeft s.portsTaken

/-- The slots of some banks. -/
def State.slotsFor (s : State) (banks : List Nat) : List Nat := banks.flatMap s.portSlots

/-- Strokes of the write phase left in which a bank's port is free. -/
def State.openStrokes (s : State) (bank : Nat) : Nat :=
  (s.writeLeft.filter (strokeOpen s.params.cap s.portsTaken (s.portSlots bank))).length

/-- Operations that the write phase can still grant device-wide. -/
def State.openOps (s : State) : Nat :=
  (s.writeLeft.map (fun t => s.params.cap - grantedIn s.portsTaken t)).foldl (fun a b => a + b) 0

/-- The operations are granted: their ports are taken. -/
def State.takeGrant (s : State) (slots : List Nat) (n : Nat) : State :=
  { s with arrays := { s.arrays with opsAt := s.clock.grid, ports := (s.grant slots n).getD s.portsTaken } }

/-- Command-write operations are used in banks (R238, R257). -/
def State.useCmd (s : State) (banks : List Nat) (n : Nat) : State :=
  let fresh := s.arrays.opsAt = s.clock.grid
  let s1 := s.takeGrant (s.slotsFor banks) n
  { s1 with arrays := { s1.arrays with
      cmdOps := banks.foldl (fun m b => m.put b (m.findD b 0 + n)) (if fresh then s.arrays.cmdOps else []),
      planOps := if fresh then s.arrays.planOps else [] } }

/-- Plan operations are used in banks (R238). -/
def State.usePlan (s : State) (banks : List Nat) (n : Nat) : State :=
  let fresh := s.arrays.opsAt = s.clock.grid
  let s1 := s.takeGrant (s.slotsFor banks) n
  { s1 with arrays := { s1.arrays with
      cmdOps := if fresh then s.arrays.cmdOps else [],
      planOps := banks.foldl (fun m b => m.put b (m.findD b 0 + n)) (if fresh then s.arrays.planOps else []) } }

/-- Operations of some slots together are used by work that ranks after plans, or by a drain on its target (R257, R264). -/
def State.useSlots (s : State) (slots : List Nat) (n : Nat) : State :=
  let fresh := s.arrays.opsAt = s.clock.grid
  let s1 := s.takeGrant slots n
  { s1 with arrays := { s1.arrays with
      cmdOps := if fresh then s.arrays.cmdOps else [], planOps := if fresh then s.arrays.planOps else [] } }

/-- Repair, auto-removal or background operations are used in banks (R257). -/
def State.useOther (s : State) (banks : List Nat) (n : Nat) : State := s.useSlots (s.slotsFor banks) n

/-- `n` operations on each of some banks, in the same strokes, are granted, with room kept for what ranks before them: `ahead` gives
it per bank, `all` device-wide (R55, R257). -/
def State.opsRoom (s : State) (banks : List Nat) (n : Nat) (ahead : Nat → Nat) (all : Nat) : Bool :=
  !s.domainDown 25 && (s.grant (s.slotsFor banks) n).isSome && banks.all (fun b => n + ahead b ≤ s.openStrokes b) &&
    n * (s.slotsFor banks).length + all ≤ s.openOps

/-- Banks have operations left for a plan step in the same strokes, with the reserve of R238 kept. -/
def State.planRoom (s : State) (banks : List Nat) (n : Nat) : Bool :=
  let d := s.opsUsed
  s.opsRoom banks n (fun _ => 0) 0 &&
    banks.all (fun b => (s.bankUsed b).2 + n + max (s.bankUsed b).1 s.bankReserve ≤ s.writeStrokes) &&
    d.2 + n * banks.length + max d.1 s.params.commands ≤ s.opsTotal

/-- The generation that a logical entry number's next allocation takes (R154). -/
def nextGen (g : Nat) : Nat := if g < 31 then g + 1 else 1

/-- A number that may be allocated: not withheld, its metadata line not pending (R280, R282). -/
def State.allocatable (s : State) (len : Nat) : Bool := !s.numbers.withheld.contains len && !s.numbers.pendingMeta.has len

/-- The first freed number that may be allocated. -/
def State.reusable (s : State) : Option Nat :=
  match s.numbers.freed.filter (fun p => s.allocatable p.1) with
  | (len, at_) :: _ => if at_ + 2 ≤ s.clock.grid then some len else none
  | [] => none

/-- The next logical entry number, from the head of the free list (R155, R282); none while the list is empty or its head was freed
less than 2 tides ago. -/
def State.nextNumber (s : State) : Option Nat :=
  let n := s.numbers
  let new := (List.range (n.withheld.length + n.pendingMeta.length + 1)).find? (fun i => s.allocatable (n.fresh + i))
  match new with
  | some i => if n.fresh + i < 16777216 then some (n.fresh + i) else s.reusable
  | none => s.reusable

/-- A logical entry number is taken from the free list, with its next generation (R154). Fresh numbers passed over join its tail. -/
def State.takeNumber (s : State) (len : Nat) : State × Nat :=
  let g := nextGen (s.numbers.gens.findD len 0)
  let n := { s.numbers with gens := s.numbers.gens.put len g }
  ({ s with numbers := if n.fresh ≤ len then
        { n with fresh := len + 1, freed := n.freed ++ (List.range (len - n.fresh)).map (fun i => (n.fresh + i, s.clock.grid)) }
      else { n with freed := n.freed.filter (fun p => p.1 != len) } }, g)

/-- An entry that a handle names, current and live (R156): a handle with an old generation, of a freed number or of an entry still
being placed names none. -/
def State.liveEntry (s : State) (handle : Nat) : Option (Nat × Entry) :=
  let len := handle % 2 ^ 24
  match s.entry len with
  | some e =>
    if e.gen = handle / 2 ^ 24 % 32 && e.state != .placing && handle / 2 ^ 24 % 32 != 0 &&
        !s.numbers.freeing.contains (e.tid, len) then some (len, e) else none
  | none => none

/-- A table's record. -/
def State.table (s : State) (tid : Nat) : Option TableRec := s.tables.find tid

/-- A table's record replaced. -/
def State.setTable (s : State) (t : TableRec) : State := { s with tables := s.tables.put t.df.tid t }

/-- A table's units change (R167). -/
def State.chargeUnits (s : State) (tid : Nat) (w : Nat) (up : Bool) : State :=
  { s with tables := s.tables.modify tid (fun t => { t with units := if up then t.units + w else t.units - w }) }

/-- An entry is removed (R244, R245): its row is retired, its metadata line set FREE, and it waits for the boundary that frees its
number. -/
def State.removeEntry (s : State) (len : Nat) : State :=
  match s.entry len with
  | none => s
  | some e =>
    if e.state == .retired then s
    else
      let s1 := s.retireRow e.bank e.row e.width
      let s2 := (s1.writeMeta len e 0).unsettlePair e.bank (lineOf e.width e.row) 1
      s2.setEntry len { e with state := .retired }

/-- The entries removed in the tide that ended are freed at the boundary (R155, R244): their units leave the quotas, unless an
insertion's acceptance has already released them (R248). -/
def State.freeRetired (s : State) : State :=
  let gone := s.numbers.entries.filter (fun p => p.2.state == .retired)
  let s1 := s.each gone (fun x p => if p.2.charged then x.chargeUnits p.2.tid p.2.width false else x)
  { s1 with numbers := { s1.numbers with
      entries := s1.numbers.entries.filter (fun p => p.2.state != .retired),
      freed := s1.numbers.freed ++ gone.map (fun p => (p.1, s1.clock.grid)),
      pendingMeta := s1.numbers.pendingMeta.filter (fun p => !(gone.any (fun q => q.1 = p.1))),
      freeing := s1.numbers.freeing.filter (fun p => !(gone.any (fun q => q.1 = p.2))) } }

/-- The row-tag turn of the commit stroke (R228). -/
def State.turnTags (s : State) : State :=
  let turn := fun (t : Tag) =>
    if t.ptide == s.parity then t
    else match t.state with
      | .armed => { t with state := .live }
      | .retiring => Tag.reset
      | _ => t
  { s with arrays := { s.arrays with
      tags := (s.arrays.tags.map (fun p => (p.1, turn p.2))).filter (fun p => p.2 != Tag.reset) } }

/-- A unit matches 80 bits of a key (R145). -/
def UnitBits.hits (u : UnitBits) (k : Unit80) : Bool := (u.value ^^^ k) &&& u.mask == 0

/-- The rows of a bank that an activation can match for a table (R226): row and tag, in row order. -/
def State.matchable (s : State) (bank tnum : Nat) : List (Nat × Tag) :=
  let slot := s.slotOf bank
  (s.arrays.tags.filter (fun p => p.1 / 32768 == slot && p.2.tnum == tnum && (p.2.state == .live || p.2.state == .retiring))).map
    (fun p => (p.1 % 32768, p.2))

/-- A row's units match a key (R145). -/
def State.rowHits (s : State) (bank w row : Nat) (key : Digits) : Bool :=
  (List.range w).all (fun j => (s.unitBits bank (w * row + j)).hits (unitOf key j))

/-- The first match of an activated bank (R17, R199): rows whose tag read uncorrectable are treated as non-matching (R267). -/
def State.firstMatch (s : State) (bank tnum w : Nat) (key : Digits) (bad : List Nat) : Option Cand :=
  ((s.matchable bank tnum).find? (fun p => !bad.contains p.1 && s.rowHits bank w p.1 key)).map
    (fun p => ⟨bank, p.1, p.2.len, p.2.gen, p.2.keyHi, p.2.keyLo⟩)

/-- Rows of a bank that hold something: not EMPTY. -/
def State.rowsHeld (s : State) (bank : Nat) : Nat :=
  (s.arrays.tags.filter (fun p => p.1 / 32768 == s.slotOf bank)).length

/-- A bank holds the rows of no table of its own in this slot. -/
def State.bankEmpty (s : State) (bank : Nat) : Bool := s.rowsHeld bank == 0

/-- The rows that the insertions in flight have still to write: bank, row, the entry that goes there. -/
def Insertion.targets (i : Insertion) (tagLen : Nat → Nat → Nat) : List (Nat × Nat × Nat) :=
  let moves := i.plan.steps.flatten
  moves.map (fun m => (m.bank, m.dst, tagLen m.bank m.src)) ++
    (if i.lastWrite.isNone && i.rollback.isNone then [(i.plan.bank, i.plan.row, i.len)] else [])

/-- The spans that no row and no plan uses any more are given up (R232). -/
def State.freeSpans (s : State) : State :=
  let used := fun (bank span w : Nat) =>
    (s.arrays.tags.any (fun p => p.1 / 32768 == s.slotOf bank && w * (p.1 % 32768) / 64 == span)) ||
    s.numbers.entries.any (fun p => (p.2.bank == bank || (s.mirroring && p.2.bank == partnerBank bank)) && p.2.state != .retired &&
      p.2.width * p.2.row / 64 == span) ||
    s.cmds.flights.any (fun i => (i.targets (fun _ _ => 0)).any (fun x =>
      (x.1 == bank || x.1 == partnerBank bank) && w * x.2.1 / 64 == span))
  { s with arrays := { s.arrays with spans := s.arrays.spans.filter (fun p => used (p.1 / 512) (p.1 % 512) p.2.width) } }

/-- A line enters the priority queue, or is dropped when the queue is full (R275). -/
def State.queuePrio (s : State) (bank line : Nat) (verify : Bool) : State :=
  if 64 ≤ s.scrub.prio.length then s.raise Fld.ARY_SCRUB_STATUS_prio_drop
  else { s with scrub := { s.scrub with prio := s.scrub.prio ++ [⟨bank, line, verify⟩] } }

/-- An integrity record (R293). -/
def State.integrity (s : State) (cls event bank row units mirror source handle tid extra : Nat) : State :=
  s.postFault cls 0x2 ([BitVec.ofNat 8 0x40, BitVec.ofNat 8 event] ++ leBytes bank 2 ++ leBytes row 2 ++
    [BitVec.ofNat 8 (units + 16 * mirror), BitVec.ofNat 8 source] ++ leBytes handle 4 ++ leBytes tid 2 ++ zeros 2 ++
    leBytes s.clock.count 8 ++ leBytes extra 8)

end Sys2Proof.Machine
end

