-- ==== Sys2Proof/Machine/Access.lean ====
section
/-! DEFINITION. Register writes (R11 to R14, R623 to R629): storing fields by access code, the ranges of fields, blocks that are not
served, and GLB_ACCESS_LOG. The registers with a behaviour of their own have it in the files of their families. -/
namespace Sys2Proof.Machine

/-- A write that is not acted on is recorded (R629): of the writes of one stroke, the one whose offset is highest. -/
def State.logAccess (s : State) (fn : Nat) (off reason : Nat) : State :=
  let s1 := s.bumpHold Fld.GLB_ACCESS_LOG_count
  let keep := s.host.accessAt = some s.now && off / 8 < s.fld Fld.GLB_ACCESS_LOG_offset
  if keep then s1
  else
    let s2 := ((s1.setFld Fld.GLB_ACCESS_LOG_function fn).setFld Fld.GLB_ACCESS_LOG_reason reason).setFld
      Fld.GLB_ACCESS_LOG_offset (off / 8)
    { s2 with host := { s2.host with accessAt := some s.now } }

/-- The registers of BAR0 that answer in Recovery (R111): GLB, SEC, PWR, HST and FLT. -/
def Reg.inRecovery (r : Reg) : Bool :=
  let b := r.offset / 0x100000
  b == 0 || b == 7 || b == 0xA || b == 0xC || b == 0xD

/-- The power domain of the object that a register reports or controls (R627): the quays, the quadrants, and the pilot with its
scrubber, drains and self-tests. The ring ports and the scribe halves share registers, which Views.lean takes apart. -/
def Reg.domain (r : Reg) (i : Nat) : Option Nat :=
  match r with
  | .QUY_STATUS | .QUY_CTL | .QUY_LANES | .QUY_ERR_COUNT | .QUY_CORR_COUNT | .QUY_RESULT_COUNT => some (6 + i / 4)
  | .ARY_BANK_INFO => some (20 + i / 128)
  | .PIL_STATUS | .PIL_INSERT_COUNT | .PIL_CHART_INFO | .PIL_DRAIN_CTL | .PIL_DRAIN_STATUS | .ARY_SCRUB_CTL | .ARY_SCRUB_STATUS
  | .ARY_BIST_CTL | .ARY_BIST_STATUS => some 25
  | _ => none

/-- The object of a register lies in a reset domain (R627). -/
def State.objectDown (s : State) (r : Reg) (i : Nat) : Bool :=
  match r.domain i with
  | some d => s.domainDown d
  | none => false

/-- The blocks whose objects lie in domains that Doze retains (R576, R627): PIL, ARY, LRN, SCB, TEL and BTH. -/
def Reg.retained (r : Reg) : Bool :=
  let b := r.offset / 0x100000
  1 ≤ b && b ≤ 6

/-- A write is held in Doze (R627). -/
def State.holds (s : State) (r : Reg) : Bool := s.power.state = 2 && r.retained

/-- The bytes of a word that a mask addresses, with the number of the first: the bytes addressed lie together. -/
def maskedBytes (w mask : Nat) : Nat × Bytes :=
  let first := ((List.range 8).find? (fun b => mask / 2 ^ (8 * b) % 2 = 1)).getD 0
  let n := ((List.range 8).filter (fun b => mask / 2 ^ (8 * b) % 2 = 1)).length
  (first, ((leBytes w 8).drop first).take n)

/-- A write that waits for the exit from Doze (R627). -/
def State.holdWrite (s : State) (fn : Nat) (r : Reg) (w mask : Nat) : State :=
  let x := maskedBytes w mask
  { s with host := { s.host with heldWrites := s.host.heldWrites ++ [(fn, r.offset + x.1, x.2)] } }

/-- A register's block is served, and its object's domain is not in reset (R111, R627). -/
def State.served (s : State) (r : Reg) (i : Nat) : Bool :=
  (!s.recovery || r.inRecovery) && !s.power.tamperHold && !s.objectDown r i

/-- The range of a field, by its register and lowest bit (R629 reason 5). Fields not named take every value. -/
def Reg.rangeOk (r : Reg) (lo v : Nat) : Bool :=
  match r, lo with
  | .GLB_TIDE_CTL, 16 => v ≤ 200
  | .GLB_FLASH_PROG_ADDR, 0 => v % 4096 == 0
  | .GLB_FLASH_PROG_CTL, 32 => v % 4096 == 0
  | .GLB_FLASH_PROG_CTL, 16 => 1 ≤ v && v ≤ 256
  | .PIL_HOT_CTL, 8 => 1 ≤ v
  | .ARY_SCRUB_CTL, 16 => 1 ≤ v
  | .LRN_MNF_CTL, 4 => v ≤ 2
  | .LRN_MNF_WM, 32 => 1 ≤ v && v ≤ 32768
  | .LRN_AGE_CTL, 0 => 10 ≤ v && v ≤ 30
  | .SCB_GLYPH_ADDR, 0 => v % 4096 == 0
  | .TEL_SAMPLE_CTL, 0 => 10 ≤ v && v ≤ 30
  | .TEL_MIRROR_CTL, 48 => 1 ≤ v
  | .TEL_MIRROR_CTL, 18 => 1 ≤ v
  | .TEL_DEST_CTL, 18 => 1 ≤ v
  | .QUY_SEL, 0 => v ≤ 47
  | .HST_RING_CTL, 40 => 6 ≤ v && v ≤ 16
  | .HST_RING_CTL, 16 => v ≤ 2
  | .MEM_CTL, 24 => 2 ≤ v && v ≤ 64
  | .MEM_CTL, 8 => 8 ≤ v && v ≤ 16
  | .MEM_RT_CTL, 32 => 1 ≤ v && v ≤ 1024
  | .PWR_STATE_CTL, 16 => 1 ≤ v
  | .FLT_CTL, 4 => v ≤ 1
  | .ARY_BIST_CTL, 6 => v ≤ 16
  | .PWR_DOMAIN_RESET, 0 => v ≤ 29
  | _, _ => true

/-- The bits of a field's range of bytes that a write addresses. -/
def FieldDesc.touched (f : FieldDesc) (mask : Nat) : Bool := (mask / 2 ^ f.lo % 2 ^ f.width) != 0

/-- The RW and W1C fields of a register take a write (R11, R12, R14): `mask` has the bits of the addressed bytes. Fields in `fixed`
keep their value; a value outside its range is not taken. The answer also says whether a value was outside its range, and whether a
fixed field would have changed. -/
def State.storeFields (s : State) (r : Reg) (i w mask : Nat) (fixed : List Nat) : State × Bool × Bool :=
  r.fields.foldl (fun (acc : State × Bool × Bool) f =>
    let x := acc.1
    let fl : Fld := ⟨r, f.lo, f.width⟩
    let old := x.fld fl i
    let m := mask / 2 ^ f.lo % 2 ^ f.width
    let v := (old &&& (2 ^ f.width - 1 - m)) ||| (w / 2 ^ f.lo % 2 ^ f.width &&& m)
    match f.acc with
    | .rw =>
      if m = 0 then acc
      else if fixed.contains f.lo then (x, acc.2.1, acc.2.2 || v != old)
      else if r.rangeOk f.lo v then (x.setFld fl v i, acc.2.1, acc.2.2)
      else (x, true, acc.2.2)
    | .w1c =>
      let set := s.setNow r i / 2 ^ f.lo % 2 ^ f.width
      let clear := w / 2 ^ f.lo % 2 ^ f.width &&& m
      (x.setFld fl (old &&& (2 ^ f.width - 1 - (clear &&& (2 ^ f.width - 1 - set)))) i, acc.2.1, acc.2.2)
    | _ => acc) (s, false, false)

/-- The bits of a whole word. -/
def fullMask : Nat := 2 ^ 64 - 1

/-- A write to a register with a go bit, by the physical function (R623, R628), of the bytes in `mask`: its other fields are stored,
then the go acts, is closed (R625), or is ignored while its work is busy. -/
def State.goBit (s : State) (fn w mask : Nat) (r : Reg) (i : Nat) (go : Fld) (closed : State → Option State) (busy : State → Bool)
    (act : State → State) : State :=
  if s.holds r then s.holdWrite fn r w mask
  else if fn != 0 then s.logAccess fn r.offset 2
  else if !s.served r i then s.logAccess fn r.offset 6
  else
    let x := s.storeFields r i w mask []
    let s1 := if x.2.1 then x.1.logAccess fn r.offset 5 else x.1
    if go.get (w &&& mask) = 0 then s1
    else match closed x.1 with
      | some y => y.logAccess fn r.offset 3
      | none => if busy x.1 then x.1.logAccess fn r.offset 7 else act s1

/-- A write to a register with a go bit whose path is never closed. -/
def State.goWrite (s : State) (fn w mask : Nat) (r : Reg) (i : Nat) (go : Fld) (busy : State → Bool) (act : State → State) : State :=
  s.goBit fn w mask r i go (fun _ => none) busy act

/-- A go bit whose path is closed while cmd_auth is 1 (R625): it is then ignored or refused with the outcome `closed`. -/
def State.goClosed (s : State) (fn w mask : Nat) (r : Reg) (i : Nat) (go : Fld) (closed : State → State) (busy : State → Bool)
    (act : State → State) : State :=
  s.goBit fn w mask r i go (fun x => if x.cmdAuth then some (closed x) else none) busy act

end Sys2Proof.Machine
end

