-- ==== Sys2Proof/Machine/Counts.lean ====
section
/-! DEFINITION. Hit counters and age stamps (R31 to R34, R306, R370 to R377): increments, folds, host writes and coherent reads. -/
namespace Sys2Proof.Machine

/-- The narrow counter of a logical entry number (R370). -/
def State.narrowCount (s : State) (len : Nat) : Nat := s.counters.narrow.findD len 0
/-- The narrow counter set. -/
def State.setNarrow (s : State) (len v : Nat) : State :=
  { s with counters := { s.counters with narrow := if v = 0 then s.counters.narrow.del len else s.counters.narrow.put len v } }
/-- The wide counter in DRAM. -/
def State.wide (s : State) (len : Nat) : Nat := leNat (s.dram.read (wideAddr len) 8)
/-- The wide counter written. -/
def State.setWide (s : State) (len v : Nat) : State := s.dramWrite (wideAddr len) (leBytes (v % 2 ^ 64) 8)
/-- The age stamp of a logical entry number (R306). -/
def State.stampOf (s : State) (len : Nat) : Nat := s.counters.stamps.findD len 0

/-- A stamp with the device epoch in force (R306); it also sets the fresh bit of R310 while one is kept. -/
def State.stamp (s : State) (len : Nat) : State :=
  { s with
      counters := { s.counters with stamps := s.counters.stamps.put len s.learning.epoch }
      learning := if s.learning.away.isSome && !s.learning.fresh.contains len
        then { s.learning with fresh := s.learning.fresh ++ [len] } else s.learning }

/-- The pending-fold place of an entry (R371). -/
def State.foldPlace (s : State) (len : Nat) : Option FoldPlace := s.counters.places.find? (fun p => p.len = len)

/-- The count of an entry (R370). -/
def State.countOf (s : State) (len : Nat) : Nat :=
  (match s.foldPlace len with
   | some p => if p.isSet then p.amount + s.narrowCount len else s.wide len + p.amount + s.narrowCount len
   | none => s.wide len + s.narrowCount len) % 2 ^ 64

/-- A host write of a count where it can act (R373): into the entry's place, or straight to the wide counter. -/
def State.writeCount (s : State) (len v : Nat) : State :=
  let s1 := s.setNarrow len 0
  let s2 := { s1 with counters := { s1.counters with foldQueue := s1.counters.foldQueue.filter (fun n => n != len) } }
  match s2.foldPlace len with
  | some _ => { s2 with counters := { s2.counters with
      places := updateFirst (fun p => p.len = len) (fun p => { p with isSet := true, amount := v % 2 ^ 64 }) s2.counters.places } }
  | none => s2.setWide len v

/-- The increments of an entry that this stroke has already applied: a host write of the stroke comes before them (R374). -/
def State.appliedTo (s : State) (len : Nat) : Nat :=
  if s.counters.appliedAt = s.now then (s.counters.appliedNow.filter (fun n => n == len)).length else 0

/-- A host write of a count (R373): with all 16 places in use and none its own, it waits. -/
def State.hostCount (s : State) (len v : Nat) : State :=
  if (s.foldPlace len).isSome || s.counters.places.length < 16 then (s.writeCount len v).setNarrow len (s.appliedTo len)
  else { s with counters := { s.counters with held := s.counters.held ++ [⟨len, v, none⟩] } }

/-- The counters of a new logical entry number are set to 0 (R239): what waited for its previous entry goes. -/
def State.clearCount (s : State) (len : Nat) : State :=
  let s1 := { s with counters := { s.counters with held := s.counters.held.filter (fun h => h.len != len) } }
  s1.writeCount len 0

/-- A search increment (R371, R375). -/
def State.increment (s : State) (len : Nat) : State :=
  let n := s.narrowCount len
  let s1 := if 65535 ≤ n then s.raise Fld.TEL_CNT_STATUS_sat else s.setNarrow len (n + 1)
  if 32768 ≤ n + 1 && !s1.counters.foldQueue.contains len && s1.counters.foldQueue.length < 64
  then { s1 with counters := { s1.counters with foldQueue := s1.counters.foldQueue ++ [len] } } else s1

/-- An update is applied, or discarded where the generation has changed (R33). -/
def State.applyUpdate (s : State) (u : HitUpdate) : State :=
  if s.numbers.gens.findD u.len 0 = u.gen then (s.stamp u.len).increment u.len else s

/-- An update joins the queue in the order of falling due (R31). -/
def queueUpdate (u : HitUpdate) : List HitUpdate → List HitUpdate
  | [] => [u]
  | x :: xs => if x.due ≤ u.due then x :: queueUpdate u xs else u :: x :: xs

/-- The updates that have fallen due are applied outside the slack, at most 64 in a stroke, in order (R31 to R34). -/
def State.applyUpdates (s0 : State) : State :=
  if s0.inSlack then s0
  else
    let done := if s0.counters.appliedAt = s0.now then s0.counters.appliedNow else []
    let out := (s0.counters.updates.filter (fun u => u.due ≤ s0.now)).take (64 - done.length)
    let s2 := { s0 with counters := { s0.counters with
      updates := s0.counters.updates.drop out.length, appliedAt := s0.now
      appliedNow := done ++ out.map (fun (u : HitUpdate) => if s0.numbers.gens.findD u.len 0 = u.gen then u.len else 2 ^ 24) } }
    s2.each out State.applyUpdate

/-- The updates that fell due before the slack of this tide have been applied before it (R31, R73): those that no command of an earlier
stroke has applied are applied now. -/
def State.updatesBeforeSlack (s : State) : State :=
  let bound := s.clock.grid * 256 + s.params.slackAt
  let out := s.counters.updates.filter (fun u => u.due < bound)
  ({ s with counters := { s.counters with updates := s.counters.updates.filter (fun u => bound ≤ u.due) } }).each out State.applyUpdate

/-- HIT_UPDATE_APPLY. -/
def execHitUpdateApply (t : Nat) (s : State) : Res := .next (s.at t).applyUpdates.settle

/-- A fold (R59, R371): in the first eight strokes of the slack, one entry of the fold queue. -/
def execFold (t : Nat) (s : State) : Res :=
  let s0 := s.at t
  let inWindow := s0.awake && s0.params.slackAt ≤ s0.clock.stroke && s0.clock.stroke < s0.params.slackAt + 8
  let s1 :=
    match s0.counters.foldQueue with
    | [] => s0
    | len :: rest =>
      let place := s0.foldPlace len
      if !inWindow || s0.counters.foldAt = some s0.now || (place.isNone && 16 ≤ s0.counters.places.length) then s0
      else
        let n := s0.narrowCount len
        let s2 := s0.setNarrow len 0
        let places : List FoldPlace := match place with
          | some _ => updateFirst (fun p => p.len = len) (fun p => { p with amount := (p.amount + n) % 2 ^ 64 }) s2.counters.places
          | none => s2.counters.places ++ [FoldPlace.mk len false n (some (s2.wide len))]
        let s2 := if place.isNone then s2.dramIssue 5 (wideAddr len) 8 else s2
        let s3 := { s2 with counters := { s2.counters with foldQueue := rest, places := places, foldAt := some s2.now } }
        s3.bump Fld.TEL_CNT_STATUS_folds
  .next s1.settle

/-- A place is freed: the first host write that waits acts (R373). -/
def State.freePlace (s : State) (len : Nat) : State :=
  let s1 := { s with counters := { s.counters with places := s.counters.places.filter (fun p => p.len != len) } }
  match s1.counters.held with
  | [] => s1
  | h :: rest => { s1 with counters := { s1.counters with held := rest } }.writeCount h.len h.value

/-- The wide-counter read of a place returns (R372, R549). -/
def execFoldReadReturn (t len : Nat) (how : DramRead) (s : State) : Res :=
  let s0 := s.at t
  let s1 := match s0.foldPlace len with
    | none => s0
    | some p =>
      let bad := s0.readEnd (wideAddr len) how == DramEnd.uncorrectable
      let s2 := (s0.dramReturn 5 (wideAddr len) 8).countRead (wideAddr len) how
      let base := if bad then 0 else p.wide.getD 0
      (s2.setWide len (if p.isSet then p.amount else base + p.amount)).freePlace len
  .next s1.settle

/-- The entry that a function's TEL_CNT_SEL names, where its handle is current and of this device. -/
def State.selectedCount (s : State) (fn : Nat) : Option Nat :=
  let h := s.fld Fld.TEL_CNT_SEL_handle fn
  match s.liveEntry h with
  | some (len, _) => if h / 2 ^ 29 = s.member then some len else none
  | none => none

/-- A write of TEL_CNT_WRITE (R373, R377): the physical function writes a count while cmd_auth is 0. -/
def State.telCntWrite (s : State) (fn w mask : Nat) : State :=
  let off := Reg.offset .TEL_CNT_WRITE
  if s.holds .TEL_CNT_WRITE then s.holdWrite fn .TEL_CNT_WRITE w mask
  else if fn != 0 then s.logAccess fn off 2
  else if !s.served .TEL_CNT_WRITE 0 then s.logAccess fn off 6
  else if s.cmdAuth then (s.raise Fld.TEL_CNT_STATUS_refused).logAccess fn off 3
  else if mask != fullMask then s.logAccess fn off 5
  else match s.selectedCount 0 with
    | some len => s.hostCount len w
    | none => s.raise Fld.TEL_CNT_STATUS_stale

/-- TEL_CNT_WRITE with its bytes, from byte 0 of the register on (R377). -/
def execTelCntWrite (t fn : Nat) (data : Bytes) (s : State) : Res :=
  .next ((s.at t).telCntWrite fn (leNat (data.take 8)) (2 ^ (8 * min data.length 8) - 1)).settle

/-- A count is complete: it is latched for the physical function, and the bytes read are returned (R75, R377). -/
def State.returnCount (s : State) (fn byte size v : Nat) : State :=
  let f := s.function fn
  let s1 := s.setFunction fn { f with latches := { f.latches with count := v / 2 ^ 32 % 2 ^ 32 } }
  { s1 with counters := { s1.counters with latched := v } }.emit (.readData fn (((leBytes v 8).drop byte).take size))

/-- A coherent count read issues its read of the wide counter (R374). -/
def State.readWide (s : State) (r : CountRead) : State :=
  ({ s with counters := { s.counters with reads := s.counters.reads ++ [r] } }).dramIssue 5 (wideAddr r.len) 8

/-- A read of TEL_CNT_READ (R75, R374, R377): one that returns all of bytes 0 to 3 latches the count; every other read returns what
was latched. The updates of its stroke come before it (R374), so those that have fallen due are applied first. -/
def State.telCntRead (s : State) (fn byte size : Nat) : State :=
  let s0 := s.applyUpdates
  let zero := s0.emit (.readData fn (zeros size))
  if fn != 0 || !s0.served .TEL_CNT_READ 0 then zero
  else if s0.cmdAuth then zero.raise Fld.TEL_CNT_STATUS_refused
  else if byte = 0 && 4 ≤ size then
    match s0.selectedCount 0 with
    | none => (s0.returnCount fn byte size 0).raise Fld.TEL_CNT_STATUS_stale
    | some len =>
      let behind := s0.counters.held.any (fun h => h.len = len)
      match s0.foldPlace len with
      | some p =>
        if p.isSet then s0.returnCount fn byte size ((p.amount + s0.narrowCount len) % 2 ^ 64)
        else s0.readWide ⟨len, p.amount + s0.narrowCount len, s0.wide len, behind, fn, byte, size⟩
      | none => s0.readWide ⟨len, s0.narrowCount len, s0.wide len, behind, fn, byte, size⟩
  else
    let v := s0.counters.latched % 2 ^ 32 + (s0.function fn).latches.count * 2 ^ 32
    s0.emit (.readData fn (((leBytes v 8).drop byte).take size))

/-- TEL_CNT_READ (R377). -/
def execTelCntRead (t fn byte size : Nat) (s : State) : Res := .next ((s.at t).telCntRead fn byte size).settle

/-- The wide-counter read of a coherent count read returns (R374, R549). A read behind a host write that waits takes the count once
that write has acted (R373). -/
def execCountReadReturn (t : Nat) (how : DramRead) (s : State) : Res :=
  let s0 := s.at t
  let s1 := match s0.counters.reads with
    | [] => s0
    | r :: rest =>
      if r.behindWrite && s0.counters.held.any (fun h => h.len = r.len) then s0
      else
        let bad := s0.readEnd (wideAddr r.len) how == DramEnd.uncorrectable
        let s2 := (({ s0 with counters := { s0.counters with reads := rest } }).dramReturn 5 (wideAddr r.len) 8).countRead (wideAddr r.len) how
        let v := if r.behindWrite then s2.countOf r.len else ((if bad then 0 else r.wide) + r.partialSum) % 2 ^ 64
        s2.returnCount r.fn r.byte r.size v
  .next s1.settle

end Sys2Proof.Machine
end

