-- ==== Sys2Proof/Machine/Operands.lean ====
section
/-! DEFINITION. The operand forms of a command record (R173): the fields of its header and its body. -/
namespace Sys2Proof.Machine

/-- The opcode of a command record (R173). -/
def cmdOp (bs : Bytes) : Nat := byteAt bs 1
/-- The berth of a command. -/
def cmdBerth (bs : Bytes) : Nat := fieldLE bs 4 2 % 16384
/-- The auth flag. -/
def cmdAuthBit (bs : Bytes) : Bool := (fieldLE bs 4 2).testBit 14
/-- The quiet flag. -/
def cmdQuiet (bs : Bytes) : Bool := (fieldLE bs 4 2).testBit 15
/-- The table identifier. -/
def cmdTid (bs : Bytes) : Nat := fieldLE bs 6 2
/-- The cookie. -/
def cmdCookie (bs : Bytes) : Nat := fieldLE bs 8 4
/-- The handle. -/
def cmdHandle (bs : Bytes) : Nat := fieldLE bs 12 4
/-- The body after byte 15, without the tag. -/
def cmdBody (bs : Bytes) : Bytes := (bs.drop 16).take (bs.length - 16 - (if cmdAuthBit bs then 16 else 0))

/-- The opcodes of the device (R173, R345, R376, R378, R386, R414, R436, R581, R615). -/
def knownOps : List Nat :=
  [0x01, 0x02, 0x03, 0x04, 0x05, 0x06, 0x08, 0x09, 0x0A, 0x0C, 0x0D, 0x10, 0x11, 0x20, 0x21, 0x22, 0x28, 0x29, 0x38, 0x39,
   0x40, 0x41, 0x42, 0x43, 0x44, 0x45, 0x50, 0x51, 0x52, 0x53]

end Sys2Proof.Machine
end

