-- ==== Sys2Proof/Machine/Tables.lean ====
section
/-! DEFINITION. Table definitions (R158 to R164), quotas (R167 to R169), charts (R249 to R253) as lookups and plans read them, and
the direct-index SRAM. -/
namespace Sys2Proof.Machine

/-- The definition that a 64-byte block spells (R158). -/
def TableDef.parse (bs : Bytes) : TableDef :=
  let f := byteAt bs 11
  { tid := fieldLE bs 4 2, cls := byteAt bs 6, width := byteAt bs 7, adSize := byteAt bs 8, evict := byteAt bs 9,
    hot := byteAt bs 10, seedGate := f.testBit 0, ringSpan := f.testBit 1, learn := f.testBit 2, ageEn := f.testBit 3,
    autoRemove := f.testBit 4, zeroMiss := f.testBit 5, owner := fieldLE bs 12 2, ageLimit := byteAt bs 14,
    indexBits := byteAt bs 15, quota := fieldLE bs 16 4, depth := fieldLE bs 20 4 }

/-- The width of a ternary table in units. -/
def TableDef.units (d : TableDef) : Nat := widthUnits d.width
/-- The entry size of a direct-index table in bytes. -/
def TableDef.entrySize (d : TableDef) : Nat := if d.width = 0 then 8 else if d.width = 1 then 16 else 32
/-- The bytes of associated data of an entry (R149). -/
def TableDef.adBytes (d : TableDef) : Nat :=
  if d.adSize = 0 then 0 else if d.adSize = 1 then 8 else if d.adSize = 2 then 16 else 32
/-- The bytes V of a value or mask in a record (R173). -/
def TableDef.vBytes (d : TableDef) : Nat := if d.units = 1 then 16 else if d.units = 2 then 24 else 40
/-- The definition is of a direct-index table. -/
def TableDef.direct (d : TableDef) : Bool := tidDirect d.tid
/-- The segments that a direct-index table occupies (R164). -/
def TableDef.segments (d : TableDef) : Nat := (d.depth * d.entrySize + 65535) / 65536

/-- What ring_span asks of a definition beside a ring that LINKS enables (R299, R488). -/
def TableDef.ringForm (d : TableDef) : Bool :=
  !d.ringSpan || (d.cls != 1 && d.width ≤ 1 && d.adSize ≤ 2 && d.hot == 1 && !d.learn)

/-- A definition is valid (R158, R159, R299, R488), but for the last condition of R159. -/
def TableDef.valid (bs : Bytes) : Bool :=
  let d := TableDef.parse bs
  d.ringForm && bs.length == 64 && fieldLE bs 0 2 == 0x0106 && zerosAt bs 2 2 && tidOkForm d.tid && byteAt bs 11 < 64 && d.owner < 16384 &&
    zerosAt bs 24 40 && d.width ≤ 2 &&
    (if d.direct then
      d.cls == 0 && d.adSize == 0 && d.evict == 0 && d.hot == 0 && !d.seedGate && !d.ringSpan && !d.learn && !d.ageEn &&
        !d.autoRemove && d.ageLimit == 0 && d.owner == 0 && d.quota == 0 && 1 ≤ d.indexBits && d.indexBits ≤ 24 &&
        1 ≤ d.depth && d.depth ≤ 2 ^ d.indexBits
    else
      d.cls ≤ 2 && d.adSize ≤ 3 && d.evict ≤ 2 && d.hot ≤ 2 && (!d.learn || d.cls == 2) && (!d.autoRemove || d.ageEn) &&
        (d.cls != 1 || d.evict == 0) && (if d.ageEn then 1 ≤ d.ageLimit else d.ageLimit == 0) &&
        (d.quota == 0 || d.units ≤ d.quota) && !d.zeroMiss && d.indexBits == 0 && d.depth == 0)

/-- The chart of a table that lists no bank: one bucket, no selector (R249, R250). -/
def Chart.empty (version : Nat) (mirror : Bool) : Chart := ⟨[], [[]], [], version, mirror⟩

/-- A table's record as it comes into existence. -/
def TableRec.fresh (d : TableDef) (st : TableState) (segs : List Nat) (version : Nat) (mirror : Bool) : TableRec :=
  { df := d, state := st, counter := 0, units := 0, chart := Chart.empty version mirror, chartNext := none, reseq := none, relabel := [],
    segments := segs, work := 0, merged := [], chartPrev := Chart.empty version mirror, relabelFrom := 0 }

/-- The direct-index segments that no table holds (R164). -/
def State.freeSegments (s : State) : List Nat :=
  let held := s.tables.vals.flatMap (fun t => t.segments)
  (List.range 256).filter (fun n => !held.contains n)

/-- Segments promised to creations that wait for their boundary. -/
def State.promisedSegments (s : State) : Nat :=
  (s.due.map (fun d => match d.change with
    | .tableCreate df _ => if df.direct then df.segments else 0
    | _ => 0)).foldl (fun a b => a + b) 0

/-- A direct-index definition fits the free segments (the last condition of R159). -/
def State.segmentsFit (s : State) (d : TableDef) : Bool :=
  !d.direct || d.segments + s.promisedSegments ≤ s.freeSegments.length

/-- A table is created at a boundary (R161): its segments are zeroed (R164). -/
def State.createTable (s : State) (d : TableDef) (st : TableState) : State :=
  let segs := if d.direct then s.freeSegments.take d.segments else []
  let ram := segs.foldl (fun m k => m.clear (65536 * k) 65536) s.diram
  let shadow := segs.foldl (fun m k => m.clear (diShadowAddr (65536 * k)) 65536) s.dram
  { s with
      tables := s.tables.put d.tid (TableRec.fresh d st segs s.clock.count (s.mode.mode == 3))
      diram := ram
      dram := shadow }

/-- The address in the direct-index SRAM of a table's entry (R164). -/
def TableRec.diAddr (t : TableRec) (index : Nat) : Nat :=
  let off := index * t.df.entrySize
  65536 * t.segments.getD (off / 65536) 0 + off % 65536

/-- A direct-index entry read (R165). -/
def State.diRead (s : State) (t : TableRec) (index : Nat) : Bytes := s.diram.read (t.diAddr index) t.df.entrySize

/-- A direct-index entry written, with its shadow. -/
def State.diWrite (s : State) (t : TableRec) (index : Nat) (bs : Bytes) : State :=
  ({ s with diram := s.diram.write (t.diAddr index) bs }).dramWrite (diShadowAddr (t.diAddr index)) bs

/-- The table exists for searches (R102, R162): not gated, not deleted. A flushed table exists. -/
def TableRec.exists (t : TableRec) : Bool := t.state == .live || t.state == .flushed

/-- The entries of a table that are live: not being placed, not removed. -/
def State.liveEntries (s : State) (tid : Nat) : List (Nat × Entry) :=
  s.numbers.entries.filter (fun p => p.2.tid == tid && p.2.state == .live &&
    !s.numbers.freeing.contains (tid, p.1))

/-- The entries of a table for its order: live or being placed (R179). -/
def State.orderEntries (s : State) (tid : Nat) : List (Nat × Entry) :=
  s.numbers.entries.filter (fun p => p.2.tid == tid && p.2.state != .retired && !s.numbers.freeing.contains (tid, p.1))

/-- The bucket that a key's selector bits index (R249), the first position the least significant. -/
def Chart.bucket (c : Chart) (key : Digits) : Nat :=
  ((List.range c.selector.length).map (fun i => if key.getLsbD (c.selector.getD i 0) then 2 ^ i else 0)).foldl (fun a b => a + b) 0

/-- The banks that the chart lists for a key (R249). -/
def Chart.banksOf (c : Chart) (key : Digits) : List Nat := c.buckets.getD (c.bucket key) []

/-- The buckets that an entry belongs to (R250): those that its compared selector bits allow. -/
def Chart.bucketsOf (c : Chart) (value mask : Digits) : List Nat :=
  (List.range (2 ^ c.selector.length)).filter (fun b =>
    (List.range c.selector.length).all (fun i =>
      let pos := c.selector.getD i 0
      !mask.getLsbD pos || value.getLsbD pos == b.testBit i))

/-- An entry compares every selector digit and so has one bucket (R250). -/
def Chart.isHome (c : Chart) (mask : Digits) : Bool := c.selector.all (fun p => mask.getLsbD p)

/-- The fan-out bound (R249). -/
def Chart.fanout (c : Chart) : Nat := (c.buckets.map (·.length)).foldl max 0

/-- A bank is added to the lists of buckets (R243, R251). -/
def Chart.addBank (c : Chart) (buckets : List Nat) (bank : Nat) (shared : Bool) : Chart :=
  let c1 := { c with buckets := (List.range c.buckets.length).map (fun i =>
    let l := c.buckets.getD i []
    if (shared || buckets.contains i) && !l.contains bank then l ++ [bank] else l) }
  if shared && !c.shared.contains bank then { c1 with shared := c1.shared ++ [bank] } else c1

/-- The chart that the next boundary takes, as written so far (R251). -/
def TableRec.nextChart (t : TableRec) : Chart := t.chartNext.getD t.chart

/-- The next chart with the banks that insertions in flight will list for their entries (R243, R249). -/
def State.plannedChart (s : State) (t : TableRec) : Chart :=
  (s.cmds.flights.filter (fun i => i.tid == t.df.tid && i.rollback.isNone && i.lastWrite.isNone)).foldl (fun c i =>
    c.addBank (c.bucketsOf i.value i.mask) i.plan.bank (!c.isHome i.mask)) t.nextChart

/-- The chart lines that the device's tables use for one parity: a header and a line per bucket (R253). -/
def State.chartLines (s : State) : Nat :=
  (s.tables.vals.filter (fun t => !t.df.direct)).foldl (fun n t => n + 1 + t.nextChart.buckets.length) 0

/-- An entry belongs to a bucket (R250). -/
def Chart.inBucket (c : Chart) (value mask : Digits) (k : Nat) : Bool :=
  (List.range c.selector.length).all (fun i =>
    let pos := c.selector.getD i 0
    !mask.getLsbD pos || value.getLsbD pos == k.testBit i)

/-- A bank holds a row of a table, placed and not retired, whose entry satisfies a test (R251). A quadrant held in reset keeps its rows
in the shadows (R290). -/
def State.bankHolds (s : State) (tid bank : Nat) (p : Entry → Bool) : Bool :=
  s.numbers.entries.any (fun x => x.2.tid == tid && x.2.bank == bank && p x.2 &&
    (x.2.state == .live || (x.2.state == .placing && s.cmds.flights.any (fun i => i.len == x.1 && i.lastWrite.isSome))))

/-- The next chart without the banks that hold no more rows of a bucket (R251, notes/assumptions/16.md). The version of a split first
lists the parent's banks (R254); buckets that a merge has united keep their union (R255). -/
def State.pruneChart (s : State) (t : TableRec) : TableRec :=
  let c := t.nextChart
  let h := c.buckets.length / 2
  let holds := fun (k b : Nat) => s.bankHolds t.df.tid b (fun e => c.shared.contains b || c.inBucket e.value e.mask k)
  let keep := fun (k : Nat) (l : List Nat) => l.filter (fun b =>
    holds k b || (t.merged.contains (k % max 1 h) && (holds (k % max 1 h) b || holds (k % max 1 h + h) b)))
  let c1 := { c with
    buckets := (List.range c.buckets.length).map (fun k => keep k (c.buckets.getD k []))
    shared := c.shared.filter (fun b => s.bankHolds t.df.tid b (fun _ => true)) }
  if c.selector.length != t.chart.selector.length || c1 == c then t else { t with chartNext := some c1 }

/-- The commit stroke takes from every next chart version the banks that it lists no more (R54, R251), and writes the lines that the
version in force changed into the copy of the other parity (R252). -/
def State.pruneCharts (s : State) : State :=
  { s with tables := s.tables.map (fun p => (p.1, { s.pruneChart p.2 with chartPrev := p.2.chart })) }

/-- The chart version of a table that the next boundary takes (R130, R251, R252): the version in force is left in the other copy. -/
def TableRec.latch (t : TableRec) (count : Nat) : TableRec :=
  match t.chartNext with
  | some c => if c == t.chart then { t with chartNext := none }
      else { t with chart := { c with version := count }, chartNext := none, chartPrev := t.chart }
  | none => t

/-- Every chart's next version takes effect at the boundary (R130, R251); the chart shadow holds the version in force (R42, R252). -/
def State.latchCharts (s : State) : State :=
  let tables := s.tables.map (fun p => (p.1, p.2.latch s.clock.count))
  { s with
      tables := tables
      dramCtl := { s.dramCtl with
        chartShadow := (tables.filter (fun p => !p.2.df.direct)).map (fun p => (p.1, p.2.chart)) } }

/-- The units of a table, or of its owner berth (R407), exceed their quota with another entry (R168). -/
def State.quotaBinds (s : State) (t : TableRec) : Bool × Bool :=
  let q := (s.berth t.df.owner).record.quota
  (t.df.quota != 0 && t.df.quota < t.units + t.df.units, q != 0 && q < s.berthUnits t.df.owner + t.df.units)

/-- An entry counts as `w` units of the device in the mode in force (R167). -/
def State.unitsUsed (s : State) : Nat := (s.tables.vals.filter (fun t => !t.df.direct)).foldl (fun n t => n + t.units) 0

end Sys2Proof.Machine
end

