-- ==== Sys2Proof/Machine/Engine.lean ====
section
/-! DEFINITION. The table-command engine (R60, R61, R173 to R182): command records, the source FIFOs, the shared checks, acceptance,
completions and their posting. The meanings of the commands stand in the files of their families. -/
namespace Sys2Proof.Machine

/-- The FIFO of a source. -/
def State.fifo (s : State) (src : Source) : List Cmd := s.cmds.fifos.findD (sourceKey src) []

/-- A FIFO replaced; an empty one is not listed. Its head notes the tide in which it became the head (R595). -/
def State.setFifo (s : State) (src : Source) (l : List Cmd) : State :=
  let l1 := match l with
    | [] => []
    | c :: rest => (if c.headTide.isNone then { c with headTide := some s.clock.grid } else c) :: rest
  { s with cmds := { s.cmds with
      fifos := if l1.isEmpty then s.cmds.fifos.del (sourceKey src) else s.cmds.fifos.put (sourceKey src) l1 } }

/-- The commands taken so far in this tide and in this stroke, and the sources considered in it (R60). -/
def State.takenNow (s : State) : Nat × Nat × List Nat :=
  if s.cmds.takenAt = s.now then (s.cmds.taken, s.cmds.takenStroke, s.cmds.takenFrom)
  else if s.cmds.takenAt / 256 = s.clock.grid then (s.cmds.taken, 0, [])
  else (0, 0, [])

/-- The quay that a source is (R469). -/
def sourceQuay : Source → Option Nat
  | .quay q => some q
  | _ => none

/-- The engine runs: the device serves, or is in Recovery (R111), awake, and not in a tamper hold. -/
def State.engineRuns (s : State) : Bool := (s.serving || s.recovery) && s.awake

/-- The head of a source's FIFO is one that the engine takes when it considers the source: eligible, its master not frozen, with room for
its completion (R60, R437, R469). -/
def State.headReady (s : State) (src : Source) (c : Cmd) : Bool :=
  c.eligible ≤ s.now && (src == .seed || !s.frozen c.master) &&
    (match sourceQuay src with
     | some q => s.completionRoom q
     | none => true)

/-- The engine's turn has come to a source in this stroke (R60, R100): it has been considered by none, no later source has been, and no
earlier source has a head that is still to be considered. -/
def State.turnOf (s : State) (src : Source) : Bool :=
  let seen := s.takenNow.2.2
  seen.all (fun k => k < sourceKey src) &&
    s.cmds.fifos.all (fun p => sourceKey src ≤ p.1 || seen.contains p.1 ||
      (match p.2 with
       | [] => true
       | c :: _ => !s.headReady (sourceOfKey p.1) c))

/-- The head of a source's FIFO may be taken in this stroke (R60, R100, R437, R469). -/
def State.takeable (s : State) (src : Source) (c : Cmd) : Bool :=
  let n := s.takenNow
  s.engineRuns && n.1 < s.params.commands && n.2.1 < 8 && s.headReady src c && s.turnOf src

/-- A source has been considered in this stroke (R60): it is not considered again in it. -/
def State.noteTurn (s : State) (src : Source) : State :=
  let n := s.takenNow
  if n.2.2.contains (sourceKey src) then s
  else { s with cmds := { s.cmds with
    taken := n.1, takenStroke := n.2.1, takenAt := s.now, takenFrom := n.2.2 ++ [sourceKey src],
    droppedFrom := if s.cmds.takenAt = s.now then s.cmds.droppedFrom else [] } }

/-- The head leaves its FIFO, is counted, and its credit and FIFO space return (R60, R465, R536). -/
def State.popHead (s : State) (src : Source) (c : Cmd) : State :=
  let n := s.takenNow
  let s1 := s.setFifo src ((s.fifo src).drop 1)
  let s2 := { s1 with cmds := { s1.cmds with
    taken := n.1 + 1, takenStroke := n.2.1 + 1, takenAt := s.now, takenFrom := n.2.2 ++ [sourceKey src],
    droppedFrom := if s.cmds.takenAt = s.now then s.cmds.droppedFrom else [] } }
  s2.releaseRecord src c.record

/-- What a command needs of its berth or its master (R405, R426). -/
inductive Right where
  | edit | read | counter | user | supervisor | service
deriving DecidableEq, Repr

/-- Check 1 of R176 for the header (R138, R173): lengths, reserved fields, the identifier, and fields that must be 0. -/
def Cmd.headerOk (c : Cmd) (usesTid usesHandle : Bool) : Bool :=
  let bs := c.record
  !c.badLength && byteAt bs 0 == 0x30 && 16 + (if cmdAuthBit bs then 16 else 0) ≤ bs.length && fieldLE bs 2 2 * 8 == bs.length &&
    (if usesTid then tidOkForm (cmdTid bs) else cmdTid bs == 0) && (usesHandle || cmdHandle bs == 0)

/-- The tag of a command verifies under its master's session key (R175, R433): the CMAC of all the bytes before it. A master without a
session key verifies none. -/
def State.tagOk (s : State) (c : Cmd) : Bool :=
  match s.security.sessions.find c.master with
  | some k => cmac k (c.record.take (c.record.length - 16)) == c.record.drop (c.record.length - 16)
  | none => false

/-- Check 2 of R176 (R175, R433 to R435): whether the command fails authentication. -/
def State.authFails (s : State) (src : Source) (c : Cmd) : Bool :=
  if src == .seed then false
  else if cmdAuthBit c.record then
    !s.tagOk c || !seqEarlier (s.master c.master).lastCookie (cmdCookie c.record)
  else s.cmdAuth && !s.recovery

/-- A verified tag moves the master's cookie (R434). -/
def State.noteCookie (s : State) (src : Source) (c : Cmd) : State :=
  if src == .seed || !cmdAuthBit c.record then s
  else s.setMaster c.master { s.master c.master with lastCookie := cmdCookie c.record }

/-- Check 4 of R176: none where the command may run, else the cause of the violation (R402, R404, R427, R437, R535). -/
def State.denied (s : State) (src : Source) (c : Cmd) (need : Right) : Option Nat :=
  let b := cmdBerth c.record
  let g := (s.berth b).record
  let t := cmdTid c.record
  let grant := match need with
    | .edit => g.right t (·.edit)
    | .read => g.right t (·.counterRead) || g.right t (·.edit)
    | .counter => g.right t (·.counterRead)
    | _ => true
  let role := match need with
    | .supervisor => s.hasRole c.master .supervisor
    | .service => s.hasRole c.master .maint
    | _ => s.hasRole c.master .user
  if src == .seed then (if grant then none else some 2)
  else if !s.inRange c.master b then some 5
  else if role && grant then none else some 2

/-- A command is accepted (R60): it leaves its FIFO and is held until its completion is posted. -/
def State.accept (s : State) (src : Source) (c : Cmd) (applyTide : Nat) (applied : Bool)
    (result : Option (Nat × Nat × Nat × Nat × Bytes)) (postAt : Option Nat) : State :=
  let s1 := s.popHead src c
  { s1 with cmds := { s1.cmds with
      nextId := s1.cmds.nextId + 1,
      accepted := s1.cmds.accepted ++
        [⟨s1.cmds.nextId, src, c.record, c.master, c.reply, s.clock.grid, applyTide, applied, result, postAt, 0⟩] } }

/-- A command is refused with a result and a handle (R176): its completion is posted at the boundary that R63 gives. -/
def State.refuse (s : State) (src : Source) (c : Cmd) (result handle : Nat) (payload : Bytes := []) : State :=
  s.accept src c s.clock.grid true (some (result, handle, 0, 0, payload)) (some s.dueTide)

/-- A command takes effect at the boundary that R63 gives, with its completion (R414, R436, R615). -/
def State.acceptBoundary (s : State) (src : Source) (c : Cmd) (result : Nat) (payload : Bytes := []) : State :=
  s.accept src c s.clock.grid true (some (result, 0, 0, 0, payload)) (some s.dueTide)

/-- The tide in whose write phase a command accepted now is applied (R61). -/
def State.applyTide (s : State) : Nat := if s.inSlack then s.clock.grid + 1 else s.clock.grid

/-- A command to be applied in a write phase is accepted (R61). -/
def State.acceptWrite (s : State) (src : Source) (c : Cmd) : State := s.accept src c s.applyTide false none none

/-- The identifier that the next accepted command takes. -/
def State.acceptId (s : State) : Nat := s.cmds.nextId

/-- The head of a source's FIFO is considered, at stroke `t` (R60): where it is of one of the opcodes and may be taken, the body
decides whether it is accepted, refused or left for a later stroke; else nothing happens. -/
def State.atHead (s : State) (t : Nat) (src : Source) (ops : Nat → Bool) (body : State → Cmd → State) : State :=
  let s0 := s.at t
  match s0.fifo src with
  | [] => s0
  | c :: _ => if ops (cmdOp c.record) && s0.takeable src c then (body s0 c).noteTurn src else s0

/-- A command that stays at the head of its FIFO has not been accepted, and leaves the master's cookie as it was (R434). -/
def State.keepCookie (s old : State) (src : Source) (c : Cmd) : State :=
  if (s.fifo src).length == (old.fifo src).length && src != .seed && cmdAuthBit c.record
  then s.setMaster c.master { s.master c.master with lastCookie := (old.master c.master).lastCookie } else s

/-- Checks 1, 2 and 4 of R176 that every command takes, in their order, with `form` the rest of check 1, then the rest of the
command; `early` stands between 2 and 4 for check 3. -/
def State.checked (s : State) (src : Source) (c : Cmd) (usesTid usesHandle form : Bool) (need : Right)
    (early : State → Option Nat) (rest : State → State) : State :=
  if !(c.headerOk usesTid usesHandle && form) then s.refuse src c 0x0A 0
  else if s.authFails src c then
    (s.refuse src c 0x0F 0).violation c.master 4 (cmdCookie c.record)
  else
    let s1 := s.noteCookie src c
    match early s1 with
    | some r => s1.refuse src c r 0
    | none =>
      match s1.denied src c need with
      | some cause =>
        let s2 := s1.refuse src c 0x09 0
        if src == .seed then s2 else s2.violation c.master cause (cmdCookie c.record)
      | none => (rest s1).keepCookie s src c

/-- Check 3 of R176: a table that searches and commands find absent (R102, R162); a SEED insertion reaches its gated table. -/
def State.noTable (s : State) (src : Source) (tid : Nat) : Option Nat :=
  match s.table tid with
  | none => some 0x08
  | some t => if t.state == .deleted || (t.state == .gated && src != .seed) then some 0x08 else none

/-- The handle of a completion (R182): of a command that has a target, the target, whatever the result (DEDUCED,
notes/assumptions/24.md); else the handle that the command answers. -/
def completionHandle (rec : Bytes) (handle : Nat) : Nat :=
  let op := cmdOp rec
  if (0x02 ≤ op && op ≤ 0x06) || op == 0x21 || op == 0x22 then cmdHandle rec else handle

/-- The bytes of a completion record (R182). -/
def State.completionBytes (s : State) (rec : Bytes) (result handle victim seq : Nat) (payload : Bytes) : Bytes :=
  let pad := zeros ((8 - payload.length % 8) % 8)
  [BitVec.ofNat 8 0x31, BitVec.ofNat 8 (cmdOp rec), BitVec.ofNat 8 result, BitVec.ofNat 8 ((payload.length + 7) / 8)] ++
    leBytes (cmdCookie rec) 4 ++ leBytes (completionHandle rec handle) 4 ++ leBytes victim 4 ++ leBytes s.clock.count 8 ++ leBytes (cmdBerth rec) 2 ++
    leBytes (cmdTid rec) 2 ++ leBytes seq 4 ++ payload ++ pad

/-- A reply goes to the quay or the host ring that carried the record (R101, R182, R527). -/
def State.replyTo (s : State) (src : Source) (ring entries : Nat) (isResult : Bool) (rec : Bytes) : State :=
  match src with
  | .quay q => if isResult then s.offerResult q rec 0 0 else s.offerCompletion q rec
  | .hostRing _ => s.ringReply ring entries rec
  | .window _ => s.ringReply ring entries rec
  | .seed => s.seedReply rec

/-- A reservation is given back where no reply is written (R173 quiet, R523). -/
def State.releaseReply (s : State) (src : Source) (ring entries : Nat) : State :=
  let r := ticketRing ring
  let give := if s.ticketHolds ring then s.setRing r { s.hostRing r with reserved := (s.hostRing r).reserved - entries } else s
  match src with
  | .hostRing _ => give
  | .window _ => give
  | _ => s

/-- A completion is posted (R173, R182). -/
def State.postCompletion (s : State) (a : Accepted) (result handle victim seq : Nat) (payload : Bytes) : State :=
  if cmdQuiet a.record && result == 0 then s.releaseReply a.src a.reply (reserveOf a.record)
  else s.replyTo a.src a.reply (reserveOf a.record) false (s.completionBytes a.record result handle victim seq payload)

/-- An accepted command's result becomes known. -/
def State.setResult (s : State) (id : Nat) (r : Nat × Nat × Nat × Nat × Bytes) (postAt : Nat) : State :=
  { s with cmds := { s.cmds with accepted := s.cmds.accepted.map (fun a =>
      if a.id = id then { a with result := some r, postAt := some postAt, applied := true } else a) } }

/-- Every completion due is posted, in the order of acceptance (R646 rank 9). -/
def State.postDue (s : State) : State :=
  let ready := fun (a : Accepted) => match a.result, a.postAt with
    | some _, some p => p ≤ s.clock.grid
    | _, _ => false
  let out := s.cmds.accepted.filter ready
  let s1 := { s with cmds := { s.cmds with accepted := s.cmds.accepted.filter (fun a => !ready a) } }
  s1.each out (fun x a => match a.result with
    | some (r, h, v, q, p) => x.postCompletion a r h v q p
    | none => x)

/-- The command is aborted (R595, R596): its completion says ABORTED and CMD_ABORTED is posted (R602). -/
def State.abortFault (s : State) (master : Nat) (rec : Bytes) : State :=
  s.faultEvent 0x04 1 0x1 master (cmdOp rec + 65536 * cmdTid rec) (cmdCookie rec)

end Sys2Proof.Machine
end

