-- ==== Sys2Proof/Machine/Hot.lean ====
section
/-! DEFINITION. The hot store and associated data (R149, R205, R258 to R263, R37, R134): lines and tags, promotion, demotion, pinned
lines, warmth, and the writes of associated-data changes. -/
namespace Sys2Proof.Machine

/-- The set of a logical entry number (R36, R258). -/
def hotSet (len : Nat) : Nat := len % 262144
/-- The key of a line: set × 8 + way. -/
def hotKey (set way : Nat) : Nat := set * 8 + way

/-- The ways that hot-store lines may use now: 0 to 3 in M5 and while a change into M5 is being prepared or is in its turn tide
(R37, R263). -/
def State.hotWays (s : State) : Nat := if s.mode.mode = 5 || s.mode.pending == some 5 then 4 else 8

/-- The associated data of an entry for searches dispatched in grid tide `view` (R150, R205): the bytes that a later change replaced,
else the newest change issued, else the DRAM slot. -/
def State.adFor (s : State) (len view : Nat) : Bytes :=
  match s.search.adOld.find? (fun x => x.1 = len && view < x.2.1) with
  | some x => x.2.2
  | none =>
    match (s.hot.adChanges.filter (fun c => c.len = len)).getLast? with
    | some c => c.data
    | none => s.dram.read (adAddr len) 32

/-- An associated-data change is made in the write phase of this tide, in force from the next (R205, R262). -/
def State.changeAd (s : State) (len : Nat) (data : Bytes) : State :=
  let old := s.adFor len s.clock.grid
  let full := data ++ zeros (32 - data.length)
  { s with
      search := { s.search with adOld := s.search.adOld ++ [(len, s.clock.grid + 1, old)] }
      hot := { s.hot with adChanges := s.hot.adChanges ++ [⟨len, full, s.clock.grid + 2⟩] } }

/-- Old associated data that no search in flight can need is forgotten: 8 tides pass between dispatch and release at most, and a
chained lookup sees the next tide. -/
def State.dropOldAd (s : State) : State :=
  { s with search := { s.search with adOld := s.search.adOld.filter (fun x => s.clock.grid ≤ x.2.1 + 8) } }

/-- The stroke, on the grid relative to the change's own tide, from which reads of the tide before its force have ended (R262):
stroke 87 with a search layout that ends at stroke 239, earlier in M2, M4 and M6. -/
def adWindowStart (mode : Nat) : Int := if mode = 2 then 32 else if mode = 4 then 64 else if mode = 6 then -32 else 87

/-- A hot-store line is written for an entry; its tag takes effect at the next boundary (R35, R258). -/
def State.hotWrite (s : State) (len way : Nat) (pinned : Bool) (warmth : Nat) (data : Bytes) : State :=
  { s with hot := { s.hot with
      lines := s.hot.lines.put (hotKey (hotSet len) way) ⟨len, pinned, warmth, data, none⟩,
      tags := s.hot.tags.put len ⟨way, s.clock.grid + 1, none⟩ } }

/-- A demotion (R261): the tag clears at the next boundary, and the line may be rewritten from the slack of the tide after it. -/
def State.hotDemote (s : State) (len : Nat) : State :=
  match s.hot.tags.find len with
  | none => s
  | some g =>
    { s with hot := { s.hot with
        tags := s.hot.tags.put len { g with clearFrom := some (s.clock.grid + 1) },
        lines := s.hot.lines.modify (hotKey (hotSet len) g.way) (fun l =>
          if l.len = len then { l with freeFrom := some (s.clock.grid + 1) } else l) } }

/-- The hot-store tags at a boundary (R261, R646 rank 5): cleared tags and their lines go. -/
def State.hotBoundary (s : State) : State :=
  { s with hot := { s.hot with
      tags := s.hot.tags.filter (fun p => match p.2.clearFrom with
        | some c => s.clock.grid < c
        | none => true),
      lines := s.hot.lines.filter (fun p => match p.2.freeFrom with
        | some c => s.clock.grid < c
        | none => true) } }

/-- An entry waits for its own associated-data change (R262): its line stays as it is. -/
def State.adPending (s : State) (len : Nat) : Bool := s.hot.adChanges.any (fun c => c.len = len)

/-- One associated-data change is written to its hot-store line, if the entry has one, and to DRAM (R262). -/
def State.writeAd (s : State) (c : AdChange) : State :=
  let s1 := s.dramWrite (adAddr c.len) c.data
  match s.hot.tags.find c.len with
  | some g => { s1 with hot := { s1.hot with lines := s1.hot.lines.modify (hotKey (hotSet c.len) g.way) (fun l =>
      if l.len = c.len then { l with data := c.data } else l) } }
  | none => s1

/-- Associated-data changes are written (R262): up to 8 in a stroke, in strokes 87 to 95 of their tide, or earlier where no reads
remain. -/
def execAdChangeWrite (t : Nat) (s : State) : Res :=
  let s0 := s.at t
  let fits := fun (c : AdChange) =>
    let rel : Int := (s0.now : Int) - (c.tide * 256 : Nat)
    adWindowStart s0.mode.mode ≤ rel && (rel ≤ 95 || c.tide < s0.clock.grid)
  let done := if s0.hot.adAt = s0.now then s0.hot.adNow else 0
  let out := (s0.hot.adChanges.filter fits).take (8 - done)
  let rest := s0.hot.adChanges.filter (fun c => !out.contains c)
  let s1 := s0.each out State.writeAd
  .next { s1 with hot := { s1.hot with adChanges := rest, adAt := s0.now, adNow := done + out.length } }.settle

/-- The lines of entries that are gone are demoted once no change is pending for them (R259, R262). -/
def State.demoteGone (s : State) : State :=
  s.each (s.hot.tags.filter (fun p => p.2.clearFrom.isNone && !s.adPending p.1 && (match s.entry p.1 with
    | some e => e.state == .retired
    | none => true))) (fun x p => x.hotDemote p.1)

/-- The lowest free way of a set below a bound. -/
def State.freeWay (s : State) (set bound : Nat) : Option Nat :=
  (List.range bound).find? (fun w => !s.hot.lines.has (hotKey set w))

/-- The free way that a promotion takes (R260): the highest, and none of 0 to 3 while pinned entries of the set wait (R259). -/
def State.autoWay (s : State) (set : Nat) : Option Nat :=
  ((List.range s.hotWays).filter (fun w => !s.hot.lines.has (hotKey set w) &&
    (4 ≤ w || !s.hot.pinWait.any (fun n => hotSet n = set)))).getLast?

/-- The auto lines of a set below a bound, those being demoted left out. -/
def State.autoLines (s : State) (set bound : Nat) : List (Nat × HotLine) :=
  (List.range bound).filterMap (fun w => match s.hot.lines.find (hotKey set w) with
    | some l => if l.pinned || l.freeFrom.isSome then none else some (w, l)
    | none => none)

/-- Pinned entries of a set wait for a line (R259). -/
def State.pinWaits (s : State) (set : Nat) : Bool := s.hot.pinWait.any (fun n => hotSet n = set)

/-- The pinned line of a new entry (R259): written in the slack of its last row write, into a free way of 0 to 3 that no earlier entry of its
set waits for; else the entry waits. An auto line that stands in ways 0 to 3 is demoted for it: by R261 the line is rewritten only in a later
slack, so the entry waits then too (DESIGN CHOICE, notes/assumptions/150.md). -/
def State.pinLine (s : State) (len : Nat) (data : Bytes) : State :=
  let free := if s.pinWaits (hotSet len) then none else s.freeWay (hotSet len) 4
  match free with
  | some w => s.hotWrite len w true 0 data
  | none =>
    let s1 := { s with hot := { s.hot with pinWait := s.hot.pinWait ++ [len] } }
    match (s.autoLines (hotSet len) 4).filter (fun p => !s.adPending p.2.len) with
    | (_, l) :: _ => if s.bit Fld.PIL_HOT_CTL_auto_en then s1.hotDemote l.len else s1
    | [] => s1

/-- An entry that goes leaves the hot store (R259, R261, R262): its line is demoted, once no change of its data is pending, and it waits for
no line. -/
def State.hotGone (s : State) (len : Nat) : State :=
  let s1 := if s.adPending len then s else s.hotDemote len
  { s1 with hot := { s1.hot with pinWait := s1.hot.pinWait.filter (fun n => n != len), filter := s1.hot.filter.del len } }

/-- An entry goes from its row and from the hot store. A pending change of its data is still applied (R262). -/
def State.dropEntry (s : State) (len : Nat) : State := (s.removeEntry len).hotGone len

/-- A real-time read is counted in the candidate filter of 4,096 entries (R260). -/
def State.countRealTime (s : State) (len : Nat) : State :=
  if s.hot.filter.has len || s.hot.filter.length < 4096 then
    { s with hot := { s.hot with filter := s.hot.filter.put len (s.hot.filter.findD len 0 + 1) } }
  else s

/-- A hot-store read warms its line (R260). -/
def State.warm (s : State) (len : Nat) : State :=
  match s.hot.tags.find len with
  | some g => { s with hot := { s.hot with lines := s.hot.lines.modify (hotKey (hotSet len) g.way) (fun l =>
      { l with warmth := min 255 (l.warmth + 1) }) } }
  | none => s

/-- A promotion candidate is promoted (R260): into a free way, or after the demotion of the least warm line that is colder. -/
def execHotPromotion (t len : Nat) (s : State) : Res :=
  let s0 := s.at t
  let count := s0.hot.filter.findD len 0
  let s1 :=
    match s0.entry len with
    | none => s0
    | some e =>
      match s0.table e.tid with
      | none => s0
      | some tb =>
        if !s0.inWrite || !s0.bit Fld.PIL_HOT_CTL_auto_en || tb.df.hot != 0 || tb.df.adBytes == 0 || e.state != EntryState.live ||
            s0.adPending len || s0.hot.tags.has len || count < s0.fld Fld.PIL_HOT_CTL_promote_thresh || count == 0 then s0
        else
          match s0.autoWay (hotSet len) with
          | some w => s0.hotWrite len w false 0 (s0.adFor len s0.clock.grid)
          | none =>
            let lines : List (Nat × HotLine) :=
              (s0.autoLines (hotSet len) s0.hotWays).filter (fun (p : Nat × HotLine) => !s0.adPending p.2.len)
            let least := (lines.map (fun (p : Nat × HotLine) => p.2.warmth)).foldl min 256
            match lines.find? (fun (p : Nat × HotLine) => p.2.warmth == least) with
            | some p => if least < count then s0.hotDemote p.2.len else s0
            | none => s0
  .next s1.settle

/-- The decay period in tides (R260). -/
def State.decayPeriod (s : State) : Nat := 2 ^ (10 + s.fld Fld.PIL_HOT_CTL_decay_k)

/-- The end of a decay period (R260): warmth is halved and the candidate filter is cleared. -/
def execHotDecay (s : State) : Res :=
  let s1 :=
    if s.clock.grid < s.hot.decayStart + s.decayPeriod then s
    else { s with hot := { s.hot with
      lines := s.hot.lines.map (fun p => (p.1, { p.2 with warmth := p.2.warmth / 2 })),
      filter := [],
      decayStart := s.clock.grid } }
  .next s1.settle

/-- A freed pinned line is filled for the oldest waiting entry of its set (R259). -/
def execPinnedLineFill (t len : Nat) (s : State) : Res :=
  let s0 := s.at t
  let first := s0.hot.pinWait.find? (fun n => hotSet n = hotSet len)
  let s1 :=
    if !s0.inWrite || first != some len || s0.adPending len then s0
    else match s0.freeWay (hotSet len) 4 with
      | some w =>
        let s2 := s0.hotWrite len w true 0 (s0.adFor len s0.clock.grid)
        { s2 with hot := { s2.hot with pinWait := s2.hot.pinWait.filter (fun n => n != len) } }
      | none => s0
  .next s1.settle

/-- While a change into M5 is prepared, the lines of ways 4 to 7 are demoted (R38, R263). -/
def execHotWayDemotion (t : Nat) (s : State) : Res :=
  let s0 := s.at t
  let high := s0.hot.lines.filter (fun p => 4 ≤ p.1 % 8 && p.2.freeFrom.isNone && !s0.adPending p.2.len)
  let s1 := if s0.inWrite && s0.mode.pending == some 5 && s0.mode.preparing
    then s0.each high (fun x p => x.hotDemote p.2.len) else s0
  .next s1.settle

end Sys2Proof.Machine
end

