-- ==== Sys2Proof/Machine/Commands.lean ====
section
/-! DEFINITION. The table commands other than INSERT (R160 to R182, R244, R376): their checks at acceptance, and the write phase that
applies them (R61, R598, R599). -/
namespace Sys2Proof.Machine

/-- Check 5 of R176 (R163, R645): a table being freed, then a table of the other kind. -/
def State.kindCheck (s : State) (tid : Nat) (direct busy : Bool) : Option Nat :=
  match s.table tid with
  | none => some 0x08
  | some t =>
    if busy && t.state == .flushed then some 0x0E
    else if t.df.direct != direct then some 0x0A
    else none

/-- A refused command, or the next action. -/
def State.orRefuse (s : State) (src : Source) (c : Cmd) (r : Option Nat) (rest : State → State) : State :=
  match r with
  | some x => s.refuse src c x 0
  | none => rest s

/-- The entry that a command's target handle names (R153, R156, R157, R598): a null handle first, then the device, then the entry. -/
def State.target (s : State) (tid h : Nat) : Nat × Option (Nat × Entry) :=
  if h / 2 ^ 24 % 32 = 0 then (0x06, none)
  else if h / 2 ^ 29 != s.member then (0x07, none)
  else match s.liveEntry h with
    | some (len, e) => if e.state == .live && e.tid == tid then (0, some (len, e)) else (0x06, none)
    | none => (0x06, none)

/-- Operations wanted in some banks together (R231, R257). -/
abbrev Demand := List (List Nat × Nat)

/-- The operations that a list of demands makes in a bank. -/
def demandIn (l : Demand) (bank : Nat) : Nat := ((l.filter (fun d => d.1.contains bank)).map (fun d => d.2)).foldl (fun a b => a + b) 0

/-- The operations that a list of demands makes device-wide. -/
def demandAll (l : Demand) : Nat := (l.map (fun d => d.1.length * d.2)).foldl (fun a b => a + b) 0

/-- The removal of an entry wants one operation in its bank, and one in its mirror's (R230, R231). -/
def State.removalOf (s : State) (len : Nat) : Demand :=
  match s.entry len with
  | some e => if e.state == .live then [(s.writeBanks e.bank e.row, 1)] else []
  | none => []

/-- Removal writes that accepted commands and evictions have still to make in the write phase of a grid tide (R238). -/
def State.promised (s : State) (tide : Nat) : Demand :=
  (s.cmds.accepted.filter (fun a => cmdOp a.record == 0x02 && !a.applied && max a.applyTide s.clock.grid == tide)).flatMap (fun a =>
    s.removalOf (cmdHandle a.record % 2 ^ 24)) ++
  (s.cmds.flights.filter (fun i => i.nextStep == 0 && !i.evicted && max i.stepTide s.clock.grid == tide)).flatMap (fun i =>
    match i.victim with
    | some v => s.removalOf v
    | none => [])

/-- The banks of an entry have an operation for one more removal in the write phase of a grid tide (R238). -/
def State.removalRoom (s : State) (e : Entry) (tide : Nat) : Bool :=
  (s.writeBanks e.bank e.row).all (fun b =>
    let used := if tide = s.clock.grid then (s.bankUsed b).1 else 0
    used + demandIn (s.promised tide) b + 1 ≤ s.writeStrokes)

/-- DELETE (R244): accepted where its bank has an operation left in its write phase (R238). -/
def execDelete (t : Nat) (src : Source) (s : State) : Res :=
  .next ((s.atHead t src (· == 0x02) (fun s0 c =>
    let tid := cmdTid c.record
    let room := match (s0.target tid (cmdHandle c.record)).2 with
      | some (_, e) => s0.removalRoom e s0.applyTide
      | none => true
    if !room then s0
    else s0.checked src c true true (cmdBody c.record).isEmpty .edit (fun x => x.noTable src tid) (fun s1 =>
      s1.orRefuse src c (s1.kindCheck tid false false) (fun s2 => s2.acceptWrite src c)))).settle)

/-- MODIFY_AD (R181). -/
def execModifyAd (t : Nat) (src : Source) (s : State) : Res :=
  .next ((s.atHead t src (· == 0x03) (fun s0 c =>
    let tid := cmdTid c.record
    s0.checked src c true true true .edit (fun x => x.noTable src tid) (fun s1 =>
      let size := match s1.table tid with
        | some tb => tb.df.adBytes
        | none => 0
      let fit := if size = 0 || (cmdBody c.record).length != size then some 0x0A else none
      s1.orRefuse src c (s1.kindCheck tid false false) (fun s2 => s2.orRefuse src c fit (fun s3 => s3.acceptWrite src c))))).settle)

/-- READ_ENTRY (R182). -/
def execReadEntry (t : Nat) (src : Source) (s : State) : Res :=
  .next ((s.atHead t src (· == 0x04) (fun s0 c =>
    let tid := cmdTid c.record
    s0.checked src c true true (cmdBody c.record).isEmpty .read (fun x => x.noTable src tid) (fun s1 =>
      s1.orRefuse src c (s1.kindCheck tid false false) (fun s2 => s2.acceptWrite src c)))).settle)

/-- COUNTER_READ (R376). -/
def execCounterRead (t : Nat) (src : Source) (s : State) : Res :=
  .next ((s.atHead t src (· == 0x05) (fun s0 c =>
    let tid := cmdTid c.record
    s0.checked src c true true (cmdBody c.record).isEmpty .counter (fun x => x.noTable src tid) (fun s1 =>
      s1.orRefuse src c (s1.kindCheck tid false false) (fun s2 => s2.acceptWrite src c)))).settle)

/-- COUNTER_WRITE (R376). -/
def execCounterWrite (t : Nat) (src : Source) (s : State) : Res :=
  .next ((s.atHead t src (· == 0x06) (fun s0 c =>
    let tid := cmdTid c.record
    s0.checked src c true true ((cmdBody c.record).length == 8) .edit (fun x => x.noTable src tid) (fun s1 =>
      s1.orRefuse src c (s1.kindCheck tid false false) (fun s2 => s2.acceptWrite src c)))).settle)

/-- Chart lines promised to creations that wait for their boundary: a header and one bucket each (R253). -/
def State.promisedLines (s : State) : Nat :=
  2 * (s.due.filter (fun d => match d.change with
    | .tableCreate df _ => !df.direct
    | _ => false)).length

/-- The checks of R160 after the common ones, for a definition. A ternary table whose lines the chart does not hold (R253) is answered
NO_SPACE (DESIGN CHOICE, notes/assumptions/148.md). -/
def State.createCheck (s : State) (bs : Bytes) : Option Nat :=
  let d := TableDef.parse bs
  let promised := s.due.any (fun x => match x.change with
    | .tableCreate df _ => df.tid == d.tid
    | _ => false)
  let old := match s.table d.tid with
    | some t => if t.state == .deleted then some 0x0E else some 0x14
    | none => if promised then some 0x14 else none
  match old with
  | some r => some r
  | none =>
    if !(TableDef.valid bs) || (d.ringSpan && !s.links.record.ringEnable) then some 0x13
    else if !d.direct && d.width == 2 && (s.mode.mode == 7 || s.mode.pending == some 7) then some 0x0D
    else if !s.segmentsFit d then some 0x05
    else if !d.direct && 262144 < s.chartLines + s.promisedLines + 2 then some 0x05
    else none

/-- TABLE_CREATE (R160, R161): the table comes into existence at the boundary that R63 gives. -/
def execTableCreate (t : Nat) (src : Source) (s : State) : Res :=
  .next ((s.atHead t src (· == 0x08) (fun s0 c =>
    let body := cmdBody c.record
    let form := body.length == 64 && fieldLE body 4 2 == cmdTid c.record
    s0.checked src c true false form .supervisor (fun _ => none) (fun s1 =>
      s1.orRefuse src c (s1.createCheck body) (fun s2 =>
        (s2.defer (.tableCreate (TableDef.parse body) s2.acceptId)).acceptBoundary src c 0)))).settle)

/-- TABLE_DELETE (R162, R163). -/
def execTableDelete (t : Nat) (src : Source) (s : State) : Res :=
  .next ((s.atHead t src (· == 0x09) (fun s0 c =>
    let tid := cmdTid c.record
    s0.checked src c true false (cmdBody c.record).isEmpty .supervisor (fun x => x.noTable src tid) (fun s1 =>
      s1.acceptWrite src c))).settle)

/-- TABLE_FLUSH (R162, R163). -/
def execTableFlush (t : Nat) (src : Source) (s : State) : Res :=
  .next ((s.atHead t src (· == 0x0A) (fun s0 c =>
    let tid := cmdTid c.record
    s0.checked src c true false (cmdBody c.record).isEmpty .supervisor (fun x => x.noTable src tid) (fun s1 =>
      let busy := match s1.table tid with
        | some tb => if tb.state == .flushed then some 0x0E else none
        | none => none
      s1.orRefuse src c busy (fun s2 => s2.acceptWrite src c)))).settle)

/-- DI_WRITE (R166). -/
def execDiWrite (t : Nat) (src : Source) (s : State) : Res :=
  .next ((s.atHead t src (· == 0x10) (fun s0 c =>
    let tid := cmdTid c.record
    let body := cmdBody c.record
    s0.checked src c true false (8 ≤ body.length && zerosAt body 4 4) .edit (fun x => x.noTable src tid) (fun s1 =>
      let size := match s1.table tid with
        | some tb => tb.df.entrySize
        | none => 0
      let fit := if body.length != 8 + size then some 0x0A else none
      s1.orRefuse src c (s1.kindCheck tid true true) (fun s2 => s2.orRefuse src c fit (fun s3 => s3.acceptWrite src c))))).settle)

/-- DI_READ (R166). -/
def execDiRead (t : Nat) (src : Source) (s : State) : Res :=
  .next ((s.atHead t src (· == 0x11) (fun s0 c =>
    let tid := cmdTid c.record
    let body := cmdBody c.record
    s0.checked src c true false (body.length == 8 && zerosAt body 4 4) .read (fun x => x.noTable src tid) (fun s1 =>
      s1.orRefuse src c (s1.kindCheck tid true false) (fun s2 => s2.acceptWrite src c)))).settle)

/-- The completion of an applied command becomes known: it is posted at the next boundary (R61). -/
def State.applied (s : State) (a : Accepted) (result handle seq : Nat) (payload : Bytes) : State :=
  s.setResult a.id (result, handle, 0, seq, payload) (s.clock.grid + 1)

/-- An edit is noted for the collisions of its write phase (R599). -/
def State.noteEdit (s : State) (a : Accepted) (object : Nat) : State :=
  let k := sourceKey a.src
  let s1 := { s with cmds := { s.cmds with edits := s.cmds.edits ++ [(k, object)] } }
  if s.cmds.edits.any (fun x => x.2 == object && x.1 != k) then s1.bump Fld.FLT_COUNT1_edit_collide else s1

/-- The count of an entry, a host write that waits for a place included (R373). -/
def State.countWritten (s : State) (len : Nat) : Nat :=
  match (s.counters.held.filter (fun h => h.len == len)).getLast? with
  | some h => h.value
  | none => s.countOf len

/-- A completion of READ_ENTRY that is due at this boundary. -/
def State.readDue (s : State) (a : Accepted) : Option Nat :=
  match a.result with
  | some (0, h, _, _, _) => if cmdOp a.record == 0x04 && a.postAt == some s.clock.grid then some h else none
  | _ => none

/-- The labels of the entries that READ_ENTRY completions due at this boundary have read (R182), taken before removed entries go. -/
def State.noteLabels (s : State) : State :=
  { s with cmds := { s.cmds with accepted := s.cmds.accepted.map (fun a =>
      match s.readDue a with
      | some h => (match s.entry (h % 2 ^ 24) with
        | some e => { a with label := e.keyHi }
        | none => a)
      | none => a) } }

/-- The handles of the nearest entries in force before and after a label of a class L table (R182), one entry left out. -/
def State.labelNeighbours (s : State) (tid len label : Nat) : Nat × Nat :=
  let others := (s.liveEntries tid).filter (fun p => p.1 != len)
  let before := others.filter (fun p => p.2.keyHi < label)
  let after := others.filter (fun p => label < p.2.keyHi)
  let top := (before.map (fun p => p.2.keyHi)).foldl max 0
  let low := (after.map (fun p => p.2.keyHi)).foldl min (2 ^ 32)
  let h := fun (o : Option (Nat × Entry)) => match o with
    | some p => s.handle p.2.gen p.1
    | none => 0
  (h (before.find? (fun p => p.2.keyHi == top)), h (after.find? (fun p => p.2.keyHi == low)))

/-- The payload of READ_ENTRY (R182). -/
def State.readPayload (s : State) (df : TableDef) (len : Nat) (e : Entry) : Bytes :=
  let v := df.vBytes
  let order := if df.cls = 0 then leBytes e.keyHi 4 ++ zeros 4
    else if df.cls = 1 then
      let n := s.labelNeighbours df.tid len e.keyHi
      leBytes n.1 4 ++ leBytes n.2 4
    else zeros 8
  leBytes e.value.toNat v ++ leBytes e.mask.toNat v ++ (s.adFor len (s.clock.grid + 1)).take df.adBytes ++ order

/-- The list neighbours in a READ_ENTRY completion are those in force from its boundary (R182), whether or not the entry still stands. -/
def State.refreshNeighbours (s : State) : State :=
  { s with cmds := { s.cmds with accepted := s.cmds.accepted.map (fun a =>
      match s.readDue a, s.table (cmdTid a.record), a.result with
      | some h, some t, some (r, h1, v, q, p) =>
        if t.df.cls != 1 then a
        else
          let n := s.labelNeighbours t.df.tid (h % 2 ^ 24) a.label
          { a with result := some (r, h1, v, q, p.take (p.length - 8) ++ leBytes n.1 4 ++ leBytes n.2 4) }
      | _, _, _ => a) } }

/-- A DELETE in its write phase (R244, R245, R599). -/
def State.applyDelete (s : State) (a : Accepted) (h len : Nat) (e : Entry) : State :=
  let banks := s.writeBanks e.bank e.row
  if s.numbers.pendingMeta.has len || !s.opsRoom banks 1 (fun _ => 0) 0 then s
  else
    let payload := leBytes (s.countWritten len) 8
    let s1 := ((s.noteEdit a len).dropEntry len).useCmd banks 1
    s1.applied a 0 h 0 payload

/-- A command on an entry in its write phase. -/
def State.applyEntry (s : State) (a : Accepted) (t : TableRec) : State :=
  let bs := a.record
  let h := cmdHandle bs
  match s.target (cmdTid bs) h with
  | (r, none) =>
    let s1 := if cmdOp bs != 0x04 && cmdOp bs != 0x05 && r != 0x07 then s.noteEdit a (h % 2 ^ 24) else s
    s1.applied a r h 0 []
  | (_, some (len, e)) =>
    match cmdOp bs with
    | 0x02 => s.applyDelete a h len e
    | 0x03 =>
      if s.numbers.pendingMeta.has len then s
      else ((s.noteEdit a len).changeAd len ((cmdBody bs).take t.df.adBytes)).applied a 0 h 0 []
    | 0x04 => s.applied a 0 h e.seq (s.readPayload t.df len e)
    | 0x05 =>
      if s.counters.held.any (fun x => x.len == len) then s
      else s.applied a 0 h 0 (leBytes (s.countOf len) 8 ++
        [BitVec.ofNat 8 (s.stampOf len), BitVec.ofNat 8 s.learning.epoch, BitVec.ofNat 8 (s.fld Fld.LRN_AGE_CTL_k), 0] ++
        leBytes s.counters.epochTide 4)
    | _ => ((s.noteEdit a len).hostCount len (leNat ((cmdBody bs).take 8))).applied a 0 h 0 []

/-- One accepted command in its write phase (R61, R598): the table is checked again, then the target. -/
def State.applyCommand (s : State) (a : Accepted) : State :=
  let bs := a.record
  let tid := cmdTid bs
  match s.table tid with
  | none => s.applied a 0x08 0 0 []
  | some t =>
    if t.state == .deleted then s.applied a 0x08 0 0 []
    else match cmdOp bs with
      | 0x09 => (s.defer (.tableDelete tid)).applied a 0 0 0 []
      | 0x0A => if t.state == .flushed then s.applied a 0x0E 0 0 [] else (s.defer (.tableFlush tid)).applied a 0 0 0 []
      | 0x10 =>
        let index := fieldLE bs 16 4
        if t.state == .flushed then s.applied a 0x0E 0 0 []
        else if t.df.depth ≤ index then s.applied a 0x12 0 0 []
        else ((s.noteEdit a (2 ^ 32 + t.diAddr index)).diWrite t index ((cmdBody bs).drop 8)).applied a 0 0 0 []
      | 0x11 =>
        let index := fieldLE bs 16 4
        if t.df.depth ≤ index then s.applied a 0x12 0 0 [] else s.applied a 0 0 0 (s.diRead t index)
      | _ => s.applyEntry a t

/-- An accepted command has not been applied. -/
def State.heldBack (s : State) (id : Nat) : Bool := s.cmds.accepted.any (fun a => a.id == id && !a.applied)

/-- Accepted commands are applied in their order; behind one that cannot be applied yet (R280, R373), the later ones of its source wait
(R178). -/
def State.applyReady (s : State) (held : List Nat) : List Accepted → State
  | [] => s
  | a :: rest =>
    if held.contains (sourceKey a.src) then State.applyReady s held rest
    else
      let s1 := s.applyCommand a
      State.applyReady s1 (if s1.heldBack a.id then sourceKey a.src :: held else held) rest

/-- The accepted commands whose write phase this is are applied in the order of acceptance (R61, R178). -/
def execCommandWriteApply (t : Nat) (s : State) : Res :=
  let s0 := s.at t
  let ready := s0.cmds.accepted.filter (fun a => !a.applied && a.applyTide ≤ s0.clock.grid && a.result.isNone)
  .next (if s0.inWrite then s0.applyReady [] ready else s0).settle

/-- A command of a frozen master that the engine reaches is dropped without a completion (R437): one from each source in each
stroke (R60). -/
def execCommandDropFrozen (t : Nat) (src : Source) (s : State) : Res :=
  let s0 := s.at t
  let done := if s0.cmds.takenAt = s0.now then s0.cmds.droppedFrom else []
  .next (match s0.fifo src with
    | [] => s0
    | c :: rest =>
      if src == Source.seed || !s0.frozen c.master || s0.now < c.eligible || !s0.engineRuns || done.contains (sourceKey src) then s0
      else
        let n := s0.takenNow
        let s1 := s0.setFifo src rest
        let s2 := { s1 with cmds := { s1.cmds with
          taken := n.1, takenStroke := n.2.1, takenAt := s0.now, takenFrom := n.2.2, droppedFrom := done ++ [sourceKey src] } }
        (((s2.releaseRecord src c.record).releaseReply src c.reply (reserveOf c.record)).bumpHold
          Fld.SEC_FREEZE_INFO_dropped 1 c.master)).settle

end Sys2Proof.Machine
end

