-- ==== Sys2Proof/Machine/Manifest.lean ====
section
/-! DEFINITION. The manifest queue and the learn filter (R295 to R304, R312 to R327). -/
namespace Sys2Proof.Machine

/-- The header of a manifest record (R314). -/
def State.manifestHeader (s : State) (mtype slots tid berth tide : Nat) : Bytes :=
  [BitVec.ofNat 8 0x50, BitVec.ofNat 8 mtype, BitVec.ofNat 8 slots,
   BitVec.ofNat 8 (s.fld Fld.GLB_TIDE_CTL_step_gen + 16 * s.member)] ++ leBytes tid 2 ++ leBytes berth 2 ++ leBytes tide 8

/-- Slots that wait in the posting buffer. -/
def Manifest.posted (m : Manifest) : Nat := (m.posting.map (fun r => r.slots.length)).foldl (fun a b => a + b) 0

/-- The slot of a GAP (R316, R321). -/
def State.gapSlot (s : State) (g : Gap) : Bytes :=
  s.manifestHeader 0x0F 1 0 0 g.last ++ leBytes g.records 4 ++ leBytes g.slots 4 ++ leBytes g.first 8

/-- A record is dropped (R321). -/
def State.dropRecord (s : State) (slots : Nat) : State :=
  let t := s.clock.count
  let g : Gap := match s.manifest.gap with
    | some g => ⟨g.records + 1, g.slots + slots, g.first, t, s.now⟩
    | none => ⟨1, slots, t, t, s.now⟩
  ({ s with manifest := { s.manifest with gap := some g } }.bump Fld.LRN_MNF_COUNT_dropped).raise Fld.LRN_MNF_STATUS_dropped

/-- A record is posted: admitted, with a pending GAP before it, or dropped (R319, R321). The answer says whether it was admitted. -/
def State.admitRecord (s : State) (slots : List Bytes) (holdUntil : Nat) (fill : Option Nat) : State × Bool :=
  let n := slots.length + b2n s.manifest.gap.isSome
  let fits := s.bit Fld.LRN_MNF_CTL_en && s.manifest.posted + n ≤ 1024 && s.manifest.occupancy + n ≤ 32768
  if fits then
    let first : List ManifestRec := match s.manifest.gap with
      | some g => [⟨[s.gapSlot g], 0, none, s.now⟩]
      | none => []
    ({ s with manifest := { s.manifest with
        posting := s.manifest.posting ++ first ++ [⟨slots, holdUntil, fill, s.now⟩], gap := none } }, true)
  else (s.dropRecord slots.length, false)

/-- A learn notice's record is posted (R317): the AGED records of its stroke come after it. -/
def State.admitLearn (s : State) (slots : List Bytes) : State × Bool :=
  let late := fun (r : ManifestRec) => r.fill.isSome && r.at_ == s.now
  let (s1, ok) := ({ s with manifest := { s.manifest with
    posting := s.manifest.posting.filter (fun r => !late r) } }).admitRecord slots 0 none
  (s1.each (s.manifest.posting.filter late) (fun x r => (x.admitRecord r.slots r.holdUntil r.fill).1), ok)

/-- A pending GAP is admitted by itself in a stroke in which no record is posted (R321). -/
def execGapAdmit (t : Nat) (s : State) : Res :=
  let s0 := s.at t
  let s1 := match s0.manifest.gap with
    | none => s0
    | some g =>
      if s0.bit Fld.LRN_MNF_CTL_en && s0.manifest.posted < 1024 && s0.manifest.occupancy + 1 ≤ 32768 && g.at_ != s0.now &&
          !s0.manifest.posting.any (fun r => r.at_ == s0.now) then
        { s0 with manifest := { s0.manifest with
            posting := s0.manifest.posting ++ [ManifestRec.mk [s0.gapSlot g] 0 none s0.now], gap := none } }
      else s0
  .next s1.settle

/-- The commit of slots, with the strokes' budget of slots left, over the records that wait (R313, R319). -/
def Manifest.commitSlots (m : Manifest) (grid : Nat) : Nat → Nat → Manifest
  | 0, _ => m
  | _, 0 => m
  | fuel + 1, budget =>
    match m.posting with
    | [] => m
    | r :: rest =>
      if grid < r.holdUntil || r.fill.isSome then m
      else
        let left := r.slots.length - m.done
        if left ≤ budget then
          let ring := (List.range r.slots.length).foldl (fun t i => t.put (m.commit + i) (r.slots.getD i [])) m.ring
          Manifest.commitSlots { m with ring := ring, commit := m.commit + r.slots.length, posting := rest, done := 0 } grid fuel
            (budget - left)
        else { m with done := m.done + budget }

/-- Up to 16 slots are committed in a stroke, in admission order; a record with a slot that fails its check goes (R319, R320). -/
def execManifestCommit (t : Nat) (bad : Bool) (s : State) : Res :=
  let s0 := s.at t
  let m := s0.manifest
  let s1 :=
    if m.commitAt = some s0.now then s0
    else
      let m0 := { m with commitAt := some s0.now }
      match m.posting with
      | [] => s0
      | r :: rest =>
        if s0.clock.grid < r.holdUntil || r.fill.isSome then s0
        else if bad then
          let s2 := { s0 with manifest := { m0 with posting := rest, done := 0 } }
          ((s2.bump Fld.LRN_MNF_COUNT_bad).raise Fld.LRN_MNF_STATUS_bad).faultEvent 0x0E 3 0x3 0 (m.commit % 65536) r.slots.length
        else { s0 with manifest := m0.commitSlots s0.clock.grid 16 16 }
  .next s1.settle

/-- The hit counts of AGED records are written into them at a boundary (R313). -/
def State.fillAged (s : State) : State :=
  let patch := fun (r : ManifestRec) => match r.fill with
    | some len =>
      let slot := r.slots.headD []
      { r with fill := none, slots := [slot.take 24 ++ leBytes (s.countOf len) 8] }
    | none => r
  { s with manifest := { s.manifest with posting := s.manifest.posting.map patch } }

/-- The consumer's actions in their order: release, rewind, mark (R322). They act while dest is 0. -/
def State.consume (s : State) (release rewind mark : Bool) : State :=
  let m := s.manifest
  if s.fld Fld.LRN_MNF_CTL_dest != 0 then s
  else
    let m1 := if release then { m with release := m.read, mark := m.read, ring := m.ring.filter (fun p => m.read ≤ p.1) } else m
    let m2 := if rewind then { m1 with read := m1.mark } else m1
    let m3 := if mark then { m2 with mark := m2.read } else m2
    { s with manifest := m3 }

/-- A write of LRN_MNF_CTL by the physical function (R322, R324, R629). -/
def State.writeMnfCtl (s : State) (fn w mask : Nat) : State :=
  let r := Reg.LRN_MNF_CTL
  if s.holds r then s.holdWrite fn r w mask
  else if fn != 0 then s.logAccess fn r.offset 2
  else if !s.served r 0 then s.logAccess fn r.offset 6
  else
    let en := s.bit Fld.LRN_MNF_CTL_en
    let merged := (s.word r 0 &&& (2 ^ 64 - 1 - mask)) ||| (w &&& mask)
    let dest := Fld.LRN_MNF_CTL_dest.get merged
    let index := Fld.LRN_MNF_CTL_dest_index.get merged
    let refused := !en && (dest == 3 || (dest == 2 && !s.links.quays.has index))
    let (s1, _, fixed) := s.storeFields r 0 w mask (if en || refused then [4, 32] else [])
    let s2 := if refused then s1.logAccess fn r.offset 5 else if en && fixed then s1.logAccess fn r.offset 4 else s1
    s2.consume (Fld.LRN_MNF_CTL_release.get (w &&& mask) = 1) (Fld.LRN_MNF_CTL_rewind.get (w &&& mask) = 1)
      (Fld.LRN_MNF_CTL_mark.get (w &&& mask) = 1)

/-- LRN_MNF_CTL.release (R322). -/
def execManifestRelease (t fn : Nat) (w : Word64) (s : State) : Res := .next ((s.at t).writeMnfCtl fn w.toNat (2 ^ 64 - 1)).settle

/-- LRN_MNF_CTL.rewind (R322). -/
def execManifestRewind (t fn : Nat) (w : Word64) (s : State) : Res := .next ((s.at t).writeMnfCtl fn w.toNat (2 ^ 64 - 1)).settle

/-- LRN_MNF_CTL.mark (R322). -/
def execManifestMark (t fn : Nat) (w : Word64) (s : State) : Res := .next ((s.at t).writeMnfCtl fn w.toNat (2 ^ 64 - 1)).settle

/-- The slot that the window presents (R323, R324). -/
def State.mnfSlot (s : State) : Bytes :=
  match s.manifest.ring.find s.manifest.read with
  | some b => if s.manifest.read < s.manifest.commit then b else s.manifest.lastTaken
  | none => s.manifest.lastTaken

/-- Eight bytes of the window. -/
def State.mnfWindow (s : State) (n : Nat) : Nat := fieldLE s.mnfSlot (8 * n) 8

/-- The effect of a read of LRN_MNF_WIN3 that returns the bytes from `byte` on (R323). -/
def State.mnfRead (s : State) (byte size : Nat) : State :=
  let m := s.manifest
  if s.fld Fld.LRN_MNF_CTL_dest != 0 then s
  else if m.read = m.commit then s.raise Fld.LRN_MNF_STATUS_underrun
  else if byte + size ≥ 8 then { s with manifest := { m with lastTaken := s.mnfSlot, read := m.read + 1 } }
  else s

/-- A read of LRN_MNF_WIN3 (R323, R621): through the physical function; a virtual function reads 0 (R518). -/
def execManifestWinRead (t fn byte size : Nat) (s : State) : Res :=
  let s0 := s.at t
  let s1 :=
    if fn != 0 || !s0.served .LRN_MNF_WIN3 0 then s0.emit (.readData fn (zeros size))
    else (s0.mnfRead byte size).emit (.readData fn (((leBytes (s0.opening.mnfWindow 3) 8).drop byte).take size))
  .next s1.settle

/-- The committed record at the read pointer, whole. -/
def State.mnfHead (s : State) : Option (List Bytes) :=
  let m := s.manifest
  if m.read < m.commit then
    match m.ring.find m.read with
    | some b => some ((List.range (max 1 (byteAt b 2))).map (fun i => (m.ring.find (m.read + i)).getD []))
    | none => none
  else none

/-- A committed record is sent to the host ring or the quay that dest names, where it has room (R324, R468, R528). -/
def execManifestDelivery (t : Nat) (s : State) : Res :=
  let s0 := s.at t
  let index := s0.fld Fld.LRN_MNF_CTL_dest_index
  let s1 :=
    match s0.mnfHead with
    | none => s0
    | some slots =>
      let rec_ := slots.flatten
      let sent := { s0 with manifest := { s0.manifest with delivering := slots.length } }
      if s0.manifest.delivering != 0 then s0
      else if s0.fld Fld.LRN_MNF_CTL_dest = 1 then
        (if s0.eventRoom index rec_ then sent.ringQueue index .manifest rec_ else s0)
      else if s0.fld Fld.LRN_MNF_CTL_dest = 2 then
        (if s0.quayRoom index (rec_.length / 8) then sent.offerSecondary index .manifest rec_ else s0)
      else s0
  .next s1.settle

/-- The host write of a record's delivery completes, or its frame is acknowledged: its slots are released, and the read pointer and
the mark move with them (R324, R647). -/
def execManifestDeliveryRelease (t : Nat) (s : State) : Res :=
  let s0 := s.at t
  let index := s0.fld Fld.LRN_MNF_CTL_dest_index
  let ended :=
    if s0.fld Fld.LRN_MNF_CTL_dest = 1 then !((s0.hostRing index).writes.any (fun w => w.kind == .manifest))
    else
      let l := s0.link (.quay index)
      match l.manifestSeq with
      | some q => !(l.tx.any (fun r => r.kind == .manifest)) && !(l.replay.any (fun f => f.seq = q))
      | none => false
  let m := s0.manifest
  let s1 :=
    if m.delivering = 0 || !ended then s0
    else
      let r := m.read + m.delivering
      let s2 := { s0 with manifest := { m with
        read := r, mark := r, release := r, delivering := 0, lastTaken := s0.mnfSlot,
        ring := m.ring.filter (fun p => r ≤ p.1) } }
      if s0.fld Fld.LRN_MNF_CTL_dest = 2 then s2.setLink (.quay index) { s2.link (.quay index) with manifestSeq := none } else s2
  .next s1.settle

/-- A learn notice (R297): what the search core passes to the filter. -/
structure Notice where
  master : Nat
  tid : Nat
  width : Nat
  key : Digits
  berth : Nat
  reqId : Nat
  look : Nat
  chained : Bool
deriving DecidableEq, Repr

/-- The slots of a notice's key (R316). -/
def keySlots (w : Nat) (key : Digits) : List Bytes :=
  let bytes := leBytes key.toNat (10 * w)
  if w = 4 then [bytes.take 32, bytes.drop 32 ++ zeros (64 - bytes.length)] else [bytes ++ zeros (32 - bytes.length)]

/-- The filter's live entry for a table and key (R301). -/
def State.filterEntry (s : State) (tid : Nat) (key : Digits) : Option FilterEntry :=
  s.learning.filter.find? (fun e => e.tid = tid && e.key = key)

/-- A LEARN record (R316). -/
def State.learnSlots (s : State) (n : Notice) : List Bytes :=
  let keys := keySlots n.width n.key
  (s.manifestHeader 0x01 (1 + keys.length) n.tid n.berth s.clock.count ++ leBytes n.master 4 ++ leBytes n.reqId 3 ++
    [BitVec.ofNat 8 (n.look % 4 + 4 * b2n n.chained)] ++ zeros 8) :: keys

/-- A MOVE_CONTENDED record (R316). -/
def State.contendedSlots (s : State) (n : Notice) (e : FilterEntry) : List Bytes :=
  let keys := keySlots n.width n.key
  (s.manifestHeader 0x02 (1 + keys.length) n.tid n.berth s.clock.count ++ leBytes e.source 4 ++ leBytes n.master 4 ++
    leBytes e.tide 8) :: keys

/-- A new filter entry replaces, at 4,096 live ones, the one with the earliest first tide (R303). -/
def State.addFilter (s : State) (e : FilterEntry) : State :=
  let l := s.learning.filter
  let first := (l.map (·.tide)).foldl min (2 ^ 64)
  let l1 := if 4096 ≤ l.length then
      match pickFirst (fun x => x.tide = first) l with
      | some (_, rest) => rest
      | none => l
    else l
  { s with learning := { s.learning with filter := l1 ++ [e] } }

/-- The filter's decision on a learn notice (R301 to R304). -/
def State.learnNotice (s : State) (n : Notice) : State :=
  if s.learning.window = 0 then (s.admitLearn (s.learnSlots n)).1
  else
    match s.filterEntry n.tid n.key with
    | none =>
      let (s1, ok) := s.admitLearn (s.learnSlots n)
      if ok then s1.addFilter ⟨n.tid, n.key, n.master, s.clock.count, none⟩ else s1
    | some e =>
      if e.source = n.master || e.contender = some n.master then s.bump Fld.LRN_FILTER_STATUS_suppressed
      else
        let (s1, ok) := s.admitLearn (s.contendedSlots n e)
        if ok then
          let filter := updateFirst (fun x => x.tid = n.tid && x.key = n.key)
            (fun x => { x with contender := some n.master }) s1.learning.filter
          ({ s1 with learning := { s1.learning with filter := filter } }).bump Fld.LRN_FILTER_STATUS_contended
        else s1

/-- The filter entries whose window has elapsed expire at a boundary (R300, R304). -/
def State.expireFilter (s : State) : State :=
  let filter := if s.learning.window = 0 then []
    else s.learning.filter.filter (fun e => (s.clock.count + 2 ^ 64 - e.tide) % 2 ^ 64 < s.learning.window * 256)
  { s with learning := { s.learning with filter := filter } }

/-- FILTER_ENTRY_EXPIRY: the part of a boundary that expires filter entries (R300); it acts at stroke 0. -/
def execFilterEntryExpiry (s : State) : Res :=
  .next (if s.clock.stroke = 0 then s.expireFilter else s).settle

/-- A write of LRN_FILTER_CTL (R304): the window and the flush act at the boundary that R63 gives. -/
def State.writeFilterCtl (s : State) (fn w mask : Nat) : State :=
  let r := Reg.LRN_FILTER_CTL
  if s.holds r then s.holdWrite fn r w mask
  else if fn != 0 then s.logAccess fn r.offset 2
  else if !s.served r 0 then s.logAccess fn r.offset 6
  else
    let (s1, _, _) := s.storeFields r 0 w mask []
    let s2 := if mask % 65536 = 0 then s1 else s1.defer (.filterWindow (s1.fld Fld.LRN_FILTER_CTL_window))
    if Fld.LRN_FILTER_CTL_flush.get (w &&& mask) = 0 then s2
    else (s2.setFld Fld.LRN_FILTER_CTL_flush 1).defer .filterFlush

/-- LRN_FILTER_CTL.flush (R304). -/
def execLrnFilterFlush (t fn : Nat) (w : Word64) (s : State) : Res := .next ((s.at t).writeFilterCtl fn w.toNat (2 ^ 64 - 1)).settle

/-- The filter is flushed at its boundary (R304); the flush bit stands while a later write waits for its own. -/
def State.flushFilter (s : State) : State :=
  ({ s with learning := { s.learning with filter := [] } }).setFld Fld.LRN_FILTER_CTL_flush
    (b2n (s.due.any (fun d => d.change == Change.filterFlush)))

end Sys2Proof.Machine
end

