-- ==== Sys2Proof/Machine/Plan.lean ====
section
/-! DEFINITION. Plans of insertions (R235 to R243): what makes a plan that the pilot offers acceptable, where no plan exists, the class
L labels (R242) and the choice of a victim (R170). The pilot's choice among acceptable plans is an operand (notes/assumptions/7.md). -/
namespace Sys2Proof.Machine

/-- The chain limit in rows (R237). -/
def chainLimit (mode w : Nat) : Nat := if mode = 6 then 16 else 64 / w
/-- Insertions in flight (R237). -/
def flightLimit (mode : Nat) : Nat := if mode = 6 then 256 else 64

/-- The steps of a plan: a plan without moves has one step. -/
def planSteps (p : Plan) : List (List Move) := if p.steps.isEmpty then [[]] else p.steps
/-- The moves of a plan. -/
def planMoves (p : Plan) : List Move := p.steps.flatten

/-- The width of the entry that a flight places. -/
def State.flightWidth (s : State) (i : Insertion) : Nat := match s.entry i.len with
  | some e => e.width
  | none => 1

/-- A flight is still to be written. -/
def Insertion.waits (i : Insertion) : Bool := i.rollback.isNone && i.lastWrite.isNone

/-- The operations of one step in its bank (R230, R238): the units of each row placed, and a tag write for each row vacated. -/
def stepOps (w : Nat) (moves : List Move) (last : Bool) : Nat := w * (moves.length + b2n last) + moves.length

/-- The step that a flight makes in a grid tide, where each goes on in the first tide it may (R236, R247): its moves, and whether it is the
last. A flight's steps are those it has still to make. -/
def State.stepAt (s : State) (i : Insertion) (tide : Nat) : Option (List Move × Bool) :=
  let first := max i.stepTide s.clock.grid
  if !i.waits || tide < first then none
  else ((planSteps i.plan)[tide - first]?).map (fun m => (m, tide - first + 1 == (planSteps i.plan).length))

/-- What a flight wants in a grid tide (R231, R238): the operations of its step, and, before its first step, the new labels it has still to
write. -/
def State.flightDemand (s : State) (i : Insertion) (tide : Nat) : Demand :=
  (match s.stepAt i tide with
   | some (m, last) => [(s.pairBanks i.plan.bank, stepOps (s.flightWidth i) m last)]
   | none => []) ++
  (if i.waits && tide < max (i.stepTide) (s.clock.grid + 1) then
    i.relabels.filterMap (fun n => (s.entry n).map (fun e => (s.writeBanks e.bank e.row, 1))) else [])

/-- What the flights have planned for a grid tide. -/
def State.planned (s : State) (tide : Nat) : Demand := s.cmds.flights.flatMap (fun i => s.flightDemand i tide)

/-- Operations in some banks together fit the operations of a grid tide that the reserve of R238 leaves to plans, beside what flights have
planned and `used`, which this plan makes in the tide before them. -/
def State.planFits (s : State) (tide : Nat) (used : Demand) (banks : List Nat) (n : Nat) : Bool :=
  let l := used ++ s.planned tide
  let now := tide = s.clock.grid
  banks.all (fun b => (if now then (s.bankUsed b).2 else 0) + demandIn l b + n + s.bankReserve ≤ s.writeStrokes) &&
    (if now then s.opsUsed.2 else 0) + demandAll l + n * banks.length + s.params.commands ≤ s.opsTotal

/-- The write-phase strokes that a queued repair takes in its bank (R278, R283). -/
def State.repairStrokes (s : State) (r : Repair) : Nat :=
  match r.kind with
  | .restore _ _ _ => (s.bankWidth r.bank).getD 1
  | _ => 1

/-- The banks that a queued repair writes: an entry's retirement writes its mirror row too (R281). -/
def State.repairBanks (s : State) (r : Repair) : List Nat :=
  match r.kind with
  | .retire row => s.writeBanks r.bank row
  | _ => [r.bank]

/-- The kinds of write-phase work in the order in which they receive operations (R55, R257). The freeing of mirror copies (R132) and the
rewriting of a quadrant's rows (R290), which R257 does not list, rank last (DESIGN CHOICE, notes/assumptions/149.md). -/
inductive Rank where
  | command | plan | repair | removal | drain | build | split | respace | renumber | free
deriving DecidableEq, Repr

/-- The place of a kind of work. -/
def Rank.place : Rank → Nat
  | .command => 0
  | .plan => 1
  | .repair => 2
  | .removal => 3
  | .drain => 4
  | .build => 5
  | .split => 6
  | .respace => 7
  | .renumber => 8
  | .free => 9

/-- Rolled-back flights whose written rows are still to be retired (R247). -/
def State.rollbackDemand (s : State) : Demand :=
  (s.cmds.flights.filter (fun i => i.rollback.isSome && !i.rolledBack && i.lastWrite.isSome)).flatMap (fun i =>
    match s.entry i.len with
    | some e => [(s.writeBanks e.bank e.row, 1)]
    | none => [])

/-- Mirror copies still to build (R130), one unit per operation. -/
def State.buildDemand (s : State) : Demand :=
  s.arrays.mirrorBuild.map (fun k => ([partnerBank (k / 32768)], (s.bankWidth (k / 32768)).getD 1))

/-- The operations that the copies of a running drain can still take in this write phase: one a stroke on the port of its target. -/
def State.drainDemand (s : State) : Nat :=
  match s.arrays.drain with
  | some d => if d.startTide ≤ s.clock.grid
      then min ((d.total - d.copied) * (32768 / max 1 d.total))
        (s.writeLeft.filter (strokeOpen s.params.cap s.portsTaken [d.target])).length else 0
  | none => 0

/-- The new labels and sequences of running renumberings (R143, R242), a tag write each. -/
def State.renumberDemand (s : State) : Demand :=
  s.tables.vals.flatMap (fun t =>
    (t.relabel ++ (match t.reseq with
      | some r => r.left
      | none => [])).filterMap (fun x => (s.entry x.1).map (fun e => (s.writeBanks e.bank e.row, 1))))

/-- What ranks before a kind of work and is still to be written in this write phase (R257). -/
def State.ahead (s : State) (r : Rank) : Demand :=
  let p := r.place
  (if 0 < p then s.promised s.clock.grid else []) ++
  (if 1 < p then s.planned s.clock.grid ++ s.rollbackDemand else []) ++
  (if 2 < p then s.scrub.repairs.map (fun x => (s.repairBanks x, s.repairStrokes x)) else []) ++
  (if 3 < p then s.learning.removals.flatMap s.removalOf else []) ++
  (if 5 < p then s.buildDemand else []) ++
  (if 8 < p then s.renumberDemand else [])

/-- A quadrant that is held in reset, or a bank that has no slot to serve it (R247, R608). -/
def State.bankDown (s : State) (bank : Nat) : Bool := s.domainDown (20 + bank / 128) || s.service.unavailable.contains bank

/-- Work of a kind receives `n` operations in each of some banks, in the same strokes: their ports and the cap leave room beside what ranks
before it (R35, R55, R257). -/
def State.roomFor (s : State) (r : Rank) (banks : List Nat) (n : Nat) : Bool :=
  let l := s.ahead r
  banks.all (fun b => !s.bankDown b) &&
    s.opsRoom banks n (demandIn l) (demandAll l + (if 4 < r.place then s.drainDemand else 0))

/-- A row of a bank as a plan sees it: the row, and the keys of the entry in it. -/
abbrev PlacedRow := Nat × Nat × Nat × Nat

/-- The rows of a table in a bank with their keys: those of its entries, and those that entries being placed will take. -/
def State.rowsOf (s : State) (tid bank : Nat) : List PlacedRow :=
  ((s.orderEntries tid).filter (fun p => p.2.bank == bank)).map (fun p => (p.2.row, p.2.keys p.1))

/-- An entry stands in its row: it is live, or its insertion has written it. -/
def State.stands (s : State) (len : Nat) (e : Entry) : Bool :=
  e.state == .live || (e.state == .placing && s.cmds.flights.any (fun i => i.len == len && i.lastWrite.isSome))

/-- The rows of a table in a bank as they stand. -/
def State.rowsNow (s : State) (tid bank : Nat) : List PlacedRow :=
  ((s.orderEntries tid).filter (fun p => p.2.bank == bank && s.stands p.1 p.2)).map (fun p => (p.2.row, p.2.keys p.1))

/-- A row can take an entry of a table: its span is the table's or free, and the row is EMPTY or RETIRING (R229, R232). -/
def State.rowFree (s : State) (tid w bank row : Nat) : Bool :=
  s.spanFree tid w bank row && (s.writeBanks bank row).all (fun b =>
    let st := (s.tag b row).state
    st == .empty || st == .retiring)

/-- The rows of a bank that hold its table's order (R233) around one of them. -/
def inOrder (cls : Nat) (rows : List (Nat × Nat × Nat × Nat)) (x : Nat × Nat × Nat × Nat) : Bool :=
  rows.all (fun y => y.2.2.2 == x.2.2.2 ||
    (y.1 != x.1 && (if x.1 < y.1 then precedes cls x.2 y.2 else precedes cls y.2 x.2)))

/-- A row is free for a step (R229): no entry stands in it as the tide begins, and it is EMPTY, or was vacated in an earlier tide. -/
def State.rowOpen (s : State) (df : TableDef) (bank : Nat) (rows : List PlacedRow) (vacated : List Nat) (r : Nat) : Bool :=
  !rows.any (fun x => x.1 == r) && s.spanFree df.tid df.units bank r && (vacated.contains r || s.rowFree df.tid df.units bank r)

/-- The rows after some moves and some new entries (R236). -/
def moveRows (rows : List PlacedRow) (moves : List Move) (news : List PlacedRow) : List PlacedRow :=
  rows.filter (fun x => !moves.any (fun m => m.src == x.1)) ++
    moves.filterMap (fun m => (rows.find? (fun x => x.1 == m.src)).map (fun x => (m.dst, x.2))) ++ news

/-- A move that a step can make (R229, R280): its entry stands and is not pending, and its target row is free. -/
def State.movable (s : State) (df : TableDef) (bank : Nat) (rows : List PlacedRow) (vacated : List Nat) (m : Move) : Bool :=
  m.bank == bank && s.rowOpen df bank rows vacated m.dst &&
    rows.any (fun x => x.1 == m.src && !s.numbers.pendingMeta.has x.2.2.2)

/-- The rows that moves and new entries have written are in order (R233). -/
def stepInOrder (cls : Nat) (rows : List PlacedRow) (moves : List Move) (news : List PlacedRow) : Bool :=
  let after := moveRows rows moves news
  after.all (fun x => !(moves.any (fun m => m.dst == x.1) || news.contains x) || inOrder cls after x)

/-- One tide of plans played on the rows of their table in a bank (R229, R233, R236): the rows after it, and the rows vacated so far. None
where a move or a new entry breaks a rule, or where a move of `later` could have been made. -/
def State.playStep (s : State) (df : TableDef) (bank : Nat) (rows : List PlacedRow) (vacated : List Nat)
    (moves : List Move) (news : List PlacedRow) (later : List Move) : Option (List PlacedRow × List Nat) :=
  let ok := moves.all (s.movable df bank rows vacated) && news.all (fun x => s.rowOpen df bank rows vacated x.1) &&
    stepInOrder df.cls rows moves news &&
    later.all (fun m => !(s.movable df bank rows vacated m && stepInOrder df.cls rows (m :: moves) news))
  if ok then some (moveRows rows moves news, vacated ++ moves.map (fun m => m.src)) else none

/-- The tides of plans played in order: for each its moves, its new entries and the moves that it leaves for later. -/
def State.playTides (s : State) (df : TableDef) (bank : Nat) :
    List (List Move × List PlacedRow × List Move) → List PlacedRow → List Nat → Bool
  | [], _, _ => true
  | x :: rest, rows, v => match s.playStep df bank rows v x.1 x.2.1 x.2.2 with
    | some (rows1, v1) => State.playTides s df bank rest rows1 v1
    | none => false

/-- The flights of a table in a bank, but for one. -/
def State.flightsIn (s : State) (tid bank id : Nat) : List Insertion :=
  s.cmds.flights.filter (fun i => i.tid == tid && i.plan.bank == bank && i.waits && i.id != id)

/-- A plan whose first step is made in grid tide `at_` can be made whole beside the plans in flight (R235, R236): every tide of them is
played. -/
def State.planPlays (s : State) (df : TableDef) (rows : List PlacedRow) (p : Plan) (keys : Nat × Nat × Nat) (at_ id : Nat) : Bool :=
  let others := s.flightsIn df.tid p.bank id
  let steps := planSteps p
  let most := (others.map (fun i => max i.stepTide s.clock.grid - s.clock.grid + (planSteps i.plan).length)).foldl max
    (at_ - s.clock.grid + steps.length)
  s.playTides df p.bank ((List.range most).map (fun j =>
    let tide := s.clock.grid + j
    let theirs := others.filterMap (fun i => (s.stepAt i tide).map (fun x =>
      (x.1, if x.2 then [(i.plan.row, i.keyHi, i.keyLo, i.len)] else [])))
    let mine := if tide < at_ then [] else steps.getD (tide - at_) []
    let new := if tide + 1 == at_ + steps.length then [(p.row, keys)] else []
    (theirs.flatMap (fun x => x.1) ++ mine, theirs.flatMap (fun x => x.2) ++ new,
      if tide < at_ then [] else (steps.drop (tide - at_ + 1)).flatten))) rows []

/-- The banks where an entry may go without a change of the chart (R250). -/
def Chart.placesFor (c : Chart) (value mask : Digits) : List Nat :=
  if c.isHome mask then
    match c.bucketsOf value mask with
    | b :: _ => (c.buckets.getD b []).filter (fun x => !c.shared.contains x)
    | [] => []
  else c.shared

/-- The chart can list one more bank for an entry (R243, R249). -/
def Chart.canOpen (c : Chart) (value mask : Digits) : Bool :=
  if c.isHome mask then (c.bucketsOf value mask).all (fun b => (c.buckets.getD b []).length < 16)
  else c.buckets.all (fun l => l.length < 16)

/-- A row from `r` on, among `n`, that a test admits. -/
def anyRow (p : Nat → Bool) : Nat → Nat → Bool
  | _, 0 => false
  | r, n + 1 => p r || anyRow p (r + 1) n

/-- The first row from `r` on, among `n`, that a test admits. -/
def firstRow (p : Nat → Bool) : Nat → Nat → Option Nat
  | _, 0 => none
  | r, n + 1 => if p r then some r else firstRow p (r + 1) n

/-- A plan within the chain limit exists in a bank (R240). -/
def State.planExists (s : State) (df : TableDef) (bank : Nat) (keys : Nat × Nat × Nat) : Bool :=
  let w := df.units
  let rows := s.rowsOf df.tid bank
  let before := rows.filter (fun x => precedes df.cls x.2 keys)
  let after := rows.filter (fun x => !precedes df.cls x.2 keys)
  let lo := (before.map (fun x => x.1 + 1)).foldl max 0
  let hi := (after.map (fun x => x.1)).foldl min (32768 / w)
  let moves := fun f => if f < lo then (before.filter (fun x => f < x.1)).length
    else if f < hi then 0 else (after.filter (fun x => x.1 < f)).length
  !s.bankDown bank && anyRow (fun f =>
    !rows.any (fun x => x.1 == f) && s.rowFree df.tid w bank f && moves f + 1 ≤ chainLimit s.mode.mode w) 0 (32768 / w)

/-- Rows free for a width in a bank, as the pilot ranks banks (R243). -/
def State.freeRows (s : State) (w bank : Nat) : Nat :=
  match s.bankWidth bank with
  | none => 32768 / w
  | some v => if v = w then 32768 / w - s.rowsHeld bank else 0

/-- With a mirror, a bank whose partner holds or awaits primary rows, or is listed by a chart, takes no span: the pair has one primary
side (R231, R234). -/
def State.pairTaken (s : State) (bank : Nat) : Bool :=
  s.mirroring && (s.bankDown (partnerBank bank) || s.numbers.entries.any (fun p => p.2.bank == partnerBank bank) ||
    s.tables.any (fun p => p.2.nextChart.buckets.any (fun l => l.contains (partnerBank bank))))

/-- A bank in which R243 may open a span for an entry: not listed yet for it, in service, with a plan for it. A bank that other buckets
list holds home entries and never becomes a shared bank (R250). -/
def State.openable (s : State) (df : TableDef) (c : Chart) (value mask : Digits) (keys : Nat × Nat × Nat) (bank : Nat) : Bool :=
  let lists := if c.isHome mask then (c.bucketsOf value mask).map (fun k => c.buckets.getD k []) else c.buckets
  !lists.any (fun l => l.contains bank) && 0 < s.freeRows df.units bank && !s.pairTaken bank && s.planExists df bank keys

/-- The bank that R243 opens is one with the most free rows of those it may open. -/
def State.mayOpen (s : State) (df : TableDef) (c : Chart) (value mask : Digits) (keys : Nat × Nat × Nat) (bank : Nat) : Bool :=
  let n := s.freeRows df.units bank
  bank < 512 && s.openable df c value mask keys bank &&
    (List.range 512).all (fun b => s.freeRows df.units b ≤ n || !s.openable df c value mask keys b)

/-- A split could let the chart list another bank (R253, R254). -/
def State.maySplit (s : State) (t : TableRec) : Bool :=
  let c := t.nextChart
  c.selector.length < 12 && c.selector.length < 80 * t.df.units && s.chartLines + s.promisedLines + c.buckets.length ≤ 262144

/-- No plan exists for an entry in any bank that the chart lists for it, and the chart cannot list another bank with room (R240). -/
def State.noSpace (s : State) (t : TableRec) (value mask : Digits) (keys : Nat × Nat × Nat) : Bool :=
  let c := s.plannedChart t
  !(c.placesFor value mask).any (fun b => s.planExists t.df b keys) &&
    !((c.canOpen value mask || s.maySplit t) && (List.range 512).any (s.openable t.df c value mask keys))

/-- The first tide in which a step of an insertion accepted now is written (R236). -/
def State.firstStep (s : State) : Nat := if s.inSlack then s.clock.grid + 1 else s.clock.grid

/-- Every step of a plan fits the operations of its tide (R238), the first in grid tide `at_`. -/
def State.stepsFit (s : State) (w bank : Nat) : List (List Move) → Nat → Bool
  | [], _ => true
  | m :: rest, at_ => s.planFits at_ [] (s.pairBanks bank) (stepOps w m rest.isEmpty) && State.stepsFit s w bank rest (at_ + 1)

/-- The grid tide after the one in which the last of some tag writes is made (R238, R242): each in its order, in the first tide that leaves
it an operation in its banks. None where more than `fuel` tides and writes are looked at. -/
def State.labelTides (s : State) : List (List Nat) → Nat → Demand → Nat → Option Nat
  | [], tide, used, _ => some (if used.isEmpty then tide else tide + 1)
  | _, _, _, 0 => none
  | bs :: rest, tide, used, fuel + 1 =>
    if s.planFits tide used bs 1 then State.labelTides s rest tide ((bs, 1) :: used) fuel
    else State.labelTides s (bs :: rest) (tide + 1) [] fuel

/-- The rows of a table in a bank with the labels that a renumbering gives their entries (R242). -/
def relabelRows (rl : List (Nat × Nat)) (rows : List PlacedRow) : List PlacedRow :=
  rows.map (fun x => match rl.find? (fun y => y.1 == x.2.2.2) with
    | some y => (x.1, y.2, x.2.2)
    | none => x)

/-- A plan is acceptable (R235 to R243): for a table, the new entry's digits and keys, and the first step's tide. -/
def State.planOk (s : State) (t : TableRec) (value mask : Digits) (keys : Nat × Nat × Nat) (p : Plan) (at_ : Nat) : Bool :=
  let df := t.df
  let c := s.plannedChart t
  let places := c.placesFor value mask
  let opened := c.canOpen value mask && s.mayOpen df c value mask keys p.bank && !places.any (fun b => s.planExists df b keys)
  p.bank < 512 && !s.bankDown p.bank && (places.contains p.bank || opened) &&
    (planMoves p).length + 1 ≤ chainLimit s.mode.mode df.units && (planSteps p).length ≤ (planMoves p).length + 1 &&
    (at_ - s.firstStep) + (planSteps p).length ≤ s.params.bound &&
    (planMoves p).all (fun m => (s.rowsNow df.tid p.bank).any (fun x => x.1 == m.src)) &&
    s.planPlays df (relabelRows p.relabel (s.rowsNow df.tid p.bank)) p keys at_ s.acceptId && s.stepsFit df.units p.bank (planSteps p) at_

/-- The label of a new class L entry between two neighbours (R141, R242). -/
def newLabel (prev next : Option Nat) : Option Nat :=
  match prev, next with
  | none, none => some 0x80000000
  | some p, none => if p + 65536 ≤ 0xFFFFFFFF then some (p + 65536)
      else if p < 0xFFFFFFFF then some ((p + 0xFFFFFFFF + 1) / 2) else none
  | none, some n => if 65536 ≤ n then some (n - 65536) else if 0 < n then some (n / 2) else none
  | some p, some n => if p + 2 ≤ n then some ((p + n) / 2) else none

/-- The labels just before and just after a new entry's list place (R179), among labels of the table. -/
def labelPlace (labels : List Nat) (pos anchor : Nat) : Option Nat × Option Nat :=
  let top := fun (l : List Nat) => if l.isEmpty then none else some (l.foldl max 0)
  let low := fun (l : List Nat) => if l.isEmpty then none else some (l.foldl min (2 ^ 32))
  match pos with
  | 0 => (top labels, none)
  | 1 => (top (labels.filter (fun x => x < anchor)), some anchor)
  | 2 => (some anchor, low (labels.filter (fun x => anchor < x)))
  | _ => (none, low labels)

/-- A list in rising order of a key. -/
def insertBy {α : Type} (f : α → Nat) (x : α) : List α → List α
  | [] => [x]
  | y :: ys => if f x ≤ f y then x :: y :: ys else y :: insertBy f x ys
/-- Sorted by a key. -/
def sortBy {α : Type} (f : α → Nat) (l : List α) : List α := l.foldr (insertBy f) []

/-- The distances between labels that rise, ends included. -/
def gaps : List Int → List Int
  | a :: b :: rest => (b - a) :: gaps (b :: rest)
  | _ => []

/-- A renumbering of a window (R242): up to 4,096 neighbouring entries at the new entry's place, order kept, labels spread evenly
between the entries just outside. -/
def State.relabelOk (s : State) (tid : Nat) (prev next : Option Nat) (rl : List (Nat × Nat)) : Bool :=
  let ents := sortBy (fun (p : Nat × Entry) => p.2.keyHi) (s.orderEntries tid)
  let inW := fun (p : Nat × Entry) => rl.any (fun x => x.1 == p.1)
  let win := ents.filter inW
  let first := (win.head?.map (fun p => p.2.keyHi)).getD 0
  let last := (win.getLast?.map (fun p => p.2.keyHi)).getD 0
  let outer := ents.filter (fun p => !inW p)
  let lo : Int := ((outer.filter (fun p => p.2.keyHi < first)).map (fun p => (p.2.keyHi : Int))).foldl max (-1)
  let hi : Int := ((outer.filter (fun p => last < p.2.keyHi)).map (fun p => (p.2.keyHi : Int))).foldl min 0x100000000
  let labels := win.map (fun p => (((rl.find? (fun x => x.1 == p.1)).map (fun x => x.2)).getD 0 : Int))
  let g := gaps (lo :: labels ++ [hi])
  let touches := win.any (fun p => some p.2.keyHi == prev || some p.2.keyHi == next)
  rl.length ≤ 4096 && win.length == rl.length && touches && outer.all (fun p => p.2.keyHi < first || last < p.2.keyHi) &&
    g.all (fun x => 0 < x) && g.foldl max 0 ≤ g.foldl min 0x100000000 + 1

/-- The order in which new labels are written (R242): those that fall from the first forwards, then those that rise from the last
backwards. -/
def State.relabelOrder (s : State) (rl : List (Nat × Nat)) : List (Nat × Nat) :=
  let old := fun (x : Nat × Nat) => match s.entry x.1 with
    | some e => e.keyHi
    | none => 0
  let l := sortBy old rl
  l.filter (fun x => x.2 < old x) ++ (l.filter (fun x => old x < x.2)).reverse

/-- No window of 4,096 entries around a list place holds a spare label (R242). -/
def State.windowsFull (s : State) (tid : Nat) (prev next : Option Nat) : Bool :=
  let labels := sortBy id ((s.orderEntries tid).map (fun p => p.2.keyHi))
  let n := labels.length
  let k := (labels.filter (fun x => match prev with
    | some p => x ≤ p
    | none => (match next with
      | some _ => false
      | none => true))).length
  4096 ≤ n && (List.range (n - 4096 + 1)).all (fun i =>
    !(i ≤ k && k ≤ i + 4096) ||
      (let lo : Int := if i = 0 then -1 else labels.getD (i - 1) 0
       let hi : Int := if i + 4096 < n then labels.getD (i + 4096) 0 else 0x100000000
       hi - lo - 1 ≤ 4096))

/-- Distinct draws from a list (R170), up to a number, by the DRBG; without it the earliest elements are taken. -/
def State.draws (s : State) {α : Type} : Nat → Nat → List α → List α
  | 0, _, _ => []
  | _, _, [] => []
  | n + 1, c, x :: xs =>
    let l := x :: xs
    let i := if s.security.drbgFailed then 0 else Config.random c % l.length
    (l.drop i).take 1 ++ State.draws s n (c + 1) (l.take i ++ l.drop (i + 1))

/-- The victim of an eviction (R170), and the draws made. -/
def State.chooseVictim (s : State) (t : TableRec) : Option (Nat × Entry) × Nat :=
  let eligible := (s.liveEntries t.df.tid).filter (fun p => p.2.charged)
  let n := if t.df.evict = 1 then 1 else 16
  let drawn := s.draws n s.freeCounter eligible
  let age := fun (p : Nat × Entry) => (s.learning.epoch + 256 - s.stampOf p.1) % 256
  let top := (drawn.map age).foldl max 0
  let old := sortBy (fun (p : Nat × Entry) => p.1) (drawn.filter (fun p => age p == top))
  (if t.df.evict = 1 then drawn.head? else old.head?, drawn.length)

end Sys2Proof.Machine
end

