-- ==== Sys2Proof/Machine/Pilot.lean ====
section
/-! DEFINITION. Insertions (R176, R235 to R248): acceptance, the steps of a plan, eviction, the boundary that puts an entry in force,
and rollback. -/
namespace Sys2Proof.Machine

/-- The fields of an insertion body (R173). -/
def insertRank (bs : Bytes) : Nat := fieldLE bs 16 4
/-- The list position asked for. -/
def insertPos (bs : Bytes) : Nat := byteAt bs 20
/-- A mask is present. -/
def insertMasked (bs : Bytes) : Bool := (byteAt bs 21).testBit 0

/-- All digits of a width. -/
def allDigits (w : Nat) : Digits := BitVec.ofNat 320 (2 ^ (80 * w) - 1)

/-- The mask of an insertion (R174). -/
def insertMask (df : TableDef) (bs : Bytes) : Digits :=
  if insertMasked bs then digitsOf ((bs.drop (24 + df.vBytes)).take (10 * df.units)) else allDigits df.units
/-- The value of an insertion in canonical form (R146). -/
def insertValue (df : TableDef) (bs : Bytes) : Digits := digitsOf ((bs.drop 24).take (10 * df.units)) &&& insertMask df bs
/-- The associated data of an insertion. -/
def insertAd (df : TableDef) (bs : Bytes) : Bytes :=
  (bs.drop (24 + df.vBytes * (1 + b2n (insertMasked bs)))).take df.adBytes

/-- Check 1 of R176 for an insertion: what can be checked without the table. -/
def insertForm (bs : Bytes) : Bool :=
  cmdOp bs == 0x01 && 24 + (if cmdAuthBit bs then 16 else 0) ≤ bs.length && byteAt bs 21 < 2 && zerosAt bs 22 2 &&
    insertPos bs ≤ 3 && (cmdHandle bs == 0 || insertPos bs == 1 || insertPos bs == 2)

/-- The second part of check 5 of R176: the record fits the table. -/
def insertFits (df : TableDef) (bs : Bytes) : Bool :=
  let v := df.vBytes
  let m := b2n (insertMasked bs)
  !df.direct && (cmdBody bs).length == 8 + v * (1 + m) + df.adBytes &&
    zerosAt bs (24 + 10 * df.units) (v - 10 * df.units) && (m == 0 || zerosAt bs (24 + v + 10 * df.units) (v - 10 * df.units)) &&
    (df.cls == 0 || insertRank bs == 0) && (df.cls == 1 || insertPos bs != 3)

/-- The anchor of a positioned insertion (R153, R176 check 7): its label; none where it names no live entry of the table. An anchor of
another device is answered BAD_ANCHOR, as every other anchor that names none (R157 names WRONG_DEVICE, R176 lets it stand for BAD_ANCHOR of a
target handle: DESIGN CHOICE, notes/assumptions/151.md). -/
def State.anchor (s : State) (df : TableDef) (h : Nat) : Option Nat :=
  match s.target df.tid h with
  | (_, some (_, e)) => some e.keyHi
  | _ => none

/-- Checks 5 to 8 of R176 (check 6 is R147: in class E every mask bit is 1), with the handle of an EXISTS completion. An equal value whose
insertion is still in flight answers EXISTS with its handle too (DESIGN CHOICE, notes/assumptions/152.md). -/
def State.insertCheck (s : State) (t : TableRec) (bs : Bytes) : Option (Nat × Nat) :=
  let df := t.df
  let pos := insertPos bs
  if t.state == .flushed then some (0x0E, 0)
  else if !insertFits df bs then some (0x0A, 0)
  else if df.cls == 2 && insertMask df bs != allDigits df.units then some (0x0B, 0)
  else if (pos == 1 || pos == 2) && (df.cls != 1 || (s.anchor df (cmdHandle bs)).isNone) then some (0x0C, 0)
  else if df.cls == 2 then
    match (s.orderEntries df.tid).find? (fun p => p.2.value == insertValue df bs) with
    | some p => some (0x02, s.handle p.2.gen p.1)
    | none => none
  else none

/-- The insertion is not accepted in this stroke and waits at the head of its FIFO (R235). -/
def State.notAccepted (s : State) : State := s.raise Fld.PIL_STATUS_deferred

/-- The keys of a new entry (R139, R241, R242), where its label exists with the plan's renumbering. -/
def State.newKeys (s : State) (t : TableRec) (bs : Bytes) (len : Nat) (rl : List (Nat × Nat)) : Option (Nat × Nat × Nat) :=
  if t.df.cls = 0 then some (insertRank bs, t.counter, len)
  else if t.df.cls = 2 then some (0, t.counter, len)
  else
    let label := fun (p : Nat × Entry) => ((rl.find? (fun x => x.1 == p.1)).map (fun x => x.2)).getD p.2.keyHi
    let labels := (s.orderEntries t.df.tid).map label
    let anchor := match s.target t.df.tid (cmdHandle bs) with
      | (_, some p) => label p
      | _ => 0
    let place := labelPlace labels (insertPos bs) anchor
    (newLabel place.1 place.2).map (fun l => (l, 0, len))

/-- The neighbours of a class L insertion by the labels in force. -/
def State.insertPlace (s : State) (t : TableRec) (bs : Bytes) : Option Nat × Option Nat :=
  labelPlace ((s.orderEntries t.df.tid).map (fun p => p.2.keyHi)) (insertPos bs) ((s.anchor t.df (cmdHandle bs)).getD 0)

/-- The grid tide of the first step of a plan (R236, R242): its tag-only writes come before its moves. -/
def State.firstMove (s : State) (rl : List (Nat × Nat)) : Option Nat :=
  let banks := (s.relabelOrder rl).filterMap (fun x => (s.entry x.1).map (fun e => s.writeBanks e.bank e.row))
  s.labelTides banks s.firstStep [] (banks.length + 2 * s.params.bound)

/-- The state with an insertion accepted (R139, R154, R235, R248): its number, its place in the order, its charge and its flight. -/
def State.launch (s : State) (src : Source) (c : Cmd) (t : TableRec) (p : Plan) (len : Nat) (keys : Nat × Nat × Nat)
    (victim : Option (Nat × Entry)) (drawn at_ : Nat) : State :=
  let df := t.df
  let bs := c.record
  let (s1, gen) := s.takeNumber len
  let value := insertValue df bs
  let mask := insertMask df bs
  let e : Entry := ⟨gen, df.tid, df.units, .placing, p.bank, p.row, keys.1, keys.2.1, t.counter, value, mask, 0, true⟩
  let s2 := match victim with
    | some (v, ve) => (s1.setEntry v { ve with charged := false }).chargeUnits df.tid df.units false
    | none => s1
  let order := (s2.relabelOrder p.relabel).map (fun x => x.1)
  let s3 := s2.each p.relabel (fun x y => match x.entry y.1 with
    | some o => x.setEntry y.1 { o with keyHi := y.2 }
    | none => x)
  let s4 := (s3.setEntry len e).chargeUnits df.tid df.units true
  let s5 := { s4 with
    tables := s4.tables.modify df.tid (fun x => { x with counter := (x.counter + 1) % 2 ^ 32 })
    freeCounter := s4.freeCounter + drawn }
  let s6 := ((planMoves p).map (fun m => m.dst) ++ [p.row]).foldl (fun x r => x.takeSpan df.tid df.units p.bank r) s5
  let f : Insertion :=
    { id := s.acceptId, tid := df.tid, len := len, gen := gen, tide := s.clock.grid, bound := s.params.bound, keyHi := keys.1,
      keyLo := keys.2.1, value := value, mask := mask, ad := insertAd df bs, plan := p, nextStep := 0, stepTide := at_,
      victim := victim.map (fun v => v.1), victimHandle := (victim.map (fun v => s.handle v.2.gen v.1)).getD 0, victimCount := 0,
      lastWrite := none, rollback := none, relabels := order, rolledBack := false, evicted := false }
  let s7 := { s6 with cmds := { s6.cmds with flights := s6.cmds.flights ++ [f] } }
  s7.accept src c s.clock.grid true none none

/-- A class L insertion can be made with the labels as they are, or with the renumbering that its plan brings (R242). -/
def State.labelsOk (s : State) (t : TableRec) (bs : Bytes) (rl : List (Nat × Nat)) : Bool :=
  if t.df.cls != 1 then rl.isEmpty
  else
    let place := s.insertPlace t bs
    let others := s.cmds.flights.filter (fun i => i.tid == t.df.tid)
    t.relabel.isEmpty && t.relabelFrom ≤ s.clock.grid && others.all (fun i => i.relabels.isEmpty) &&
      (if rl.isEmpty then true
       else (newLabel place.1 place.2).isNone && others.isEmpty && s.relabelOk t.df.tid place.1 place.2 rl)

/-- Checks 9 and 10 of R176 and the acceptance of an insertion (R168 to R171, R235, R240). -/
def State.insertPlace2 (s : State) (src : Source) (c : Cmd) (t : TableRec) (p : Plan) : State :=
  let df := t.df
  let bs := c.record
  let q := s.quotaBinds t
  let full := q.1 || q.2
  if full && df.evict = 0 then s.refuse src c (if q.1 then 0x03 else 0x04) 0
  else
    let (victim, drawn) := if full then s.chooseVictim t else (none, 0)
    let len := s.nextNumber
    let keys := s.newKeys t bs (len.getD 16777216) p.relabel
    let plain := s.newKeys t bs 16777216 []
    let value := insertValue df bs
    let mask := insertMask df bs
    let room := match victim with
      | some (_, ve) => s.removalRoom ve s.firstStep
      | none => true
    let full := fun (k : Nat × Nat × Nat) =>
      if s.noSpace t value mask k then (s.refuse src c 0x05 0).raise Fld.PIL_STATUS_no_space else s.notAccepted
    match len, keys with
    | some n, some k =>
      if (q.1 || q.2) && victim.isNone then s.notAccepted
      else match (if p.noPlan then none else s.firstMove p.relabel) with
        | some at_ =>
          if s.cmds.flights.length < flightLimit s.mode.mode && room && s.labelsOk t bs p.relabel && s.planOk t value mask k p at_
          then s.launch src c t p n k victim drawn at_ else full k
        | none => full k
    | _, _ => match plain with
      | some k => full k
      | none => s.notAccepted

/-- INSERT (R176): checked, then accepted with a sequence and a plan, or refused, or left at the head of its FIFO. A command with an
opcode that the device does not have is taken here and answered MALFORMED. -/
def execInsert (t : Nat) (src : Source) (plan : Plan) (s : State) : Res :=
  .next ((s.atHead t src (fun op => op == 0x01 || !knownOps.contains op) (fun s0 c =>
    let tid := cmdTid c.record
    s0.checked src c true true (insertForm c.record) .edit (fun x => x.noTable src tid) (fun s1 =>
      match s1.table tid with
      | none => s1.refuse src c 0x08 0
      | some tb => match s1.insertCheck tb c.record with
        | some (r, h) => s1.refuse src c r h
        | none => s1.insertPlace2 src c tb plan))).settle)

/-- A flight replaced. -/
def State.setFlight (s : State) (f : Insertion) : State :=
  { s with cmds := { s.cmds with flights := s.cmds.flights.map (fun i => if i.id = f.id then f else i) } }

/-- Every row that carries an entry takes its keys (R143, R242, R291): its home row, a retiring row that it has left, their mirrors, and their
copies in a drain's target. The tags keep their states. -/
def State.relabelRow (s : State) (len : Nat) : State :=
  match s.entry len with
  | none => s
  | some e =>
    let carries := fun (t : Tag) => t.len == len && t.gen == e.gen && t.state != .empty
    let rows := (s.arrays.tags.filter (fun p => carries p.2)).map (fun p => p.1)
    let tags := s.arrays.tags.map (fun p => (p.1, if carries p.2 then { p.2 with keyHi := e.keyHi, keyLo := e.keyLo } else p.2))
    let s1 := { s with arrays := { s.arrays with tags := tags } }
    let s2 := s1.each ((List.range 512).filter (fun b => rows.any (fun k => (s1.portSlots b).contains (k / 32768)))) (fun x b =>
      (x.arrays.tags.filter (fun p => carries p.2 && (x.portSlots b).contains (p.1 / 32768))).foldl (fun y p =>
        (y.touch b (lineOf e.width (p.1 % 32768))).noteRow b p.2) x)
    (s2.writeMeta len e 1).unsettlePair e.bank (lineOf e.width e.row) 1

/-- The new labels of a flight are written while its banks have operations (R242); those left over. -/
def State.writeLabels (s : State) : List Nat → State × List Nat
  | [] => (s, [])
  | len :: rest =>
    match s.entry len with
    | none => State.writeLabels s rest
    | some e =>
      let banks := s.writeBanks e.bank e.row
      if s.planRoom banks 1 then State.writeLabels ((s.relabelRow len).usePlan banks 1) rest
      else (s, len :: rest)

/-- The victim of a flight, where it still stands in its table. -/
def State.victimOf (s : State) (f : Insertion) : Option (Nat × Entry) :=
  match f.victim with
  | none => none
  | some v => match s.entry v with
    | some e => if e.state == .live && s.handle e.gen v = f.victimHandle then some (v, e) else none
    | none => none

/-- The victim's row is retired in the write phase of the first step (R248). -/
def State.retireVictim (s : State) (f : Insertion) : State :=
  match s.victimOf f with
  | some (v, e) => (s.dropEntry v).useCmd (s.writeBanks e.bank e.row) 1
  | none => s

/-- The victim's removal has an operation left in this write phase. -/
def State.victimRoom (s : State) (f : Insertion) : Bool :=
  match s.victimOf f with
  | some (_, e) => s.opsRoom (s.writeBanks e.bank e.row) 1 (fun _ => 0) 0
  | none => true

/-- The moves of a step whose entries still stand where the plan found them (R245). -/
def State.liveMoves (s : State) (tid : Nat) (moves : List Move) : List (Move × Nat) :=
  moves.filterMap (fun m =>
    ((s.orderEntries tid).find? (fun p => p.2.bank == m.bank && p.2.row == m.src && p.2.state == .live)).map (fun p => (m, p.1)))

/-- One move (R230, R236): the entry's new row is written and its old row retired in the same write phase. -/
def State.moveEntry (s : State) (len : Nat) (m : Move) : State :=
  match s.entry len with
  | none => s
  | some e => (s.placeRow len m.bank m.dst).retireRow m.bank m.src e.width

/-- The chart's next version lists a bank for an entry placed in it (R243, R251). -/
def State.listBank (s : State) (tid bank : Nat) (value mask : Digits) : State :=
  match s.table tid with
  | none => s
  | some t =>
    let c := t.nextChart
    let buckets := c.bucketsOf value mask
    if buckets.all (fun b => (c.buckets.getD b []).contains bank) then s
    else s.setTable { t with chartNext := some (c.addBank buckets bank (!c.isHome mask)) }

/-- A new entry's associated data, counters and stamp (R239): a read issued for its number's previous entry keeps the old data. -/
def State.freshNumber (s : State) (len : Nat) (ad : Bytes) : State :=
  let old := s.adFor len s.clock.grid
  let s1 := (s.dramWrite (adAddr len) ad).clearCount len
  let s2 := { s1 with
    search := { s1.search with adOld := s1.search.adOld ++ [(len, s1.clock.grid + 1, old)] }
    hot := { s1.hot with adChanges := s1.hot.adChanges.filter (fun c => c.len != len) } }
  s2.stamp len

/-- The new entry's row is written, after its data, shadows, counters and stamp (R239); a pinned entry takes its line (R259). -/
def State.placeNew (s : State) (f : Insertion) : State :=
  let ad := f.ad ++ zeros (32 - f.ad.length)
  let s1 := (((s.freshNumber f.len ad).listBank f.tid f.plan.bank f.value f.mask).placeRow f.len f.plan.bank f.plan.row).setFlight
    { f with lastWrite := some s.clock.grid }
  match s1.table f.tid with
  | some t => if t.df.hot = 1 && t.df.adBytes != 0 then s1.pinLine f.len ad else s1
  | none => s1

/-- Moves of which those that would break the order are left out (R233). -/
def orderly (cls : Nat) (rows : List PlacedRow) : Nat → List Move → List Move
  | 0, _ => []
  | n + 1, moves =>
    let after := moveRows rows moves []
    let good := moves.filter (fun m => after.all (fun x => x.1 != m.dst || inOrder cls after x))
    if good.length == moves.length then moves else orderly cls rows n good

/-- Moves that no other move and no new entry needs any more (R245): those whose row is the target of none. -/
def neededMoves (row : Nat) : Nat → List Move → List Move
  | 0, moves => moves
  | n + 1, moves =>
    let kept := moves.filter (fun m => m.src == row || moves.any (fun x => x.dst == m.src))
    if kept.length == moves.length then moves else neededMoves row n kept

/-- The moves of a plan kept, its steps then. -/
def keepMoves (p : Plan) (moves : List Move) : Plan :=
  { p with steps := (p.steps.map (fun l => l.filter (fun m => moves.contains m))).filter (fun l => !l.isEmpty) }

/-- A plan after removals (R245): the move of an entry that is gone is skipped, and the row it left serves as the free row, so that the moves
made to free it are dropped where the rest of the plan can be made without them. -/
def State.trimPlan (s : State) (df : TableDef) (f : Insertion) : Insertion :=
  let rows := s.rowsNow f.tid f.plan.bank
  let left := (planMoves f.plan).filter (fun m => rows.any (fun x => x.1 == m.src))
  if left.length == (planMoves f.plan).length then f
  else
    let p1 := keepMoves f.plan left
    let p2 := keepMoves f.plan (neededMoves f.plan.row left.length left)
    let keys := (f.keyHi, f.keyLo, f.len)
    { f with plan := if s.planPlays df rows p2 keys s.clock.grid f.id then p2 else p1 }

/-- What a flight writes in this tide (R229, R233, R236): every move still to make whose target is writable and keeps the order, and, once no
other move is left, the new entry. -/
def State.stepNow (s : State) (df : TableDef) (f : Insertion) : List Move × Bool :=
  let bank := f.plan.bank
  let rows := s.rowsNow f.tid bank
  let open_ := fun (r : Nat) => s.writable bank r && !rows.any (fun x => x.1 == r) && s.spanFree f.tid df.units bank r
  let go := (planMoves f.plan).filter (fun m => open_ m.dst &&
    rows.any (fun x => x.1 == m.src && !s.numbers.pendingMeta.has x.2.2.2))
  let moves := orderly df.cls rows go.length go
  let new : PlacedRow := (f.plan.row, f.keyHi, f.keyLo, f.len)
  (moves, moves.length == (planMoves f.plan).length && open_ f.plan.row && stepInOrder df.cls rows moves [new])

/-- A step is put off by a tide (R247). -/
def State.putOff (s : State) (f : Insertion) : State := s.setFlight { f with stepTide := s.clock.grid + 1 }

/-- A step is appended to the pilot journal before its writes (R246). -/
def State.journalStep (s : State) (f : Insertion) (moves : List Move) (last : Bool) : State :=
  { s with cmds := { s.cmds with journal := s.cmds.journal ++ [⟨f.id, f.plan.bank, moves, last⟩] } }

/-- The step of a flight that is due (R236): what can be written is written, and the rest follows one tide later; with no operation left, in a
quadrant in reset, or where a write fails its read-back, all of it does (R247). -/
def State.planStep (s : State) (df : TableDef) (f0 : Insertion) (held : Bool) : State :=
  let f := s.trimPlan df f0
  let (moves, last) := s.stepNow df f
  let banks := s.pairBanks f.plan.bank
  let n := stepOps (s.flightWidth f) moves last
  if n = 0 || !s.planRoom banks n || banks.any s.bankDown then s.putOff f
  else if held then (s.usePlan banks n).putOff f
  else
    let s1 := (s.journalStep f moves last).each (s.liveMoves f.tid moves) (fun x m => x.moveEntry m.2 m.1)
    let rest := (planMoves f.plan).filter (fun m => !moves.contains m)
    let f1 := { f with plan := keepMoves f.plan rest, nextStep := f.nextStep + 1, stepTide := s.clock.grid + 1 }
    (if last then s1.placeNew f1 else s1.setFlight f1).usePlan banks n

/-- The first step, where it is due, with the victim's removal before it (R248). -/
def State.evictStep (s : State) (df : TableDef) (f : Insertion) (held : Bool) : State :=
  if f.evicted || f.victim.isNone then s.planStep df f held
  else if !s.victimRoom f then s.putOff f
  else (s.retireVictim f).planStep df { f with evicted := (s.victimOf f).isSome, victim := f.victim } held

/-- INSERT_PLAN_STEP: a flight goes on in a write phase (R236, R242, R248); `held`: a write of the step fails its read-back (R247). -/
def execInsertPlanStep (t id : Nat) (held : Bool) (s : State) : Res :=
  let s0 := s.at t
  .next (match s0.cmds.flights.find? (fun (i : Insertion) => i.id == id) with
    | none => s0
    | some f =>
      if !s0.inWrite || !f.waits then s0
      else
        let (s1, left) := s0.writeLabels f.relabels
        let f1 := { f with relabels := left }
        let s2 := s1.setFlight f1
        if s2.clock.grid < f.stepTide then s2
        else if !left.isEmpty then s2.putOff f1
        else match s2.table f.tid with
          | some tb => s2.evictStep tb.df f1 held
          | none => s2.putOff f1).settle

/-- The entry of a flight under rollback goes (R247, R269): a row that it has written is retired; before its last write its metadata line is
set FREE with the generation that it took. -/
def State.dropFlight (s : State) (f : Insertion) (e : Entry) : State :=
  if f.lastWrite.isSome then (s.dropEntry f.len).usePlan (s.writeBanks e.bank e.row) 1
  else (s.writeMeta f.len e 0).setEntry f.len { e with state := .retired }

/-- INSERT_ROLLBACK (R247): the rows written for flights under rollback are retired in a write phase that has an operation for it, their
numbers freed and the results posted at the boundary that follows. A victim not yet retired is charged again, and labels still to be
written are left to background work. -/
def State.rollBack (s : State) (f : Insertion) : State :=
  match f.rollback, s.entry f.len with
  | some code, some e =>
    if f.lastWrite.isSome && !s.roomFor .plan (s.writeBanks e.bank e.row) 1 then s
    else
      let s1 := s.dropFlight f e
      let s2 := match s1.victimOf f with
        | some (v, ve) => (s1.setEntry v { ve with charged := true }).chargeUnits ve.tid ve.width true
        | none => s1
      let left := f.relabels.map (fun n => (n, match s2.entry n with
        | some x => x.keyHi
        | none => 0))
      let s3 := { s2 with tables := s2.tables.modify f.tid (fun t => { t with relabel := t.relabel ++ left }) }
      let s4 := s3.setFlight { f with rolledBack := true, relabels := [] }
      ((s4.setResult f.id (code, 0, 0, e.seq, []) (s.clock.grid + 1)).raise Fld.PIL_STATUS_rollback).bump
        Fld.PIL_INSERT_COUNT_rolled_back
  | _, _ => s

/-- INSERT_ROLLBACK. -/
def execInsertRollback (t : Nat) (s : State) : Res :=
  let s0 := s.at t
  .next (if s0.inWrite
    then s0.each (s0.cmds.flights.filter (fun i => i.rollback.isSome && !i.rolledBack)) (fun x i => x.rollBack i)
    else s0).settle

/-- The pilot move watchdog at a boundary (R247). -/
def State.watchdog (s : State) : State :=
  { s with cmds := { s.cmds with flights := s.cmds.flights.map (fun i =>
      if i.waits && i.tide + i.bound < s.clock.grid then { i with rollback := some 0x10 } else i) } }

/-- The hit counts of victims whose numbers are freed at this boundary (R316). -/
def State.noteVictims (s : State) : State :=
  { s with cmds := { s.cmds with flights := s.cmds.flights.map (fun i => match i.victim with
      | some v => match s.entry v with
        | some e => if e.state == .retired && s.handle e.gen v = i.victimHandle then { i with victimCount := s.countOf v } else i
        | none => i
      | none => i) } }

/-- The flights that end at this boundary: written in an earlier tide, or rolled back. -/
def State.endingFlights (s : State) : List Insertion :=
  s.cmds.flights.filter (fun i => i.rolledBack || (i.rollback.isNone && (match i.lastWrite with
    | some g => decide (g < s.clock.grid)
    | none => false)))

/-- The insertions whose last write lay in an earlier tide come into force (R180): their entries are live, and their completions are
due. -/
def State.finishInsertions (s : State) : State :=
  s.each s.endingFlights (fun x i =>
    let s0 := { x with cmds := { x.cmds with
      flights := x.cmds.flights.filter (fun f => f.id != i.id), journal := x.cmds.journal.filter (fun g => g.flight != i.id) } }
    match s0.entry i.len with
    | none => s0
    | some e =>
      if i.rolledBack then
        match s0.cmds.accepted.find? (fun a => a.id == i.id) with
        | some a => s0.faultEvent 0x05 1 0x1 a.master i.tid (cmdCookie a.record)
        | none => s0
      else
        let s1 := s0.setEntry i.len { e with state := .live, inForce := x.clock.grid }
        let r := if i.victim.isSome then 0x01 else 0
        (s1.setResult i.id (r, x.handle i.gen i.len, i.victimHandle, e.seq, []) x.clock.grid).bump
          Fld.PIL_INSERT_COUNT_completed)

/-- The EVICTED records of the insertions that ended, admitted in stroke 0 of the tide (R316, R317). -/
def State.postEvicted (s : State) (flights : List Insertion) : State :=
  s.each flights (fun x i =>
    if !i.evicted then x
    else
      let berth := match x.cmds.accepted.find? (fun a => a.id == i.id) with
        | some a => cmdBerth a.record
        | none => 0
      let slot := x.manifestHeader 0x04 1 i.tid berth x.clock.count ++ leBytes i.victimHandle 4 ++
        leBytes (x.handle i.gen i.len) 4 ++ leBytes i.victimCount 8
      (x.admitRecord [slot] 0 none).1)

end Sys2Proof.Machine
end

