-- ==== Sys2Proof/Machine/Background.lean ====
section
/-! DEFINITION. The pilot's background work (R257): respacing (R240), chart splits and merges (R254, R255), resequencing (R143),
relabelling (R242), the mirror build and the freeing of mirror copies (R130 to R132), and the freeing of tables (R162). -/
namespace Sys2Proof.Machine

/-- A flight with moves still to make holds the rows of its table in its bank. -/
def State.planBusy (s : State) (tid bank : Nat) : Bool :=
  s.cmds.flights.any (fun i => i.tid == tid && i.plan.bank == bank && i.waits && !(planMoves i.plan).isEmpty)

/-- A trace or a digest of a table is held or runs (R388). -/
def State.observed (s : State) (tid : Nat) : Bool :=
  s.observe.traces.any (fun x => x.tid == tid) || s.observe.digests.any (fun x => x.tid == tid)

/-- Background operations are used in a bank and its mirror. -/
def State.useWork (s : State) (bank n : Nat) : State := s.useOther (s.pairBanks bank) n

/-- Rows of a span that the spacing target looks at together (R240): the span, in M6 each 16 of its rows. -/
def State.spacingRows (s : State) (w : Nat) : Nat := if s.mode.mode = 6 then 16 else 64 / w

/-- The spans of a table in a bank, in row order. -/
def State.spansOf (s : State) (tid bank : Nat) : List Nat :=
  (List.range 512).filter (fun k => match s.arrays.spans.find (bank * 512 + k) with
    | some o => o.tid == tid
    | none => false)

/-- Groups of rows of a table in a bank that hold no free row, among its rows (R240). -/
def State.fullGroups (s : State) (df : TableDef) (bank : Nat) (rows : List PlacedRow) : Nat :=
  let g := s.spacingRows df.units
  let per := 64 / df.units / g
  ((s.spansOf df.tid bank).flatMap (fun k => (List.range per).map (fun i => k * per + i))).foldl (fun n k =>
    n + b2n (decide (g ≤ (rows.filter (fun x => x.1 / g == k)).length))) 0

/-- Moves that respacing may make (R240): in class E each closes a hole, towards lower rows; else some group lacks a free row, the moves leave
no more groups without one, and each goes to the entry's own span or to its neighbour among the table's. -/
def State.respaces (s : State) (df : TableDef) (bank : Nat) (rows : List PlacedRow) (moves : List Move) : Bool :=
  if df.cls = 2 then moves.all (fun m => m.dst < m.src)
  else
    let spans := s.spansOf df.tid bank
    let place := fun (r : Nat) => spans.findIdx (fun k => k == df.units * r / 64)
    let before := s.fullGroups df bank rows
    0 < before && s.fullGroups df bank (moveRows rows moves []) ≤ before &&
      moves.all (fun m => place m.dst ≤ place m.src + 1 && place m.src ≤ place m.dst + 1)

/-- The half of the buckets that a split along the last selector position has made; a bucket and its sibling differ by it (R254). -/
def Chart.half (c : Chart) : Nat := c.buckets.length / 2

/-- The bucket of two siblings that keeps a bank which both list (R254): the pilot's own assignment. -/
def Chart.keeper (c : Chart) (k bank : Nat) : Nat :=
  let low := k % max 1 c.half
  let high := low + c.half
  let lists := fun (i : Nat) => (c.buckets.getD i []).contains bank
  if c.half = 0 || !(lists low && lists high) then (if lists k then k else low) else if bank % 2 = 0 then low else high

/-- The bucket of a home entry (R250). -/
def Chart.homeOf (c : Chart) (value mask : Digits) : Nat := (c.bucketsOf value mask).headD 0

/-- An entry stands where the chart wants it (R250, R254). -/
def Chart.settled (c : Chart) (e : Entry) : Bool :=
  let k := c.homeOf e.value e.mask
  if c.isHome e.mask then c.shared.contains e.bank || c.keeper k e.bank == k else c.shared.contains e.bank

/-- The banks that a misplaced entry may go to. -/
def Chart.targets (c : Chart) (e : Entry) : List Nat :=
  if c.isHome e.mask then
    let k := c.homeOf e.value e.mask
    (c.buckets.getD k []).filter (fun b => c.keeper k b == k && !c.shared.contains b)
  else c.shared

/-- A row of a bank where an entry can go without a move (R229, R233). -/
def State.openRow (s : State) (df : TableDef) (bank : Nat) (keys : Nat × Nat × Nat) : Option Nat :=
  let rows := s.rowsOf df.tid bank
  let lo := ((rows.filter (fun x => precedes df.cls x.2 keys)).map (fun x => x.1 + 1)).foldl max 0
  let hi := ((rows.filter (fun x => !precedes df.cls x.2 keys)).map (fun x => x.1)).foldl min (32768 / df.units)
  firstRow (fun r => s.spanFree df.tid df.units bank r && s.writable bank r) lo (hi - lo)

/-- The bank and the row that an entry can be moved to now (R230, R254). -/
def State.placeElsewhere (s : State) (t : TableRec) (len : Nat) (e : Entry) (banks : List Nat) : Option (Nat × Nat) :=
  if s.planBusy t.df.tid e.bank || s.numbers.pendingMeta.has len then none
  else banks.findSome? (fun b =>
    if b == e.bank || s.planBusy t.df.tid b then none else (s.openRow t.df b (e.keys len)).map (fun r => (b, r)))

/-- The banks where a misplaced entry of a table may go: those that the chart has for it, and one that may be opened (R243, R254). -/
def State.newHomes (s : State) (t : TableRec) (len : Nat) (e : Entry) : List Nat :=
  let c := t.nextChart
  c.targets e ++ (if c.canOpen e.value e.mask
    then (firstRow (fun b => s.mayOpen t.df c e.value e.mask (e.keys len) b) 0 512).toList else [])

/-- The entries of a table that stand where its chart does not want them (R254). -/
def State.misplaced (s : State) (t : TableRec) : List (Nat × Entry) :=
  (s.liveEntries t.df.tid).filter (fun (p : Nat × Entry) => !t.nextChart.settled p.2)

/-- What the moves after a split want (R254): the units of a new row, and the tag write of the old one. -/
def State.splitDemand (s : State) : Demand :=
  (s.tables.vals.filter (fun t => t.work == 1)).flatMap (fun t => (s.misplaced t).flatMap (fun p =>
    match s.placeElsewhere t p.1 p.2 (s.newHomes t p.1 p.2) with
    | some x => [(s.pairBanks x.1, t.df.units), (s.pairBanks p.2.bank, 1)]
    | none => []))

/-- Background work receives operations beside all that ranks before it (R257), the moves after a split among it. -/
def State.backRoom (s : State) (r : Rank) (banks : List Nat) (n : Nat) : Bool :=
  let l := s.ahead r ++ (if Rank.split.place < r.place then s.splitDemand else [])
  banks.all (fun b => !s.bankDown b) &&
    s.opsRoom banks n (demandIn l) (demandAll l + (if Rank.drain.place < r.place then s.drainDemand else 0))

/-- Background work of a kind receives operations in a bank and its mirror. -/
def State.workRoom (s : State) (r : Rank) (bank n : Nat) : Bool := s.backRoom r (s.pairBanks bank) n

/-- The rows that flights have reserved for the new entries of a table in a bank. -/
def State.newRows (s : State) (tid bank : Nat) : List PlacedRow :=
  (s.rowsOf tid bank).filter (fun x => !(s.rowsNow tid bank).contains x)

/-- RESPACING: moves that the pilot makes between the spans of a table in one bank, order kept (R240). No move: none is pending. Which moves
come next is the pilot's choice (notes/assumptions/7.md). -/
def execRespacing (t tid : Nat) (moves : List Move) (s : State) : Res :=
  let s0 := s.at t
  let bank := (moves.head?.map (fun m => m.bank)).getD 0
  .next (match s0.table tid with
    | none => s0
    | some tb =>
      let rows := s0.rowsNow tid bank
      let ents := s0.liveMoves tid moves
      let n := stepOps tb.df.units moves false
      if moves.isEmpty then { s0 with arrays := { s0.arrays with respaceBusy := false } }
      else if s0.inWrite && tb.state == TableState.live && !tb.df.direct && !s0.observed tid && !s0.planBusy tid bank && ents.length == moves.length &&
          moves.all (fun m => m.bank == bank && s0.writable bank m.dst) && s0.respaces tb.df bank rows moves &&
          (s0.playStep tb.df bank rows [] moves (s0.newRows tid bank) []).isSome &&
          s0.backRoom .respace (s0.pairBanks bank) n then
        let s1 := (s0.each ents (fun x m => x.moveEntry m.2 m.1)).useWork bank n
        { s1 with arrays := { s1.arrays with respaceBusy := true } }
      else s0).settle

/-- An entry moved to another bank, by work of a kind (R230, R251, R254): its new row and the chart first, then its old row. -/
def State.relocate (s : State) (r : Rank) (t : TableRec) (len : Nat) (e : Entry) (banks : List Nat) : Option State :=
  let open_ := fun (b : Nat) => s.workRoom r b t.df.units
  match s.placeElsewhere t len e (banks.filter open_) with
  | some (b, row) =>
    if s.workRoom r e.bank 1 then
      some (((((s.listBank t.df.tid b e.value e.mask).placeRow len b row).retireRow e.bank e.row e.width).useWork b t.df.units).useWork
        e.bank 1)
    else none
  | none => none

/-- Misplaced entries of a table are moved while operations last (R254); one that finds no place does not stop the others. -/
def State.migrate (s : State) (tid : Nat) : List (Nat × Entry) → State
  | [] => s
  | (len, e) :: rest =>
    match s.table tid with
    | none => s
    | some t => State.migrate ((s.relocate .split t len e (s.newHomes t len e)).getD s) tid rest

/-- The rows of a bucket: its entries. -/
def State.bucketRows (s : State) (tid : Nat) (c : Chart) (k : Nat) : Nat :=
  ((s.liveEntries tid).filter (fun p => c.inBucket p.2.value p.2.mask k)).length

/-- An insertion that waits at the head of a FIFO finds no plan in any bank of a bucket that lists 16 (R254). -/
def State.needsBank (s : State) (t : TableRec) : Bool :=
  let c := t.nextChart
  s.cmds.fifos.vals.any (fun l => match l with
    | [] => false
    | x :: _ => cmdOp x.record == 0x01 && cmdTid x.record == t.df.tid && insertFits t.df x.record &&
        (let value := insertValue t.df x.record
         let mask := insertMask t.df x.record
         match s.newKeys t x.record 16777216 [] with
         | some k => !c.canOpen value mask && !(c.placesFor value mask).any (fun b => s.planExists t.df b k)
         | none => false))

/-- A split is called for (R254): a bucket would need a seventeenth bank, or one holds more than four times the mean rows. -/
def State.wantsSplit (s : State) (t : TableRec) : Bool :=
  let c := t.nextChart
  let n := c.buckets.length
  let rows := (List.range n).map (s.bucketRows t.df.tid c)
  let total := rows.foldl (fun a b => a + b) 0
  s.needsBank t || 4 * total < rows.foldl max 0 * n

/-- CHART_SPLIT (R254): a selector position is added, each child listing its parent's banks; then entries move to their places while
operations last. A split that a merge has begun to prepare is made as well: buckets already united list the same banks. -/
def execChartSplit (t tid pos : Nat) (s : State) : Res :=
  let s0 := s.at t
  .next (match s0.table tid with
    | none => s0
    | some tb =>
      let c := tb.nextChart
      if !s0.inWrite || tb.df.direct || tb.state != TableState.live || s0.observed tid then s0
      else if tb.work = 1 then
        let bad := s0.misplaced tb
        if bad.isEmpty then s0.setTable { tb with work := 0 } else s0.migrate tid bad
      else if s0.maySplit tb && pos < 80 * tb.df.units && !c.selector.contains pos && s0.wantsSplit tb &&
          c.selector.length == tb.chart.selector.length then
        s0.setTable { tb with
          work := 1, merged := [], chartNext := some { c with selector := c.selector ++ [pos], buckets := c.buckets ++ c.buckets } }
      else s0).settle

/-- The union of two bank lists. -/
def unionBanks (a b : List Nat) : List Nat := a ++ b.filter (fun x => !a.contains x)

/-- The union of the lists of a bucket and its sibling along the last selector position (R255). -/
def Chart.unionAt (c : Chart) (i : Nat) : List Nat := unionBanks (c.buckets.getD i []) (c.buckets.getD (i + c.half) [])

/-- Two siblings may be merged (R255): their union lists at most 16 banks, at most half full. -/
def State.mayMerge (s : State) (t : TableRec) (i : Nat) : Bool :=
  let c := t.nextChart
  let l := c.unionAt i
  let rows := ((s.liveEntries t.df.tid).filter (fun p =>
    c.inBucket p.2.value p.2.mask i || c.inBucket p.2.value p.2.mask (i + c.half))).length
  i < c.half && l.length ≤ 16 && 2 * rows ≤ l.length * (32768 / t.df.units)

/-- A chart in which the siblings of some buckets list their unions (R255). -/
def Chart.unite (c : Chart) (merged : List Nat) : Chart :=
  { c with buckets := mapFrom (fun k l => if merged.contains (k % max 1 c.half) then c.unionAt (k % max 1 c.half) else l) 0 c.buckets }

/-- CHART_MERGE (R255): every pair of siblings that may be merged takes its union; once in the version in force no list differs from its
sibling's, the position goes. -/
def execChartMerge (t tid : Nat) (s : State) : Res :=
  let s0 := s.at t
  .next (match s0.table tid with
    | none => s0
    | some tb =>
      let c := tb.nextChart
      let pairs := (List.range c.half).filter (s0.mayMerge tb)
      if !s0.inWrite || tb.df.direct || tb.state != TableState.live || s0.observed tid || tb.work = 1 || c.selector.isEmpty ||
          c.selector.length != tb.chart.selector.length then s0
      else if tb.chartNext.isNone && pairs.length == c.half && tb.merged.length == c.half && c.unite pairs == c then
        s0.setTable { tb with work := 0, merged := [], chartNext := some { c with
          selector := c.selector.dropLast, buckets := c.buckets.take c.half, shared := if c.selector.length ≤ 1 then [] else c.shared } }
      else if pairs.isEmpty then s0.setTable { tb with work := 0, merged := [] }
      else
        let c1 := c.unite pairs
        s0.setTable { tb with work := 2, merged := pairs, chartNext := if c1 == tb.chart then none else some c1 }).settle

/-- Rows of a table take their new sequences or labels while operations last; those left. -/
def State.rewriteTags (s : State) : List Nat → State × List Nat
  | [] => (s, [])
  | len :: rest =>
    match s.entry len with
    | none => State.rewriteTags s rest
    | some e =>
      if !s.stands len e then State.rewriteTags s rest
      else if s.workRoom .renumber e.bank 1 then State.rewriteTags ((s.relabelRow len).useWork e.bank 1) rest
      else (s, len :: rest)

/-- The spread of a table's sequences calls for a pass (R143): the counter less the earliest live sequence has reached 2^30. -/
def State.wantsReseq (s : State) (t : TableRec) : Bool :=
  (s.orderEntries t.df.tid).any (fun p => 2 ^ 30 ≤ (t.counter + 2 ^ 32 - p.2.seq) % 2 ^ 32)

/-- New sequences from the latest entry to the earliest (R143). -/
def reseqList (counter : Nat) (ents : List (Nat × Entry)) : List (Nat × Nat) :=
  let l := (sortBy (fun (p : Nat × Entry) => (counter + 2 ^ 32 - 1 - p.2.seq) % 2 ^ 32) ents).map (fun p => p.1)
  (List.range l.length).map (fun i => (l.getD i 0, (counter + l.length - 1 - i) % 2 ^ 32))

/-- One entry takes its new sequence. -/
def State.renumber (s : State) (cls len seq : Nat) : State :=
  match s.entry len with
  | none => s
  | some e => s.setEntry len { e with seq := seq, keyLo := if cls = 1 then 0 else seq }

/-- A flight whose entry has not been written takes the entry's keys. -/
def State.flightKeys (s : State) (len : Nat) : State :=
  match s.entry len with
  | none => s
  | some e => { s with cmds := { s.cmds with flights := s.cmds.flights.map (fun i =>
      if i.len = len && i.lastWrite.isNone then { i with keyHi := e.keyHi, keyLo := e.keyLo } else i) } }

/-- The entries of a resequencing pass are written while operations last, the latest first (R143); those left. -/
def State.reseqRun (s : State) (cls : Nat) : List (Nat × Nat) → State × List (Nat × Nat)
  | [] => (s, [])
  | (len, q) :: rest =>
    match s.entry len with
    | none => State.reseqRun s cls rest
    | some e =>
      if e.state == .retired then State.reseqRun s cls rest
      else if !s.stands len e then State.reseqRun ((s.renumber cls len q).flightKeys len) cls rest
      else if s.workRoom .renumber e.bank 1 then State.reseqRun (((s.renumber cls len q).relabelRow len).useWork e.bank 1) cls rest
      else (s, (len, q) :: rest)

/-- RESEQUENCING (R143). -/
def execResequencing (t tid : Nat) (s : State) : Res :=
  let s0 := s.at t
  .next (match s0.table tid with
    | none => s0
    | some tb =>
      if !s0.inWrite || tb.df.direct || tb.state != TableState.live || s0.observed tid then s0
      else
        let start : Option (TableRec × List (Nat × Nat)) := match tb.reseq with
          | some r => some (tb, r.left)
          | none => if s0.wantsReseq tb then
              let l := reseqList tb.counter (s0.orderEntries tid)
              some ({ tb with counter := (tb.counter + l.length) % 2 ^ 32 }, l)
            else none
        match start with
        | none => s0
        | some (tb1, l) =>
          let (s1, left) := (s0.setTable tb1).reseqRun tb.df.cls l
          { s1 with tables := s1.tables.modify tid (fun x => { x with reseq := if left.isEmpty then none else some ⟨left⟩ }) }).settle

/-- A class L insertion waits for a renumbering of its whole table (R242): no label, and no window with a spare one. -/
def State.wantsRelabel (s : State) (t : TableRec) : Bool :=
  s.cmds.fifos.vals.any (fun l => match l with
    | [] => false
    | c :: _ => cmdOp c.record == 0x01 && cmdTid c.record == t.df.tid && insertFits t.df c.record &&
        (let p := s.insertPlace t c.record
         (newLabel p.1 p.2).isNone && s.windowsFull t.df.tid p.1 p.2))

/-- Labels spread evenly over the whole range, in list order (R242). -/
def evenLabels (ents : List (Nat × Entry)) : List (Nat × Nat) :=
  let l := (sortBy (fun (p : Nat × Entry) => p.2.keyHi) ents).map (fun p => p.1)
  (List.range l.length).map (fun i => (l.getD i 0, (i + 1) * 2 ^ 32 / (l.length + 1)))

/-- TABLE_RELABEL (R242): a renumbering of the whole table starts, or goes on while operations last. -/
def execTableRelabel (t tid : Nat) (s : State) : Res :=
  let s0 := s.at t
  .next (match s0.table tid with
    | none => s0
    | some tb =>
      if !s0.inWrite || tb.df.cls != 1 || tb.df.direct || tb.state != TableState.live then s0
      else
        let start := tb.relabel.isEmpty && s0.cmds.flights.all (fun i => i.tid != tid) && s0.wantsRelabel tb
        let rl := if start then s0.relabelOrder (evenLabels (s0.orderEntries tid)) else tb.relabel
        let s1 := if start then s0.each rl (fun x y => match x.entry y.1 with
            | some o => x.setEntry y.1 { o with keyHi := y.2 }
            | none => x) else s0
        let (s2, left) := s1.rewriteTags (rl.map (fun (x : Nat × Nat) => x.1))
        { s2 with tables := s2.tables.modify tid (fun x => { x with
            relabel := rl.filter (fun (y : Nat × Nat) => left.contains y.1)
            relabelFrom := if rl.isEmpty || !left.isEmpty then x.relabelFrom else s2.clock.grid + 1 }) }).settle

/-- A bank whose partner holds primary rows too: its entries above the lower pair of quadrants must move before the build (R130). -/
def State.mirrorBlocked (s : State) : List (Nat × Entry) :=
  let live := s.numbers.entries.filter (fun p => p.2.state == .live)
  live.filter (fun p => 256 ≤ p.2.bank && live.any (fun q => q.2.bank == partnerBank p.2.bank))

/-- Entries moved between quadrant pairs before the mirror build (R130), while operations last; one that finds no place does not stop the
others. -/
def State.unblock (s : State) : List (Nat × Entry) → State
  | [] => s
  | (len, e) :: rest =>
    match s.table e.tid with
    | none => State.unblock s rest
    | some t =>
      let c := t.nextChart
      let ok := fun (b : Nat) => b < 256 || s.rowsHeld (partnerBank b) == 0
      let open_ := if c.canOpen e.value e.mask
        then (firstRow (fun b => ok b && s.mayOpen t.df c e.value e.mask (e.keys len) b) 0 512).toList else []
      State.unblock ((s.relocate .build t len e ((c.placesFor e.value e.mask).filter ok ++ open_)).getD s) rest

/-- The mirror copy of a row is written (R130), with the state that its primary row will have at the boundary that follows. -/
def State.copyMirror (s : State) (k : Nat) (e : Entry) (len : Nat) : State :=
  let bank := k / 32768
  let row := k % 32768
  let p := partnerBank bank
  let s1 := s.each (List.range e.width) (fun z j => z.putUnit p row (e.width * row + j) (z.unitBits bank (e.width * row + j)))
  let s2 := (s1.putTag p row (s1.armedTag len e)).touch p (lineOf e.width row)
  { s2 with arrays := { s2.arrays with spans := s2.arrays.spans.put (spanOf p e.width row) ⟨e.tid, e.width⟩ } }

/-- Mirror copies are written while operations last (R130), one unit per operation, into rows that R229 lets be written; a copy that an
earlier build has left in place, and that every write since has followed, stands. The keys still to build. -/
def State.buildRun (s : State) : List Nat → State × List Nat
  | [] => (s, [])
  | k :: rest =>
    let bank := k / 32768
    let row := k % 32768
    let p := partnerBank bank
    let tag := s.tag bank row
    let old := s.tag p row
    match s.entry tag.len with
    | none => State.buildRun s rest
    | some e =>
      if tag.state == .empty || tag.state == .retiring || e.bank != bank || e.row != row || e.gen != tag.gen then State.buildRun s rest
      else
        let kept := { s with arrays := { s.arrays with mirrorFree := s.arrays.mirrorFree.filter (fun x => x != rowKey p row) } }
        if s.arrays.mirrorFree.contains (rowKey p row) && old.len == tag.len && old.gen == tag.gen && (old.state == .live || old.state == .armed)
        then State.buildRun kept rest
        else if s.tagWritable p row && s.backRoom .build [p] e.width then
          State.buildRun ((kept.copyMirror k e tag.len).useOther [p] e.width) rest
        else
          let (x, left) := State.buildRun s rest
          (x, k :: left)

/-- MIRROR_BUILD (R130). -/
def execMirrorBuild (t : Nat) (s : State) : Res :=
  let s0 := s.at t
  .next (if !s0.inWrite || s0.mode.pending != some 3 || !s0.mode.preparing then s0
    else
      let bad := s0.mirrorBlocked
      if !bad.isEmpty then s0.unblock bad
      else
        let (s1, left) := s0.buildRun s0.arrays.mirrorBuild
        { s1 with arrays := { s1.arrays with mirrorBuild := left } }).settle

/-- Mirror copies that are searched no more are retired while operations last (R124, R132); those left. -/
def State.freeMirrors (s : State) : List Nat → State × List Nat
  | [] => (s, [])
  | k :: rest =>
    let bank := k / 32768
    let row := k % 32768
    let tag := s.tag bank row
    if tag.state == .empty || tag.state == .retiring then State.freeMirrors s rest
    else if s.backRoom .free [bank] 1 then
      let next := if tag.state == .armed && tag.ptide == s.parity then Tag.reset else { tag with state := .retiring, ptide := s.parity }
      State.freeMirrors (((s.putTag bank row next).touch bank (lineOf ((s.bankWidth bank).getD 1) row)).useOther [bank] 1) rest
    else
      let (x, left) := State.freeMirrors s rest
      (x, k :: left)

/-- MIRROR_COPY_FREEING (R132). -/
def execMirrorCopyFreeing (t : Nat) (s : State) : Res :=
  let s0 := s.at t
  .next (if s0.inWrite then
      let (s1, left) := s0.freeMirrors s0.arrays.mirrorFree
      { s1 with arrays := { s1.arrays with mirrorFree := left } }
    else s0).settle

/-- Entries of a deleted or flushed table are invalidated while operations last (R162). -/
def State.freeRun (s : State) : List Nat → State
  | [] => s
  | len :: rest =>
    match s.entry len with
    | none => State.freeRun s rest
    | some e =>
      if e.state == .retired then State.freeRun s rest
      else if s.backRoom .free (s.writeBanks e.bank e.row) 1 then
        State.freeRun ((s.dropEntry len).useOther (s.writeBanks e.bank e.row) 1) rest
      else State.freeRun s rest

/-- TABLE_FREEING (R162, R163): it ends once no entry of the table is left. -/
def execTableFreeing (t tid : Nat) (s : State) : Res :=
  let s0 := s.at t
  .next (match s0.table tid with
    | none => s0
    | some tb =>
      if !s0.inWrite || !(tb.state == TableState.flushed || tb.state == TableState.deleted) then s0
      else
        let left := (s0.numbers.freeing.filter (fun (p : Nat × Nat) => p.1 == tid)).map (fun (p : Nat × Nat) => p.2)
        if s0.numbers.entries.any (fun p => p.2.tid == tid) then s0.freeRun left
        else if tb.state == TableState.deleted then { s0 with tables := s0.tables.del tid }
        else s0.setTable { tb with state := .live }).settle

/-- A table is deleted or flushed at a boundary (R162, R163): its chart is empty, its handles are stale, its insertions in flight are
rolled back. -/
def State.emptyTable (s : State) (tid : Nat) (st : TableState) : State :=
  match s.table tid with
  | none => s
  | some t =>
    if t.state == .deleted || (t.state == .flushed && st == .flushed) then s
    else
      let code := if st == .deleted then 0x08 else 0x0E
      let dead := s.numbers.entries.filter (fun p => p.2.tid == tid && p.2.state == .live && !s.numbers.freeing.contains (tid, p.1))
      let ram := if t.df.direct then t.segments.foldl (fun m k => m.clear (65536 * k) 65536) s.diram else s.diram
      let shadow := if t.df.direct then t.segments.foldl (fun m k => m.clear (diShadowAddr (65536 * k)) 65536) s.dram else s.dram
      let flights := s.cmds.flights.map (fun i => if i.tid == tid && i.rollback.isNone then { i with rollback := some code } else i)
      let t1 := { t with
        state := st, chart := Chart.empty s.clock.count t.nextChart.mirror, chartNext := none, reseq := none, relabel := [], work := 0, merged := [] }
      { s with
          tables := s.tables.put tid t1
          numbers := { s.numbers with freeing := s.numbers.freeing ++ dead.map (fun p => (tid, p.1)) }
          cmds := { s.cmds with flights := flights }
          diram := ram
          dram := shadow }

end Sys2Proof.Machine
end

