-- ==== Sys2Proof/Machine/Drain.lean ====
section
/-! DEFINITION. Spares (R18, R20, R264, R265, R286, R291, R607 to R614): slot health, drains and returns, the bank self-test, and the
rewriting of a quadrant's rows after its reset (R290). -/
namespace Sys2Proof.Machine

/-- The state of a physical slot (R607): slots 0 to 15 of a block serve their banks, slot 16 is free. -/
def State.slotState (s : State) (slot : Nat) : SlotState :=
  s.service.slots.findD slot ⟨if slot % 17 = 16 then .free else .serving, 0, 0⟩

/-- A slot's state replaced. -/
def State.setSlot (s : State) (slot : Nat) (x : SlotState) : State :=
  { s with service := { s.service with slots := s.service.slots.put slot x } }

/-- A slot's health replaced. -/
def State.setHealth (s : State) (slot : Nat) (h : Health) : State := s.setSlot slot { s.slotState slot with health := h }

/-- The slot that a drain (op 1) or a return (op 2) of a bank copies to. -/
def drainTarget (bank op : Nat) : Nat := if op = 1 then spareSlot bank else ownSlot bank

/-- The result that refuses a drain or a return (R264, R610): 1 the spare serves another bank, 2 the op or the target does not fit. -/
def State.drainRefused (s : State) (bank op : Nat) : Option Nat :=
  let target := drainTarget bank op
  let h := (s.slotState target).health
  if s.slotOf bank = target then some 2
  else if op = 1 && s.arrays.served.any (fun p => p.1 != bank && p.2 == target) then some 1
  else if h == .failed || h == .testing then some 2
  else none

/-- A drain or return starts (R264): from the boundary that R63 gives. -/
def State.startDrain (s : State) (bank op : Nat) : State :=
  let d : Drain :=
    { bank := bank, op := op, target := drainTarget bank op, total := 32768 / ((s.bankWidth bank).getD 1), copied := 0,
      startTide := s.dueTide, latched := false }
  { s with arrays := { s.arrays with drain := some d } }

/-- A drain ends, with its result. -/
def State.endDrain (s : State) (result : Nat) : State :=
  ({ s with arrays := { s.arrays with drain := none, drainResult := result } }).raise Fld.PIL_DRAIN_STATUS_done

/-- A write of PIL_DRAIN_CTL (R264, R265, R625). -/
def State.writeDrainCtl (s : State) (fn w mask : Nat) : State :=
  s.goClosed fn w mask .PIL_DRAIN_CTL 0 Fld.PIL_DRAIN_CTL_go id (fun x => x.arrays.drain.isSome) (fun x =>
    let bank := x.fld Fld.PIL_DRAIN_CTL_bank
    let op := x.fld Fld.PIL_DRAIN_CTL_op
    if op = 0 || op = 3 then x
    else match x.drainRefused bank op with
      | some r => x.endDrain r
      | none => x.startDrain bank op)

/-- PIL_DRAIN: PIL_DRAIN_CTL written with op 1 (R264). -/
def execPilDrain (t fn : Nat) (w : Word64) (s : State) : Res := .next ((s.at t).writeDrainCtl fn w.toNat fullMask).settle

/-- PIL_RETURN: PIL_DRAIN_CTL written with op 2 (R265). -/
def execPilReturn (t fn : Nat) (w : Word64) (s : State) : Res := .next ((s.at t).writeDrainCtl fn w.toNat fullMask).settle

/-- A drain starts by itself where the block's spare is free (R284, R285, R610). -/
def State.autoDrain (s : State) (bank : Nat) : State :=
  if s.bit Fld.ARY_SCRUB_CTL_auto_drain && s.arrays.drain.isNone && (s.slotState (spareSlot bank)).health == .free &&
      (s.drainRefused bank 1).isNone then
    (s.startDrain bank 1).integrity 2 0x0B bank 0 0 0 0 0 0 0
  else s

/-- A table's chart lists a bank. -/
def State.listed (s : State) (bank : Nat) : Bool :=
  s.tables.any (fun p => p.2.chart.buckets.any (fun l => l.contains bank) || p.2.nextChart.buckets.any (fun l => l.contains bank))

/-- The logical bank under whose addresses a row is shadowed (R268, R287): its partner's for a mirror copy, and in M3 for every row of a bank
that stands in no chart while its partner does. -/
def State.shadowBank (s : State) (bank row : Nat) : Nat :=
  let tag := s.tag bank row
  let p := partnerBank bank
  let named : Bool := match s.entry tag.len with
    | some e => tag.state != .empty && e.gen == tag.gen && (e.bank == bank || e.bank == p)
    | none => false
  if named then (match s.entry tag.len with
    | some e => e.bank
    | none => bank)
  else if s.mode.mode = 3 && s.listed p && !s.listed bank then p else bank

/-- The shadow of a unit (R268). -/
def State.shadowUnit (s : State) (bank unit : Nat) : UnitBits :=
  let bs := s.dram.read (shadowAddr (bank * 32768 + unit)) 20
  ⟨BitVec.ofNat 80 (leNat (bs.take 10)), BitVec.ofNat 80 (leNat (bs.drop 10))⟩

/-- The metadata line of a logical entry number, as stored (R269): state, bank, row, table number, generation and keys. -/
def State.metaOf (s : State) (len : Nat) : Nat × Nat × Nat × Nat × Nat × Nat × Nat :=
  let bs := s.dram.read (metaAddr len) 16
  let a := fieldLE bs 8 2
  let b := fieldLE bs 12 2
  (a / 16384, b % 512, fieldLE bs 10 2 % 32768, a % 4096, b / 512 % 32, fieldLE bs 0 4, fieldLE bs 4 4)

/-- The metadata line of the entry that a row's tag names stands for this row (R277): its bank is this one, or its pair's in a mirror. -/
def State.metaNames (s : State) (bank row : Nat) : Bool :=
  let (_, mb, mr, _, _, _, _) := s.metaOf (s.tag bank row).len
  mr == row && (mb == bank || (s.mirroring && mb == partnerBank bank))

/-- A stripe of the array shadow is to be rebuilt (R279): every array line whose units it holds is to be read, in M3 in both copies (R288). -/
def State.markStripe (s : State) (stripe : Nat) : State :=
  if s.scrub.stripes.contains stripe then s
  else
    let first := 256 * stripe / 20
    let lines := ((List.range ((256 * stripe + 255) / 20 + 1 - first)).map (fun k => (first + k) / 4)).eraseDups
    let banks := fun (b : Nat) => if s.mode.mode = 3 then [b, partnerBank b] else [b]
    { s with scrub := { s.scrub with
        stripes := s.scrub.stripes ++ [stripe]
        stripeReads := s.scrub.stripeReads ++ lines.flatMap (fun l => (banks (l / 8192)).map (fun b => (stripe, b, l % 8192))) } }

/-- The stripes that a failed read of a unit's shadow has met are marked for rebuilding (R279). -/
def State.markFailed (s : State) (a : Nat) (how : DramRead) : State :=
  s.each ((s.readParts a 20 how).filter (fun p => p.2 == .uncorrectable)) (fun x p => x.markStripe p.1)

/-- An entry whose row has no passing copy is lost (R281), once: its metadata line says LOST, ENTRY_LOST is posted, and its row is retired
in the next write phase. -/
def State.loseEntry (s : State) (bank row units : Nat) : State :=
  let tag := s.tag bank row
  match s.entry tag.len with
  | none => s
  | some e =>
    if e.gen != tag.gen || e.state == .retired ||
        s.scrub.repairs.any (fun r => (r.bank == bank || r.bank == partnerBank bank) && r.kind == .retire row) then s
    else
      let s1 := (s.writeMeta tag.len e 2).unsettlePair e.bank (lineOf e.width e.row) 1
      let s2 := { s1 with scrub := { s1.scrub with repairs := s1.scrub.repairs ++ [Repair.mk bank (RepairKind.retire row)] } }
      let s3 := ((s2.bump Fld.ARY_INTEG_COUNT1_lost).raise Fld.ARY_SCRUB_STATUS_lost)
      s3.integrity 3 0x08 bank row units (b2n (e.bank != bank)) 0 (s.handle e.gen tag.len) e.tid (s.wide tag.len)

/-- The tag that a drain writes for a row (R264): the state and the parity of the row, and for a row that a metadata line names the line's
fields. -/
def State.drainTag (s : State) (bank row : Nat) (how : DramRead) : Tag :=
  let tag := s.tag bank row
  let (st, _, _, mt, mg, kh, kl) := s.metaOf tag.len
  if (tag.state == .live || tag.state == .armed) && st == 1 && s.metaNames bank row &&
      s.readEnd (metaAddr tag.len) how != .uncorrectable
  then { tag with tnum := mt, gen := mg, keyHi := kh, keyLo := kl } else tag

/-- The next row of a drain is copied from the shadows, a unit per operation on the target's port (R264, R286). -/
def State.copyRow (s : State) (d : Drain) (how : RowRead) : State :=
  let w := 32768 / d.total
  let row := d.copied
  let tag := s.tag d.bank row
  let home := s.shadowBank d.bank row
  let addr := fun (j : Nat) => shadowAddr (home * 32768 + w * row + j)
  let read := fun (j : Nat) => how.shadow.getD j DramRead.clean
  let fails := fun (j : Nat) => s.spanEnd (addr j) 20 (read j) == .uncorrectable
  let bits := fun (j : Nat) =>
    let u := w * row + j
    if !fails j then s.shadowUnit home u else if how.units.getD j true then s.unitBits d.bank u else UnitBits.reset
  let lost := (List.range w).filter (fun j => fails j && !how.units.getD j true)
  let s1 := s.each (List.range w) (fun x j => (x.countSpan (addr j) 20 (read j)).markFailed (addr j) (read j))
  let arrays := (List.range w).foldl (fun a j => a.putUnit d.target (w * row + j) (bits j))
    (s1.arrays.putTag d.target row (s.drainTag d.bank row (read w)))
  let s2 := { s1 with arrays := { arrays with drain := some { d with copied := row + 1 } } }
  let s3 := (s2.useSlots [d.target] w).touch d.bank (lineOf w row)
  if lost.isEmpty || tag.state == .empty then s3
  else s3.loseEntry d.bank row ((lost.map (fun j => 2 ^ ((w * row + j) % 4))).foldl (fun a b => a + b) 0)

/-- A row of a drain receives its operations, on its target's port, beside what ranks before it (R35, R257, R264). -/
def State.copyRoom (s : State) (d : Drain) : Bool :=
  let w := 32768 / max 1 d.total
  !s.domainDown 25 && !s.bankDown d.bank && (s.grant [d.target] w).isSome && w + demandAll (s.ahead .drain) ≤ s.openOps

/-- BANK_DRAIN_COPY: one row (R264). -/
def execBankDrainCopy (t : Nat) (how : RowRead) (s : State) : Res :=
  let s0 := s.at t
  .next (match s0.arrays.drain with
    | none => s0
    | some d =>
      if s0.inWrite && d.startTide ≤ s0.clock.grid && d.copied < d.total && s0.copyRoom d then s0.copyRow d how else s0).settle

/-- DRAIN_COMPLETE: the switch is latched in the commit stroke once every row has been copied (R265). -/
def execDrainComplete (t : Nat) (s : State) : Res :=
  let s0 := s.at t
  .next (match s0.arrays.drain with
    | none => s0
    | some d =>
      if s0.clock.stroke = 255 && d.copied = d.total then
        { s0 with arrays := { s0.arrays with drain := some { d with latched := true } } }
      else s0).settle

/-- A self-test runs or is promised (R612). -/
def State.bistBusy (s : State) : Bool := s.service.bist.isSome

/-- A self-test is accepted for the next boundary (R612). -/
def State.requestBist (s : State) (slot : Nat) : State :=
  ({ s with service := { s.service with bist := some ⟨slot, 98304, false, none⟩ } }).defer .bistStart

/-- A self-test starts at a boundary (R612). -/
def State.startBist (s : State) : State :=
  match s.service.bist with
  | none => s
  | some b => { s with service := { s.service with bist := some { b with started := true } } }.setHealth b.slot .testing

/-- A slot is left clean: units at canonical zeros and tags EMPTY (R611). -/
def Arrays.clean (a : Arrays) (slot : Nat) : Arrays :=
  { a with units := a.units.filter (fun p => p.1 / 32768 != slot), tags := a.tags.filter (fun p => p.1 / 32768 != slot) }

/-- A self-test ends at a boundary, with its failing lines and the first of them (R611, R612, R614). -/
def State.endBist (s : State) (b : Bist) (count line : Nat) (failed : Bool) : State :=
  let h := if failed then Health.failed else Health.free
  let s1 := { s with service := { s.service with bist := none }, arrays := s.arrays.clean b.slot }
  let s2 := (s1.setSlot b.slot ⟨h, count, line⟩).raise Fld.ARY_BIST_STATUS_done
  let s3 := if failed then s2.raise Fld.ARY_BIST_STATUS_failed else s2
  s3.faultEvent 0x14 (if failed then 2 else 0) 0x2 b.slot count line

/-- What a boundary does for drains and self-tests: a latched switch, a test's end, the next test (R265, R612, R613). -/
def State.serviceBoundary (s : State) : State :=
  let s1 := match s.arrays.drain with
    | some d =>
      if d.latched then
        let old := s.slotOf d.bank
        let served := if d.op = 1 then s.arrays.served.put d.bank d.target else s.arrays.served.del d.bank
        let x := ({ s with arrays := { s.arrays with served := served } }.setHealth d.target .serving).setHealth old .free
        let y := x.endDrain 0
        { y with service := { y.service with bistQueue := y.service.bistQueue ++ [old] } }
      else s
    | none => s
  let s2 := match s1.service.bist with
    | some b => match b.ended with
      | some (count, line) => s1.endBist b count line (count != 0)
      | none => s1
    | none => s1
  match s2.service.bist, s2.service.bistQueue with
  | none, slot :: rest =>
    ({ s2 with service := { s2.service with bistQueue := rest, bist := some ⟨slot, 98304, true, none⟩ } }).setHealth slot .testing
  | _, _ => s2

/-- The strokes of this tide up to a stroke in which a self-test receives an operation on its slot (R55, R612): write-phase and scrub-phase
strokes whose cap the higher operations leave open. -/
def State.bistStrokes (s : State) (last : Nat) : Nat :=
  let p := s.params
  let scrub := p.scrubLines / max 1 (phaseStrokes s.mode.mode)
  ((List.range (256 - p.slackAt)).filter (fun i =>
    let t := p.slackAt + i
    t ≤ last && (match phaseOf (256 - p.slackAt) i with
      | .write => grantedIn s.portsTaken t < p.cap
      | .scrub => scrub < p.cap
      | _ => false))).length

/-- The operations of a running self-test in one tide: one in every eligible stroke (R612, notes/assumptions/19.md). -/
def State.bistTide (s : State) : State :=
  match s.service.bist with
  | some b => if b.started && b.ended.isNone && s.awake && !s.domainDown 25
      then { s with service := { s.service with bist := some { b with opsLeft := b.opsLeft - s.bistStrokes 255 } } } else s
  | none => s

/-- A write of ARY_BIST_CTL (R612, R616, R625). -/
def State.writeBistCtl (s : State) (fn w mask : Nat) : State :=
  let slotOf := fun (x : State) =>
    x.fld Fld.ARY_BIST_CTL_quadrant * 136 + x.fld Fld.ARY_BIST_CTL_block * 17 + x.fld Fld.ARY_BIST_CTL_slot
  s.goClosed fn w mask .ARY_BIST_CTL 0 Fld.ARY_BIST_CTL_go (fun x => x.raise Fld.ARY_BIST_STATUS_refused) State.bistBusy (fun x =>
    let h := (x.slotState (slotOf x)).health
    if h == .serving || h == .testing then x else x.requestBist (slotOf x))

/-- ARY_BIST_GO (R612). -/
def execAryBistGo (t fn : Nat) (w : Word64) (s : State) : Res := .next ((s.at t).writeBistCtl fn w.toNat fullMask).settle

/-- BIST_COMPLETE: a self-test makes its last operation, with its failing lines and the first of them (R611, R612). -/
def execBistComplete (t count line : Nat) (s : State) : Res :=
  let s0 := s.at t
  .next (match s0.service.bist with
    | some b =>
      if b.started && b.ended.isNone && b.opsLeft ≤ s0.bistStrokes s0.clock.stroke && (s0.inWrite || s0.inScrub) then
        { s0 with service := { s0.service with
          bist := some { b with opsLeft := 0, ended := some (min count 8192, if count = 0 then 0 else line % 8192) } } }
      else s0
    | none => s0).settle

/-- A row of a quadrant that was reset waits to be rewritten (R290). -/
def State.toRewrite (s : State) (bank row : Nat) : Bool :=
  s.arrays.rewriteBanks.contains bank && !s.arrays.rewritten.contains (rowKey bank row)

/-- A row has been rewritten; a bank with none left is done. -/
def Arrays.noteRewritten (a : Arrays) (bank row total : Nat) : Arrays :=
  let l := rowKey bank row :: a.rewritten
  if total ≤ (l.filter (fun k => k / 32768 == bank)).length
  then { a with rewriteBanks := a.rewriteBanks.filter (fun b => b != bank), rewritten := l.filter (fun k => k / 32768 != bank) }
  else { a with rewritten := l }

/-- The entry that a row of a bank holds: in its home row, or in M3 in its mirror row. -/
def State.ownerOf (s : State) (bank row : Nat) : Option (Nat × Entry) :=
  s.numbers.entries.find? (fun x => x.2.row == row && s.stands x.1 x.2 &&
    (x.2.bank == bank || (s.mode.mode == 3 && x.2.bank == partnerBank bank)))

/-- QUADRANT_ROW_REWRITE: a row of a quadrant that was reset is written again from the shadows (R290): its units, and the ARMED tag of the
entry whose metadata line names it, or an EMPTY one. -/
def execQuadrantRowRewrite (t bank row : Nat) (s : State) : Res :=
  let s0 := s.at t
  let w := (s0.bankWidth bank).getD 1
  .next (if !s0.inWrite || !s0.toRewrite bank row || 32768 / w ≤ row || !s0.backRoom .free [bank] w then s0
    else
      let owner := s0.ownerOf bank row
      let home := match owner with
        | some x => x.2.bank
        | none => s0.shadowBank bank row
      let s1 := s0.each (List.range w) (fun z j => z.putUnit bank row (w * row + j) (z.shadowUnit home (w * row + j)))
      let s2 := s1.putTag bank row (match owner with
        | some (len, e) => s1.armedTag len e
        | none => Tag.reset)
      let s3 := { s2 with arrays := s2.arrays.noteRewritten bank row (32768 / w) }
      (s3.touch bank (lineOf w row)).useOther [bank] w).settle

end Sys2Proof.Machine
end

