-- ==== Sys2Proof/Machine/Scrub.lean ====
section
/-! DEFINITION. The scrub pass and its repairs (R266 to R289): reads, comparisons, the priority queue, repair writes, the rebuilding of
shadow stripes and metadata lines, and the search for lost tags. -/
namespace Sys2Proof.Machine

/-- Lines read in a scrub-phase stroke (R272). -/
def linesPerStroke (mode : Nat) : Nat := if mode = 0 || mode = 2 then 8 else if mode = 4 then 16 else if mode = 6 then 1 else 20

/-- The lines that one stroke reads as priority reads (R275): in queue order, on distinct banks. A line whose bank has been read in the stroke,
or lies in a quadrant in reset (R290), waits, and later lines go before it (DESIGN CHOICE, notes/assumptions/153.md). -/
def State.prioTake (s : State) : Nat → List Nat → List PrioLine → List PrioLine
  | 0, _, _ => []
  | _, _, [] => []
  | n + 1, seen, p :: rest =>
    if seen.contains p.bank || s.bankDown p.bank then State.prioTake s (n + 1) seen rest
    else p :: State.prioTake s n (p.bank :: seen) rest

/-- The priority lines that wait: those of the queue, then those that the rebuilding of stripes reads (R275, R279). -/
def State.prioLines (s : State) : List PrioLine :=
  s.scrub.prio ++ s.scrub.stripeReads.map (fun x => ⟨x.2.1, x.2.2, false⟩)

/-- The array-shadow stripes that hold a line's shadow. -/
def State.lineStripes (s : State) (bank line : Nat) : List Nat :=
  let w := (s.bankWidth bank).getD 1
  let a := 20 * (s.shadowBank bank (4 * line / w) * 32768 + 4 * line)
  [a / 256, (a + 79) / 256]

/-- A line is unsettled (R271, R279, R290). -/
def State.unsettledLine (s : State) (bank line : Nat) : Bool :=
  let w := (s.bankWidth bank).getD 1
  s.scrub.unsettled.has (lineKey bank line) || (s.lineStripes bank line).any (fun k => s.scrub.stripes.contains k) ||
    (List.range (max 1 (4 / w))).any (fun i => s.toRewrite bank (4 * line / w + i))

/-- The addresses that a line's comparison reads on the scrub and shadow port, with their lengths (R273): its 80 bytes of array shadow, and
the metadata line of each number that a LIVE or ARMED tag of the line names. -/
def State.lineReads (s : State) (bank line : Nat) : List (Nat × Nat) :=
  let w := (s.bankWidth bank).getD 1
  let tags := (List.range (max 1 (4 / w))).map (fun i => s.tag bank (4 * line / w + i))
  (shadowAddr (s.shadowBank bank (4 * line / w) * 32768 + 4 * line), 80) ::
    (tags.filter (fun t => t.state == .live || t.state == .armed)).map (fun t => (metaAddr t.len, 16))

/-- One line is read (R273). -/
def State.readLine (s : State) (bank line : Nat) (verify : Bool) : State :=
  let s1 := { s with scrub := { s.scrub with reads := s.scrub.reads ++ [ScrubRead.mk bank line verify (s.unsettledLine bank line)] } }
  s1.each (s.lineReads bank line) (fun x p => x.dramIssue 4 p.1 p.2)

/-- The pass pointer advances by one position; the end of a pass clears what counts per pass (R272, R284, R285). -/
def State.advanceScrub (s : State) : State :=
  let p := s.scrub.position + 1
  if p < 4194304 then { s with scrub := { s.scrub with position := p } }
  else { s with scrub := { s.scrub with position := 0, passes := (s.scrub.passes + 1) % 2 ^ 24, repairsPass := [], barred := [] } }

/-- Pass positions read in a stroke, on banks not yet read in it (R56, R272, R290). A position whose bank a priority read has taken in the stroke
ends the stroke's pass reads: the count of R56, the order of R272 and distinct banks cannot all hold there (DESIGN CHOICE,
notes/assumptions/153.md). -/
def State.passReads (s : State) : Nat → List Nat → State
  | 0, _ => s
  | n + 1, seen =>
    let bank := s.scrub.position % 512
    let line := s.scrub.position / 512
    if seen.contains bank then s
    else
      let s1 := if s.bankDown bank then s else s.readLine bank line false
      State.passReads s1.advanceScrub n (bank :: seen)

/-- SCRUB_READ: the reads of one scrub-phase stroke (R272, R273, R275). -/
def execScrubRead (t : Nat) (s : State) : Res :=
  let s0 := s.at t
  .next (if !s0.inScrub || !s0.serving || s0.domainDown 25 || s0.scrub.readAt = some s0.now then s0
    else
      let n := linesPerStroke s0.mode.mode
      let prio := s0.prioTake n [] s0.prioLines
      let read := fun (b l : Nat) => prio.any (fun p => p.bank == b && p.line == l)
      let s1 := { s0 with scrub := { s0.scrub with
        readAt := some s0.now
        prio := s0.scrub.prio.filter (fun p => !prio.contains p)
        stripeReads := s0.scrub.stripeReads.filter (fun x => !read x.2.1 x.2.2) } }
      let s2 := s1.each prio (fun x p => x.readLine p.bank p.line p.verify)
      if s2.bit Fld.ARY_SCRUB_CTL_scrub_en && s2.prioLines.all (fun p => s2.bankDown p.bank)
      then s2.passReads (n - prio.length) (prio.map (fun p => p.bank)) else s2).settle

/-- A repair is queued once (R278). -/
def State.queueRepair (s : State) (bank : Nat) (k : RepairKind) : State :=
  if s.scrub.repairs.any (fun r => r.bank == bank && r.kind == k) then s
  else { s with scrub := { s.scrub with repairs := s.scrub.repairs ++ [⟨bank, k⟩] } }

/-- What a record says of the entry in a row: its handle and table. -/
def State.rowEntry (s : State) (bank row : Nat) : Nat × Nat :=
  let tag := s.tag bank row
  match s.entry tag.len with
  | some e => if tag.state != .empty && e.gen == tag.gen then (s.handle e.gen tag.len, e.tid) else (0, 0)
  | none => (0, 0)

/-- An integrity record about a row (R293). -/
def State.rowEvent (s : State) (cls event bank row units source extra : Nat) : State :=
  let e := s.rowEntry bank row
  s.integrity cls event bank row units (b2n (s.shadowBank bank row != bank)) source e.1 e.2 extra

/-- What a verify read looks at again: a unit rewritten from the shadow, from the partner copy or set to zeros, or the tag of a row of the
line (R278, R284). Items are numbered 0 to 3, 4 to 7, 8 to 11, and from 16 on. -/
def itemRow (w line item : Nat) : Nat := if item < 16 then (4 * line + item % 4) / w else 4 * line / w + (item - 16)

/-- A repair that did not hold (R284). -/
def State.verifyBad (s : State) (bank line item : Nat) : State :=
  let row := itemRow ((s.bankWidth bank).getD 1) line item
  let s1 := { s with scrub := { s.scrub with
    barred := s.scrub.barred ++ [lineKey bank line],
    verifying := s.scrub.verifying.filter (fun x => x != (lineKey bank line, item)) } }
  ((s1.bump Fld.ARY_INTEG_COUNT2_verify_fail).rowEvent 2 0x0A bank row (if item < 16 then 2 ^ (item % 4) else 0) 0 0).autoDrain bank

/-- An item of a line is found wrong: it is repaired, unless its verify read finds it wrong again or the line is barred (R284). `items` are
the numbers under which it may be under verification. -/
def State.wrongItem (s : State) (bank line : Nat) (items : List Nat) (k : RepairKind) : State :=
  let key := lineKey bank line
  match items.find? (fun i => s.scrub.verifying.contains (key, i)) with
  | some i => s.verifyBad bank line i
  | none => if s.scrub.barred.contains key then s else s.queueRepair bank k

/-- An item of a line is found right: a repair that is being verified is reported, but for a unit that was set to zeros (R276). -/
def State.rightItem (s : State) (bank line item row event source : Nat) : State :=
  let key := lineKey bank line
  if s.scrub.verifying.contains (key, item) then
    let s1 := { s with scrub := { s.scrub with verifying := s.scrub.verifying.filter (fun x => x != (key, item)) } }
    if 8 ≤ item && item < 16 then s1 else s1.rowEvent 0 event bank row (if item < 16 then 2 ^ (item % 4) else 0) source 0
  else s

/-- A unit with no passing side (R276): its entry is lost, or both are set to zeros where the row is EMPTY. -/
def State.unitLost (s : State) (bank home unit w : Nat) : State :=
  let row := unit / w
  if (s.tag bank row).state != .empty then s.loseEntry bank row (2 ^ (unit % 4))
  else ((s.dramWrite (shadowAddr (home * 32768 + unit)) (zeros 20)).unsettlePair home (unit / 4) 1).queueRepair bank (.unitZero unit)

/-- One unit of a compared line (R276). In M3 a shadow that fails leaves the unit to the rebuilding of its stripe from both copies (R288). -/
def State.settleUnit (s : State) (bank line : Nat) (c : LineCheck) (j : Nat) : State :=
  let w := (s.bankWidth bank).getD 1
  let u := 4 * line + j
  let home := s.shadowBank bank (u / w)
  let a := shadowAddr (home * 32768 + u)
  let how := c.shadow.getD j DramRead.clean
  let unitOk := c.units.getD j true
  let s1 := s.countSpan a 20 how
  if s.spanEnd a 20 how != .uncorrectable then
    if unitOk && s.unitBits bank u == s.shadowUnit home u then
      ((s1.rightItem bank line j (u / w) 0x01 1).rightItem bank line (j + 4) (u / w) 0x01 5).rightItem bank line (j + 8) (u / w) 0x01 1
    else s1.wrongItem bank line [j, j + 4, j + 8] (.unitFix u)
  else
    let s2 := s1.markFailed a how
    if unitOk || s.mode.mode = 3 then s2 else s2.unitLost bank home u w

/-- An uncorrectable tag (R283): its row is to be written EMPTY, and a search for its entry starts. -/
def State.tagLost (s : State) (bank row : Nat) : State :=
  let s1 := ((s.raise Fld.ARY_SCRUB_STATUS_tag_lost).bump Fld.ARY_INTEG_COUNT1_tag_uncorr).queueRepair bank (.emptyRow row)
  if s1.scrub.tagSearches.any (fun x => x.bank == bank && x.row == row) then s1
  else { s1 with scrub := { s1.scrub with tagSearches := s1.scrub.tagSearches ++ [⟨bank, row, s1.clock.count, s1.clock.grid⟩] } }

/-- The 16 logical entry numbers of a metadata stripe that failed are marked pending (R280). -/
def State.metaFailed (s : State) (len : Nat) : State :=
  (List.range 16).foldl (fun x i =>
    let n := len / 16 * 16 + i
    if x.numbers.withheld.contains n || x.numbers.pendingMeta.has n then x
    else { x with numbers := { x.numbers with pendingMeta := x.numbers.pendingMeta.put n x.scrub.passes } }) s

/-- A row tag that passes its check names a pending number (R280). -/
def State.noteNamed (s : State) (tag : Tag) : State :=
  if s.numbers.pendingMeta.has tag.len && !s.scrub.metaSeen.contains tag.len
  then { s with scrub := { s.scrub with metaSeen := s.scrub.metaSeen ++ [tag.len] } } else s

/-- One tag of a compared line (R266, R277). -/
def State.settleTag (s : State) (bank line : Nat) (c : LineCheck) (i : Nat) : State :=
  let w := (s.bankWidth bank).getD 1
  let row := 4 * line / w + i
  let tag := s.tag bank row
  let check := c.tags.getD i .ok
  let s0 := if check == .corrected then s.bump Fld.ARY_INTEG_COUNT1_tag_corrected else s
  if check == .uncorrectable then s0.tagLost bank row
  else if tag.state == .empty || tag.state == .retiring then s0
  else
    let how := c.metas.getD i DramRead.clean
    let s1 := (s0.countRead (metaAddr tag.len) how).noteNamed tag
    if s0.readEnd (metaAddr tag.len) how == .uncorrectable then s1.metaFailed tag.len
    else if s1.numbers.pendingMeta.has tag.len then s1
    else
      let (st, _, _, mt, mg, kh, kl) := s1.metaOf tag.len
      if st != 1 || !s1.metaNames bank row then s1.wrongItem bank line [16 + i] (.orphan row)
      else if mt == tag.tnum && mg == tag.gen && kh == tag.keyHi && kl == tag.keyLo then
        s1.rightItem bank line (16 + i) row 0x02 2
      else s1.wrongItem bank line [16 + i] (.tagFix row)

/-- SCRUB_COMPARE: the oldest line read is compared once its shadow reads have returned, or the comparison is discarded (R274, R276,
R277). -/
def execScrubCompare (t : Nat) (c : LineCheck) (s : State) : Res :=
  let s0 := s.at t
  .next (match s0.scrub.reads with
    | [] => s0
    | r :: rest =>
      let s1 := ({ s0 with scrub := { s0.scrub with reads := rest } }).each (s0.lineReads r.bank r.line) (fun x p => x.dramReturn 4 p.1 p.2)
      if r.dirty then (s1.bump Fld.ARY_INTEG_COUNT0_discarded).queuePrio r.bank r.line r.verify
      else
        let w := (s1.bankWidth r.bank).getD 1
        let s2 := s1.each (List.range 4) (fun x j => x.settleUnit r.bank r.line c j)
        s2.each (List.range (4 / w)) (fun x i => x.settleTag r.bank r.line c i)).settle

/-- A repair of a bank is counted (R285). -/
def State.noteRepair (s : State) (bank : Nat) : State :=
  let n := s.scrub.repairsPass.findD bank 0 + 1
  let s1 := { s with scrub := { s.scrub with
    repairsPass := s.scrub.repairsPass.put bank n,
    repairsTotal := s.scrub.repairsTotal.put bank (min 65535 (s.scrub.repairsTotal.findD bank 0 + 1)) } }
  let s2 := s1.raise Fld.ARY_SCRUB_STATUS_repaired
  if n = s2.fld Fld.ARY_SCRUB_CTL_drain_thresh then s2.autoDrain bank else s2

/-- A repaired item is put up for its verify read (R278). -/
def State.verifyItem (s : State) (bank line item : Nat) : State :=
  let s1 := (s.noteRepair bank).queuePrio bank line true
  if s1.scrub.verifying.contains (lineKey bank line, item) then s1
  else { s1 with scrub := { s1.scrub with verifying := s1.scrub.verifying ++ [(lineKey bank line, item)] } }

/-- A unit is written by a repair, and put up for its verify read under an item number (R276, R278). -/
def State.repairUnit (s : State) (bank unit item : Nat) (u : UnitBits) : State :=
  let w := (s.bankWidth bank).getD 1
  let s1 := (s.putUnit bank (unit / w) unit u).touch bank (unit / 4)
  (s1.bump Fld.ARY_INTEG_COUNT0_unit_repairs).verifyItem bank (unit / 4) item

/-- One repair write (R276 to R283). -/
def State.repair (s : State) (r : Repair) : State :=
  let bank := r.bank
  let w := (s.bankWidth bank).getD 1
  match r.kind with
  | .unitFix u => s.repairUnit bank u (u % 4) (s.shadowUnit (s.shadowBank bank (u / w)) u)
  | .unitCopy u => s.repairUnit bank u (4 + u % 4) (s.unitBits (partnerBank bank) u)
  | .unitZero u => s.repairUnit bank u (8 + u % 4) UnitBits.reset
  | .tagFix row =>
    let tag := s.tag bank row
    let (_, _, _, mt, mg, kh, kl) := s.metaOf tag.len
    let s1 := (s.putTag bank row { tag with tnum := mt, gen := mg, keyHi := kh, keyLo := kl }).touch bank (lineOf w row)
    s1.verifyItem bank (lineOf w row) (16 + row % max 1 (4 / w))
  | .retire row =>
    let tag := s.tag bank row
    match s.entry tag.len with
    | some e => if e.gen == tag.gen then ((s.dropEntry tag.len).writeMeta tag.len e 2).unsettlePair e.bank (lineOf e.width e.row) 1 else s
    | none => s
  | .orphan row =>
    let tag := s.tag bank row
    let next := if tag.state == .armed && tag.ptide == s.parity then Tag.reset else { tag with state := .retiring, ptide := s.parity }
    (((s.rowEvent 0 0x03 bank row 0 0 0).putTag bank row next).touch bank (lineOf w row)).noteRepair bank
  | .emptyRow row =>
    ((s.integrity 1 0x06 bank row 0 (b2n (s.shadowBank bank row != bank)) 0 0 0 0).putTag bank row Tag.reset).touch bank (lineOf w row)
  | .restore row len tide =>
    match s.entry len with
    | some e =>
      if e.state == .live && e.row == row && (s.tag bank row).state == .empty then
        let s1 := s.each (List.range e.width) (fun z j => z.putUnit bank row (e.width * row + j) (z.shadowUnit e.bank (e.width * row + j)))
        let s2 := (s1.putTag bank row (s1.armedTag len e)).touch bank (lineOf e.width row)
        s2.rowEvent 0 0x07 bank row 0 2 (tide % 2 ^ 32)
      else s
    | none => s

/-- A queued repair of a line that a verify read has found wrong again is not made in this pass (R284). -/
def State.repairBarred (s : State) (r : Repair) : Bool :=
  let w := (s.bankWidth r.bank).getD 1
  match r.kind with
  | .unitFix u => s.scrub.barred.contains (lineKey r.bank (u / 4))
  | .unitCopy u => s.scrub.barred.contains (lineKey r.bank (u / 4))
  | .unitZero u => s.scrub.barred.contains (lineKey r.bank (u / 4))
  | .tagFix row => s.scrub.barred.contains (lineKey r.bank (lineOf w row))
  | .orphan row => s.scrub.barred.contains (lineKey r.bank (lineOf w row))
  | _ => false

/-- The repairs that have room are written, in their order (R278); those left over. -/
def State.repairRun (s : State) : List Repair → State × List Repair
  | [] => (s, [])
  | r :: rest =>
    if s.repairBarred r then State.repairRun s rest
    else if s.roomFor .repair (s.repairBanks r) (s.repairStrokes r) then
      State.repairRun ((s.useOther (s.repairBanks r) (s.repairStrokes r)).repair r) rest
    else
      let (s1, left) := State.repairRun s rest
      (s1, r :: left)

/-- REPAIR_WRITE: the queued repairs in a write phase (R278). -/
def execRepairWrite (t : Nat) (s : State) : Res :=
  let s0 := s.at t
  .next (if s0.inWrite then
      let (s1, left) := ({ s0 with scrub := { s0.scrub with repairs := [] } }).repairRun s0.scrub.repairs
      { s1 with scrub := { s1.scrub with repairs := left ++ s1.scrub.repairs } }
    else s0).settle

/-- The unit that a stripe's rebuild takes (R279, R288), from the checks of the primary and the mirror copy, and whether it comes from the
mirror alone. -/
def State.rebuildUnit (s : State) (bank unit : Nat) (own mirror : Bool) : Option (UnitBits × Bool) :=
  let a := s.unitBits bank unit
  if s.mode.mode = 3 then
    let b := s.unitBits (partnerBank bank) unit
    if own && mirror then (if a == b then some (a, false) else none)
    else if own then some (a, false) else if mirror then some (b, true) else none
  else if own then some (a, false) else none

/-- In M3 the copy of a unit that fails its check is repaired from its partner (R288). -/
def State.repairCopy (s : State) (bank unit : Nat) (own mirror : Bool) : State :=
  if s.mode.mode = 3 && own != mirror then s.queueRepair (if own then partnerBank bank else bank) (.unitCopy unit) else s

/-- SHADOW_STRIPE_REBUILD: a stripe of the array shadow is written again from its units, once each of their lines has been read (R279,
R288). `units` has the unit checks of the stripe's units in order, in M3 followed by those of their mirror copies. -/
def execShadowStripeRebuild (t stripe : Nat) (units : List Bool) (s : State) : Res :=
  let s0 := s.at t
  let first := 256 * stripe / 20
  let n := (256 * stripe + 255) / 20 + 1 - first
  .next (if !s0.scrub.stripes.contains stripe || s0.scrub.stripeReads.any (fun x => x.1 == stripe) then s0
    else
      let taken := (List.range n).map (fun k =>
        s0.rebuildUnit ((first + k) / 32768) ((first + k) % 32768) (units.getD k true) (units.getD (n + k) true))
      let s1 := s0.each (List.range n) (fun x k =>
        let bank := (first + k) / 32768
        let unit := (first + k) % 32768
        match taken.getD k none with
        | some (u, _) =>
          let a := 20 * (first + k)
          let bytes := leBytes u.value.toNat 10 ++ leBytes u.mask.toNat 10
          (x.dramWrite (max a (256 * stripe)) ((bytes.take (256 * stripe + 256 - a)).drop (256 * stripe - a))).repairCopy bank unit
            (units.getD k true) (units.getD (n + k) true)
        | none => x.unitLost bank bank unit ((x.bankWidth bank).getD 1))
      let s2 := { s1 with scrub := { s1.scrub with stripes := s1.scrub.stripes.filter (fun k => k != stripe) } }
      let bank := first / 32768
      ((s2.bump Fld.ARY_INTEG_COUNT1_stripe_rebuilds).raise Fld.ARY_SCRUB_STATUS_rebuilt).rowEvent 0 0x04 bank
        (first % 32768 / (s2.bankWidth bank).getD 1) 0 (if taken.any (fun x => (x.map (fun y => y.2)).getD false) then 5 else 3) 0).settle

/-- A pending number is settled: once its stripe has none left, the stripe counts as rebuilt (R280). -/
def State.metaSettled (s : State) (len : Nat) : State :=
  let s1 := { s with
    numbers := { s.numbers with pendingMeta := s.numbers.pendingMeta.del len }
    scrub := { s.scrub with metaSeen := s.scrub.metaSeen.filter (fun n => n != len) } }
  let s2 := s1.raise Fld.ARY_SCRUB_STATUS_rebuilt
  if s2.numbers.pendingMeta.keys.any (fun n => n / 16 == len / 16) then s2 else s2.bump Fld.ARY_INTEG_COUNT1_stripe_rebuilds

/-- META_REBUILD: the metadata line of a pending number is rebuilt from a row tag that has passed its check and names the entry (R280): its
keys, its bank and its row; the width comes from the bank. -/
def execMetaRebuild (t len : Nat) (s : State) : Res :=
  let s0 := s.at t
  .next (match s0.entry len with
    | some e =>
      let tag := s0.tag e.bank e.row
      if s0.numbers.pendingMeta.has len && s0.scrub.metaSeen.contains len && tag.len == len && tag.gen == e.gen &&
          (tag.state == RowState.live || tag.state == RowState.armed) then
        let line : Entry := { e with keyHi := tag.keyHi, keyLo := tag.keyLo }
        (((s0.writeMeta len line 1).unsettlePair e.bank (lineOf e.width e.row) 1).metaSettled len).rowEvent 0 0x05 e.bank e.row 0 4 0
      else s0
    | none => s0).settle

/-- LEN_WITHHELD: a pending number that no tag has named by the end of the next full pass is withheld (R280, R282). Its generation is then
unknown, and so is its handle. -/
def execLenWithheld (t len : Nat) (s : State) : Res :=
  let s0 := s.at t
  .next (match s0.numbers.pendingMeta.find len with
    | some p =>
      if s0.scrub.metaSeen.contains len || s0.scrub.passes < p + 2 then s0
      else
        let s1 := match s0.entry len with
          | some e => if e.charged then s0.chargeUnits e.tid e.width false else s0
          | none => s0
        let n := s1.numbers
        let s2 := { s1 with numbers := { n with
          entries := n.entries.del len, withheld := n.withheld ++ [len], freed := n.freed.filter (fun x => x.1 != len) } }
        let s3 := s2.dramWrite (metaAddr len) (metaLine 0 0 0 0 3 0 0 0)
        ((s3.metaSettled len).raise Fld.ARY_SCRUB_STATUS_withheld).integrity 3 0x0C 0 0 0 0 0 0 0 0
    | none => s0).settle

/-- TAG_RESTORE_SEARCH_END: the search for a lost tag's entry ends (R283); `pass`: its metadata line and array-shadow units pass. -/
def execTagRestoreSearchEnd (t : Nat) (pass : Bool) (s : State) : Res :=
  let s0 := s.at t
  .next (match s0.scrub.tagSearches with
    | [] => s0
    | x :: rest =>
      let s1 := { s0 with scrub := { s0.scrub with tagSearches := rest } }
      let owner := s1.numbers.entries.find? (fun (p : Nat × Entry) => p.2.state == EntryState.live && p.2.row == x.row &&
        (p.2.bank == x.bank || (s1.mode.mode == 3 && p.2.bank == partnerBank x.bank)))
      match owner with
      | some (len, _) => if pass then s1.queueRepair x.bank (.restore x.row len x.tide) else s1
      | none => s1).settle

/-- SHADOW_WRITE_COMPLETE: one outstanding shadow write of a line completes (R271). -/
def execShadowWriteComplete (t bank line : Nat) (s : State) : Res :=
  let s0 := s.at t
  let k := lineKey bank line
  .next (match s0.scrub.unsettled.find k with
    | some n => { s0 with scrub := { s0.scrub with
        unsettled := if n ≤ 1 then s0.scrub.unsettled.del k else s0.scrub.unsettled.put k (n - 1) } }
    | none => s0).settle

end Sys2Proof.Machine
end

