-- ==== Sys2Proof/Machine/Modes.lean ====
section
/-! DEFINITION. Operating modes (04_modes.md): requests, preparation, cancellation, and the boundary at which a mode takes effect. -/
namespace Sys2Proof.Machine

/-- A ternary table of the device has 4-unit entries, or a bank holds them (R123 result 3). A table whose TABLE_CREATE is accepted and waits
for its boundary counts as defined (DESIGN CHOICE, notes/assumptions/154.md). -/
def State.hasWide (s : State) : Bool :=
  s.tables.vals.any (fun t => !t.df.direct && t.df.units == 4) || s.arrays.spans.vals.any (fun o => o.width == 4) ||
    s.due.any (fun d => match d.change with
      | .tableCreate df _ => !df.direct && df.units == 4
      | _ => false)

/-- The set holds a partition (R335, R336): from its admission until its slot is emptied. -/
def Glyph.placed (g : Glyph) : Bool :=
  g.state == .admitted || g.state == .reloading || (g.state == .loading && !g.copying)

/-- Granules of 64 KiB that the partitions of the glyph sets take (R123 result 5, R335). -/
def State.partitionGranules (s : State) : Nat :=
  (s.scribes.glyphs.vals.filter (·.placed)).foldl (fun n g => n + 2 ^ g.partLog2) 0

/-- The check of a request in its stroke of acceptance (R123): 0 where it passes. Of several causes the one of the lowest number is shown
(DESIGN CHOICE, notes/assumptions/155.md). -/
def State.modeCheck (s : State) (target : Nat) : Nat :=
  if !s.boot.device.permitted.testBit target then 1
  else if s.mode.pending.isSome && target != s.mode.mode then 2
  else if target = 7 && s.mode.mode != 7 && s.hasWide then 3
  else if target = 3 && s.mode.mode != 3 && 8388608 < s.unitsUsed then 4
  else if s.mode.mode = 5 && target != 5 && 512 < s.partitionGranules then 5
  else 0

/-- The primary rows of which a mirror copy is to be written (R130). -/
def State.mirrorRows (s : State) : List Nat :=
  (s.numbers.entries.filter (fun p => p.2.state != .retired &&
    (let t := s.tag p.2.bank p.2.row
     t.state != .empty && t.len == p.1 && t.gen == p.2.gen))).map (fun p => rowKey p.2.bank p.2.row)

/-- The mirror copies that stand in the arrays (R124, R132): the rows of the partner banks that carry an entry's tag. -/
def State.mirrorCopies (s : State) : List Nat :=
  (s.numbers.entries.filter (fun p =>
    let t := s.tag (partnerBank p.2.bank) p.2.row
    t.state != .empty && t.len == p.1 && t.gen == p.2.gen)).map (fun p => rowKey (partnerBank p.2.bank) p.2.row)

/-- A hot-store line of ways 4 to 7 is not yet being demoted (R38). -/
def State.highLines (s : State) : Bool := s.hot.lines.any (fun p => 4 ≤ p.1 % 8 && p.2.freeFrom.isNone)

/-- The change is of a kind that R125 prepares. -/
def prepared (old new : Nat) : Bool := (new == 5 && old != 5) || (new == 3 && old != 3) || (old == 6 && new != 6)

/-- The preparation of the pending change has nothing left to do (R38, R125, R130). Every plan step is whole at the end of its
command, so no insertion is ever in the middle of one. -/
def State.preparedNow (s : State) : Bool :=
  match s.mode.pending with
  | some 5 => !s.highLines
  | some 3 => s.arrays.mirrorBuild.isEmpty && s.mirrorBlocked.isEmpty
  | _ => true

/-- The chart versions of the next tide name the mirror banks (R130, R132): from the end of the mirror build until the turn tide of a change
out of M3. -/
def State.mirrorNext (s : State) : Bool :=
  match s.mode.pending with
  | none => s.mode.mode == 3
  | some m => (m == 3 && !s.mode.preparing) || (s.mode.mode == 3 && s.mode.turnTide != some s.clock.grid)

/-- The commit stroke writes chart versions that name the mirror banks, or name them no more (R130, R132). -/
def State.nameMirrors (s : State) : State :=
  { s with tables := s.tables.map (fun p => (p.1,
      if p.2.df.direct || p.2.nextChart.mirror == s.mirrorNext then p.2
      else { p.2 with chartNext := some { p.2.nextChart with mirror := s.mirrorNext } })) }

/-- The completion of the SET_MODE that asked for a change, where it is still to be posted. -/
def State.modeResult (s : State) (result : Nat) (payload : Bytes) (postAt : Nat) (all : Bool) : State :=
  match s.mode.command with
  | none => s
  | some id => if s.cmds.accepted.any (fun a => a.id == id && (all || a.result.isNone))
    then s.setResult id (result, 0, 0, 0, payload) postAt else s

/-- A request cancels the pending change (R124). -/
def State.cancelMode (s : State) : State :=
  let s1 := s.modeResult 0x19 (leBytes 8 8) s.dueTide true
  let copies := if s.mode.pending == some 3 then s1.mirrorCopies else []
  { s1 with
      mode := { s1.mode with pending := none, preparing := false, turnTide := none, command := none }
      arrays := { s1.arrays with mirrorBuild := [], mirrorFree := s1.arrays.mirrorFree ++ copies } }

/-- A request for a mode that R123 lets through (R124, R125); `command` is the accepted SET_MODE that makes it. -/
def State.takeMode (s : State) (target : Nat) (command : Option Nat) : State :=
  if target = s.mode.mode then (if s.mode.pending.isSome then s.cancelMode else s)
  else
    let rows := if target = 3 then s.mirrorRows else []
    let s1 := { s with
      mode := { s.mode with pending := some target, preparing := true, turnTide := none, command := command }
      arrays := { s.arrays with mirrorBuild := rows } }
    if s1.preparedNow then { s1 with mode := { s1.mode with preparing := false, turnTide := some (s1.clock.grid + 1) } } else s1

/-- A write of GLB_MODE_CTL (R122 to R125). -/
def State.writeModeCtl (s : State) (fn w mask : Nat) : State :=
  if fn != 0 then
    let s1 := s.logAccess fn Reg.GLB_MODE_CTL.offset 2
    if Fld.GLB_MODE_CTL_go.get (w &&& mask) = 1 then s1.setFld Fld.GLB_MODE_STATUS_result 7 else s1
  else
    s.goClosed fn w mask .GLB_MODE_CTL 0 Fld.GLB_MODE_CTL_go (fun x => x.setFld Fld.GLB_MODE_STATUS_result 6) (fun _ => false)
      (fun x =>
        let target := x.fld Fld.GLB_MODE_CTL_target
        let r := x.modeCheck target
        let y := x.setFld Fld.GLB_MODE_STATUS_result r
        if r = 0 then y.takeMode target none else y)

/-- GLB_MODE_GO (R122). -/
def execGlbModeGo (t fn : Nat) (w : Word64) (s : State) : Res := .next ((s.at t).writeModeCtl fn w.toNat fullMask).settle

/-- SET_MODE (R122 to R125, R436, R597): OK at the boundary of R63, or, for a change that R125 prepares, at the boundary at which
the mode takes effect. -/
def execSetMode (t : Nat) (src : Source) (s : State) : Res :=
  .next (s.atHead t src (fun op => op == 0x40) (fun s0 c =>
    let body := cmdBody c.record
    let target := byteAt body 0
    let form := body.length == 8 && target < 8 && zerosAt body 1 7
    s0.checked src c false false form .supervisor (fun _ => none) (fun s1 =>
      let r := s1.modeCheck target
      let s2 := s1.setFld Fld.GLB_MODE_STATUS_result r
      if r != 0 then s2.refuse src c 0x19 0 (leBytes r 8)
      else
        let id := s2.acceptId
        let s3 := s2.takeMode target (if target = s2.mode.mode then none else some id)
        if target != s2.mode.mode && prepared s2.mode.mode target then s3.accept src c s3.clock.grid true none none
        else s3.acceptBoundary src c 0))).settle

/-- MODE_PREPARATION_DONE (R125): the tide after the preparation completes is the turn tide. -/
def execModePreparationDone (t : Nat) (s : State) : Res :=
  let s0 := s.at t
  .next (if s0.mode.preparing && s0.preparedNow
    then { s0 with mode := { s0.mode with preparing := false, turnTide := some (s0.clock.grid + 1) } } else s0).settle

/-- The bound of an insertion in flight when M6 ends (R133): 64 tides from the boundary, but for one accepted before the turn tide,
which keeps its own. -/
def Insertion.afterM6 (i : Insertion) (turn now : Nat) : Insertion :=
  if i.tide < turn then { i with bound := min i.bound (now + 63 - i.tide) } else { i with bound := now + 63 - i.tide }

/-- The pending mode takes effect at the boundary that ends its turn tide (R65, R118, R132, R133); what R136 lists stays. -/
def State.modeBoundary (s : State) : State :=
  match s.mode.pending, s.mode.turnTide with
  | some m, some turn =>
    if s.clock.grid ≤ turn then s
    else
      let old := s.mode.mode
      let copies := if old = 3 then s.mirrorCopies else []
      let s1 := s.modeResult 0 [] s.clock.grid false
      let flights := if old = 6 then s1.cmds.flights.map (fun i => i.afterM6 turn s.clock.grid) else s1.cmds.flights
      let s2 := { s1 with
        mode := ⟨m, none, false, none, none, old, s.clock.grid⟩
        cmds := { s1.cmds with flights := flights }
        arrays := { s1.arrays with mirrorBuild := [], mirrorFree := s1.arrays.mirrorFree ++ copies } }
      (s2.setFld Fld.GLB_MODE_STATUS_since (s2.clock.count % 2 ^ 32)).raise Fld.GLB_MODE_STATUS_changed
  | _, _ => s

end Sys2Proof.Machine
end

