-- ==== Sys2Proof/Machine/Intake.lean ====
section
/-! DEFINITION. The intake of records: search requests (R184, R188), table commands (R173) and stream chunks (R353) from logical
quays (R455, R465, R466), host rings (R523 to R526) and peer windows (R533 to R536), and the records that wait in the match buffers
(R363, R365). -/
namespace Sys2Proof.Machine

/-- The device takes records from the host (R111, R582): it serves or is in Recovery, is awake, and no entry to a low state has
stopped intake. -/
def State.intakeOpen (s : State) : Bool :=
  s.engineRuns && !s.intakeStopped

/-- A wake from Idle (R579): the gated domains are clocked again within 96 strokes. -/
def State.idleWake (s : State) : State :=
  if s.power.state = 1 then
    { s with
        freeCounter := s.freeCounter + 1
        power := { s.power with
          state := 0, quietTides := 0, wakeSrc := 1, clockedAt := s.now + Config.wakeStrokes s.freeCounter % 97 } }
  else s

/-- A record has been accepted (R578, R582); its arrival wakes a device in Idle (R579). -/
def State.noteRecord (s : State) : State :=
  let w := s.idleWake
  { w with power := { w.power with
      accepted := true, entry := w.power.entry.map (fun (e : PowerEntry) => { e with lastRecord := w.clock.grid }) } }

/-- The length of a record that its header gives (R455): none for a type that no peer may send. -/
def recordLength (rec : Bytes) : Option Nat :=
  match byteAt rec 0 with
  | 0x10 => some (16 + 8 * (byteAt rec 4 % 16))
  | 0x20 => some (16 + 8 * ((fieldLE rec 2 2 + 7) / 8))
  | 0x30 => some (8 * fieldLE rec 2 2)
  | _ => none

/-- A record that waits in a match buffer goes to its destination, where that has room (R363, R365, R528). -/
def State.sendReport (s : State) (r : Report) : Option State :=
  if r.dest = 1 then
    if 0 < r.reserved then some (s.ringReply r.index r.reserved r.bytes)
    else if s.eventRoom (ticketRing r.index) r.bytes then some (s.ringQueue (ticketRing r.index) .event r.bytes) else none
  else if s.quayRoom r.index (r.bytes.length / 8) then some (s.offerSecondary r.index .secondary r.bytes) else none

/-- The records that wait go out in order, those of one destination never past one another. -/
def State.sendReports (s : State) : List Report → List (Nat × Nat) → State
  | [], _ => s
  | r :: rest, stuck =>
    let next := if stuck.contains (r.dest, r.index) then none else s.sendReport r
    match next with
    | some s1 =>
      State.sendReports { s1 with scribes := { s1.scribes with
        reports := (s1.scribes.reports.erase r) } } rest stuck
    | none => State.sendReports s rest (stuck ++ [(r.dest, r.index)])

/-- The match buffers deliver what they can. -/
def State.flushReports (s : State) : State := s.sendReports s.scribes.reports []

/-- A record is posted to a match buffer. -/
def State.report (s : State) (r : Report) : State :=
  { s with scribes := { s.scribes with reports := s.scribes.reports ++ [r] } }

/-- The destination of the carrier of a chunk: its quay, or the COMPLETE ring of its reply, with the entries reserved. -/
def carrier (src : Source) (reply : Nat) : Nat × Nat × Nat :=
  match src with
  | .quay q => (2, q, 0)
  | _ => (1, reply, 1)

/-- A chunk status record (R363). -/
def chunkStatus (rec : Bytes) (status consumed cause found tide : Nat) : Bytes :=
  [BitVec.ofNat 8 0x21, BitVec.ofNat 8 status] ++ leBytes consumed 2 ++ (rec.drop 4).take 3 ++ [BitVec.ofNat 8 cause] ++
    (rec.drop 8).take 4 ++ leBytes found 4 ++ leBytes tide 8

/-- A chunk is refused on entry (R353): its status goes to its carrier and its credit returns. -/
def State.refuseChunk (s : State) (src : Source) (reply half status : Nat) (rec : Bytes) : State :=
  let (d, i, n) := carrier src reply
  ((s.report ⟨half, d, i, chunkStatus (rec ++ zeros (16 - rec.length)) status 0 0 0 s.clock.count, n⟩).releaseRecord src rec).flushReports

/-- The header of a chunk follows its table (R352). -/
def chunkHeaderOk (rec : Bytes) : Bool :=
  let n := fieldLE rec 2 2
  byteAt rec 1 < 16 && n ≤ 512 && (n != 0 || (byteAt rec 1).testBit 2) && byteAt rec 7 == 0 && fieldLE rec 12 2 < 16384 && zerosAt rec 14 2

/-- The stream that a handle names, where it is open (R344, R353). -/
def State.openStream (s : State) (handle : Nat) : Option (Nat × Stream) :=
  match s.scribes.streams.find (handle % 2 ^ 20) with
  | some x => if x.gen = handle / 2 ^ 20 then some (handle % 2 ^ 20, x) else none
  | none => none

/-- The half that holds a set's partition. -/
def State.halfOf (s : State) (set : Nat) : Nat := (s.scribes.glyphs.findD set Glyph.reset).half

/-- A stream chunk enters (R353, R408, R524). -/
def State.enterChunk (s : State) (src : Source) (master reply ringClass : Nat) (rec : Bytes) (bad wrong : Bool) : State :=
  if bad || !chunkHeaderOk rec then s.refuseChunk src reply 0 5 rec
  else if wrong then s.refuseChunk src reply 0 6 rec
  else
    match s.openStream (fieldLE rec 4 3) with
    | none => s.refuseChunk src reply 0 2 rec
    | some (n, x) =>
      if s.frozen master then s.refuseChunk src reply (s.halfOf x.set) 1 rec
      else
        let cls := max (max (byteAt rec 1 % 4) ringClass) (s.berth (fieldLE rec 12 2 % 16384)).record.ceiling
        { s with scribes := { s.scribes with
            queue := s.scribes.queue ++ [⟨src, s.now, cls, x.set, n, rec, reply, false⟩] } }

/-- A search request enters its class (R188, R408, R524). -/
def State.enterSearch (s : State) (src : Source) (master reply ringClass : Nat) (rec : Bytes) (bad wrong : Bool) : State :=
  let cls := max (max (byteAt rec 1 % 4) ringClass) (s.berth (fieldLE rec 2 2 % 16384)).record.ceiling
  { s with search := { s.search with
      waiting := s.search.waiting ++ [⟨src, master, s.now, s.clock.count, cls, rec, reply, bad, wrong⟩] } }

/-- A table command enters the FIFO of its source (R60, R178). A window's command under another berth is answered DENIED (R535). -/
def State.enterCommand (s : State) (src : Source) (master reply : Nat) (rec : Bytes) (bad wrong : Bool) : State :=
  if wrong then (s.releaseRecord src rec).replyTo src reply (reserveOf rec) false (s.completionBytes rec 0x09 0 0 0 [])
  else
    let when_ := match src with
      | .seed => s.now
      | _ => s.now + 64
    s.setFifo src (s.fifo src ++ [⟨rec, master, when_, none, reply, bad⟩])

/-- A record of a known type is taken (R184, R352, R173): its type decides. -/
def State.enter (s : State) (src : Source) (master reply ringClass : Nat) (rec : Bytes) (bad wrong : Bool) : State :=
  let s1 := s.noteRecord
  match byteAt rec 0 with
  | 0x10 => s1.enterSearch src master reply ringClass rec bad wrong
  | 0x20 => s1.enterChunk src master reply ringClass rec bad wrong
  | _ => s1.enterCommand src master reply rec bad wrong

/-- A record delimited on a logical quay (R455, R465, R466): too short or of an unknown type it is discarded; beyond its credit it is
discarded without a reply; else it is charged and taken. -/
def State.quayRecord (s : State) (q : Nat) (rec : Bytes) (bad : Bool) : State :=
  let l := s.link (.quay q)
  match recordLength rec with
  | none => s.bumpHold Fld.QUY_ERR_COUNT_discarded 1 q
  | some n =>
    if rec.length < 16 then s.bumpHold Fld.QUY_ERR_COUNT_discarded 1 q
    else
      let (pool, charge) := quayCharge rec
      if !creditFits (l.limits.getD pool 0) (l.charged.getD pool 0) charge then s.bumpHold Fld.QUY_ERR_COUNT_overrun 1 q
      else (s.setLink (.quay q) (l.charge pool charge)).enter (.quay q) (quayMaster q) 0 0 rec (bad || n != rec.length) false

/-- Entries of a SUBMIT ring that the host has posted and the device has not taken. -/
def HostRing.posted (x : HostRing) : Nat := (x.hostIndex + 2 ^ 32 - x.devIndex) % 2 ^ 32

/-- A chunk of the host would go to a half whose chunk queue is full (R354). -/
def State.chunkHeld (s : State) (rec : Bytes) : Bool :=
  byteAt rec 0 == 0x20 && (match s.openStream (fieldLE rec 4 3) with
    | some (_, x) => 2048 ≤ (s.scribes.queue.filter (fun c => s.halfOf c.set == s.halfOf x.set)).length
    | none => false)

/-- Entries reserved in a COMPLETE ring (R523). -/
def State.reserve (s : State) (r n : Nat) : State := s.setRing r { s.hostRing r with reserved := (s.hostRing r).reserved + n }

/-- The fetch engine takes the next record of a SUBMIT ring (R523, R524, R526), or waits. -/
def State.fetchRecord (s : State) (r : Nat) (rec : Bytes) : State :=
  let x := s.hostRing r
  let pair := s.ringPair r
  if !s.intakeOpen || !s.host.linkUp || x.state != .active || s.ringKind r != 0 || (s.function (ringFn r)).flr || x.posted = 0 then s
  else
    match hostRecordLength rec with
    | none => s.ringError r 2
    | some n =>
      if 1024 < n then s.ringError r 2
      else
        let body := rec.take n
        let k := (n + 63) / 64
        if rec.length < n || x.posted < k || !s.ringActive pair || s.ringKind pair != 1 || s.ringFree pair < reserveOf body ||
            s.chunkHeld body then s
        else
          let s1 := s.setRing r { x with devIndex := (x.devIndex + k) % 2 ^ 32, moved := true }
          let s2 := (s1.reserve pair (reserveOf body)).emit
            (.hostRead (s.fld Fld.HST_RING_BASE_base r * 4096 + 64 * (x.devIndex % s.ringSize r)) n)
          s2.enter (.hostRing r) (ringFn r) (s.ticket pair) (s.fld Fld.HST_RING_CTL_class r) body false false

/-- The berth that a record names. -/
def recordBerth (rec : Bytes) : Nat :=
  match byteAt rec 0 with
  | 0x10 => fieldLE rec 2 2 % 16384
  | 0x20 => fieldLE rec 12 2 % 16384
  | _ => fieldLE rec 4 2 % 16384

/-- One record of a peer window (R534, R535). -/
def State.windowRecord (s : State) (w : Nat) (rec : Bytes) : State :=
  let a := (s.window w).active
  let ring := 16 * a.fn + a.slot
  let reply := s.ticket ring
  let s1 := (s.setWindow w { s.window w with held := (s.window w).held + rec.length }).reserve ring (reserveOf rec)
  if recordBerth rec = a.berth then s1.enter (.window w) a.fn reply 0 rec false false
  else
    let s2 := (s1.bump Fld.HST_WIN_COUNT_violations 1 w).violation a.fn 3 0
    s2.enter (.window w) a.fn reply 0 rec false true

/-- The credit word of a window (R536). -/
def State.windowCredit (s : State) (w : Nat) : Nat :=
  ((s.window w).gen % 65536) * 2 ^ 48 + (16384 + (s.window w).freed) % 2 ^ 32

/-- A TLP falls in no window (R533). -/
def State.noWindow (s : State) (w off len : Nat) : Bool :=
  let a := (s.window w).active
  !a.en || s.frozen a.fn || (s.function a.fn).flr || 0x100000 < off % 0x100000 + len || !s.host.linkUp

/-- A write TLP to BAR2 (R533, R534). -/
def State.windowTlp (s0 : State) (off : Nat) (data : Bytes) : State :=
  let s := s0.idleWake
  let w := off / 0x100000 % 16
  if !s.host.pcie.bar2 || !s.engineRuns then s
  else if s.noWindow w off data.length then s.bump Fld.HST_WIN_COUNT_nowin 1 w
  else
    match splitRecords (data.length / 8 + 1) data with
    | none => s.bump Fld.HST_WIN_COUNT_malformed 1 w
    | some recs =>
      if 16384 < (s.window w).held + data.length then s.bump Fld.HST_WIN_COUNT_overrun 1 w
      else s.each recs (fun x r => x.windowRecord w r)

/-- A write TLP to BAR2, held while an entry or a low state stops intake (R582). -/
def State.windowWrite (s : State) (off : Nat) (data : Bytes) : State :=
  if s.intakeStopped && s.host.pcie.bar2 && s.host.linkUp then
    { s with host := { s.host with heldTlps := s.host.heldTlps ++ [(off, data)] } }
  else s.windowTlp off data

/-- A record of one type received whole from a source: on a quay within its credit, as the next record of a SUBMIT ring, or as the
payload of a TLP in a peer window. -/
def State.receive (s : State) (src : Source) (typ : Nat) (rec : Bytes) : State :=
  if byteAt rec 0 != typ then s
  else match src with
    | .quay q => if (s.link (.quay q)).up then s.quayRecord q rec false else s
    | .hostRing r => s.fetchRecord r rec
    | .window w => s.windowWrite (0x100000 * w) rec
    | .seed => s

/-- SEARCH_REQUEST (R184). -/
def execSearchRequest (t : Nat) (src : Source) (rec : Bytes) (s : State) : Res := .next ((s.at t).receive src 0x10 rec).settle

/-- TABLE_COMMAND (R173). -/
def execTableCommand (t : Nat) (src : Source) (rec : Bytes) (s : State) : Res := .next ((s.at t).receive src 0x30 rec).settle

/-- STREAM_CHUNK (R353). -/
def execStreamChunk (t : Nat) (src : Source) (rec : Bytes) (s : State) : Res := .next ((s.at t).receive src 0x20 rec).settle

/-- RING_FETCH (R523). -/
def execRingFetch (t ring : Nat) (rec : Bytes) (s : State) : Res := .next ((s.at t).fetchRecord ring rec).settle

/-- PEER_WINDOW_TLP (R533 to R536): a write of the bytes given; with no bytes, the 8-byte read that returns the credit word. -/
def execPeerWindowTlp (t off : Nat) (data : Bytes) (s : State) : Res :=
  let s0 := s.at t
  .next (if !s0.host.pcie.bar2 || !s0.host.linkUp then s0
    else if data.isEmpty then s0.emit (.readData (s0.window (off / 0x100000 % 16)).active.fn (leBytes (s0.windowCredit (off / 0x100000 % 16)) 8))
    else s0.windowWrite off data).settle

end Sys2Proof.Machine
end

