-- ==== Sys2Proof/Machine/Observe.lean ====
section
/-! DEFINITION. Tracing, table digests, queue sampling, the search mirror, telemetry records and the capture buffer (R378 to
R395). -/
namespace Sys2Proof.Machine

/-- What the tag errors of activations cause (R266, R267, R275, R283). -/
def State.tagFaults (s : State) (banks : List Nat) (tags : List TagFault) : State :=
  s.each (tags.filter (fun x => banks.contains x.bank)) (fun y x =>
    if x.corrected then y.bump Fld.ARY_INTEG_COUNT1_tag_corrected
    else (y.tagLost x.bank x.row).queuePrio x.bank (lineOf ((y.bankWidth x.bank).getD 1) x.row) false)

/-- The rows of a bank whose tags an activation reads with an uncorrectable error: they match nothing (R267). -/
def badRows (tags : List TagFault) (bank : Nat) : List Nat := (tags.filter (fun x => x.bank == bank && !x.corrected)).map (fun x => x.row)

/-- The table identifier's V bytes and the body of a TRACE (R173, R378). -/
def traceForm (df : TableDef) (body : Bytes) : Bool := body.length == 8 + 2 * df.vBytes

/-- TRACE (R378, R382): accepted while fewer than 8 traces are held. -/
def execTrace (t : Nat) (src : Source) (s : State) : Res :=
  .next (s.atHead t src (fun op => op == 0x0C) (fun s0 c =>
    let tid := cmdTid c.record
    let body := cmdBody c.record
    if 8 ≤ s0.observe.traces.length then s0
    else s0.checked src c true false (8 ≤ body.length && zerosAt body 0 8) .counter (fun x => x.noTable src tid) (fun s1 =>
      match s1.table tid with
      | none => s1.refuse src c 0x08 0
      | some tb =>
        let kind := if tb.df.direct || !traceForm tb.df body then some 0x0A else none
        s1.orRefuse src c kind (fun s2 =>
          let v := tb.df.vBytes
          let x : Trace :=
            { id := s2.acceptId, tid := tid, key := digitsOf ((body.drop 8).take (10 * tb.df.units)),
              mask := digitsOf ((body.drop (8 + v)).take (10 * tb.df.units)), banks := none, visited := [], first := 0, last := 0,
              rows := [], more := false, unstable := false, version := 0 }
          let s3 := s2.accept src c s2.clock.grid true none none
          { s3 with observe := { s3.observe with traces := s3.observe.traces ++ [x] } })))).settle

/-- The banks that a trace visits (R380): the union of the lists of the buckets whose selector bits agree with the key. -/
def Chart.traceBanks (c : Chart) (key mask : Digits) : List Nat :=
  let ks := (List.range c.buckets.length).filter (fun k => c.inBucket key mask k)
  ks.foldl (fun l k => l ++ (c.buckets.getD k []).filter (fun b => !l.contains b)) []

/-- The rows that a trace activation of a bank returns (R379, R381): the first 64 in row order; those of `bad` tags are none (R267). -/
def State.traceRows (s : State) (bank w tid : Nat) (key mask : Digits) (bad : List Nat) : List TraceRow :=
  let hit := fun (row : Nat) => (List.range w).all (fun j =>
    let u := s.unitBits bank (w * row + j)
    ((u.value ^^^ unitOf key j) &&& u.mask &&& unitOf mask j) == 0)
  (((s.matchable bank (tid % 4096)).filter (fun p => hit p.1 && !bad.contains p.1)).take 64).map (fun p =>
    ⟨s.handle p.2.gen p.2.len, p.2.keyHi, p.2.keyLo, bank, p.1⟩)

/-- Rows in the order of `precedes`, each handle once (R383). -/
def insertRow (cls : Nat) (x : TraceRow) : List TraceRow → List TraceRow
  | [] => [x]
  | y :: ys =>
    if x.handle = y.handle then y :: ys
    else if precedes cls (x.keyHi, x.keyLo, x.handle) (y.keyHi, y.keyLo, y.handle) then x :: y :: ys.filter (fun z => z.handle != x.handle)
    else y :: insertRow cls x ys

/-- One item of a TRACE completion (R384). -/
def TraceRow.item (r : TraceRow) (cls : Nat) : Bytes :=
  leBytes r.handle 4 ++ leBytes (if cls = 0 then r.keyHi else 0) 4 ++ leBytes (if cls = 1 then 0 else r.keyLo) 4 ++
    leBytes r.bank 2 ++ leBytes r.row 2

/-- The payload of a TRACE (R383, R384). -/
def Trace.payload (x : Trace) (cls : Nat) : Bytes :=
  let sorted := x.rows.foldr (insertRow cls) []
  let items := sorted.take 64
  let tides := if x.visited.isEmpty then 0 else x.last + 1 - x.first
  [BitVec.ofNat 8 items.length, BitVec.ofNat 8 (b2n (x.more || decide (64 < sorted.length)) + 2 * b2n x.unstable)] ++
    leBytes tides 2 ++ zeros 4 ++ (items.map (fun r => r.item cls)).flatten

/-- The trace-phase operations left in this stroke (R55, R57). -/
def State.traceLeft (s : State) : Nat :=
  s.params.cap - (if s.observe.traceAt = s.now then s.observe.traceOps else 0)

/-- Trace-phase operations are used. -/
def State.useTrace (s : State) (n : Nat) : State :=
  let used := if s.observe.traceAt = s.now then s.observe.traceOps else 0
  { s with observe := { s.observe with traceOps := used + n, traceAt := s.now } }

/-- One bank of a trace is visited. -/
def State.traceBank (s : State) (df : TableDef) (tags : List TagFault) (x : Trace) (bank : Nat) : Trace :=
  let rows := if s.bankDown bank then [] else s.traceRows bank df.units df.tid x.key x.mask (badRows tags bank)
  { x with rows := x.rows ++ rows, more := x.more || rows.length == 64, visited := x.visited ++ [bank], last := s.clock.grid }

/-- A held trace goes as far as the operations left allow (R381 to R384). -/
def State.runTrace (s : State) (tags : List TagFault) (x : Trace) : State :=
  match s.table x.tid with
  | none => (s.setResult x.id (0, 0, 0, 0, x.payload 0) (s.clock.grid + 1))
  | some tb =>
    let v := tb.chart.version
    let start : Trace := if x.banks.isSome then { x with unstable := x.unstable || v != x.version }
      else { x with banks := some (tb.chart.traceBanks x.key x.mask), first := s.clock.grid, last := s.clock.grid, version := v }
    let todo := start.banks.getD []
    let n := min s.traceLeft todo.length
    let done := (todo.take n).foldl (fun y b => s.traceBank tb.df tags y b) start
    let s1 := (s.useTrace n).tagFaults ((todo.take n).filter (fun b => !s.bankDown b)) tags
    if todo.length ≤ n then s1.setResult x.id (0, 0, 0, 0, done.payload tb.df.cls) (s.clock.grid + 1)
    else { s1 with observe := { s1.observe with traces := s1.observe.traces ++ [{ done with banks := some (todo.drop n) }] } }

/-- TRACE_ACTIVATION (R381): the traces in their order of acceptance; `tags` are the tag errors that the activations read (R266). -/
def execTraceActivation (t : Nat) (tags : List TagFault) (s : State) : Res :=
  let s0 := s.at t
  .next (if s0.inTrace then
    { s0 with observe := { s0.observe with traces := [] } }.each s0.observe.traces (fun x tr => x.runTrace tags tr)
    else s0).settle

/-- TABLE_DIGEST (R386): accepted while fewer than 4 digests are held; posted at the boundary of R63 with its number. -/
def execTableDigest (t : Nat) (src : Source) (s : State) : Res :=
  .next (s.atHead t src (fun op => op == 0x0D) (fun s0 c =>
    let tid := cmdTid c.record
    if 4 ≤ s0.observe.digests.length then s0
    else s0.checked src c true false (cmdBody c.record).isEmpty .counter (fun x => x.noTable src tid) (fun s1 =>
      s1.orRefuse src c (s1.kindCheck tid false false) (fun s2 =>
        let n := s2.observe.nextDigest
        let d : Digest := ⟨n, tid, cmdCookie c.record, none, [], 0, 0, false, false, 0⟩
        let s3 := s2.accept src c s2.clock.grid true (some (0, 0, 0, n, [])) (some s2.dueTide)
        { s3 with observe := { s3.observe with digests := s3.observe.digests ++ [d], nextDigest := (n + 1) % 2 ^ 32 } })))).settle

/-- The telemetry header (R390). -/
def State.telHeader (s : State) (typ words flags source tide : Nat) : Bytes :=
  [BitVec.ofNat 8 typ, BitVec.ofNat 8 words, BitVec.ofNat 8 (s.fld Fld.GLB_TIDE_CTL_step_gen + 16 * s.member), BitVec.ofNat 8 flags] ++
    leBytes source 4 ++ leBytes tide 8

/-- Words are written to the capture buffer from its pointer on (R394). With stop 1 the capture ends at the first wrap, before a
word would overwrite word 0. -/
def State.captureWords (s : State) : Nat → Bytes → State
  | 0, _ => s
  | n + 1, bs =>
    let o := s.observe
    if o.captureStopped then s
    else
      let s1 := s.dramWrite (captureAddr + 8 * o.captureWord) (bs.take 8)
      let wrap := o.captureWord + 1 == 2 ^ 30
      let stop := wrap && s.bit Fld.TEL_CAPTURE_PTR_stop
      State.captureWords { s1 with observe := { o with
        captureWord := (o.captureWord + 1) % 2 ^ 30
        captureWraps := if wrap then (o.captureWraps + 1) % 2 ^ 24 else o.captureWraps
        captureStopped := stop } } n (bs.drop 8)

/-- A record is written to the capture buffer, or dropped by a stopped one (R394). -/
def State.capture (s : State) (bs : Bytes) : State :=
  if s.observe.captureStopped then s.bump Fld.TEL_DROP_COUNT_sample else s.captureWords (bs.length / 8) bs

/-- A telemetry record goes to its destination, where that has room (R393). -/
def State.sendTel (s : State) (r : TelRecord) : Option State :=
  match r.dest with
  | 1 => if s.eventRoom r.index r.bytes then some (s.ringQueue r.index .event r.bytes) else none
  | 2 => if s.quayRoom r.index (r.bytes.length / 8) then some (s.offerSecondary r.index .secondary r.bytes) else none
  | _ => some (s.capture r.bytes)

/-- The held records go out in order, those of one destination never past one another. -/
def State.sendTels (s : State) : List TelRecord → List (Nat × Nat) → State
  | [], _ => s
  | r :: rest, stuck =>
    let next := if stuck.contains (r.dest, r.index) then none else s.sendTel r
    match next with
    | some s1 => State.sendTels { s1 with observe := { s1.observe with buffer := s1.observe.buffer.erase r } } rest stuck
    | none => State.sendTels s rest (stuck ++ [(r.dest, r.index)])

/-- The telemetry buffer delivers what it can (R393). -/
def State.flushTel (s : State) : State := s.sendTels s.observe.buffer []

/-- A record is posted to the telemetry buffer of 4,096 records (R392, R393): a SAMPLE record is dropped when it is full, a MIRROR
record when it is full or 512 of them are held, a DIGEST record never. -/
def State.postTel (s : State) (r : TelRecord) : State :=
  let full := decide (4096 ≤ s.observe.buffer.length)
  let mirrors := (s.observe.buffer.filter (fun x => x.mirror)).length
  if r.mirror && (full || 512 ≤ mirrors) then s.bump Fld.TEL_DROP_COUNT_mirror
  else if full && !r.digest then s.bump Fld.TEL_DROP_COUNT_sample
  else { s with observe := { s.observe with buffer := s.observe.buffer ++ [r] } }.flushTel

/-- A record for the destination that TEL_DEST_CTL names. -/
def State.postGeneral (s : State) (digest : Bool) (bs : Bytes) : State :=
  s.postTel ⟨s.fld Fld.TEL_DEST_CTL_dest, s.fld Fld.TEL_DEST_CTL_dest_index, false, digest, bs⟩

/-- TELEMETRY_DELIVERY (R393). -/
def execTelemetryDelivery (t : Nat) (s : State) : Res := .next (s.at t).flushTel.settle

/-- The lines of a table in the banks that its chart lists (R387). -/
def State.digestLines (s : State) (tb : TableRec) : List Nat :=
  let banks := tb.chart.traceBanks 0 0
  let lines := banks.flatMap (fun b => (s.matchable b (tb.df.tid % 4096)).map (fun p => lineKey b (lineOf tb.df.units p.1)))
  lines.foldl (fun l k => if l.contains k then l else l ++ [k]) []

/-- The number that bytes spell, the first most significant (R385). -/
def beNat (bs : Bytes) : Nat := bs.foldl (fun n b => 256 * n + b.toNat) 0

/-- The hash of an entry (R385). -/
def State.entryHash (s : State) (df : TableDef) (len : Nat) (e : Entry) : Nat :=
  let w := df.units
  let text := leBytes df.tid 2 ++ [BitVec.ofNat 8 df.width, BitVec.ofNat 8 df.cls] ++ leBytes (if df.cls = 0 then e.keyHi else 0) 4 ++
    leBytes e.value.toNat (10 * w) ++ leBytes e.mask.toNat (10 * w) ++ (s.adFor len s.clock.grid).take df.adBytes
  beNat ((sha384 text).take 16)

/-- One row of a digest read (R387): its entry is summed, from the shadow where a unit fails, or left out where both fail. -/
def State.digestRow (s : State) (df : TableDef) (d : Digest) (bank : Nat) (x : Nat × Tag) (how : Option RowRead) : State × Digest :=
  let w := df.units
  let row := x.1
  let u := fun (j : Nat) => match how with
    | some h => h.units.getD j true
    | none => true
  let sh := fun (j : Nat) => match how with
    | some h => s.spanEnd (shadowAddr (s.shadowBank bank row * 32768 + w * row + j)) 20 (h.shadow.getD j DramRead.clean) != DramEnd.uncorrectable
    | none => true
  let bad := (List.range w).any (fun j => !u j)
  let lost := (List.range w).any (fun j => !u j && !sh j)
  let s1 := if bad then s.queuePrio bank (lineOf w row) false else s
  let s2 := s1.each (List.range w) (fun y j => match how with
    | some h => if u j then y else y.countSpan (shadowAddr (s.shadowBank bank row * 32768 + w * row + j)) 20 (h.shadow.getD j DramRead.clean)
    | none => y)
  match s.entry x.2.len with
  | none => (s2, d)
  | some e =>
    if lost then (s2, { d with incomplete := true })
    else (s2, { d with sum := (d.sum + s.entryHash df x.2.len e) % 2 ^ 128, entries := d.entries + 1 })

/-- A DIGEST record (R387, R390). -/
def State.digestRecord (s : State) (d : Digest) : Bytes :=
  s.telHeader 0x61 6 (b2n d.unstable + 2 * b2n d.incomplete) d.tid s.clock.count ++ leBytes d.cookie 4 ++ leBytes d.number 4 ++
    leBytes d.entries 8 ++ leBytes d.sum 16

/-- One digest read (R387), of the first digest held; its last read posts the record. -/
def State.digestRead (s : State) (how : List RowRead) (tags : List TagFault) : State :=
  match s.observe.digests with
  | [] => s
  | x :: rest =>
    match s.table x.tid with
    | none =>
      { s with observe := { s.observe with digests := rest } }.postGeneral true (s.digestRecord { x with incomplete := true })
    | some tb =>
      let start : Digest := if x.lines.isSome then { x with unstable := x.unstable || tb.chart.version != x.version }
        else { x with lines := some (s.digestLines tb), version := tb.chart.version }
      match start.lines.getD [] with
      | [] => { s with observe := { s.observe with digests := rest } }.postGeneral true (s.digestRecord start)
      | k :: left =>
        let bank := k / 8192
        let line := k % 8192
        let lineRows := (s.matchable bank (tb.df.tid % 4096)).filter (fun p => lineOf tb.df.units p.1 == line)
        let rows := lineRows.filter (fun p => !(badRows tags bank).contains p.1)
        let read := (s.useTrace 1).tagFaults [bank] (tags.filter (fun x => lineRows.any (fun p => p.1 == x.row)))
        let data := if tb.df.adBytes = 0 then read else read.each rows (fun y p => y.dramIssue 4 (adAddr p.2.len) tb.df.adBytes)
        let (s1, d) := (List.range rows.length).foldl (fun (acc : State × Digest) i =>
          match rows[i]? with
          | some r => acc.1.digestRow tb.df acc.2 bank r how[i]?
          | none => acc) (data, start)
        let d1 : Digest := { d with lines := some left, visited := if d.visited.contains bank then d.visited else d.visited ++ [bank] }
        if left.isEmpty then { s1 with observe := { s1.observe with digests := rest } }.postGeneral true (s1.digestRecord d1)
        else { s1 with observe := { s1.observe with digests := d1 :: rest } }

/-- DIGEST_READ (R387): with the trace-phase operations that traces leave unused; `how` gives the reads of the line's rows whose tags pass,
and `tags` the tag errors of the line (R266). -/
def execDigestRead (t : Nat) (how : List RowRead) (tags : List TagFault) (s : State) : Res :=
  let s0 := s.at t
  .next (if s0.inTrace && s0.observe.traces.isEmpty && 0 < s0.traceLeft then s0.digestRead how tags else s0).settle

/-- A capture of the queue sampler at the boundary that has just opened this tide (R389); made once. -/
def State.sampleBoundary (s : State) : State :=
  let o := s.observe
  if !o.sampleEn || s.clock.count % 2 ^ o.sampleK != 0 || o.capturedAt = s.clock.grid || s.clock.stroke != 0 then s
  else
    let quays := s.links.quays.map (fun x =>
      let depth := fun (c : Nat) => (s.search.waiting.filter (fun r => r.src == Source.quay x.1 && r.cls == c)).length
      ({ isRing := false, queue := x.1, tide := s.clock.count, depths := (List.range 4).map depth,
         waits := (List.range 4).map (fun c => o.waits.findD (4 * x.1 + c) 0), cls := 0 } : Sample))
    let rings := (s.host.rings.filter (fun x => x.2.state == RingState.active)).map (fun x =>
      let n := if s.ringKind x.1 = 0 then x.2.posted else (x.2.devIndex + 2 ^ 32 - x.2.hostIndex) % 2 ^ 32
      ({ isRing := true, queue := x.1, tide := s.clock.count, depths := [n], waits := [o.waits.findD (1000 + x.1) 0],
         cls := s.fld Fld.HST_RING_CTL_class x.1 } : Sample))
    { s with observe := { o with samples := o.samples ++ quays ++ rings, waits := [], capturedAt := s.clock.grid } }

/-- QUEUE_SAMPLE_CAPTURE (R389). -/
def execQueueSampleCapture (s : State) : Res := .next s.sampleBoundary.settle

/-- A wait of a queue in strokes (R389): the greatest one is kept, up to 65,535. -/
def State.noteWait (s : State) (key w : Nat) : State :=
  { s with observe := { s.observe with waits := s.observe.waits.put key (max (s.observe.waits.findD key 0) (min w 65535)) } }

/-- The queue in which a request waits. -/
def Request.queueKey (r : Request) : Option Nat :=
  match r.src with
  | .quay q => some (4 * q + r.cls)
  | .hostRing n => some (1000 + n)
  | _ => none

/-- A SAMPLE record (R390). -/
def State.sampleRecord (s : State) (x : Sample) : Bytes :=
  let d := fun (i : Nat) => x.depths.getD i 0
  let w := fun (i : Nat) => x.waits.getD i 0
  s.telHeader 0x60 4 (b2n x.isRing) x.queue x.tide ++
    (if x.isRing then leBytes (d 0) 4 ++ [BitVec.ofNat 8 x.cls] ++ zeros 3 ++ leBytes (w 0) 2 ++ zeros 6
     else ((List.range 4).map (fun i => leBytes (d i) 2)).flatten ++ ((List.range 4).map (fun i => leBytes (w i) 2)).flatten)

/-- SAMPLE_POST (R390): up to 64 records a tide. -/
def execSamplePost (t : Nat) (s : State) : Res :=
  let s0 := s.at t
  .next (if s0.observe.samplesTide = s0.clock.grid || s0.observe.samples.isEmpty then s0
    else
      let out := s0.observe.samples.take 64
      let s1 := { s0 with observe := { s0.observe with samples := s0.observe.samples.drop 64, samplesTide := s0.clock.grid } }
      s1.each out (fun x r => x.postGeneral false (x.sampleRecord r))).settle

/-- A mirror session takes its new values at the boundary (R391): its count starts where it is enabled. -/
def State.setSession (s : State) (n : Nat) (x : Session) : State :=
  let kept := match s.observe.sessions.find n with
    | some o => if o.en then o.counted else 0
    | none => 0
  { s with observe := { s.observe with sessions := s.observe.sessions.put n { x with counted := kept } } }

/-- A request passes R193: its header is well formed. -/
def requestOk (rec : Bytes) (bad : Bool) : Bool :=
  let b1 := byteAt rec 1
  let n := b1 / 4 % 8
  let kw := byteAt rec 4
  !bad && b1 < 64 && 1 ≤ n && n ≤ 4 && fieldLE rec 2 2 < 16384 && 1 ≤ kw && kw ≤ 10 &&
    (List.range 4).all (fun i => i < n || fieldLE rec (8 + 2 * i) 2 == 0)

/-- A MIRROR record (R392). -/
def State.mirrorRecord (s : State) (n : Nat) (x : Session) (r : Request) (result : Bytes) : Bytes :=
  let body := if x.withResult then result else []
  s.telHeader 0x62 ((24 + r.record.length + body.length) / 8) (n + 16 * b2n x.withResult) r.master r.tide ++
    [BitVec.ofNat 8 (r.s0 % 256), BitVec.ofNat 8 (r.record.length / 8), BitVec.ofNat 8 (body.length / 8)] ++ zeros 5 ++ r.record ++ body

/-- A result leaves (R391, R392): every enabled session of its berth counts it, and mirrors the 1st, (N+1)th and so on. -/
def State.mirrorResult (s : State) (r : Request) (result : Bytes) : State :=
  if !requestOk r.record r.badLength then s
  else
    let berth := fieldLE r.record 2 2 % 16384
    s.each (s.observe.sessions.filter (fun p => p.2.en && p.2.berth == berth)) (fun y p =>
      let x := p.2
      let hit := x.counted % max 1 x.ratio == 0
      let y1 := { y with observe := { y.observe with sessions := y.observe.sessions.put p.1 { x with counted := x.counted + 1 } } }
      if hit then y1.postTel ⟨x.dest, x.index, true, false, y1.mirrorRecord p.1 x r result⟩ else y1)

/-- A write of TEL_CAPTURE_PTR (R394): a write of 0 to stop restarts the capture at word 0. -/
def State.writeCapturePtr (s : State) (fn w mask : Nat) : State :=
  if s.holds .TEL_CAPTURE_PTR then s.holdWrite fn .TEL_CAPTURE_PTR w mask
  else if fn != 0 then s.logAccess fn Reg.TEL_CAPTURE_PTR.offset 2
  else if !s.served .TEL_CAPTURE_PTR 0 then s.logAccess fn Reg.TEL_CAPTURE_PTR.offset 6
  else
    let s1 := (s.storeFields .TEL_CAPTURE_PTR 0 w mask []).1
    if bitOf mask 33 && !bitOf w 33 then
      { s1 with observe := { s1.observe with captureWord := 0, captureWraps := 0, captureStopped := false } }
    else s1

/-- CAPTURE_RESTART (R394). -/
def execCaptureRestart (t fn : Nat) (w : Word64) (s : State) : Res := .next ((s.at t).writeCapturePtr fn w.toNat fullMask).settle

end Sys2Proof.Machine
end

