-- ==== Sys2Proof/Machine/SearchFront.lean ====
section
/-! DEFINITION. The dispatcher and the pipe front (R67 to R72, R189 to R196, R208), for search requests and for the ring records that a
member searches (R492), and BUSY (R27). -/
namespace Sys2Proof.Machine

/-- Lookups that a request names (R184), as sent. -/
def reqLooks (rec : Bytes) : Nat := byteAt rec 1 / 4 % 8
/-- The no_ad flag. -/
def reqNoAd (rec : Bytes) : Bool := (byteAt rec 1).testBit 5
/-- The berth of a request. -/
def reqBerth (rec : Bytes) : Nat := fieldLE rec 2 2 % 16384
/-- The length of the key in bytes. -/
def reqKeyLen (rec : Bytes) : Nat := 8 * (byteAt rec 4 % 16)
/-- A lookup descriptor (R185). -/
def reqDesc (rec : Bytes) (i : Nat) : Nat := fieldLE rec (8 + 2 * i) 2
/-- The chain flag of a descriptor. -/
def descChain (d : Nat) : Bool := d.testBit 15
/-- The source of a chained lookup. -/
def descSrc (d : Nat) : Nat := d / 8192 % 4
/-- The grant slot of a lookup. -/
def descSlot (d : Nat) : Nat := d / 128 % 64
/-- The offset of the key field. -/
def descOff (d : Nat) : Nat := d % 128

/-- The key field of a lookup into a table of `w` units (R186). -/
def keyField (rec : Bytes) (off w : Nat) : Digits := digitsOf (((rec.drop 16).drop off).take (10 * w))

/-- The index of a direct-index lookup (R187). -/
def keyIndex (rec : Bytes) (off bits : Nat) : Nat := fieldLE (rec.drop 16) off 3 % 2 ^ bits

/-- The grant in a slot of a berth record (R403). -/
def BerthRec.grantAt (r : BerthRec) (slot : Nat) : Option Grant := r.grants.find? (fun g => g.slot == slot)

/-- The existing table that a lookup's slot resolves to (R189). -/
def State.slotTable (s : State) (rec : Bytes) (i : Nat) : Option TableRec :=
  let d := reqDesc rec i
  if descChain d then none
  else match (s.berth (reqBerth rec)).record.grantAt (descSlot d) with
    | none => none
    | some g => match s.table g.tid with
      | none => none
      | some t => if t.exists then some t else none

/-- The activations of one copy or, in M3, of both copies (R72). -/
def State.copies (s : State) : Nat := if s.mode.mode = 3 then 2 else 1

/-- The activation reservation of a request (R29, R189), by the fan-out bounds of the charts in force (R256). -/
def State.reservation (s : State) (rec : Bytes) : Nat :=
  let one := fun (i : Nat) => match s.slotTable rec i with
    | some t => if t.df.direct then 0 else t.chart.fanout * s.copies
    | none => 0
  ((List.range (min (reqLooks rec) 4)).map one).foldl (fun a b => a + b) 0

/-- A table from which a lookup may chain (R208). -/
def TableDef.chains (d : TableDef) : Bool := d.direct || (d.hot == 1 && !d.ringSpan)

/-- The charge of the chain lane in stroke d + 256 (R190). -/
def State.chainCharge (s : State) (rec : Bytes) : Nat :=
  match (List.range (min (reqLooks rec) 4)).find? (fun i => descChain (reqDesc rec i)) with
  | none => 0
  | some i =>
    let src := descSrc (reqDesc rec i)
    if i ≤ src || descChain (reqDesc rec src) then 0
    else match s.slotTable rec src with
      | some t => if t.df.chains then 16 else 0
      | none => 0

/-- A descriptor is malformed in its form (R194), with the chaining rules of R208 that need no table. -/
def descMalformed (rec : Bytes) (i : Nat) : Bool :=
  let d := reqDesc rec i
  reqKeyLen rec < descOff d + 3 ||
    (if descChain d then
      descSlot d != 0 || i ≤ descSrc d || descChain (reqDesc rec (descSrc d)) ||
        (List.range i).any (fun j => descChain (reqDesc rec j))
     else descSrc d != 0)

/-- A lookup that nothing is known of yet. -/
def Look.start (desc view : Nat) : Look :=
  { desc := desc, status := none, df := none, key := 0, index := 0, banks := [], winner := none, mirror := none, disagree := false,
    data := [], reading := false, view := view, frontDone := false, tid := 0, pre := none, m3 := false }

/-- The key of a lookup is built (R186, R187): with a chart, the banks it activates (R30, R198) and whether it looks up both copies (R212);
with a direct-index table, the entry in force and what it answers (R165). `m3`: the mode at the dispatch is M3
(notes/assumptions/157.md). -/
def State.buildKey (s : State) (rec : Bytes) (m3 : Bool) (l : Look) (t : TableRec) : Look :=
  let off := descOff l.desc
  if t.df.direct then
    let x := keyIndex rec off t.df.indexBits
    let bytes := if x < t.df.depth then s.diRead t x else []
    let miss := t.df.depth ≤ x || (t.df.zeroMiss && bytes.all (· = 0))
    { l with df := some t.df, index := x, data := if miss then [] else bytes, pre := some (b2n miss) }
  else
    let key := keyField rec off t.df.units
    { l with df := some t.df, key := key, banks := t.chart.banksOf key, m3 := m3 && t.chart.mirror }

/-- The lookup's key field or index bytes end within the key (R194). -/
def fieldFits (rec : Bytes) (desc : Nat) (d : TableDef) : Bool :=
  descOff desc + (if d.direct then 3 else 10 * d.units) ≤ reqKeyLen rec

/-- The pipe front on one lookup (R192, R194, R403). -/
def State.frontLook (s : State) (r : Request) (i : Nat) : State × Look :=
  let bs := r.record
  let l := Look.start (reqDesc bs i) s.clock.grid
  if descMalformed bs i then (s, { l with status := some 0xB })
  else if descChain l.desc then (s, l)
  else
    let g := (s.berth (reqBerth bs)).record.grantAt (descSlot l.desc)
    let l1 := { l with tid := match g with
      | some x => x.tid
      | none => 0 }
    if !(match g with
      | some x => x.search
      | none => false) then (s.violation r.master 1 0, { l1 with status := some 8 })
    else match s.slotTable bs i with
      | none => (s, { l1 with status := some 0xA })
      | some t =>
        if !fieldFits bs l.desc t.df then (s, { l1 with status := some 0xB })
        else (s, s.buildKey bs (s.mode.mode == 3) l1 t)

/-- The lookups of a search, in order. -/
def State.frontLooks (s : State) (r : Request) : Nat → Nat → State × List Look
  | 0, _ => (s, [])
  | n + 1, i =>
    let (s1, l) := s.frontLook r i
    let (s2, ls) := State.frontLooks s1 r n (i + 1)
    (s2, l :: ls)

/-- A chained lookup whose source names a table that it may not chain from (R208). -/
def chainSources (ls : List Look) : List Look :=
  ls.map (fun l =>
    if descChain l.desc && l.status.isNone then
      match ls[descSrc l.desc]? with
      | some x => match x.df with
        | some d => if x.status.isNone && !d.chains then { l with status := some 0xB } else l
        | none => l
      | none => l
    else l)

/-- The request names a number of lookups that a request may name (R193). -/
def nlookOk (rec : Bytes) : Bool := 1 ≤ reqLooks rec && reqLooks rec ≤ 4

/-- The pipe front (R192): what ends the whole search, or the lookups. A record of a window under another berth has been found a
violation when it entered, and is answered DENIED (R535), unless it names no lookups that can be (R221, R225). -/
def State.pipeFront (s : State) (r : Request) : State × Option Nat × List Look :=
  let bs := r.record
  let b := reqBerth bs
  if r.wrongBerth && nlookOk bs then (s, some 8, [])
  else if s.frozen r.master then (s, some 9, [])
  else if r.wrongBerth || !requestOk bs r.badLength then (s, some 0xB, [])
  else if !s.inRange r.master b then (s.violation r.master 5 0, some 8, [])
  else if s.params.lookups < reqLooks bs then (s, some 0xB, [])
  else
    let (colour, x) := (s.berth b).shape (reqLooks bs)
    let s1 := (s.setBerth b x).countColour b colour
    match colour with
    | .red => (s1, some 7, [])
    | _ =>
      let (s2, ls) := s1.frontLooks r (reqLooks bs) 0
      (s2, none, chainSources ls)

/-- The hop count of this member as origin (R497, R504). -/
def State.hops (s : State) : Nat :=
  if s.ring.solo then 0
  else ((List.range 8).map (fun m => if m = s.member || !s.ring.epoch.present.testBit m then 0
    else if s.ring.epoch.weight2.testBit m then 2 else 1)).foldl (fun a b => a + b) 0

/-- A stroke of dispatch as it fills: the next pipe, the activations left, and whether dispatch has stopped (R70). -/
structure Filling where
  pipe : Nat
  left : Nat
  stop : Bool
deriving DecidableEq, Repr

/-- Activations charged to a stroke (R29, R190). -/
def State.charged (s : State) (stroke : Nat) : Nat := s.search.charges.findD stroke 0

/-- A request that needs more than the cap may be dispatched alone in this stroke (R71). -/
def State.aloneOk (s : State) (a : Filling) : Bool :=
  a.pipe == 0 && s.searchStroke (s.clock.stroke + 1) && s.clock.stroke < 255 && s.charged s.now == 0 && s.charged (s.now + 1) == 0

/-- A reservation is placed in the stroke (R70, R71): none where it does not fit; else the stroke after it, and whether it took two
strokes. -/
def State.fill (s : State) (a : Filling) (k : Nat) : Option (Filling × Bool) :=
  if s.pipesNow ≤ a.pipe then none
  else if s.capNow < k then (if s.aloneOk a then some (⟨a.pipe + 1, 0, true⟩, true) else none)
  else if a.left < k then none
  else some (⟨a.pipe + 1, a.left - k, false⟩, false)

/-- Two strokes are closed to further dispatch (R71). -/
def State.closeStrokes (s : State) (both : Bool) : State :=
  if both then { s with search := { s.search with
    closed := s.search.closed.filter (fun n => s.now ≤ n) ++ [s.now, s.now + 1] } } else s

/-- A request is dispatched on a pipe: it leaves its queue, its window's space is freed, and the pipe front runs. -/
def State.launchSearch (s : State) (r : Request) (pipe : Nat) (both : Bool) : State :=
  let charge := s.chainCharge r.record
  let kept : Table Nat := s.search.charges.filter (fun (p : Nat × Nat) => s.now ≤ p.1)
  let s1 := { s with search := { s.search with
    waiting := s.search.waiting.erase r
    charges := if charge = 0 then kept else kept.put (s.now + 256) (s.charged (s.now + 256) + charge) } }
  let s2 := match r.queueKey with
    | some k => s1.noteWait k (s.now - (r.s0 + 64))
    | none => s1
  let s3 := match r.src with
    | .window _ => s2.releaseRecord r.src r.record
    | _ => s2
  let (s4, status, looks) := s3.pipeFront r
  let spans := looks.any (fun l => l.status.isNone && (match l.df with
    | some d => d.ringSpan
    | none => false))
  let f : Search :=
    { id := s4.search.nextId, req := r, d := some s.now, pipe := pipe, mode := s.mode.mode, extra := if spans then 512 * s.hops else 0,
      ring := spans, epoch := s.ring.epoch.number % 256, split := both, first := s.capNow, half := false, status := status, looks := looks,
      activated := false,
      resolved := false, chainActivated := false, chainResolved := false, assembled := none }
  ({ s4 with search := { s4.search with flights := s4.search.flights ++ [f], nextId := s4.search.nextId + 1 } }).closeStrokes both

/-- A request is eligible for dispatch (R67, R27). -/
def State.eligible (s : State) (r : Request) : Bool := r.s0 + 64 ≤ s.now && s.now ≤ r.s0 + 319

/-- The index of a host source in the order of R525. -/
def hostIndex : Source → Option Nat
  | .hostRing r => some r
  | .window w => some (4096 + w)
  | _ => none

/-- The waiting request of a class that one of the 49 sources would dispatch (R68, R525). -/
def State.ofSource (s : State) (cls n : Nat) : Option Request :=
  let l := s.search.waiting.filter (fun r => r.cls == cls && s.eligible r)
  if n < 48 then l.find? (fun r => r.src == Source.quay n)
  else if 68 ≤ s.host.dispatches then none
  else
    let ptr := s.host.pointers.getD cls 0
    let turn := fun (r : Request) => match hostIndex r.src with
      | some k => some ((k + 4112 - ptr) % 4112)
      | none => none
    let turns := l.filterMap turn
    let first := turns.foldl min 4112
    l.find? (fun r => turn r == some first)

/-- The next request of a class, in round-robin order from the class's pointer, with its source (R68). -/
def State.nextOf (s : State) (cls : Nat) : Option (Nat × Request) :=
  let ptr := s.search.pointers.getD cls 0
  (List.range 49).findSome? (fun i =>
    let n := (ptr + i) % 49
    (s.ofSource cls n).map (fun r => (n, r)))

/-- The pointers of a class move past the source served (R68, R525). -/
def State.passSource (s : State) (cls n : Nat) (r : Request) : State :=
  let s1 := { s with search := { s.search with
    pointers := (List.range 4).map (fun i => if i = cls then (n + 1) % 49 else s.search.pointers.getD i 0) } }
  match hostIndex r.src with
  | some k => { s1 with host := { s1.host with
      dispatches := s1.host.dispatches + 1
      pointers := (List.range 4).map (fun i => if i = cls then (k + 1) % 4112 else s1.host.pointers.getD i 0) } }
  | none => s1

/-- One class is served until it has no eligible request or the stroke is full (R67, R70); a request keeps the class in which it was
queued (R409). -/
def State.serveClass (s : State) (a : Filling) (cls : Nat) : Nat → State × Filling
  | 0 => (s, a)
  | n + 1 =>
    if a.stop then (s, a)
    else match s.nextOf cls with
      | none => (s, a)
      | some (src, r) =>
        match s.fill a (s.reservation r.record) with
        | none => (s, { a with stop := true })
        | some (b, both) => State.serveClass ((s.launchSearch r a.pipe both).passSource cls src r) b cls n

/-- A byte of a record replaced. -/
def setByte (bs : Bytes) (i v : Nat) : Bytes := bs.take i ++ [BitVec.ofNat 8 v] ++ bs.drop (i + 1)

/-- The status of a ring search record becomes at least `v` (R492). -/
def ringStatus (rec : Bytes) (v : Nat) : Bytes :=
  let b := byteAt rec 7
  setByte rec 7 (b - b % 16 + max (b % 16) v)

/-- The slice of this member that a ring search record matches (R492). -/
def State.slice (s : State) (rec : Bytes) : Option TableRec :=
  match s.table (fieldLE rec 2 2) with
  | none => none
  | some t =>
    let f := byteAt rec 7
    if t.exists && !t.df.direct && t.df.ringSpan && t.df.width == f / 16 % 2 && t.df.adSize == f / 32 % 4 then some t else none

/-- The pipe front of a ring record (R487, R492, R498): frozen, range and grant, slice, and its key and banks. -/
def State.ringFront (s : State) (r : RingRec) : State × RingRec :=
  let b := fieldLE r.bytes 4 2 % 16384
  let out := { r with dispatched := some s.now, sendAt := some (s.now + 360) }
  if s.frozen westMaster then (s, { out with bytes := ringStatus r.bytes 9 })
  else if !s.inRange westMaster b then (s.violation westMaster 5 0, { out with bytes := ringStatus r.bytes 8 })
  else if !(s.berth b).record.right (fieldLE r.bytes 2 2) (·.search) then
    (s.violation westMaster 1 0, { out with bytes := ringStatus r.bytes 8 })
  else match s.slice r.bytes with
    | none => (s, out)
    | some t =>
      let key := digitsOf ((r.bytes.drop 44).take (10 * t.df.units))
      (s, { out with df := some t.df, key := key, banks := t.chart.banksOf key, m3 := s.mode.mode == 3 && t.chart.mirror })

/-- The oldest eligible ring record (R67, R498). -/
def State.nextRing (s : State) : Option RingRec :=
  s.ring.queue.find? (fun r => r.dispatched.isNone && !r.passThrough && r.received + 24 ≤ s.now)

/-- Ring records are served, up to `n` of them (R67). -/
def State.serveRing (s : State) (a : Filling) : Nat → State × Filling
  | 0 => (s, a)
  | n + 1 =>
    if a.stop then (s, a)
    else match s.nextRing with
      | none => (s, a)
      | some r =>
        let k := match s.slice r.bytes with
          | some t => t.chart.fanout * s.copies
          | none => 0
        match s.fill a k with
        | none => (s, { a with stop := true })
        | some (b, both) =>
          let (s1, x) := s.ringFront r
          let s2 := { s1 with ring := { s1.ring with queue := updateFirst (fun y => y == r) (fun _ => x) s1.ring.queue } }
          State.serveRing (s2.closeStrokes both) b n

/-- The search core dispatches in this stroke (R50, R66, R71, R579). -/
def State.dispatchOn (s : State) : Bool :=
  s.serving && s.power.state == 0 && s.power.clockedAt ≤ s.now && !s.power.tamperHold && s.power.exit.isNone && !s.domainDown 24 &&
    s.searchStroke s.clock.stroke && s.search.doneAt != some s.now && !s.search.closed.contains s.now

/-- The dispatch of one search stroke (R67 to R72). -/
def State.dispatchStroke (s : State) : State :=
  let a : Filling := ⟨0, s.capNow - s.charged s.now, false⟩
  let (s1, a1) := if s.clock.stroke % 2 = 0 then s.serveRing a 1 else (s, a)
  let (s2, a2) := s1.serveClass a1 0 9
  let (s3, a3) := s2.serveClass a2 1 9
  let (s4, a4) := s3.serveClass a3 2 9
  let (s5, a5) := s4.serveRing a4 9
  let (s6, _) := s5.serveClass a5 3 9
  { s6 with search := { s6.search with doneAt := some s.now } }

/-- DISPATCH (R67). -/
def execDispatch (t : Nat) (s : State) : Res :=
  let s0 := s.at t
  .next (if s0.dispatchOn then s0.dispatchStroke else s0).settle

/-- One lookup entry of a result (R220). -/
def lookEntry (status size : Nat) (chained direct : Bool) (tid handle : Nat) : Bytes :=
  [BitVec.ofNat 8 (status + 16 * size + 64 * b2n chained + 128 * b2n direct), 0] ++ leBytes tid 2 ++ leBytes handle 4

/-- A result record (R220, R221). -/
def resultRecord (rec : Bytes) (status looks : Nat) (ring : Bool) (body : Bytes) : Bytes :=
  [0x11, BitVec.ofNat 8 (status + 16 * looks), BitVec.ofNat 8 (1 + body.length / 8)] ++
    leBytes (reqBerth rec + 16384 * b2n ring) 2 ++ (rec.drop 5).take 3 ++ body

/-- A result in the layout of M7 (R224). -/
def resultM7 (rec : Bytes) (body : Bytes) : Bytes :=
  [0x15, BitVec.ofNat 8 (b2n (decide (2 ≤ reqLooks rec)))] ++ (rec.drop 5).take 3 ++ [BitVec.ofNat 8 (1 + body.length / 8)] ++ zeros 2 ++
    body

/-- One lookup entry of M7 (R224). -/
def entryM7 (status index : Nat) (trunc : Bool) : Bytes :=
  let hit := status == 0 || status == 4
  let err := !(status == 0 || status == 1)
  leBytes index 3 ++ [BitVec.ofNat 8 (b2n hit + 2 * b2n err + 4 * b2n trunc + 16 * status)] ++ zeros 4

/-- The result of a search that one status ends whole (R191, R192, R221, R225). -/
def wholeResult (rec : Bytes) (mode status : Nat) : Bytes :=
  let n := reqLooks rec
  if mode = 7 then
    resultM7 rec ((List.range (if n ≤ 1 then 1 else 2)).flatMap (fun _ => entryM7 status 0 false))
  else
    let k := if 1 ≤ n && n ≤ 4 then n else 0
    let st := if k = 0 && status != 6 && status != 9 then 0xB else status
    resultRecord rec st k false
      ((List.range k).flatMap (fun i => lookEntry status 0 (descChain (reqDesc rec i)) false 0 0))

/-- The mode in force in a grid tide not long past (R127). -/
def State.modeAt (s : State) (tide : Nat) : Nat := if s.mode.since ≤ tide then s.mode.mode else s.mode.before

/-- A request receives BUSY (R27, R191). -/
def State.makeBusy (s : State) (r : Request) : State :=
  let m := s.modeAt ((r.s0 + 319) / 256)
  let s1 := { s with search := { s.search with waiting := s.search.waiting.erase r } }
  let s2 := match r.queueKey with
    | some k => s1.noteWait k 256
    | none => s1
  let s3 := match r.src with
    | .window _ => s2.releaseRecord r.src r.record
    | _ => s2
  let f : Search :=
    { id := s3.search.nextId, req := r, d := none, pipe := 8, mode := m, extra := 0, ring := false, epoch := 0, split := false, first := 0, half := true,
      status := some 6, looks := [], activated := true, resolved := true, chainActivated := true, chainResolved := true,
      assembled := some (wholeResult r.record m 6) }
  { s3 with search := { s3.search with flights := s3.search.flights ++ [f], nextId := s3.search.nextId + 1 } }

/-- BUSY_RESULT (R27): every request that is past its dispatch allowance. -/
def execBusyResult (t : Nat) (s : State) : Res :=
  let s0 := s.at t
  .next (s0.each (s0.search.waiting.filter (fun r => r.s0 + 319 < s0.now)) State.makeBusy).settle

end Sys2Proof.Machine
end

