-- ==== Sys2Proof/Machine/Search.lean ====
section
/-! DEFINITION. Searches after the pipe front (R197 to R225): activation, resolution, associated data, chained lookups, mirrored
disagreements, assembly and release; and the same stages of ring search records at a member (R492, R498). -/
namespace Sys2Proof.Machine

/-- The first candidate of a list in the order of a comparison (R201). -/
def bestOf (before : Cand → Cand → Bool) : List Cand → Option Cand
  | [] => none
  | c :: cs => some (cs.foldl (fun b x => if before x b then x else b) c)

/-- `precedes` on candidates (R142). -/
def candBefore (cls : Nat) (a b : Cand) : Bool := precedes cls (a.keyHi, a.keyLo, a.len) (b.keyHi, b.keyLo, b.len)

/-- The banks that the two copies of a lookup activate (R198, R212, R290): outside M3 the chart's banks, both times. -/
def State.copyBanks (s : State) (m3 : Bool) (banks : List Nat) : List Nat × List Nat :=
  if m3 then
    (banks.map (fun b => if s.bankDown b then partnerBank b else b),
     banks.map (fun b => if s.bankDown (partnerBank b) then b else partnerBank b))
  else
    let up := banks.filter (fun b => !s.bankDown b)
    (up, up)

/-- The activations of a lookup (R23, R198, R212): banks, each with whether it is the mirror copy's. -/
def State.activations (s : State) (m3 : Bool) (banks : List Nat) : List (Bool × Nat) :=
  let l := s.copyBanks m3 banks
  l.1.map (fun b => (false, b)) ++ (if m3 then l.2.map (fun b => (true, b)) else [])

/-- The best of the candidates so far and of those that activations return (R199, R201), rows with an uncorrectable tag left out (R267). -/
def State.bestFrom (s : State) (df : TableDef) (key : Digits) (tags : List TagFault) (best : Option Cand) (banks : List Nat) : Option Cand :=
  bestOf (candBefore df.cls) (best.toList ++ banks.filterMap (fun b => s.firstMatch b (df.tid % 4096) df.units key (badRows tags b)))

/-- The winners of the two copies (R201, R212) after some activations; outside M3 there is one copy. -/
def State.winners (s : State) (m3 : Bool) (df : TableDef) (key : Digits) (tags : List TagFault) (acts : List (Bool × Nat))
    (w : Option Cand × Option Cand) : Option Cand × Option Cand :=
  let of := fun (mirror : Bool) => (acts.filter (fun a => a.1 == mirror)).map (fun a => a.2)
  let p := s.bestFrom df key tags w.1 (of false)
  (p, if m3 then s.bestFrom df key tags w.2 (of true) else p)

/-- A lookup that activates banks at its own stroke: not chained, not ended, ternary. -/
def Look.active (l : Look) (chained : Bool) : Bool :=
  descChain l.desc == chained && l.status.isNone && (match l.df with
    | some d => !d.direct
    | none => false)

/-- A lookup makes some of its activations. -/
def State.activateLook (s : State) (tags : List TagFault) (acts : List (Bool × Nat)) (l : Look) : Look :=
  match l.df with
  | some d =>
    let w := s.winners l.m3 d l.key tags acts (l.winner, l.mirror)
    { l with winner := w.1, mirror := w.2 }
  | none => l

/-- The lookups of a search that a test picks make their activations in order, those before the first `lo` and from `lo + n` on left out
(R71). -/
def State.activateLooks (s : State) (tags : List TagFault) (p : Look → Bool) (lo n : Nat) : List Look → State × List Look
  | [] => (s, [])
  | l :: ls =>
    if p l then
      let acts := s.activations l.m3 l.banks
      let now := (acts.drop lo).take n
      let (s1, rest) := State.activateLooks (s.tagFaults (now.map (fun a => a.2)) tags) tags p (lo - acts.length) (n - now.length) ls
      (s1, s.activateLook tags now l :: rest)
    else
      let (s1, rest) := State.activateLooks s tags p lo n ls
      (s1, l :: rest)

/-- The chain word (R151, R205), from the source lookup, where it gives one. -/
def State.chainWord (s : State) (src : Look) : Option Nat :=
  match src.df with
  | none => none
  | some d =>
    if src.status.isSome then none
    else if d.direct then (if src.pre = some 0 then some (fieldLE src.data 0 2) else none)
    else match src.winner with
      | some c => some (fieldLE (s.adFor c.len src.view) 0 2)
      | none => none

/-- What the chain word will find (R138, R210, R211): the grants, tables and charts of the tide of stroke d + 256. -/
def State.chainView (s : State) (rec : Bytes) (m3 : Bool) (src l : Look) : Look :=
  match s.chainWord src with
  | none => l
  | some w =>
    let l1 := { l with view := s.clock.grid }
    if (match src.df with
        | some d => !d.direct && d.adBytes == 0
        | none => false) then { l1 with pre := some 0xB }
    else if !tidOkForm w then { l1 with pre := some 0xB }
    else
      let l2 := { l1 with tid := w }
      if !(match (s.berth (reqBerth rec)).record.grants.find? (fun g => g.tid == w) with
        | some g => g.search
        | none => false) then { l2 with pre := some 8 }
      else match s.table w with
        | none => { l2 with pre := some 0xA }
        | some t =>
          if !t.exists then { l2 with pre := some 0xA }
          else if t.df.ringSpan || !fieldFits rec l.desc t.df then { l2 with pre := some 0xB }
          else s.buildKey rec m3 l2 t

/-- The first part of a split search's activations, at d + 256 (R71): as many as the cap of its dispatch. -/
def State.activateHalf (s : State) (tags : List TagFault) (f : Search) : State × Search :=
  let (s1, ls) := s.activateLooks tags (fun l => l.active false) 0 f.first f.looks
  (s1, { f with looks := ls, half := true })

/-- The activations of a search at d + 256, or the rest of a split search's at d + 257 (R71, R197 to R200, R212), and the view of its
chained lookup (R210). Each activation counts once against the cap, also where two pipes share a bank (R23). -/
def State.activateSearch (s : State) (tags : List TagFault) (f : Search) : State × Search :=
  let (s1, ls) := s.activateLooks tags (fun l => l.active false) (if f.split then f.first else 0) 128 f.looks
  let ls1 := ls.map (fun l =>
    if descChain l.desc && l.status.isNone then
      match ls[descSrc l.desc]? with
      | some src => s.chainView f.req.record (f.mode == 3) src l
      | none => l
    else l)
  (s1, { f with looks := ls1, activated := true })

/-- The activation of a chained lookup at d + 512 (R209). -/
def State.activateChain (s : State) (tags : List TagFault) (f : Search) : State × Search :=
  let (s1, ls) := s.activateLooks tags (fun l => l.active true && l.frontDone) 0 128 f.looks
  (s1, { f with looks := ls, chainActivated := true })

/-- An action on every flight, in dispatch order. -/
def State.overFlights (s : State) (p : Search → Bool) (act : State → Search → State × Search) : State :=
  let r := s.search.flights.foldl (fun (acc : State × List Search) f =>
    if p f then
      let y := act acc.1 f
      (y.1, acc.2 ++ [y.2])
    else (acc.1, acc.2 ++ [f])) (s, [])
  { r.1 with search := { r.1.search with flights := r.2 } }

/-- The stroke of a flight's dispatch and an offset have been reached. -/
def Search.reached (f : Search) (now off : Nat) : Bool :=
  match f.d with
  | some d => d + off ≤ now
  | none => false

/-- An action on every ring record in the queue, in order. -/
def State.overRing (s : State) (p : RingRec → Bool) (act : State → RingRec → State × RingRec) : State :=
  let r := s.ring.queue.foldl (fun (acc : State × List RingRec) f =>
    if p f then
      let y := act acc.1 f
      (y.1, acc.2 ++ [y.2])
    else (acc.1, acc.2 ++ [f])) (s, [])
  { r.1 with ring := { r.1.ring with queue := r.2 } }

/-- The stroke of a ring record's dispatch and an offset have been reached. -/
def RingRec.reached (r : RingRec) (now off : Nat) : Bool :=
  match r.dispatched with
  | some d => d + off ≤ now
  | none => false

/-- The activation of a ring record (R498). -/
def State.activateRing (s : State) (tags : List TagFault) (r : RingRec) : State × RingRec :=
  match r.df with
  | none => (s, { r with activated := true })
  | some d =>
    let acts := s.activations r.m3 r.banks
    let w := s.winners r.m3 d r.key tags acts (none, none)
    (s.tagFaults (acts.map (fun a => a.2)) tags, { r with winner := w.1, mirror := w.2, activated := true })

/-- ACTIVATION (R28, R209, R498): the searches, chained lookups and ring records whose stroke has come. -/
def execActivation (t : Nat) (tags : List TagFault) (s : State) : Res :=
  let s0 := s.at t
  let now := s0.now
  let sh := s0.overFlights (fun f => f.split && !f.half && f.reached now 256) (fun x f => x.activateHalf tags f)
  let s1 := sh.overFlights (fun f => !f.activated && f.reached now (if f.split then 257 else 256)) (fun x f => x.activateSearch tags f)
  let s2 := s1.overFlights (fun f => f.resolved && !f.chainActivated && f.reached now 512) (fun x f => x.activateChain tags f)
  .next (s2.overRing (fun r => !r.activated && r.reached now 256) (fun x r => x.activateRing tags r)).settle

/-- The hot-store tag of an entry in force in a grid tide names a line (R203). -/
def State.hotIn (s : State) (len tide : Nat) : Bool :=
  match s.hot.tags.find len with
  | some g => g.validFrom ≤ tide && (match g.clearFrom with
    | some c => tide < c
    | none => true)
  | none => false

/-- A stamp and an increment fall due (R202). -/
def State.hitUpdate (s : State) (c : Cand) (due : Nat) : State :=
  { s with counters := { s.counters with updates := queueUpdate ⟨c.len, c.gen, due⟩ s.counters.updates } }

/-- A ternary lookup has its winner (R202 to R206): its update falls due, and its data is read from the hot store or from DRAM. `base`
is the stroke from which its stages count. -/
def State.winLook (s : State) (noAd : Bool) (base : Nat) (df : TableDef) (l : Look) (c : Cand) : State × Look :=
  let s1 := s.hitUpdate c (base + 351)
  let hot := df.hot != 2 && s.hotIn c.len ((base + 320) / 256)
  if noAd || df.adBytes == 0 then (s1, { l with status := some 0, pre := if hot then some 0 else none })
  else if hot then (s1.warm c.len, { l with status := some 0, pre := some 0, data := (s.adFor c.len l.view).take df.adBytes })
  else
    let s2 := s1.rtIssue (adAddr c.len) 32
    (if df.hot = 0 then s2.countRealTime c.len else s2, { l with reading := true, pre := none })

/-- The two copies disagree (R212). -/
def disagrees (a b : Option Cand) : Bool :=
  match a, b with
  | none, none => false
  | some x, some y => !(x.len == y.len && x.gen == y.gen)
  | _, _ => true

/-- MIRROR_DISAGREE and the priority queue (R215, R289): `w` is the lookup's winner, where it has one. -/
def State.reportDisagree (s : State) (df : TableDef) (p m w : Option Cand) (status : Nat) : State :=
  let cs := p.toList ++ m.toList
  let s1 := s.each cs (fun x c =>
    (x.queuePrio c.bank (lineOf df.units c.row) false).queuePrio (partnerBank c.bank) (lineOf df.units c.row) false)
  let at_ := match w with
    | some c => some c
    | none => cs.head?
  s1.integrity (if status = 3 then 3 else 0) 0x09 ((at_.map (fun c => c.bank)).getD 0) ((at_.map (fun c => c.row)).getD 0) 0
    (b2n (w.isSome && w == m && w != p)) 0 (match w with
      | some c => s1.handle c.gen c.len
      | none => 0) df.tid status

/-- What the validation of a winner reads (R213), with the lengths: its array-shadow units, its metadata line and its data. -/
def State.validReads (s : State) (df : TableDef) (c : Cand) (data : Bool) : List (Nat × Nat) :=
  let home := s.shadowBank c.bank c.row
  [(shadowAddr (home * 32768 + df.units * c.row), 20 * df.units), (metaAddr c.len, 16)] ++ (if data then [(adAddr c.len, 32)] else [])

/-- The reads that validate the winners of a disagreeing lookup. -/
def State.lookReads (s : State) (df : TableDef) (l : Look) : List (Nat × Nat) :=
  (l.winner.toList ++ l.mirror.toList).flatMap (fun c => s.validReads df c l.reading)

/-- A ring search record (R490). -/
def ringRecord (look origin tid berth epoch status width ad nodata tag best keyHi keyLo present : Nat) (data key : Bytes) : Bytes :=
  [0x18, BitVec.ofNat 8 (look + 4 * origin)] ++ leBytes tid 2 ++ leBytes berth 2 ++ [BitVec.ofNat 8 epoch,
    BitVec.ofNat 8 (status + 16 * width + 32 * ad + 128 * nodata)] ++ leBytes tag 4 ++ leBytes best 4 ++ leBytes keyHi 4 ++
    leBytes keyLo 4 ++ [BitVec.ofNat 8 present] ++ zeros 3 ++ (data ++ zeros (16 - data.length)) ++ (key ++ zeros (20 - key.length))

/-- The data that a member gives for its slice's winner (R491, R492): from the hot store, else none. -/
def State.sliceData (s : State) (df : TableDef) (c : Cand) (noAd : Bool) (base view : Nat) : State × Option Bytes :=
  if noAd || df.adBytes == 0 then (s, some [])
  else if s.hotIn c.len ((base + 320) / 256) then (s.warm c.len, some ((s.adFor c.len view).take df.adBytes))
  else (s, none)

/-- The origin's own part of a ring-spanning lookup, and its launch (R491, R495, R496). -/
def State.resolveSpan (s : State) (f : Search) (d i : Nat) (df : TableDef) (l : Look) : State × Look :=
  let odd := disagrees l.winner l.mirror
  let rec_ := f.req.record
  let noAd := reqNoAd rec_
  let (s1, status, best) : State × Nat × Option (Cand × Option Bytes) :=
    if odd then (s.reportDisagree df l.winner l.mirror none 3, 3, none)
    else match l.winner with
      | none => (s, 0, none)
      | some c =>
        let (x, data) := (s.hitUpdate c (d + 351)).sliceData df c noAd d l.view
        (x, 0, some (c, data))
  let me := s.member
  let key := ((rec_.drop 16).drop (descOff l.desc)).take (10 * df.units)
  let own := match best with
    | some (c, data) => ringRecord i me df.tid (reqBerth rec_) f.epoch status df.width df.adSize (b2n data.isNone) s.ring.nextTag
        (s.handle c.gen c.len) (if df.cls = 0 then c.keyHi else 0) c.keyLo (2 ^ me) (data.getD []) key
    | none => ringRecord i me df.tid (reqBerth rec_) f.epoch status df.width df.adSize 0 s.ring.nextTag 0 0 0 (2 ^ me) [] key
  let x : Launch := ⟨s.ring.nextTag, f.id, i, own, none, d + 360, s.ring.solo⟩
  ({ s1 with ring := { s1.ring with launches := s1.ring.launches ++ [x], nextTag := (s.ring.nextTag + 1) % 2 ^ 32 } }, l)

/-- One lookup is resolved (R201, R202, R207, R212, R295). -/
def State.resolveLook (s : State) (f : Search) (d base i : Nat) (l : Look) : State × Look :=
  match l.df with
  | none => (s, l)
  | some df =>
    if df.direct then (s, { l with status := l.pre })
    else if df.ringSpan then s.resolveSpan f d i df l
    else if disagrees l.winner l.mirror then
      let l1 := { l with disagree := true, reading := !(reqNoAd f.req.record || df.adBytes == 0) }
      let s1 := s.each (s.lookReads df l1) (fun x a => x.rtIssue a.1 a.2)
      (if l1.reading && df.hot = 0 then s1.each (l.winner.toList ++ l.mirror.toList) (fun x c => x.countRealTime c.len) else s1, l1)
    else match l.winner with
      | some c => s.winLook (reqNoAd f.req.record) base df l c
      | none =>
        let s1 := if df.learn then s.learnNotice
            ⟨f.req.master, df.tid, df.units, l.key, reqBerth f.req.record, fieldLE f.req.record 5 3, i, descChain l.desc⟩ else s
        (s1, { l with status := some 1 })

/-- One lookup of a flight is changed. -/
def State.setLook (s : State) (id i : Nat) (l : Look) : State :=
  { s with search := { s.search with flights := s.search.flights.map (fun f =>
      if f.id = id then { f with looks := (List.range f.looks.length).filterMap (fun j =>
        (f.looks[j]?).map (fun x => if j = i then l else x)) } else f) } }

/-- A lookup that is to be resolved: its resolution stroke, pipe and index, which order it (R298), and its search. -/
structure Resolving where
  stroke : Nat
  pipe : Nat
  look : Nat
  id : Nat
deriving DecidableEq, Repr

/-- The order of resolutions (R298): by stroke, then by pipe, then by lookup index; then by dispatch, the earlier search first. -/
def insertResolving (x : Resolving) : List Resolving → List Resolving
  | [] => [x]
  | y :: ys =>
    if y.stroke < x.stroke || (y.stroke == x.stroke && (y.pipe < x.pipe || (y.pipe == x.pipe &&
        (y.look < x.look || (y.look == x.look && y.id < x.id))))) then y :: insertResolving x ys
    else x :: y :: ys

/-- A search is to be resolved: at d + 351, or its chained lookup at d + 607 (R209). -/
def Search.resolves (f : Search) (now : Nat) (chained : Bool) : Bool :=
  if chained then f.resolved && f.chainActivated && !f.chainResolved && f.reached now 607
  else f.activated && !f.resolved && f.reached now 351

/-- The lookups of a search that are to be resolved. -/
def Search.resolving (f : Search) (now : Nat) (chained : Bool) : List Resolving :=
  if f.resolves now chained then
    (List.range f.looks.length).filterMap (fun i => (f.looks[i]?).bind (fun l =>
      if descChain l.desc == chained && l.status.isNone && l.df.isSome && (!chained || l.frontDone)
      then some (Resolving.mk (f.d.getD 0 + (if chained then 607 else 351)) f.pipe i f.id) else none))
  else []

/-- One lookup in flight is resolved. -/
def State.resolveOne (s : State) (x : Resolving) : State :=
  match s.search.flights.find? (fun f => f.id == x.id) with
  | none => s
  | some f =>
    match f.looks[x.look]? with
    | none => s
    | some l =>
      let d := f.d.getD 0
      let y := s.resolveLook f d (if descChain l.desc then d + 256 else d) x.look l
      y.1.setLook x.id x.look y.2

/-- The lookups of every search whose resolution stroke has come are resolved, in the order of R298. -/
def State.resolveAll (s : State) (now : Nat) : State :=
  let due := s.search.flights.flatMap (fun f => f.resolving now true ++ f.resolving now false)
  let s1 := s.each (due.foldr insertResolving []) State.resolveOne
  { s1 with search := { s1.search with flights := s1.search.flights.map (fun f =>
      { f with
        resolved := f.resolved || f.resolves now false
        chainResolved := f.chainResolved || f.resolves now true }) } }

/-- `ring_precedes` (R489): the order of `precedes`, then the lower member. Triples of rank, sequence and handle. -/
def ringPrecedes (cls : Nat) (a b : Nat × Nat × Nat) : Bool :=
  if precedes cls a b then true
  else if precedes cls b a then false
  else a.2.2 / 2 ^ 29 < b.2.2 / 2 ^ 29

/-- A ring record is resolved against this member's slice (R492, R496). -/
def State.resolveRing (s : State) (r : RingRec) : State × RingRec :=
  match r.df, r.dispatched with
  | some df, some d =>
    let me := s.member
    let done := fun (x : State) (bs : Bytes) =>
      (x.bump Fld.RNG_COUNT0_searched, { r with bytes := setByte bs 24 (byteAt bs 24 ||| 2 ^ me), resolved := true })
    if disagrees r.winner r.mirror then
      done ((s.reportDisagree df r.winner r.mirror none 3).bump Fld.ARY_INTEG_COUNT2_suspect) (ringStatus r.bytes 3)
    else match r.winner with
      | none => done s r.bytes
      | some c =>
        let s1 := s.hitUpdate c (d + 351)
        let h := s.handle c.gen c.len
        let hi := if df.cls = 0 then c.keyHi else 0
        let best := fieldLE r.bytes 12 4
        if best = 0 || ringPrecedes df.cls (hi, c.keyLo, h) (fieldLE r.bytes 16 4, fieldLE r.bytes 20 4, best) then
          let (s2, data) := s1.sliceData df c false d (d / 256)
          let b7 := byteAt r.bytes 7 % 128 + 128 * b2n data.isNone
          let body := data.getD []
          done s2 ((setByte r.bytes 7 b7).take 12 ++ leBytes h 4 ++ leBytes hi 4 ++ leBytes c.keyLo 4 ++ (r.bytes.drop 24).take 4 ++
            body ++ zeros (16 - body.length) ++ r.bytes.drop 44)
        else done s1 r.bytes
  | _, _ => (s, { r with resolved := true })

/-- RESOLUTION (R201): the searches at d + 351 and the chained lookups at d + 607 (R298), and the ring records. -/
def execResolution (t : Nat) (s : State) : Res :=
  let s0 := s.at t
  .next ((s0.resolveAll s0.now).overRing (fun r => r.activated && !r.resolved && r.reached s0.now 351) State.resolveRing).settle

/-- The last stroke of the data window, from the dispatch stroke (R209, R218, R219). -/
def windowEnd (mode : Nat) : Nat := if mode = 7 then 1631 else 1119

/-- REAL_TIME_READ_RETURN (R203, R204, R549): the read of one lookup returns, between the stroke in which it is issued and the end of its
window. -/
def execRealTimeReadReturn (t search look : Nat) (how : DramRead) (s : State) : Res :=
  let s0 := s.at t
  let s1 := match s0.search.flights.find? (fun f => f.id == search) with
    | none => s0
    | some f =>
      match f.looks[look]?, f.d with
      | some l, some d =>
        match l.winner, l.df with
        | some c, some df =>
          if !l.reading || l.disagree || d + windowEnd f.mode < s0.now || s0.now < d + (if descChain l.desc then 608 else 352) then s0
          else
            let a := adAddr c.len
            let bad := s0.readEnd a how == DramEnd.uncorrectable
            let l1 := if bad then { l with reading := false, status := some 4 }
              else { l with reading := false, status := some 0, data := (s0.adFor c.len l.view).take df.adBytes }
            ((s0.countRead a how).rtReturn a 32).setLook search look l1
        | _, _ => s0
      | _, _ => s0
  .next s1.settle

/-- A read that is still out when its window ends (R204, R219): DATA_LATE. -/
def State.lateLook (s : State) (l : Look) : State × Look :=
  if l.reading && !l.disagree then
    (match l.winner with
     | some c => s.rtReturn (adAddr c.len) 32
     | none => s, { l with reading := false, status := some 4 })
  else (s, l)

/-- The reads of a search that are out at the end of the window. -/
def State.lateSearch (s : State) (f : Search) : State × Search :=
  let r := f.looks.foldl (fun (acc : State × List Look) l =>
    let y := acc.1.lateLook l
    (y.1, acc.2 ++ [y.2])) (s, [])
  (r.1, { f with looks := r.2 })

/-- DATA_LATE (R204): after the last stroke of the data window. -/
def execDataLate (t : Nat) (s : State) : Res :=
  let s0 := s.at t
  .next (s0.overFlights (fun f => f.resolved && f.assembled.isNone && f.reached s0.now (windowEnd f.mode + 1)) State.lateSearch).settle

/-- The chained lookup is decided, or goes on (R211). -/
def State.chainFront (s : State) (f : Search) (l src : Look) : State × Look :=
  let ternary := match src.df with
    | some d => !d.direct
    | none => false
  let has := if ternary then src.winner.isSome || src.mirror.isSome else src.pre == some 0
  let ok := match src.status with
    | none => true
    | some x => x == 0 || x == 2 || x == 4
  let ends := fun (st : Nat) => { l with status := some st, tid := 0, df := none }
  if src.df.isNone || !ok || !has then (s, ends 1)
  else if src.disagree then (s, ends 3)
  else match src.df with
    | none => (s, l)
    | some d =>
      if ternary && d.adBytes == 0 then (s, ends 0xB)
      else if ternary && src.pre != some 0 then (s, ends 4)
      else
        match l.df, l.pre with
        | none, some 8 => (s.violation f.req.master 1 0, { l with status := some 8 })
        | none, some x => (s, { l with status := some x })
        | none, none => (s, { l with status := some 1 })
        | some _, _ => (s, { l with frontDone := true })

/-- The chained lookup of a search at d + 360. -/
def State.chainSearch (s : State) (f : Search) : State × Search :=
  let r := f.looks.foldl (fun (acc : State × List Look) l =>
    if descChain l.desc && l.status.isNone && !l.frontDone then
      match f.looks[descSrc l.desc]? with
      | some src =>
        let y := acc.1.chainFront f l src
        (y.1, acc.2 ++ [y.2])
      | none => (acc.1, acc.2 ++ [l])
    else (acc.1, acc.2 ++ [l])) (s, [])
  (r.1, { f with looks := r.2 })

/-- CHAINED_PIPE_FRONT (R211), at d + 360. -/
def execChainedPipeFront (t : Nat) (s : State) : Res :=
  let s0 := s.at t
  .next (s0.overFlights (fun f => f.resolved && f.status.isNone && f.assembled.isNone && f.reached s0.now 360) State.chainSearch).settle

/-- A winner of a disagreeing lookup validates (R213): its reads passed, its metadata line names a live entry of the table with its
generation, and its shadow matches the key. -/
def State.validates (s : State) (df : TableDef) (key : Digits) (pass : Bool) (home : Nat) (c : Cand) : Bool :=
  let (st, _, _, mt, mg, _, _) := s.metaOf c.len
  pass && st == 1 && mt == df.tid % 4096 && mg == c.gen &&
    (List.range df.units).all (fun j => (s.shadowUnit home (df.units * c.row + j)).hits (unitOf key j))

/-- A disagreeing lookup is decided (R214, R215). The shadow of a mirror copy is that of its primary row (R287). -/
def State.decideMirror (s : State) (d : Nat) (df : TableDef) (l : Look) (v : MirrorReads) : State × Look :=
  let valid := fun (pass : Bool) (c : Cand) => s.validates df l.key pass (s.shadowBank c.bank c.row) c
  let p := l.winner.filter (valid v.primaryPass)
  let m := l.mirror.filter (valid v.mirrorPass)
  let w := bestOf (candBefore df.cls) (p.toList ++ m.toList)
  let s0 := s.each (s.lookReads df l) (fun x a => x.rtReturn a.1 a.2)
  match w with
  | none => (s0.reportDisagree df l.winner l.mirror none 3, { l with status := some 3, winner := none, mirror := none, reading := false })
  | some c =>
    let data := !l.reading || (if w == p then v.primaryData else v.mirrorData)
    let st := if data then 2 else 4
    let s1 := (s0.reportDisagree df l.winner l.mirror w st).hitUpdate c (d + 1376)
    (s1, { l with
      status := some st
      winner := w
      mirror := w
      reading := false
      data := if data && l.reading then (s.adFor c.len l.view).take df.adBytes else [] })

/-- MIRROR_VALIDATION (R214), in the validation stage (R218). -/
def execMirrorValidation (t search look : Nat) (v : MirrorReads) (s : State) : Res :=
  let s0 := s.at t
  let s1 := match s0.search.flights.find? (fun f => f.id == search) with
    | none => s0
    | some f =>
      match f.looks[look]?, f.d with
      | some l, some d =>
        match l.df with
        | some df =>
          if l.disagree && l.status.isNone && d + 1120 ≤ s0.now && s0.now < d + 1376 then
            let (x, l1) := s0.decideMirror d df l v
            x.setLook search look l1
          else s0
        | none => s0
      | _, _ => s0
  .next s1.settle

/-- What an assembled lookup says: status, handle, data, and whether the data counts against a size. -/
structure Answer where
  status : Nat
  handle : Nat
  data : Bytes
deriving DecidableEq, Repr

/-- A ring-spanning lookup is decided (R494, R495), from the merged record or the origin's own. -/
def State.decideSpan (s : State) (f : Search) (i : Nat) (df : TableDef) : Answer :=
  match s.ring.launches.find? (fun x => x.search == f.id && x.look == i) with
  | none => ⟨1, 0, []⟩
  | some x =>
    let bs := x.merged.getD x.own
    let st := byteAt bs 7 % 16
    let best := fieldLE bs 12 4
    let data := if reqNoAd f.req.record then [] else ((bs.drop 28).take 16).take df.adBytes
    if st != 0 then ⟨st, 0, []⟩
    else if best != 0 && (byteAt bs 7).testBit 7 && !reqNoAd f.req.record then ⟨4, best, []⟩
    else if byteAt bs 24 != s.links.record.members then ⟨5, best, if best = 0 then [] else data⟩
    else if best != 0 then ⟨0, best, data⟩ else ⟨1, 0, []⟩

/-- The answer of one lookup (R214, R220, R222, R494). -/
def State.answer (s : State) (f : Search) (i : Nat) (l : Look) : Answer :=
  match l.status, l.df with
  | none, some df => if df.ringSpan then s.decideSpan f i df else ⟨1, 0, []⟩
  | none, none => ⟨1, 0, []⟩
  | some st, some df =>
    if df.direct then (if st ≤ 1 then ⟨st, l.index, if st = 0 then l.data else []⟩ else ⟨st, 0, []⟩)
    else ⟨st, match l.winner with
      | some c => s.handle c.gen c.len
      | none => 0, if st = 0 || st = 2 then l.data else []⟩
  | some st, none => ⟨st, 0, []⟩

/-- The code of a data size (R220). -/
def sizeCode (n : Nat) : Nat := if n = 0 then 0 else if n ≤ 8 then 1 else if n ≤ 16 then 2 else 3

/-- A lookup's table is direct-index. -/
def Look.direct (l : Look) : Bool :=
  match l.df with
  | some d => d.direct
  | none => tidDirect l.tid

/-- The result record of a search that ran (R220 to R225). -/
def State.resultOf (s : State) (f : Search) : Bytes :=
  let rec_ := f.req.record
  match f.status with
  | some st => wholeResult rec_ f.mode st
  | none =>
    let ans := (List.range f.looks.length).map (fun i => match f.looks[i]? with
      | some l => (l, s.answer f i l)
      | none => (Look.start 0 0, Answer.mk 1 0 []))
    if f.mode = 7 then
      resultM7 rec_ (ans.flatMap (fun (x : Look × Answer) =>
        let data := if x.2.status = 0 then x.2.data.take 16 else []
        entryM7 x.2.status (x.2.handle % 2 ^ 24) (x.2.status == 0 && x.2.data.length == 32) ++ data))
    else
      let top := (ans.map (fun (x : Look × Answer) => x.2.status)).foldl max 0
      resultRecord rec_ top ans.length f.ring (ans.flatMap (fun (x : Look × Answer) =>
        lookEntry x.2.status (sizeCode x.2.data.length) (descChain x.1.desc) x.1.direct x.1.tid x.2.handle ++ x.2.data))

/-- The stroke of assembly from dispatch (R216, R218). -/
def assemblyAt (f : Search) : Nat := (if f.mode = 3 then 1376 else if f.mode = 7 then 1632 else 1120) + f.extra

/-- What is still undecided when assembly begins (R204, R213, R214): reads that are out are late, and a disagreement whose reads have
not returned validates no winner. -/
def State.closeLooks (s : State) (f : Search) : State × Search :=
  let d := f.d.getD 0
  let r := f.looks.foldl (fun (acc : State × List Look) l =>
    match l.df with
    | some df =>
      let y := if l.disagree && l.status.isNone then acc.1.decideMirror d df l ⟨false, false, false, false⟩ else acc.1.lateLook l
      (y.1, acc.2 ++ [y.2])
    | none => (acc.1, acc.2 ++ [l])) (s, [])
  (r.1, { f with looks := r.2 })

/-- Every lookup of a search is decided, or will be from its ring record. -/
def Search.decided (f : Search) : Bool :=
  f.status.isSome || f.looks.all (fun l => l.status.isSome || (match l.df with
    | some d => d.ringSpan
    | none => false))

/-- The result of a search is built and placed in the release buffer (R218, R220), where its lookups in M3 that received CORRECTED or SUSPECT
are counted (ARY_INTEG_COUNT2); its ring lookups end (R495). -/
def State.assembleSearch (s : State) (f : Search) : State × Search :=
  let (s1, g) := s.closeLooks f
  if !g.decided then (s1, g)
  else
    let bytes := s1.resultOf g
    let partials := ((List.range g.looks.length).filter (fun i => match g.looks[i]? with
      | some l => g.status.isNone && l.status.isNone && (s1.answer g i l).status == 5
      | none => false)).length
    let given := fun (st : Nat) => if g.mode != 3 || g.status.isSome then 0 else
      ((List.range g.looks.length).filter (fun i => match g.looks[i]? with
        | some l => (s1.answer g i l).status == st
        | none => false)).length
    let count := fun (x : State) (f : Fld) (n : Nat) => if n = 0 then x else x.bump f n
    let s2 := count (count (count s1 Fld.RNG_COUNT1_partial partials) Fld.ARY_INTEG_COUNT2_corrected (given 2))
      Fld.ARY_INTEG_COUNT2_suspect (given 3)
    ({ s2 with ring := { s2.ring with launches := s2.ring.launches.filter (fun x => x.search != f.id) } },
     { g with assembled := some bytes })

/-- ASSEMBLY (R220). A search that a check ended needs no earlier stage. -/
def execAssembly (t : Nat) (s : State) : Res :=
  let s0 := s.at t
  .next (s0.overFlights (fun f => f.assembled.isNone && (f.resolved || f.status.isSome) && f.reached s0.now (assemblyAt f))
    State.assembleSearch).settle

/-- The stroke in which a result's first bit leaves (R26, R127, R216). -/
def releaseAt (f : Search) : Nat := f.req.s0 + 256 * (modeParams f.mode).latency + f.extra

/-- Searches in the order in which their results leave: by stroke, then by pipe (R457). -/
def insertFlight (f : Search) : List Search → List Search
  | [] => [f]
  | g :: gs => if releaseAt g < releaseAt f || (releaseAt g = releaseAt f && g.pipe < f.pipe) then g :: insertFlight f gs else f :: g :: gs

/-- A result leaves (R26, R101, R392, R457, R465, R527). -/
def State.releaseResult (s : State) (f : Search) : State :=
  match f.assembled with
  | none => s
  | some bytes =>
    let s1 := { s with search := { s.search with flights := s.search.flights.filter (fun g => g.id != f.id) } }
    let s2 := s1.mirrorResult f.req bytes
    match f.req.src with
    | .quay q => s2.offerResult q bytes (quayCharge f.req.record).1 (quayCharge f.req.record).2
    | .hostRing _ => s2.ringReply f.req.reply (reserveOf f.req.record) bytes
    | .window _ => s2.ringReply f.req.reply (reserveOf f.req.record) bytes
    | .seed => s2

/-- RESULT_RELEASE (R26): every assembled result whose stroke has come. -/
def execResultRelease (t : Nat) (s : State) : Res :=
  let s0 := s.at t
  let out := (s0.search.flights.filter (fun f => f.assembled.isSome && releaseAt f ≤ s0.now)).foldr insertFlight []
  .next (s0.each out State.releaseResult).settle

end Sys2Proof.Machine
end

