-- ==== Sys2Proof/Machine/Timeouts.lean ====
section
/-! DEFINITION. The command completion timeout (R595 to R597), at the boundary that has just opened the tide. -/
namespace Sys2Proof.Machine

/-- Opcodes that take their own bounds at the head of a FIFO and after acceptance (R597): GLYPH_LOAD, LC_CHANGE, KEY_WRAP. -/
def ownBound (op : Nat) : Bool := op == 0x28 || op == 0x44 || op == 0x45

/-- The head of a FIFO that has waited 256 tides is removed with ABORTED (R595): its credit and its place return. -/
def State.headTimeout (s : State) (src : Source) : State :=
  match s.fifo src with
  | [] => s
  | c :: rest =>
    let due := match c.headTide with
      | some h => decide (h + 257 ≤ s.clock.grid)
      | none => false
    if !due || ownBound (cmdOp c.record) then s
    else
      let s1 := (s.setFifo src rest).releaseRecord src c.record
      (s1.replyTo src c.reply (reserveOf c.record) false (s1.completionBytes c.record 0x11 0 0 0 [])).abortFault c.master c.record

/-- COMMAND_HEAD_TIMEOUT (R595). -/
def execCommandHeadTimeout (src : Source) (s : State) : Res :=
  .next (if s.clock.stroke = 0 then s.headTimeout src else s).settle

/-- An accepted command is past its bound (R596, R597). An insertion has the bound of R247. -/
def State.overdue (s : State) (a : Accepted) : Bool :=
  let op := cmdOp a.record
  a.tide + 256 ≤ s.clock.grid && a.result.isNone && !ownBound op && op != 0x40 && op != 0x01

/-- An accepted command is aborted (R596): it carries its handle where its write was applied. A trace that it holds ends. -/
def State.abortAccepted (s : State) (a : Accepted) : State :=
  let s1 := { s with
    cmds := { s.cmds with accepted := s.cmds.accepted.filter (fun b => b.id != a.id) }
    observe := { s.observe with traces := s.observe.traces.filter (fun x => x.id != a.id) } }
  (s1.postCompletion a 0x11 (if a.applied then cmdHandle a.record else 0) 0 0 []).abortFault a.master a.record

/-- COMMAND_COMPLETION_TIMEOUT (R596): in the order of acceptance. -/
def execCommandCompletionTimeout (s : State) : Res :=
  .next (if s.clock.stroke = 0 then s.each (s.cmds.accepted.filter s.overdue) State.abortAccepted else s).settle

end Sys2Proof.Machine
end

