-- ==== Sys2Proof/Machine/Ring.lean ====
section
/-! DEFINITION. The ring (15_ring.md): ring search records at the origin and at a member, the census and its epochs, joining and
leaving. -/
namespace Sys2Proof.Machine

/-- A ring search record goes to the transmitter of the east port (R484, R486). With the port not UP it is lost (R495). -/
def State.sendEast (s : State) (bs : Bytes) : State :=
  let l := s.links.east
  if l.up then s.setLink .east { l with tx := l.tx ++ [⟨.secondary, bs, 0⟩] } else s

/-- The credit of a record received on the west port returns (R486). -/
def State.returnWest (s : State) : State := s.setLink .west (s.links.west.returnCredit 0 8)

/-- RING_RECORD_LAUNCH (R491): every lookup whose stroke d + 360 has come; in the solo epoch none is launched. -/
def execRingRecordLaunch (t : Nat) (s : State) : Res :=
  let s0 := s.at t
  let due := s0.ring.launches.filter (fun x => !x.sent && x.at_ ≤ s0.now)
  let s1 := { s0 with ring := { s0.ring with
    launches := s0.ring.launches.map (fun (x : Launch) => if x.at_ ≤ s0.now then { x with sent := true } else x) } }
  .next (s1.each due (fun x l => (x.sendEast l.own).bump Fld.RNG_COUNT0_launched)).settle

/-- This member's hop weight is 2 (R497). -/
def State.weighsTwo (s : State) : Bool := s.mode.mode == 6

/-- An epoch counts this member with the hop weight that it has now (R493). -/
def State.countsMe (s : State) (e : Epoch) : Bool :=
  e.present.testBit s.member && e.weight2.testBit s.member == s.weighsTwo

/-- A record is searchable here (R493); in Doze every record passes through (R585). -/
def State.searchable (s : State) (bs : Bytes) : Bool :=
  let e := byteAt bs 6
  if 2 ≤ s.power.state then false
  else if s.ring.epoch.number % 256 = e then s.countsMe s.ring.epoch
  else if s.ring.previous.number % 256 = e then s.countsMe s.ring.previous
  else false

/-- A member is counted in the epoch in force (R492, R504). -/
def State.counted (s : State) (m : Nat) : Bool := if s.ring.solo then m == s.member else s.ring.epoch.present.testBit m

/-- A launch whose assembly stage has passed its first stroke by a number of strokes (R495). -/
def State.pastMerge (s : State) (x : Launch) (by_ : Nat) : Bool :=
  x.merged.isNone && s.search.flights.any (fun f => f.id == x.search && f.reached s.now (assemblyAt f + by_))

/-- The origin merges a record that comes back by the first stroke of its assembly stage, or discards it as late (R494, R495). -/
def State.ringReturn (s : State) (bs : Bytes) : State :=
  let tag := fieldLE bs 8 4
  let fits (x : Launch) : Bool := x.tag == tag && x.sent && x.merged.isNone && !s.pastMerge x 1
  if s.ring.launches.any fits then
    { s with ring := { s.ring with launches := s.ring.launches.map (fun (x : Launch) =>
        if fits x then { x with merged := some bs } else x) } }.returnWest
  else ((s.bump Fld.RNG_COUNT1_late).raise Fld.RNG_STATUS_late).returnWest

/-- A ring search record is received on the west port (R492). -/
def State.ringReceive (s : State) (bs : Bytes) : State :=
  if byteAt bs 0 != 0x18 || bs.length != 64 || !s.ring.gatesOpen || !s.links.west.up then s
  else
    let s0 := s.idleWake
    let s1 := { s0 with power := { s0.power with accepted := true } }.setLink .west (s0.links.west.charge 0 8)
    let b := byteAt bs 1
    let origin := b / 4 % 8
    let hops := b / 32 % 8
    if origin = s.member then s1.ringReturn bs
    else if hops = 7 || !s1.counted origin then (s1.bump Fld.RNG_COUNT1_discarded).returnWest
    else
      let bs1 := setByte bs 1 (b + 32)
      let r : RingRec := ⟨bs1, s1.now, none, false, none, 0, [], false, none, none, false, false, none⟩
      if s1.searchable bs1 then { s1 with ring := { s1.ring with queue := s1.ring.queue ++ [r] } }
      else
        { s1 with ring := { s1.ring with
            queue := s1.ring.queue ++ [{ r with passThrough := true, sendAt := some (s1.now + 48) }] } }.bump Fld.RNG_COUNT1_passed

/-- RING_SEARCH_RECORD (R492). -/
def execRingSearchRecord (t : Nat) (rec : Bytes) (s : State) : Res := .next ((s.at t).ringReceive rec).settle

/-- A record of the queue is to be transmitted now (R492, R498). -/
def RingRec.ready (r : RingRec) (now : Nat) : Bool :=
  (match r.sendAt with
   | some k => decide (k ≤ now)
   | none => false) && (r.passThrough || r.df.isNone || r.resolved)

/-- RING_RECORD_FORWARD (R498): the records whose stroke has come, in order. -/
def execRingRecordForward (t : Nat) (s : State) : Res :=
  let s0 := s.at t
  let out := s0.ring.queue.filter (fun r => r.ready s0.now)
  let s1 := { s0 with ring := { s0.ring with queue := s0.ring.queue.filter (fun r => !r.ready s0.now) } }
  .next (s1.each out (fun x r => (x.sendEast r.bytes).returnWest)).settle

/-- RING_RECORD_LATE (R495): a record not merged by the first stroke of its assembly stage stands as the origin launched it. -/
def execRingRecordLate (t : Nat) (s : State) : Res :=
  let s0 := s.at t
  let late := fun (x : Launch) => s0.pastMerge x 0
  .next { s0 with ring := { s0.ring with
    launches := s0.ring.launches.map (fun x => if late x then { x with merged := some x.own } else x) } }.settle

/-- A CENSUS message (R500). -/
def censusMessage (commit force : Bool) (launcher epoch present weight2 : Nat) : Bytes :=
  [0x06, BitVec.ofNat 8 (b2n commit + 2 * b2n force + 4 * launcher)] ++ leBytes epoch 2 ++
    [BitVec.ofNat 8 present, BitVec.ofNat 8 weight2, 0, 0]

/-- A CENSUS message leaves on the east port. -/
def State.sendCensus (s : State) (m : Bytes) : State :=
  let l := s.links.east
  if l.up then s.setLink .east { l with ctl := l.ctl ++ [m] } else s

/-- Both ports are UP and the gates open (R501). -/
def State.inRing (s : State) : Bool := s.ring.gatesOpen && s.links.east.up && s.links.west.up

/-- The member counts itself in probes (R585): not in Doze, nor once an entry has cleared its bit (R582). -/
def State.counting (s : State) : Bool :=
  s.power.state ≤ 1 && (match s.power.entry with
    | some e => decide (e.step < 3)
    | none => true)

/-- This member's bits of a probe (R501): none while it leaves. -/
def State.ownBits (s : State) : Nat × Nat :=
  if s.inRing && s.ring.leaving.isNone && s.counting then (2 ^ s.member, if s.weighsTwo then 2 ^ s.member else 0) else (0, 0)

/-- A commit is launched (R502, R505, R510). -/
def State.launchCommit (s : State) (e : Epoch) : State :=
  { s with ring := { s.ring with commit := some e, lastCommit := some (e.number, s.member) } }.sendCensus
    (censusMessage true false s.member e.number e.present e.weight2)

/-- A probe is launched (R501, R503); a force probe starts the 4 tides of R503 again. -/
def State.launchProbe (s : State) (force : Bool) : State :=
  { s with ring := if force then { s.ring with forced := some s.clock.grid, lastCensus := s.clock.grid }
      else { s.ring with probe := some s.clock.grid } }.sendCensus
    (censusMessage false force s.member s.ring.epoch.number 0 0)

/-- This member is the leader (R501). -/
def State.leader (s : State) : Bool :=
  let p := if s.ring.solo then 2 ^ s.member else s.ring.epoch.present
  (List.range 8).find? (fun m => p.testBit m) == some s.member

/-- CENSUS_PROBE_LAUNCH (R501): at stroke 0 of a tide of even count. -/
def execCensusProbeLaunch (s : State) : Res :=
  .next (if s.clock.stroke = 0 && s.clock.count % 2 = 0 && s.ring.gatesOpen && s.leader then s.launchProbe false else s).settle

/-- `a` is later than `b` among epochs (R140 modulo 2^16, R503). -/
def epochLater (a b : Nat) : Bool :=
  let d := (a + 65536 - b % 65536) % 65536
  0 < d && d < 32768

/-- A probe comes back to its launcher (R502), which adds its own bits. -/
def State.probeReturn (s : State) (force : Bool) (present weight2 : Nat) : State :=
  let own := s.ownBits
  let p := present ||| own.1
  let w := weight2 ||| own.2
  let s1 := { s with ring := if force then { s.ring with forced := none } else { s.ring with probe := none } }
  if force || p != s.ring.epoch.present || w != s.ring.epoch.weight2
  then s1.launchCommit ⟨(s.ring.epoch.number + 1) % 65536, p, w⟩ else s1

/-- A commit of this member comes back (R502, R503): taken, unless its epoch is no longer later or a lower-numbered launcher has
committed the same number. -/
def State.commitReturn (s : State) (e : Epoch) : State :=
  match s.ring.commit with
  | some c =>
    if c.number != e.number then s
    else if epochLater e.number s.ring.epoch.number && s.ring.lastCommit == some (e.number, s.member) then
      { s with ring := { s.ring with epochNext := some e, commit := none } }
    else { s with ring := { s.ring with commit := none } }
  | none => s

/-- A commit that another member launched (R502, R503). -/
def State.commitSeen (s : State) (m : Bytes) (launcher : Nat) (e : Epoch) : State :=
  let beaten := match s.ring.lastCommit with
    | some (n, l) => n == e.number && l ≤ launcher
    | none => false
  if !epochLater e.number s.ring.epoch.number || beaten then s
  else
    { s with ring := { s.ring with epochNext := some e, lastCommit := some (e.number, launcher) } }.sendCensus m

/-- A CENSUS message arrives on the west port (R500 to R503). -/
def State.censusReceive (s : State) (m : Bytes) : State :=
  if byteAt m 0 != 6 || !s.ring.gatesOpen || !s.links.west.up then s
  else
    let b := byteAt m 1
    let launcher := b / 4 % 8
    let e : Epoch := ⟨fieldLE m 2 2, byteAt m 4, byteAt m 5⟩
    let s1 := { s with ring := { s.ring with lastCensus := s.clock.grid } }
    if b.testBit 0 then
      if launcher = s1.member then s1.commitReturn e
      else s1.commitSeen m launcher e
    else if launcher = s1.member then s1.probeReturn (b.testBit 1) e.present e.weight2
    else if (s1.ring.probe.isSome || s1.ring.forced.isSome) && s1.member < launcher then s1
    else
      let own := s1.ownBits
      s1.sendCensus (censusMessage false (b.testBit 1) launcher e.number (e.present ||| own.1) (e.weight2 ||| own.2))

/-- CENSUS (R500). -/
def execCensus (t : Nat) (msg : Bytes) (s : State) : Res := .next ((s.at t).censusReceive msg).settle

/-- CENSUS_TIMEOUT (R503): a force probe after 4 tides without a CENSUS message. -/
def execCensusTimeout (t : Nat) (s : State) : Res :=
  let s0 := s.at t
  .next (if !s0.ring.gatesOpen || s0.clock.grid < s0.ring.lastCensus + 4 || s0.ring.forced.isSome then s0
    else ((s0.raise Fld.RNG_STATUS_census_timeout).faultEvent 0x07 1 0x9 s0.member s0.ring.epoch.number 0).launchProbe true).settle

/-- FORCE_PROBE_TIMEOUT (R504): the solo epoch at the next boundary. -/
def execForceProbeTimeout (t : Nat) (s : State) : Res :=
  let s0 := s.at t
  .next (match s0.ring.forced with
    | some g => if g + 4 ≤ s0.clock.grid
        then { s0 with ring := { s0.ring with forced := none, soloNext := if s0.ring.solo then s0.ring.soloNext else some 3 } } else s0
    | none => s0).settle

/-- The masks of a solo epoch (R504): the member alone. -/
def State.aloneIn (s : State) (e : Epoch) : Epoch :=
  { e with present := 2 ^ s.member, weight2 := if s.weighsTwo then 2 ^ s.member else 0 }

/-- The epoch of a boundary (R502, R504, R646 rank 1): a commit taken, then the solo epoch entered. A commit that does not count a member
in its solo epoch gives that epoch its number and leaves it solo. -/
def State.epochTake (s : State) : State :=
  let s1 := match s.ring.epochNext with
    | some e =>
      let solo := s.ring.solo && !e.present.testBit s.member
      { s with ring := { s.ring with
          epoch := if solo then s.aloneIn e else e, previous := s.ring.epoch, epochNext := none, solo := solo } }.raise
        Fld.RNG_STATUS_epoch_changed
    | none => s
  match s1.ring.soloNext with
  | some cause =>
    let e : Epoch := s1.aloneIn s1.ring.epoch
    ({ s1 with ring := { s1.ring with
        epoch := e, previous := s1.ring.epoch, solo := true, soloNext := none } }.raise Fld.RNG_STATUS_solo_entered).faultEvent
      0x08 2 0x9 s1.member cause 0
  | none => s1

/-- The commit of a mode change, in stroke 0 of its turn tide (R129, R505): where the fixed latency or the hop weight changes. -/
def State.modeCommit (s : State) : State :=
  match s.mode.pending with
  | some m =>
    let differs := (modeParams m).latency != s.params.latency || (m == 6) != (s.mode.mode == 6)
    if s.turnTide && s.ring.gatesOpen && !s.ring.solo && differs then
      let w := setBit s.ring.epoch.weight2 s.member (m == 6)
      let e : Epoch := ⟨(s.ring.epoch.number + 1) % 65536, s.ring.epoch.present, w⟩
      let s1 := s.launchCommit e
      { s1 with ring := { s1.ring with epochNext := some e } }
    else s
  | none => s

/-- The member joins (R508, R509): its gates open and its ports train. -/
def State.joinRing (s : State) : State :=
  if !s.links.record.ringEnable || s.ring.joined then s
  else
    let s1 := { s with ring := { s.ring with joined := true, leaving := none, lastCensus := s.clock.grid } }.settleGates
    if s1.ring.gatesOpen then
      let up := fun (x : State) (p : Port) => if (x.link p).state == .off then
          (x.setLink p { x.link p with state := .down, since := x.now }).bringUp p else x
      up (up s1 .east) .west
    else s1

/-- The member begins to leave (R510): its commit clears its own bit. -/
def State.beginLeave (s : State) : State :=
  if !s.ring.joined || s.ring.leaving.isSome then s
  else
    let e := s.ring.epoch
    let s1 := s.launchCommit ⟨(e.number + 1) % 65536, setBit e.present s.member false, setBit e.weight2 s.member false⟩
    { s1 with ring := { s1.ring with leaving := some s.clock.grid } }

/-- A write of RNG_CTL (R509 to R511). -/
def State.writeRngCtl (s : State) (fn w mask : Nat) : State :=
  let off := Reg.RNG_CTL.offset
  if fn != 0 then s.logAccess fn off 2
  else if !s.served .RNG_CTL 0 then s.logAccess fn off 6
  else
    let s1 := (s.storeFields .RNG_CTL 0 w mask []).1
    let s2 := if Fld.RNG_CTL_join.get (w &&& mask) = 1 then s1.joinRing else s1
    if Fld.RNG_CTL_leave.get (w &&& mask) = 1 then s2.beginLeave else s2

/-- RNG_JOIN (R509). -/
def execRngJoin (t fn : Nat) (w : Word64) (s : State) : Res := .next ((s.at t).writeRngCtl fn w.toNat fullMask).settle

/-- RNG_LEAVE (R510). -/
def execRngLeave (t fn : Nat) (w : Word64) (s : State) : Res := .next ((s.at t).writeRngCtl fn w.toNat fullMask).settle

/-- The member has left (R510): the records of its ring queue pass through, and its gates close. -/
def State.endLeave (s : State) : State :=
  let s1 := s.each s.ring.queue (fun x r => ((x.sendEast r.bytes).returnWest).bump Fld.RNG_COUNT1_passed)
  let s2 := { s1 with ring := { s1.ring with
    queue := [], joined := false, leaving := none, probe := none, forced := none, commit := none } }.settleGates
  (s2.linkOff .east 4).linkOff .west 4

/-- LEAVE_COMPLETE (R510): the commit has come back, or 4 tides have passed. -/
def execLeaveComplete (t : Nat) (s : State) : Res :=
  let s0 := s.at t
  .next (match s0.ring.leaving with
    | some g => if s0.ring.commit.isNone || g + 4 ≤ s0.clock.grid then s0.endLeave else s0
    | none => s0).settle

end Sys2Proof.Machine
end

