-- ==== Sys2Proof/Machine/LinkRx.lean ====
section
/-! DEFINITION. The meanings of the link commands (14_quay_links.md; R486 for the ring ports): bring-up, frames, replay, retraining and
narrowing, and transmission. A lane operand is a physical lane of the port, but for LANE_BAD, whose lane is counted within the port. -/
namespace Sys2Proof.Machine

/-- 1 ms and 5 ms in strokes (R45, R46). -/
def strokesMs : Nat := 1500000
/-- 5 ms in strokes. -/
def strokes5Ms : Nat := 7500000

/-- A write of QUY_CTL (R474, R482, R483): enable, per-quay reset and retrain of the logical quay that QUY_SEL names. -/
def State.writeQuyCtl (s : State) (fn w mask : Nat) : State :=
  let q := s.fld Fld.QUY_SEL_lquay fn
  let off := Reg.QUY_CTL.offset
  let p := Port.quay q
  if fn != 0 then s.logAccess fn off 2
  else if !s.served .QUY_CTL q then s.logAccess fn off 6
  else
    let was := s.bit Fld.QUY_CTL_enable q
    let s1 := (s.storeFields .QUY_CTL q w mask []).1
    let on := s1.bit Fld.QUY_CTL_enable q
    if !s1.hasPort p then s1
    else
      let s2 := if was && !on then s1.linkOff p 4
        else if !was && on && (s1.link p).state == .off then (s1.setLink p { s1.link p with state := .down, since := s1.now }).bringUp p
        else s1
      let s3 := if Fld.QUY_CTL_reset.get (w &&& mask) = 1 then
          let l := s2.link p
          let s4 := s2.setLink p { l with lanes := l.lanes.map (fun x => { x with retired := false, retrains := 0 }) }
          let regs := ((s4.regs.del (Reg.QUY_ERR_COUNT.key q)).del (Reg.QUY_CORR_COUNT.key q)).del (Reg.QUY_RESULT_COUNT.key q)
          let s5 := { s4 with regs := regs }
          if l.state == .failed then (s5.setLink p { s5.link p with state := .down, since := s5.now }).bringUp p else s5.linkDown p 4
        else s2
      if Fld.QUY_CTL_retrain.get (w &&& mask) = 1 then s3.linkDown p 4 else s3

/-- QUY_ENABLE (R474). -/
def execQuyEnable (t fn : Nat) (w : Word64) (s : State) : Res := .next ((s.at t).writeQuyCtl fn w.toNat fullMask).settle

/-- QUY_RESET (R482). -/
def execQuyReset (t fn : Nat) (w : Word64) (s : State) : Res := .next ((s.at t).writeQuyCtl fn w.toNat fullMask).settle

/-- QUY_RETRAIN (R474). -/
def execQuyRetrain (t fn : Nat) (w : Word64) (s : State) : Res := .next ((s.at t).writeQuyCtl fn w.toNat fullMask).settle

/-- LANE_LOCK (R474): every lane of the width has locked in TRAIN. -/
def execLaneLock (t : Nat) (p : Port) (s : State) : Res :=
  let s0 := s.at t
  let l := s0.link p
  .next (if l.state == LinkState.train then
    let lanes := mapFrom (fun i (x : Lane) =>
      if l.lo ≤ i && i < l.lo + l.width then { x with locked := true, retraining := false } else x) 0 l.lanes
    s0.setLink p { l with state := .align, since := s0.now, lanes := lanes }
  else s0).settle

/-- The link takes a narrower block in TRAIN, or fails (R478, R479). -/
def State.trainNarrower (s : State) (p : Port) : State :=
  let l := s.link p
  match l.choose with
  | none => (s.setLink p { l with state := .down }).bringUp p
  | some (lo, w) =>
    let s1 := s.setLink p { l with lo := lo, width := w }
    if w < l.width then s1.raiseQuay p Fld.QUY_STATUS_narrowed else s1

/-- LANE_LOCK_TIMEOUT (R478): in TRAIN a lane that has not locked is retrained once, then retired; a retrain while UP that does not lock
retires the lane. -/
def execLaneLockTimeout (t : Nat) (p : Port) (lane : Nat) (s : State) : Res :=
  let s0 := s.at t
  let l := s0.link p
  let s1 := match l.lane lane with
    | none => s0
    | some x =>
      if x.retired || x.locked then s0
      else if l.state == LinkState.train then
        if x.retraining then
          if s0.now < x.since + strokes5Ms then s0 else (s0.retireLane p lane).trainNarrower p
        else if s0.now < l.since + strokes5Ms then s0
        else s0.setLink p (l.mapLane lane (fun y => y.retrain s0.now))
      else if l.up && x.retraining && x.since + strokes5Ms ≤ s0.now then s0.retireLane p lane
      else s0
  .next s1.settle

/-- CODEWORD_LOCK (R474): ALIGN leads to INIT. -/
def execCodewordLock (t : Nat) (p : Port) (s : State) : Res :=
  let s0 := s.at t
  let l := s0.link p
  .next (if l.state == .align then
    s0.setLink p { l with state := .initing, since := s0.now, initSent := true, doneSent := false, doneSeen := false }
  else s0).settle

/-- ALIGN_TIMEOUT (R474): no codeword lock within 1 ms. -/
def execAlignTimeout (t : Nat) (p : Port) (s : State) : Res :=
  let s0 := s.at t
  let l := s0.link p
  .next (if l.state == .align && l.since + strokesMs ≤ s0.now then s0.linkDown p 3 else s0).settle

/-- A port enters UP once INIT_DONE has been sent and received (R475, R476). -/
def State.initStep (s : State) (p : Port) : State :=
  let l := s.link p
  if l.state == .initing && l.doneSent && l.doneSeen then s.linkUp p else s

/-- INIT (R475): answered by INIT and INIT_DONE. -/
def execInit (t : Nat) (p : Port) (_width : Nat) (s : State) : Res :=
  let s0 := s.at t
  let l := s0.link p
  .next (if l.state == .initing then (s0.setLink p { l with doneSent := true }).initStep p else s0).settle

/-- INIT_DONE (R476). -/
def execInitDone (t : Nat) (p : Port) (s : State) : Res :=
  let s0 := s.at t
  let l := s0.link p
  .next (if l.state == .initing then (s0.setLink p { l with doneSeen := true }).initStep p else s0).settle

/-- INIT_TIMEOUT (R474): no INIT_DONE within 1 ms. -/
def execInitTimeout (t : Nat) (p : Port) (s : State) : Res :=
  let s0 := s.at t
  let l := s0.link p
  .next (if l.state == .initing && l.since + strokesMs ≤ s0.now then s0.linkDown p 3 else s0).settle

/-- The computed length of a record on a port (R455, R490). -/
def portLength (p : Port) (rec : Bytes) : Option Nat :=
  match p with
  | .quay _ => match recordLength rec with
    | some n => if n = 0 then none else some n
    | none => none
  | _ => if byteAt rec 0 = 0x18 then some 64 else none

/-- What the receiver holds while it delimits records (R455): the words of the record that runs, one that is whole and may still prove
too long, whether excess words follow a record already taken, and the records taken, each with whether its length is wrong. -/
structure Delimit where
  words : List Bytes
  whole : Option Bytes
  excess : Bool
  out : List (Bytes × Bool)
deriving DecidableEq, Repr

/-- A record that runs is closed by the next start (R455). -/
def Delimit.close (d : Delimit) : Delimit :=
  let o1 := match d.whole with
    | some r => d.out ++ [(r, d.excess)]
    | none => d.out
  let o2 := if d.words.isEmpty then o1 else o1 ++ [(d.words.flatten, true)]
  { words := [], whole := none, excess := false, out := o2 }

/-- One payload word, with its start bit (R455). -/
def Delimit.word (p : Port) (d : Delimit) (w : Bytes) (start : Bool) : Delimit :=
  let d1 := if start then d.close else d
  if start || !d1.words.isEmpty then
    let ws := d1.words ++ [w]
    let bytes := ws.flatten
    if portLength p bytes = some bytes.length then { d1 with words := [], whole := some bytes, excess := false }
    else { d1 with words := ws }
  else if d1.whole.isSome && !zerosAt w 0 8 then { d1 with excess := true }
  else d1

/-- What an accepted DATA frame gives (R454, R455): the words of the record that runs on, the records it ends with whether their length
is wrong, and the rec_type of a last record that only zero words follow. A record whose length its header does not give ends at a
frame without a start bit and with a zero payload. -/
def Link.delimit (p : Port) (l : Link) (frame : Bytes) : Link × List (Bytes × Bool) :=
  let starts := fieldLE frame 10 5 % 2 ^ 37
  let payload := (frame.drop 16).take 296
  let d0 : Delimit := ⟨l.partialRec, none, false, []⟩
  let blank := starts == 0 && zerosAt payload 0 296
  let d1 := if blank && (portLength p l.partialRec.flatten).isNone then d0.close
    else (List.range 37).foldl (fun d j => d.word p ((payload.drop (8 * j)).take 8) (starts.testBit j)) d0
  let (out, last) := match d1.whole with
    | some r => (d1.out ++ [(r, d1.excess)], if d1.excess then 0 else byteAt r 0)
    | none => (d1.out, 0)
  ({ l with partialRec := d1.words, afterRecord := if blank then 0 else last }, out)

/-- Words that are not zero stand before the first start bit of a frame, behind a record taken from an earlier frame (R455). -/
def Link.excess (l : Link) (frame : Bytes) : Bool :=
  let starts := fieldLE frame 10 5 % 2 ^ 37
  l.afterRecord != 0 && ((List.range 37).takeWhile (fun j => !starts.testBit j)).any (fun j => !zerosAt frame (16 + 8 * j) 8)

/-- The last item of a list that fits is changed. -/
def updateLast {α : Type} (fits : α → Bool) (f : α → α) (xs : List α) : List α := (updateFirst fits f xs.reverse).reverse

/-- The last record taken from a logical quay proves too long (R455): it is malformed while it still waits. -/
def State.spoilLast (s : State) (q typ : Nat) : State :=
  match typ with
  | 0x10 => { s with search := { s.search with
      waiting := updateLast (fun (r : Request) => r.src == .quay q) (fun r => { r with badLength := true }) s.search.waiting } }
  | 0x20 =>
    match (s.scribes.queue.filter (fun (c : Chunk) => c.src == .quay q)).getLast? with
    | some c =>
      ({ s with scribes := { s.scribes with queue := (s.scribes.queue.reverse.erase c).reverse } }).refuseChunk c.src c.reply 0 5 c.record
    | none => s
  | 0x30 => s.setFifo (.quay q) (updateLast (fun _ => true) (fun (c : Cmd) => { c with badLength := true }) (s.fifo (.quay q)))
  | _ => s

/-- A record of a port is taken: on a quay under R465 and R466, on the west port under R492. -/
def State.portRecord (s : State) (p : Port) (rec : Bytes) (bad : Bool) : State :=
  match p with
  | .quay q => s.quayRecord q rec bad
  | .west => if bad then s else s.ringReceive rec
  | .east => s

/-- A frame that passes (R458 to R461, R468): its ack, nak and climit, then its DATA. -/
def State.framePass (s : State) (p : Port) (f : Bytes) : State :=
  let l := s.link p
  let seq := fieldLE f 0 3
  let ack := fieldLE f 3 3
  let b := byteAt f 6
  let l1 := { l.acked ack with lastFrame := s.now, peerLimit := if b / 8 % 8 = 0 then fieldLE f 8 2 else l.peerLimit }
  let s1 := s.setLink p l1
  let ignored := match l1.replayFrom with
    | some (n, k) => n == ack && s.now < k + 512
    | none => false
  let s2 := if b.testBit 2 && !ignored then s1.replay p ack else s1
  let l2 := s2.link p
  if b % 4 != 1 || !l2.up then s2
  else if seq != l2.rxExpect then
    if frameBelow seq l2.rxExpect then s2.raiseQuay p Fld.QUY_STATUS_replay else s2.setLink p { l2 with nak := true }
  else
    let (l3, recs) := l2.delimit p f
    let s3 := s2.setLink p { l3 with rxExpect := (l2.rxExpect + 1) % 2 ^ 24, nak := false }
    let s4 := if l2.nak then s3.raiseQuay p Fld.QUY_STATUS_replay else s3
    let s5 := match p with
      | .quay q => if l2.excess f then s4.spoilLast q l2.afterRecord else s4
      | _ => s4
    s5.each recs (fun x r => x.portRecord p r.1 r.2)

/-- A frame that does not pass (R453, R459). -/
def State.frameFail (s : State) (p : Port) : State := s.setLink p { s.link p with nak := true }

/-- One frame of a codeword that decodes. -/
def State.frameIn (s : State) (p : Port) (f : Bytes) : State :=
  if f.length != 320 then s
  else if crc32 (f.take 316) = fieldLE f 316 4 then s.framePass p f
  else
    let s1 := match p with
      | .quay q => s.bump Fld.QUY_ERR_COUNT_crc_fail 1 q
      | _ => s
    s1.frameFail p

/-- The symbol errors that the code of R447 corrects in a codeword. -/
def correctable : Nat := 15

/-- FRAME_RECEIVE (R447, R452 to R461): the frames of one codeword, in which some number of symbols were received wrong, in INIT and UP.
Control messages have commands of their own. -/
def execFrameReceive (t : Nat) (p : Port) (errors : Nat) (frame : Bytes) (s : State) : Res :=
  let s0 := s.at t
  let l := s0.link p
  let s1 :=
    if !(l.up || l.state == .initing) then s0
    else if correctable < errors then
      (match p with
       | .quay q => s0.bump Fld.QUY_ERR_COUNT_uncorrectable 1 q
       | _ => s0).frameFail p
    else
      let s2 := match p with
        | .quay q => if errors = 0 then s0 else s0.bump Fld.QUY_CORR_COUNT_corrected errors q
        | _ => s0
      if frame.length = 640 then (s2.frameIn p (frame.take 320)).frameIn p (frame.drop 320) else s2.frameIn p frame
  .next s1.settle

/-- REPLAY_TIMEOUT (R461): the oldest frame has waited 512 strokes since its last transmission. -/
def execReplayTimeout (t : Nat) (p : Port) (s : State) : Res :=
  let s0 := s.at t
  .next (match (s0.link p).replay with
    | f :: _ => if (s0.link p).up && f.sentAt + 512 ≤ s0.now then s0.replay p f.seq else s0
    | [] => s0).settle

/-- LIVENESS_TIMEOUT (R480): no passing frame for 1 ms while UP. -/
def execLivenessTimeout (t : Nat) (p : Port) (s : State) : Res :=
  let s0 := s.at t
  let l := s0.link p
  .next (if l.up && l.lastFrame + strokesMs ≤ s0.now then s0.linkDown p 1 else s0).settle

/-- LANE_LOSS_OF_LOCK (R477). -/
def execLaneLossOfLock (t : Nat) (p : Port) (lane : Nat) (s : State) : Res := .next ((s.at t).narrow p lane).settle

/-- SER_LIMIT_EXCEEDED (R477). -/
def execSerLimitExceeded (t : Nat) (p : Port) (lane : Nat) (s : State) : Res := .next ((s.at t).narrow p lane).settle

/-- LANE_BAD (R477): the lane is counted within the port's current lanes (R448). -/
def execLaneBad (t : Nat) (p : Port) (lane : Nat) (s : State) : Res :=
  let s0 := s.at t
  .next (s0.narrow p ((s0.link p).laneBase + (s0.link p).lo + lane)).settle

/-- WIDTH_ACK (R475): the width change is confirmed. It applies from the codeword that its WIDTH names. -/
def execWidthAck (t : Nat) (p : Port) (s : State) : Res :=
  let s0 := s.at t
  let l := s0.link p
  .next (if l.up && l.widthTo.isSome then s0.setLink p { l with widthAcked := true } else s0).settle

/-- RETRAIN_LOCK (R478): the lane is back, and a WIDTH to the widest block of good lanes follows. -/
def execRetrainLock (t : Nat) (p : Port) (lane : Nat) (s : State) : Res :=
  let s0 := s.at t
  let l := s0.link p
  .next (match l.lane lane with
    | none => s0
    | some x =>
      if !l.up || !x.retraining || x.since + strokes5Ms < s0.now then s0
      else
        let l1 := l.mapLane lane (fun y => { y with locked := true, retraining := false })
        if l1.retraining then s0.setLink p l1
        else
          let l2 := l1.forceWidth
          match l2.choose with
          | some (lo, w) =>
            s0.setWidth p (if w = l2.width && lo = l2.lo then { l2 with widthTo := none, widthAcked := false }
              else { l2 with widthTo := some (lo, w, (l2.cwNum + 16) % 65536), widthAcked := false })
          | none => s0.setWidth p l2).settle

/-- FRAME_TRANSMIT (R449, R454, R465, R467): the records held for a port enter its buffer, and one codeword leaves. -/
def execFrameTransmit (t : Nat) (p : Port) (s : State) : Res := .next ((((s.at t).flushReports).flushTel).transmit p).settle

end Sys2Proof.Machine
end

