-- ==== Sys2Proof/Machine/Host.lean ====
section
/-! DEFINITION. The host interface (16_host_interface.md): doorbells, host rings, peer windows, resets of functions, the data link,
completion timeouts and host DMA (R43). -/
namespace Sys2Proof.Machine

/-- The host ring that a function's HST_RING_SEL selects (R519). -/
def State.ringSel (s : State) (fn : Nat) : Nat :=
  let n := s.fld Fld.HST_RING_SEL_ring fn
  if fn = 0 then n else 16 * fn + n % 16

/-- A doorbell is in range (R530): it moves no index backwards, and producer - consumer stays within the ring. -/
def State.doorbellOk (s : State) (r idx : Nat) : Bool :=
  let x := s.hostRing r
  let d := if s.ringKind r = 0 then idx + 2 ^ 32 - x.devIndex else x.devIndex + 2 ^ 32 - idx
  decide ((idx + 2 ^ 32 - x.hostIndex) % 2 ^ 32 < 2 ^ 31) && decide (d % 2 ^ 32 ≤ s.ringSize r)

/-- A doorbell write (R530, R531); it wakes a device in Idle (R579). -/
def State.doorbellTake (s0 : State) (fn slot : Nat) (data : Bytes) : State :=
  let s := s0.idleWake
  let r := 16 * fn + slot
  if data.length < 8 || 16 ≤ slot || !s.hasFunction fn || (s.function fn).flr || !s.host.linkUp || !s.ringActive r then s
  else
    let idx := fieldLE data 0 4
    let x := s.hostRing r
    if !s.doorbellOk r idx then s.ringError r 4
    else
      let arm := s.ringKind r != 0 && (byteAt data 4).testBit 0
      s.setRing r { x with hostIndex := idx, armed := if arm then some idx else x.armed }

/-- A doorbell write, held while an entry or a low state stops intake (R582). -/
def State.doorbellWrite (s : State) (fn slot : Nat) (data : Bytes) : State :=
  if s.intakeStopped && s.host.linkUp then
    { s with host := { s.host with heldDoorbells := s.host.heldDoorbells ++ [(fn, slot, data)] } }
  else s.doorbellTake fn slot data

/-- DOORBELL (R530, R531). -/
def execDoorbell (t fn slot : Nat) (data : Bytes) (s : State) : Res := .next ((s.at t).doorbellWrite fn slot data).settle

/-- A ring may be enabled (R519, R520): ring 0 only as a COMPLETE ring, a VF's own slots below rings_per_vf. -/
def State.mayEnable (s : State) (fn r : Nat) : Bool :=
  (r != 0 || s.ringKind 0 == 1) && (fn == 0 || r % 16 < s.host.pcie.ringsPerVf)

/-- A ring becomes DISABLED, its ERROR cause kept (R522). -/
def State.ringOff (s : State) (r : Nat) : State :=
  let c := (s.hostRing r).cause
  let s1 := s.ringDisable r
  s1.setRing r { s1.hostRing r with cause := c }

/-- A ring becomes ACTIVE with both indices 0 (R522). -/
def State.ringOn (s : State) (r : Nat) : State :=
  let x := s.hostRing r
  s.setRing r { HostRing.reset with state := .active, cause := x.cause, writes := x.writes, era := x.era }

/-- The fields of HST_RING_CTL that are fixed while en is 1 (R522, R629): pair, size_log2, vector, class, kind. -/
def ringFixed : List Nat := [48, 40, 32, 24, 16]

/-- A write of HST_RING_CTL (R522, R629). Reset comes before en, and leaves en 0 (notes/assumptions/40.md). -/
def State.writeRingCtl (s : State) (fn w mask : Nat) : State :=
  if !s.hasFunction fn then s
  else if !s.served .HST_RING_CTL 0 then s.logAccess fn Reg.HST_RING_CTL.offset 6
  else
    let r := s.ringSel fn
    let was := s.bit Fld.HST_RING_CTL_en r
    let en := if mask % 2 = 1 then w % 2 = 1 else was
    let x := s.storeFields .HST_RING_CTL r w (mask - mask % 2) (if was then ringFixed else [])
    let refused := en && !was && !x.1.mayEnable fn r
    let s3 := if x.2.2 then x.1.logAccess fn Reg.HST_RING_CTL.offset 4
      else if x.2.1 || refused then x.1.logAccess fn Reg.HST_RING_CTL.offset 5 else x.1
    if Fld.HST_RING_CTL_reset.get (w &&& mask) = 1 then (s3.ringDisable r).setFld Fld.HST_RING_CTL_en 0 r
    else if was && !en then (s3.ringOff r).setFld Fld.HST_RING_CTL_en 0 r
    else if en && !was && !refused then (s3.ringOn r).setFld Fld.HST_RING_CTL_en 1 r
    else s3

/-- HST_RING_ENABLE (R522). -/
def execHstRingEnable (t fn : Nat) (w : Word64) (s : State) : Res := .next ((s.at t).writeRingCtl fn w.toNat fullMask).settle

/-- HST_RING_RESET (R522). -/
def execHstRingReset (t fn : Nat) (w : Word64) (s : State) : Res := .next ((s.at t).writeRingCtl fn w.toNat fullMask).settle

/-- HOST_RING_WRITE (R527, R528, R531): the producers' buffers deliver what the rings can take, and the oldest record that waits for the
ring is written. -/
def execHostRingWrite (t ring : Nat) (s : State) : Res := .next ((((s.at t).flushReports).flushTel).ringWrite ring).settle

/-- A write of HST_WIN_CTL (R532). -/
def State.writeWinCtl (s : State) (fn w mask : Nat) : State :=
  s.goWrite fn w mask .HST_WIN_CTL 0 Fld.HST_WIN_CTL_commit (fun x => x.host.winPending) State.requestCommit

/-- HST_WIN_COMMIT (R532). -/
def execHstWinCommit (t fn : Nat) (w : Word64) (s : State) : Res := .next ((s.at t).writeWinCtl fn w.toNat fullMask).settle

/-- The commands of a function that wait in a FIFO and are not accepted are dropped unapplied, with the entries reserved for their
replies (R539). -/
def State.dropCommands (s : State) (f : Nat) : State :=
  { s with cmds := { s.cmds with fifos := s.cmds.fifos.map (fun p =>
      if 64 ≤ p.1 && p.1 < 9000 then (p.1, p.2.filter (fun c => c.master != f)) else p) } }

/-- The replies of a function that wait for its rings are discarded and counted (R539). -/
def State.dropReplies (s : State) (f : Nat) : State :=
  s.each ((List.range 16).map (fun i => 16 * f + i)) (fun t r =>
    let x := t.hostRing r
    let replies := x.writes.filter (fun w => match w.kind with
      | .reply _ => true
      | _ => false)
    let events := x.writes.filter (fun w => match w.kind with
      | .reply _ => false
      | _ => true)
    if replies.isEmpty then t
    else (t.setRing r { x with writes := events }).bumpHold Fld.HST_HOST_COUNT_flr_discarded replies.length)

/-- An FLR of one function begins (R539). -/
def State.flrBegin (s : State) (f : Nat) : State :=
  let s1 := (s.dropCommands f).dropReplies f
  s1.setFunction f { s1.function f with flr := true }

/-- The windows of a function start afresh (R536): their FIFOs are empty and the bytes freed count from 0. -/
def State.windowsFresh (s : State) (fns : Nat → Bool) : State :=
  { s with host := { s.host with windows := s.host.windows.map (fun p =>
      if fns p.2.active.fn then (p.1, { p.2 with held := 0, freed := 0 }) else p) } }

/-- An Initiate FLR write (R539): an FLR of the physical function clears VF Enable, and every VF undergoes the same. -/
def State.initiateFlr (s : State) (fn : Nat) : State :=
  if !s.hasFunction fn || !s.host.linkUp then s
  else if fn = 0 then
    let s1 := s.each (List.range (s.host.numVfs + 1)) State.flrBegin
    { s1 with host := { s1.host with numVfs := 0 } }
  else s.flrBegin fn

/-- FLR (R539). -/
def execFlr (t fn : Nat) (s : State) : Res := .next ((s.at t).initiateFlr fn).settle

/-- FLR_COMPLETE (R539): 10 ms after the FLR. -/
def execFlrComplete (fn : Nat) (s : State) : Res :=
  .next (if (s.function fn).flr then ((s.fnReset fn).windowsFresh (fun f => f == fn)).raise Fld.HST_STATUS_flr_seen
    else s).settle

/-- Every function in the state that the end of an FLR gives (R539): fetches, waiting commands and replies of the host go. -/
def State.hostFresh (s : State) : State :=
  let s1 := s.each (List.range (s.host.numVfs + 1)) (fun t f => (t.dropCommands f).dropReplies f)
  s1.hostReset.windowsFresh (fun _ => true)

/-- The data link goes down (R540): every ring DISABLED, the reads out abandoned without a report. -/
def State.dataLinkDown (s : State) : State :=
  if !s.host.linkUp then s
  else
    let s1 := s.each s.host.rings.keys State.ringOff
    { s1 with host := { s1.host with linkUp := false, gen := 0, width := 0, flit := false, abandoned := 0, heldWrites := [], heldDoorbells := [], heldTlps := [] } }.raise
      Fld.HST_STATUS_link_lost

/-- PERST_N_ASSERT (R539, R540): the PCIe domains are held in reset and the data link is down. -/
def execPerstNAssert (s : State) : Res :=
  let s1 := s.dataLinkDown.hostFresh.raise Fld.PWR_RESET_CAUSE_perst
  .next { s1 with power := { s1.power with pcieReset := true } }.settle

/-- HOT_RESET (R539). -/
def execHotReset (s : State) : Res :=
  .next (if s.host.linkUp then s.hostFresh.raise Fld.PWR_RESET_CAUSE_hot_reset else s).settle

/-- LINK_DOWN (R540). -/
def execLinkDown (s : State) : Res := .next s.dataLinkDown.settle

/-- The widths of a link by width_max of the PCIE record (R514). -/
def widthCeiling (code : Nat) : Nat := 16 / 2 ^ min code 4

/-- A rate, width and encoding that R512 and R513 support. -/
def linkSupported (gen width : Nat) (flit : Bool) : Bool :=
  1 ≤ gen && gen ≤ 6 && [1, 2, 4, 8, 16].contains width && (gen != 6 || (width ≤ 8 && flit)) && (!flit || 3 ≤ gen)

/-- The ceilings of the PCIE record, once Apply has configured PCIe (R107, R513, R514). -/
def State.linkAllowed (s : State) (gen width : Nat) (flit : Bool) : Bool :=
  let p := s.host.pcie
  linkSupported gen width flit && (!(s.serving || s.boot.applied) ||
    (gen ≤ p.genMax && width ≤ widthCeiling p.widthMax && (gen != 6 || p.widthMax != 0)))

/-- The PCIe domains have left reset: the main rails are valid and the ROM stage has ended (R576, R592). -/
def State.pcieRuns (s : State) : Bool :=
  s.boot.stage != 0 && s.boot.stage != 15 && s.power.railsValid && s.power.state < 3 && !s.power.tamperHold && !s.power.halted

/-- LINK_UP (R540): every function starts from the state at the end of an FLR. -/
def execLinkUp (gen width : Nat) (flit : Bool) (s : State) : Res :=
  .next (if s.pcieRuns && !s.host.linkUp && s.linkAllowed gen width flit then
    let s1 := s.hostFresh
    { s1 with
        host := { s1.host with linkUp := true, gen := gen, width := width, flit := flit }
        power := { s1.power with pcieReset := false } }
    else s).settle

/-- A read of the device times out (R538). -/
def State.timeoutRead (s : State) (fn kind ring : Nat) : State :=
  let s1 := (s.emit (.aer fn)).bump Fld.HST_CPL_COUNT_timeouts
  ({ s1 with host := { s1.host with abandoned := s1.host.abandoned + 1 } }).faultEvent 0x09 1 0xA fn kind ring

/-- A fetch of a SUBMIT ring is out: the ring is ACTIVE and holds entries not yet taken (R523). -/
def State.fetchOut (s : State) (r : Nat) : Bool :=
  s.host.linkUp && s.ringActive r && s.ringKind r == 0 && (s.hostRing r).posted != 0

/-- COMPLETION_TIMEOUT (R538). -/
def execCompletionTimeout (t : Nat) (rd : HostRead) (s : State) : Res :=
  let s0 := s.at t
  .next (match rd with
    | .ringFetch r => if s0.fetchOut r then (s0.timeoutRead (ringFn r) 1 r).ringError r 1 else s0
    | .flashProgram => if s0.host.flashBusy then
        let s1 := (s0.timeoutRead 0 2 0).setFld Fld.GLB_FLASH_PROG_CTL_result 3
        { s1 with host := { s1.host with flashBusy := false } } else s0
    | .dma fn => if s0.host.linkUp && s0.hasFunction fn then s0.timeoutRead fn 2 0 else s0).settle

/-- LATE_CPL (R538): discarded and counted. -/
def execLateCpl (t : Nat) (s : State) : Res :=
  let s0 := s.at t
  .next (if s0.host.abandoned = 0 then s0
    else ({ s0 with host := { s0.host with abandoned := s0.host.abandoned - 1 } }).bump Fld.HST_CPL_COUNT_late).settle

/-- UR_OR_CA_COMPLETION (R538). -/
def execUrOrCaCompletion (t ring : Nat) (s : State) : Res :=
  let s0 := s.at t
  .next (if s0.fetchOut ring then s0.ringError ring 3 else s0).settle

/-- HOST_DMA_ACCESS (R43): reads of the capture buffer and of the host DMA region, writes of the host DMA region; any other access is
dropped and counted. -/
def execHostDmaAccess (t : Nat) (write : Bool) (addr len : Nat) (data : Bytes) (s : State) : Res :=
  let s0 := s.at t
  let n := if write then data.length else len
  let low := if write then hostDmaAddr else captureAddr
  .next (if !s0.host.linkUp || !s0.clockRuns then s0
    else if addr < low || dramEnd < addr + n then s0.bump Fld.HST_DMA_REJECT_count
    else if write then s0.dramWrite addr data
    else s0.emit (.readData 0 (s0.dram.read addr len))).settle

/-- VF_ENABLE (R516): NumVFs is fixed while VF Enable is 1; clearing it takes every VF away. -/
def execVfEnable (enable : Bool) (numVfs : Nat) (s : State) : Res :=
  .next (if !s.host.linkUp || s.recovery then s
    else if enable then
      (if s.host.numVfs = 0 && numVfs ≤ s.host.pcie.totalVfs then { s with host := { s.host with numVfs := numVfs } } else s)
    else
      let fns := (List.range s.host.numVfs).map (fun i => i + 1)
      let s1 := s.each fns (fun t f => ((t.dropCommands f).dropReplies f).fnReset f)
      ({ s1 with host := { s1.host with numVfs := 0 } }).windowsFresh (fun f => fns.contains f)).settle

end Sys2Proof.Machine
end

