-- ==== Sys2Proof/Machine/Scribes.lean ====
section
/-! DEFINITION. Scribes and pattern streams (10_scribes.md): glyph sets, partitions, streams, chunks and their reports. -/
namespace Sys2Proof.Machine

/-- A glyph slot (R332). -/
def State.glyph (s : State) (set : Nat) : Glyph := s.scribes.glyphs.findD set Glyph.reset

/-- A glyph slot replaced. -/
def State.setGlyph (s : State) (set : Nat) (g : Glyph) : State :=
  { s with scribes := { s.scribes with glyphs := s.scribes.glyphs.put set g } }

/-- A scribe. -/
def State.scribe (s : State) (x : Nat) : Scribe := s.scribes.scribes.findD x Scribe.reset

/-- A scribe replaced. -/
def State.setScribe (s : State) (x : Nat) (v : Scribe) : State :=
  { s with scribes := { s.scribes with scribes := s.scribes.scribes.put x v } }

/-- Granules of a half in a mode (R334). -/
def halfGranules (mode : Nat) : Nat := if mode = 5 then 512 else 256

/-- The exponent of the partition of a hot image (R335); 9 where no partition is large enough. -/
def partitionLog2 (hot : Nat) : Nat := ((List.range 9).find? (fun k => hot ≤ 65536 * 2 ^ k)).getD 9

/-- Granules in use in a half. -/
def State.granulesUsed (s : State) (half : Nat) : Nat :=
  (s.scribes.glyphs.vals.filter (fun g => g.placed && g.half == half)).foldl (fun n g => n + 2 ^ g.partLog2) 0

/-- Granules free in a half (SCB_CACHE_STATUS). -/
def State.granulesFree (s : State) (half : Nat) : Nat := halfGranules s.mode.mode - s.granulesUsed half

/-- The half that has more free granules, half 0 where they are equal (R336). -/
def State.roomierHalf (s : State) : Nat := if s.granulesFree 0 < s.granulesFree 1 then 1 else 0

/-- The magic of a glyph image (R332): ALSRGLYF. -/
def glyphMagic : Bytes := [0x41, 0x4C, 0x53, 0x52, 0x47, 0x4C, 0x59, 0x46]

/-- The header of the image in a slot (R332). -/
def State.glyphHeader (s : State) (set : Nat) : Bytes := s.dram.read (glyphAddr set) 128

/-- The hot image of a set (R332). -/
def State.hotImage (s : State) (set : Nat) : Bytes :=
  s.dram.read (glyphAddr set + fieldLE (s.glyphHeader set) 20 4) (s.glyph set).hotBytes

/-- The admission checks (R333): 0 where all pass, else the number of the first that fails. `copied` is false where the copy ended
early (R593). -/
def State.admitCheck (s : State) (set : Nat) (copied : Bool) : Nat :=
  let h := s.glyphHeader set
  let g := s.glyph set
  let hot := fieldLE h 16 4
  let len := fieldLE h 24 4
  let log := partitionLog2 hot
  if !copied then 3
  else if h.take 8 != glyphMagic || fieldLE h 8 2 != 1 then 1
  else if fieldLE h 10 2 != 0x1280 then 2
  else if len != g.imageLen || 134217728 < len then 3
  else if len < fieldLE h 20 4 + hot || len ≤ fieldLE h 28 4 || 16 < byteAt h 15 then 4
  else if sha384 ((s.dram.read (glyphAddr set) len).drop 128) != (h.drop 32).take 48 then 5
  else if (match g.expected with
    | some d => decide (d ≠ (h.drop 32).take 48)
    | none => false) then 6
  else if 8 < log || (s.granulesFree 0 < 2 ^ log && s.granulesFree 1 < 2 ^ log) then 7
  else 0

/-- The stroke from which the loader of a half is free: it loads one partition at a time (R337). -/
def State.loaderFree (s : State) (half : Nat) : Nat :=
  (s.scribes.glyphs.vals.filter (fun g => g.half == half && (g.state == .reloading || (g.state == .loading && !g.copying)))).foldl
    (fun n g => max n g.loadEnd) s.now

/-- The load of a set's partition begins, at 256 bytes a stroke behind the loads of its half (R337). -/
def State.startLoad (s : State) (set : Nat) : State :=
  let g := s.glyph set
  s.setGlyph set { g with loadEnd := s.loaderFree g.half + (g.hotBytes + 255) / 256 }

/-- Admission of a loaded image (R333, R336, R340): on failure the slot is FAILED, a fault is posted and the load ends with
LOAD_ERROR; else the partition is placed and its load begins. -/
def State.admitImage (s : State) (set : Nat) (copied : Bool) : State :=
  let g := s.glyph set
  let h := s.glyphHeader set
  let code := s.admitCheck set copied
  if code = 0 then
    (s.setGlyph set { g with
      hotBytes := fieldLE h 16 4, patterns := fieldLE h 12 2, admitErr := 0, partLog2 := partitionLog2 (fieldLE h 16 4),
      half := s.roomierHalf, copying := false, loadEnd := 0 }).startLoad set
  else
    let s1 := ((s.setGlyph set { g with state := .failed, admitErr := code, copying := false, expected := none, command := none }).raise
      Fld.SCB_STATUS_admit_fail).faultEvent 0x0D 2 0x4 set code 0
    let s2 := match g.command with
      | some id => s1.setResult id (0x18, 0, 0, 0, leBytes code 8) s1.dueTide
      | none => s1
    if g.byRegister then s2.setFld Fld.SCB_GLYPH_CTL_result 3 else s2

/-- A set becomes usable at the boundary after its partition load (R336, R338), and the load's command ends with OK. -/
def State.glyphUsable (s : State) (set : Nat) : State :=
  let g := s.glyph set
  if g.state == .loading || g.state == .reloading then
    let s1 := (s.setGlyph set { g with state := .admitted, expected := none, command := none, byRegister := false }).raise
      Fld.SCB_STATUS_admitted
    let s2 := match g.command with
      | some id => s1.setResult id (0, 0, 0, 0, []) s1.clock.grid
      | none => s1
    if g.byRegister then s2.setFld Fld.SCB_GLYPH_CTL_result 0 else s2
  else s

/-- GLYPH_COPY_DONE (R333, R336). -/
def execGlyphCopyDone (t set : Nat) (s : State) : Res :=
  let s0 := s.at t
  let g := s0.glyph set
  .next (if g.state == .loading && g.copying then s0.admitImage set true else s0).settle

/-- PARTITION_LOAD_DONE (R336 to R339): once the strokes of the load have passed, the set becomes usable at the next boundary. -/
def execPartitionLoadDone (t set : Nat) (s : State) : Res :=
  let s0 := s.at t
  let g := s0.glyph set
  let waits := s0.due.any (fun d => d.change == Change.glyphReady set)
  .next (if (g.state == .reloading || (g.state == .loading && !g.copying)) && !waits && g.loadEnd ≤ s0.now then
    { s0 with due := s0.due ++ [⟨s0.clock.grid + 1, .glyphReady set⟩] } else s0).settle

/-- The sets that hold a partition, in decreasing order of size, ties by ascending number (R338). -/
def State.placedSets (s : State) : List Nat :=
  [8, 7, 6, 5, 4, 3, 2, 1, 0].flatMap (fun k =>
    (s.scribes.glyphs.filter (fun p => p.2.placed && p.2.partLog2 == k)).map (fun (p : Nat × Glyph) => p.1))

/-- A partition goes out of service, to be loaded again (R338, R339). -/
def Glyph.reload (g : Glyph) : Glyph := { g with state := if g.state == .admitted then .reloading else g.state, loadEnd := 0 }

/-- Each set of a list goes into the half with more free granules, from the granules used so far (R338). -/
def State.placeSets (s : State) : List Nat → Nat → Nat → State
  | [], _, _ => s
  | n :: rest, used0, used1 =>
    let g := s.glyph n
    let half := if used1 < used0 then 1 else 0
    let size := 2 ^ g.partLog2
    ((s.setGlyph n { g with half := half }).startLoad n).placeSets rest (if half = 0 then used0 + size else used0)
      (if half = 1 then used1 + size else used1)

/-- The loads that were about to make a set usable start again. -/
def State.cancelReady (s : State) (sets : List Nat) : State :=
  { s with due := s.due.filter (fun d => match d.change with
      | .glyphReady n => !sets.contains n
      | _ => true) }

/-- The change out of M5 (R135, R338). -/
def State.replacePartitions (s : State) : State :=
  ((s.cancelReady s.placedSets).each s.placedSets (fun t n => t.setGlyph n (t.glyph n).reload)).placeSets s.placedSets 0 0

/-- The partitions of a half are loaded again (R339). -/
def State.reloadHalf (s : State) (half : Nat) : State :=
  let sets := (s.scribes.glyphs.filter (fun p => p.2.placed && p.2.half == half)).map (fun (p : Nat × Glyph) => p.1)
  ((s.cancelReady sets).each sets (fun t n => t.setGlyph n (t.glyph n).reload)).each sets State.startLoad

/-- Streams of a set that are open (R343, SCB_SET_INFO.streams). -/
def State.setStreams (s : State) (set : Nat) : Nat := (s.scribes.streams.vals.filter (fun x => x.set == set)).length

/-- A slot that a load may not use (R341). -/
def State.setBusy (s : State) (set : Nat) : Bool :=
  let g := s.glyph set
  g.state == .loading || g.state == .admitted || g.state == .reloading

/-- The source range of a load lies in the host DMA region (R341). -/
def dmaRange (addr len : Nat) : Bool := hostDmaAddr ≤ addr && addr + len ≤ dramEnd

/-- The copy of an image into its slot begins (R341, notes/assumptions/8.md): of a longer image, what the slot holds. -/
def State.beginLoad (s : State) (set addr len : Nat) (expected : Option Bytes) (command : Option Nat) (byRegister : Bool) : State :=
  let n := min len 134217728
  let s1 := { s with dram := (s.dram.clear (glyphAddr set) 134217728).write (glyphAddr set) (s.dram.read addr n) }
  s1.setGlyph set ⟨.loading, len, 0, 0, 0, 0, 0, true, expected, command, byRegister, 0⟩

/-- A slot is emptied (R343). A load that still ran in it ends with LOAD_ERROR. -/
def State.emptySlot (s : State) (set : Nat) : State :=
  let g := s.glyph set
  let s1 := { s with scribes := { s.scribes with glyphs := s.scribes.glyphs.del set } }
  match g.command with
  | some id => s1.setResult id (0x18, 0, 0, 0, leBytes 3 8) s1.clock.grid
  | none => s1

/-- An unload waits for its boundary. -/
def State.unloading (s : State) (set : Nat) : Bool := s.due.any (fun d => d.change == Change.glyphUnload set)

/-- GLYPH_LOAD (R333, R341, R345, R597). -/
def execGlyphLoad (t : Nat) (src : Source) (s : State) : Res :=
  .next (s.atHead t src (fun op => op == 0x28) (fun s0 c =>
    let body := cmdBody c.record
    let set := cmdTid c.record
    let addr := fieldLE body 0 8
    let len := fieldLE body 8 4
    let form := body.length == 64 && set < 64 && zerosAt body 12 4 && dmaRange addr len
    s0.checked src c true false form .supervisor (fun _ => none) (fun s1 =>
      if s1.setBusy set then s1.refuse src c 0x16 0
      else
        let id := s1.acceptId
        let digest := if cmdAuthBit c.record then some ((body.drop 16).take 48) else none
        (s1.accept src c s1.clock.grid true none none).beginLoad set addr len digest (some id) false))).settle

/-- GLYPH_UNLOAD (R343). -/
def execGlyphUnload (t : Nat) (src : Source) (s : State) : Res :=
  .next (s.atHead t src (fun op => op == 0x29) (fun s0 c =>
    let set := cmdTid c.record
    s0.checked src c true false ((cmdBody c.record).isEmpty && set < 64) .supervisor (fun _ => none) (fun s1 =>
      if s1.setStreams set != 0 then s1.refuse src c 0x16 0
      else (s1.defer (.glyphUnload set)).acceptBoundary src c 0))).settle

/-- A load through SCB_GLYPH_CTL runs (SCB_GLYPH_CTL.busy). -/
def State.glyphBusy (s : State) : Bool := s.scribes.glyphs.vals.any (fun g => g.byRegister && g.state == .loading)

/-- The go of SCB_GLYPH_CTL (R341 to R343). -/
def State.glyphGo (s : State) : State :=
  let set := s.fld Fld.SCB_GLYPH_CTL_set
  let len := s.fld Fld.SCB_GLYPH_CTL_length
  let addr := s.fld Fld.SCB_GLYPH_ADDR_addr
  let result (n : Nat) : State := s.setFld Fld.SCB_GLYPH_CTL_result n
  match s.fld Fld.SCB_GLYPH_CTL_op with
  | 1 =>
    if !dmaRange addr len then result 2
    else if s.setBusy set then result 1
    else s.beginLoad set addr len none none true
  | 2 => if s.setStreams set != 0 then result 1 else (result 0).defer (.glyphUnload set)
  | _ => s

/-- A write of SCB_GLYPH_CTL (R342). -/
def State.writeGlyphCtl (s : State) (fn w mask : Nat) : State :=
  if s.holds .SCB_GLYPH_CTL then s.holdWrite fn .SCB_GLYPH_CTL w mask
  else if fn != 0 then
    let s1 := s.logAccess fn Reg.SCB_GLYPH_CTL.offset 2
    if Fld.SCB_GLYPH_CTL_go.get (w &&& mask) = 1 then s1.setFld Fld.SCB_GLYPH_CTL_result 7 else s1
  else
    s.goClosed fn w mask .SCB_GLYPH_CTL 0 Fld.SCB_GLYPH_CTL_go (fun x => x.setFld Fld.SCB_GLYPH_CTL_result 6) State.glyphBusy
      State.glyphGo

/-- SCB_GLYPH_LOAD (R341). -/
def execScbGlyphLoad (t fn : Nat) (w : Word64) (s : State) : Res := .next ((s.at t).writeGlyphCtl fn w.toNat fullMask).settle

/-- SCB_GLYPH_UNLOAD (R343). -/
def execScbGlyphUnload (t fn : Nat) (w : Word64) (s : State) : Res := .next ((s.at t).writeGlyphCtl fn w.toNat fullMask).settle

/-- The half of a scribe. -/
def scribeHalf (x : Nat) : Nat := x / 32

/-- The check of an offline request (R368): 0 where it passes. -/
def State.offlineCheck (s : State) (x : Nat) : Nat :=
  let others := (List.range 32).filter (fun i =>
    let y := 32 * scribeHalf x + i
    y != x && (s.scribe y).online && (s.scribe y).offlineAt.isNone)
  if !(s.scribe x).online then 2
  else if others.isEmpty && s.scribes.glyphs.vals.any (fun g => g.placed && g.half == scribeHalf x) then 1
  else 0

/-- An offline request is accepted (R367): the scribe goes offline at the boundary that ends the next tide. -/
def State.takeOffline (s : State) (x : Nat) : State :=
  let v := s.scribe x
  match v.offlineAt with
  | some _ => s
  | none => s.setScribe x { v with offlineAt := some (s.clock.grid + 2), onlineAt := none }

/-- An online request (R368): the scribe is reset, and is assignable from the boundary that R63 gives. -/
def State.takeOnline (s : State) (x : Nat) : State :=
  s.setScribe x { s.scribe x with offlineAt := none, onlineAt := some s.dueTide }

/-- The go of SCB_SCRIBE_CTL (R367, R368). -/
def State.scribeGo (s : State) : State :=
  let x := s.fld Fld.SCB_SCRIBE_CTL_scribe
  if s.domainDown (26 + x / 32) then s.logAccess 0 Reg.SCB_SCRIBE_CTL.offset 6
  else match s.fld Fld.SCB_SCRIBE_CTL_op with
  | 1 =>
    let r := s.offlineCheck x
    let s1 := s.setFld Fld.SCB_SCRIBE_CTL_result r
    if r = 0 then s1.takeOffline x else s1
  | 2 => (s.setFld Fld.SCB_SCRIBE_CTL_result 0).takeOnline x
  | _ => s

/-- A write of SCB_SCRIBE_CTL. -/
def State.writeScribeCtl (s : State) (fn w mask : Nat) : State :=
  s.goClosed fn w mask .SCB_SCRIBE_CTL 0 Fld.SCB_SCRIBE_CTL_go id (fun _ => false) State.scribeGo

/-- SCB_SCRIBE_OFFLINE (R367). -/
def execScbScribeOffline (t fn : Nat) (w : Word64) (s : State) : Res := .next ((s.at t).writeScribeCtl fn w.toNat fullMask).settle

/-- SCB_SCRIBE_ONLINE (R368). -/
def execScbScribeOnline (t fn : Nat) (w : Word64) (s : State) : Res := .next ((s.at t).writeScribeCtl fn w.toNat fullMask).settle

/-- Scribes go offline and online at their boundaries (R367, R368). -/
def Scribe.boundary (v : Scribe) (grid : Nat) : Scribe :=
  let off := match v.offlineAt with
    | some a => decide (a ≤ grid)
    | none => false
  let on := match v.onlineAt with
    | some a => decide (a ≤ grid)
    | none => false
  if on then { v with online := true, onlineAt := none, assignFrom := grid }
  else if off then { v with online := false, offlineAt := none } else v

/-- The stored state of a stream (R344). -/
def State.streamState (s : State) (n : Nat) : Bytes := s.dram.read (streamAddr n) 64

/-- Bytes 0 to 59 with their check (R344). -/
def sealState (bs : Bytes) : Bytes := bs.take 60 ++ leBytes (crc32 (bs.take 60)) 4

/-- Bytes of a record replaced from byte `i` on. -/
def patch (bs : Bytes) (i : Nat) (new : Bytes) : Bytes := bs.take i ++ new ++ bs.drop (i + new.length)

/-- The stored state of a stream is written (R359). -/
def State.writeStream (s : State) (n : Nat) (bs : Bytes) : State := s.dramWrite (streamAddr n) (sealState bs)

/-- A new or reset stream: offset 0, the start state, next_seq 0, matches 0 and every counter 0 (R347, R348). -/
def State.startState (s : State) (set gen berth dest : Nat) (ackAll : Bool) : Bytes :=
  leBytes (Config.startState (s.hotImage set)) 4 ++ leBytes 0 6 ++ leBytes set 1 ++ leBytes (1 + 8 * b2n ackAll) 1 ++ leBytes berth 2 ++
    leBytes dest 2 ++ leBytes 0 4 ++ leBytes gen 4 ++ leBytes 0 8 ++ zeros 16 ++ leBytes s.clock.count 8 ++ zeros 4

/-- A destination field is well formed (R344): carrier, a host ring or a logical quay. -/
def destOk (d : Nat) : Bool :=
  d / 4096 % 4 == 0 && (d / 16384 == 0 || d / 16384 == 1 || (d / 16384 == 2 && d % 4096 < 48))

/-- A set on which a stream may be opened (R346). -/
def State.setUsable (s : State) (set : Nat) : Bool := (s.glyph set).state == .admitted && !s.unloading set

/-- The next free stream number: the fresh numbers ascending, then the freed ones in order. -/
def State.freeStream (s : State) : Option Nat :=
  if s.scribes.fresh < 1048576 then some s.scribes.fresh else s.scribes.freed.head?

/-- The stream number at the head of the free list is taken, with the next generation (R347). -/
def State.takeStream (s : State) (n set : Nat) : State × Nat :=
  let gen := s.scribes.gens.findD n 0 % 15 + 1
  let x := s.scribes
  ({ s with scribes := { x with
      fresh := if x.fresh < 1048576 then x.fresh + 1 else x.fresh
      freed := if x.fresh < 1048576 then x.freed else x.freed.drop 1
      gens := x.gens.put n gen
      streams := x.streams.put n ⟨gen, set, s.dueTide⟩ } }, gen)

/-- A refusal that is a violation (R177, R346). -/
def State.deny (s : State) (src : Source) (c : Cmd) : State := (s.refuse src c 0x09 0).violation c.master 2 (cmdCookie c.record)

/-- STREAM_OPEN (R345 to R347, R430). -/
def execStreamOpen (t : Nat) (src : Source) (s : State) : Res :=
  .next (s.atHead t src (fun op => op == 0x20) (fun s0 c =>
    let body := cmdBody c.record
    let set := cmdTid c.record
    let dest := fieldLE body 0 2
    let form := body.length == 8 && set < 64 && destOk dest && byteAt body 2 < 2 && zerosAt body 3 5
    s0.checked src c true false form .user (fun _ => none) (fun s1 =>
      let b := cmdBerth c.record
      if !(s1.berth b).record.glyphMask.testBit set then s1.deny src c
      else if !s1.setUsable set then s1.refuse src c 0x15 0
      else match s1.freeStream with
        | none => s1.refuse src c 0x05 0
        | some n =>
          let (s2, gen) := s1.takeStream n set
          let s3 := s2.writeStream n (s2.startState set gen b dest ((byteAt body 2).testBit 0))
          let s4 := s3.setMaster (streamMaster n) { Master.reset with streamThawMs := s3.thawMs c.master }
          s4.accept src c s4.clock.grid true (some (0, 1048576 * gen + n, 0, 0, [])) (some s4.dueTide)))).settle

/-- A command on an open stream (R345, R346): the stream exists, and the command's berth owns it. -/
def State.streamCommand (s : State) (t op : Nat) (src : Source) (change : Nat → Change) : State :=
  s.atHead t src (fun o => o == op) (fun s0 c =>
    let h := cmdHandle c.record
    let form := (cmdBody c.record).isEmpty && h < 16777216
    s0.checked src c false true form .user
      (fun x => if (x.openStream h).isSome then none else some 0x17)
      (fun s1 =>
        if fieldLE (s1.streamState (h % 1048576)) 12 2 % 16384 != cmdBerth c.record then s1.deny src c
        else (s1.defer (change h)).acceptBoundary src c 0))

/-- STREAM_CLOSE (R349). -/
def execStreamClose (t : Nat) (src : Source) (s : State) : Res :=
  .next (s.streamCommand t 0x21 src .streamClose).settle

/-- STREAM_RESET (R348). -/
def execStreamReset (t : Nat) (src : Source) (s : State) : Res :=
  .next (s.streamCommand t 0x22 src .streamReset).settle

/-- A record of a chunk's stream goes to a destination (R363): the carrier, where the reply's reservation is used, or the one that the
stream names. -/
def State.postStatus (s : State) (c : Chunk) (dest index : Nat) (bytes : Bytes) : State :=
  let half := s.halfOf c.set
  if dest = 0 then
    let (d, i, n) := carrier c.src c.reply
    s.report ⟨half, d, i, bytes, n⟩
  else (s.report ⟨half, dest, index, bytes, 0⟩).releaseReply c.src c.reply 1

/-- The credit of a chunk returns once (R465). -/
def State.creditChunk (s : State) (c : Chunk) : State := if c.credited then s else s.releaseRecord c.src c.record

/-- A queued chunk is discarded with status DISCARDED (R348, R349). -/
def State.discardChunk (s : State) (dest index : Nat) (c : Chunk) : State :=
  (s.creditChunk c).postStatus c dest index (chunkStatus c.record 7 0 0 0 s.clock.count)

/-- The chunks of a stream that wait, those assigned to a tide that has not begun included, are discarded (R348, R349). -/
def State.discardStream (s : State) (n : Nat) : State :=
  let st := s.streamState n
  let d := fieldLE st 14 2
  let unrun (a : Assigned) : Bool := a.chunk.stream == n && a.ended.isNone && s.clock.grid ≤ a.runTide
  let assigned := (s.scribes.scribes.vals.flatMap (fun v => v.work.filter unrun)).map (fun a => a.chunk)
  let queued := s.scribes.queue.filter (fun c => c.stream == n)
  let s1 := { s with scribes := { s.scribes with
    queue := s.scribes.queue.filter (fun c => c.stream != n)
    scribes := s.scribes.scribes.map (fun (p : Nat × Scribe) => (p.1, { p.2 with work := p.2.work.filter (fun a => !unrun a) })) } }
  s1.each (assigned ++ queued) (fun x c => x.discardChunk (d / 16384) (d % 4096) c)

/-- A stream number is freed (R349, R350); a freeze of its master ends with it. -/
def State.freeStreamNumber (s : State) (n : Nat) : State :=
  let s1 := s.discardStream n
  let s2 := s1.writeStream n (patch (s1.streamState n) 11 [0])
  { s2 with
      masters := s2.masters.del (streamMaster n)
      scribes := { s2.scribes with streams := s2.scribes.streams.del n, freed := s2.scribes.freed ++ [n] } }

/-- A reset of a stream takes effect (R348). -/
def State.resetStream (s : State) (handle : Nat) : State :=
  match s.openStream handle with
  | none => s
  | some (n, x) =>
    let s1 := s.discardStream n
    let st := s1.streamState n
    let frozen := byteAt st 11 / 4 % 2
    let new := s1.startState x.set x.gen (fieldLE st 12 2) (fieldLE st 14 2) ((byteAt st 11).testBit 3)
    s1.writeStream n (patch new 11 (leBytes (byteAt new 11 + 4 * frozen) 1))

/-- A close of a stream takes effect (R349). -/
def State.closeStream (s : State) (handle : Nat) : State :=
  match s.openStream handle with
  | none => s
  | some (n, _) => s.freeStreamNumber n

/-- The frozen flag of a stream's state (R344). -/
def State.flagStream (s : State) (n : Nat) (frozen : Bool) : State :=
  let st := s.streamState n
  s.writeStream n (patch st 11 (leBytes (setBit (byteAt st 11) 2 frozen) 1))

/-- The scribes of a half that are active in the next tide (R366): the lowest-numbered online ones, half the mode's count. -/
def State.activeNext (s : State) (half : Nat) : List Nat :=
  let mode := match s.mode.pending with
    | some m => if s.turnTide then m else s.mode.mode
    | none => s.mode.mode
  let next := s.clock.grid + 1
  let online := (List.range 32).map (fun i => 32 * half + i) |>.filter (fun x =>
    let v := (s.scribe x).boundary next
    v.online)
  online.take ((modeParams mode).scribes / 2)

/-- The scribes that are active in this tide (SCB_ACTIVE). -/
def State.activeScribes (s : State) : List Nat :=
  [0, 1].flatMap (fun half =>
    ((List.range 32).map (fun i => 32 * half + i) |>.filter (fun x => (s.scribe x).online)).take (s.params.scribes / 2))

/-- The oldest queued chunk of each stream (R356). -/
def oldestChunks : List Chunk → List Nat → List Chunk
  | [], _ => []
  | c :: rest, seen => if seen.contains c.stream then oldestChunks rest seen else c :: oldestChunks rest (seen ++ [c.stream])

/-- A stream has a chunk that runs in a grid tide. -/
def State.runsIn (s : State) (n tide : Nat) : Bool :=
  s.scribes.scribes.vals.any (fun v => v.work.any (fun a => a.chunk.stream == n && a.runTide == tide))

/-- The match destination of a chunk: code 1 or 2, and index (R344, R363). -/
def State.matchDest (s : State) (c : Chunk) : Nat × Nat :=
  let d := fieldLE (s.streamState c.stream) 14 2
  if d / 16384 = 0 then let (a, b, _) := carrier c.src c.reply; (a, b) else (d / 16384, d % 4096)

/-- A chunk may be assigned in this tide (R347, R355 to R357): it is the oldest of its stream and eligible by stroke 0. -/
def State.candidates (s : State) (half : Nat) : List Chunk :=
  (oldestChunks s.scribes.queue []).filter (fun c =>
    let st := s.scribes.streams.find c.stream
    let d := s.matchDest c
    s.halfOf c.set == half && c.s0 + 64 ≤ 256 * s.clock.grid && (s.glyph c.set).state == .admitted &&
      (match st with
       | some x => x.fromTide ≤ s.clock.grid
       | none => false) &&
      (s.scribes.reports.filter (fun r => r.half == half && (r.dest, r.index) == d)).length ≤ 512 &&
      !s.runsIn c.stream (s.clock.grid + 1))

/-- A chunk is assigned to a scribe for the next tide: it leaves the queue and its credit returns (R355, R358, R465). -/
def State.assign (s : State) (x : Nat) (c : Chunk) (continuation : Bool) : State :=
  let s1 := { s with scribes := { s.scribes with queue := s.scribes.queue.erase c } }
  let s2 := s1.creditChunk c
  let s3 := if continuation then s2 else s2.dramIssue 2 (streamAddr c.stream) 64
  let v := s3.scribe x
  s3.setScribe x { v with work := v.work ++
    [Assigned.mk { c with credited := true } (s.clock.grid + 1) continuation (!continuation) false none] }

/-- A scribe has a chunk for the next tide. -/
def State.scribeTaken (s : State) (x : Nat) : Bool := (s.scribe x).work.any (fun a => a.runTide == s.clock.grid + 1)

/-- Continuations of one half (R355). -/
def State.assignContinuation (s : State) (half x : Nat) : State :=
  match (s.scribe x).work.find? (fun a => a.runTide == s.clock.grid) with
  | none => s
  | some a =>
    match (s.candidates half).find? (fun c => c.stream == a.chunk.stream) with
    | some c => s.assign x c true
    | none => s

/-- The set that the round-robin of a class reaches next, among those that have a candidate. -/
def nextSetOf (sets : List Nat) (last : Nat) : Option Nat :=
  ((List.range 64).map (fun i => (last + 1 + i) % 64)).find? (fun n => sets.contains n)

/-- The next chunk of a half by class, set and age (R355). Streams that run in this tide are left out (R356). -/
def State.nextChunk (s : State) (half : Nat) : Option Chunk :=
  let cs := (s.candidates half).filter (fun c => !s.runsIn c.stream s.clock.grid)
  match [0, 1, 2, 3].find? (fun k => cs.any (fun c => c.cls == k)) with
  | none => none
  | some k =>
    let ofClass := cs.filter (fun c => c.cls == k)
    match nextSetOf (ofClass.map (fun c => c.set)) (s.scribes.lastSet.findD (4 * half + k) 63) with
    | none => none
    | some set => ofClass.find? (fun c => c.set == set)

/-- The other chunks of a half go to its free scribes (R355). -/
def State.assignOther (s : State) (half x : Nat) : State :=
  if s.scribeTaken x then s
  else match s.nextChunk half with
    | none => s
    | some c =>
      let s1 := s.assign x c false
      { s1 with scribes := { s1.scribes with lastSet := s1.scribes.lastSet.put (4 * half + c.cls) c.set } }

/-- The assignment of one half (R355). -/
def State.assignHalf (s : State) (half : Nat) : State :=
  let xs := (s.activeNext half).filter (fun x =>
    let v := s.scribe x
    v.online && v.assignFrom ≤ s.clock.grid && v.offlineAt.isNone && !s.domainDown (26 + half))
  (s.each xs (fun t x => t.assignContinuation half x)).each xs (fun t x => t.assignOther half x)

/-- CHUNK_ASSIGNMENT (R355 to R358): once per tide, at its stroke 0. -/
def execChunkAssignment (s : State) : Res :=
  .next (if s.clock.stroke = 0 && s.scribes.assignedAt != some s.clock.grid && s.clockRuns && s.serving && s.awake then
    let s1 := (s.assignHalf 0).assignHalf 1
    { s1 with scribes := { s1.scribes with assignedAt := some s.clock.grid } }
    else s).settle

/-- One assigned chunk of a scribe is changed. -/
def State.changeWork (s : State) (x : Nat) (p : Assigned → Bool) (f : Assigned → Assigned) : State :=
  let v := s.scribe x
  s.setScribe x { v with work := updateFirst p f v.work }

/-- An assigned chunk whose state read is outstanding (R358). -/
def readingFor (tide : Nat) (a : Assigned) : Bool := a.runTide == tide && a.reading

/-- STREAM_STATE_READ_RETURN (R358): a read that does not decode, or whose check fails, is noted. -/
def execStreamStateReadReturn (t scribe : Nat) (how : DramRead) (s : State) : Res :=
  let s0 := s.at t
  .next (match (s0.scribe scribe).work.find? (readingFor (s0.clock.grid + 1)) with
    | none => s0
    | some a =>
      let addr := streamAddr a.chunk.stream
      let st := s0.streamState a.chunk.stream
      let bad := s0.spanEnd addr 64 how == DramEnd.uncorrectable || st != sealState st
      ((s0.dramReturn 2 addr 64).countSpan addr 64 how).changeWork scribe (readingFor (s0.clock.grid + 1)) (fun b => { b with reading := false, badState := bad })).settle

/-- A chunk goes back to the head of its stream (R358, R593): the queue keeps the order of arrival. -/
def requeue (c : Chunk) : List Chunk → List Chunk
  | [] => [c]
  | d :: rest => if c.s0 < d.s0 || c.stream == d.stream then c :: d :: rest else d :: requeue c rest

/-- A state read is late (R358): the scribe idles and the chunk stays at the head of its stream. -/
def State.lateRead (s : State) (x tide : Nat) : State :=
  match (s.scribe x).work.find? (readingFor tide) with
  | none => s
  | some a =>
    let v := s.scribe x
    let s1 := (s.setScribe x { v with work := v.work.filter (fun b => !readingFor tide b) }).bump Fld.SCB_COUNT1_state_late
    { s1 with scribes := { s1.scribes with queue := requeue a.chunk s1.scribes.queue } }

/-- STREAM_STATE_READ_LATE (R358). -/
def execStreamStateReadLate (scribe : Nat) (s : State) : Res :=
  let s0 := s.at 255
  .next (s0.lateRead scribe (s0.clock.grid + 1)).settle

/-- Numbers in ascending order, each once. -/
def insertUp (n : Nat) : List Nat → List Nat
  | [] => [n]
  | m :: rest => if n < m then n :: m :: rest else if n = m then m :: rest else m :: insertUp n rest

/-- The data bytes of a chunk run through the automaton from an offset (R329 to R331, R361): the state, the counters and the
matches. -/
def walk (hot : Bytes) : Bytes → Nat → Nat → Bytes → List (Nat × Nat × Bool) → Nat × Bytes × List (Nat × Nat × Bool)
  | [], _, st, cn, ms => (st, cn, ms)
  | b :: rest, off, st, cn, ms =>
    let r := Config.automaton hot st cn off b
    let pats := r.2.2.foldr insertUp []
    walk hot rest (off + 1) (r.1 % 2 ^ 32) (r.2.1.take 16) (ms ++ pats.map (fun p => (off, p % 32768, false)))

/-- A chunk is refused by a check of R358 or R360, or faulted: it ends without a match. -/
def State.endChunk (s : State) (x status cause : Nat) : State :=
  let running (a : Assigned) : Bool := a.runTide == s.clock.grid && a.ended.isNone
  match (s.scribe x).work.find? running with
  | none => s
  | some a =>
    let st := s.streamState a.chunk.stream
    let d := fieldLE st 14 2
    let s1 := if status = 4 then s.bump Fld.SCB_COUNT1_faulted else if status = 3 then s.bump Fld.SCB_COUNT1_out_of_seq else s
    let e : ChunkEnd := ⟨status, cause, [], 0, s.clock.count, d / 16384, d % 4096, (byteAt st 11).testBit 3, none⟩
    s1.changeWork x running (fun b => { b with ended := some e })

/-- A chunk runs (R331, R350, R361, R364): its matches are decided, and the stream's state is kept for stroke 255 (R359). -/
def State.finishChunk (s : State) (x : Nat) (a : Assigned) (n : Nat) : State :=
  let st := s.streamState n
  let rec_ := a.chunk.record
  let len := fieldLE rec_ 2 2
  let off := fieldLE st 4 6
  let hot := s.hotImage a.chunk.set
  let eos := (byteAt rec_ 1).testBit 2
  let (q, cn, ms) := walk hot ((rec_.drop 16).take len) off (fieldLE st 0 4) ((st.drop 32).take 16) []
  let stop := off + len
  let close := if eos && 0 < stop then
    ((Config.closing hot q cn).foldr insertUp []).map (fun p => (stop - 1, p % 32768, true)) else []
  let all := ms ++ close
  let reported := all.take 64
  let new := leBytes q 4 ++ leBytes stop 6 ++ (st.drop 10).take 6 ++ leBytes (fieldLE rec_ 8 4 + 1) 4 ++ (st.drop 20).take 4 ++
    leBytes (fieldLE st 24 8 + reported.length) 8 ++ (cn ++ zeros (16 - cn.length)) ++ leBytes s.clock.count 8 ++ zeros 4
  let d := fieldLE st 14 2
  let running (b : Assigned) : Bool := b.runTide == s.clock.grid && b.ended.isNone
  let e : ChunkEnd := ⟨0, 0, reported, all.length, s.clock.count, d / 16384, d % 4096, (byteAt st 11).testBit 3, some new⟩
  (s.bump Fld.SCB_COUNT0_chunks_done).changeWork x running (fun b => { b with ended := some e })

/-- The checks of R358 and R360, then the run (R361). -/
def State.runChunk (s : State) (x : Nat) : State :=
  match (s.scribe x).work.find? (fun a => a.runTide == s.clock.grid && a.ended.isNone && !a.reading) with
  | none => s
  | some a =>
    let n := a.chunk.stream
    let st := s.streamState n
    let berth := fieldLE a.chunk.record 12 2 % 16384
    if s.frozen (streamMaster n) then s.endChunk x 1 0
    else if a.badState then s.endChunk x 4 2
    else if (byteAt st 11).testBit 1 then s.endChunk x 4 3
    else if berth != fieldLE st 12 2 % 16384 || !(s.berth berth).record.glyphMask.testBit a.chunk.set then
      ((s.endChunk x 6 0).flagStream n true).violation (streamMaster n) 6 0
    else if fieldLE a.chunk.record 8 4 != fieldLE st 16 4 then s.endChunk x 3 0
    else s.finishChunk x a n

/-- CHUNK_RUN (R358 to R361). -/
def execChunkRun (t scribe : Nat) (s : State) : Res := .next ((s.at t).runChunk scribe).settle

/-- A chunk that has not completed by stroke 255 is faulted, its stream with it, and the scribe is reset (R362). -/
def State.watchdogChunk (s : State) (x : Nat) : State :=
  match (s.scribe x).work.find? (fun a => a.runTide == s.clock.grid && a.ended.isNone) with
  | none => s
  | some a =>
    let n := a.chunk.stream
    let s1 := s.endChunk x 4 1
    let st := s1.streamState n
    let s2 := s1.writeStream n (patch st 11 (leBytes (setBit (byteAt st 11) 1 true) 1))
    let s3 := s2.setScribe x { s2.scribe x with assignFrom := s.clock.grid + 3 }
    (s3.raise Fld.SCB_STATUS_fault).faultEvent 0x06 1 0x4 (fieldLE a.chunk.record 4 3) x (fieldLE a.chunk.record 8 4)

/-- CHUNK_WATCHDOG (R362): at stroke 255. -/
def execChunkWatchdog (scribe : Nat) (s : State) : Res := .next ((s.at 255).watchdogChunk scribe).settle

/-- The match records of a chunk (R364): at most 16 entries each, the last with the count of matches beyond 64. -/
def State.matchRecords (s : State) (c : Chunk) (e : ChunkEnd) : Nat → List (Nat × Nat × Bool) → List Bytes
  | 0, _ => []
  | _, [] => []
  | fuel + 1, ms =>
    let now := ms.take 16
    let rest := ms.drop 16
    let beyond := e.found - 64
    let last := rest.isEmpty
    let eos := (byteAt c.record 1).testBit 2
    let flags := b2n (0 < beyond) + 2 * b2n last + 4 * b2n eos
    ([BitVec.ofNat 8 0x22, BitVec.ofNat 8 now.length, BitVec.ofNat 8 flags, BitVec.ofNat 8 c.set] ++ (c.record.drop 4).take 3 ++
      leBytes (s.fld Fld.GLB_TIDE_CTL_step_gen % 16) 1 ++ (c.record.drop 8).take 4 ++ leBytes (if last then beyond else 0) 4 ++
      leBytes e.tide 8 ++ now.flatMap (fun m => leBytes (m.2.1 % 32768 + 32768 * b2n m.2.2) 2 ++ leBytes m.1 6))
      :: s.matchRecords c e fuel rest

/-- The reports of one ended chunk (R350, R363, R364). -/
def State.reportChunk (s : State) (a : Assigned) (e : ChunkEnd) : State :=
  let c := a.chunk
  let half := s.halfOf c.set
  let (d, i) := if e.dest = 0 then (let (p, q, _) := carrier c.src c.reply; (p, q)) else (e.dest, e.index)
  let s1 := s.each (s.matchRecords c e 4 e.reported) (fun t bs => t.report ⟨half, d, i, bs, 0⟩)
  let s2 := (s1.bump Fld.SCB_COUNT0_matches e.reported.length).bump Fld.SCB_COUNT1_unreported (e.found - 64)
  let flags := byteAt c.record 1
  let wants := e.status != 0 || flags.testBit 3 || flags.testBit 2 || e.ackAll
  if wants then
    s2.postStatus c e.dest e.index
      (chunkStatus c.record e.status (if e.status = 0 then fieldLE c.record 2 2 else 0) e.cause e.found e.tide)
  else s2.releaseReply c.src c.reply 1

/-- CHUNK_REPORT (R363): the chunk of a tide that has ended. -/
def execChunkReport (scribe : Nat) (s : State) : Res :=
  let v := s.scribe scribe
  let done_ (a : Assigned) : Bool := a.runTide < s.clock.grid && a.ended.isSome
  .next (match v.work.find? done_ with
    | none => s
    | some a => match a.ended with
      | none => s
      | some e =>
        let rest := v.work.filter (fun b => decide (b ≠ a))
        ((s.setScribe scribe { v with work := rest }).reportChunk a e).flushReports).settle

/-- The state of a stream whose chunk has run is written back (R359); the stream's flags stand as they are by then. -/
def State.writeBackStream (s : State) (a : Assigned) : State :=
  match a.ended.bind (fun e => e.after) with
  | some new => s.writeStream a.chunk.stream (patch new 11 ((s.streamState a.chunk.stream).drop 11 |>.take 1))
  | none => s

/-- The end of a tide for the scribes (R350, R358, R359, R362): late reads, chunks not complete, the stream states of those that have
run, and the streams that an end-of-stream chunk closes. Called before the grid moves on. -/
def State.scribesEnd (s : State) : State :=
  let xs := s.scribes.scribes.keys
  let s0 := s.each xs (fun t (x : Nat) => (t.lateRead x (t.clock.grid + 1)).watchdogChunk x)
  let s1 := s0.each ((s0.scribes.scribes.vals.flatMap (fun (v : Scribe) => v.work)).filter (fun (a : Assigned) =>
    a.runTide == s0.clock.grid)) State.writeBackStream
  let closed := (s1.scribes.scribes.vals.flatMap (fun (v : Scribe) => v.work)).filter (fun (a : Assigned) =>
    a.runTide == s1.clock.grid && (byteAt a.chunk.record 1).testBit 2 && (match a.ended with
      | some e => e.status == 0
      | none => false))
  s1.each (closed.map (fun a => a.chunk.stream)) State.freeStreamNumber

/-- The scribes at a boundary (R366 to R368). -/
def State.scribesBoundary (s : State) : State :=
  { s with scribes := { s.scribes with scribes := s.scribes.scribes.map (fun p => (p.1, p.2.boundary s.clock.grid)) } }

end Sys2Proof.Machine
end

