-- ==== Sys2Proof/Machine/Boot.lean ====
section
/-! DEFINITION. The scroll and start-up (03_scroll_and_boot.md), power-on reset and the rail sequencer (R590 to R592), the boot
self-test (R608, R609), and the CORE records (R95). -/
namespace Sys2Proof.Machine

/-- The registers that PD00 keeps across a boot (R106, R576, R586). -/
def keptRegs : List Reg := [.PWR_WAKE_CTL, .PWR_RESET_CAUSE]

/-- The slot health map as PD00 keeps it (R607): a self-test that ran ends with its slot FAILED (R613). -/
def keptSlots (m : Table SlotState) : Table SlotState :=
  m.map (fun (p : Nat × SlotState) => if p.2.health == Health.testing then (p.1, ⟨.failed, 0, 0⟩) else p)

/-- The fence map and the spares in place, which PD00 keeps until power-on reset (R571, R617); delay sets start again at 0. -/
def keptPcs (m : Table Pseudo) : Table Pseudo :=
  m.map (fun (p : Nat × Pseudo) => (p.1, { Pseudo.reset p.1 with
    state := if p.2.state == PcState.rebuilding then .inService else p.2.state, serves := p.2.serves }))

/-- Every domain but PD00 is reset, at the start of a boot from the ROM stage (R106, R443). The model's own fields go on. -/
def State.coldReset (s : State) : State :=
  { State.reset with
      clock := { Clock.reset with grid := s.clock.grid + 1, count := s.clock.count }
      regs := s.regs.filter (fun p => keptRegs.any (fun r => r.key 0 == p.1))
      fuses := s.fuses
      faults := ⟨[], [], s.faults.carried⟩
      boot := { Boot.reset with
        powerOn := s.boot.powerOn, recordedCopy := s.boot.recordedCopy, enableCommands := s.boot.enableCommands }
      power := { Power.reset with
        railsValid := s.power.railsValid, mainEn := s.power.mainEn, railFails := s.power.railFails, halted := s.power.halted,
        vddAon := s.power.vddAon, rtc := s.power.rtc, rtcPart := s.power.rtcPart, wakeSrc := s.power.wakeSrc,
        tideRecord := if 3 ≤ s.power.state then s.power.tideRecord else s.clock.count,
        rtcRecord := if 3 ≤ s.power.state then s.power.rtcRecord else s.power.rtc }
      service := { State.reset.service with slots := keptSlots s.service.slots, unavailable := s.service.unavailable }
      arrays := { Arrays.reset with served := s.arrays.served }
      security := { Security.reset with tamperEvents := s.security.tamperEvents, tamperCause := s.security.tamperCause }
      dramCtl := { State.reset.dramCtl with pcs := keptPcs s.dramCtl.pcs }
      freeCounter := s.freeCounter
      out := s.out
      pending := s.pending }

/-- A ring whose reservations are those of the replies that wait to be written. -/
def HostRing.keepWrites (r : HostRing) : HostRing :=
  { r with reserved := (r.writes.map (fun w => match w.kind with
      | .reply e => e
      | _ => 0)).foldl (fun a b => a + b) 0 }

/-- A window whose FIFO holds nothing. -/
def Window.drained (w : Window) : Window := { w with held := 0 }

/-- What searches, commands and links hold is emptied, as Recovery keeps none of it (R111) and a boot builds it afresh. The host's
rings stay, without the reservations of work that is gone. -/
def State.emptied (s : State) : State :=
  let r := State.reset
  { s with
      pins := r.pins, berths := r.berths, masters := r.masters, tables := r.tables
      arrays := { Arrays.reset with served := s.arrays.served }
      numbers := r.numbers, cmds := r.cmds, hot := r.hot, scrub := r.scrub, learning := r.learning, manifest := r.manifest
      mode := r.mode, search := r.search, scribes := r.scribes, counters := r.counters, observe := r.observe, links := r.links
      ring := r.ring, dram := [], diram := [], due := []
      security := { s.security with sessions := [], keyWrap := none, lcPending := false }
      power := { s.power with entry := none, idleAt := none, quietTides := 0, domainReset := none }
      service := { s.service with slots := keptSlots s.service.slots, bist := none, bistQueue := [] }
      host := { s.host with
        rings := s.host.rings.map (fun p => (p.1, p.2.keepWrites)), windows := s.host.windows.map (fun p => (p.1, p.2.drained)),
        winPending := false, flashBusy := false } }

/-- An exit ends (R588, PWR_STATE_STATUS.woke). -/
def State.endExit (s : State) : State :=
  match s.power.exit with
  | some src => { s with power := { s.power with exit := none, wakeSrc := src } }.raise Fld.PWR_STATE_STATUS_woke
  | none => s

/-- The device enters Recovery (R111): the physical function only, every quay down, no copy in force. -/
def State.enterRecovery (s : State) : State :=
  let e := s.emptied.endExit
  { e with
      boot := { e.boot with
        stage := 14, copy := 0, header := none, core := [], applied := false, fromOffGuard := false, device := DeviceRec.reset,
        scrollSeq := 0, glyphDone := false, seedDone := false, seedClosed := false }
      host := { e.host with numVfs := 0 } }

/-- The Discovery stage begins (R107, R111): every boot empties the fault log (R603), and in it no copy has been abandoned yet. What PD00
holds stays (R85, R115). -/
def State.beginDiscovery (s : State) : State :=
  let e := s.emptied.setFld Fld.GLB_BOOT_STATUS_fallback 0
  { e with
      faults := ⟨[], [], s.faults.carried⟩
      boot := { Boot.reset with
        stage := 1, powerOn := s.boot.powerOn, fromOffGuard := s.boot.fromOffGuard, recordedCopy := s.boot.recordedCopy,
        enableCommands := s.boot.enableCommands } }

/-- POWER_ON_RESET (R590): only the fuses keep their contents; PD00 drives PWR_MAIN_EN high. -/
def execPowerOnReset (s : State) : Res :=
  .next (State.opens { State.reset with
    clock := { Clock.reset with grid := s.clock.grid + 1 }, fuses := s.fuses, freeCounter := s.freeCounter, out := s.out,
    pending := s.pending })

/-- VDD_AON_REMOVED (R591): PD00 loses its contents and PWR_MAIN_EN is low. -/
def execVddAonRemoved (s : State) : Res :=
  .next (State.opens { State.reset with
    clock := { Clock.reset with grid := s.clock.grid + 1 }, fuses := s.fuses, freeCounter := s.freeCounter, out := s.out,
    pending := s.pending, power := { Power.reset with vddAon := false, mainEn := false } })

/-- The key-encryption key of a life-cycle state (R93, R421): 32 bytes. The spec gives its inputs, not its derivation
(notes/assumptions/5.md). -/
def deviceKek (secret : Bytes) (lifeCycle : Nat) : Bytes := (Config.keyEncryptionKey secret lifeCycle ++ zeros 32).take 32

/-- The transport private key (R421), a number from 1 below the order of the base point. -/
def transportPrivate (secret : Bytes) : Nat := Config.transportPrivate secret % (n384 - 1) + 1

/-- The seal store as the ROM stage loads it (R421): the key-encryption key, the transport private key, and the boot nonce, a draw of
the DRBG. -/
def State.drawNonce (s : State) : State :=
  { s with
      freeCounter := s.freeCounter + 1
      security := { s.security with
        rootKeys := true, selfTestOk := true, kek := deviceKek s.fuses.secret s.fuses.lifeCycle,
        transport := transportPrivate s.fuses.secret, bootNonce := Config.random s.freeCounter % 2 ^ 128 } }

/-- The end of the ROM stage (R105, R107, R112): the key-encryption key, the self-tests and the DRBG; Blank and Retired devices read
no scroll. -/
def State.romEnd (s : State) (selfTest : Bool) : State :=
  if !selfTest then { s with boot := { s.boot with stage := 15, errA := 0x0F, errB := 0x0F } }
  else if s.fuses.lifeCycle = 0 || s.fuses.lifeCycle = 4 then s.drawNonce.enterRecovery
  else s.drawNonce.beginDiscovery

/-- The tide count resumes after a boot from the record in PD00 and the RTC units since (R82); how many those are is a free value, as no
command carries them. After power-on reset it starts from 0. -/
def State.resumeBoot (s : State) : State :=
  if s.boot.powerOn && s.power.tideRecord = 0 && s.power.rtcRecord = 0 then s
  else
    let n := Config.awayUnits s.freeCounter
    { s with
        freeCounter := s.freeCounter + 1
        clock := { s.clock with count := (s.power.tideRecord + n * 5859375 / 32768) % 2 ^ 64 }
        power := { s.power with rtc := (s.power.rtcRecord + n) % 2 ^ 48, rtcPart := 0 } }

/-- MAIN_RAILS_VALID (R107, R592): the rails are valid, the domains are released and the ROM stage runs to its end;
in a tamper hold (R443) every other domain stays in reset. -/
def execMainRailsValid (selfTest : Bool) (s : State) : Res :=
  .next (if s.power.vddAon && s.power.mainEn && !s.power.halted && s.boot.stage = 0 then
    let s1 := { s with power := { s.power with railsValid := true, railFails := 0, state := 0 } }
    if s.power.tamperHold then s1 else s1.resumeBoot.romEnd selfTest
    else s).settle

/-- RAIL_SEQUENCE_TIMEOUT (R591): the rails are not all valid within 25 ms; the third failure halts the sequencer. -/
def execRailSequenceTimeout (s : State) : Res :=
  .next (if s.power.mainEn && !s.power.railsValid && !s.power.halted then
    { s with power := { s.power with
      mainEn := false, railFails := s.power.railFails + 1, halted := decide (3 ≤ s.power.railFails + 1) } }
    else s).settle

/-- RAIL_SEQUENCE_RETRY (R591): 100 ms later. -/
def execRailSequenceRetry (s : State) : Res :=
  .next (if s.power.vddAon && !s.power.mainEn && !s.power.halted && s.power.railFails != 0 then
    { s with power := { s.power with mainEn := true } } else s).settle

/-- Whether discovery succeeds (R84): every step of it, and SFDP lists the read. An exit from Off-Guard repeats steps 3 and 4 only
(R85). -/
def State.discovers (s : State) (d : SfdpRead) : Bool :=
  (s.boot.fromOffGuard || (d.read && d.lists8D)) && d.enabled && d.readAgain

/-- The operations of discovery on the flash device (R84), in their order, up to the step that fails; on exit from Off-Guard with the
commands that PD00 retains (R85). -/
def State.discoverySteps (s : State) (d : SfdpRead) : List FlashOp :=
  let commands := if s.boot.fromOffGuard then s.boot.enableCommands else d.enableCommands
  let late := FlashOp.enable commands :: (if d.enabled then [FlashOp.readSfdpHeader] else [])
  if s.boot.fromOffGuard then late
  else FlashOp.resetPulse :: FlashOp.readSfdp :: (if d.read && d.lists8D then late else [])

/-- DISCOVERY (R84, R85, R103, R107, R115). PD00 retains the enable commands (R85). -/
def execDiscovery (d : SfdpRead) (s : State) : Res :=
  .next (if s.boot.stage != 1 then s
    else
      let s0 := s.each (s.discoverySteps d) (fun t op => t.emit (.flash op))
      if s.discovers d then
        let c := if s.boot.fromOffGuard then s.boot.recordedCopy else 0
        let kept := if s.boot.fromOffGuard then s.boot.enableCommands else d.enableCommands
        { s0 with boot := { s.boot with stage := 2 + c, copy := c, header := none, core := [], enableCommands := kept } }
      else
        let s1 := { s0 with boot := { s.boot with errA := 1, errB := 1 } }
        s1.enterRecovery).settle

/-- A copy is abandoned with a code (R103, R107, R117): on exit from Off-Guard a cold boot follows from Discovery, in which the code of
the copy stays recorded until that copy fails again (notes/assumptions/143.md); after copy A copy B, after copy B Recovery. -/
def State.abandonCopy (s : State) (code : Nat) : State :=
  let b := s.boot
  let noted := if b.copy = 0 then { b with errA := code } else { b with errB := code }
  if b.fromOffGuard then
    let s1 := ({ s with boot := { noted with fromOffGuard := false } }).beginDiscovery
    let s2 := { s1 with boot := { s1.boot with errA := noted.errA, errB := noted.errB } }
    if b.copy = 0 then s2.raise Fld.GLB_BOOT_STATUS_fallback else s2
  else if b.copy = 0 then
    let s1 := s.emptied.raise Fld.GLB_BOOT_STATUS_fallback
    { s1 with boot := { noted with stage := 3, copy := 1, header := none, core := [], applied := false } }
  else ({ s with boot := noted }).enterRecovery

/-- A copy is being read: Read A or Read B. -/
def State.reading (s : State) : Bool := s.boot.stage == 2 || s.boot.stage == 3

/-- A section table is valid (R88), its entries in use having the form of R87: a known type, sealed as the type has it, an offset at a
multiple of 4,096. That a wrong form fails this check is DEDUCED (notes/assumptions/142.md). -/
def sectionsOk (xs : List Section) : Bool :=
  let count (t : Nat) : Nat := (xs.filter (fun x => x.typ == t)).length
  let apart (x y : Section) : Bool := x.typ == y.typ || x.offset + x.storedLen ≤ y.offset || y.offset + y.storedLen ≤ x.offset
  let form (x : Section) : Bool := 1 ≤ x.typ && x.typ ≤ 4 && x.isSealed == (if x.typ = 4 then 0 else 1) && x.offset % 4096 == 0
  let fits (x : Section) : Bool := 4096 ≤ x.offset && x.offset + x.storedLen ≤ 0x10000000 &&
    (x.typ != 4 || x.storedLen ≤ 4096) && (x.typ != 1 || x.storedLen ≤ 524288)
  count 4 == 1 && count 1 == 1 && count 2 ≤ 1 && count 3 ≤ 1 && xs.all form && xs.all fits && xs.all (fun x => xs.all (apart x))

/-- The entry of a section table at an offset of the header (R87). -/
def sectionAt (bs : Bytes) (off : Nat) : Section :=
  ⟨byteAt bs off, byteAt bs (off + 1), fieldLE bs (off + 2) 2, fieldLE bs (off + 4) 4, fieldLE bs (off + 8) 4⟩

/-- The number of sections that a header states (R87). -/
def sectionCount (h : HeaderRead) : Nat := fieldLE h.bytes 26 2

/-- The section table of a header (R87): the entries in use, of four. -/
def sectionsOf (h : HeaderRead) : List Section := (List.range (min 4 (sectionCount h))).map (fun i => sectionAt h.bytes (64 + 64 * i))

/-- scroll_seq of a header (R87). -/
def scrollSeqOf (h : HeaderRead) : Nat := fieldLE h.bytes 16 4

/-- The digest that the section table gives for a section type (R87). -/
def digestOf (h : HeaderRead) (typ : Nat) : Bytes :=
  match (List.range (min 4 (sectionCount h))).find? (fun i => byteAt h.bytes (64 + 64 * i) == typ) with
  | some i => (h.bytes.drop (80 + 64 * i)).take 48
  | none => []

/-- The section of a type (R87). -/
def sectionOf (h : HeaderRead) (typ : Nat) : Option Section := (sectionsOf h).find? (fun x => x.typ == typ)

/-- The owner key of a header (R87). -/
def ownerKeyOf (h : HeaderRead) : Bytes := (h.bytes.drop 320).take 97

/-- The signature of a header (R87). -/
def signatureOf (h : HeaderRead) : Bytes := (h.bytes.drop 4000).take 96

/-- The number of key entries that the head of KEYS states (R93). -/
def keyCount (h : HeaderRead) : Nat := fieldLE h.keyBytes 0 4

/-- The entry of KEYS at an index (R93). -/
def keyEntryAt (h : HeaderRead) (i : Nat) : Bytes := (h.keyBytes.drop (8 + 64 * i)).take 64

/-- The length of a wrapped key of a use (R93). -/
def wrapLen (use : Nat) : Nat := if use = 3 then 56 else 40

/-- An entry of KEYS opened under the key-encryption key (R93), where it unwraps. -/
def openKey (kek bs : Bytes) : Option KeyEntry :=
  (kwUnwrap kek ((bs.drop 8).take (wrapLen (byteAt bs 2)))).map (fun k => ⟨fieldLE bs 0 2, byteAt bs 2, k⟩)

/-- The keys of KEYS, unwrapped (R93, R94). -/
def keysOf (kek : Bytes) (h : HeaderRead) : List KeyEntry :=
  (List.range (min 32 (keyCount h))).filterMap (fun i => openKey kek (keyEntryAt h i))

/-- An entry of KEYS has the form of R93: the identifier 0 for the scroll key, the wrapped length of its use, and zeros elsewhere. -/
def keyForm (bs : Bytes) : Bool :=
  let use := byteAt bs 2
  byteAt bs 3 == wrapLen use && zerosAt bs 4 4 && zerosAt bs (8 + wrapLen use) (56 - wrapLen use) && (use != 1 || fieldLE bs 0 2 == 0)

/-- KEYS has the form of R93: 1 to 32 entries that lie within it. -/
def keysForm (h : HeaderRead) : Bool :=
  let n := keyCount h
  1 ≤ n && n ≤ 32 && zerosAt h.keyBytes 4 4 && 8 + 64 * n ≤ h.keyBytes.length && (List.range n).all (fun i => keyForm (keyEntryAt h i))

/-- Every key of KEYS unwraps (check 8 of R103). -/
def keysUnwrap (kek : Bytes) (h : HeaderRead) : Bool :=
  (List.range (min 32 (keyCount h))).all (fun i => (openKey kek (keyEntryAt h i)).isSome)

/-- KEYS holds one scroll key, at most 16 command-authentication keys and at most one identity key (R94). -/
def keysOk (ks : List KeyEntry) : Bool :=
  let count (u : Nat) : Nat := (ks.filter (fun k => k.use == u)).length
  count 1 == 1 && count 2 ≤ 16 && count 3 ≤ 1 && ks.all (fun k => 1 ≤ k.use && k.use ≤ 3)

/-- The magic of a scroll (R87): ALSRSCRL, as a little-endian number. -/
def scrollMagic : Nat := leNat [0x41, 0x4C, 0x53, 0x52, 0x53, 0x43, 0x52, 0x4C]

/-- Checks 1 to 8 of R103 in their order: 0 where all pass. The stepping is B0, coded 0x10. -/
def State.headerCheck (s : State) (h : HeaderRead) : Nat :=
  let bs := h.bytes
  let bind := fieldLE bs 32 16
  if fieldLE bs 0 8 != scrollMagic || fieldLE bs 8 2 != 2 || fieldLE bs 10 2 != 4096 then 0x03
  else if fieldLE bs 22 2 != 0x1280 || 0x10 < byteAt bs 24 || byteAt bs 25 < 0x10 then 0x04
  else if !(byteAt bs 21).testBit s.fuses.lifeCycle || (bind != 0 && bind != s.fuses.uid) then 0x05
  else if sha384 (ownerKeyOf h) != s.fuses.ownerHash then 0x06
  else if !ecdsaOk (ownerKeyOf h) (bs.take 4000) (signatureOf h) then 0x07
  else if byteAt bs 20 < s.fuses.secFloor then 0x08
  else if sectionCount h < 2 || 4 < sectionCount h || !sectionsOk (sectionsOf h) then 0x09
  else if sha384 h.keyBytes != digestOf h 4 || !keysForm h || !keysUnwrap s.security.kek h || !keysOk (keysOf s.security.kek h) then 0x0A
  else 0

/-- COPY_HEADER_KEYS_READ_END (R103): the unwrapped keys go to the seal store (R94). -/
def execCopyHeaderKeysReadEnd (h : HeaderRead) (s : State) : Res :=
  .next (if !s.reading || s.boot.header.isSome then s
    else
      let code := s.headerCheck h
      if code = 0 then
        { s with boot := { s.boot with header := some h }, security := { s.security with keys := keysOf s.security.kek h } }
      else s.abandonCopy code).settle

/-- The DEVICE record (R96). -/
def DeviceRec.parse (bs : Bytes) : DeviceRec :=
  ⟨byteAt bs 4, byteAt bs 5, (byteAt bs 6).testBit 0, (byteAt bs 6).testBit 1, (byteAt bs 6).testBit 2, fieldLE bs 8 2,
   fieldLE bs 10 2⟩

/-- A DEVICE record is valid (R96). -/
def deviceValid (bs : Bytes) : Bool :=
  let d := DeviceRec.parse bs
  bs.length == 16 && fieldLE bs 0 2 == 0x0101 && zerosAt bs 2 2 && d.bootMode < 8 && byteAt bs 6 < 8 && zerosAt bs 7 1 &&
    zerosAt bs 12 4 && d.permitted != 0 && d.permitted.testBit d.bootMode &&
    (!d.certified || (d.cmdAuth && d.debugLock && !d.permitted.testBit 7))

/-- The valid delay sets of a pseudo-channel in a DRAM_SETS record (R561). -/
def setsOf (bs : Bytes) (pc : Nat) : List Nat :=
  let n := byteAt bs 4
  (List.range n).filter (fun k => byteAt bs (16 + 128 * (n * pc + k) + 91) == 1)

/-- A DRAM_SETS record is valid (R561). -/
def dramSetsValid (bs : Bytes) : Bool :=
  let n := byteAt bs 4
  fieldLE bs 0 2 == 0x0102 && zerosAt bs 2 2 && 1 ≤ n && n ≤ 4 && zerosAt bs 5 11 && bs.length == 16 + 8192 * n &&
    (List.range (64 * n)).all (fun e =>
      let x := bs.drop (16 + 128 * e)
      byteAt x 90 < 16 && byteAt x 91 < 2 && zerosAt x 92 36) &&
    (List.range 64).all (fun p => (setsOf bs p).contains 0)

/-- The entry of a physical quay (R473). -/
def LinksEntry.parse (bs : Bytes) : LinksEntry :=
  ⟨byteAt bs 0, byteAt bs 1, byteAt bs 2, (List.range 4).map (fun j => byteAt bs (4 + j)), (List.range 6).map (fun p => byteAt bs (8 + p)),
   byteAt bs 14, byteAt bs 15⟩

/-- The LINKS record (R473, R485). -/
def LinksRec.parse (bs : Bytes) : LinksRec :=
  ⟨(byteAt bs 4).testBit 0, byteAt bs 5, byteAt bs 6, byteAt bs 7, fieldLE bs 8 2, fieldLE bs 10 2,
   (List.range 12).map (fun q => LinksEntry.parse (bs.drop (16 + 16 * q)))⟩

/-- The sub-quays of an entry (R448, R473). -/
def LinksEntry.count (e : LinksEntry) : Nat := if e.split = 3 then 0 else 2 ^ e.split

/-- The link of sub-quay `j` of an entry (R448, R473), in state DOWN. -/
def LinksEntry.link (e : LinksEntry) (j : Nat) : Link :=
  let w := quayWidth e.split
  let g := e.group.getD j 0xFF
  { Link.configured w (quayWidth e.minWidth) (w * j) e.lanes (e.pools.map (fun p => 256 * p)) (if g = 0xFF then none else some g)
      e.xoffHigh e.xoffLow with state := .down }

/-- An entry of a physical quay is valid (R473). -/
def LinksEntry.valid (e : LinksEntry) : Bool :=
  let n := e.count
  let sum (xs : List Nat) : Nat := xs.foldl (fun a b => a + b) 0
  e.split ≤ 3 && (e.split == 3 ||
    (e.minWidth ≤ 2 && e.split ≤ e.minWidth && e.pools.all (fun p => 1 ≤ p) && 1 ≤ e.xoffHigh && e.xoffHigh ≤ 100 &&
      e.xoffLow < e.xoffHigh && n * sum e.pools ≤ 128 && n * sum (e.pools.drop 4) ≤ 16 &&
      (List.range 4).all (fun j =>
        let g := e.group.getD j 0xFF
        if j < n then g < 16 || g == 0xFF else g == 0xFF) &&
      (List.range n).all (fun j => (e.link j).choose.isSome)))

/-- A mask of ring lanes allows the least width (R485, R486). -/
def ringLanesOk (code mask : Nat) : Bool :=
  if code = 0 then mask == 0xFFFF else mask % 256 == 255 || mask / 256 == 255

/-- A LINKS record is valid (R473, R485). -/
def linksValid (bs : Bytes) : Bool :=
  let l := LinksRec.parse bs
  bs.length == 208 && fieldLE bs 0 2 == 0x0104 && zerosAt bs 2 2 && byteAt bs 4 < 2 && zerosAt bs 12 4 &&
    (if l.ringEnable then l.member < 8 && l.members.testBit l.member && l.ringMinWidth ≤ 1 && ringLanesOk l.ringMinWidth l.eastLanes &&
        ringLanesOk l.ringMinWidth l.westLanes
      else zerosAt bs 5 7) &&
    (List.range 12).all (fun q => byteAt bs (16 + 16 * q + 3) == 0) && l.quays.all LinksEntry.valid

/-- The PCIE record (R514). -/
def PcieRec.parse (bs : Bytes) : PcieRec := ⟨byteAt bs 4, byteAt bs 5, fieldLE bs 6 2, byteAt bs 8, (byteAt bs 9).testBit 0⟩

/-- A PCIE record is valid (R514). -/
def pcieValid (bs : Bytes) : Bool :=
  let p := PcieRec.parse bs
  bs.length == 16 && fieldLE bs 0 2 == 0x0105 && zerosAt bs 2 2 && p.widthMax ≤ 4 && 1 ≤ p.genMax && p.genMax ≤ 6 && p.totalVfs ≤ 255 &&
    p.ringsPerVf ≤ 16 && byteAt bs 9 < 2 && zerosAt bs 10 6

/-- The type of a record. -/
def rtype (bs : Bytes) : Nat := fieldLE bs 0 2

/-- The records of one type in a list. -/
def ofType (t : Nat) (rs : List Bytes) : List Bytes := rs.filter (fun r => rtype r == t)

/-- No number twice. -/
def distinct : List Nat → Bool
  | [] => true
  | n :: rest => !rest.contains n && distinct rest

/-- FIRMWARE records stand at the head of a list, one to six, of 393,216 bytes at most in total; what follows them. -/
def afterFirmware (rs : List Bytes) : Option (List Bytes) :=
  let fw := rs.takeWhile (fun r => rtype r == 0x0103)
  let bytes := (fw.map (fun r => r.length - 4)).foldl (fun a b => a + b) 0
  if 1 ≤ fw.length && fw.length ≤ 6 && bytes ≤ 393216 && fw.all (fun r => zerosAt r 2 2) then some (rs.drop fw.length) else none

/-- TABLE, BERTH and MASTER records are valid together (R95, R159, R399). -/
def State.tablesOk (s : State) (bootMode : Nat) (ring : Bool) (rs : List Bytes) : Bool :=
  let ts := (ofType 0x0106 rs).map TableDef.parse
  rs.all (fun r =>
    if rtype r = 0x0106 then TableDef.valid r && (!(TableDef.parse r).ringSpan || ring) && (bootMode != 7 || (TableDef.parse r).direct || (TableDef.parse r).units != 4)
    else if rtype r = 0x0107 then BerthRec.valid r
    else rtype r == 0x0108 && s.masterValid r) &&
    ts.length ≤ 4352 && distinct (ts.map (fun d => d.tid)) && distinct ((ofType 0x0107 rs).map (fun r => (BerthRec.parse r).1)) &&
    distinct ((ofType 0x0108 rs).map (fun r => (MasterRec.parse r).1)) &&
    ((ts.filter (fun d => d.direct)).map (fun d => d.segments)).foldl (fun a b => a + b) 0 ≤ 256

/-- Check 11 of R103: the CORE contents are valid (R95). -/
def State.coreOk (s : State) (rs : List Bytes) : Bool :=
  match rs with
  | dev :: sets :: rest =>
    match afterFirmware rest with
    | some (links :: pcie :: tail) =>
      deviceValid dev && dramSetsValid sets && linksValid links && pcieValid pcie &&
        s.tablesOk (DeviceRec.parse dev).bootMode (LinksRec.parse links).ringEnable tail
    | _ => false
  | _ => false

/-- A sealed record (R89): its nonce, its ciphertext, its tag and the bytes that it takes with its padding. -/
structure SealedRec where
  nonce : Bytes
  text : Bytes
  tag : Bytes
  length : Nat
deriving DecidableEq, Repr

/-- The sealed record at the start of stored bytes (R89); none where they do not have the form. -/
def sealedAt (bs : Bytes) : Option SealedRec :=
  let n := fieldLE bs 12 4
  let total := (n + 47) / 16 * 16
  if 1 ≤ n && n ≤ 65536 && total ≤ bs.length && zerosAt bs (32 + n) (total - 32 - n) then
    some ⟨bs.take 12, (bs.drop 16).take n, (bs.drop (16 + n)).take 16, total⟩
  else none

/-- The additional authenticated data of a record (R90): the section's type, the record's index and scroll_seq. -/
def recordAad (typ index seq : Nat) : Bytes := leBytes typ 1 ++ [0] ++ leBytes index 2 ++ leBytes seq 4 ++ zeros 8

/-- The plaintext of a sealed record, where its tag verifies under round keys (R89 to R91). -/
def SealedRec.open (ks : List Nat) (typ index seq : Nat) (r : SealedRec) : Option Bytes :=
  if gcmTag ks r.nonce (recordAad typ index seq) r.text == r.tag then some (gcmCrypt ks r.nonce r.text) else none

/-- The records of stored bytes, each with its plaintext where its tag verifies, `fuel` of them at most; bytes without the form of R89
are one record that does not verify. -/
def openRecords (ks : List Nat) (typ seq : Nat) : Nat → Nat → Bytes → List (Option Bytes)
  | 0, _, _ => []
  | fuel + 1, index, bs =>
    if bs.isEmpty then []
    else match sealedAt bs with
      | none => [none]
      | some r => r.open ks typ index seq :: openRecords ks typ seq fuel (index + 1) (bs.drop r.length)

/-- The scroll key of the seal store (R93, R94). -/
def State.scrollKey (s : State) : Bytes := ((s.security.keys.find? (fun k => k.use == 1)).map (fun k => k.value)).getD []

/-- The records of the CORE section of a copy with a header (R89, R91). -/
def State.coreRecords (s : State) (h : HeaderRead) (stored : Bytes) : List (Option Bytes) :=
  openRecords (roundKeys s.scrollKey) 1 (scrollSeqOf h) (stored.length / 32 + 1) 0 stored

/-- Check 10 of R103: every record verifies, and there are as many as the section table says (R91). -/
def State.coreVerifies (s : State) (h : HeaderRead) (stored : Bytes) : Bool :=
  let rs := s.coreRecords h stored
  rs.all (fun r => r.isSome) && some rs.length == (sectionOf h 1).map (fun x => x.recordCount)

/-- Where the scratchpad holds the decrypted CORE and the buffer of flash programming (notes/assumptions/144.md). -/
def scratchCore : Nat := 0
/-- The buffer of flash programming. -/
def scratchFlash : Nat := 0x80000

/-- COPY_CORE_READ_END (R91, R103, R104, R107): checks 9, 10 and 11 in the stroke of the last byte; the decrypted records stand in the
scratchpad. -/
def execCopyCoreReadEnd (stored : Bytes) (s : State) : Res :=
  .next (match s.boot.header with
    | none => s
    | some h =>
      let records := (s.coreRecords h stored).filterMap id
      if !s.reading then s
      else if sha384 stored != digestOf h 1 then s.abandonCopy 0x0B
      else if !s.coreVerifies h stored then s.abandonCopy 0x0C
      else if !s.coreOk records then s.abandonCopy 0x0D
      else { s with
        boot := { s.boot with stage := 4, core := records, scrollSeq := scrollSeqOf h }
        scratch := s.scratch.write scratchCore records.flatten }).settle

/-- COPY_READ_TIMEOUT (R103): the copy is not accepted within 200 ms. -/
def execCopyReadTimeout (s : State) : Res := .next (if s.reading then s.abandonCopy 0x02 else s).settle

/-- APPLY_FAILURE (R103, R107). -/
def execApplyFailure (s : State) : Res := .next (if s.boot.stage = 4 && !s.boot.applied then s.abandonCopy 0x0E else s).settle

/-- The physical slots after the boot self-test (R608): the failed ones with their lines, the others fresh. -/
def State.slotsTested (s : State) (failed : List SlotFail) : State :=
  let slots := failed.foldl (fun (m : Table SlotState) f => m.put f.slot ⟨.failed, f.count, f.line⟩) []
  { s with service := { s.service with slots := slots, unavailable := [] }, arrays := { s.arrays with served := [] } }

/-- A logical bank receives its slot (R608). -/
def State.placeBank (s : State) (l : Nat) : State :=
  if (s.slotState (ownSlot l)).health != .failed then s
  else if (s.slotState (spareSlot l)).health == .free then
    ({ s with arrays := { s.arrays with served := s.arrays.served.put l (spareSlot l) } }).setHealth (spareSlot l) .serving
  else { s with service := { s.service with unavailable := s.service.unavailable ++ [l] } }

/-- BANK_UNAVAILABLE records at the end of Apply (R609). -/
def State.reportUnavailable (s : State) : State :=
  s.each s.service.unavailable (fun t l =>
    t.faultEvent 0x15 2 0x2 l (t.slotState (ownSlot l)).failCount (t.slotState (spareSlot l)).failCount)

/-- A pseudo-channel that failed every set in Apply is fenced, and an idle spare of its stack that verified takes its place (R565,
R568). -/
def State.bootFence (s : State) (dead : List Nat) (pc : Nat) : State :=
  let p := s.pc pc
  if p.state == .fenced then s
  else
    let s1 := s.setPc pc { p with state := .fenced }
    let spares := if pc < 32 then [30, 31] else [62, 63]
    let spare := if (pcGroup pc).isSome then spares.find? (fun k => (s1.pc k).state == .idleSpare && !dead.contains k) else none
    let s2 := match spare with
      | some k => s1.setPc k { s1.pc k with state := .inService, serves := pc }
      | none => s1
    (s2.raise Fld.MEM_STATUS_fenced).memoryEvent 0x02 2 pc (spare.getD 0xFF) 0 0

/-- A group lost a pseudo-channel in this Apply and no spare took its place (R568: code 0x0E). -/
def State.bootDead (s : State) (dead : List Nat) : Bool :=
  dead.any (fun pc => (pcGroup pc).isSome && (s.spareOf pc).isNone)

/-- The DRAM of Apply (R559, R561, R564, R568): the generators seeded, the sets that verified, and the fences. -/
def State.bootDram (s : State) (sets : Bytes) (r : ApplyResult) : State :=
  let valid := (List.range 64).map (fun p => (p, setsOf sets p))
  let d := { s.dramCtl with
    nsets := byteAt sets 4, validSets := valid.filter (fun (x : Nat × List Nat) => x.2 != [0]), sets := sets
    generators := (List.range 64).map (fun p => (p, Config.random (s.freeCounter + p) % 2 ^ 32)) }
  let s1 := { s with dramCtl := d, freeCounter := s.freeCounter + 64 }
  let s2 := s1.each r.sets (fun t p => if p.1 < 64 then t.setPc p.1 { t.pc p.1 with set := p.2 % 4 } else t)
  s2.each (r.dead.filter (fun p => p < 64)) (fun t p => t.bootFence r.dead p)

/-- The links of Apply (R448, R473, R486): every configured logical quay begins bring-up; the ring ports wait for the gates. -/
def State.bootLinks (s : State) (rec_ : LinksRec) : State :=
  let quays : List (Nat × Link) := (List.range 12).flatMap (fun q =>
    let e := rec_.quays.getD q ⟨3, 0, 0, [], [], 1, 0⟩
    (List.range e.count).map (fun j => (4 * q + j, { e.link j with since := s.now })))
  let least := if rec_.ringMinWidth = 0 then 16 else 8
  let east := Link.configured 16 least 0 rec_.eastLanes [] none 0 0
  let west := Link.configured 16 least 0 rec_.westLanes [2048] none 0 0
  let s1 := { s with links :=
    ⟨rec_, quays, if rec_.ringEnable then east else Link.reset, if rec_.ringEnable then west else Link.reset⟩ }
  s1.each (quays.map (fun (p : Nat × Link) => p.1)) (fun t q => t.bringUp (.quay q))

/-- A TABLE, BERTH or MASTER record of CORE is applied (R102, R107, R116). -/
def State.bootRecord (s : State) (r : Bytes) : State :=
  if rtype r = 0x0106 then
    let d := TableDef.parse r
    s.createTable d (if d.seedGate && !s.boot.fromOffGuard then .gated else .live)
  else if rtype r = 0x0107 then
    let (n, b) := BerthRec.parse r
    s.setBerth n (Berth.reset.take b)
  else
    let (m, x) := MasterRec.parse r
    s.takeMaster m x

/-- The staging region of DRAM (R42): the retained firmware at its start, the decrypted CORE behind it (notes/assumptions/144.md). -/
def stagingAddr : Nat := 0x62000000
/-- The decrypted CORE in the staging region. -/
def stagingCore : Nat := 0x62100000

/-- The firmware is started, a copy of it retained, and CORE copied to the staging region (R107). -/
def State.stageCore (s : State) : State :=
  let fw := (s.boot.core.filter (fun r => rtype r == 0x0103)).flatMap (fun r => r.drop 4)
  let s1 := { s with boot := { s.boot with firmwareRuns := true } }
  (s1.dramWrite stagingAddr fw).dramWrite stagingCore s.boot.core.flatten

/-- CORE_APPLY_COMPLETE (R107, R608, R609): the self-test of a boot after power-on, the DRAM, the links, PCIe, tables, berths and
masters. A pseudo-channel that has no spare left fails the Apply with code 0x0E. -/
def State.applyCore (s : State) (r : ApplyResult) : State :=
  match s.boot.core with
  | dev :: sets :: rest =>
    let tail := (afterFirmware rest).getD []
    let s1 := if s.boot.powerOn then (s.slotsTested r.failed).each (List.range 512) State.placeBank else s
    let s2 := s1.bootDram sets r
    if s2.bootDead r.dead then s2.abandonCopy 0x0E
    else
      let s3 := { s2 with
        boot := { s2.boot with device := DeviceRec.parse dev, powerOn := false, applied := true }
        host := { s2.host with pcie := PcieRec.parse (tail.getD 1 []) } }
      let s4 := (s3.bootLinks (LinksRec.parse (tail.getD 0 []))).each (tail.drop 2) State.bootRecord
      s4.reportUnavailable.stageCore
  | _ => s

/-- CORE_APPLY_COMPLETE (R107). -/
def execCoreApplyComplete (r : ApplyResult) (s : State) : Res :=
  .next (if s.boot.stage = 4 && !s.boot.applied then s.applyCore r else s).settle

/-- A section of the copy in force is present. -/
def State.hasSection (s : State) (t : Nat) : Bool :=
  match s.boot.header with
  | some h => (sectionOf h t).isSome
  | none => false

/-- The LOG_CARRIED record after an exit from Deep or Off-Guard (R603): the class counts in one byte each, held at 255. -/
def State.postCarried (s : State) : State :=
  match s.faults.carried with
  | none => s
  | some (counts, discarded) =>
    ({ s with faults := { s.faults with carried := none } }).faultEvent 0x13 3 0xD 0
      (leNat ((counts.take 5).map (fun n => BitVec.ofNat 8 (min n 255)))) discarded

/-- The boundary that opens the first dispatch tide (R102, R107, R116, R467, R476, R509). After an exit from Off-Guard, whose SEED section is
disregarded, seed_done is 1 at once (DESIGN CHOICE, notes/assumptions/158.md). -/
def State.serveBegin (s : State) : State :=
  if s.boot.stage != 4 || !s.boot.applied then s
  else
    let b := s.boot
    let noSeed := !s.hasSection 3 || b.fromOffGuard
    let boot := { b with
      stage := 5, applied := false, glyphDone := !s.hasSection 2, seedDone := noSeed, seedClosed := noSeed }
    let mode : ModeState := ⟨b.device.bootMode, none, false, none, none, b.device.bootMode, s.clock.grid⟩
    let tables := s.tables.map (fun (p : Nat × TableRec) =>
      (p.1, { p.2 with chart := { p.2.chart with version := s.clock.count, mirror := b.device.bootMode == 3 } }))
    let s1 := { s with boot := boot, mode := mode, tables := tables }
    let w := if b.device.bootMode = 6 then 2 ^ s1.member else 0
    let e : Epoch := ⟨0, 2 ^ s1.member, w⟩
    let s2 := { s1 with ring := { s1.ring with epoch := e, previous := e, solo := true } }
    let s3 := (s2.setFld Fld.GLB_MODE_STATUS_since (s2.clock.count % 2 ^ 32)).grantCredits
    let s4 := if s3.bit Fld.RNG_CTL_auto_join then s3.joinRing else s3
    let s5 := if b.copy = 1 && b.errA != 0 then s4.faultEvent 0x0B 4 0x0 1 b.errA b.errB else s4
    s5.postCarried.endExit

/-- A GLYPH or SEED section is rejected (R109). -/
def State.rejectSection (s : State) (typ index done : Nat) : State := s.faultEvent 0x0C 3 0x0 typ index done

/-- A record of the background section of a type, at its index in the section (R89 to R92): its contents behind the record type, where
it is one record whose tag verifies. -/
def State.openRecord (s : State) (typ index : Nat) (stored : Bytes) : Option Bytes :=
  match sealedAt stored with
  | none => none
  | some r =>
    match r.open (roundKeys s.scrollKey) typ index s.boot.scrollSeq with
    | none => none
    | some p => if r.length = stored.length && 4 ≤ p.length then some (p.drop 4) else none

/-- How a section stands once its next record is read (R91): 0 more is to come, 1 it ends and is accepted, 2 it ends without the digest
or the number of records that its header gives. -/
def State.sectionEnd (s : State) (typ records : Nat) (stored : Bytes) : Nat :=
  match s.boot.header.bind (fun h => (sectionOf h typ).map (fun x => (x, digestOf h typ))) with
  | none => 2
  | some (x, digest) =>
    let all_ := s.boot.sectionBytes ++ stored
    if all_.length < x.storedLen then 0
    else if records == x.recordCount && sha384 all_ == digest then 1 else 2

/-- A slot that the GLYPH section is loading. -/
def Glyph.booting (g : Glyph) : Bool := g.state == .loading && g.copying && g.command.isNone && !g.byRegister

/-- The GLYPH section is rejected (R109): what remains of it is discarded, the sets that are whole stay. -/
def State.rejectGlyph (s : State) : State :=
  let b := s.boot
  let s1 := (s.raise Fld.GLB_BOOT_STATUS_glyph_err).rejectSection 2 b.glyphRecord b.glyphSets
  { s1 with
    boot := { b with glyphDone := true, sectionBytes := [] }
    scribes := { s1.scribes with glyphs := s1.scribes.glyphs.filter (fun (p : Nat × Glyph) => !p.2.booting) } }

/-- Contents of a set are written to its slot behind what the slot holds, within its 128 MiB (R98); a set that is whole comes to
admission. -/
def State.takeImage (s : State) (g : GlyphRecord) (contents : Bytes) : State :=
  let x := s.glyph g.set
  let y := if x.booting then x else { Glyph.reset with state := .loading, copying := true }
  let fits := contents.take (0x8000000 - y.imageLen)
  let s1 := (s.dramWrite (glyphAddr g.set + y.imageLen) fits).setGlyph g.set { y with imageLen := y.imageLen + contents.length }
  if g.lastOfSet then s1.admitImage g.set true else s1

/-- A GLYPH record (R91, R98, R109, R340). It waits while its slot is held by another load. -/
def State.takeGlyph (s : State) (g : GlyphRecord) : State :=
  let b := s.boot
  match s.openRecord 2 b.glyphRecord g.stored with
  | none => s.rejectGlyph
  | some contents =>
    let ending := s.sectionEnd 2 (b.glyphRecord + 1) g.stored
    if ending = 2 then s.rejectGlyph
    else if !(s.glyph g.set).booting && s.setBusy g.set then s
    else
      let s1 := s.takeImage g contents
      { s1 with boot := { b with
        glyphRecord := b.glyphRecord + 1, glyphSets := b.glyphSets + b2n g.lastOfSet, glyphDone := ending == 1,
        sectionBytes := if ending = 1 then [] else b.sectionBytes ++ g.stored } }

/-- GLYPH_RECORD_VERIFIED (R98, R107, R116): a record of the section has been read. -/
def execGlyphRecordVerified (t : Nat) (g : GlyphRecord) (s : State) : Res :=
  let s0 := s.at t
  .next (if s0.serving && !s0.boot.glyphDone && g.set < 64 then s0.takeGlyph g else s0).settle

/-- The insertion commands of a SEED record (R99): one behind the other, each of the length that its header gives. -/
def seedCommands : Nat → Bytes → List Bytes
  | 0, _ => []
  | fuel + 1, bs =>
    let n := 8 * fieldLE bs 2 2
    if bs.isEmpty then []
    else if n = 0 || bs.length ≤ n then [bs]
    else bs.take n :: seedCommands fuel (bs.drop n)

/-- A SEED record (R91, R99, R100, R102, R109): its commands enter the SEED FIFO; `ended` names the tables for which the section holds no
further insertion. -/
def State.takeSeed (s : State) (stored : Bytes) (ended : List Nat) : State :=
  let b := s.boot
  let ending := s.sectionEnd 3 (b.seedRecord + 1) stored
  match s.openRecord 3 b.seedRecord stored with
  | some contents =>
    if ending = 2 then
      let s1 := (s.raise Fld.GLB_BOOT_STATUS_seed_err).rejectSection 3 b.seedRecord b.seedInserted
      { s1 with boot := { b with seedClosed := true, sectionBytes := [] } }
    else
      let s1 := s.each (seedCommands contents.length contents) (fun x c => x.enterCommand .seed 0 0 c false false)
      { s1 with boot := { b with
        seedRecord := b.seedRecord + 1, seedClosed := ending == 1, seedEnded := b.seedEnded ++ ended
        sectionBytes := if ending = 1 then [] else b.sectionBytes ++ stored } }
  | none =>
    let s1 := (s.raise Fld.GLB_BOOT_STATUS_seed_err).rejectSection 3 b.seedRecord b.seedInserted
    { s1 with boot := { b with seedClosed := true, sectionBytes := [] } }

/-- SEED_RECORD_VERIFIED (R99, R107): after GLYPH. -/
def execSeedRecordVerified (t : Nat) (stored : Bytes) (ended : List Nat) (s : State) : Res :=
  let s0 := s.at t
  .next (if s0.serving && s0.boot.glyphDone && !s0.boot.seedDone && !s0.boot.seedClosed then s0.takeSeed stored ended else s0).settle

/-- A SEED command waits or has not completed (R102). -/
def State.seedWork (s : State) (tid : Option Nat) : Bool :=
  let names (r : Bytes) : Bool := match tid with
    | some t => cmdTid r == t
    | none => true
  (s.fifo .seed).any (fun c => names c.record) || s.cmds.accepted.any (fun a => a.src == .seed && names a.record)

/-- No SEED insertion of a table is left to read (R102): the section has named its last one, or has ended. -/
def State.seedRead (s : State) (tid : Nat) : Bool := s.boot.seedClosed || s.boot.seedEnded.contains tid

/-- The seed gates and seed_done at a boundary (R102, GLB_BOOT_STATUS.seed_done): a gated table comes into existence once its last
insertion has completed. -/
def State.seedBoundary (s : State) : State :=
  let tables := s.tables.map (fun (p : Nat × TableRec) =>
    if p.2.state == TableState.gated && s.seedRead p.1 && !s.seedWork (some p.1) then (p.1, { p.2 with state := .live }) else p)
  { s with tables := tables, boot := { s.boot with seedDone := s.boot.seedDone || (s.boot.seedClosed && !s.seedWork none) } }

/-- A write of GLB_BOOT_CTL (R106, R111). -/
def State.writeBootCtl (s : State) (fn w mask : Nat) : State :=
  if fn != 0 then s.logAccess fn Reg.GLB_BOOT_CTL.offset 2
  else if Fld.GLB_BOOT_CTL_reboot.get (w &&& mask) = 1 then s.coldReset.raise Fld.PWR_RESET_CAUSE_reboot
  else if Fld.GLB_BOOT_CTL_retry.get (w &&& mask) = 1 && s.recovery && s.fuses.lifeCycle != 0 && s.fuses.lifeCycle != 4 then
    s.beginDiscovery
  else s

/-- GLB_BOOT_REBOOT (R106). -/
def execGlbBootReboot (t fn : Nat) (w : Word64) (s : State) : Res := .next ((s.at t).writeBootCtl fn w.toNat fullMask).settle

/-- GLB_BOOT_RETRY (R111). -/
def execGlbBootRetry (t fn : Nat) (w : Word64) (s : State) : Res := .next ((s.at t).writeBootCtl fn w.toNat fullMask).settle

/-- A programming range is refused (R86, R113): also one whose length no write has set to 1 to 256 pages
(notes/assumptions/145.md). The copy in force is the one that is applied or serves. -/
def State.flashRefused (s : State) (off len : Nat) : Bool :=
  let base := 0x10000000 * s.boot.copy
  let inForce := (s.boot.stage == 4 || s.boot.stage == 5) && !(s.boot.glyphDone && s.boot.seedDone) && off < base + 0x10000000 && base < off + len
  0x20000000 < off + len || inForce || s.fuses.lifeCycle == 4 || len == 0

/-- The length of the programming range in bytes. -/
def State.flashLen (s : State) : Nat := 4096 * s.fld Fld.GLB_FLASH_PROG_CTL_pages

/-- The go of GLB_FLASH_PROG_CTL (R112, R113): the DMA engine reads the buffer. -/
def State.flashGo (s : State) : State :=
  if s.flashRefused (s.fld Fld.GLB_FLASH_PROG_CTL_flash_off) s.flashLen then s.setFld Fld.GLB_FLASH_PROG_CTL_result 2
  else
    let s1 := s.emit (.hostRead (s.fld Fld.GLB_FLASH_PROG_ADDR_host_addr) s.flashLen)
    { s1 with host := { s1.host with flashBusy := true } }

/-- A write of GLB_FLASH_PROG_CTL (R112). -/
def State.writeFlashCtl (s : State) (fn w mask : Nat) : State :=
  s.goWrite fn w mask .GLB_FLASH_PROG_CTL 0 Fld.GLB_FLASH_PROG_CTL_go (fun x => x.host.flashBusy) State.flashGo

/-- FLASH_PROG_GO (R112, R113). -/
def execFlashProgGo (t fn : Nat) (w : Word64) (s : State) : Res := .next ((s.at t).writeFlashCtl fn w.toNat fullMask).settle

/-- The operations that program a range (R112): the sectors erased, the range programmed and read back. -/
def flashOps (off : Nat) (data : Bytes) : List FlashOp :=
  (List.range (data.length / 4096)).map (fun k => FlashOp.erase (off + 4096 * k)) ++ [.program off data, .read off data.length]

/-- The buffer has come and stands in the scratchpad; the range is programmed, and what is read back decides the result (R112). -/
def State.flashProgram (s : State) (data back : Bytes) : State :=
  let s1 := { s with scratch := s.scratch.write scratchFlash data }
  let s2 := s1.each (flashOps (s.fld Fld.GLB_FLASH_PROG_CTL_flash_off) data) (fun t op => t.emit (.flash op))
  s2.setFld Fld.GLB_FLASH_PROG_CTL_result (if back = data then 0 else 1)

/-- FLASH_PROG_DONE (R112): with the buffer that the DMA engine read, none where it failed, and what the flash device holds then. -/
def execFlashProgDone (t : Nat) (data : Option Bytes) (back : Bytes) (s : State) : Res :=
  let s0 := s.at t
  .next (if !s0.host.flashBusy then s0
    else
      let s1 := { s0 with host := { s0.host with flashBusy := false } }
      match data with
      | none => s1.setFld Fld.GLB_FLASH_PROG_CTL_result 3
      | some d => if d.length = s0.flashLen then s1.flashProgram d back else s0).settle

end Sys2Proof.Machine
end

