-- ==== Sys2Proof/Machine/Security.lean ====
section
/-! DEFINITION. Berth and master commands (R414 to R416, R431, R440), life cycle (R444), key wrapping (R423 to R425), tamper (R443),
the entropy source (R420), debug (R446) and the TAP (R445, R630). -/
namespace Sys2Proof.Machine

/-- BERTH_WRITE (R414, R415). -/
def execBerthWrite (t : Nat) (src : Source) (s : State) : Res :=
  .next (s.atHead t src (fun op => op == 0x38) (fun s0 c =>
    let body := cmdBody c.record
    s0.checked src c false false (body.length == 296) .supervisor (fun _ => none) (fun s1 =>
      if BerthRec.valid body then
        let (b, r) := BerthRec.parse body
        (s1.defer (.berth b r)).acceptBoundary src c 0
      else s1.refuse src c 0x13 0))).settle

/-- A forgive of a berth is accepted (R414, R416): pending until its boundary. -/
def State.takeForgive (s : State) (b : Nat) : State := (s.setBerth b { s.berth b with forgivePending := true }).defer (.forgive b)

/-- BERTH_FORGIVE (R414). -/
def execBerthForgive (t : Nat) (src : Source) (s : State) : Res :=
  .next (s.atHead t src (fun op => op == 0x39) (fun s0 c =>
    let body := cmdBody c.record
    let form := body.length == 8 && fieldLE body 0 2 < 16384 && zerosAt body 2 6
    s0.checked src c false false form .supervisor (fun _ => none) (fun s1 =>
      (s1.takeForgive (fieldLE body 0 2)).acceptBoundary src c 0))).settle

/-- A write of BTH_SHAPER_CTL (R416). -/
def State.writeShaperCtl (s : State) (fn w mask : Nat) : State :=
  let off := Reg.BTH_SHAPER_CTL.offset
  let go := Fld.BTH_SHAPER_CTL_forgive.get (w &&& mask) = 1
  let refused (x : State) : State := if go then x.raise Fld.BTH_STATUS_refused else x
  if s.holds .BTH_SHAPER_CTL then s.holdWrite fn .BTH_SHAPER_CTL w mask
  else if fn != 0 then refused (s.logAccess fn off 2)
  else if !s.served .BTH_SHAPER_CTL 0 then s.logAccess fn off 6
  else if !go then s
  else if s.cmdAuth then refused (s.logAccess fn off 3)
  else if (s.berth (s.fld Fld.BTH_SEL_berth fn)).forgivePending then s.logAccess fn off 7
  else s.takeForgive (s.fld Fld.BTH_SEL_berth fn)

/-- BTH_FORGIVE (R416). -/
def execBthForgive (t fn : Nat) (w : Word64) (s : State) : Res := .next ((s.at t).writeShaperCtl fn w.toNat fullMask).settle

/-- MASTER_WRITE (R428 to R431, R436). -/
def execMasterWrite (t : Nat) (src : Source) (s : State) : Res :=
  .next (s.atHead t src (fun op => op == 0x41) (fun s0 c =>
    let body := cmdBody c.record
    s0.checked src c false false (body.length == 24) .supervisor (fun _ => none) (fun s1 =>
      if s1.masterValid body then
        let (m, r) := MasterRec.parse body
        (s1.defer (.master m r)).acceptBoundary src c 0
      else s1.refuse src c 0x13 0))).settle

/-- THAW (R436, R440). -/
def execThaw (t : Nat) (src : Source) (s : State) : Res :=
  .next (s.atHead t src (fun op => op == 0x42) (fun s0 c =>
    let body := cmdBody c.record
    s0.checked src c false false (body.length == 8 && zerosAt body 4 4) .supervisor (fun _ => none) (fun s1 =>
      (s1.thawRequest (fieldLE body 0 4) 1).acceptBoundary src c 0))).settle

/-- A write of SEC_THAW (R440): by the physical function while cmd_auth is 0, of the whole field. -/
def State.writeSecThaw (s : State) (fn w mask : Nat) : State :=
  let off := Reg.SEC_THAW.offset
  if fn != 0 then (s.logAccess fn off 2).raise Fld.SEC_STATUS_thaw_refused
  else if !s.served .SEC_THAW 0 then s.logAccess fn off 6
  else if s.cmdAuth then (s.logAccess fn off 3).raise Fld.SEC_STATUS_thaw_refused
  else if mask % 2 ^ 32 != 2 ^ 32 - 1 then s.logAccess fn off 5
  else s.thawRequest (w % 2 ^ 32) 2

/-- SEC_THAW (R440). -/
def execSecThaw (t fn : Nat) (w : Word64) (s : State) : Res := .next ((s.at t).writeSecThaw fn w.toNat fullMask).settle

/-- AUTO_THAW (R440, R441): at a boundary. -/
def execAutoThaw (s : State) : Res := .next (if s.clock.stroke = 0 then s.thawAll else s).settle

/-- The seal store is zeroised (R422): every key, the session keys, the DRBG state and the boot nonce. -/
def State.zeroise (s : State) : State :=
  { s with security := { s.security with
      rootKeys := false, kek := zeros 32, transport := 0, keys := [], sessions := [], bootNonce := 0 } }

/-- A life-cycle transition (the table of R444), as fields of a number: target, and the security-version floor from Blank. -/
def State.lcAllowed (s : State) (c : Cmd) (target : Nat) : Bool :=
  let f := s.fuses
  let blank := c.master == 0 && s.recovery
  match f.lifeCycle, target with
  | 0, 1 => blank
  | 0, 4 => blank
  | 1, 2 => true
  | 2, 3 => f.lcChanges < 32
  | 3, 2 => f.lcChanges < 32
  | 1, 4 => true
  | 2, 4 => true
  | 3, 4 => true
  | _, _ => false

/-- The form of an LC_CHANGE body (the body table): the owner hash and the floor only from Blank to Provisioned, the signature only
for signed transitions. -/
def State.lcForm (s : State) (body : Bytes) : Bool :=
  let target := byteAt body 0
  let blank := s.fuses.lifeCycle == 0
  body.length == 160 && 1 ≤ target && target ≤ 4 && zerosAt body 1 7 && zerosAt body 57 7 && byteAt body 56 ≤ 64 &&
    ((blank && target == 1) || (zerosAt body 8 48 && byteAt body 56 == 0)) && (!blank || zerosAt body 64 96)

/-- The token message (the life-cycle section): the text ALSRLCT1, the unique identifier, the current state, the target, lc_changes, five
zero bytes and the boot nonce. -/
def State.tokenMessage (s : State) (target : Nat) : Bytes :=
  asciiBytes [0x41, 0x4C, 0x53, 0x52, 0x4C, 0x43, 0x54, 0x31] ++ leBytes s.fuses.uid 16 ++ leBytes s.fuses.lifeCycle 1 ++
    leBytes target 1 ++ leBytes s.fuses.lcChanges 1 ++ zeros 5 ++ leBytes s.security.bootNonce 16

/-- The key that verifies a token: the owner key of the copy in force, or in Recovery that of copy A, as it is read then. -/
def State.tokenKey (s : State) (ownerKeyA : Bytes) : Bytes :=
  match s.boot.header with
  | some h => if s.recovery then ownerKeyA else ownerKeyOf h
  | none => ownerKeyA

/-- The signature of a token verifies and its key is the fused one (R444). -/
def State.tokenOk (s : State) (ownerKeyA body : Bytes) : Bool :=
  let key := s.tokenKey ownerKeyA
  sha384 key == s.fuses.ownerHash && ecdsaOk key (s.tokenMessage (byteAt body 0)) ((body.drop 64).take 96)

/-- LC_CHANGE (R444). In Recovery the owner key of copy A is read. -/
def execLcChange (t : Nat) (src : Source) (ownerKeyA : Bytes) (s : State) : Res :=
  .next (s.atHead t src (fun op => op == 0x44) (fun s0 c =>
    let body := cmdBody c.record
    s0.checked src c false false (s0.lcForm body) .supervisor (fun _ => none) (fun s1 =>
      let target := byteAt body 0
      let signed := s1.fuses.lifeCycle != 0
      if !s1.lcAllowed c target || (signed && !s1.tokenOk ownerKeyA body) || s1.security.lcPending then s1.refuse src c 0x1A 0
      else
        let s2 := s1.defer (.lifeCycle target (byteAt body 56) ((body.drop 8).take 48))
        ({ s2 with security := { s2.security with lcPending := true } }).acceptBoundary src c 0))).settle

/-- The fuses that a life-cycle change blows (R444): from Blank to Provisioned the owner key hash, the floor and a fuse secret drawn
from the DRBG. -/
def State.blowFuses (s : State) (new floor : Nat) (hash : Bytes) : Fuses :=
  let f := s.fuses
  let swap := (f.lifeCycle = 2 && new = 3) || (f.lifeCycle = 3 && new = 2)
  if f.lifeCycle = 0 && new = 1 then
    { f with lifeCycle := 1, secFloor := floor, ownerHash := hash, secret := leBytes (Config.random s.freeCounter) 32 }
  else { f with lifeCycle := new, lcChanges := f.lcChanges + b2n swap }

/-- A life-cycle change at its boundary (R422, R444): the fuses are blown, the new key-encryption key derived, and Recovery entered. -/
def State.applyLifeCycle (s : State) (new floor : Nat) (hash : Bytes) : State :=
  let old := s.fuses.lifeCycle
  let z := s.zeroise
  let f := s.blowFuses new floor hash
  let s1 := { z with
    fuses := f, freeCounter := z.freeCounter + 1
    security := { z.security with
      rootKeys := true, kek := deviceKek f.secret new, transport := transportPrivate f.secret, lcPending := false } }
  let s2 := (s1.securityRecord 0x04 0 0 (old + 256 * new) 0).securityRecord 0x03 0x80 0 0 0
  s2.enterRecovery

/-- The form of a KEY_WRAP body (R423). -/
def wrapForm (body : Bytes) : Bool :=
  let n := fieldLE body 0 2
  n ≤ 8 && body.length == 112 + 64 * n && zerosAt body 2 6 && zerosAt body 105 7 && (n != 0 || zerosAt body 8 97) &&
    (List.range n).all (fun i => zerosAt body (112 + 64 * i + 4) 4)

/-- The uses of the items of a KEY_WRAP body. -/
def wrapUses (body : Bytes) : List Nat := (List.range (fieldLE body 0 2)).map (fun i => byteAt body (112 + 64 * i + 2))

/-- The transport wrapping key of a KEY_WRAP body (R424); none where its ephemeral key is no point of the curve. -/
def State.wrapKey (s : State) (body : Bytes) : Option Bytes := (ecdh s.security.transport ((body.drop 8).take 97)).map transportKey

/-- The item of a KEY_WRAP body at an index (R423). -/
def wrapItem (body : Bytes) (i : Nat) : Bytes := (body.drop (112 + 64 * i)).take 64

/-- The key that an item carries, unwrapped under the transport wrapping key (R423, R424). -/
def State.itemKey (s : State) (body : Bytes) (i : Nat) : Option Bytes :=
  (s.wrapKey body).bind (fun k => kwUnwrap k ((wrapItem body i).drop 8 |>.take 40))

/-- A KEY_WRAP is refused (R420, R425): an item that does not unwrap, an invalid len or use, items that break R94, or a key to generate
with the entropy source failed. -/
def State.wrapRefused (s : State) (body : Bytes) : Bool :=
  let us := wrapUses body
  let count (u : Nat) : Nat := (us.filter (fun x => x == u)).length
  let itemOk (i : Nat) : Bool :=
    let u := us.getD i 0
    byteAt (wrapItem body i) 3 == (if u == 3 then 0 else 40) && (u == 3 || (s.itemKey body i).isSome)
  !s.security.rootKeys || !us.all (fun u => 1 ≤ u && u ≤ 3) || 1 < count 1 || 16 < count 2 || 1 < count 3 ||
    !(List.range us.length).all itemOk || (us.contains 3 && s.security.drbgFailed)

/-- KEY_WRAP (R423, R425, R597): one runs at a time; a second waits at the head of its FIFO. -/
def execKeyWrap (t : Nat) (src : Source) (s : State) : Res :=
  .next (s.atHead t src (fun op => op == 0x45) (fun s0 c =>
    let body := cmdBody c.record
    s0.checked src c false false (wrapForm body) .supervisor (fun _ => none) (fun s1 =>
      if s1.wrapRefused body then s1.refuse src c 0x1B 0
      else if s1.security.keyWrap.isSome then s1
      else
        let id := s1.acceptId
        let s2 := s1.accept src c s1.clock.grid true none none
        { s2 with security := { s2.security with keyWrap := some id } }))).settle

/-- The identity key that a KEY_WRAP generates (R423): a draw of the DRBG, a number from 1 below the order of the base point. -/
def drawnIdentity (c : Nat) : Nat := Config.random c % (n384 - 1) + 1

/-- The KEYS entry that answers an item (R93, R425): its key under the key-encryption key. -/
def State.wrapEntry (s : State) (body : Bytes) (i : Nat) : Bytes :=
  let item := wrapItem body i
  let use := byteAt item 2
  let key := if use = 3 then beBytes (drawnIdentity s.freeCounter) 48 else (s.itemKey body i).getD []
  let wrapped := kwWrap s.security.kek key
  item.take 2 ++ leBytes use 1 ++ leBytes (wrapLen use) 1 ++ zeros 4 ++ wrapped ++ zeros (56 - wrapped.length)

/-- The payload of a KEY_WRAP (R425): without items the transport public key; else the entries in item order, with the public key of a
generated identity key behind them. -/
def State.wrapPayload (s : State) (body : Bytes) : Bytes :=
  let n := fieldLE body 0 2
  if n = 0 then publicKey s.security.transport ++ zeros 7
  else (List.range n).flatMap (s.wrapEntry body) ++
    (if (wrapUses body).contains 3 then publicKey (drawnIdentity s.freeCounter) ++ zeros 7 else [])

/-- KEY_WRAP_COMPLETE (R425, R597): the payload is ready. -/
def execKeyWrapComplete (t : Nat) (s : State) : Res :=
  let s0 := s.at t
  .next (match s0.security.keyWrap with
    | none => s0
    | some id => match s0.cmds.accepted.find? (fun (a : Accepted) => a.id == id) with
      | none => { s0 with security := { s0.security with keyWrap := none } }
      | some a =>
        let payload := s0.wrapPayload (cmdBody a.record)
        let s1 := { s0 with freeCounter := s0.freeCounter + 1, security := { s0.security with keyWrap := none } }
        s1.setResult id (0, 0, 0, 0, payload) s1.dueTide).settle

/-- The causes that the armed sensors can give (R592): the rail sensors only while the main rails are valid. -/
def State.armed (s : State) (causes : Nat) : Nat :=
  if s.power.railsValid then causes % 128 else causes % 128 - causes % 4

/-- A tamper event (R422, R443): the seal store is zeroised, the event logged, and every domain but PD00 held in reset. -/
def State.tamper (s : State) (causes : Nat) : State :=
  let s1 := s.coldReset
  let s2 := { s1 with
    security := { s1.security with tamperEvents := min 65535 (s.security.tamperEvents + 1), tamperCause := causes }
    power := { s1.power with tamperHold := true, mainEn := s1.power.mainEn || !s1.power.halted } }
  s2.raise Fld.PWR_RESET_CAUSE_tamper

/-- TAMPER_TRIP (R443, R634). -/
def execTamperTrip (t causes : Nat) (s : State) : Res :=
  let s0 := s.at t
  .next (if s0.power.vddAon && s0.armed causes != 0 then s0.tamper (s0.armed causes) else s0).settle

/-- TAMPER_HOLD_END (R443): the ROM-stage work, then Recovery. -/
def execTamperHoldEnd (s : State) : Res :=
  .next (if s.power.tamperHold && s.power.railsValid then
    let s1 := ({ s with power := { s.power with tamperHold := false } }).resumeBoot.drawNonce.enterRecovery
    (s1.raise Fld.SEC_STATUS_tamper_seen).securityRecord 0x03 s1.security.tamperCause 0 0 0
    else s).settle

/-- ENTROPY_HEALTH_FAIL (R420). -/
def execEntropyHealthFail (t : Nat) (s : State) : Res :=
  let s0 := s.at t
  .next (if s0.security.rootKeys then
    let s1 := { s0 with security := { s0.security with drbgFailed := true } }
    (s1.raise Fld.SEC_STATUS_drbg_fail).securityRecord 0x05 0 0 0 0
    else s0).settle

/-- Debug opens (R446). -/
def State.openDebug (s : State) : State :=
  let z := s.zeroise
  ({ z with security := { z.security with debugOpen := true } }).securityRecord 0x06 0 0 0 0

/-- A debug token verifies (R446): the signature of the debug authority, whose key has its hash in fuses, over the challenge of the unique
identifier and the boot nonce. -/
def State.debugTokenOk (s : State) (key sig : Bytes) : Bool :=
  sha384 key == s.fuses.debugHash && ecdsaOk key (leBytes s.fuses.uid 16 ++ leBytes s.security.bootNonce 16) sig

/-- DEBUG_TOKEN (R446): in state Returned, by a token that verifies. -/
def execDebugToken (t : Nat) (key sig : Bytes) (s : State) : Res :=
  let s0 := s.at t
  .next (if s0.fuses.lifeCycle = 3 && s0.debugTokenOk key sig && !s0.security.debugOpen then s0.openDebug else s0).settle

/-- R445 limits the TAP to its public instructions. -/
def State.tapRestricted (s : State) : Bool := (s.boot.device.debugLock || !s.serving) && !s.security.debugOpen

/-- The instruction that comes into force (R445): EXTEST and its kin only in Recovery or a halt, debug instructions only while the TAP
is not restricted, BYPASS otherwise. The codes are the implementation's (notes/assumptions/46.md). -/
def State.tapLoads (s : State) (ir : Nat) : Nat :=
  match Config.tapKind ir with
  | 0 => ir
  | 1 => if s.boot.stage = 14 || s.boot.stage = 15 then ir else 0xFF
  | 2 => if s.tapRestricted then 0xFF else ir
  | _ => 0xFF

/-- TAP_INSTRUCTION (R445). -/
def execTapInstruction (ir : Nat) (s : State) : Res :=
  .next (if s.power.vddAon then { s with service := { s.service with tapIr := s.tapLoads (ir % 256) } } else s).settle

/-- TAP_TEST_LOGIC_RESET (R630): the instruction register takes IDCODE. -/
def execTapTestLogicReset (s : State) : Res :=
  .next (if s.power.vddAon then
    let s1 := s.raise Fld.TST_TAP_STATUS_tap_reset
    { s1 with service := { s1.service with tapIr := Config.tapIdcode % 256 } } else s).settle

end Sys2Proof.Machine
end

