-- ==== Sys2Proof/Machine/Service.lean ====
section
/-! DEFINITION. The service commands (R615 to R617): BANK_SERVICE, PC_FENCE, LANE_RETIRE and SCRIBE_SERVICE. -/
namespace Sys2Proof.Machine

/-- SERVICE_REFUSED (R616): the cause, and the register result where there is one. -/
def State.refuseService (s : State) (src : Source) (c : Cmd) (cause result : Nat) : State :=
  s.refuse src c 0x1D 0 ([BitVec.ofNat 8 cause, BitVec.ofNat 8 result] ++ zeros 6)

/-- The form of a BANK_SERVICE body (R615). -/
def bankForm (body : Bytes) : Bool :=
  body.length == 8 && 1 ≤ byteAt body 0 && byteAt body 0 ≤ 3 && zerosAt body 1 1 && zerosAt body 7 1 &&
    (if byteAt body 0 = 3 then byteAt body 4 < 4 && byteAt body 5 < 8 && byteAt body 6 ≤ 16 else fieldLE body 2 2 < 512)

/-- A drain or a return by command (R264, R265, R616). -/
def State.serviceDrain (s : State) (src : Source) (c : Cmd) (bank op : Nat) : State :=
  if s.arrays.drain.isSome then s.refuseService src c 2 0
  else match s.drainRefused bank op with
    | some r => s.refuseService src c 1 r
    | none => (s.startDrain bank op).acceptBoundary src c 0

/-- A self-test by command (R612, R616). -/
def State.serviceTest (s : State) (src : Source) (c : Cmd) (slot : Nat) : State :=
  let h := (s.slotState slot).health
  if s.bistBusy then s.refuseService src c 2 0
  else if h == .serving || h == .testing then s.refuseService src c 3 0
  else (s.requestBist slot).acceptBoundary src c 0

/-- BANK_SERVICE (R615, R616). -/
def execBankService (t : Nat) (src : Source) (s : State) : Res :=
  .next (s.atHead t src (fun op => op == 0x50) (fun s0 c =>
    let body := cmdBody c.record
    s0.checked src c false false (bankForm body) .service (fun _ => none) (fun s1 =>
      if byteAt body 0 = 3 then s1.serviceTest src c (byteAt body 4 * 136 + byteAt body 5 * 17 + byteAt body 6)
      else s1.serviceDrain src c (fieldLE body 2 2) (byteAt body 0)))).settle

/-- The pseudo-channel is fenced, or waits for the boundary that fences it. -/
def State.fencedSoon (s : State) (pc : Nat) : Bool := (s.pc pc).state == .fenced || s.due.any (fun d => d.change == .pcFence pc)

/-- Cause 4 of R616: a fenced pseudo-channel or an idle spare, a rebuild of the stack, or a group left with two fenced
pseudo-channels and no idle spare. -/
def State.fenceRefused (s : State) (pc : Nat) : Bool :=
  let p := s.pc pc
  let fenced := match pcGroup pc with
    | none => 0
    | some g => ((List.range 10).filter (fun i => groupPc g i == pc || s.fencedSoon (groupPc g i))).length
  p.state == .fenced || p.state == .idleSpare || s.dramCtl.rebuilds.any (fun r => r.pc / 32 == pc / 32) ||
    (2 ≤ fenced && (s.idleSpare (pc / 32)).isNone)

/-- PC_FENCE (R615, R617): as R565, with no verification first. -/
def execPcFence (t : Nat) (src : Source) (s : State) : Res :=
  .next (s.atHead t src (fun op => op == 0x51) (fun s0 c =>
    let body := cmdBody c.record
    let pc := byteAt body 0
    s0.checked src c false false (body.length == 8 && pc < 64 && zerosAt body 1 7) .service (fun _ => none) (fun s1 =>
      if s1.fenceRefused pc then s1.refuseService src c 4 0 else (s1.defer (.pcFence pc)).acceptBoundary src c 0))).settle

/-- The port that a LANE_RETIRE names (R615). -/
def portOf (b : Nat) : Option Port :=
  if b < 48 then some (.quay b) else if b = 0x80 then some .east else if b = 0x81 then some .west else none

/-- Cause 5 of R616. -/
def State.laneRefused (s : State) (p : Port) (lane : Nat) : Bool :=
  let l := s.link p
  !s.hasPort p || (match l.lane lane with
    | none => true
    | some x => x.retired || !x.usable || (l.up && l.carries lane && !l.narrows lane))

/-- A lane is retired by command, at its boundary (R477, R478, R615): the port narrows first, with no retrain. -/
def State.retireByCommand (s : State) (p : Port) (lane : Nat) : State :=
  let l := s.link p
  if l.up && l.carries lane then
    if l.otherHalf lane == l.target then s.retireLane p lane
    else if l.narrows lane then (s.setLink p (l.narrowTo lane)).retireLane p lane
    else (s.narrow p lane).retireLane p lane
  else
    let s1 := s.retireLane p lane
    let l1 := s1.link p
    if (l1.state == .train || l1.state == .align || l1.state == .initing) && l1.carries lane then
      (s1.setLink p { l1 with state := .down }).bringUp p
    else s1

/-- LANE_RETIRE (R615, R617). The lane is counted within the port's configured lanes. -/
def execLaneRetire (t : Nat) (src : Source) (s : State) : Res :=
  .next (s.atHead t src (fun op => op == 0x52) (fun s0 c =>
    let body := cmdBody c.record
    let form := body.length == 8 && (portOf (byteAt body 0)).isSome && zerosAt body 2 6
    s0.checked src c false false form .service (fun _ => none) (fun s1 =>
      match portOf (byteAt body 0) with
      | none => s1
      | some p =>
        let lane := (s1.link p).laneBase + byteAt body 1
        if s1.laneRefused p lane then s1.refuseService src c 5 0
        else (s1.defer (.laneRetire p lane)).acceptBoundary src c 0))).settle

/-- SCRIBE_SERVICE (R367, R368, R615). -/
def execScribeService (t : Nat) (src : Source) (s : State) : Res :=
  .next (s.atHead t src (fun op => op == 0x53) (fun s0 c =>
    let body := cmdBody c.record
    let x := byteAt body 1
    let form := body.length == 8 && 1 ≤ byteAt body 0 && byteAt body 0 ≤ 2 && x < 64 && zerosAt body 2 6
    s0.checked src c false false form .service (fun _ => none) (fun s1 =>
      if byteAt body 0 = 2 then (s1.takeOnline x).acceptBoundary src c 0
      else
        let r := s1.offlineCheck x
        if r = 0 then (s1.takeOffline x).acceptBoundary src c 0 else s1.refuseService src c 6 r))).settle

end Sys2Proof.Machine
end

