-- ==== Sys2Proof/Machine/Faults.lean ====
section
/-! DEFINITION. The fault log's delivery (R604), restarts of the management core (R594), the die sensors (R641) and the SMBus target
(R642). -/
namespace Sys2Proof.Machine

/-- The record that the window shows (R323, R604): the oldest held, else the one freed last. -/
def State.fltRecord (s : State) : Bytes :=
  match s.faults.held with
  | r :: _ => r.bytes
  | [] => s.faults.lastTaken

/-- Eight bytes of the window. -/
def State.fltWindow (s : State) (n : Nat) : Nat := fieldLE s.fltRecord (8 * n) 8

/-- The oldest record is freed. -/
def State.freeFault (s : State) : State :=
  { s with faults := { s.faults with held := s.faults.held.drop 1, lastTaken := s.fltRecord } }

/-- The effect of a read of FLT_WIN3 that returns the bytes from `byte` on (R604). -/
def State.fltRead (s : State) (byte size : Nat) : State :=
  if s.fld Fld.FLT_CTL_dest = 0 && 8 ≤ byte + size && !s.faults.held.isEmpty then s.freeFault else s

/-- FLT_WIN_READ (R604): through the physical function; a virtual function reads 0 (R518). -/
def execFltWinRead (t fn byte size : Nat) (s : State) : Res :=
  let s0 := s.at t
  .next (if fn != 0 || !s0.served .FLT_WIN3 0 then s0.emit (.readData fn (zeros size))
    else (s0.fltRead byte size).emit (.readData fn (((leBytes (s0.opening.fltWindow 3) 8).drop byte).take size))).settle

/-- FAULT_LOG_DELIVERY (R604): while dest is 1 the oldest record is written to its EVENT ring, where the ring has room and nothing else
waits for it, and is freed. -/
def execFaultLogDelivery (t : Nat) (s : State) : Res :=
  let s0 := s.at t
  let ring := s0.fld Fld.FLT_CTL_dest_index
  .next (match s0.faults.held with
    | [] => s0
    | r :: _ =>
      if s0.fld Fld.FLT_CTL_dest = 1 && s0.bit Fld.FLT_CTL_en && s0.ringKind ring == 2 && (s0.hostRing ring).writes.isEmpty &&
          s0.eventRoom ring r.bytes then
        ((s0.ringQueue ring .event r.bytes).ringWrite ring).freeFault
      else s0).settle

/-- The management core runs: its domain is on, and it has its firmware. -/
def State.coreRuns (s : State) : Bool :=
  (s.serving || s.recovery) && s.power.railsValid && s.power.state < 3 && !s.power.tamperHold

/-- Flash programming ends with an error status (R593, R594). -/
def State.abandonFlash (s : State) : State :=
  if s.host.flashBusy then
    let s1 := s.setFld Fld.GLB_FLASH_PROG_CTL_result 3
    { s1 with host := { s1.host with flashBusy := false } }
  else s

/-- A KEY_WRAP that runs receives KEY_REFUSED (R594, R597). -/
def State.abandonWrap (s : State) : State :=
  match s.security.keyWrap with
  | some id =>
    let s1 := s.setResult id (0x1B, 0, 0, 0, []) s.dueTide
    { s1 with security := { s1.security with keyWrap := none } }
  | none => s

/-- A restart of the management core (R594): cause 1 the watchdog, 2 a reset of PD02. -/
def State.mgmtRestart (s : State) (cause : Nat) : State :=
  let work := b2n s.host.flashBusy + 2 * b2n s.security.keyWrap.isSome + 4 * b2n (!s.scrub.tagSearches.isEmpty)
  let s1 := s.abandonFlash.abandonWrap
  let searches := s1.scrub.tagSearches.map (fun (x : TagSearch) => { x with grid := s1.clock.grid })
  let s2 := { s1 with scrub := { s1.scrub with tagSearches := searches } }
  ((s2.raise Fld.PWR_RESET_CAUSE_watchdog).bumpHold Fld.PWR_RESET_CAUSE_watchdog_restarts).faultEvent 0x0A 1 0x0 0 cause work

/-- MGMT_WATCHDOG (R594). -/
def execMgmtWatchdog (t : Nat) (s : State) : Res :=
  let s0 := s.at t
  .next (if s0.coreRuns then s0.mgmtRestart 1 else s0).settle

/-- The condition of a domain as PWR_DOMAIN_STATUS codes it (R576): 0 off, 1 on, 2 retained or gated, 3 in reset. -/
def domainInState (state d : Nat) : Nat :=
  if d = 0 then 1
  else match state with
    | 0 => 1
    | 1 => if d = 3 || (20 ≤ d && d ≤ 24) || d = 26 || d = 27 then 2 else 1
    | 2 => if d = 2 || (4 ≤ d && d ≤ 19) then 1 else 2
    | 3 => if d = 3 || d = 4 || d = 5 || d = 26 || d = 27 then 0 else 2
    | 4 => if d = 1 || (6 ≤ d && d ≤ 19) || 28 ≤ d then 2 else 0
    | _ => 0

/-- The condition of a domain now (R576, R592, R593). -/
def State.domainStatus (s : State) (d : Nat) : Nat :=
  if d = 0 then b2n s.power.vddAon
  else if !s.power.railsValid then 0
  else if s.power.tamperHold || s.domainDown d || ((d = 4 || d = 5) && s.power.pcieReset && s.power.state < 3) then 3
  else domainInState s.power.state d

/-- The hottest reading among the die sensors, with the lowest sensor that gives it, in 1/16 °C (R641). -/
def hottest (xs : List Int) : Int × Nat :=
  let m := (xs.drop 1).foldl max (xs.headD 0)
  (m, (xs.findIdx? (fun x => x == m)).getD 0)

/-- A reading in whole °C (R641): where it falls between two, the spec does not say which, a free value. -/
def State.wholeDegrees (s : State) (x : Int) : Nat × State :=
  if x % 16 = 0 then (twos (x / 16) 64, s) else (Config.freeNat s.freeCounter % 2 ^ 64, { s with freeCounter := s.freeCounter + 1 })

/-- The fault log takes records: its scratchpad is on (R576, R600). -/
def State.logRuns (s : State) : Bool := s.power.railsValid && s.power.state < 3 && !s.power.tamperHold && s.boot.stage != 0

/-- DIE_TEMP_READOUT (R641): eight readings in 1/16 °C. -/
def execDieTempReadout (t : Nat) (temps : List Int) (s : State) : Res :=
  let s0 := s.at t
  let (x, sensor) := hottest temps
  let s1 := { s0 with service := { s0.service with dieTemps := temps } }
  .next (if !s1.power.vddAon || temps.length != 8 then s0
    else if !s1.logRuns then s1
    else if 1680 < x && !s1.service.dieHot then
      let (v, s2) := s1.wholeDegrees x
      { s2 with service := { s2.service with dieHot := true } }.faultEvent 0x16 2 0xC sensor v s2.mode.mode
    else if x ≤ 1600 && s1.service.dieHot then
      let (v, s2) := s1.wholeDegrees x
      { s2 with service := { s2.service with dieHot := false } }.faultEvent 0x17 0 0xC sensor v 0
    else s1).settle

/-- The SMBus target answers while VDD_AON is up (R642). -/
def State.smbus (s : State) (bs : Bytes) : State := if s.power.vddAon then s.emit (.smbus bs) else s

/-- GET_IDENT (R642). -/
def execGetIdent (s : State) : Res := .next (s.smbus (leBytes (s.word .GLB_IDENT 0) 8)).settle

/-- The byte of GET_STATE (R642). -/
def State.smbusState (s : State) : Nat :=
  s.power.state % 8 + 8 * b2n s.serving + 16 * b2n s.power.tamperHold + 32 * b2n s.power.halted + 64 * b2n s.pins.alert

/-- GET_STATE (R642). -/
def execGetState (s : State) : Res := .next (s.smbus [BitVec.ofNat 8 s.smbusState]).settle

/-- GET_DIE_TEMP (R642). -/
def execGetDieTemp (s : State) : Res := .next (s.smbus (leBytes (twos (hottest s.service.dieTemps).1 16) 2)).settle

/-- The byte of a stack in GET_STACK_TEMP (R642). -/
def State.stackByte (s : State) (n : Nat) : Byte :=
  if s.domainStatus (28 + n) = 1 then BitVec.ofNat 8 (twos (s.stack n).temp 8) else BitVec.ofNat 8 0xFF

/-- GET_STACK_TEMP (R642). -/
def execGetStackTemp (s : State) : Res := .next (s.smbus [s.stackByte 0, s.stackByte 1]).settle

/-- GET_TAMPER (R642): bits [63:48] of SEC_TAMPER_LOG. -/
def execGetTamper (s : State) : Res := .next (s.smbus (leBytes s.security.tamperEvents 2)).settle

end Sys2Proof.Machine
end

