-- ==== Sys2Proof/Machine/Power.lean ====
section
/-! DEFINITION. Power states, entries and wake events, and domain resets (18_power_and_reset.md). The exits stand in Exit.lean. -/
namespace Sys2Proof.Machine

/-- The result of a power-state request (PWR_STATE_STATUS.result). -/
def State.setPowerResult (s : State) (r : Nat) : State := { s with power := { s.power with result := r } }

/-- A wake event acts (R586, R587): held during an entry, else the exit from a low state begins; the sequencer raises the rails of
Off-Guard (R115). -/
def State.wakeEvent (s : State) (src : Nat) : State :=
  if s.power.tamperHold || !s.power.vddAon || s.power.halted then s
  else if s.power.entry.isSome then
    { s with power := { s.power with heldWake := some (s.power.heldWake.getD src) } }
  else if s.power.state < 2 || s.power.exit.isSome then s
  else
    let s1 := { s with power := { s.power with exit := some src, wakeSrc := src } }
    if s.power.state = 5 then { s1 with power := { s1.power with mainEn := true, railFails := 0 } }
    else if s.power.state = 2 then s1 else s1.verifyAll

/-- Another power change is pending (R580). -/
def State.powerPending (s : State) : Bool := s.power.entry.isSome || s.power.exit.isSome || s.power.idleAt.isSome

/-- The causes for which R580 refuses a change to Doze or below. -/
def State.lowRefused (s : State) : Nat :=
  if s.mode.pending.isSome || s.powerPending then 1
  else if !s.boot.glyphDone || !s.boot.seedDone then 4
  else if s.host.flashBusy then 5
  else 0

/-- A request for a power state (R578, R580, R586), with the result code; `command` is the accepted POWER that makes it. -/
def State.powerRequest (s : State) (target : Nat) (command : Option Nat) : State :=
  match target with
  | 0 =>
    let s1 := s.setPowerResult 0
    let dozing := s.power.state = 2 || (match s.power.entry with
      | some e => e.target == 2
      | none => false)
    if dozing then s1.wakeEvent 2
    else if s.power.state = 1 then { s1.idleWake with power := { s1.idleWake.power with wakeSrc := 2 } }
    else s1
  | 1 =>
    if s.powerPending then s.setPowerResult 1
    else { s.setPowerResult 0 with power := { (s.setPowerResult 0).power with idleAt := some (s.dueTide, command) } }
  | _ =>
    if 5 < target then s.setPowerResult 6
    else
      let r := s.lowRefused
      let s1 := s.setPowerResult r
      if r = 0 then { s1 with power := { s1.power with entry := some ⟨target, 0, s.dueTide, s.clock.grid, false⟩ } } else s1

/-- The go of PWR_STATE_CTL by the physical function (R580, R586). -/
def State.powerGo (s : State) : State :=
  let target := s.fld Fld.PWR_STATE_CTL_target
  if s.cmdAuth && !(target = 0 && s.power.state = 2) then (s.setPowerResult 2).logAccess 0 Reg.PWR_STATE_CTL.offset 3
  else s.powerRequest target none

/-- A write of PWR_STATE_CTL (R578, R580, R586). -/
def State.writePowerCtl (s : State) (fn w mask : Nat) : State :=
  if fn != 0 then
    let s1 := s.logAccess fn Reg.PWR_STATE_CTL.offset 2
    if Fld.PWR_STATE_CTL_go.get (w &&& mask) = 1 then s1.setPowerResult 3 else s1
  else s.goWrite fn w mask .PWR_STATE_CTL 0 Fld.PWR_STATE_CTL_go (fun _ => false) State.powerGo

/-- PWR_WAKE_REGISTER (R586). -/
def execPwrWakeRegister (t fn : Nat) (w : Word64) (s : State) : Res := .next ((s.at t).writePowerCtl fn w.toNat fullMask).settle

/-- PWR_IDLE_REQUEST (R578). -/
def execPwrIdleRequest (t fn : Nat) (w : Word64) (s : State) : Res := .next ((s.at t).writePowerCtl fn w.toNat fullMask).settle

/-- PWR_LOW_STATE_REQUEST (R580). -/
def execPwrLowStateRequest (t fn : Nat) (w : Word64) (s : State) : Res := .next ((s.at t).writePowerCtl fn w.toNat fullMask).settle

/-- The device holds work that R578 names. -/
def State.hasWork (s : State) : Bool :=
  !s.search.waiting.isEmpty || !s.search.flights.isEmpty || !s.scribes.queue.isEmpty ||
    s.scribes.scribes.vals.any (fun v => !v.work.isEmpty) || s.cmds.fifos.vals.any (fun l => !l.isEmpty)

/-- The device enters Idle (R578). -/
def State.enterIdle (s : State) : State :=
  let s1 := match s.power.idleAt with
    | some (_, some id) => s.setResult id (0, 0, 0, 0, []) s.clock.grid
    | _ => s
  { s1 with power := { s1.power with state := 1, idleAt := none } }

/-- AUTO_IDLE_ENTRY (R578): at a boundary, after idle_tides quiet tides. -/
def State.autoIdle (s : State) : State :=
  if s.serving && s.power.state = 0 && s.bit Fld.PWR_STATE_CTL_auto_idle && s.fld Fld.PWR_STATE_CTL_idle_tides ≤ s.power.quietTides &&
      s.power.entry.isNone && s.power.exit.isNone then s.enterIdle
  else s

/-- AUTO_IDLE_ENTRY (R578). -/
def execAutoIdleEntry (s : State) : Res := .next (if s.clock.stroke = 0 then s.autoIdle else s).settle

/-- IDLE_WAKE (R579): the first codeword of a frame, a doorbell write or a TLP of a peer window arrives. -/
def execIdleWake (t : Nat) (s : State) : Res := .next (s.at t).idleWake.settle

/-- The quiet tides, an Idle entry and the start of an entry at a boundary (R578, R582). -/
def State.powerTide (s : State) : State :=
  let quiet := if s.power.accepted then 0 else s.power.quietTides + 1
  let s1 := { s with power := { s.power with quietTides := quiet, accepted := s.hasWork } }
  let s2 := match s1.power.idleAt with
    | some (from_, _) => if s1.serving && from_ ≤ s1.clock.grid && 1 ≤ quiet then s1.enterIdle else s1
    | none => s1.autoIdle
  match s2.power.entry with
  | some e =>
    if e.step = 0 && e.start ≤ s2.clock.grid then
      { s2 with power := { s2.power with entry := some { e with step := 1, lastRecord := s2.clock.grid - 1 } } }
    else s2
  | none => s2

/-- Everything accepted has run to its end (R582 step 2). -/
def State.drained (s : State) : Bool := !s.hasWork && s.cmds.accepted.isEmpty && s.cmds.flights.isEmpty

/-- The member leaves the census for Doze (R582 step 3): a commit that clears its present bit; the gates stay open. -/
def State.clearOwnBit (s : State) : State :=
  let e := s.ring.epoch
  if s.ring.joined && s.ring.gatesOpen && s.ring.leaving.isNone then
    s.launchCommit ⟨(e.number + 1) % 65536, setBit e.present s.member false, setBit e.weight2 s.member false⟩
  else s

/-- ENTRY_DRAIN_END (R582): no record for 64 tides, and what was accepted has ended; the ring step begins. -/
def execEntryDrainEnd (s : State) : Res :=
  .next (match s.power.entry with
    | some e =>
      if e.step = 1 && e.lastRecord + 65 ≤ s.clock.grid && s.drained then
        let s1 := { s with power := { s.power with entry := some { e with step := 3 } } }
        if e.target = 2 then s1.clearOwnBit else s1.beginLeave
      else s
    | none => s).settle

/-- A stripe of the wide counters as the bulk fold reads it (R546, R549, R584): one that does not decode gives its counters as 0. -/
def State.foldStripe (s : State) (r : StripeRead) : State :=
  let base := r.stripe * 256
  if base < wideAddr 0 || wideAddr 16777216 ≤ base then s
  else
    let e := s.stripeEnd r.stripe r.how
    let s1 := (s.countFlags r.stripe r.how).countEnd base e
    if e == .uncorrectable then s1.each (List.range 32) (fun x i => x.setWide ((base - wideAddr 0) / 8 + i) 0) else s1

/-- The narrow counters are folded into the wide ones (R584), with what the reads of some stripes returned. -/
def State.bulkFold (s0 : State) (reads : List StripeRead) : State :=
  let s := s0.each reads State.foldStripe
  s.each s.counters.narrow (fun x (p : Nat × Nat) => (x.setWide p.1 (x.wide p.1 + p.2)).setNarrow p.1 0)

/-- The ring step of an entry has ended (R510, R582). -/
def State.ringLeft (s : State) (e : PowerEntry) : Bool := e.step == 3 && (e.target == 2 || !s.ring.joined)

/-- BULK_FOLD (R584): in an entry to Deep, once every place is free and the fold queue is empty. -/
def execBulkFold (reads : List StripeRead) (s : State) : Res :=
  .next (match s.power.entry with
    | some e =>
      if e.target = 4 && s.ringLeft e && !e.folded && s.counters.places.isEmpty && s.counters.foldQueue.isEmpty &&
          s.counters.held.isEmpty then
        { s.bulkFold reads with power := { s.power with entry := some { e with folded := true } } }
      else s
    | none => s).settle

/-- A quay's lanes go quiet (R480, R582 step 4): it leaves UP, and trains no more. -/
def State.quietLink (s : State) (p : Port) : State :=
  let st := (s.link p).state
  if st == .off || st == .failed then s
  else
    let s1 := s.linkDown p 4
    s1.setLink p { s1.link p with state := .down }

/-- The quays go quiet. -/
def State.quietQuays (s : State) : State := s.each s.links.quays.keys (fun t q => t.quietLink (.quay q))

/-- The undelivered records of each class (R603). -/
def State.carriedCounts (s : State) : List Nat := (List.range 5).map (fun c => (s.faults.held.filter (fun r => r.cls == c)).length)

/-- The records from a slot of the manifest queue on. -/
def Manifest.recordsFrom (m : Manifest) : Nat → Nat → Nat
  | 0, _ => 0
  | fuel + 1, at_ => if at_ < m.commit then 1 + m.recordsFrom fuel (at_ + max 1 (byteAt ((m.ring.find at_).getD []) 2)) else 0

/-- The records still held for delivery (R582 step 5). -/
def State.undelivered (s : State) : Nat :=
  let sum (xs : List Nat) : Nat := xs.foldl (fun a b => a + b) 0
  s.manifest.recordsFrom (s.manifest.commit - s.manifest.release) s.manifest.release + s.manifest.posting.length +
    s.scribes.reports.length + s.observe.buffer.length + sum (s.links.quays.vals.map (fun l => l.tx.length)) +
    sum (s.host.rings.vals.map (fun r => r.writes.length))

/-- The tide count and the RTC count are recorded (R82). -/
def State.recordTide (s : State) : State :=
  { s with power := { s.power with tideRecord := s.clock.count, rtcRecord := s.power.rtc } }

/-- The device rests in a low state, and a wake event held during the entry begins the exit (R587). -/
def State.rest (s : State) (target : Nat) : State :=
  let held := s.power.heldWake
  let s1 := { s with power := { s.power with state := target, entry := none, heldWake := none, idleAt := none } }
  match held with
  | some src => s1.wakeEvent src
  | none => s1

/-- The hot store is emptied (R576); the entries of pinned tables wait for their lines, in the order in which they came into force. -/
def State.emptyHot (s : State) : State :=
  let pinned := s.numbers.entries.filter (fun (p : Nat × Entry) => p.2.state == EntryState.live && (match s.table p.2.tid with
    | some t => t.df.hot == 1 && !t.df.direct && t.df.adBytes != 0
    | none => false))
  let order := sortBy (fun (p : Nat × Entry) => p.2.inForce) pinned
  { s with hot := { s.hot with lines := [], tags := [], filter := [], pinWait := order.map (fun (p : Nat × Entry) => p.1) } }

/-- Retain and Deep (R571, R576, R582): the links stop, the PCIe link goes down, the hot store is emptied, DRAM refreshes itself. -/
def State.sleep (s : State) (target : Nat) : State := (s.quietQuays.dataLinkDown.emptyHot.selfRefresh.recordTide).rest target

/-- Deep (R576, R583, R603): what R583 saves comes back on exit; the learn filter is not saved, and the fault log's counts are
carried. -/
def State.sleepDeep (s : State) : State :=
  let s1 := { s with
    learning := { s.learning with filter := [] }
    faults := { s.faults with carried := some (s.carriedCounts, 0) } }
  s1.sleep 4

/-- Off-Guard (R115, R572, R576, R582, R603): only PD00 keeps its contents, and the delay sets and fences of DRAM stand in it. -/
def State.guardOff (s : State) (held : Option Nat) : State :=
  let n := s.undelivered
  let s1 := if n = 0 then s else s.faultEvent 0x11 3 0xC 0 n 0
  let s2 := ({ s1 with faults := { s1.faults with carried := some (s1.carriedCounts, n) } }).recordTide
  let s3 := s2.quietQuays.coldReset
  let s4 := { s3 with
    boot := { s3.boot with fromOffGuard := true, recordedCopy := s.boot.copy }
    dramCtl := { s3.dramCtl with
      pcs := s3.dramCtl.pcs.map (fun (p : Nat × Pseudo) => (p.1, { p.2 with set := (s.pc p.1).set })) }
    power := { s3.power with
      tideRecord := s2.power.tideRecord, rtcRecord := s2.power.rtcRecord, mainEn := false, railsValid := false, heldWake := held } }
  (s4.raise Fld.PWR_RESET_CAUSE_off_guard).rest 5

/-- ENTRY_COMPLETE (R582): the links, the save, the DRAM and the domains. In Deep it waits for the bulk fold, for every array line to be
settled and for the journal to be empty (R583). -/
def execEntryComplete (s : State) : Res :=
  .next (match s.power.entry with
    | some e =>
      if !s.ringLeft e then s
      else match e.target with
        | 2 => s.quietQuays.rest 2
        | 3 => s.sleep 3
        | 4 => if e.folded && s.scrub.unsettled.isEmpty && s.cmds.journal.isEmpty then s.sleepDeep else s
        | _ => s.guardOff s.power.heldWake
    | none => s).settle

/-- RTC_ALARM (R586): the RTC reaches PWR_WAKE_CTL.alarm. -/
def execRtcAlarm (count : Nat) (s : State) : Res :=
  .next (if s.power.vddAon && count = s.fld Fld.PWR_WAKE_CTL_alarm then
    let s1 := { s with power := { s.power with rtc := max s.power.rtc count, rtcPart := 0 } }
    if s1.bit Fld.PWR_WAKE_CTL_alarm_en then s1.wakeEvent 4 else s1
    else s).settle

/-- PERST_N_WAKE (R586). -/
def execPerstNWake (s : State) : Res :=
  .next (if s.bit Fld.PWR_WAKE_CTL_perst_en then s.wakeEvent 5 else s).settle

/-- WAKE (R586, R643): acknowledged in every case. -/
def execWake (t : Nat) (s : State) : Res :=
  let s0 := (s.at t).smbus []
  .next (if s0.bit Fld.PWR_WAKE_CTL_smbus_en then s0.wakeEvent 3 else s0).settle

/-- The result of a domain-reset request (R593): 0 where it is accepted. -/
def State.resetCheck (s : State) (d : Nat) (fromHost : Bool) : Nat :=
  if d = 0 || d = 1 then 1
  else if d = 3 && s.host.flashBusy then 2
  else if (d = 4 || d = 5) && fromHost then 4
  else if 20 ≤ d && d ≤ 23 && s.mode.mode != 3 && s.numbers.entries.any (fun (p : Nat × Entry) => p.2.bank / 128 == d - 20) then 2
  else if (d = 24 || d = 28 || d = 29) && s.serving then 1
  else 0

/-- A domain reset is accepted: it starts at the next boundary (R593). -/
def State.takeReset (s : State) (d : Nat) (command : Option Nat) : State :=
  { s with power := { s.power with domainReset := some ⟨d, false, s.dueTide, command⟩, resetResult := 0 } }

/-- The go of PWR_DOMAIN_RESET by the physical function (R593). -/
def State.resetGo (s : State) : State :=
  let d := s.fld Fld.PWR_DOMAIN_RESET_domain
  let r := s.resetCheck d true
  if r = 0 then s.takeReset d none else { s with power := { s.power with resetResult := r } }

/-- A write of PWR_DOMAIN_RESET (R593, R625). -/
def State.writeDomainReset (s : State) (fn w mask : Nat) : State :=
  let refused (x : State) : State := { x with power := { x.power with resetResult := 3 } }
  if fn != 0 then
    let s1 := s.logAccess fn Reg.PWR_DOMAIN_RESET.offset 2
    if Fld.PWR_DOMAIN_RESET_go.get (w &&& mask) = 1 then refused s1 else s1
  else s.goClosed fn w mask .PWR_DOMAIN_RESET 0 Fld.PWR_DOMAIN_RESET_go refused (fun x => x.power.domainReset.isSome) State.resetGo

/-- PWR_DOMAIN_RESET (R593). -/
def execPwrDomainReset (t fn : Nat) (w : Word64) (s : State) : Res := .next ((s.at t).writeDomainReset fn w.toNat fullMask).settle

/-- A command came from a PCIe function. -/
def fromHost : Source → Bool
  | .hostRing _ => true
  | .window _ => true
  | _ => false

/-- POWER_REFUSED (R581). -/
def State.refusePower (s : State) (src : Source) (c : Cmd) (r : Nat) : State := s.refuse src c 0x1C 0 (leBytes r 8)

/-- POWER op 1 (R580, R581): OK when the entry begins; for Idle, when the device enters it. -/
def State.powerState (s : State) (src : Source) (c : Cmd) (target : Nat) : State :=
  let id := s.acceptId
  let s1 := s.powerRequest target (some id)
  if s1.power.result != 0 then s1.refusePower src c s1.power.result
  else if target = 1 then s1.accept src c s1.clock.grid true none none
  else s1.acceptBoundary src c 0

/-- POWER op 2 (R581, R593): OK at the boundary at which the reset ends. One that finds a reset running stays at the head of its FIFO. -/
def State.powerReset (s : State) (src : Source) (c : Cmd) (d : Nat) : State :=
  let r := s.resetCheck d (fromHost src)
  if r != 0 then ({ s with power := { s.power with resetResult := r } }).refusePower src c r
  else if s.power.domainReset.isSome then s
  else
    let id := s.acceptId
    (s.takeReset d (some id)).accept src c s.clock.grid true none none

/-- POWER (R581). -/
def execPower (t : Nat) (src : Source) (s : State) : Res :=
  .next (s.atHead t src (fun op => op == 0x43) (fun s0 c =>
    let body := cmdBody c.record
    let op := byteAt body 0
    let form := body.length == 8 && (op == 1 || (op == 2 && byteAt body 1 < 30)) && zerosAt body 2 6
    s0.checked src c false false form .supervisor (fun _ => none) (fun s1 =>
      if op = 1 then s1.powerState src c (byteAt body 1) else s1.powerReset src c (byteAt body 1)))).settle

/-- A link of a domain that is reset (R593): it goes DOWN, its retired lanes are cleared, and it trains when the reset ends. -/
def State.resetLink (s : State) (p : Port) : State :=
  let s1 := s.linkDown p 4
  let l := s1.link p
  let st := if l.state == .off then LinkState.off else .down
  s1.setLink p { l with state := st, lanes := l.lanes.map (fun x => { x with retired := false, retrains := 0 }) }

/-- The quays of a physical quay. -/
def State.quaysOf (s : State) (pq : Nat) : List Nat := s.links.quays.keys.filter (fun q => q / 4 == pq)

/-- A quadrant loses its arrays (R290): its rows are to be rewritten from the shadows; a self-test in it ends FAILED (R613). -/
def State.resetQuadrant (s : State) (q : Nat) : State :=
  let s1 := match s.service.bist with
    | some b => if b.slot / 136 = q then s.endBist b 0 0 true else s
    | none => s
  let inside (k : Nat) : Bool := k / 32768 / 136 == q
  let banks := (List.range 128).map (fun i => 128 * q + i)
  let a := s1.arrays
  { s1 with arrays := { a with
      units := a.units.filter (fun (p : Nat × UnitBits) => !inside p.1), tags := a.tags.filter (fun (p : Nat × Tag) => !inside p.1),
      rewriteBanks := a.rewriteBanks.filter (fun b => b / 128 != q) ++ banks,
      rewritten := a.rewritten.filter (fun k => k / 32768 / 128 != q),
      drain := a.drain.map (fun (d : Drain) => if d.bank / 128 = q then { d with copied := 0, latched := false } else d) } }

/-- The chunks that a half has for the tide that begins return to the heads of their streams (R593). -/
def State.returnChunks (s : State) (half : Nat) : State :=
  s.each ((List.range 32).map (fun i => 32 * half + i)) (fun t x =>
    let v := t.scribe x
    let back := v.work.filter (fun (a : Assigned) => t.clock.grid ≤ a.runTide && a.ended.isNone)
    if back.isEmpty then t
    else
      let s1 := t.setScribe x { v with work := v.work.filter (fun (a : Assigned) => !(t.clock.grid ≤ a.runTide && a.ended.isNone)) }
      s1.each back (fun u (a : Assigned) => { u with scribes := { u.scribes with queue := requeue a.chunk u.scribes.queue } }))

/-- A glyph copy that runs fails admission with code 3 (R593). -/
def State.abandonGlyphs (s : State) : State :=
  let sets := (s.scribes.glyphs.filter (fun (p : Nat × Glyph) => p.2.state == GlyphState.loading && p.2.copying)).map (fun (p : Nat × Glyph) => p.1)
  s.each sets (fun t n => t.admitImage n false)

/-- The effect of a domain reset at its boundary (R593). -/
def State.resetDomain (s : State) (d : Nat) : State :=
  if d = 2 then s.mgmtRestart 2
  else if d = 3 then s.abandonFlash.abandonGlyphs
  else if d = 4 || d = 5 then
    let s1 := s.dataLinkDown
    { s1 with power := { s1.power with pcieReset := true } }
  else if 6 ≤ d && d ≤ 17 then s.each (s.quaysOf (d - 6)) (fun t q => t.resetLink (.quay q))
  else if d = 18 || d = 19 then
    let s1 := (s.resetLink (if d = 18 then .east else .west)).endLeave
    { s1 with ring := { s1.ring with joined := false } }
  else if 20 ≤ d && d ≤ 23 then s.resetQuadrant (d - 20)
  else if d = 26 || d = 27 then s.returnChunks (d - 26)
  else s

/-- A domain reset that has come to its boundary starts (R593). -/
def State.resetTide (s : State) : State :=
  match s.power.domainReset with
  | some x =>
    if x.started || s.clock.grid < x.start then s
    else
      let s1 := { s with power := { s.power with domainReset := some { x with started := true } } }
      (s1.resetDomain x.domain).raise Fld.PWR_RESET_CAUSE_domain
  | none => s

/-- The journal is replayed and every insertion in flight is rolled back (R246, R247). The writes of a step are made whole by its command, so
the replay finds every step of the journal complete (notes/assumptions/133.md). -/
def State.replayJournal (s : State) : State :=
  let flights := s.cmds.flights.map (fun (i : Insertion) => if i.rollback.isNone && i.lastWrite.isNone then { i with rollback := some 0x10 } else i)
  { s with cmds := { s.cmds with flights := flights, journal := [] } }

/-- What the end of a domain reset brings back (R339, R509, R593). -/
def State.restoreDomain (s : State) (d : Nat) : State :=
  if d = 4 || d = 5 then { s with power := { s.power with pcieReset := false } }
  else if 6 ≤ d && d ≤ 17 then
    s.each (s.quaysOf (d - 6)) (fun t q => if (t.link (.quay q)).state == .down then t.bringUp (.quay q) else t)
  else if d = 18 || d = 19 then (if s.bit Fld.RNG_CTL_auto_join then s.joinRing else s)
  else if d = 25 then s.replayJournal
  else if d = 26 || d = 27 then s.reloadHalf (d - 26)
  else s

/-- DOMAIN_RESET_END (R593): at a boundary the domain returns to service, and a POWER command that asked completes. -/
def execDomainResetEnd (s : State) : Res :=
  .next (match s.power.domainReset with
    | some x =>
      if s.clock.stroke = 0 && x.started then
        let s1 := ({ s with power := { s.power with domainReset := none } }).restoreDomain x.domain
        match x.command with
        | some id => (s1.setResult id (0, 0, 0, 0, []) s1.clock.grid).postDue
        | none => s1
      else s
    | none => s).settle

end Sys2Proof.Machine
end

