-- ==== Sys2Proof/Machine/Views.lean ====
section
/-! DEFINITION. What the registers read (R12, R621): the stored fields, with the fields that report the state of the device taken from
the state itself. -/
namespace Sys2Proof.Machine

/-- A mask of the numbers in a list. -/
def maskOf (xs : List Nat) : Nat := (xs.map (fun n => 2 ^ n)).foldl (fun a b => a + b) 0

/-- The live fields of block GLB. GLB_MODE_STATUS.pending_mode reads 0 while no change is pending (DESIGN CHOICE,
notes/assumptions/159.md). -/
def State.liveGLB (s : State) (r : Reg) : List (Fld × Nat) :=
  match r with
  | .GLB_TIDE_COUNT => [(Fld.GLB_TIDE_COUNT_count, s.clock.count)]
  | .GLB_TIDE_STATUS => [(Fld.GLB_TIDE_STATUS_trim, twos s.clock.trim 16)]
  | .GLB_BOOT_STATUS =>
    let inForce := s.boot.stage == 4 || s.boot.stage == 5
    [(Fld.GLB_BOOT_STATUS_scroll_seq, if inForce then s.boot.scrollSeq else 0),
     (Fld.GLB_BOOT_STATUS_life_cycle, s.fuses.lifeCycle),
     (Fld.GLB_BOOT_STATUS_seed_done, b2n s.boot.seedDone), (Fld.GLB_BOOT_STATUS_glyph_done, b2n s.boot.glyphDone),
     (Fld.GLB_BOOT_STATUS_copy, if inForce then s.boot.copy else 0), (Fld.GLB_BOOT_STATUS_stage, s.boot.stage)]
  | .GLB_BOOT_ERROR => [(Fld.GLB_BOOT_ERROR_err_b, s.boot.errB), (Fld.GLB_BOOT_ERROR_err_a, s.boot.errA)]
  | .GLB_FLASH_PROG_CTL => [(Fld.GLB_FLASH_PROG_CTL_busy, b2n s.host.flashBusy)]
  | .GLB_MODE_STATUS =>
    [(Fld.GLB_MODE_STATUS_permitted, s.boot.device.permitted), (Fld.GLB_MODE_STATUS_pending, b2n s.mode.pending.isSome),
     (Fld.GLB_MODE_STATUS_pending_mode, s.mode.pending.getD 0), (Fld.GLB_MODE_STATUS_mode, s.mode.mode)]
  | _ => []

/-- PIL_TABLE_INFO of a table identifier (R183). -/
def State.tableInfo (s : State) (tid : Nat) : List (Fld × Nat) :=
  match s.table tid with
  | none => [(Fld.PIL_TABLE_INFO_sel_valid, b2n (tidOkForm tid))]
  | some t =>
    let st := match t.state with
      | .gated => 1
      | .live => 2
      | _ => 3
    [(Fld.PIL_TABLE_INFO_units, if t.df.direct then t.segments.length else t.units),
     (Fld.PIL_TABLE_INFO_entries, if t.df.direct then t.df.depth else (s.liveEntries tid).length),
     (Fld.PIL_TABLE_INFO_state, st), (Fld.PIL_TABLE_INFO_reseq, b2n t.reseq.isSome), (Fld.PIL_TABLE_INFO_sel_valid, b2n (tidOkForm tid))]

/-- PIL_CHART_INFO of a table (R249, R250); 0 for an absent or direct-index table. -/
def State.chartInfo (s : State) (tid : Nat) : List (Fld × Nat) :=
  match s.table tid with
  | none => []
  | some t =>
    if t.df.direct then []
    else
      let banks := (List.range 512).filter (fun b => s.bankHolds tid b (fun _ => true))
      [(Fld.PIL_CHART_INFO_version, t.chart.version), (Fld.PIL_CHART_INFO_banks, banks.length),
       (Fld.PIL_CHART_INFO_shared, t.chart.shared.length), (Fld.PIL_CHART_INFO_fanout, t.chart.fanout),
       (Fld.PIL_CHART_INFO_sel_bits, t.chart.selector.length)]

/-- The live fields of block PIL. -/
def State.livePIL (s : State) (r : Reg) (i : Nat) : List (Fld × Nat) :=
  match r with
  | .PIL_STATUS =>
    [(Fld.PIL_STATUS_in_flight, s.cmds.flights.length), (Fld.PIL_STATUS_drain_busy, b2n s.arrays.drain.isSome),
     (Fld.PIL_STATUS_split_busy, b2n (s.tables.vals.any (fun t => t.work != 0))), (Fld.PIL_STATUS_respace_busy, b2n s.arrays.respaceBusy)]
  | .PIL_TABLE_INFO => s.tableInfo i
  | .PIL_CHART_INFO => s.chartInfo i
  | .PIL_HOT_STATUS =>
    [(Fld.PIL_HOT_STATUS_auto_lines, (s.hot.lines.vals.filter (fun l => !l.pinned)).length),
     (Fld.PIL_HOT_STATUS_pinned_lines, (s.hot.lines.vals.filter (fun l => l.pinned)).length),
     (Fld.PIL_HOT_STATUS_pin_wait, s.hot.pinWait.length)]
  | .PIL_DRAIN_STATUS =>
    [(Fld.PIL_DRAIN_STATUS_rows_left, match s.arrays.drain with
        | some d => d.total - d.copied
        | none => 0),
     (Fld.PIL_DRAIN_STATUS_result, s.arrays.drainResult), (Fld.PIL_DRAIN_STATUS_busy, b2n s.arrays.drain.isSome)]
  | _ => []

/-- The code of a slot's health (R607). -/
def Health.code : Health → Nat
  | .serving => 0
  | .free => 1
  | .testing => 2
  | .failed => 3

/-- ARY_BIST_STATUS of the slot of ARY_BIST_CTL. -/
def State.bistInfo (s : State) : List (Fld × Nat) :=
  let slot := s.fld Fld.ARY_BIST_CTL_quadrant * 136 + s.fld Fld.ARY_BIST_CTL_block * 17 + s.fld Fld.ARY_BIST_CTL_slot
  let x := s.slotState slot
  let left := match s.service.bist with
    | some b => if b.slot = slot then b.opsLeft else 0
    | none => 0
  [(Fld.ARY_BIST_STATUS_fail_count, x.failCount), (Fld.ARY_BIST_STATUS_fail_line, x.failLine), (Fld.ARY_BIST_STATUS_ops_left, left),
   (Fld.ARY_BIST_STATUS_health, x.health.code), (Fld.ARY_BIST_STATUS_busy, b2n s.service.bist.isSome)]

/-- The live fields of block ARY. -/
def State.liveARY (s : State) (r : Reg) (i : Nat) : List (Fld × Nat) :=
  match r with
  | .ARY_SCRUB_STATUS =>
    [(Fld.ARY_SCRUB_STATUS_passes, s.scrub.passes), (Fld.ARY_SCRUB_STATUS_position, s.scrub.position),
     (Fld.ARY_SCRUB_STATUS_prio_depth, s.scrub.prio.length)]
  | .ARY_INTEG_COUNT2 => [(Fld.ARY_INTEG_COUNT2_withheld, s.numbers.withheld.length)]
  | .ARY_BANK_INFO =>
    let slot := s.slotOf i
    let width := match s.bankWidth i with
      | some w => if w = 4 then 3 else w
      | none => 0
    [(Fld.ARY_BANK_INFO_repairs_pass, s.scrub.repairsPass.findD i 0), (Fld.ARY_BANK_INFO_repairs_total, s.scrub.repairsTotal.findD i 0),
     (Fld.ARY_BANK_INFO_width, width), (Fld.ARY_BANK_INFO_spare, b2n (slot == spareSlot i)), (Fld.ARY_BANK_INFO_quadrant, slot / 136),
     (Fld.ARY_BANK_INFO_block, slot % 136 / 17), (Fld.ARY_BANK_INFO_slot, slot % 17)]
  | .ARY_BIST_STATUS => s.bistInfo
  | .ARY_HEALTH =>
    [(Fld.ARY_HEALTH_failed_slots, (s.service.slots.vals.filter (fun x => x.health == .failed)).length),
     (Fld.ARY_HEALTH_unavailable, s.service.unavailable.length)]
  | _ => []

/-- The live fields of block LRN. -/
def State.liveLRN (s : State) (r : Reg) : List (Fld × Nat) :=
  match r with
  | .LRN_MNF_STATUS =>
    [(Fld.LRN_MNF_STATUS_occupancy, s.manifest.occupancy), (Fld.LRN_MNF_STATUS_gap_pending, b2n s.manifest.gap.isSome),
     (Fld.LRN_MNF_STATUS_xoff, b2n s.pins.mnfXoff)]
  | .LRN_MNF_PTR =>
    [(Fld.LRN_MNF_PTR_commit, s.manifest.commit), (Fld.LRN_MNF_PTR_read, s.manifest.read), (Fld.LRN_MNF_PTR_mark, s.manifest.mark),
     (Fld.LRN_MNF_PTR_release, s.manifest.release)]
  | .LRN_MNF_WIN0 => [(Fld.LRN_MNF_WIN0_bytes, s.mnfWindow 0)]
  | .LRN_MNF_WIN1 => [(Fld.LRN_MNF_WIN1_bytes, s.mnfWindow 1)]
  | .LRN_MNF_WIN2 => [(Fld.LRN_MNF_WIN2_bytes, s.mnfWindow 2)]
  | .LRN_MNF_WIN3 => [(Fld.LRN_MNF_WIN3_bytes, s.mnfWindow 3)]
  | .LRN_FILTER_STATUS => [(Fld.LRN_FILTER_STATUS_live, s.learning.filter.length)]
  | .LRN_AGE_STATUS =>
    let sweep (v : Nat) : Nat := if s.domainDown 25 then 0 else v
    [(Fld.LRN_AGE_STATUS_position, sweep s.learning.position), (Fld.LRN_AGE_STATUS_er, sweep s.learning.er),
     (Fld.LRN_AGE_STATUS_ep, sweep s.learning.ep), (Fld.LRN_AGE_STATUS_epoch, s.learning.epoch)]
  | _ => []

/-- The code of a glyph slot's state (SCB_SET_INFO.state). -/
def GlyphState.code : GlyphState → Nat
  | .empty => 0
  | .loading => 1
  | .admitted => 2
  | .reloading => 3
  | .failed => 4

/-- The live fields of block SCB. -/
def State.liveSCB (s : State) (r : Reg) (i : Nat) : List (Fld × Nat) :=
  match r with
  | .SCB_STATUS =>
    let busy := s.scribes.glyphs.vals.any (fun g => g.state == .reloading || (g.state == .loading && !g.copying))
    [(Fld.SCB_STATUS_streams_open, s.scribes.streams.length), (Fld.SCB_STATUS_reload_busy, b2n busy)]
  | .SCB_ONLINE => [(Fld.SCB_ONLINE_online, maskOf ((List.range 64).filter (fun x => (s.scribe x).online)))]
  | .SCB_ACTIVE => [(Fld.SCB_ACTIVE_active, maskOf s.activeScribes)]
  | .SCB_GLYPH_CTL => [(Fld.SCB_GLYPH_CTL_busy, b2n s.glyphBusy)]
  | .SCB_SET_INFO =>
    let g := if s.domainDown (26 + (s.glyph i).half) then Glyph.reset else s.glyph i
    [(Fld.SCB_SET_INFO_streams, s.setStreams i), (Fld.SCB_SET_INFO_patterns, g.patterns), (Fld.SCB_SET_INFO_admit_err, g.admitErr),
     (Fld.SCB_SET_INFO_part_log2, g.partLog2), (Fld.SCB_SET_INFO_half, g.half), (Fld.SCB_SET_INFO_state, g.state.code)]
  | .SCB_CACHE_STATUS =>
    let cap (half v : Nat) : Nat := if s.domainDown (26 + half) then 0x100 else v
    [(Fld.SCB_CACHE_STATUS_cap1, cap 1 (halfGranules s.mode.mode)), (Fld.SCB_CACHE_STATUS_free1, cap 1 (s.granulesFree 1)),
     (Fld.SCB_CACHE_STATUS_cap0, cap 0 (halfGranules s.mode.mode)), (Fld.SCB_CACHE_STATUS_free0, cap 0 (s.granulesFree 0))]
  | _ => []

/-- The live fields of block TEL. -/
def State.liveTEL (s : State) (r : Reg) : List (Fld × Nat) :=
  match r with
  | .TEL_CNT_STATUS =>
    [(Fld.TEL_CNT_STATUS_fold_queue, s.counters.foldQueue.length), (Fld.TEL_CNT_STATUS_places, s.counters.places.length)]
  | .TEL_DEST_CTL => [(Fld.TEL_DEST_CTL_held, s.observe.buffer.length)]
  | .TEL_CAPTURE_PTR =>
    [(Fld.TEL_CAPTURE_PTR_wraps, s.observe.captureWraps), (Fld.TEL_CAPTURE_PTR_stopped, b2n s.observe.captureStopped),
     (Fld.TEL_CAPTURE_PTR_word, s.observe.captureWord)]
  | _ => []

/-- BTH_GRANT n of a berth: bits [3:0] of byte 2 of the slot, and its table identifier (R397). -/
def State.grantInfo (s : State) (berth n : Nat) : List (Fld × Nat) :=
  match (s.berth berth).record.grantAt n with
  | none => []
  | some g =>
    [(Fld.BTH_GRANT_rights, 1 + 2 * b2n g.search + 4 * b2n g.edit + 8 * b2n g.counterRead), (Fld.BTH_GRANT_tid, g.tid)]

/-- The live fields of block BTH, for a berth or, in BTH_MASTER_RANGE, a master. -/
def State.liveBTH (s : State) (r : Reg) (i : Nat) : List (Fld × Nat) :=
  let b := s.berth i
  match r with
  | .BTH_INFO =>
    [(Fld.BTH_INFO_units, s.berthUnits i), (Fld.BTH_INFO_grants, b.record.grants.length), (Fld.BTH_INFO_shaper_en, b2n b.record.shaperEn),
     (Fld.BTH_INFO_class_ceiling, b.record.ceiling)]
  | .BTH_QUOTA => [(Fld.BTH_QUOTA_unit_quota, b.record.quota)]
  | .BTH_LEVEL_C => [(Fld.BTH_LEVEL_C_level, twos b.levelC 64)]
  | .BTH_LEVEL_P => [(Fld.BTH_LEVEL_P_level, twos b.levelP 64)]
  | .BTH_RATE => [(Fld.BTH_RATE_pir, b.record.pir), (Fld.BTH_RATE_cir, b.record.cir)]
  | .BTH_SHAPER_CTL => [(Fld.BTH_SHAPER_CTL_forgive_pending, b2n b.forgivePending)]
  | .BTH_GLYPH_MASK => [(Fld.BTH_GLYPH_MASK_glyph_mask, b.record.glyphMask)]
  | .BTH_MASTER_RANGE =>
    [(Fld.BTH_MASTER_RANGE_count, (s.berthRange i).2), (Fld.BTH_MASTER_RANGE_first, (s.berthRange i).1)]
  | _ => []

/-- The live fields of block SEC. -/
def State.liveSEC (s : State) (r : Reg) (i : Nat) : List (Fld × Nat) :=
  match r with
  | .SEC_STATUS =>
    let approved := s.certified && s.security.selfTestOk && !s.security.debugOpen && !s.security.drbgFailed
    [(Fld.SEC_STATUS_lc_changes, s.fuses.lcChanges), (Fld.SEC_STATUS_life_cycle, s.fuses.lifeCycle),
     (Fld.SEC_STATUS_frozen_any, b2n s.frozenAny), (Fld.SEC_STATUS_debug_open, b2n s.security.debugOpen),
     (Fld.SEC_STATUS_approved, b2n approved), (Fld.SEC_STATUS_debug_lock, b2n s.boot.device.debugLock),
     (Fld.SEC_STATUS_cmd_auth, b2n s.cmdAuth), (Fld.SEC_STATUS_certified, b2n s.certified)]
  | .SEC_BOOT_NONCE0 => [(Fld.SEC_BOOT_NONCE0_nonce, s.security.bootNonce)]
  | .SEC_BOOT_NONCE1 => [(Fld.SEC_BOOT_NONCE1_nonce, s.security.bootNonce / 2 ^ 64)]
  | .SEC_UID0 => [(Fld.SEC_UID0_uid, s.fuses.uid)]
  | .SEC_UID1 => [(Fld.SEC_UID1_uid, s.fuses.uid / 2 ^ 64)]
  | .SEC_TAMPER_LOG => [(Fld.SEC_TAMPER_LOG_events, s.security.tamperEvents), (Fld.SEC_TAMPER_LOG_cause, s.security.tamperCause)]
  | .SEC_FREEZE_INFO =>
    match (s.master i).freeze with
    | none => []
    | some f =>
      if s.frozen i then
        [(Fld.SEC_FREEZE_INFO_thaw_tide, match f.thawAt with
            | some _ => f.thawCount
            | none => 0xFFFFFFFF),
         (Fld.SEC_FREEZE_INFO_cause, f.cause), (Fld.SEC_FREEZE_INFO_frozen, 1)]
      else []
  | _ => []

/-- The code of a link's state (QUY_STATUS.state). -/
def LinkState.code : LinkState → Nat
  | .off => 0
  | .down => 1
  | .train => 2
  | .align => 3
  | .initing => 4
  | .up => 5
  | .failed => 6

/-- Byte n of QUY_LANES for physical lane n of the quay. -/
def Link.laneByte (l : Link) (n : Nat) : Nat :=
  match l.lane n with
  | none => 0
  | some x => (if x.retired then 3 else if !x.usable then 0 else if x.locked then 2 else 1) + 4 * min x.retrains 63

/-- The live fields of block QUY, for a logical quay. -/
def State.liveQUY (s : State) (r : Reg) (q : Nat) : List (Fld × Nat) :=
  let l := s.link (.quay q)
  match r with
  | .QUY_STATUS =>
    [(Fld.QUY_STATUS_rx_expect, l.rxExpect), (Fld.QUY_STATUS_retired, l.retiredMask), (Fld.QUY_STATUS_width, widthCode l.width),
     (Fld.QUY_STATUS_xoff, b2n (s.pins.qxoff.testBit (q / 4))), (Fld.QUY_STATUS_retraining, b2n l.retraining),
     (Fld.QUY_STATUS_state, l.state.code)]
  | .QUY_LANES => [(Fld.QUY_LANES_lanes, ((List.range 8).map (fun n => l.laneByte n * 2 ^ (8 * n))).foldl (fun a b => a + b) 0)]
  | .QUY_POOLS =>
    [(Fld.QUY_POOLS_pools, ((List.range 6).map (fun p => l.poolSize.getD p 0 / 256 % 256 * 2 ^ (8 * p))).foldl (fun a b => a + b) 0)]
  | .QUY_XOFF => [(Fld.QUY_XOFF_level, s.pins.qxoff)]
  | _ => []

/-- The live fields of block RNG. -/
def State.liveRNG (s : State) (r : Reg) : List (Fld × Nat) :=
  match r with
  | .RNG_STATUS =>
    [(Fld.RNG_STATUS_epoch, s.ring.epoch.number), (Fld.RNG_STATUS_present, s.ring.epoch.present), (Fld.RNG_STATUS_weight2, s.ring.epoch.weight2),
     (Fld.RNG_STATUS_hops, s.hops), (Fld.RNG_STATUS_members, s.links.record.members), (Fld.RNG_STATUS_member, s.links.record.member),
     (Fld.RNG_STATUS_solo, b2n s.ring.solo), (Fld.RNG_STATUS_leader, b2n (s.ring.gatesOpen && s.leader)),
     (Fld.RNG_STATUS_gate_e, b2n s.pins.lgHoldE), (Fld.RNG_STATUS_gate_w, b2n s.pins.lgHoldW)]
  | .RNG_PORT_STATUS =>
    let port (d : Nat) (l : Link) : Link := if s.domainDown d then Link.reset else l
    let e := port 18 s.links.east
    let w := port 19 s.links.west
    [(Fld.RNG_PORT_STATUS_east_retired, e.retiredMask), (Fld.RNG_PORT_STATUS_west_retired, w.retiredMask),
     (Fld.RNG_PORT_STATUS_west_narrow, b2n (w.width == 8)), (Fld.RNG_PORT_STATUS_west_state, w.state.code),
     (Fld.RNG_PORT_STATUS_east_narrow, b2n (e.width == 8)), (Fld.RNG_PORT_STATUS_east_state, e.state.code)]
  | .RNG_CTL => [(Fld.RNG_CTL_leave, b2n s.ring.leaving.isSome), (Fld.RNG_CTL_join, b2n (s.ring.joined && !s.ring.gatesOpen))]
  | _ => []

/-- The code of a host ring's state (HST_RING_CTL.state). -/
def RingState.code : RingState → Nat
  | .disabled => 0
  | .active => 1
  | .error => 2

/-- The live fields of block HST, for a host ring or a window. -/
def State.liveHST (s : State) (r : Reg) (i : Nat) : List (Fld × Nat) :=
  match r with
  | .HST_STATUS =>
    [(Fld.HST_STATUS_gen, if s.host.linkUp then s.host.gen else 0), (Fld.HST_STATUS_width, if s.host.linkUp then s.host.width else 0),
     (Fld.HST_STATUS_flit, b2n (s.host.linkUp && s.host.flit)), (Fld.HST_STATUS_link_up, b2n s.host.linkUp)]
  | .HST_RING_CTL =>
    [(Fld.HST_RING_CTL_cause, (s.hostRing i).cause), (Fld.HST_RING_CTL_state, (s.hostRing i).state.code)]
  | .HST_RING_STATUS =>
    [(Fld.HST_RING_STATUS_dev_index, (s.hostRing i).devIndex), (Fld.HST_RING_STATUS_host_index, (s.hostRing i).hostIndex)]
  | .HST_WIN_ACTIVE =>
    let w := s.window i
    [(Fld.HST_WIN_ACTIVE_gen, w.gen), (Fld.HST_WIN_ACTIVE_slot, w.active.slot), (Fld.HST_WIN_ACTIVE_berth, w.active.berth),
     (Fld.HST_WIN_ACTIVE_function, w.active.fn), (Fld.HST_WIN_ACTIVE_en, b2n w.active.en)]
  | .HST_WIN_CTL => [(Fld.HST_WIN_CTL_result, s.host.winResult), (Fld.HST_WIN_CTL_pending, b2n s.host.winPending)]
  | _ => []

/-- The code of a pseudo-channel's state (MEM_PC_INFO.state). -/
def PcState.code : PcState → Nat
  | .inService => 0
  | .fenced => 1
  | .idleSpare => 2
  | .rebuilding => 3

/-- The live fields of block MEM, for a pseudo-channel. -/
def State.liveMEM (s : State) (r : Reg) (i : Nat) : List (Fld × Nat) :=
  match r with
  | .MEM_STATUS =>
    [(Fld.MEM_STATUS_temp1, twos (s.stack 1).temp 8), (Fld.MEM_STATUS_temp0, twos (s.stack 0).temp 8),
     (Fld.MEM_STATUS_degraded, b2n s.degraded), (Fld.MEM_STATUS_rebuild_busy, b2n (!s.dramCtl.rebuilds.isEmpty)),
     (Fld.MEM_STATUS_panic1, b2n (s.panicking 1)), (Fld.MEM_STATUS_panic0, b2n (s.panicking 0)),
     (Fld.MEM_STATUS_hot1, b2n (s.stack 1).hot), (Fld.MEM_STATUS_hot0, b2n (s.stack 0).hot),
     (Fld.MEM_STATUS_dbl1, b2n (s.stack 1).doubled), (Fld.MEM_STATUS_dbl0, b2n (s.stack 0).doubled)]
  | .MEM_PC_INFO =>
    let p := s.pc i
    [(Fld.MEM_PC_INFO_state, p.state.code), (Fld.MEM_PC_INFO_serves, p.serves), (Fld.MEM_PC_INFO_set, p.set),
     (Fld.MEM_PC_INFO_postponed, p.postponed), (Fld.MEM_PC_INFO_fails, min p.fails 15)]
  | .MEM_REBUILD =>
    match s.dramCtl.rebuilds with
    | [] => []
    | x :: _ => [(Fld.MEM_REBUILD_next_stripe, x.next), (Fld.MEM_REBUILD_active, 1), (Fld.MEM_REBUILD_spare, x.spare)]
  | _ => []

/-- The live fields of the blocks PWR, FLT and TST. -/
def State.livePFT (s : State) (r : Reg) : List (Fld × Nat) :=
  match r with
  | .PWR_STATE_STATUS =>
    [(Fld.PWR_STATE_STATUS_result, s.power.result), (Fld.PWR_STATE_STATUS_wake_src, s.power.wakeSrc),
     (Fld.PWR_STATE_STATUS_leaving, b2n s.power.exit.isSome), (Fld.PWR_STATE_STATUS_entering, b2n s.power.entry.isSome),
     (Fld.PWR_STATE_STATUS_state, s.power.state)]
  | .PWR_RTC => [(Fld.PWR_RTC_count, s.power.rtc)]
  | .PWR_DOMAIN_STATUS =>
    [(Fld.PWR_DOMAIN_STATUS_domains, ((List.range 30).map (fun d => s.domainStatus d % 4 * 4 ^ d)).foldl (fun a b => a + b) 0)]
  | .PWR_DOMAIN_RESET => [(Fld.PWR_DOMAIN_RESET_result, s.power.resetResult)]
  | .FLT_STATUS => [(Fld.FLT_STATUS_held, s.faults.held.length)]
  | .FLT_WIN0 => [(Fld.FLT_WIN0_bytes, s.fltWindow 0)]
  | .FLT_WIN1 => [(Fld.FLT_WIN1_bytes, s.fltWindow 1)]
  | .FLT_WIN2 => [(Fld.FLT_WIN2_bytes, s.fltWindow 2)]
  | .FLT_WIN3 => [(Fld.FLT_WIN3_bytes, s.fltWindow 3)]
  | .TST_TAP_STATUS => [(Fld.TST_TAP_STATUS_ir, s.service.tapIr), (Fld.TST_TAP_STATUS_restricted, b2n s.tapRestricted)]
  | _ => []

/-- The fields of a register that report the state of the device, with their values. -/
def State.live (s : State) (r : Reg) (i : Nat) : List (Fld × Nat) :=
  match r.offset / 0x100000 with
  | 0x0 => s.liveGLB r
  | 0x1 => s.livePIL r i
  | 0x2 => s.liveARY r i
  | 0x3 => s.liveLRN r
  | 0x4 => s.liveSCB r i
  | 0x5 => s.liveTEL r
  | 0x6 => s.liveBTH r i
  | 0x7 => s.liveSEC r i
  | 0x8 => s.liveQUY r i
  | 0x9 => s.liveRNG r
  | 0xA => s.liveHST r i
  | 0xB => s.liveMEM r i
  | _ => s.livePFT r

/-- The word that a register holds now: its stored word with its live fields; its reset value while its object's domain is in reset
(R627). -/
def State.regNow (s : State) (r : Reg) (i : Nat) : Nat :=
  if s.objectDown r i then r.resetNat else (s.live r i).foldl (fun w x => x.1.into w x.2) (s.word r i)

/-- What a function presents in configuration space. -/
structure ConfigHeader where
  vendor : Nat
  device : Nat
  revision : Nat
  classCode : Nat
  subVendor : Nat
  subId : Nat
  serial : Nat
  totalVfs : Nat
  numVfs : Nat
deriving DecidableEq, Repr

/-- The identity of a function (R3, R6, R7, R97, R515, R516). The product is open, a constant of Config: on the adapters the subsystem
identifiers are those of R7, on a component those of the DEVICE record. No command of the table reads configuration space. -/
def State.configHeader (s : State) (fn : Nat) : ConfigHeader :=
  { vendor := 0x1F3D
    device := if fn = 0 then 0x1280 else 0x1281
    revision := s.fld Fld.GLB_IDENT_rev_id
    classCode := 0x0B4000
    subVendor := if Config.product = 0 then s.boot.device.subVendor else 0x1F3D
    subId := match Config.product with
      | 0 => s.boot.device.subId
      | 1 => 0x4101
      | _ => 0x4201
    serial := s.fuses.uid % 2 ^ 64
    totalVfs := if fn = 0 then s.host.pcie.totalVfs else 0
    numVfs := if fn = 0 then s.host.numVfs else 0 }

end Sys2Proof.Machine
end

