-- ==== Sys2Proof/Machine/Registers.lean ====
section
/-! DEFINITION. Accesses to BAR0 (R11, R12, R518, R620 to R629): how an access is cut into accesses of registers, what a virtual function
reaches, what a write of each register does, and what a read returns and changes. -/
namespace Sys2Proof.Machine

/-- The register at an offset, with the number of the BTH_GRANT register among the 64 (R626: none where no register lies). -/
def regAt (off : Nat) : Option (Reg × Nat) :=
  let base := Reg.offset .BTH_GRANT
  if base ≤ off && off < base + 512 && off % 8 = 0 then some (.BTH_GRANT, (off - base) / 8)
  else (Reg.all.find? (fun r => r.offset == off)).map (fun r => (r, 0))

/-- The object that an access of a register by a function reaches: its own copy of a select register, or what that selects (R624). -/
def State.regIndex (s : State) (fn : Nat) (r : Reg) : Nat :=
  match r with
  | .PIL_TABLE_SEL | .ARY_BANK_SEL | .SCB_SET_SEL | .TEL_CNT_SEL | .TEL_MIRROR_SEL | .BTH_SEL | .BTH_MASTER_SEL | .SEC_FREEZE_SEL
  | .QUY_SEL | .HST_RING_SEL | .MEM_PC_SEL | .HST_WIN_SEL => fn
  | .PIL_TABLE_INFO | .PIL_CHART_INFO => s.fld Fld.PIL_TABLE_SEL_tid fn
  | .ARY_BANK_INFO => s.fld Fld.ARY_BANK_SEL_bank fn
  | .SCB_SET_INFO => s.fld Fld.SCB_SET_SEL_set fn
  | .TEL_MIRROR_CTL => s.fld Fld.TEL_MIRROR_SEL_session fn
  | .BTH_INFO | .BTH_QUOTA | .BTH_LEVEL_C | .BTH_LEVEL_P | .BTH_RATE | .BTH_SHAPER_CTL | .BTH_COLOUR_COUNT | .BTH_GLYPH_MASK
  | .BTH_GRANT => s.fld Fld.BTH_SEL_berth fn
  | .BTH_MASTER_RANGE => s.fld Fld.BTH_MASTER_SEL_master fn
  | .SEC_FREEZE_INFO => s.fld Fld.SEC_FREEZE_SEL_master fn
  | .QUY_STATUS | .QUY_CTL | .QUY_LANES | .QUY_POOLS | .QUY_ERR_COUNT | .QUY_CORR_COUNT | .QUY_RESULT_COUNT =>
    s.fld Fld.QUY_SEL_lquay fn
  | .HST_RING_BASE | .HST_RING_WB | .HST_RING_CTL | .HST_RING_STATUS => s.ringSel fn
  | .HST_WIN_NEXT | .HST_WIN_ACTIVE | .HST_WIN_COUNT => s.fld Fld.HST_WIN_SEL_window fn
  | .MEM_PC_INFO => s.fld Fld.MEM_PC_SEL_pc fn
  | _ => 0

/-- What a virtual function reads through its BAR0 (R518): whether the register, with the object selected, lies within its reach. -/
def State.vfReads (s : State) (fn : Nat) (r : Reg) : Bool :=
  let i := s.regIndex fn r
  match r with
  | .GLB_IDENT | .GLB_DEV_SIGNATURE | .GLB_TIDE_COUNT | .GLB_MODE_STATUS => true
  | .HST_WIN_SEL => false
  | .HST_RING_BASE | .HST_RING_WB | .HST_RING_CTL | .HST_RING_STATUS => true
  | .BTH_INFO | .BTH_QUOTA | .BTH_LEVEL_C | .BTH_LEVEL_P | .BTH_RATE | .BTH_SHAPER_CTL | .BTH_COLOUR_COUNT | .BTH_GLYPH_MASK
  | .BTH_GRANT => s.inRange fn i
  | .BTH_STATUS => s.inRange fn (s.fld Fld.BTH_SEL_berth fn)
  | .PIL_TABLE_INFO | .PIL_CHART_INFO => s.berths.any (fun p => s.inRange fn p.1 && p.2.record.grants.any (fun g => g.tid == i))
  | .SCB_SET_INFO => s.berths.any (fun p => s.inRange fn p.1 && p.2.record.glyphMask.testBit i)
  | .BTH_MASTER_RANGE | .SEC_FREEZE_INFO => i == fn
  | _ => r.isSelect

/-- The word that an access by a function reads (R12, R15, R518, R621): its fields as they stood at the start of the stroke. A register that only takes writes, a block not served (R111), an object in
a reset domain (R627) and what a virtual function does not reach are settled here. -/
def State.readWord (s : State) (fn : Nat) (r : Reg) (n : Nat) : Nat :=
  let i := s.regIndex fn r
  if s.power.tamperHold || (s.recovery && !r.inRecovery) || (fn != 0 && !s.vfReads fn r) then 0
  else
    let w := if r == .BTH_GRANT then (s.opening.grantInfo i n).foldl (fun w x => x.1.into w x.2) 0
      else s.rcWord r i (s.regNow r i) (s.opening.regNow r i)
    if fn = 0 then w
    else r.fields.foldl (fun (w : Nat) f => if f.acc == .rc then (⟨r, f.lo, f.width⟩ : Fld).into w 0 else w) w

/-- The latch of bytes 4 to 7 of a register (R75). -/
def Latches.get (l : Latches) (r : Reg) : Option Nat :=
  match r with
  | .GLB_TIDE_COUNT => some l.tide
  | .BTH_LEVEL_C => some l.levelC
  | .BTH_LEVEL_P => some l.levelP
  | .PWR_RTC => some l.rtc
  | _ => none

/-- The latch loaded (R75). -/
def Latches.load (l : Latches) (r : Reg) (v : Nat) : Latches :=
  match r with
  | .GLB_TIDE_COUNT => { l with tide := v }
  | .BTH_LEVEL_C => { l with levelC := v }
  | .BTH_LEVEL_P => { l with levelP := v }
  | .PWR_RTC => { l with rtc := v }
  | _ => l

/-- A read of a register with a latch (R75): one that returns all of bytes 0 to 3 loads the latch; every other takes bytes 4 to 7 from
it. -/
def State.latchRead (s : State) (fn : Nat) (r : Reg) (latched v byte size : Nat) : State :=
  let f := s.function fn
  if fn != 0 && !s.vfReads fn r then s.emit (.readData fn (zeros size))
  else if byte = 0 && 4 ≤ size then
    (s.setFunction fn { f with latches := f.latches.load r (v / 2 ^ 32) }).emit (.readData fn ((leBytes v 8).take size))
  else s.emit (.readData fn (((leBytes (v % 2 ^ 32 + latched * 2 ^ 32) 8).drop byte).take size))

/-- RC fields of a register that a read by the physical function returns whole are cleared (R11, R12). -/
def State.clearRead (s : State) (r : Reg) (i byte size : Nat) : State :=
  s.each r.fields (fun t f =>
    if f.acc == .rc && 8 * byte ≤ f.lo && f.lo + f.width ≤ 8 * (byte + size) then t.clearRc ⟨r, f.lo, f.width⟩ i else t)

/-- One access that reads a register, or an offset with none (R620, R622, R626). -/
def State.readReg (s : State) (fn off byte size : Nat) : State :=
  match regAt off with
  | none => s.emit (.readData fn (zeros size))
  | some (r, n) =>
    if r == .TEL_CNT_READ then s.telCntRead fn byte size
    else
      let i := s.regIndex fn r
      let v := s.readWord fn r n
      match (s.function fn).latches.get r with
      | some l => s.latchRead fn r l v byte size
      | none =>
        let s1 := s.emit (.readData fn (((leBytes v 8).drop byte).take size))
        if fn != 0 || !s.served r i then s1
        else if r == .LRN_MNF_WIN3 then s1.mnfRead byte size
        else if r == .FLT_WIN3 then s1.fltRead byte size
        else s1.clearRead r i byte size

/-- The accesses of one register each that an access to BAR0 is carried out as (R620): offset of the register, first byte, bytes. -/
def accessPieces : Nat → Nat → Nat → List (Nat × Nat × Nat)
  | 0, _, _ => []
  | fuel + 1, off, size =>
    if size = 0 then []
    else
      let byte := off % 8
      let n := min size (8 - byte)
      (off - byte, byte, n) :: accessPieces fuel (off + n) (size - n)

/-- A read of BAR0 (R620). A function that does not exist reads nothing. -/
def State.readBar (s : State) (fn off size : Nat) : State :=
  if s.hasFunction fn then s.each (accessPieces (size / 8 + 2) off size) (fun t p => t.readReg fn p.1 p.2.1 p.2.2) else s

/-- A write of GLB_TIDE_CTL (R77, R80, R628). -/
def State.writeTideCtl (s : State) (fn w mask : Nat) : State :=
  let off := Reg.GLB_TIDE_CTL.offset
  if fn != 0 then s.logAccess fn off 2
  else if !s.served .GLB_TIDE_CTL 0 then s.logAccess fn off 6
  else
    let x := s.storeFields .GLB_TIDE_CTL 0 w mask []
    let was := s.bit Fld.GLB_TIDE_CTL_lock_en
    let on := x.1.bit Fld.GLB_TIDE_CTL_lock_en
    let s1 := if on && !was then { x.1 with clock := { x.1.clock with lockSince := s.clock.grid } }
      else if !on then x.1.setFld Fld.GLB_TIDE_STATUS_holdover 0 else x.1
    let go := Fld.GLB_TIDE_CTL_step.get (w &&& mask) = 1
    let busy := s.bit Fld.GLB_TIDE_CTL_step
    let s2 := if go && busy then s1.logAccess fn off 7 else if x.2.1 then s1.logAccess fn off 5 else s1
    if go then s2.setFld Fld.GLB_TIDE_CTL_step 1 else s2

/-- GLB_TIDE_STEP_ARM (R80). -/
def execGlbTideStepArm (t fn : Nat) (w : Word64) (s : State) : Res := .next ((s.at t).writeTideCtl fn w.toNat fullMask).settle

/-- The session that TEL_MIRROR_CTL spells (R391). -/
def State.stagedSession (s : State) (n : Nat) : Session :=
  { en := s.bit Fld.TEL_MIRROR_CTL_en n, berth := s.fld Fld.TEL_MIRROR_CTL_berth n, ratio := s.fld Fld.TEL_MIRROR_CTL_ratio n,
    dest := s.fld Fld.TEL_MIRROR_CTL_dest n, index := s.fld Fld.TEL_MIRROR_CTL_dest_index n,
    withResult := s.bit Fld.TEL_MIRROR_CTL_with_result n, counted := 0 }

/-- Fields that keep their value in this write, with the reason recorded where the write would change one: those of FLT_CTL fixed while
en is 1 (R629), ARY_SCRUB_CTL.scrub_en under a certified device (R625), the watermarks of MEM_CTL where wr_low would not lie below
wr_high. -/
def State.fixedFields (s : State) (r : Reg) (w mask : Nat) : List Nat × Nat :=
  let merged := (s.word r 0 &&& (2 ^ 64 - 1 - mask)) ||| (w &&& mask)
  match r with
  | .FLT_CTL => (if s.bit Fld.FLT_CTL_en then [4, 32] else [], 4)
  | .ARY_SCRUB_CTL => (if s.certified && merged % 2 = 0 then [0] else [], 3)
  | .MEM_CTL => (if Fld.MEM_CTL_wr_high.get merged ≤ Fld.MEM_CTL_wr_low.get merged then [16, 24] else [], 5)
  | _ => ([], 5)

/-- The fields are stored: what follows from the write of `w` (R63, R305, R389, R391, R605, FLT_ROUTE's reserved bits). -/
def State.afterStore (s : State) (r : Reg) (i w mask : Nat) : State :=
  match r with
  | .FLT_STATUS => s.resendVectors (w &&& mask)
  | .LRN_AGE_CTL => if mask % 32 = 0 then s else s.defer (.ageK (s.fld Fld.LRN_AGE_CTL_k))
  | .TEL_SAMPLE_CTL => s.defer (.sampler (s.bit Fld.TEL_SAMPLE_CTL_en) (s.fld Fld.TEL_SAMPLE_CTL_k))
  | .TEL_MIRROR_CTL => s.defer (.mirror i (s.stagedSession i))
  | .FLT_ROUTE => s.setFld Fld.FLT_ROUTE_route (s.fld Fld.FLT_ROUTE_route &&& 0x7373737373)
  | _ => s

/-- A register that each function writes (R623, R624). -/
def Reg.eachWrites (r : Reg) : Bool :=
  match r with
  | .HST_WIN_SEL => false
  | .HST_RING_BASE | .HST_RING_WB => true
  | _ => r.isSelect

/-- A write of a register with no behaviour of its own (R12, R623, R627, R629). -/
def State.plainWrite (s : State) (fn : Nat) (r : Reg) (w mask : Nat) : State :=
  let i := s.regIndex fn r
  if s.holds r then s.holdWrite fn r w mask
  else if fn != 0 && !r.eachWrites then s.logAccess fn r.offset 2
  else if !s.served r i then s.logAccess fn r.offset 6
  else if r == .HST_RING_SEL && fn != 0 && 16 ≤ Fld.HST_RING_SEL_ring.get (w &&& mask) then s.logAccess fn r.offset 5
  else
    let fixed := s.fixedFields r w mask
    let x := s.storeFields r i w mask fixed.1
    let s1 := if x.2.2 then x.1.logAccess fn r.offset fixed.2 else if x.2.1 then x.1.logAccess fn r.offset 5 else x.1
    s1.afterStore r i w mask

/-- One access that writes a register, or an offset with none (R620, R623, R626). -/
def State.writeReg (s : State) (fn off w mask : Nat) : State :=
  match regAt off with
  | none => s.logAccess fn off 1
  | some (r, _) =>
    match r with
    | .GLB_TIDE_CTL => s.writeTideCtl fn w mask
    | .GLB_BOOT_CTL => s.writeBootCtl fn w mask
    | .GLB_FLASH_PROG_CTL => s.writeFlashCtl fn w mask
    | .GLB_MODE_CTL => s.writeModeCtl fn w mask
    | .PIL_DRAIN_CTL => s.writeDrainCtl fn w mask
    | .ARY_BIST_CTL => s.writeBistCtl fn w mask
    | .LRN_MNF_CTL => s.writeMnfCtl fn w mask
    | .LRN_FILTER_CTL => s.writeFilterCtl fn w mask
    | .SCB_SCRIBE_CTL => s.writeScribeCtl fn w mask
    | .SCB_GLYPH_CTL => s.writeGlyphCtl fn w mask
    | .TEL_CNT_WRITE => s.telCntWrite fn w mask
    | .TEL_CAPTURE_PTR => s.writeCapturePtr fn w mask
    | .BTH_SHAPER_CTL => s.writeShaperCtl fn w mask
    | .SEC_THAW => s.writeSecThaw fn w mask
    | .QUY_CTL => s.writeQuyCtl fn w mask
    | .RNG_CTL => s.writeRngCtl fn w mask
    | .HST_RING_CTL => s.writeRingCtl fn w mask
    | .HST_WIN_CTL => s.writeWinCtl fn w mask
    | .PWR_STATE_CTL => s.writePowerCtl fn w mask
    | .PWR_DOMAIN_RESET => s.writeDomainReset fn w mask
    | r => s.plainWrite fn r w mask

/-- A write of BAR0 (R11, R620). A function that does not exist writes nothing. -/
def State.writeBar (s : State) (fn off : Nat) (data : Bytes) : State :=
  if s.hasFunction fn then
    s.each (accessPieces (data.length / 8 + 2) off data.length) (fun t p =>
      let first := p.1 + p.2.1 - off
      t.writeReg fn p.1 (leNat ((data.drop first).take p.2.2) * 2 ^ (8 * p.2.1)) ((2 ^ (8 * p.2.2) - 1) * 2 ^ (8 * p.2.1)))
  else s

/-- REGISTER_WRITE (R11, R12, R620 to R629). -/
def execRegisterWrite (t fn off : Nat) (data : Bytes) (s : State) : Res := .next ((s.at t).writeBar fn off data).settle

/-- LATCHED_READ (R75): a read of GLB_TIDE_COUNT, BTH_LEVEL_C, BTH_LEVEL_P, TEL_CNT_READ or PWR_RTC. -/
def execLatchedRead (t fn off size : Nat) (s : State) : Res := .next ((s.at t).readBar fn off size).settle

/-- RC_FIELD_READ (R11, R12, R15, R620 to R622): a read of any register. -/
def execRcFieldRead (t fn off size : Nat) (s : State) : Res := .next ((s.at t).readBar fn off size).settle

end Sys2Proof.Machine
end

