-- ==== Sys2Proof/Machine/Exit.lean ====
section
/-! DEFINITION. The exits from Doze, Retain and Deep (R82, R577, R585 to R589, R603). Off-Guard leaves through a boot (Boot.lean). -/
namespace Sys2Proof.Machine

/-- A link goes from electrical idle to ALIGN with the kept equalisation (R480, R588 step 5): its usable lanes are locked. -/
def State.alignLink (s : State) (p : Port) : State :=
  let l := s.link p
  if l.state == .down || l.state == .train then
    match l.choose with
    | none => s.bringUp p
    | some (lo, w) =>
      s.setLink p { l with
          state := .align, lo := lo, width := w, since := s.now,
          lanes := l.lanes.map (fun x => { x with locked := x.usable && !x.retired, retraining := false }) }
  else s

/-- The quay lanes leave electrical idle (R588 step 5). -/
def State.alignQuays (s : State) : State := s.each s.links.quays.keys (fun t q => t.alignLink (.quay q))

/-- What the host wrote while intake was stopped acts (R582, R627): register writes, doorbells and TLPs of peer windows. -/
def State.takeHeld (s : State) : State :=
  let h := s.host
  let s1 := { s with host := { s.host with heldWrites := [], heldDoorbells := [], heldTlps := [] } }
  let s2 := s1.each h.heldWrites (fun t (x : Nat × Nat × Bytes) => t.writeBar x.1 x.2.1 x.2.2)
  let s3 := s2.each h.heldDoorbells (fun t (x : Nat × Nat × Bytes) => t.doorbellTake x.1 x.2.1 x.2.2)
  s3.each h.heldTlps (fun t (x : Nat × Bytes) => t.windowTlp x.1 x.2)

/-- The tides missed in Retain or Deep, by the RTC (R82). -/
def State.missedTides (s : State) (rtc : Nat) : Nat := (rtc + 2 ^ 48 - s.power.rtcRecord) % 2 ^ 48 * 5859375 / 32768

/-- A shaper as if every missed boundary had refilled it (R412, R577). -/
def Berth.away (b : Berth) (n : Nat) : Berth :=
  if b.record.shaperEn && 0 < n then
    { b with levelC := min (b.levelC + (n * b.record.cir : Nat)) (65536 * (b.record.cbs : Int)),
             levelP := min (b.levelP + (n * b.record.pir : Nat)) (65536 * (b.record.pbs : Int)) }
  else b

/-- An auto-thaw whose boundary fell in the time away acts at the first boundary after the exit (R440, R577). -/
def Master.away (m : Master) (grid n : Nat) : Master :=
  match m.freeze with
  | some f =>
    match f.thawAt with
    | some x => { m with freeze := some { f with thawAt := some (max (grid + 1) (x - n)) } }
    | none => m
  | none => m

/-- The device epoch and the sweep over the time away (R310): `n` boundaries at multiples of 2^k passed. -/
def State.epochAway (s : State) (n : Nat) : State :=
  let l := s.learning
  let w : AwayPass := ⟨l.epoch, n, l.position, l.er, l.ep⟩
  { s with
      learning := { l with
        epoch := (l.epoch + n) % 256, away := some w, awayRuns := false, passDue := true, fresh := [], removals := [] }
      counters := { s.counters with
        epochTide := if n = 0 then s.counters.epochTide else s.clock.count / 2 ^ l.k * 2 ^ l.k } }

/-- The tide count, the shapers, the thaws, the PPS lock and the device epoch after the time away (R82, R310, R577). -/
def State.catchUp (s : State) (rtc : Nat) : State :=
  let n := s.missedTides rtc
  let total := s.power.tideRecord + n
  let k := s.learning.k
  let epochs := total / 2 ^ k - s.power.tideRecord / 2 ^ k
  let s1 := { s with
    clock := { s.clock with
      count := total % 2 ^ 64, goodEdges := 0, prevErr := none, lastEdge := s.clock.lastEdge.map (fun e => e - 256 * (n : Int)) }
    berths := s.berths.map (fun (p : Nat × Berth) => (p.1, p.2.away n))
    masters := s.masters.map (fun (p : Nat × Master) => (p.1, p.2.away s.clock.grid n)) }
  (s1.setFld Fld.GLB_TIDE_STATUS_locked 0).epochAway epochs

/-- The rows that Deep lost, as their shadows do not decode (R281, R286, R588 step 4). -/
def State.loseRows (s : State) (lost : List RowLoss) : State := s.each lost (fun t x => t.loseEntry x.bank x.row x.units)

/-- The ring ports, trained with the kept equalisation, go to ALIGN (R588 steps 5 and 6). -/
def State.rejoin (s : State) : State :=
  if s.bit Fld.RNG_CTL_auto_join then (s.joinRing.alignLink .east).alignLink .west else s

/-- The exit from Retain or Deep (R588): the time away, both scribe halves reloaded, functions as R539 leaves them, the links, and in
Deep what its shadows give and the fault log, whose counts LOG_CARRIED reports (R603). -/
def State.leaveSleep (s : State) (deep : Bool) (lost : List RowLoss) (rtc : Nat) : State :=
  let s1 := ((s.catchUp rtc).reloadHalf 0).reloadHalf 1
  let s2 := s1.hostFresh.alignQuays.rejoin
  if deep then
    ({ s2 with faults := { s2.faults with held := [], lastTaken := [] } }).postCarried.loseRows lost
  else s2

/-- The state in which the device runs again: dispatch resumes from the next boundary (R588). -/
def State.runAgain (s : State) (rtc : Nat) : State :=
  let s1 := s.endExit
  { s1 with power := { s1.power with
      state := 0, quietTides := 0, accepted := true, clockedAt := (s1.clock.grid + 1) * 256, rtc := max s1.power.rtc rtc % 2 ^ 48,
      rtcPart := if s1.power.rtc < rtc then 0 else s1.power.rtcPart } }

/-- EXIT_COMPLETE (R588): the RTC count at the end of the exit, and the rows that an exit from Deep does not restore. -/
def execExitComplete (rtc : Nat) (lost : List RowLoss) (s : State) : Res :=
  .next (if s.power.exit.isNone then s
    else match s.power.state with
      | 2 => (s.runAgain rtc).alignQuays.takeHeld
      | 3 => (s.runAgain rtc).leaveSleep false [] rtc
      | 4 => (s.runAgain rtc).leaveSleep true lost rtc
      | _ => s).settle

/-- EXIT_LANE_TIMEOUT (R589): a link that is still in ALIGN 1 ms after the exit goes DOWN and trains again. -/
def execExitLaneTimeout (t : Nat) (p : Port) (s : State) : Res :=
  let s0 := s.at t
  .next (if (s0.link p).state == .align && (s0.link p).since + strokesMs ≤ s0.now then s0.linkDown p 3 else s0).settle

end Sys2Proof.Machine
end

