-- ==== Sys2Proof/Machine/Learning.lean ====
section
/-! DEFINITION. The device epoch and the aging sweep (R305 to R313, R58). -/
namespace Sys2Proof.Machine

/-- The device epoch advances at a boundary where the tide count is a multiple of 2^k (R305). -/
def State.advanceEpoch (s : State) : State :=
  if s.clock.count % 2 ^ s.learning.k = 0 then
    { s with
        learning := { s.learning with epoch := (s.learning.epoch + 1) % 256 }
        counters := { s.counters with epochTide := s.clock.count } }
  else s

/-- A pass of the aging sweep starts (R307, R310): `first` marks the first pass after a boot. -/
def State.startPass (s : State) (first : Bool) : State :=
  let l := s.learning
  let ep := if first then l.epoch else l.er
  { s with learning := { l with
      ep := ep, er := l.epoch, position := 0, passDue := false, awayRuns := l.away.isSome, removals := [] } }

/-- The epoch advance and the start of a sweep pass of one boundary (R305, R307, R646 rank 7), made once. The boundary that
opens the first dispatch tide advances the epoch too, where its tide count is a multiple of 2^k (R64, R305). -/
def State.epochBoundary (s : State) (first : Bool) : State :=
  if s.learning.advancedAt = s.clock.grid || !s.serving then s
  else
    let s1 := s.advanceEpoch
    let s2 := if first || s1.learning.passDue then s1.startPass first else s1
    { s2 with learning := { s2.learning with advancedAt := s2.clock.grid } }

/-- DEVICE_EPOCH_ADVANCE: the epoch advance of a boundary that has not made it yet (R305); it acts at stroke 0. -/
def execDeviceEpochAdvance (s : State) : Res := .next (if s.clock.stroke = 0 then s.epochBoundary false else s).settle

/-- SWEEP_PASS_START: the pass start of a boundary that has not made it yet (R307); it acts at stroke 0. -/
def execSweepPassStart (s : State) : Res := .next (if s.clock.stroke = 0 then s.epochBoundary false else s).settle

/-- An entry is examinable (R309); the entry and its table's definition. -/
def State.examinable (s : State) (len : Nat) : Option (Entry × TableDef) :=
  match s.entry len with
  | none => none
  | some e =>
    match s.table e.tid with
    | none => none
    | some t =>
      if e.state == .live && t.df.ageEn && !s.numbers.pendingMeta.has len &&
          !s.numbers.withheld.contains len && !s.numbers.freeing.contains (e.tid, len) then some (e, t.df)
      else none

/-- The age of a stamp and the epochs since the entry's last examination (R308, R310): the age, delta, and whether the entry is
skipped as stamped since the pass began. -/
def State.ageNow (s : State) (len : Nat) : Nat × Nat × Bool :=
  let l := s.learning
  let e := s.stampOf len
  match l.away with
  | some w =>
    let x := (w.e0 + 256 - e) % 256 + w.n
    let ref := if len < w.position then w.er else w.ep
    (min 255 x, min 255 ((w.e0 + 256 - ref) % 256 + w.n), l.fresh.contains len)
  | none =>
    ((l.er + 256 - e) % 256, (l.er + 256 - l.ep) % 256, decide ((e + 256 - l.er) % 256 ≤ (l.epoch + 256 - l.er) % 256))

/-- The entry has crossed its age limit since its last examination (R308). -/
def State.crossed (s : State) (len : Nat) (df : TableDef) : Bool :=
  let a := s.ageNow len
  !a.2.2 && df.ageLimit ≤ a.1 && decide ((a.1 : Int) - (a.2.1 : Int) < df.ageLimit)

/-- An AGED record is admitted and counted (R312, R316). -/
def State.postAged (s : State) (len : Nat) (e : Entry) (df : TableDef) (removed : Bool) : State :=
  let a := (s.ageNow len).1
  let slot := s.manifestHeader 0x03 1 e.tid df.owner s.clock.count ++ leBytes (s.handle e.gen len) 4 ++
    [BitVec.ofNat 8 (s.stampOf len), BitVec.ofNat 8 a, BitVec.ofNat 8 (b2n removed), 0] ++ zeros 8
  (s.admitRecord [slot] (s.clock.grid + 1) (some len)).1.bump Fld.LRN_AGE_COUNT_aged

/-- The stamp of an entry that was away for more than 255 epochs is set to its age (R310). -/
def State.restamp (s : State) (len : Nat) : State :=
  match s.learning.away with
  | some w =>
    let x := (w.e0 + 256 - s.stampOf len) % 256 + w.n
    if 255 < x && !s.learning.fresh.contains len then
      { s with counters := { s.counters with stamps := s.counters.stamps.put len ((s.learning.er + 256 - min 255 x) % 256) } }
    else s
  | none => s

/-- One logical entry number is examined (R308): a crossing is reported, or its removal is due in the stroke that follows. -/
def State.examine (s : State) (len : Nat) : State :=
  if s.learning.reported.contains len then s
  else match s.examinable len with
  | none => s
  | some (e, df) =>
    if s.crossed len df then
      if df.autoRemove then { s with learning := { s.learning with removals := s.learning.removals ++ [len] } }
      else
        let s1 := (s.postAged len e df false).restamp len
        if s1.learning.removals.isEmpty then s1
        else { s1 with learning := { s1.learning with reported := s1.learning.reported ++ [len] } }
    else s.restamp len

/-- A pass whose last number has been examined, and whose removals are written, ends (R307). -/
def State.finishPass (s : State) : State :=
  let l := s.learning
  if l.position < 16777216 || !l.removals.isEmpty || l.passDue then s
  else { s with learning := { l with passDue := true, away := none, awayRuns := false, fresh := [] } }

/-- The sweep goes on over up to `n` numbers (R307). -/
def State.examineRun (s : State) : Nat → State
  | 0 => s
  | n + 1 =>
    if s.learning.passDue || 16777216 ≤ s.learning.position then s
    else
      let s1 := s.examine s.learning.position
      State.examineRun { s1 with learning := { s1.learning with position := s1.learning.position + 1 } } n

/-- The auto-removals that the stroke before found due are written in this stroke (R58, R311, R312). One that receives no operation in it
stalls the sweep at its entry until the next slack. -/
def State.sweepRemovals (s : State) : List Nat → State
  | [] => { s with learning := { s.learning with removals := [], reported := [] } }
  | len :: rest =>
    match s.examinable len with
    | none => State.sweepRemovals s rest
    | some (e, df) =>
      let banks := s.writeBanks e.bank e.row
      if strokeOpen s.params.cap s.portsTaken (s.slotsFor banks) s.clock.stroke && { s with learning := { s.learning with removals := rest } }.roomFor .removal banks 1 then
        let s1 := s.postAged len e df true
        let s2 := ((s1.dropEntry len).useOther banks 1).bump Fld.LRN_AGE_COUNT_removed
        State.sweepRemovals s2 rest
      else
        { s with learning := { s.learning with
          removals := [], stalledAt := some s.clock.grid, position := len } }

/-- The sweep in one write-phase stroke (R58): the removals due, then 64 epochs, except in the last stroke. -/
def execSweepExamine (t : Nat) (s : State) : Res :=
  let s0 := s.at t
  let l := s0.learning
  let stale := match l.examinedAt with
    | some x => x / 256 != s0.clock.grid
    | none => true
  let s1 :=
    if !s0.inWrite || !s0.serving || s0.domainDown 25 || l.examinedAt = some s0.now || l.stalledAt = some s0.clock.grid then s0
    else
      let s2 := { s0 with learning := { l with examinedAt := some s0.now } }
      let s3 := match l.removals with
        | [] => s2
        | len :: _ =>
          if stale then { s2 with learning := { s2.learning with removals := [], position := len } }
          else s2.sweepRemovals l.removals
      if s0.clock.stroke = lastWriteStroke s0.mode.mode || s3.learning.stalledAt = some s3.clock.grid then s3
      else s3.examineRun 64
  .next s1.finishPass.settle

end Sys2Proof.Machine
end

