-- ==== Sys2Proof/Machine/Boundary.lean ====
section
/-! DEFINITION. The tide boundary and the order of what it applies (R646), the commit stroke (R54), and PPS_IN (R76 to R80). -/
namespace Sys2Proof.Machine

/-- The work of the last commit stroke (R54): row tags (R228) and chart versions (R130, R251). -/
def State.commitStroke (s : State) : State := s.turnTags.pruneCharts.nameMirrors

/-- COMMIT_STROKE (R54): at stroke 255, while the core clock runs. -/
def execCommitStroke (s : State) : Res :=
  .next (if s.awake then (s.at 255).commitStroke else s).settle

/-- The end of a tide (R31, R54, R259, R350, R358, R362, R612): what its last stroke leaves, before the grid moves. The commit work is made
here where no COMMIT_STROKE has made it; a second time it changes nothing (notes/assumptions/23.md). -/
def State.tideEnd (s : State) : State :=
  let s0 := s.at 255
  let s1 := s0.when s0.awake (fun x => x.updatesBeforeSlack.demoteGone.commitStroke)
  s1.scribesEnd.bistTide.drainQueues

/-- The RTC over one tide: 32,768 units a second of 5,859,375 tides (notes/assumptions/70.md). -/
def State.rtcTide (s : State) : State :=
  let part := s.power.rtcPart + 32768
  if part < 5859375 then { s with power := { s.power with rtcPart := part } }
  else { s with power := { s.power with rtc := (s.power.rtc + 1) % 2 ^ 48, rtcPart := part - 5859375 } }

/-- The clock of the next tide (R46, R74, R77, R80): its count, and the trim that an edge has asked for. -/
def Clock.nextTide (c : Clock) : Clock :=
  { c with
      grid := c.grid + 1, stroke := 0, count := c.stepTo.getD (c.count + 1) % 2 ^ 64, stepTo := none
      trim := c.trimNext.getD c.trim, trimNext := none }

/-- The grid moves to the next tide; a step that is taken is shown (GLB_TIDE_CTL.step_gen, GLB_TIDE_STATUS.step_done). -/
def State.gridMoves (s : State) : State :=
  let s1 := { s.rtcTide with clock := s.clock.nextTide }
  s1.when s.clock.stepTo.isSome (fun x =>
    ((x.setFld Fld.GLB_TIDE_CTL_step 0).bumpMod Fld.GLB_TIDE_CTL_step_gen).raise Fld.GLB_TIDE_STATUS_step_done)

/-- Rank 1 of R646: the first dispatch tide (R107), or the mode change with its ring epoch; and the commit of a turn tide (R129). Debug
opens with Serving where debug_lock is 0 (R446). -/
def State.modeRank (s : State) : State :=
  let opens := s.boot.stage == 4 && s.boot.applied
  let s1 := if opens then s.serveBegin else s.modeBoundary
  let s2 := s1.when (opens && !s1.boot.device.debugLock) State.openDebug
  let s3 := s2.when (s.mode.mode == 5 && s2.mode.mode != 5 && !opens) State.replacePartitions
  s3.epochTake.modeCommit

/-- A stream master that is thawed leaves its stream unflagged (R344, R440). -/
def State.unflagThawed (s old : State) : State :=
  let thawed := old.masters.filter (fun (p : Nat × Master) =>
    masterKind p.1 == 3 && p.2.freeze.isSome && (s.master p.1).freeze.isNone)
  s.each thawed (fun t (p : Nat × Master) => t.flagStream (p.1 % 2 ^ 20) false)

/-- Rank 2 of R646: master records, then thaws and the re-freezes of R441. -/
def State.masterRank (s : State) (cs : List Change) : State :=
  let s1 := s.each cs (fun t c => match c with
    | .master m r => t.takeMaster m r
    | _ => t)
  s1.thawAll.unflagThawed s1

/-- Rank 3 of R646, in the order of R412: FORGIVE, berth records, refill. -/
def State.berthRank (s : State) (cs : List Change) : State :=
  let s1 := s.each cs (fun t c => match c with
    | .forgive b => t.setBerth b (t.berth b).forgive
    | _ => t)
  let s2 := s1.each cs (fun t c => match c with
    | .berth b r => t.setBerth b ((t.berth b).take r)
    | _ => t)
  s2.refillAll

/-- Rank 4 of R646: tables and windows. -/
def State.tableChange (s : State) (c : Change) : State :=
  match c with
  | .tableCreate df _ => s.createTable df .live
  | .tableDelete tid => s.emptyTable tid .deleted
  | .tableFlush tid => s.emptyTable tid .flushed
  | .winCommit => s.commitWindows
  | _ => s

/-- The changes to streams, glyph sets, pseudo-channels, lanes and self-tests that a boundary brings (R336, R343, R348, R349, R565, R612,
R617). -/
def State.unitChange (s : State) (c : Change) : State :=
  match c with
  | .streamReset h => s.resetStream h
  | .streamClose h => s.closeStream h
  | .glyphReady n => s.glyphUsable n
  | .glyphUnload n => s.emptySlot n
  | .pcFence p => s.fence p
  | .laneRetire p lane => s.retireByCommand p lane
  | .bistStart => s.startBist
  | _ => s

/-- The insertions of SEED that come into force at this boundary. -/
def State.seedFinished (s : State) : Nat :=
  (s.endingFlights.filter (fun i => !i.rolledBack && s.cmds.accepted.any (fun a => a.id == i.id && a.src == Source.seed))).length

/-- Rank 5 of R646: the pilot's latches. Counts of removed entries are read before their numbers are freed (R313, R316). -/
def State.pilotRank (s : State) : State :=
  let s1 := s.fillAged.noteVictims.noteLabels.watchdog.freeRetired
  let ends := s1.endingFlights
  let n := s1.seedFinished
  let s2 := (s1.finishInsertions.postEvicted ends).hotBoundary.dropOldAd.latchCharts.serviceBoundary.freeSpans
  { s2 with boot := { s2.boot with seedInserted := s2.boot.seedInserted + n }, cmds := { s2.cmds with edits := [] } }

/-- Rank 6 of R646: the learn filter. -/
def State.filterRank (s : State) (cs : List Change) : State :=
  (s.each cs (fun t c => match c with
    | .filterWindow w => { t with learning := { t.learning with window := w } }
    | .filterFlush => t.flushFilter
    | _ => t)).expireFilter

/-- Rank 7 of R646: the device epoch and the sweep pass; `first` marks the first dispatch tide. -/
def State.epochRank (s : State) (cs : List Change) (first : Bool) : State :=
  (s.each cs (fun t c => match c with
    | .ageK k => { t with learning := { t.learning with k := k } }
    | _ => t)).epochBoundary first

/-- Rank 8 of R646: the sampler and the mirror sessions (R389, R391). -/
def State.sampleRank (s : State) (cs : List Change) : State :=
  (s.each cs (fun t c => match c with
    | .sampler en k => { t with observe := { t.observe with sampleEn := en, sampleK := k } }
    | .mirror n x => t.setSession n x
    | _ => t)).sampleBoundary

/-- The consumer indices of SUBMIT rings, written back once a tide where they moved (R527), and the host dispatches of the tide. -/
def State.hostTide (s : State) : State :=
  let moved := (s.host.rings.filter (fun (p : Nat × HostRing) => p.2.moved)).map (fun (p : Nat × HostRing) => p.1)
  let s1 := s.each moved (fun t r => (t.setRing r { t.hostRing r with moved := false }).when t.host.linkUp (fun x => x.writeBack r))
  { s1 with host := { s1.host with dispatches := 0 } }

/-- Rank 9 of R646, the completions, and what follows from them: seed gates, then a life-cycle change (R102, R444). -/
def State.postRank (s : State) (cs : List Change) : State :=
  (s.refreshNeighbours.postDue.seedBoundary).each cs (fun t c => match c with
    | .lifeCycle new floor hash => t.applyLifeCycle new floor hash
    | _ => t)

/-- Every change due at the boundary that opens the present tide, in the order of R646. -/
def State.applyDue (s : State) (first : Bool) : State :=
  let cs := (s.due.filter (fun d => decide (d.tide ≤ s.clock.grid))).map (fun d => d.change)
  let s0 := { s with due := s.due.filter (fun d => !decide (d.tide ≤ s.clock.grid)) }
  let s4 := (((s0.masterRank cs).berthRank cs).each cs State.tableChange).scribesBoundary.each cs State.unitChange
  let s8 := ((s4.pilotRank.filterRank cs).epochRank cs first).sampleRank cs
  ((s8.stacksBoundary.idleRefresh.hostTide).postRank cs).resetTide.powerTide

/-- A tide boundary (R46, R646): stroke 0 starts from what it leaves (R621). -/
def State.boundary (s : State) : State :=
  let s1 := s.tideEnd.gridMoves
  (s1.modeRank.applyDue (s1.boot.stage == 4 && s1.boot.applied)).settle.opens

/-- The grid counts tides (R82, R443): in Run, Idle and Doze, not in a tamper hold. -/
def State.gridRuns (s : State) : Bool := s.clockRuns && !s.power.tamperHold

/-- TIDE_BOUNDARY (R646). -/
def execTideBoundary (s : State) : Res := .next (s.when s.gridRuns State.boundary).settle

/-- The trim that R77 computes, in 1/16 ppm; division rounds toward zero. -/
def nextTrim (trim e : Int) (prev : Option Int) (limit : Nat) : Int :=
  let t1 := match prev with
    | some p => trim - Int.tdiv ((e - p) * 16) 1500
    | none => trim
  let t2 := t1 - Int.tdiv (e * 16) 6000
  let lim : Int := 16 * (limit : Int)
  max (-lim) (min lim t2)

/-- The phase error of an edge (R76). -/
def phaseError (count stroke : Nat) : Int :=
  let p := (256 * count + stroke) % 1500000000
  if p < 750000000 then (p : Int) else (p : Int) - 1500000000

/-- The strokes of 0.9 s (R636). -/
def ppsGuard : Int := 1350000000

/-- An edge of PPS_IN is accepted (R636): not within 0.9 s of the last one accepted. -/
def State.acceptsEdge (s : State) : Bool :=
  s.serving && s.gridRuns && (match s.clock.lastEdge with
    | some e => decide (ppsGuard < (s.now : Int) - e)
    | none => true)

/-- The locked bit at an edge (R78): the consecutive good edges, and the bit. -/
def lockedAfter (good : Nat) (locked : Bool) (e : Int) : Nat × Bool :=
  let n := if e.natAbs ≤ 2 then good + 1 else 0
  (n, if 16 < e.natAbs then false else locked || decide (4 ≤ n))

/-- An accepted PPS edge (R76 to R80). -/
def State.takeEdge (s : State) : State :=
  let c := s.clock
  let e := phaseError c.count c.stroke
  let lock := s.bit Fld.GLB_TIDE_CTL_lock_en
  let step := s.bit Fld.GLB_TIDE_CTL_step
  let l := lockedAfter c.goodEdges (s.bit Fld.GLB_TIDE_STATUS_locked) e
  let trim := nextTrim c.trim e (if step then none else c.prevErr) (s.fld Fld.GLB_TIDE_CTL_trim_limit)
  let base := s.fld Fld.GLB_TOD_NEXT_seconds * 5859375
  let clock : Clock := { c with
    goodEdges := l.1, lastEdge := some (s.now : Int), prevErr := if lock && !step then some e else none
    trimNext := if lock then some trim else c.trimNext
    stepTo := if step then some (if c.stroke < 128 then base + 1 else base) else c.stepTo }
  let s1 := { s with clock := clock }
  ((((s1.setFld Fld.GLB_PPS_CAPTURE_tide (c.count % 2 ^ 56)).setFld Fld.GLB_PPS_CAPTURE_stroke c.stroke).setFld
    Fld.GLB_TIDE_STATUS_phase_err (twos e 32)).setFld Fld.GLB_TIDE_STATUS_holdover 0).setFld Fld.GLB_TIDE_STATUS_locked (b2n l.2)

/-- PPS_EDGE (R76). -/
def execPpsEdge (t : Nat) (s : State) : Res :=
  let s0 := s.at t
  .next (s0.when s0.acceptsEdge State.takeEdge).settle

/-- No edge has been seen for 6,445,313 tides while lock_en is 1 (GLB_TIDE_STATUS.pps_lost, holdover). -/
def State.edgeLost (s : State) : Bool :=
  let since : Int := match s.clock.lastEdge with
    | some e => max (e / 256) (s.clock.lockSince : Int)
    | none => (s.clock.lockSince : Int)
  s.serving && s.gridRuns && s.bit Fld.GLB_TIDE_CTL_lock_en && !s.bit Fld.GLB_TIDE_STATUS_holdover &&
    decide (since + 6445313 ≤ (s.clock.grid : Int))

/-- Holdover begins (R78, R79, R602): the trim is held and PPS_LOST is posted. Holdover breaks the run of consecutive good edges, whose count
restarts at 0 (DESIGN CHOICE, notes/assumptions/156.md). -/
def State.enterHoldover (s : State) : State :=
  let s1 := { s with clock := { s.clock with goodEdges := 0, prevErr := none } }
  let s2 := ((s1.setFld Fld.GLB_TIDE_STATUS_holdover 1).setFld Fld.GLB_TIDE_STATUS_locked 0).raise Fld.GLB_TIDE_STATUS_pps_lost
  s2.faultEvent 0x12 2 0 0 (twos s.clock.trim 16) 0

/-- PPS_LOST (R79). -/
def execPpsLost (t : Nat) (s : State) : Res :=
  let s0 := s.at t
  .next (s0.when s0.edgeLost State.enterHoldover).settle

end Sys2Proof.Machine
end

