-- ==== Sys2Proof/Machine/Dispatch.lean ====
section
/-! DEFINITION. One arm for each command: a direct call of its meaning. -/
namespace Sys2Proof.Machine

def exec (i : Instr) (s : State) : Host.Outcome State Fault Refusal :=
  match i with
  | .powerOnReset => Sys2Proof.Machine.execPowerOnReset s
  | .mainRailsValid selfTest => Sys2Proof.Machine.execMainRailsValid selfTest s
  | .railSequenceTimeout => Sys2Proof.Machine.execRailSequenceTimeout s
  | .railSequenceRetry => Sys2Proof.Machine.execRailSequenceRetry s
  | .discovery d => Sys2Proof.Machine.execDiscovery d s
  | .copyCoreReadEnd stored => Sys2Proof.Machine.execCopyCoreReadEnd stored s
  | .copyReadTimeout => Sys2Proof.Machine.execCopyReadTimeout s
  | .coreApplyComplete r => Sys2Proof.Machine.execCoreApplyComplete r s
  | .applyFailure => Sys2Proof.Machine.execApplyFailure s
  | .glyphRecordVerified t g => Sys2Proof.Machine.execGlyphRecordVerified t g s
  | .seedRecordVerified t stored ended => Sys2Proof.Machine.execSeedRecordVerified t stored ended s
  | .glbBootReboot t fn w => Sys2Proof.Machine.execGlbBootReboot t fn w s
  | .glbBootRetry t fn w => Sys2Proof.Machine.execGlbBootRetry t fn w s
  | .flashProgGo t fn w => Sys2Proof.Machine.execFlashProgGo t fn w s
  | .flashProgDone t data back => Sys2Proof.Machine.execFlashProgDone t data back s
  | .tideBoundary => Sys2Proof.Machine.execTideBoundary s
  | .commitStroke => Sys2Proof.Machine.execCommitStroke s
  | .ppsEdge t => Sys2Proof.Machine.execPpsEdge t s
  | .ppsLost t => Sys2Proof.Machine.execPpsLost t s
  | .glbTideStepArm t fn w => Sys2Proof.Machine.execGlbTideStepArm t fn w s
  | .latchedRead t fn off size => Sys2Proof.Machine.execLatchedRead t fn off size s
  | .rcFieldRead t fn off size => Sys2Proof.Machine.execRcFieldRead t fn off size s
  | .registerWrite t fn off data => Sys2Proof.Machine.execRegisterWrite t fn off data s
  | .glbModeGo t fn w => Sys2Proof.Machine.execGlbModeGo t fn w s
  | .setMode t src => Sys2Proof.Machine.execSetMode t src s
  | .modePreparationDone t => Sys2Proof.Machine.execModePreparationDone t s
  | .searchRequest t src rec => Sys2Proof.Machine.execSearchRequest t src rec s
  | .dispatch t => Sys2Proof.Machine.execDispatch t s
  | .busyResult t => Sys2Proof.Machine.execBusyResult t s
  | .activation t tags => Sys2Proof.Machine.execActivation t tags s
  | .resolution t => Sys2Proof.Machine.execResolution t s
  | .hitUpdateApply t => Sys2Proof.Machine.execHitUpdateApply t s
  | .realTimeReadReturn t search look how => Sys2Proof.Machine.execRealTimeReadReturn t search look how s
  | .dataLate t => Sys2Proof.Machine.execDataLate t s
  | .chainedPipeFront t => Sys2Proof.Machine.execChainedPipeFront t s
  | .mirrorValidation t search look v => Sys2Proof.Machine.execMirrorValidation t search look v s
  | .assembly t => Sys2Proof.Machine.execAssembly t s
  | .resultRelease t => Sys2Proof.Machine.execResultRelease t s
  | .tableCommand t src rec => Sys2Proof.Machine.execTableCommand t src rec s
  | .commandDropFrozen t src => Sys2Proof.Machine.execCommandDropFrozen t src s
  | .commandWriteApply t => Sys2Proof.Machine.execCommandWriteApply t s
  | .insert t src plan => Sys2Proof.Machine.execInsert t src plan s
  | .delete t src => Sys2Proof.Machine.execDelete t src s
  | .modifyAd t src => Sys2Proof.Machine.execModifyAd t src s
  | .readEntry t src => Sys2Proof.Machine.execReadEntry t src s
  | .counterRead t src => Sys2Proof.Machine.execCounterRead t src s
  | .counterWrite t src => Sys2Proof.Machine.execCounterWrite t src s
  | .tableCreate t src => Sys2Proof.Machine.execTableCreate t src s
  | .tableDelete t src => Sys2Proof.Machine.execTableDelete t src s
  | .tableFlush t src => Sys2Proof.Machine.execTableFlush t src s
  | .diWrite t src => Sys2Proof.Machine.execDiWrite t src s
  | .diRead t src => Sys2Proof.Machine.execDiRead t src s
  | .trace t src => Sys2Proof.Machine.execTrace t src s
  | .traceActivation t tags => Sys2Proof.Machine.execTraceActivation t tags s
  | .tableDigest t src => Sys2Proof.Machine.execTableDigest t src s
  | .digestRead t how tags => Sys2Proof.Machine.execDigestRead t how tags s
  | .streamOpen t src => Sys2Proof.Machine.execStreamOpen t src s
  | .streamClose t src => Sys2Proof.Machine.execStreamClose t src s
  | .streamReset t src => Sys2Proof.Machine.execStreamReset t src s
  | .glyphLoad t src => Sys2Proof.Machine.execGlyphLoad t src s
  | .glyphUnload t src => Sys2Proof.Machine.execGlyphUnload t src s
  | .berthWrite t src => Sys2Proof.Machine.execBerthWrite t src s
  | .berthForgive t src => Sys2Proof.Machine.execBerthForgive t src s
  | .masterWrite t src => Sys2Proof.Machine.execMasterWrite t src s
  | .thaw t src => Sys2Proof.Machine.execThaw t src s
  | .power t src => Sys2Proof.Machine.execPower t src s
  | .lcChange t src ownerKeyA => Sys2Proof.Machine.execLcChange t src ownerKeyA s
  | .keyWrap t src => Sys2Proof.Machine.execKeyWrap t src s
  | .keyWrapComplete t => Sys2Proof.Machine.execKeyWrapComplete t s
  | .bankService t src => Sys2Proof.Machine.execBankService t src s
  | .pcFence t src => Sys2Proof.Machine.execPcFence t src s
  | .laneRetire t src => Sys2Proof.Machine.execLaneRetire t src s
  | .scribeService t src => Sys2Proof.Machine.execScribeService t src s
  | .commandHeadTimeout src => Sys2Proof.Machine.execCommandHeadTimeout src s
  | .commandCompletionTimeout => Sys2Proof.Machine.execCommandCompletionTimeout s
  | .insertPlanStep t id held => Sys2Proof.Machine.execInsertPlanStep t id held s
  | .insertRollback t => Sys2Proof.Machine.execInsertRollback t s
  | .respacing t tid moves => Sys2Proof.Machine.execRespacing t tid moves s
  | .chartSplit t tid pos => Sys2Proof.Machine.execChartSplit t tid pos s
  | .chartMerge t tid => Sys2Proof.Machine.execChartMerge t tid s
  | .resequencing t tid => Sys2Proof.Machine.execResequencing t tid s
  | .tableRelabel t tid => Sys2Proof.Machine.execTableRelabel t tid s
  | .mirrorBuild t => Sys2Proof.Machine.execMirrorBuild t s
  | .tableFreeing t tid => Sys2Proof.Machine.execTableFreeing t tid s
  | .hotPromotion t len => Sys2Proof.Machine.execHotPromotion t len s
  | .hotDecay => Sys2Proof.Machine.execHotDecay s
  | .pinnedLineFill t len => Sys2Proof.Machine.execPinnedLineFill t len s
  | .adChangeWrite t => Sys2Proof.Machine.execAdChangeWrite t s
  | .pilDrain t fn w => Sys2Proof.Machine.execPilDrain t fn w s
  | .pilReturn t fn w => Sys2Proof.Machine.execPilReturn t fn w s
  | .bankDrainCopy t how => Sys2Proof.Machine.execBankDrainCopy t how s
  | .drainComplete t => Sys2Proof.Machine.execDrainComplete t s
  | .scrubRead t => Sys2Proof.Machine.execScrubRead t s
  | .scrubCompare t c => Sys2Proof.Machine.execScrubCompare t c s
  | .repairWrite t => Sys2Proof.Machine.execRepairWrite t s
  | .shadowStripeRebuild t stripe units => Sys2Proof.Machine.execShadowStripeRebuild t stripe units s
  | .metaRebuild t len => Sys2Proof.Machine.execMetaRebuild t len s
  | .lenWithheld t len => Sys2Proof.Machine.execLenWithheld t len s
  | .tagRestoreSearchEnd t pass => Sys2Proof.Machine.execTagRestoreSearchEnd t pass s
  | .filterEntryExpiry => Sys2Proof.Machine.execFilterEntryExpiry s
  | .lrnFilterFlush t fn w => Sys2Proof.Machine.execLrnFilterFlush t fn w s
  | .deviceEpochAdvance => Sys2Proof.Machine.execDeviceEpochAdvance s
  | .sweepPassStart => Sys2Proof.Machine.execSweepPassStart s
  | .sweepExamine t => Sys2Proof.Machine.execSweepExamine t s
  | .manifestCommit t bad => Sys2Proof.Machine.execManifestCommit t bad s
  | .gapAdmit t => Sys2Proof.Machine.execGapAdmit t s
  | .manifestRelease t fn w => Sys2Proof.Machine.execManifestRelease t fn w s
  | .manifestRewind t fn w => Sys2Proof.Machine.execManifestRewind t fn w s
  | .manifestMark t fn w => Sys2Proof.Machine.execManifestMark t fn w s
  | .manifestWinRead t fn byte size => Sys2Proof.Machine.execManifestWinRead t fn byte size s
  | .manifestDelivery t => Sys2Proof.Machine.execManifestDelivery t s
  | .manifestDeliveryRelease t => Sys2Proof.Machine.execManifestDeliveryRelease t s
  | .streamChunk t src rec => Sys2Proof.Machine.execStreamChunk t src rec s
  | .chunkAssignment => Sys2Proof.Machine.execChunkAssignment s
  | .streamStateReadReturn t scribe how => Sys2Proof.Machine.execStreamStateReadReturn t scribe how s
  | .streamStateReadLate scribe => Sys2Proof.Machine.execStreamStateReadLate scribe s
  | .chunkRun t scribe => Sys2Proof.Machine.execChunkRun t scribe s
  | .chunkWatchdog scribe => Sys2Proof.Machine.execChunkWatchdog scribe s
  | .chunkReport scribe => Sys2Proof.Machine.execChunkReport scribe s
  | .glyphCopyDone t set => Sys2Proof.Machine.execGlyphCopyDone t set s
  | .partitionLoadDone t set => Sys2Proof.Machine.execPartitionLoadDone t set s
  | .scbGlyphLoad t fn w => Sys2Proof.Machine.execScbGlyphLoad t fn w s
  | .scbGlyphUnload t fn w => Sys2Proof.Machine.execScbGlyphUnload t fn w s
  | .scbScribeOffline t fn w => Sys2Proof.Machine.execScbScribeOffline t fn w s
  | .scbScribeOnline t fn w => Sys2Proof.Machine.execScbScribeOnline t fn w s
  | .fold t => Sys2Proof.Machine.execFold t s
  | .foldReadReturn t len how => Sys2Proof.Machine.execFoldReadReturn t len how s
  | .telCntWrite t fn data => Sys2Proof.Machine.execTelCntWrite t fn data s
  | .telCntRead t fn byte size => Sys2Proof.Machine.execTelCntRead t fn byte size s
  | .countReadReturn t how => Sys2Proof.Machine.execCountReadReturn t how s
  | .queueSampleCapture => Sys2Proof.Machine.execQueueSampleCapture s
  | .samplePost t => Sys2Proof.Machine.execSamplePost t s
  | .telemetryDelivery t => Sys2Proof.Machine.execTelemetryDelivery t s
  | .captureRestart t fn w => Sys2Proof.Machine.execCaptureRestart t fn w s
  | .bthForgive t fn w => Sys2Proof.Machine.execBthForgive t fn w s
  | .secThaw t fn w => Sys2Proof.Machine.execSecThaw t fn w s
  | .autoThaw => Sys2Proof.Machine.execAutoThaw s
  | .tamperTrip t causes => Sys2Proof.Machine.execTamperTrip t causes s
  | .tamperHoldEnd => Sys2Proof.Machine.execTamperHoldEnd s
  | .entropyHealthFail t => Sys2Proof.Machine.execEntropyHealthFail t s
  | .debugToken t key sig => Sys2Proof.Machine.execDebugToken t key sig s
  | .tapInstruction ir => Sys2Proof.Machine.execTapInstruction ir s
  | .quyEnable t fn w => Sys2Proof.Machine.execQuyEnable t fn w s
  | .quyReset t fn w => Sys2Proof.Machine.execQuyReset t fn w s
  | .quyRetrain t fn w => Sys2Proof.Machine.execQuyRetrain t fn w s
  | .laneLock t p => Sys2Proof.Machine.execLaneLock t p s
  | .laneLockTimeout t p lane => Sys2Proof.Machine.execLaneLockTimeout t p lane s
  | .codewordLock t p => Sys2Proof.Machine.execCodewordLock t p s
  | .alignTimeout t p => Sys2Proof.Machine.execAlignTimeout t p s
  | .init t p width => Sys2Proof.Machine.execInit t p width s
  | .initDone t p => Sys2Proof.Machine.execInitDone t p s
  | .initTimeout t p => Sys2Proof.Machine.execInitTimeout t p s
  | .frameReceive t p errors frame => Sys2Proof.Machine.execFrameReceive t p errors frame s
  | .replayTimeout t p => Sys2Proof.Machine.execReplayTimeout t p s
  | .livenessTimeout t p => Sys2Proof.Machine.execLivenessTimeout t p s
  | .laneLossOfLock t p lane => Sys2Proof.Machine.execLaneLossOfLock t p lane s
  | .serLimitExceeded t p lane => Sys2Proof.Machine.execSerLimitExceeded t p lane s
  | .laneBad t p lane => Sys2Proof.Machine.execLaneBad t p lane s
  | .widthAck t p => Sys2Proof.Machine.execWidthAck t p s
  | .retrainLock t p lane => Sys2Proof.Machine.execRetrainLock t p lane s
  | .ringRecordLaunch t => Sys2Proof.Machine.execRingRecordLaunch t s
  | .ringSearchRecord t rec => Sys2Proof.Machine.execRingSearchRecord t rec s
  | .ringRecordLate t => Sys2Proof.Machine.execRingRecordLate t s
  | .censusProbeLaunch => Sys2Proof.Machine.execCensusProbeLaunch s
  | .census t msg => Sys2Proof.Machine.execCensus t msg s
  | .censusTimeout t => Sys2Proof.Machine.execCensusTimeout t s
  | .forceProbeTimeout t => Sys2Proof.Machine.execForceProbeTimeout t s
  | .rngJoin t fn w => Sys2Proof.Machine.execRngJoin t fn w s
  | .rngLeave t fn w => Sys2Proof.Machine.execRngLeave t fn w s
  | .leaveComplete t => Sys2Proof.Machine.execLeaveComplete t s
  | .doorbell t fn slot data => Sys2Proof.Machine.execDoorbell t fn slot data s
  | .hstRingEnable t fn w => Sys2Proof.Machine.execHstRingEnable t fn w s
  | .hstRingReset t fn w => Sys2Proof.Machine.execHstRingReset t fn w s
  | .ringFetch t ring rec => Sys2Proof.Machine.execRingFetch t ring rec s
  | .hostRingWrite t ring => Sys2Proof.Machine.execHostRingWrite t ring s
  | .peerWindowTlp t off data => Sys2Proof.Machine.execPeerWindowTlp t off data s
  | .hstWinCommit t fn w => Sys2Proof.Machine.execHstWinCommit t fn w s
  | .flr t fn => Sys2Proof.Machine.execFlr t fn s
  | .flrComplete fn => Sys2Proof.Machine.execFlrComplete fn s
  | .perstNAssert => Sys2Proof.Machine.execPerstNAssert s
  | .hotReset => Sys2Proof.Machine.execHotReset s
  | .linkDown => Sys2Proof.Machine.execLinkDown s
  | .linkUp gen width flit => Sys2Proof.Machine.execLinkUp gen width flit s
  | .completionTimeout t rd => Sys2Proof.Machine.execCompletionTimeout t rd s
  | .lateCpl t => Sys2Proof.Machine.execLateCpl t s
  | .refreshDue pc => Sys2Proof.Machine.execRefreshDue pc s
  | .stackTempReadout t stack temp => Sys2Proof.Machine.execStackTempReadout t stack temp s
  | .verifyStart pc => Sys2Proof.Machine.execVerifyStart pc s
  | .verifyEnd t pc ok => Sys2Proof.Machine.execVerifyEnd t pc ok s
  | .rebuildStripes t n => Sys2Proof.Machine.execRebuildStripes t n s
  | .dramCommandWatchdog t pc => Sys2Proof.Machine.execDramCommandWatchdog t pc s
  | .pwrWakeRegister t fn w => Sys2Proof.Machine.execPwrWakeRegister t fn w s
  | .pwrIdleRequest t fn w => Sys2Proof.Machine.execPwrIdleRequest t fn w s
  | .pwrLowStateRequest t fn w => Sys2Proof.Machine.execPwrLowStateRequest t fn w s
  | .autoIdleEntry => Sys2Proof.Machine.execAutoIdleEntry s
  | .idleWake t => Sys2Proof.Machine.execIdleWake t s
  | .entryDrainEnd => Sys2Proof.Machine.execEntryDrainEnd s
  | .bulkFold reads => Sys2Proof.Machine.execBulkFold reads s
  | .entryComplete => Sys2Proof.Machine.execEntryComplete s
  | .rtcAlarm count => Sys2Proof.Machine.execRtcAlarm count s
  | .perstNWake => Sys2Proof.Machine.execPerstNWake s
  | .exitComplete rtc lost => Sys2Proof.Machine.execExitComplete rtc lost s
  | .exitLaneTimeout t p => Sys2Proof.Machine.execExitLaneTimeout t p s
  | .pwrDomainReset t fn w => Sys2Proof.Machine.execPwrDomainReset t fn w s
  | .domainResetEnd => Sys2Proof.Machine.execDomainResetEnd s
  | .mgmtWatchdog t => Sys2Proof.Machine.execMgmtWatchdog t s
  | .fltWinRead t fn byte size => Sys2Proof.Machine.execFltWinRead t fn byte size s
  | .faultLogDelivery t => Sys2Proof.Machine.execFaultLogDelivery t s
  | .dieTempReadout t temps => Sys2Proof.Machine.execDieTempReadout t temps s
  | .aryBistGo t fn w => Sys2Proof.Machine.execAryBistGo t fn w s
  | .bistComplete t count line => Sys2Proof.Machine.execBistComplete t count line s
  | .getIdent => Sys2Proof.Machine.execGetIdent s
  | .getState => Sys2Proof.Machine.execGetState s
  | .getDieTemp => Sys2Proof.Machine.execGetDieTemp s
  | .getStackTemp => Sys2Proof.Machine.execGetStackTemp s
  | .getTamper => Sys2Proof.Machine.execGetTamper s
  | .wake t => Sys2Proof.Machine.execWake t s
  | .copyHeaderKeysReadEnd h => Sys2Proof.Machine.execCopyHeaderKeysReadEnd h s
  | .frameTransmit t p => Sys2Proof.Machine.execFrameTransmit t p s
  | .shadowWriteComplete t bank line => Sys2Proof.Machine.execShadowWriteComplete t bank line s
  | .urOrCaCompletion t ring => Sys2Proof.Machine.execUrOrCaCompletion t ring s
  | .ringRecordForward t => Sys2Proof.Machine.execRingRecordForward t s
  | .mirrorCopyFreeing t => Sys2Proof.Machine.execMirrorCopyFreeing t s
  | .hotWayDemotion t => Sys2Proof.Machine.execHotWayDemotion t s
  | .quadrantRowRewrite t bank row => Sys2Proof.Machine.execQuadrantRowRewrite t bank row s
  | .vddAonRemoved => Sys2Proof.Machine.execVddAonRemoved s
  | .hostDmaAccess t write addr len data => Sys2Proof.Machine.execHostDmaAccess t write addr len data s
  | .vfEnable enable numVfs => Sys2Proof.Machine.execVfEnable enable numVfs s
  | .tapTestLogicReset => Sys2Proof.Machine.execTapTestLogicReset s

end Sys2Proof.Machine
end

