-- ==== Sys2Proof/Safety.lean ====
section
/-! DEFINITION. What counts as a sound run, in the terms that claims use: a command that answers a next state, the conditions that hold
after every command, and the conditions under which a command at the head of its FIFO, or a write of a go bit, has its effect. -/
namespace Sys2Proof.Machine

/-- The command runs, and the state that it leaves has the property. -/
def Answers (c : Instr) (s : State) (p : State → Prop) : Prop := ∃ s', exec c s = .next s' ∧ p s'

/-- The command leaves exactly this state, its pins and gates settled (R325, R471, R508, R606). -/
def Leaves (c : Instr) (s x : State) : Prop := exec c s = .next x.settle

/-- The main domains run and the device serves, so that MNF_XOFF has the level of the manifest queue (R325, R632). -/
def State.showsManifest (s : State) : Bool := s.serving && s.power.railsValid && s.power.state ≤ 2 && !s.power.tamperHold

/-- The output pins of PD00 and the lock gates follow the state (R325, R508, R606, R632). ALERT_N is driven at once and released in the
stroke after; MNF_XOFF takes its level in the stroke after. -/
def PinsFollow (s : State) : Prop :=
  (s.alertWanted = true → s.pins.alert = true) ∧ s.pins.nextAlert = s.alertWanted ∧
  (s.ring.gatesOpen = true ↔ s.gatesWanted = true) ∧
  s.pins.lgHoldE = s.ring.gatesOpen ∧ s.pins.lgHoldW = s.ring.gatesOpen ∧
  (s.showsManifest = false → s.pins.nextMnf = true) ∧
  (s.showsManifest = true →
    (s.fld Fld.LRN_MNF_WM_high ≤ s.manifest.occupancy → s.pins.nextMnf = true) ∧
    (s.manifest.occupancy ≤ s.fld Fld.LRN_MNF_WM_low → s.manifest.occupancy < s.fld Fld.LRN_MNF_WM_high → s.pins.nextMnf = false)) ∧
  (s.strokesPass = false → s.pins.alert = s.alertWanted ∧ s.pins.mnfXoff = s.pins.nextMnf)

/-- Every memory has its canonical form. -/
def MemoryForm (s : State) : Prop := s.dram.wf = true ∧ s.diram.wf = true ∧ s.scratch.wf = true

/-- A write of the physical function to the register `r` (copy or object `i`) is served and stores its fields, none out of its range;
`x` is the state with them stored, and the go bit of the register acts on it (R11, R12, R623). -/
def Stores (s : State) (t : Nat) (r : Reg) (i : Nat) (w : Word64) (x : State) : Prop :=
  (s.at t).holds r = false ∧ (s.at t).served r i = true ∧ (s.at t).storeFields r i w.toNat fullMask [] = (x, false, false)

/-- Registers of one copy whose RW fields have no effect but the values that they hold (R11). -/
def plainRegs : List Reg :=
  [.GLB_TOD_NEXT, .GLB_FLASH_PROG_ADDR, .PIL_HOT_CTL, .LRN_MNF_WM, .SCB_GLYPH_ADDR, .TEL_DEST_CTL, .MEM_RT_CTL, .PWR_WAKE_CTL]

/-- Registers whose bytes 4 to 7 are latched for each function (R75). -/
def latchRegs : List Reg := [.GLB_TIDE_COUNT, .BTH_LEVEL_C, .BTH_LEVEL_P, .PWR_RTC]

/-- The command `c` stands at the head of the FIFO of `src` with an opcode, may be taken in stroke `t` (R60), and passes checks 1, 2
and 4 of R176: its header, its authentication, and its berth, rights and role. -/
def Clears (s : State) (t : Nat) (src : Source) (c : Cmd) (rest : List Cmd) (op : Nat) (usesTid usesHandle : Bool)
    (need : Right) : Prop :=
  (s.at t).fifo src = c :: rest ∧ cmdOp c.record = op ∧ (s.at t).takeable src c = true ∧
  c.headerOk usesTid usesHandle = true ∧ (s.at t).authFails src c = false ∧ (s.at t).denied src c need = none

/-- The command has left its FIFO and is held as accepted (R60); `a` is what is held of it. -/
def Taken (s s' : State) (src : Source) (c : Cmd) (rest : List Cmd) (a : Accepted) : Prop :=
  s'.cmds.accepted = s.cmds.accepted ++ [a] ∧ a.id = s.cmds.nextId ∧ a.src = src ∧ a.record = c.record ∧ a.master = c.master ∧
  a.tide = s.clock.grid ∧ (s'.fifo src).map (·.record) = rest.map (·.record)

/-- The accepted command waits for the write phase that R61 gives it, `n` the grid tide of that phase. -/
def Accepted.awaits (a : Accepted) (n : Nat) : Prop := a.applied = false ∧ a.applyTide = n ∧ a.result = none ∧ a.postAt = none

/-- The completion of the accepted command is known and is posted at the boundary that opens grid tide `n`. -/
def Accepted.answers (a : Accepted) (result handle : Nat) (payload : Bytes) (n : Nat) : Prop :=
  a.result = some (result, handle, 0, 0, payload) ∧ a.postAt = some n

/-- Nothing has changed but the time, the command engine, the master's cookie, the credit or the place that the record held, and what
settles with every command. -/
def OnlyTaken (s s' : State) (t : Nat) : Prop :=
  s' = { s with
    clock := s'.clock, start := s'.start, cmds := s'.cmds, masters := s'.masters, links := s'.links, host := s'.host, pins := s'.pins, ring := s'.ring } ∧
  s'.clock = (s.at t).clock ∧ s'.start = (s.at t).start ∧ s'.links.record = s.links.record ∧ s'.ring.epoch = s.ring.epoch

/-- The command has left its FIFO, and its completion with a result, handle and payload is posted at the boundary that R63 gives. -/
def Commits (s : State) (t : Nat) (src : Source) (c : Cmd) (rest : List Cmd) (s' : State) (result handle : Nat) (payload : Bytes) : Prop :=
  ∃ a, Taken s s' src c rest a ∧ a.applied = true ∧ a.answers result handle payload (s.at t).dueTide

/-- As `OnlyTaken`, for a command whose change waits for its boundary: that change alone has joined those that wait. -/
def OnlyDue (s s' : State) (t : Nat) (ch : Change) : Prop :=
  s' = { s with
    clock := s'.clock, start := s'.start, cmds := s'.cmds, masters := s'.masters, links := s'.links, host := s'.host, pins := s'.pins, ring := s'.ring
    due := s.due ++ [⟨(s.at t).dueTide, ch⟩] } ∧
  s'.clock = (s.at t).clock ∧ s'.start = (s.at t).start ∧ s'.links.record = s.links.record ∧ s'.ring.epoch = s.ring.epoch

/-- `x` with DRAM, its queues and its controller as `s'` has them, and what reads that fail their check report (R546, R548, R602): what a
write of DRAM may change. -/
def State.dramAs (x s' : State) : State :=
  { x with
      dram := s'.dram, dramCtl := s'.dramCtl, memQueues := s'.memQueues, regs := s'.regs, rc := s'.rc, setAt := s'.setAt
      setBits := s'.setBits, faults := s'.faults, out := s'.out, freeCounter := s'.freeCounter }

end Sys2Proof.Machine
end

