-- ==== Sys2Proof/Certificates/Slice0/Obligations.lean ====
section
/-! DEFINITION. The statements for the provers. Each is about the commands it names: what exec answers, what the state after it holds and
what it leaves unchanged; the docstring names the rules of spec/ it follows. `Answers`, `Leaves`, `Clears`, `Commits` and the other words of the
statements are in Safety.lean. A hypothesis speaks of the state and the operands alone. -/

open Sys2Proof
open Sys2Proof.Machine

/-- A step runs the command at the front of the queue on the state with the rest of the queue; on an empty queue the block idles, which is
the model's choice (notes/assumptions/1.md). -/
def Obligations.StepTakesTheFront : Prop :=
  (∀ (s : State) (c : Instr) (rest : List Instr), s.pending = c :: rest → step s = exec c { s with pending := rest }) ∧
  (∀ s : State, s.pending = [] → step s = .next s)

/-- R325, R508, R606, R632: every command is answered with a next state, and the output pins and the lock gates follow the state after it:
ALERT_N is low while a routed class is pending, MNF_XOFF has its level in the stroke after, and both gates stand as R508 gives. -/
def Obligations.PinsFollowEveryStep : Prop :=
  ∀ (s : State), PinsFollow s → ∃ s', step s = .next s' ∧ PinsFollow s'

/-- The invariant of the pins holds at reset, and every memory of the reset state has its canonical form. -/
def Obligations.ResetMeetsInvariants : Prop :=
  PinsFollow State.reset ∧ MemoryForm State.reset

/-- R9, R41, R42, R43: the commands that write DRAM from outside the array keep its canonical form: DMA of the host, the reads of the
counter engine, the copy of a glyph, the opening and the running of a stream. -/
def Obligations.DramKeepsItsForm : Prop :=
  let keeps := fun (c : Instr) => ∀ s s' : State, MemoryForm s → exec c s = .next s' → MemoryForm s'
  ∀ (t m n : Nat) (src : Source) (how : DramRead) (reads : List StripeRead) (data : Bytes) (w : Word64) (b : Bool),
    keeps (.hostDmaAccess t b m n data) ∧ keeps (.foldReadReturn t n how) ∧ keeps (.telCntWrite t n data) ∧ keeps (.glyphLoad t src) ∧
    keeps (.scbGlyphLoad t n w) ∧ keeps (.streamOpen t src) ∧ keeps (.chunkRun t n) ∧ keeps (.chunkWatchdog n) ∧
    keeps (.bulkFold reads)

/-- R140: the order of sequences. -/
def Obligations.SequencesCompare : Prop :=
  ∀ a b : Nat, seqEarlier a b = true ↔ 1 ≤ ((b : Int) - a) % 2 ^ 32 ∧ ((b : Int) - a) % 2 ^ 32 ≤ 2 ^ 31 - 1

/-- R165, R187: a direct-index lookup. Its index is the low index bits of three little-endian key bytes; it misses beyond the depth, and
where zero_miss is 1 at an entry of zeros, and otherwise hits with the entry's bytes. -/
def Obligations.DirectLookups : Prop :=
  ∀ (s : State) (rec_ : Bytes) (m3 : Bool) (l : Look) (tb : TableRec), tb.df.direct = true →
    let off := descOff l.desc
    let x := (byteAt rec_ (16 + off) + 256 * byteAt rec_ (17 + off) + 65536 * byteAt rec_ (18 + off)) % 2 ^ tb.df.indexBits
    let miss := tb.df.depth ≤ x ∨ (tb.df.zeroMiss = true ∧ ∀ b ∈ s.diRead tb x, b = 0)
    let y := s.buildKey rec_ m3 l tb
    y.index = x ∧ (miss → y.pre = some 1 ∧ y.data = []) ∧ (¬ miss → y.pre = some 0 ∧ y.data = s.diRead tb x) ∧
      (∀ f d base i, s.resolveLook f d base i y = (s, { y with status := y.pre }))

/-- R530: doorbells. One of fewer than 8 bytes, or to a slot that is not ACTIVE, is ignored; one that would make producer - consumer exceed
2^n, or that moves an index backwards, takes the ring to ERROR with cause 4. -/
def Obligations.DoorbellsOutOfRange : Prop :=
  ∀ (s : State) (t fn slot : Nat) (data : Bytes), (s.at t).intakeStopped = false → s.host.linkUp = true → s.hasFunction fn = true →
    (s.function fn).flr = false → slot < 16 →
    let r := 16 * fn + slot
    let x := s.hostRing r
    let idx := fieldLE data 0 4
    let apart := if s.ringKind r = 0 then (idx + 2 ^ 32 - x.devIndex) % 2 ^ 32 else (x.devIndex + 2 ^ 32 - idx) % 2 ^ 32
    (data.length < 8 ∨ x.state ≠ .active → Answers (.doorbell t fn slot data) s (fun s' => s'.host = s.host)) ∧
    (8 ≤ data.length → x.state = .active → (2 ^ s.fld Fld.HST_RING_CTL_size_log2 r < apart ∨ 2 ^ 31 ≤ (idx + 2 ^ 32 - x.hostIndex) % 2 ^ 32) →
      Answers (.doorbell t fn slot data) s (fun s' => (s'.hostRing r).state = .error ∧ (s'.hostRing r).cause = 4))

/-- R63, R176, R177, R437: the checks that commands share, in their order. One whose header is wrong is answered MALFORMED; a THAW in form
whose tag does not verify is answered AUTH_FAIL, and one whose master may not send it DENIED, and both are violations that freeze the
master. -/
def Obligations.ChecksRefuse : Prop :=
  ∀ (s : State) (t : Nat) (src : Source) (c : Cmd) (rest : List Cmd), (s.at t).fifo src = c :: rest →
    (s.at t).takeable src c = true →
    let op := cmdOp c.record
    let malformed := fun (i : Instr) => Answers i s (fun s' => Commits s t src c rest s' 0x0A 0 [] ∧ OnlyTaken s s' t)
    (c.headerOk true false = false →
      (op = 0x08 → malformed (.tableCreate t src)) ∧ (op = 0x29 → malformed (.glyphUnload t src)) ∧
      (op = 0x28 → malformed (.glyphLoad t src)) ∧ (op = 0x20 → malformed (.streamOpen t src))) ∧
    (c.headerOk false false = false →
      (op = 0x38 → malformed (.berthWrite t src)) ∧ (op = 0x39 → malformed (.berthForgive t src)) ∧
      (op = 0x41 → malformed (.masterWrite t src)) ∧ (op = 0x42 → malformed (.thaw t src)) ∧
      (op = 0x43 → malformed (.power t src)) ∧ (op = 0x51 → malformed (.pcFence t src)) ∧
      (op = 0x50 → malformed (.bankService t src)) ∧ (op = 0x53 → malformed (.scribeService t src))) ∧
    (op = 0x42 → c.headerOk false false = true → (cmdBody c.record).length = 8 → zerosAt (cmdBody c.record) 4 4 = true → src ≠ .seed →
      ((s.at t).authFails src c = true → Answers (.thaw t src) s (fun s' => Commits s t src c rest s' 0x0F 0 [] ∧
        ((s'.master c.master).freeze).isSome = true ∧ s'.due = s.due)) ∧
      (∀ cause, (s.at t).authFails src c = false → (s.at t).denied src c .supervisor = some cause →
        Answers (.thaw t src) s (fun s' => Commits s t src c rest s' 0x09 0 [] ∧ ((s'.master c.master).freeze).isSome = true ∧
          s'.due = s.due)))

/-- R443, R590, R591, R592: power-on reset leaves every field at its value at reset except the fuses, with PWR_MAIN_EN high; removing the
always-on supply does the same and leaves PWR_MAIN_EN low. The grid index, the free-value counter, the outbox and the queue are the model's
own. The rail sequencer: valid rails end the ROM stage: a failed self-test halts the device with code 0x0F, a Blank or Retired device enters
Recovery, any other begins Discovery with an empty fault log; in a tamper hold nothing more happens. A sequence that times out takes
PWR_MAIN_EN low and the third in a row halts the sequencer; a retry takes PWR_MAIN_EN high. Completes here: POWER_ON_RESET,
MAIN_RAILS_VALID, RAIL_SEQUENCE_TIMEOUT, RAIL_SEQUENCE_RETRY, VDD_AON_REMOVED. -/
def Obligations.PowerOnAndRails : Prop :=
  (∀ s : State,
    let fresh := State.opens { State.reset with
      clock := { Clock.reset with grid := s.clock.grid + 1 }, fuses := s.fuses, freeCounter := s.freeCounter, out := s.out,
      pending := s.pending }
    exec .powerOnReset s = .next fresh ∧ fresh.power.mainEn = true ∧ fresh.power.railsValid = false ∧ fresh.boot.stage = 0 ∧
    exec .vddAonRemoved s = .next (State.opens { fresh with power := { Power.reset with vddAon := false, mainEn := false } })) ∧
  (∀ s : State,
    (∀ ok : Bool, s.power.vddAon = true → s.power.mainEn = true → s.power.halted = false → s.boot.stage = 0 →
      (s.power.tamperHold = true →
        Leaves (.mainRailsValid ok) s { s with power := { s.power with railsValid := true, railFails := 0, state := 0 } }) ∧
      (s.power.tamperHold = false → Answers (.mainRailsValid ok) s (fun s' =>
        s'.power.railsValid = true ∧ s'.power.railFails = 0 ∧ s'.power.state = 0 ∧ s'.fuses = s.fuses ∧ s'.dramCtl = s.dramCtl ∧
        (ok = false → s'.boot.stage = 15 ∧ s'.boot.errA = 0x0F ∧ s'.boot.errB = 0x0F) ∧
        (ok = true → s'.security.rootKeys = true ∧ s'.security.selfTestOk = true ∧
          (s.fuses.lifeCycle = 0 ∨ s.fuses.lifeCycle = 4 → s'.boot.stage = 14 ∧ s'.host.numVfs = 0) ∧
          (s.fuses.lifeCycle ≠ 0 → s.fuses.lifeCycle ≠ 4 → s'.boot.stage = 1 ∧ s'.faults.held = [] ∧
            s'.boot.fromOffGuard = s.boot.fromOffGuard))))) ∧
    (s.power.mainEn = true → s.power.railsValid = false → s.power.halted = false →
      Leaves .railSequenceTimeout s { s with power := { s.power with
        mainEn := false, railFails := s.power.railFails + 1, halted := decide (3 ≤ s.power.railFails + 1) } }) ∧
    (s.power.vddAon = true → s.power.mainEn = false → s.power.halted = false → s.power.railFails ≠ 0 →
      Leaves .railSequenceRetry s { s with power := { s.power with mainEn := true } }))

/-- R84, R85, R98, R99, R103, R104, R107, R109, R608: the reads of a boot. Discovery performs its operations on the flash device in their
order, on exit from Off-Guard steps 3 and 4 alone; where it succeeds the copy to try is read, where it fails Recovery follows with code 1
for both copies. A header whose checks pass is held and its keys open; CORE whose digest, records and contents pass is applied next;
whatever fails abandons the copy with the code of the check. Completes here: DISCOVERY, COPY_HEADER_KEYS_READ_END, COPY_CORE_READ_END,
COPY_READ_TIMEOUT, APPLY_FAILURE, CORE_APPLY_COMPLETE, GLYPH_RECORD_VERIFIED, SEED_RECORD_VERIFIED. -/
def Obligations.BootReadsAndApply : Prop :=
  (∀ (s : State) (d : SfdpRead), s.boot.stage = 1 →
    (s.boot.fromOffGuard = false → d.read = true → d.lists8D = true → d.enabled = true → d.readAgain = true →
      Leaves (.discovery d) s { s with
        out := s.out ++ [.flash .resetPulse, .flash .readSfdp, .flash (.enable d.enableCommands), .flash .readSfdpHeader]
        boot := { s.boot with stage := 2, copy := 0, header := none, core := [], enableCommands := d.enableCommands } }) ∧
    (s.boot.fromOffGuard = true → d.enabled = true → d.readAgain = true → Leaves (.discovery d) s { s with
      out := s.out ++ [.flash (.enable s.boot.enableCommands), .flash .readSfdpHeader]
      boot := { s.boot with stage := 2 + s.boot.recordedCopy, copy := s.boot.recordedCopy, header := none, core := [] } }) ∧
    (s.discovers d = false → Answers (.discovery d) s (fun s' =>
      s'.boot.stage = 14 ∧ s'.boot.errA = 1 ∧ s'.boot.errB = 1 ∧ s'.fuses = s.fuses))) ∧
  (∀ s : State,
    let abandoned := fun (code : Nat) (s' : State) =>
      (s.boot.fromOffGuard = true → s'.boot.stage = 1 ∧ s'.boot.fromOffGuard = false) ∧
      (s.boot.fromOffGuard = false → s.boot.copy = 0 → s'.boot.stage = 3 ∧ s'.boot.copy = 1 ∧ s'.boot.header = none) ∧
      (s.boot.fromOffGuard = false → s.boot.copy ≠ 0 → s'.boot.stage = 14) ∧
      (s.boot.copy = 0 → s'.boot.errA = code ∧ s'.boot.errB = s.boot.errB) ∧
      (s.boot.copy ≠ 0 → s'.boot.errA = s.boot.errA ∧ s'.boot.errB = code) ∧
      (s.boot.copy = 0 → s'.bit Fld.GLB_BOOT_STATUS_fallback = true)
    (s.reading = true →
      Answers .copyReadTimeout s (abandoned 0x02) ∧
      (s.boot.header = none → ∀ h : HeaderRead,
        (s.headerCheck h = 0 → Leaves (.copyHeaderKeysReadEnd h) s
          { s with boot := { s.boot with header := some h }, security := { s.security with keys := keysOf s.security.kek h } }) ∧
        (s.headerCheck h ≠ 0 → Answers (.copyHeaderKeysReadEnd h) s (abandoned (s.headerCheck h)))) ∧
      (∀ (h : HeaderRead) (stored : Bytes), s.boot.header = some h →
        let records := (s.coreRecords h stored).filterMap id
        let whole := sha384 stored = digestOf h 1
        (whole → s.coreVerifies h stored = true → s.coreOk records = true → Leaves (.copyCoreReadEnd stored) s { s with
          boot := { s.boot with stage := 4, core := records, scrollSeq := scrollSeqOf h }
          scratch := s.scratch.write scratchCore records.flatten }) ∧
        (¬ whole → Answers (.copyCoreReadEnd stored) s (abandoned 0x0B)) ∧
        (whole → s.coreVerifies h stored = false → Answers (.copyCoreReadEnd stored) s (abandoned 0x0C)) ∧
        (whole → s.coreVerifies h stored = true → s.coreOk records = false → Answers (.copyCoreReadEnd stored) s (abandoned 0x0D)))) ∧
    (s.boot.stage = 4 → s.boot.applied = false → Answers .applyFailure s (abandoned 0x0E))) ∧
  (∀ (s : State) (r : ApplyResult) (dev sets : Bytes) (rest : List Bytes),
    s.boot.stage = 4 → s.boot.applied = false → s.boot.core = dev :: sets :: rest →
    let placed := if s.boot.powerOn then (s.slotsTested r.failed).each (List.range 512) State.placeBank else s
    ((placed.bootDram sets r).bootDead r.dead = false → Answers (.coreApplyComplete r) s (fun s' =>
      s'.boot = { s.boot with device := DeviceRec.parse dev, powerOn := false, applied := true, firmwareRuns := true } ∧
      s'.links.record = LinksRec.parse (((afterFirmware rest).getD []).getD 0 []) ∧
      s'.host.pcie = PcieRec.parse (((afterFirmware rest).getD []).getD 1 []))) ∧
    ((placed.bootDram sets r).bootDead r.dead = true → s.boot.fromOffGuard = false → Answers (.coreApplyComplete r) s (fun s' =>
      (s.boot.copy = 0 → s'.boot.stage = 3 ∧ s'.boot.copy = 1 ∧ s'.boot.errA = 0x0E) ∧
      (s.boot.copy ≠ 0 → s'.boot.stage = 14 ∧ s'.boot.errB = 0x0E)))) ∧
  (∀ (s : State) (t : Nat), s.serving = true →
    (∀ g : GlyphRecord, s.boot.glyphDone = false → g.set < 64 →
      (s.openRecord 2 s.boot.glyphRecord g.stored = none → Answers (.glyphRecordVerified t g) s (fun s' =>
        s'.boot = { s.boot with glyphDone := true, sectionBytes := [] } ∧ s'.bit Fld.GLB_BOOT_STATUS_glyph_err = true ∧
        s'.scribes.glyphs = s.scribes.glyphs.filter (fun (p : Nat × Glyph) => !p.2.booting) ∧ s'.dram = s.dram)) ∧
      (∀ contents, s.openRecord 2 s.boot.glyphRecord g.stored = some contents →
        s.sectionEnd 2 (s.boot.glyphRecord + 1) g.stored = 0 → (s.glyph g.set).booting = false → s.setBusy g.set = false →
        g.lastOfSet = false → contents.length ≤ 65536 → Answers (.glyphRecordVerified t g) s (fun s' =>
          s'.boot = { s.boot with
            glyphRecord := s.boot.glyphRecord + 1, sectionBytes := s.boot.sectionBytes ++ g.stored } ∧
          s'.dram = ((s.at t).spoil (glyphAddr g.set) contents.length).dram.write (glyphAddr g.set) contents ∧
          s'.glyph g.set = { Glyph.reset with state := .loading, copying := true, imageLen := contents.length }))) ∧
    (∀ (stored : Bytes) (ended : List Nat), s.boot.glyphDone = true → s.boot.seedDone = false → s.boot.seedClosed = false →
      (s.openRecord 3 s.boot.seedRecord stored = none → Answers (.seedRecordVerified t stored ended) s (fun s' =>
        s'.boot = { s.boot with seedClosed := true, sectionBytes := [] } ∧ s'.bit Fld.GLB_BOOT_STATUS_seed_err = true ∧
        s'.cmds = s.cmds)) ∧
      (∀ contents, s.openRecord 3 s.boot.seedRecord stored = some contents → s.sectionEnd 3 (s.boot.seedRecord + 1) stored = 0 →
        Answers (.seedRecordVerified t stored ended) s (fun s' =>
          s'.boot = { s.boot with
            seedRecord := s.boot.seedRecord + 1, seedEnded := s.boot.seedEnded ++ ended
            sectionBytes := s.boot.sectionBytes ++ stored } ∧
          (s'.fifo .seed).map (·.record) = (s.fifo .seed).map (·.record) ++ seedCommands contents.length contents ∧
          s'.tables = s.tables))))

/-- R106, R111, R112, R113, R623: GLB_BOOT_CTL and GLB_FLASH_PROG_CTL. A reboot returns the device to the ROM stage with its reset cause; a
retry in Recovery begins Discovery; programming is refused with result 2 where R113 says so, else the host is read and the engine is busy
until it reports its result: with the buffer in the scratchpad the sectors are erased, the range is programmed and read back, and the result
is 0 where it reads back as programmed, 1 where not, and 3 where the buffer did not come. Completes here: GLB_BOOT_REBOOT, GLB_BOOT_RETRY,
FLASH_PROG_GO, FLASH_PROG_DONE. -/
def Obligations.RebootAndFlash : Prop :=
  ∀ (s : State) (t : Nat),
    (∀ w : Word64, Fld.GLB_BOOT_CTL_reboot.get w.toNat = 1 → Answers (.glbBootReboot t 0 w) s (fun s' =>
      s'.boot.stage = 0 ∧ s'.bit Fld.PWR_RESET_CAUSE_reboot = true ∧ s'.fuses = s.fuses ∧ s'.tables = [] ∧ s'.faults.held = [] ∧
      s'.power.railsValid = s.power.railsValid ∧ s'.boot.recordedCopy = s.boot.recordedCopy)) ∧
    (∀ w : Word64, Fld.GLB_BOOT_CTL_reboot.get w.toNat = 0 → Fld.GLB_BOOT_CTL_retry.get w.toNat = 1 → s.recovery = true →
      s.fuses.lifeCycle ≠ 0 → s.fuses.lifeCycle ≠ 4 → Answers (.glbBootRetry t 0 w) s (fun s' =>
        s'.boot.stage = 1 ∧ s'.faults.held = [] ∧ s'.fuses = s.fuses)) ∧
    (∀ (w : Word64) (x : State), Stores s t .GLB_FLASH_PROG_CTL 0 w x → Fld.GLB_FLASH_PROG_CTL_go.get w.toNat = 1 →
      s.host.flashBusy = false →
      let off := x.fld Fld.GLB_FLASH_PROG_CTL_flash_off
      let len := 4096 * x.fld Fld.GLB_FLASH_PROG_CTL_pages
      (x.flashRefused off len = true → Leaves (.flashProgGo t 0 w) s (x.setFld Fld.GLB_FLASH_PROG_CTL_result 2)) ∧
      (x.flashRefused off len = false → Leaves (.flashProgGo t 0 w) s { x with
        out := x.out ++ [.hostRead (x.fld Fld.GLB_FLASH_PROG_ADDR_host_addr) len], host := { x.host with flashBusy := true } })) ∧
    (s.host.flashBusy = true → ∀ back : Bytes,
      Answers (.flashProgDone t none back) s (fun s' => s'.fld Fld.GLB_FLASH_PROG_CTL_result = 3 ∧ s' = { s with
        clock := (s.at t).clock, start := (s.at t).start, regs := s'.regs, host := { s.host with flashBusy := false }, pins := s'.pins
        ring := s'.ring }) ∧
      (∀ data : Bytes, data.length = s.flashLen → Answers (.flashProgDone t (some data) back) s (fun s' =>
        s'.fld Fld.GLB_FLASH_PROG_CTL_result = (if back = data then 0 else 1) ∧ s' = { s with
          clock := (s.at t).clock, start := (s.at t).start, regs := s'.regs, host := { s.host with flashBusy := false }, pins := s'.pins
          ring := s'.ring, scratch := s.scratch.write scratchFlash data
          out := s.out ++ (flashOps (s.fld Fld.GLB_FLASH_PROG_CTL_flash_off) data).map Emit.flash })))

/-- R46, R54, R65, R74, R77, R80, R107, R118, R226, R228: a boundary of a running clock opens the next tide: the count is one greater modulo
2^64, or is the count of an armed step, and a trim that an edge has asked for is in force. Unless a life-cycle change is due, the first
boundary after Apply opens Serving in the boot mode, and one that ends the turn tide of a pending change brings its mode; else the mode
stays. The commit stroke turns the row tags whose parity is not that of the tide: an ARMED row is LIVE, a RETIRING row is EMPTY and no
longer listed, every other tag stays. Nothing else changes but the versions of charts that no table needs any more. Completes here:
TIDE_BOUNDARY, COMMIT_STROKE. -/
def Obligations.TideBoundaryAndCommitStroke : Prop :=
  (∀ s : State, s.gridRuns = true → Answers .tideBoundary s (fun s' =>
    s'.clock.grid = s.clock.grid + 1 ∧ s'.clock.stroke = 0 ∧
    s'.clock.count = (match s.clock.stepTo with
      | some n => n % 2 ^ 64
      | none => (s.clock.count + 1) % 2 ^ 64) ∧
    s'.clock.trim = s.clock.trimNext.getD s.clock.trim ∧ s'.clock.stepTo = none ∧ s'.clock.trimNext = none ∧
    ((∀ d ∈ s.due, ∀ new floor hash, d.change ≠ .lifeCycle new floor hash) →
      (s.boot.stage = 4 → s.boot.applied = true → s'.boot.stage = 5 ∧ s'.boot.applied = false ∧ s'.mode.mode = s.boot.device.bootMode) ∧
      (s.boot.stage ≠ 4 →
        (∀ m g, s.mode.pending = some m → s.mode.turnTide = some g → g ≤ s.clock.grid →
          s'.mode.mode = m ∧ s'.mode.pending = none ∧ s'.mode.before = s.mode.mode) ∧
        (s.mode.pending = none → s'.mode.mode = s.mode.mode))))) ∧
  (∀ s : State, s.awake = true → Answers .commitStroke s (fun s' =>
    (∀ k g, (k, g) ∈ s.arrays.tags → g ≠ Tag.reset →
      (g.ptide = s.parity → (k, g) ∈ s'.arrays.tags) ∧
      (g.ptide ≠ s.parity → g.state = .armed → (k, { g with state := .live }) ∈ s'.arrays.tags) ∧
      (g.ptide ≠ s.parity → g.state = .live → (k, g) ∈ s'.arrays.tags)) ∧
    (∀ k g, (k, g) ∈ s'.arrays.tags → g ≠ Tag.reset ∧ (g.ptide ≠ s.parity → g.state ≠ .armed ∧ g.state ≠ .retiring)) ∧
    s'.tables.map (fun (p : Nat × TableRec) => p.1) = s.tables.map (fun (p : Nat × TableRec) => p.1) ∧
    s'.clock.stroke = max s.clock.stroke 255 ∧
    s' = { s with
      clock := s'.clock, start := s'.start, arrays := { s.arrays with tags := s'.arrays.tags }, tables := s'.tables, pins := s'.pins,
      ring := s'.ring }))

/-- R76, R77, R78, R79, R80: PPS_IN. An accepted edge records the tide, the stroke and the phase error, and while lock_en is 1 asks for a
trim within the limit; with a step armed the next boundary takes the count of the whole second. Without an edge for 6,445,313 tides holdover
begins: the lock is lost and PPS_LOST is posted; that the run of good edges ends there is the model's choice (notes/assumptions/156.md).
Arming a step sets the step bit. Completes here: PPS_EDGE, PPS_LOST, GLB_TIDE_STEP_ARM. -/
def Obligations.PpsAndStep : Prop :=
  ∀ (s : State) (t : Nat),
    let e := phaseError (s.at t).clock.count (s.at t).clock.stroke
    ((s.at t).acceptsEdge = true → Answers (.ppsEdge t) s (fun s' =>
      s'.fld Fld.GLB_PPS_CAPTURE_tide = s.clock.count % 2 ^ 56 ∧ s'.fld Fld.GLB_PPS_CAPTURE_stroke = (s.at t).clock.stroke % 2 ^ 8 ∧
      s'.fld Fld.GLB_TIDE_STATUS_phase_err = twos e 32 % 2 ^ 32 ∧ s'.fld Fld.GLB_TIDE_STATUS_holdover = 0 ∧
      (16 < e.natAbs → s'.bit Fld.GLB_TIDE_STATUS_locked = false) ∧
      (s.bit Fld.GLB_TIDE_CTL_lock_en = true → ∃ x : Int, s'.clock.trimNext = some x ∧
        x.natAbs ≤ 16 * s.fld Fld.GLB_TIDE_CTL_trim_limit) ∧
      (s.bit Fld.GLB_TIDE_CTL_lock_en = false → s'.clock.trimNext = s.clock.trimNext) ∧
      (s.bit Fld.GLB_TIDE_CTL_step = true → s'.clock.stepTo = some (s.fld Fld.GLB_TOD_NEXT_seconds * 5859375 +
        (if (s.at t).clock.stroke < 128 then 1 else 0))) ∧
      s' = { s with clock := s'.clock, start := s'.start, regs := s'.regs, pins := s'.pins, ring := s'.ring })) ∧
    ((s.at t).edgeLost = true → Answers (.ppsLost t) s (fun s' =>
      s'.bit Fld.GLB_TIDE_STATUS_holdover = true ∧ s'.bit Fld.GLB_TIDE_STATUS_locked = false ∧
      s'.bit Fld.GLB_TIDE_STATUS_pps_lost = true ∧ s'.clock.trim = s.clock.trim ∧ s'.clock.goodEdges = 0 ∧
      s' = { s with
        clock := s'.clock, start := s'.start, regs := s'.regs, rc := s'.rc, setBits := s'.setBits, setAt := s'.setAt, faults := s'.faults,
        out := s'.out
        freeCounter := s'.freeCounter, pins := s'.pins, ring := s'.ring })) ∧
    (∀ (w : Word64) (x : State), Stores s t .GLB_TIDE_CTL 0 w x → Fld.GLB_TIDE_CTL_step.get w.toNat = 1 →
      s.bit Fld.GLB_TIDE_CTL_step = false → Answers (.glbTideStepArm t 0 w) s (fun s' =>
        s'.bit Fld.GLB_TIDE_CTL_step = true ∧ s'.bit Fld.GLB_TIDE_CTL_lock_en = x.bit Fld.GLB_TIDE_CTL_lock_en ∧
        s' = { x with clock := s'.clock, start := s'.start, regs := s'.regs, pins := s'.pins, ring := s'.ring }))

/-- R11, R12, R75, R518, R620, R622, R623, R626, R629: a write of eight bytes by the physical function at the offset of a register stores
every RW field whose value is in range; a value out of range is not taken and the access is recorded. Of the W1C bits of GLB_TIDE_STATUS
those written 1 are cleared, but for those that hardware set in the same stroke. At an offset with no register nothing is written and reason
1 is recorded. A read of bytes 0 to 3 of a register with a latch returns them and loads the latch of the function with bytes 4 to 7, which a
read of those bytes returns. A read of any other register by the physical function returns its value and clears its RC fields; a virtual
function reads zeros where it does not reach, as every function does at an offset with no register. The virtual functions write no register
with a go bit of the device; what they write is not acted on and is recorded with reason 2, and the two blocks with a result field show the
refusal there. Completes here: LATCHED_READ, RC_FIELD_READ, REGISTER_WRITE. -/
def Obligations.RegisterAccess : Prop :=
  (∀ (s : State) (t : Nat) (data : Bytes), data.length = 8 →
    (∀ r ∈ plainRegs, (s.at t).holds r = false → (s.at t).served r 0 = true →
      let v := fun f : FieldDesc => leNat data / 2 ^ f.lo % 2 ^ f.width
      Answers (.registerWrite t 0 r.offset data) s (fun s' =>
        (∀ f ∈ r.fields, f.acc = .rw →
          s'.fld ⟨r, f.lo, f.width⟩ = (if r.rangeOk f.lo (v f) then v f else s.fld ⟨r, f.lo, f.width⟩)) ∧
        ((∃ f ∈ r.fields, f.acc = .rw ∧ r.rangeOk f.lo (v f) = false) →
          s'.fld Fld.GLB_ACCESS_LOG_count = min (s.fld Fld.GLB_ACCESS_LOG_count + 1) (2 ^ Fld.GLB_ACCESS_LOG_count.width - 1)) ∧
        (∀ (q : Reg) (i : Nat), q.key i ≠ r.key 0 → q.key i ≠ Reg.key .GLB_ACCESS_LOG 0 → s'.word q i = s.word q i) ∧
        s' = { s with
          clock := (s.at t).clock, start := (s.at t).start, regs := s'.regs, rc := s'.rc
          host := { s.host with accessAt := s'.host.accessAt }, pins := s'.pins, ring := s'.ring })) ∧
    ((s.at t).served .GLB_TIDE_STATUS 0 = true → ∀ f ∈ [Fld.GLB_TIDE_STATUS_pps_lost, Fld.GLB_TIDE_STATUS_step_done],
      Answers (.registerWrite t 0 (Reg.offset .GLB_TIDE_STATUS) data) s (fun s' =>
        (s'.bit f = true ↔ s.bit f = true ∧ (f.get (leNat data) = 0 ∨ f.get ((s.at t).setNow .GLB_TIDE_STATUS 0) = 1)) ∧
        s'.fld Fld.GLB_TIDE_STATUS_phase_err = s.fld Fld.GLB_TIDE_STATUS_phase_err)) ∧
    (∀ off : Nat, off % 8 = 0 → regAt off = none → Leaves (.registerWrite t 0 off data) s ((s.at t).logAccess 0 off 1))) ∧
  (∀ (s : State) (t : Nat),
    let reads := fun (fn : Nat) (bs : Bytes) (s' : State) => s'.out = s.out ++ [.readData fn bs]
    (∀ r ∈ latchRegs, let v := (s.at t).readWord 0 r 0
      Answers (.latchedRead t 0 r.offset 4) s (fun s' => reads 0 ((leBytes v 8).take 4) s' ∧
        (s'.function 0).latches.get r = some (v / 2 ^ 32) ∧
        s' = { s with clock := (s.at t).clock, start := (s.at t).start, out := s'.out, host := s'.host, pins := s'.pins, ring := s'.ring }) ∧
      (∀ l, (s.function 0).latches.get r = some l → Answers (.latchedRead t 0 (r.offset + 4) 4) s (fun s' =>
        reads 0 (leBytes l 4) s' ∧
        s' = { s with clock := (s.at t).clock, start := (s.at t).start, out := s'.out, pins := s'.pins, ring := s'.ring }))) ∧
    (∀ r ∈ Reg.all, r ∉ latchRegs → r ≠ .TEL_CNT_READ → r ≠ .LRN_MNF_WIN3 → r ≠ .FLT_WIN3 → (s.at t).served r (s.regIndex 0 r) = true →
      Answers (.rcFieldRead t 0 r.offset 8) s (fun s' => reads 0 (leBytes ((s.at t).readWord 0 r 0) 8) s' ∧
        (∀ f ∈ r.fields, f.acc = .rc → s'.fld ⟨r, f.lo, f.width⟩ (s.regIndex 0 r) = (s.at t).rcKept ⟨r, f.lo, f.width⟩ (s.regIndex 0 r)) ∧
        (∀ (q : Reg) (i : Nat), q.key i ≠ r.key (s.regIndex 0 r) → s'.word q i = s.word q i) ∧
        s' = { s with
          clock := (s.at t).clock, start := (s.at t).start, regs := s'.regs, rc := s'.rc, out := s'.out, pins := s'.pins
          ring := s'.ring })) ∧
    (∀ fn, fn ≠ 0 → s.hasFunction fn = true → ∀ r ∈ Reg.all, r ≠ .TEL_CNT_READ → (s.at t).vfReads fn r = false →
      Answers (.rcFieldRead t fn r.offset 8) s (fun s' => reads fn (zeros 8) s' ∧
        s' = { s with clock := (s.at t).clock, start := (s.at t).start, out := s'.out, pins := s'.pins, ring := s'.ring })) ∧
    (∀ fn off, s.hasFunction fn = true → off % 8 = 0 → regAt off = none → Answers (.rcFieldRead t fn off 8) s (fun s' =>
      reads fn (zeros 8) s' ∧ s' = { s with clock := (s.at t).clock, start := (s.at t).start, out := s'.out, pins := s'.pins, ring := s'.ring }))) ∧
  (∀ (s : State) (t fn : Nat) (w : Word64), fn ≠ 0 → s.power.state ≠ 2 →
    let refused := fun (c : Instr) (r : Reg) => Leaves c s ((s.at t).logAccess fn r.offset 2)
    refused (.glbBootReboot t fn w) .GLB_BOOT_CTL ∧ refused (.glbBootRetry t fn w) .GLB_BOOT_CTL ∧
    refused (.flashProgGo t fn w) .GLB_FLASH_PROG_CTL ∧ refused (.glbTideStepArm t fn w) .GLB_TIDE_CTL ∧
    refused (.pilDrain t fn w) .PIL_DRAIN_CTL ∧ refused (.pilReturn t fn w) .PIL_DRAIN_CTL ∧ refused (.aryBistGo t fn w) .ARY_BIST_CTL ∧
    refused (.lrnFilterFlush t fn w) .LRN_FILTER_CTL ∧ refused (.manifestRelease t fn w) .LRN_MNF_CTL ∧
    refused (.manifestRewind t fn w) .LRN_MNF_CTL ∧ refused (.manifestMark t fn w) .LRN_MNF_CTL ∧
    refused (.scbScribeOffline t fn w) .SCB_SCRIBE_CTL ∧ refused (.scbScribeOnline t fn w) .SCB_SCRIBE_CTL ∧
    refused (.captureRestart t fn w) .TEL_CAPTURE_PTR ∧ refused (.quyEnable t fn w) .QUY_CTL ∧ refused (.quyReset t fn w) .QUY_CTL ∧
    refused (.quyRetrain t fn w) .QUY_CTL ∧ refused (.rngJoin t fn w) .RNG_CTL ∧ refused (.rngLeave t fn w) .RNG_CTL ∧
    refused (.hstWinCommit t fn w) .HST_WIN_CTL ∧
    (Fld.GLB_MODE_CTL_go.get w.toNat = 1 →
      Leaves (.glbModeGo t fn w) s (((s.at t).logAccess fn (Reg.offset .GLB_MODE_CTL) 2).setFld Fld.GLB_MODE_STATUS_result 7)) ∧
    (Fld.SCB_GLYPH_CTL_go.get w.toNat = 1 →
      Leaves (.scbGlyphLoad t fn w) s (((s.at t).logAccess fn (Reg.offset .SCB_GLYPH_CTL) 2).setFld Fld.SCB_GLYPH_CTL_result 7)))

/-- R122, R123, R124, R125, R436: requests for a mode. GLB_MODE_CTL and SET_MODE run the checks of R123: one that fails is shown and changes
nothing. A request that passes is pending; its turn tide is the next tide unless the hot store or the mirror has work first. A request for
the mode in force cancels the pending one. Once the preparation is done the next tide is the turn tide. Completes here: GLB_MODE_GO,
SET_MODE, MODE_PREPARATION_DONE. -/
def Obligations.ModeRequests : Prop :=
  ∀ (s : State) (t : Nat),
    let asked := fun (m : Nat) (s' : State) => s'.mode.pending = some m ∧ s'.mode.mode = s.mode.mode ∧
      s'.fld Fld.GLB_MODE_STATUS_result = 0 ∧
      (m ≠ 3 → m ≠ 5 → s'.mode.preparing = false ∧ s'.mode.turnTide = some (s.clock.grid + 1)) ∧
      (m = 5 → s'.mode.preparing = s.highLines ∧ s'.mode.turnTide = (if s.highLines then none else some (s.clock.grid + 1))) ∧
      (m = 3 → s'.arrays.mirrorBuild = s.mirrorRows)
    (∀ (w : Word64) (x : State), Stores s t .GLB_MODE_CTL 0 w x → Fld.GLB_MODE_CTL_go.get w.toNat = 1 → s.cmdAuth = false →
      let m := x.fld Fld.GLB_MODE_CTL_target
      (s.modeCheck m ≠ 0 → Leaves (.glbModeGo t 0 w) s (x.setFld Fld.GLB_MODE_STATUS_result (s.modeCheck m))) ∧
      (s.modeCheck m = 0 → m ≠ s.mode.mode → Answers (.glbModeGo t 0 w) s (asked m)) ∧
      (s.modeCheck m = 0 → m = s.mode.mode → Answers (.glbModeGo t 0 w) s (fun s' =>
        s'.mode.mode = m ∧ s'.mode.pending = none ∧
        (s.mode.pending.isSome = true → s'.mode.turnTide = none ∧ s'.mode.preparing = false ∧ s'.arrays.mirrorBuild = [])))) ∧
    (∀ (src : Source) (c : Cmd) (rest : List Cmd), Clears s t src c rest 0x40 false false .supervisor →
      (cmdBody c.record).length = 8 → zerosAt (cmdBody c.record) 1 7 = true →
      let m := byteAt (cmdBody c.record) 0
      m < 8 →
      (s.modeCheck m ≠ 0 → Answers (.setMode t src) s (fun s' => s'.mode = s.mode ∧
        s'.fld Fld.GLB_MODE_STATUS_result = s.modeCheck m % 2 ^ Fld.GLB_MODE_STATUS_result.width ∧
        ∃ a, Taken s s' src c rest a ∧ a.answers 0x19 0 (leBytes (s.modeCheck m) 8) (s.at t).dueTide)) ∧
      (s.modeCheck m = 0 → m ≠ s.mode.mode → Answers (.setMode t src) s (fun s' => asked m s' ∧
        s'.mode.command = some s.cmds.nextId ∧
        ∃ a, Taken s s' src c rest a ∧
          (prepared s.mode.mode m = true → a.result = none ∧ a.postAt = none) ∧
          (prepared s.mode.mode m = false → a.answers 0 0 [] (s.at t).dueTide)))) ∧
    (s.mode.preparing = true → s.preparedNow = true → Leaves (.modePreparationDone t) s
      { s.at t with mode := { s.mode with preparing := false, turnTide := some (s.clock.grid + 1) } })

/-- R63, R160, R343, R348, R349, R414, R431, R436, R617: commands whose change takes effect at a boundary. One that clears the shared checks
and its own is answered OK at the boundary that R63 gives, and its change waits for that boundary; nothing else changes. The boundary at
which a change takes effect: the end of the tide in which it is accepted, or of the next where that is in a commit stroke, stroke 255 and in
M4 stroke 254 too. Completes here: TABLE_CREATE, STREAM_CLOSE, STREAM_RESET, GLYPH_UNLOAD, BERTH_WRITE, MASTER_WRITE, PC_FENCE, LANE_RETIRE.
-/
def Obligations.BoundaryCommandsAccepted : Prop :=
  (∀ (s : State) (t : Nat) (src : Source) (c : Cmd) (rest : List Cmd),
    let body := cmdBody c.record
    let later := fun (ch : Change) (s' : State) => Commits s t src c rest s' 0 0 [] ∧ OnlyDue s s' t ch
    (Clears s t src c rest 0x08 true false .supervisor → body.length = 64 → fieldLE body 4 2 = cmdTid c.record →
      s.createCheck body = none → Answers (.tableCreate t src) s (later (.tableCreate (TableDef.parse body) s.cmds.nextId))) ∧
    (Clears s t src c rest 0x38 false false .supervisor → BerthRec.valid body = true →
      Answers (.berthWrite t src) s (later (.berth (BerthRec.parse body).1 (BerthRec.parse body).2))) ∧
    (Clears s t src c rest 0x41 false false .supervisor → s.masterValid body = true →
      Answers (.masterWrite t src) s (later (.master (MasterRec.parse body).1 (MasterRec.parse body).2))) ∧
    (Clears s t src c rest 0x29 true false .supervisor → body = [] → cmdTid c.record < 64 → s.setStreams (cmdTid c.record) = 0 →
      Answers (.glyphUnload t src) s (later (.glyphUnload (cmdTid c.record)))) ∧
    (Clears s t src c rest 0x21 false true .user → body = [] → cmdHandle c.record < 16777216 →
      (s.openStream (cmdHandle c.record)).isSome = true →
      fieldLE (s.streamState (cmdHandle c.record % 1048576)) 12 2 % 16384 = cmdBerth c.record →
      Answers (.streamClose t src) s (later (.streamClose (cmdHandle c.record)))) ∧
    (Clears s t src c rest 0x22 false true .user → body = [] → cmdHandle c.record < 16777216 →
      (s.openStream (cmdHandle c.record)).isSome = true →
      fieldLE (s.streamState (cmdHandle c.record % 1048576)) 12 2 % 16384 = cmdBerth c.record →
      Answers (.streamReset t src) s (later (.streamReset (cmdHandle c.record)))) ∧
    (Clears s t src c rest 0x51 false false .service → body.length = 8 → byteAt body 0 < 64 → zerosAt body 1 7 = true →
      s.fenceRefused (byteAt body 0) = false → Answers (.pcFence t src) s (later (.pcFence (byteAt body 0)))) ∧
    (∀ p, Clears s t src c rest 0x52 false false .service → body.length = 8 → portOf (byteAt body 0) = some p →
      zerosAt body 2 6 = true → s.laneRefused p ((s.link p).laneBase + byteAt body 1) = false →
      Answers (.laneRetire t src) s (later (.laneRetire p ((s.link p).laneBase + byteAt body 1))))) ∧
  (∀ (s : State), s.clock.stroke ≤ 255 → s.mode.mode < 8 →
    s.dueTide = (if s.clock.stroke = 255 ∨ (s.mode.mode = 4 ∧ s.clock.stroke = 254) then s.clock.grid + 2 else s.clock.grid + 1))

/-- R367, R368, R414, R425, R440, R444, R615: supervisor and service commands that change state when they are accepted. A forgive is
pending, a frozen master's thaw is accepted for its boundary, a life-cycle change is pending, a key wrap runs until its payload of R425 is
ready, a scribe is to go offline or online, and a drain or a self-test is started. Completes here: BERTH_FORGIVE, THAW, LC_CHANGE, KEY_WRAP,
KEY_WRAP_COMPLETE, SCRIBE_SERVICE, BANK_SERVICE. -/
def Obligations.ServiceCommandsAct : Prop :=
  ∀ (s : State) (t : Nat) (src : Source) (c : Cmd) (rest : List Cmd),
    let body := cmdBody c.record
    let due := (s.at t).dueTide
    let ok := fun s' => Commits s t src c rest s' 0 0 []
    (Clears s t src c rest 0x39 false false .supervisor → body.length = 8 → fieldLE body 0 2 < 16384 → zerosAt body 2 6 = true →
      Answers (.berthForgive t src) s (fun s' => ok s' ∧ s'.due = s.due ++ [⟨due, .forgive (fieldLE body 0 2)⟩] ∧
        s'.berth (fieldLE body 0 2) = { s.berth (fieldLE body 0 2) with forgivePending := true } ∧
        (∀ b, b ≠ fieldLE body 0 2 → s'.berth b = s.berth b))) ∧
    (Clears s t src c rest 0x42 false false .supervisor → body.length = 8 → zerosAt body 4 4 = true →
      Answers (.thaw t src) s (fun s' => ok s' ∧
        (∀ f, (s.master (fieldLE body 0 4)).freeze = some f → f.thawAccepted = none →
          (s'.master (fieldLE body 0 4)).freeze = some { f with thawAccepted := some (due, (s.at t).now, 1) }) ∧
        ((s.master (fieldLE body 0 4)).freeze = none → (s'.master (fieldLE body 0 4)).freeze = none) ∧ s'.due = s.due)) ∧
    (∀ ownerKeyA : Bytes, Clears s t src c rest 0x44 false false .supervisor → s.lcForm body = true →
      s.lcAllowed c (byteAt body 0) = true → (s.fuses.lifeCycle ≠ 0 → s.tokenOk ownerKeyA body = true) →
      s.security.lcPending = false → Answers (.lcChange t src ownerKeyA) s (fun s' => ok s' ∧ s'.fuses = s.fuses ∧
        s'.security = { s.security with lcPending := true } ∧
        s'.due = s.due ++ [⟨due, .lifeCycle (byteAt body 0) (byteAt body 56) ((body.drop 8).take 48)⟩])) ∧
    (Clears s t src c rest 0x45 false false .supervisor → wrapForm body = true →
      s.wrapRefused body = false → s.security.keyWrap = none → Answers (.keyWrap t src) s (fun s' =>
        s'.security = { s.security with keyWrap := some s.cmds.nextId } ∧ s'.due = s.due ∧
        ∃ a, Taken s s' src c rest a ∧ a.result = none ∧ a.postAt = none)) ∧
    (∀ a id, s.security.keyWrap = some id → s.cmds.accepted.find? (fun a => a.id == id) = some a →
      Answers (.keyWrapComplete t) s (fun s' => s'.security = { s.security with keyWrap := none } ∧ s'.freeCounter = s.freeCounter + 1 ∧
        s'.cmds.accepted = s.cmds.accepted.map (fun b => if b.id = id then
          { b with result := some (0, 0, 0, 0, s.wrapPayload (cmdBody a.record)), postAt := some due, applied := true } else b))) ∧
    (Clears s t src c rest 0x53 false false .service → body.length = 8 → byteAt body 1 < 64 → zerosAt body 2 6 = true →
      (byteAt body 0 = 2 → Answers (.scribeService t src) s (fun s' => ok s' ∧
        s'.scribe (byteAt body 1) = { s.scribe (byteAt body 1) with offlineAt := none, onlineAt := some due })) ∧
      (byteAt body 0 = 1 → s.offlineCheck (byteAt body 1) = 0 → (s.scribe (byteAt body 1)).offlineAt = none →
        Answers (.scribeService t src) s (fun s' => ok s' ∧
          s'.scribe (byteAt body 1) = { s.scribe (byteAt body 1) with offlineAt := some (s.clock.grid + 2), onlineAt := none }))) ∧
    (Clears s t src c rest 0x50 false false .service → bankForm body = true →
      (byteAt body 0 = 3 → s.service.bist = none →
        let slot := byteAt body 4 * 136 + byteAt body 5 * 17 + byteAt body 6
        (s.slotState slot).health ≠ .serving → (s.slotState slot).health ≠ .testing →
        Answers (.bankService t src) s (fun s' => ok s' ∧ s'.service = { s.service with bist := some ⟨slot, 98304, false, none⟩ } ∧
          s'.due = s.due ++ [⟨due, .bistStart⟩])) ∧
      (byteAt body 0 ≠ 3 → s.arrays.drain = none → s.drainRefused (fieldLE body 2 2) (byteAt body 0) = none →
        Answers (.bankService t src) s (fun s' => ok s' ∧ s'.due = s.due ∧ ∃ d, s'.arrays = { s.arrays with drain := some d } ∧
          d.bank = fieldLE body 2 2 ∧ d.op = byteAt body 0 ∧ d.target = drainTarget d.bank d.op ∧ d.copied = 0 ∧ d.startTide = due ∧
          d.latched = false)))

/-- R61, R178: a command on an entry, a table or a direct-index table that clears the shared checks of R176, with its own form and table
right, is accepted and waits for the write phase of its tide, or of the next tide when it is accepted in the slack. Completes here: DELETE,
MODIFY_AD, READ_ENTRY, COUNTER_READ, COUNTER_WRITE, TABLE_DELETE, TABLE_FLUSH, DI_WRITE, DI_READ. -/
def Obligations.WriteCommandsAccepted : Prop :=
  ∀ (s : State) (t : Nat) (src : Source) (c : Cmd) (rest : List Cmd),
    (s.at t).noTable src (cmdTid c.record) = none →
    let waits := fun s' => (∃ a, Taken s s' src c rest a ∧ a.awaits (s.at t).applyTide) ∧ OnlyTaken s s' t
    (Clears s t src c rest 0x02 true true .edit → cmdBody c.record = [] → s.kindCheck (cmdTid c.record) false false = none →
      (∀ p, ((s.at t).target (cmdTid c.record) (cmdHandle c.record)).2 = some p →
        (s.at t).removalRoom p.2 (s.at t).applyTide = true) →
      Answers (.delete t src) s waits) ∧
    (Clears s t src c rest 0x03 true true .edit → s.kindCheck (cmdTid c.record) false false = none →
      (∀ tb, s.table (cmdTid c.record) = some tb → 0 < tb.df.adBytes ∧ (cmdBody c.record).length = tb.df.adBytes) →
      Answers (.modifyAd t src) s waits) ∧
    (Clears s t src c rest 0x04 true true .read → cmdBody c.record = [] → s.kindCheck (cmdTid c.record) false false = none →
      Answers (.readEntry t src) s waits) ∧
    (Clears s t src c rest 0x05 true true .counter → cmdBody c.record = [] → s.kindCheck (cmdTid c.record) false false = none →
      Answers (.counterRead t src) s waits) ∧
    (Clears s t src c rest 0x06 true true .edit → (cmdBody c.record).length = 8 →
      s.kindCheck (cmdTid c.record) false false = none → Answers (.counterWrite t src) s waits) ∧
    (Clears s t src c rest 0x09 true false .supervisor → cmdBody c.record = [] → Answers (.tableDelete t src) s waits) ∧
    (Clears s t src c rest 0x0A true false .supervisor → cmdBody c.record = [] →
      (∀ tb, s.table (cmdTid c.record) = some tb → tb.state ≠ .flushed) → Answers (.tableFlush t src) s waits) ∧
    (Clears s t src c rest 0x10 true false .edit → zerosAt (cmdBody c.record) 4 4 = true →
      s.kindCheck (cmdTid c.record) true true = none →
      (∀ tb, s.table (cmdTid c.record) = some tb → (cmdBody c.record).length = 8 + tb.df.entrySize) →
      Answers (.diWrite t src) s waits) ∧
    (Clears s t src c rest 0x11 true false .read → (cmdBody c.record).length = 8 → zerosAt (cmdBody c.record) 4 4 = true →
      s.kindCheck (cmdTid c.record) true false = none → Answers (.diRead t src) s waits)

/-- R60, R168, R169, R176, R235, R236: INSERT. One that its checks refuse is answered with their result and handle; where a quota binds and
the table does not evict, with FULL or QUOTA. One with a plan that fits, and a victim where a quota binds, is accepted with the next free
number, the sequence of its table and a flight whose first step is made in this write phase, or in the next tide when it is accepted in the
slack, or behind the new labels of a renumbering. Completes here: INSERT. -/
def Obligations.InsertAccepted : Prop :=
  ∀ (s : State) (t : Nat) (src : Source) (c : Cmd) (rest : List Cmd) (p : Plan) (tb : TableRec),
    Clears s t src c rest 0x01 true true .edit → insertForm c.record = true →
    (s.at t).noTable src (cmdTid c.record) = none → s.table (cmdTid c.record) = some tb →
    let q := (s.at t).quotaBinds tb
    let binds := q.1 || q.2
    (∀ r h, (s.at t).insertCheck tb c.record = some (r, h) →
      Answers (.insert t src p) s (fun s' => Commits s t src c rest s' r h [] ∧ OnlyTaken s s' t)) ∧
    ((s.at t).insertCheck tb c.record = none → binds = true → tb.df.evict = 0 →
      Answers (.insert t src p) s (fun s' => Commits s t src c rest s' (if q.1 then 0x03 else 0x04) 0 [] ∧ OnlyTaken s s' t)) ∧
    ((s.at t).insertCheck tb c.record = none → (binds = true → tb.df.evict ≠ 0) →
      let v := if binds then ((s.at t).chooseVictim tb).1 else none
      (binds = true → v.isSome = true) → (∀ x, v = some x → (s.at t).removalRoom x.2 (s.at t).firstStep = true) →
      p.noPlan = false → s.cmds.flights.length < flightLimit s.mode.mode → (s.at t).labelsOk tb c.record p.relabel = true →
      ∀ n k at_, (s.at t).nextNumber = some n → (s.at t).newKeys tb c.record n p.relabel = some k →
        (s.at t).firstMove p.relabel = some at_ →
        (s.at t).planOk tb (insertValue tb.df c.record) (insertMask tb.df c.record) k p at_ = true →
        Answers (.insert t src p) s (fun s' =>
          (∃ a, Taken s s' src c rest a ∧ a.result = none ∧ a.postAt = none) ∧
          (∃ f e, s'.cmds.flights = s.cmds.flights ++ [f] ∧ s'.entry n = some e ∧
            f.id = s.cmds.nextId ∧ f.tid = tb.df.tid ∧ f.len = n ∧ f.gen = e.gen ∧ f.tide = s.clock.grid ∧ f.bound = s.params.bound ∧
            f.stepTide = at_ ∧ f.nextStep = 0 ∧ f.victim = v.map (fun x => x.1) ∧
            e.state = .placing ∧ e.tid = tb.df.tid ∧ e.bank = p.bank ∧ e.row = p.row ∧ e.seq = tb.counter ∧ e.keyHi = k.1 ∧
            e.value = insertValue tb.df c.record ∧ e.mask = insertMask tb.df c.record ∧ e.inForce = 0) ∧
          s'.arrays.tags = s.arrays.tags ∧ s'.arrays.units = s.arrays.units))

/-- R61, R162, R166, R182, R244, R376: the write phase applies the commands accepted for it. Of a single one that is ready: a delete or a
flush of a table waits for its boundary, a read of an entry answers with its sequence and its data, a deletion retires the entry, and a
handle that names no live entry of the table is answered with the result of R156 or R157. The completion is posted at the next boundary.
Completes here: COMMAND_WRITE_APPLY. -/
def Obligations.WritePhaseApplies : Prop :=
  ∀ (s : State) (t : Nat) (a : Accepted) (tb : TableRec), (s.at t).inWrite = true →
    s.cmds.accepted.filter (fun b => !b.applied && b.applyTide ≤ s.clock.grid && b.result.isNone) = [a] →
    s.table (cmdTid a.record) = some tb → tb.state ≠ .deleted →
    let h := cmdHandle a.record
    let done := fun (r h seq : Nat) (payload : Bytes) (s' : State) => s'.cmds.accepted = s.cmds.accepted.map (fun b =>
      if b.id = a.id then
        { b with result := some (r, h, 0, seq, payload), postAt := some (s.clock.grid + 1), applied := true } else b)
    (cmdOp a.record = 0x09 → Answers (.commandWriteApply t) s (fun s' => done 0 0 0 [] s' ∧
      s'.due = s.due ++ [⟨(s.at t).dueTide, .tableDelete (cmdTid a.record)⟩] ∧ s'.tables = s.tables)) ∧
    (cmdOp a.record = 0x0A → tb.state ≠ .flushed → Answers (.commandWriteApply t) s (fun s' => done 0 0 0 [] s' ∧
      s'.due = s.due ++ [⟨(s.at t).dueTide, .tableFlush (cmdTid a.record)⟩] ∧ s'.tables = s.tables)) ∧
    (cmdOp a.record = 0x11 → Answers (.commandWriteApply t) s (fun s' =>
      (tb.df.depth ≤ fieldLE a.record 16 4 → done 0x12 0 0 [] s') ∧
      (fieldLE a.record 16 4 < tb.df.depth → done 0 0 0 ((s.at t).diRead tb (fieldLE a.record 16 4)) s') ∧ s'.diram = s.diram)) ∧
    (∀ len e, s.target (cmdTid a.record) h = (0, some (len, e)) →
      (cmdOp a.record = 0x04 → Answers (.commandWriteApply t) s (fun s' => done 0 h e.seq ((s.at t).readPayload tb.df len e) s' ∧
        s'.numbers = s.numbers ∧ s'.arrays = s.arrays)) ∧
      (cmdOp a.record = 0x02 → s.numbers.pendingMeta.has len = false →
        (s.at t).opsRoom (s.writeBanks e.bank e.row) 1 (fun _ => 0) 0 = true → Answers (.commandWriteApply t) s (fun s' =>
        (∃ e', s'.entry len = some e' ∧ e'.state = .retired ∧ e'.gen = e.gen) ∧
        (∃ b ∈ s'.cmds.accepted, b.id = a.id ∧ b.applied = true)))) ∧
    (∀ r, s.target (cmdTid a.record) h = (r, none) → cmdOp a.record = 0x04 →
      Answers (.commandWriteApply t) s (fun s' => done r h 0 [] s' ∧ s'.arrays = s.arrays))

/-- R333, R341, R345, R346, R347, R378, R386: commands that open what runs on. STREAM_OPEN takes a free stream of the set and writes its
state; GLYPH_LOAD copies the image and leaves the set LOADING; TRACE and TABLE_DIGEST hold one more trace or digest. Completes here:
STREAM_OPEN, GLYPH_LOAD, TRACE, TABLE_DIGEST. -/
def Obligations.OpeningCommands : Prop :=
  ∀ (s : State) (t : Nat) (src : Source) (c : Cmd) (rest : List Cmd),
    let body := cmdBody c.record
    let held := fun (s' : State) => ∃ a, Taken s s' src c rest a ∧ a.result = none ∧ a.postAt = none
    (∀ n, Clears s t src c rest 0x20 true false .user → body.length = 8 → cmdTid c.record < 64 → destOk (fieldLE body 0 2) = true →
      byteAt body 2 < 2 → zerosAt body 3 5 = true → (s.berth (cmdBerth c.record)).record.glyphMask.testBit (cmdTid c.record) = true →
      s.setUsable (cmdTid c.record) = true → s.freeStream = some n → Answers (.streamOpen t src) s (fun s' =>
        let gen := s.scribes.gens.findD n 0 % 15 + 1
        Commits s t src c rest s' 0 (1048576 * gen + n) [] ∧
        s'.scribes.streams.find n = some ⟨gen, cmdTid c.record, (s.at t).dueTide⟩ ∧ s'.scribes.gens.find n = some gen ∧
        (s'.master (streamMaster n)).freeze = none ∧ s'.arrays = s.arrays ∧
        s'.dram = ((s.at t).spoil (streamAddr n) 64).dram.write (streamAddr n) (sealState
          ((s.at t).startState (cmdTid c.record) gen (cmdBerth c.record) (fieldLE body 0 2) ((byteAt body 2).testBit 0))))) ∧
    (Clears s t src c rest 0x28 true false .supervisor → body.length = 64 → cmdTid c.record < 64 → zerosAt body 12 4 = true →
      dmaRange (fieldLE body 0 8) (fieldLE body 8 4) = true → s.setBusy (cmdTid c.record) = false →
      Answers (.glyphLoad t src) s (fun s' => held s' ∧
        (s'.glyph (cmdTid c.record)).state = .loading ∧ (s'.glyph (cmdTid c.record)).copying = true ∧
        (s'.glyph (cmdTid c.record)).command = some s.cmds.nextId ∧ (s'.glyph (cmdTid c.record)).imageLen = fieldLE body 8 4 ∧
        (∀ g, g ≠ cmdTid c.record → s'.glyph g = s.glyph g) ∧ s'.tables = s.tables)) ∧
    (∀ tb, Clears s t src c rest 0x0C true false .counter → 8 ≤ body.length → zerosAt body 0 8 = true →
      s.observe.traces.length < 8 → (s.at t).noTable src (cmdTid c.record) = none → s.table (cmdTid c.record) = some tb →
      tb.df.direct = false → traceForm tb.df body = true → Answers (.trace t src) s (fun s' => held s' ∧
        ∃ x, s'.observe = { s.observe with traces := s.observe.traces ++ [x] } ∧ x.id = s.cmds.nextId ∧ x.tid = cmdTid c.record ∧
          x.banks = none ∧ x.rows = [])) ∧
    (Clears s t src c rest 0x0D true false .counter → body = [] → s.observe.digests.length < 4 →
      (s.at t).noTable src (cmdTid c.record) = none → s.kindCheck (cmdTid c.record) false false = none →
      Answers (.tableDigest t src) s (fun s' =>
        (∃ a, Taken s s' src c rest a ∧ a.result = some (0, 0, 0, s.observe.nextDigest, []) ∧ a.postAt = some (s.at t).dueTide) ∧
        s'.observe = { s.observe with
          digests := s.observe.digests ++ [⟨s.observe.nextDigest, cmdTid c.record, cmdCookie c.record, none, [], 0, 0, false, false, 0⟩]
          nextDigest := (s.observe.nextDigest + 1) % 2 ^ 32 }))

/-- R437, R595, R596, R597: what ends a command otherwise. A command of a frozen master is dropped at the head of its FIFO; a head that has
waited 256 tides is removed with ABORTED, but for the three opcodes with bounds of their own; an accepted command past its bound leaves the
list, with CMD_ABORTED in the fault log. Completes here: COMMAND_DROP_FROZEN, COMMAND_HEAD_TIMEOUT, COMMAND_COMPLETION_TIMEOUT. -/
def Obligations.CommandsEndOtherwise : Prop :=
  (∀ (s : State) (t : Nat) (src : Source) (c : Cmd) (rest : List Cmd), src ≠ .seed → (s.at t).fifo src = c :: rest →
    (s.at t).frozen c.master = true → c.eligible ≤ (s.at t).now → (s.at t).engineRuns = true → s.cmds.takenAt ≠ (s.at t).now →
    Answers (.commandDropFrozen t src) s (fun s' => (s'.fifo src).map (·.record) = rest.map (·.record) ∧
      s'.cmds.accepted = s.cmds.accepted ∧ s'.masters = s.masters ∧
      s'.fld Fld.SEC_FREEZE_INFO_dropped c.master =
        min (s.fld Fld.SEC_FREEZE_INFO_dropped c.master + 1) (2 ^ Fld.SEC_FREEZE_INFO_dropped.width - 1))) ∧
  (∀ (s : State) (src : Source) (c : Cmd) (rest : List Cmd) (h : Nat), s.clock.stroke = 0 → s.fifo src = c :: rest →
    c.headTide = some h → h + 257 ≤ s.clock.grid → ownBound (cmdOp c.record) = false → Answers (.commandHeadTimeout src) s (fun s' =>
      (s'.fifo src).map (·.record) = rest.map (·.record) ∧ s'.cmds.accepted = s.cmds.accepted ∧
      (s'.fld Fld.FLT_STATUS_pending).testBit 1 = true)) ∧
  (∀ (s : State) (a : Accepted), s.clock.stroke = 0 → s.cmds.accepted.filter s.overdue = [a] →
    Answers .commandCompletionTimeout s (fun s' => s'.cmds.accepted = s.cmds.accepted.filter (fun b => b.id != a.id) ∧
      s'.observe.traces = s.observe.traces.filter (fun x => x.id != a.id) ∧ (s'.fld Fld.FLT_STATUS_pending).testBit 1 = true))

/-- R229, R230, R233, R236, R238, R247: a flight goes on in a write phase. One with no move left, whose row may be written in order and
which receives its operations, places the new entry: the row is ARMED with the entry's tag, the associated data stands in DRAM and the
flight has its last write. With no operation left, with its quadrant in reset, or where the write fails its read-back, all of it waits for
the next tide. A flight with a result to roll back to has its row retired, and its completion carries that result at the next boundary.
Completes here: INSERT_PLAN_STEP, INSERT_ROLLBACK. -/
def Obligations.PlanStepAndRollback : Prop :=
  ∀ (s : State) (t : Nat), (s.at t).inWrite = true →
    (∀ (f : Insertion) (e : Entry) (tb : TableRec), s.cmds.flights.find? (fun i => i.id == f.id) = some f → f.waits = true →
      f.relabels = [] → f.victim = none → f.stepTide ≤ s.clock.grid → planMoves f.plan = [] → s.table f.tid = some tb →
      s.entry f.len = some e →
      let banks := s.pairBanks f.plan.bank
      let n := stepOps (s.flightWidth f) [] true
      let rows := s.rowsNow f.tid f.plan.bank
      let free := s.writable f.plan.bank f.plan.row && s.spanFree f.tid tb.df.units f.plan.bank f.plan.row &&
        rows.all (fun x => x.1 != f.plan.row) && stepInOrder tb.df.cls rows [] [(f.plan.row, f.keyHi, f.keyLo, f.len)]
      let room := (s.at t).planRoom banks n && !banks.any s.bankDown
      (n ≠ 0 → free = true → room = true → Answers (.insertPlanStep t f.id false) s (fun s' =>
        (∃ g ∈ s'.cmds.flights, g.id = f.id ∧ g.lastWrite = some s.clock.grid ∧ g.nextStep = f.nextStep + 1) ∧
        (∃ e', s'.entry f.len = some e' ∧ e'.bank = f.plan.bank ∧ e'.row = f.plan.row ∧ e'.state = e.state) ∧
        (let g := s'.tag f.plan.bank f.plan.row; g.state = .armed ∧ g.len = f.len ∧ g.gen = e.gen ∧
          (g.keyHi, g.keyLo) = s.rowKeys f.len e ∧ g.ptide = s.parity))) ∧
      (n ≠ 0 → free = true → room = true → Answers (.insertPlanStep t f.id true) s (fun s' =>
        s'.cmds.flights = s.cmds.flights.map (fun i => if i.id = f.id then { f with stepTide := s.clock.grid + 1 } else i) ∧
        s'.arrays.tags = s.arrays.tags ∧ s'.arrays.units = s.arrays.units ∧ s'.numbers = s.numbers ∧ s'.dram = s.dram)) ∧
      (∀ held, free = true → room = false → Answers (.insertPlanStep t f.id held) s (fun s' =>
        s'.cmds.flights = s.cmds.flights.map (fun i => if i.id = f.id then { f with stepTide := s.clock.grid + 1 } else i) ∧
        s'.arrays = s.arrays ∧ s'.numbers = s.numbers ∧ s'.dram = s.dram))) ∧
    (∀ (f : Insertion) (e : Entry) (code : Nat), s.cmds.flights.filter (fun i => i.rollback.isSome && !i.rolledBack) = [f] →
      f.rollback = some code → s.entry f.len = some e → f.victim = none →
      (f.lastWrite.isSome = true → (s.at t).roomFor .plan (s.writeBanks e.bank e.row) 1 = true) → Answers (.insertRollback t) s (fun s' =>
        (∃ e', s'.entry f.len = some e' ∧ e'.state = .retired) ∧
        (∀ i ∈ s'.cmds.flights, i.id = f.id → i.rolledBack = true) ∧ s'.bit Fld.PIL_STATUS_rollback = true ∧
        s'.cmds.accepted = s.cmds.accepted.map (fun a => if a.id = f.id then
          { a with result := some (code, 0, 0, e.seq, []), postAt := some (s.clock.grid + 1), applied := true } else a)))

/-- R124, R130, R132, R143, R162, R163, R240, R242, R254, R255: background work on a table. A respacing move takes its entry to the new row;
a split adds a selector position and lists the parent's banks in both children; a merge unites the lists of siblings, and once none differ
the position goes; a resequencing or a renumbering pass writes its entries and ends; a table being freed loses its entries and then ends, a
deleted one gone, a flushed one live again. Before M3 each live row whose partner row may be written gets its copy there, ARMED; copies that
are searched no more are retired; each list is empty once it is done. Completes here: RESPACING, CHART_SPLIT, CHART_MERGE, RESEQUENCING,
TABLE_RELABEL, TABLE_FREEING, MIRROR_BUILD, MIRROR_COPY_FREEING. -/
def Obligations.BackgroundAndMirrorWork : Prop :=
  (∀ (s : State) (t tid : Nat) (tb : TableRec), (s.at t).inWrite = true → s.table tid = some tb → tb.df.tid = tid →
    let quiet := tb.state = .live ∧ tb.df.direct = false ∧ s.observed tid = false
    let whole := tb.nextChart.selector.length = tb.chart.selector.length
    let pairs := (List.range tb.nextChart.half).filter (s.mayMerge tb)
    Leaves (.respacing t tid []) s { s.at t with arrays := { s.arrays with respaceBusy := false } } ∧
    (∀ (m : Move) (len : Nat) (e : Entry), quiet → s.planBusy tid m.bank = false → s.liveMoves tid [m] = [(m, len)] → s.entry len = some e →
      s.writable m.bank m.dst = true → s.respaces tb.df m.bank (s.rowsNow tid m.bank) [m] = true →
      (s.playStep tb.df m.bank (s.rowsNow tid m.bank) [] [m] (s.newRows tid m.bank) []).isSome = true →
      (s.at t).backRoom .respace (s.pairBanks m.bank) (stepOps tb.df.units [m] false) = true → Answers (.respacing t tid [m]) s (fun s' =>
        s'.arrays.respaceBusy = true ∧ ∃ e', s'.entry len = some e' ∧ e'.bank = m.bank ∧ e'.row = m.dst ∧ e'.gen = e.gen)) ∧
    (quiet → tb.work ≠ 1 → s.maySplit tb = true → s.wantsSplit tb = true → whole → ∀ pos, pos < 80 * tb.df.units →
      tb.nextChart.selector.contains pos = false → Leaves (.chartSplit t tid pos) s ((s.at t).setTable { tb with
        work := 1, merged := []
        chartNext := some { tb.nextChart with
          selector := tb.nextChart.selector ++ [pos], buckets := tb.nextChart.buckets ++ tb.nextChart.buckets } })) ∧
    (quiet → tb.work ≠ 1 → tb.nextChart.selector ≠ [] → whole → pairs ≠ [] →
      (tb.merged = [] → tb.nextChart.unite pairs ≠ tb.chart → Leaves (.chartMerge t tid) s ((s.at t).setTable { tb with
        work := 2, merged := pairs, chartNext := some (tb.nextChart.unite pairs) })) ∧
      (tb.chartNext = none → pairs.length = tb.chart.half → tb.merged.length = tb.chart.half → tb.chart.unite pairs = tb.chart →
        Leaves (.chartMerge t tid) s ((s.at t).setTable { tb with work := 0, merged := [], chartNext := some { tb.chart with
          selector := tb.chart.selector.dropLast, buckets := tb.chart.buckets.take tb.chart.half
          shared := if tb.chart.selector.length ≤ 1 then [] else tb.chart.shared } }))) ∧
    (quiet → ∀ (len q : Nat) (e : Entry), tb.reseq = some ⟨[(len, q)]⟩ → s.entry len = some e → e.state = .live →
      ((s.at t).setTable tb).workRoom .renumber e.bank 1 = true → Answers (.resequencing t tid) s (fun s' =>
        (∃ x, s'.table tid = some x ∧ x.reseq = none ∧ x.counter = tb.counter) ∧
        s'.entry len = some { e with seq := q, keyLo := if tb.df.cls = 1 then 0 else q })) ∧
    (tb.state = .live → tb.df.cls = 1 → tb.df.direct = false → ∀ (len y : Nat) (e : Entry), tb.relabel = [(len, y)] →
      s.entry len = some e → e.state = .live → (s.at t).workRoom .renumber e.bank 1 = true → Answers (.tableRelabel t tid) s (fun s' =>
        (∃ x, s'.table tid = some x ∧ x.relabel = [] ∧ x.relabelFrom = s.clock.grid + 1) ∧ s'.entry len = some e)) ∧
    (tb.state = .flushed ∨ tb.state = .deleted →
      ((s.numbers.entries.any (fun p => p.2.tid == tid)) = false → Answers (.tableFreeing t tid) s (fun s' =>
        (tb.state = .deleted → s'.tables = s.tables.del tid) ∧ (tb.state = .flushed → s'.table tid = some { tb with state := .live }))) ∧
      (∀ (len : Nat) (e : Entry), s.numbers.freeing.filter (fun p => p.1 == tid) = [(tid, len)] → s.entry len = some e → e.tid = tid →
        e.state = .live → (s.at t).backRoom .free (s.writeBanks e.bank e.row) 1 = true → Answers (.tableFreeing t tid) s (fun s' =>
          ∃ e', s'.entry len = some e' ∧ e'.state = .retired)))) ∧
  (∀ (s : State) (t : Nat), (s.at t).inWrite = true →
    (s.mode.pending = some 3 → s.mode.preparing = true → s.mirrorBlocked = [] →
      (s.arrays.mirrorBuild = [] → Leaves (.mirrorBuild t) s (s.at t)) ∧
      (∀ (bank row : Nat) (e : Entry), row < 32768 → s.arrays.mirrorBuild = [32768 * bank + row] → s.entry (s.tag bank row).len = some e →
        e.bank = bank → e.row = row → e.gen = (s.tag bank row).gen → (s.tag bank row).state = .live → partnerBank bank ≠ bank →
        s.arrays.mirrorFree.contains (rowKey (partnerBank bank) row) = false → s.tagWritable (partnerBank bank) row = true →
        (s.at t).backRoom .build [partnerBank bank] e.width = true → Answers (.mirrorBuild t) s (fun s' =>
          s'.arrays.mirrorBuild = [] ∧ (s'.tag (partnerBank bank) row).state = .armed ∧
          (s'.tag (partnerBank bank) row).len = (s.tag bank row).len ∧ s'.numbers.entries = s.numbers.entries))) ∧
    (∀ bank row : Nat, row < 32768 → s.arrays.mirrorFree = [32768 * bank + row] → (s.tag bank row).state = .live →
      (s.at t).backRoom .free [bank] 1 = true → Answers (.mirrorCopyFreeing t) s (fun s' =>
        s'.arrays.mirrorFree = [] ∧ s'.tag bank row = { s.tag bank row with state := .retiring, ptide := s.parity })))

/-- R38, R205, R258, R259, R260, R261, R262, R263: the hot store. A change of associated data that falls due is written to DRAM and to the
entry's line; a candidate over the threshold takes a free way, with its tag in force from the next boundary; a waiting entry takes a free
way of 0 to 3 and is pinned; the end of a decay period halves every line's warmth and clears the filter; and the lines of ways 4 to 7 are
demoted while a change into M5 is prepared. Completes here: AD_CHANGE_WRITE, HOT_PROMOTION, PINNED_LINE_FILL, HOT_DECAY, HOT_WAY_DEMOTION.
-/
def Obligations.HotStore : Prop :=
  ∀ (s : State) (t : Nat),
    let only := fun (s' : State) => s' = { s with
      clock := (s.at t).clock, start := (s.at t).start, hot := s'.hot, pins := s'.pins, ring := s'.ring }
    let placed := fun (len w : Nat) (pinned : Bool) (s' : State) =>
      s'.hot.lines.find (hotKey (hotSet len) w) = some ⟨len, pinned, 0, s.adFor len s.clock.grid, none⟩ ∧
      s'.hot.tags.find len = some ⟨w, s.clock.grid + 1, none⟩ ∧ only s'
    (∀ c : AdChange, s.hot.adChanges = [c] → adWindowStart s.mode.mode ≤ ((s.at t).now : Int) - (c.tide * 256 : Nat) →
      (((s.at t).now : Int) - (c.tide * 256 : Nat) ≤ 95 ∨ c.tide < s.clock.grid) →
      (s.hot.adAt = (s.at t).now → s.hot.adNow < 8) → Answers (.adChangeWrite t) s (fun s' =>
        s'.hot.adChanges = [] ∧ s'.dram = ((s.at t).spoil (adAddr c.len) c.data.length).dram.write (adAddr c.len) c.data ∧
        (∀ g l, s.hot.tags.find c.len = some g → s.hot.lines.find (hotKey (hotSet c.len) g.way) = some l → l.len = c.len →
          s'.hot.lines.find (hotKey (hotSet c.len) g.way) = some { l with data := c.data }) ∧
        s'.hot.tags = s.hot.tags ∧ s' = ({ s with
          clock := (s.at t).clock, start := (s.at t).start, hot := s'.hot, pins := s'.pins, ring := s'.ring }).dramAs s')) ∧
    (∀ (len w : Nat) (e : Entry) (tb : TableRec), s.entry len = some e → s.table e.tid = some tb → (s.at t).inWrite = true →
      s.bit Fld.PIL_HOT_CTL_auto_en = true → tb.df.hot = 0 → tb.df.adBytes ≠ 0 → e.state = .live → s.adPending len = false →
      s.hot.tags.has len = false → s.fld Fld.PIL_HOT_CTL_promote_thresh ≤ s.hot.filter.findD len 0 → 0 < s.hot.filter.findD len 0 →
      s.autoWay (hotSet len) = some w → Answers (.hotPromotion t len) s (placed len w false)) ∧
    (∀ len w : Nat, (s.at t).inWrite = true → s.hot.pinWait.find? (fun n => hotSet n = hotSet len) = some len → s.adPending len = false →
      s.freeWay (hotSet len) 4 = some w → Answers (.pinnedLineFill t len) s (fun s' => placed len w true s' ∧
        s'.hot.pinWait = s.hot.pinWait.filter (fun n => n != len))) ∧
    (s.hot.decayStart + s.decayPeriod ≤ s.clock.grid → Leaves .hotDecay s { s with hot := { s.hot with
      lines := s.hot.lines.map (fun (p : Nat × HotLine) => (p.1, { p.2 with warmth := p.2.warmth / 2 })), filter := []
      decayStart := s.clock.grid } }) ∧
    (s.clock.grid < s.hot.decayStart + s.decayPeriod → Leaves .hotDecay s s) ∧
    (∀ (k : Nat) (l : HotLine) (g : HotTag), (s.at t).inWrite = true → s.mode.pending = some 5 → s.mode.preparing = true →
      s.hot.lines = [(k, l)] → 4 ≤ k % 8 → l.freeFrom = none → s.adPending l.len = false → s.hot.tags.find l.len = some g →
      k = hotKey (hotSet l.len) g.way → Answers (.hotWayDemotion t) s (fun s' =>
        s'.hot.lines = [(k, { l with freeFrom := some (s.clock.grid + 1) })] ∧
        s'.hot.tags.find l.len = some { g with clearFrom := some (s.clock.grid + 1) } ∧ only s'))

/-- R264, R265, R290, R611, R612, R613: spares. PIL_DRAIN_CTL starts a drain or a return from the boundary that R63 gives, or shows why not;
rows are copied in order, and once all are the switch is latched in the last stroke. A self-test is accepted for a slot that is free or
failed, and ends with its failing lines; a row of a reset quadrant is written again from the shadows, EMPTY where no entry owns it.
Completes here: PIL_DRAIN, PIL_RETURN, BANK_DRAIN_COPY, DRAIN_COMPLETE, ARY_BIST_GO, BIST_COMPLETE, QUADRANT_ROW_REWRITE. -/
def Obligations.DrainsAndSelfTests : Prop :=
  ∀ (s : State) (t : Nat),
    (∀ (w : Word64) (x : State), Stores s t .PIL_DRAIN_CTL 0 w x → Fld.PIL_DRAIN_CTL_go.get w.toNat = 1 → s.cmdAuth = false →
      s.arrays.drain = none →
      let bank := x.fld Fld.PIL_DRAIN_CTL_bank
      ∀ op, x.fld Fld.PIL_DRAIN_CTL_op = op → op = 1 ∨ op = 2 → ∀ c, c = (if op = 1 then Instr.pilDrain t 0 w else Instr.pilReturn t 0 w) →
      (∀ r, s.drainRefused bank op = some r → Answers c s (fun s' =>
        s'.arrays = { s.arrays with drain := none, drainResult := r } ∧ s'.bit Fld.PIL_DRAIN_STATUS_done = true)) ∧
      (s.drainRefused bank op = none → Answers c s (fun s' => ∃ d, s'.arrays = { s.arrays with drain := some d } ∧ d.bank = bank ∧
        d.op = op ∧ d.target = drainTarget bank op ∧ d.copied = 0 ∧ d.startTide = (s.at t).dueTide ∧ d.latched = false))) ∧
    (∀ (d : Drain) (how : RowRead), s.arrays.drain = some d → (s.at t).inWrite = true → d.startTide ≤ s.clock.grid → d.copied < d.total →
      (s.at t).copyRoom d = true → Answers (.bankDrainCopy t how) s (fun s' =>
        s'.arrays.drain = some { d with copied := d.copied + 1 } ∧
        s'.arrays.tags.findD (rowKey d.target d.copied) Tag.reset = (s.at t).drainTag d.bank d.copied (how.shadow.getD (32768 / d.total)
          DramRead.clean) ∧ (s.tag d.bank d.copied = Tag.reset → s'.numbers = s.numbers))) ∧
    (∀ d : Drain, s.arrays.drain = some d → (s.at t).clock.stroke = 255 → d.copied = d.total →
      Leaves (.drainComplete t) s { s.at t with arrays := { s.arrays with drain := some { d with latched := true } } }) ∧
    (∀ (w : Word64) (x : State), Stores s t .ARY_BIST_CTL 0 w x → Fld.ARY_BIST_CTL_go.get w.toNat = 1 → s.cmdAuth = false →
      s.service.bist = none →
      let slot := x.fld Fld.ARY_BIST_CTL_quadrant * 136 + x.fld Fld.ARY_BIST_CTL_block * 17 + x.fld Fld.ARY_BIST_CTL_slot
      (s.slotState slot).health ≠ .serving → (s.slotState slot).health ≠ .testing → Leaves (.aryBistGo t 0 w) s { x with
        service := { x.service with bist := some ⟨slot, 98304, false, none⟩ }, due := x.due ++ [⟨(s.at t).dueTide, .bistStart⟩] }) ∧
    (∀ (b : Bist) (count line : Nat), s.service.bist = some b → b.started = true → b.ended = none →
      b.opsLeft ≤ s.bistStrokes (s.at t).clock.stroke →
      (s.at t).inWrite = true ∨ (s.at t).inScrub = true → Leaves (.bistComplete t count line) s { s.at t with service := { s.service with
        bist := some { b with opsLeft := 0, ended := some (min count 8192, if count = 0 then 0 else line % 8192) } } }) ∧
    (∀ bank row : Nat, (s.at t).inWrite = true → s.toRewrite bank row = true →
      let w := (s.bankWidth bank).getD 1
      row < 32768 / w → (s.at t).backRoom .free [bank] w = true → Answers (.quadrantRowRewrite t bank row) s (fun s' =>
        s'.toRewrite bank row = false ∧ s'.numbers = s.numbers ∧
        (s.ownerOf bank row = none → s'.tag bank row = Tag.reset) ∧
        (∀ len e, s.ownerOf bank row = some (len, e) → (s'.tag bank row).state = .armed ∧ (s'.tag bank row).len = len)))

/-- R556, R557, R560, R562, R563, R564, R565, R566, R569: the DRAM. A refresh that falls due is postponed up to eight times under panic,
waits for real-time reads of its pseudo-channel, or is issued with all banks precharged; a stack over 95 degrees is hot; a verification runs
12 tides and passes, tries the next valid set or has the pseudo-channel fenced at the next boundary; a rebuild goes on by at most 64 stripes
a tide; the watchdog starts a verification at whose end service resumes. Completes here: REFRESH_DUE, STACK_TEMP_READOUT, VERIFY_START,
VERIFY_END, REBUILD_STRIPES, DRAM_COMMAND_WATCHDOG. -/
def Obligations.DramCare : Prop :=
  ∀ s : State,
    (∀ pc, s.clock.stroke = 0 → s.clock.count % (s.stack (pc / 32)).period = pc % (s.stack (pc / 32)).period →
      (s.pc pc).refreshAt ≠ some s.clock.grid →
      let p := { s.pc pc with refreshAt := some s.clock.grid }
      (s.panicking (pc / 32) = true → (s.pc pc).postponed < 8 →
        Leaves (.refreshDue pc) s (s.setPc pc { p with postponed := p.postponed + 1 })) ∧
      (s.panicking (pc / 32) = false → s.rtWaiting pc = true → (s.pc pc).postponed < 8 →
        Leaves (.refreshDue pc) s (s.setPc pc { p with refreshDue := true })) ∧
      (8 ≤ (s.pc pc).postponed ∨ (s.panicking (pc / 32) = false ∧ s.rtWaiting pc = false) →
        Leaves (.refreshDue pc) s ((s.setPc pc { p with refreshDue := false }).closeRows pc))) ∧
    (∀ (t n : Nat) (temp : Int), n < 2 →
      Answers (.stackTempReadout t n temp) s (fun s' => (s'.stack n).temp = temp ∧
        (85 < temp → (s'.stack n).doubleNext = some true) ∧ (temp ≤ 83 → (s'.stack n).doubleNext = some false) ∧
        (95 < temp → (s'.stack n).hot = true ∧ s'.pins.alert = true) ∧
        (95 < temp → (s.stack n).hot = false → s'.bit Fld.MEM_STATUS_hot_seen = true) ∧
        (temp ≤ 95 → (s'.stack n).hot = (s.stack n).hot) ∧
        (temp ≤ 90 → (s.stack n).hot = true → (s'.stack n).coolNext = true) ∧ s'.stack (1 - n) = s.stack (1 - n))) ∧
    (∀ pc, s.clock.count % 585728 = 9152 * pc → (s.pc pc).state = .inService ∨ (s.pc pc).state = .rebuilding → (s.pc pc).verify = none →
      (s.pc pc).fencing = false → s.power.state ≤ 1 →
      Leaves (.verifyStart pc) s (s.setPc pc { s.pc pc with verify := some ⟨s.clock.grid + 12, [], none, false⟩ })) ∧
    (∀ (t pc : Nat) (v : Verify), (s.pc pc).verify = some v → v.ends ≤ s.clock.grid → (s.pc pc).fencing = false →
      (v.spareFor = none → v.watchdog = false → Leaves (.verifyEnd t pc true) s ((s.at t).setPc pc { s.pc pc with verify := none })) ∧
      (v.spareFor = none → v.watchdog = true → Answers (.verifyEnd t pc true) s (fun s' => (s'.pc pc).verify = none ∧
        (s'.pc pc).state = (s.pc pc).state ∧ s'.bit Fld.MEM_STATUS_watchdog = true ∧ s'.dram = s.dram)) ∧
      (∀ place, v.spareFor = some place → Answers (.verifyEnd t pc true) s (fun s' => (s'.pc pc).state = .rebuilding ∧
        (s'.pc pc).serves = place ∧ (s'.pc pc).verify = none ∧
        s'.dramCtl.rebuilds = s.dramCtl.rebuilds ++ [⟨place, pc, 0, 0, s.clock.grid⟩])) ∧
      (∀ k, s.nextSet pc (v.failed ++ [(s.pc pc).set]) = some k → Answers (.verifyEnd t pc false) s (fun s' => (s'.pc pc).set = k ∧
        (s'.pc pc).state = (s.pc pc).state ∧ (∃ v', (s'.pc pc).verify = some v' ∧ v'.failed = v.failed ++ [(s.pc pc).set]) ∧
        s'.bit Fld.MEM_STATUS_set_changed = true ∧ s'.due = s.due)) ∧
      (s.nextSet pc (v.failed ++ [(s.pc pc).set]) = none → Answers (.verifyEnd t pc false) s (fun s' => (s'.pc pc).fencing = true ∧
        s'.due = s.due ++ [⟨s.clock.grid + 1, .pcFence pc⟩]))) ∧
    (∀ (t n : Nat) (r : Rebuild) (rest : List Rebuild), s.dramCtl.rebuilds = r :: rest → r.tide ≠ s.clock.grid →
      let m := min (min n 64) (groupStripes - r.next)
      (r.next + m < groupStripes → Leaves (.rebuildStripes t n) s { s.at t with dramCtl := { s.dramCtl with
        rebuilds := { r with next := r.next + m, tideCount := m, tide := s.clock.grid } :: rest } }) ∧
      (groupStripes ≤ r.next + m → Answers (.rebuildStripes t n) s (fun s' => s'.dramCtl.rebuilds = rest ∧
        (s'.pc r.spare).state = .inService))) ∧
    (∀ t pc : Nat, (s.pc pc).state ≠ .fenced → (s.pc pc).state ≠ .idleSpare → (s.pc pc).fencing = false →
      Leaves (.dramCommandWatchdog t pc) s ((s.at t).setPc pc { s.pc pc with
        verify := some ⟨s.clock.grid + 12, [], (s.pc pc).verify.bind (fun v => v.spareFor), true⟩ }))

/-- R271, R272, R273, R274, R276, R278, R279, R280, R282, R283: the scrubber. A scrub stroke reads the lines of the priority queue; a line
written to since it was read is not compared but read again; a line of four one-unit rows, all EMPTY, whose units and shadow agree is
compared without a repair; repairs are written in the write phase: a unit takes its shadow, a tag with no entry is retired, one to be
emptied is EMPTY; a pending metadata line is rebuilt from the tag that names it, or its number is withheld after the next pass; the search
for a lost tag queues the restoring of its row where its entry passes; a stripe of the array shadow, its lines read and its units passing,
is written from them; a shadow write that completes leaves its line one less unsettled. Completes here: SCRUB_READ, SCRUB_COMPARE,
REPAIR_WRITE, META_REBUILD, LEN_WITHHELD, TAG_RESTORE_SEARCH_END, SHADOW_STRIPE_REBUILD, SHADOW_WRITE_COMPLETE. -/
def Obligations.ScrubberWorks : Prop :=
  ∀ (s : State) (t : Nat),
    (∀ p : PrioLine, (s.at t).inScrub = true → s.serving = true → s.domainDown 25 = false → s.scrub.readAt ≠ some (s.at t).now →
      s.scrub.prio = [p] → s.scrub.stripeReads = [] → s.bankDown p.bank = false → s.bit Fld.ARY_SCRUB_CTL_scrub_en = false →
      Answers (.scrubRead t) s (fun s' =>
        s'.scrub = { s.scrub with
          readAt := some (s.at t).now, prio := []
          reads := s.scrub.reads ++ [⟨p.bank, p.line, p.verify, s.unsettledLine p.bank p.line⟩] } ∧
        s' = { s with
          clock := (s.at t).clock, start := (s.at t).start, scrub := s'.scrub, memQueues := s'.memQueues, pins := s'.pins
          ring := s'.ring })) ∧
    (∀ (r : ScrubRead) (rest : List ScrubRead), s.scrub.reads = r :: rest →
      (∀ c : LineCheck, r.dirty = true → s.scrub.prio.length < 64 → Answers (.scrubCompare t c) s (fun s' => s'.scrub.reads = rest ∧
        (∃ p ∈ s'.scrub.prio, p.bank = r.bank ∧ p.line = r.line) ∧ s'.arrays = s.arrays ∧ s'.scrub.repairs = s.scrub.repairs)) ∧
      (r.dirty = false → s.bankWidth r.bank = some 1 → s.scrub.verifying = [] → s.dramCtl.pcs = [] →
        (∀ i, i < 4 → (s.tag r.bank (4 * r.line + i)).state = .empty ∧ s.unitBits r.bank (4 * r.line + i) =
          s.shadowUnit (s.shadowBank r.bank (4 * r.line + i)) (4 * r.line + i)) →
        Answers (.scrubCompare t ⟨[], [], [], []⟩) s (fun s' => s'.scrub = { s.scrub with reads := rest } ∧ s' = { s with
          clock := (s.at t).clock, start := (s.at t).start, scrub := s'.scrub, memQueues := s'.memQueues, dramCtl := s'.dramCtl
          pins := s'.pins, ring := s'.ring }))) ∧
    (∀ r : Repair, (s.at t).inWrite = true → s.scrub.repairs = [r] → s.repairBarred r = false →
      let s0 := { s.at t with scrub := { s.scrub with repairs := [] } }
      s0.roomFor .repair (s0.repairBanks r) (s0.repairStrokes r) = true →
      (∀ u, r.kind = .unitFix u → Answers (.repairWrite t) s (fun s' => s'.scrub.repairs = [] ∧
        s'.unitBits r.bank u = s.shadowUnit (s.shadowBank r.bank (u / (s.bankWidth r.bank).getD 1)) u ∧
        s'.bit Fld.ARY_SCRUB_STATUS_repaired = true)) ∧
      (∀ row, r.kind = .emptyRow row → Answers (.repairWrite t) s (fun s' => s'.scrub.repairs = [] ∧ s'.tag r.bank row = Tag.reset)) ∧
      (∀ row, r.kind = .orphan row → (s.tag r.bank row).state = .live → Answers (.repairWrite t) s (fun s' => s'.scrub.repairs = [] ∧
        s'.tag r.bank row = { s.tag r.bank row with state := .retiring, ptide := s.parity } ∧
        s'.bit Fld.ARY_SCRUB_STATUS_repaired = true))) ∧
    (∀ (len : Nat) (e : Entry), s.entry len = some e → s.numbers.pendingMeta.has len = true → s.scrub.metaSeen.contains len = true →
      let g := s.tag e.bank e.row
      g.len = len → g.gen = e.gen → g.state = .live ∨ g.state = .armed → Answers (.metaRebuild t len) s (fun s' =>
        s'.numbers = { s.numbers with pendingMeta := s.numbers.pendingMeta.del len } ∧
        s'.dram = ((s.at t).writeMeta len { e with keyHi := g.keyHi, keyLo := g.keyLo } 1).dram ∧
        s'.bit Fld.ARY_SCRUB_STATUS_rebuilt = true)) ∧
    (∀ (len p : Nat), s.numbers.pendingMeta.find len = some p → s.scrub.metaSeen.contains len = false → p + 2 ≤ s.scrub.passes →
      Answers (.lenWithheld t len) s (fun s' => s'.numbers.withheld = s.numbers.withheld ++ [len] ∧ s'.entry len = none ∧
        s'.numbers.pendingMeta = s.numbers.pendingMeta.del len ∧ s'.bit Fld.ARY_SCRUB_STATUS_withheld = true)) ∧
    (∀ (x : TagSearch) (rest : List TagSearch) (len : Nat) (e : Entry), s.scrub.tagSearches = x :: rest →
      s.numbers.entries.find? (fun p => p.2.state == .live && p.2.row == x.row &&
        (p.2.bank == x.bank || (s.mode.mode == 3 && p.2.bank == partnerBank x.bank))) = some (len, e) →
      (Answers (.tagRestoreSearchEnd t true) s (fun s' => s'.scrub.tagSearches = rest ∧
        ⟨x.bank, .restore x.row len x.tide⟩ ∈ s'.scrub.repairs ∧ s'.arrays = s.arrays)) ∧
      Leaves (.tagRestoreSearchEnd t false) s { s.at t with scrub := { s.scrub with tagSearches := rest } }) ∧
    (∀ stripe : Nat, s.scrub.stripes.contains stripe = true → s.scrub.stripeReads.any (fun x => x.1 == stripe) = false →
      s.mode.mode ≠ 3 → Answers (.shadowStripeRebuild t stripe []) s (fun s' =>
        s'.scrub.stripes = s.scrub.stripes.filter (fun k => k != stripe) ∧ s'.scrub.repairs = s.scrub.repairs ∧
        s'.bit Fld.ARY_SCRUB_STATUS_rebuilt = true ∧ s'.arrays = s.arrays ∧
        (∀ a, s.dram.wf = true → (a < 256 * stripe ∨ 256 * stripe + 256 ≤ a) → s'.dram.get a = s.dram.get a))) ∧
    (∀ bank line n : Nat, s.scrub.unsettled.find (lineKey bank line) = some n →
      Leaves (.shadowWriteComplete t bank line) s { s.at t with scrub := { s.scrub with
        unsettled := if n ≤ 1 then s.scrub.unsettled.del (lineKey bank line) else s.scrub.unsettled.put (lineKey bank line) (n - 1) } })

/-- R319, R320, R321, R322, R323, R324: the manifest queue. A pending GAP is admitted by itself when there is room; up to 16 slots are
committed in a stroke, and a record that fails its check goes instead with its bad bit and fault record; release, rewind and mark move the
pointers while dest is 0; the window returns the slot and advances past it; and with a ring as its destination a record is sent whole and
released once it is written. Completes here: GAP_ADMIT, MANIFEST_COMMIT, MANIFEST_RELEASE, MANIFEST_REWIND, MANIFEST_MARK,
MANIFEST_WIN_READ, MANIFEST_DELIVERY, MANIFEST_DELIVERY_RELEASE. -/
def Obligations.ManifestQueue : Prop :=
  ∀ (s : State) (t : Nat),
    let m := s.manifest
    let idle := fun (s' : State) => s' = { s with
      clock := (s.at t).clock, start := (s.at t).start, regs := s'.regs, manifest := s'.manifest, host := s'.host, pins := s'.pins,
      ring := s'.ring }
    (∀ g : Gap, m.gap = some g → s.bit Fld.LRN_MNF_CTL_en = true → m.posted < 1024 → m.occupancy + 1 ≤ 32768 →
      g.at_ ≠ (s.at t).now → (∀ r ∈ m.posting, r.at_ ≠ (s.at t).now) →
      Leaves (.gapAdmit t) s { s.at t with manifest := { m with posting := m.posting ++ [⟨[s.gapSlot g], 0, none, (s.at t).now⟩], gap := none } }) ∧
    (∀ r : ManifestRec, m.posting = [r] → m.commitAt ≠ some (s.at t).now → r.holdUntil ≤ s.clock.grid → r.fill = none → m.done = 0 →
      r.slots.length ≤ 16 →
      Answers (.manifestCommit t false) s (fun s' => s'.manifest.commit = m.commit + r.slots.length ∧ s'.manifest.posting = [] ∧
        (∀ i, i < r.slots.length → s'.manifest.ring.find (m.commit + i) = r.slots[i]?) ∧
        (∀ k, k < m.commit ∨ m.commit + r.slots.length ≤ k → s'.manifest.ring.find k = m.ring.find k) ∧
        s'.manifest.read = m.read ∧ s'.manifest.release = m.release ∧ idle s') ∧
      Answers (.manifestCommit t true) s (fun s' => s'.manifest.commit = m.commit ∧ s'.manifest.posting = [] ∧
        s'.bit Fld.LRN_MNF_STATUS_bad = true ∧ (s'.fld Fld.FLT_STATUS_pending).testBit 3 = true)) ∧
    (∀ w : Word64, (s.at t).holds .LRN_MNF_CTL = false → (s.at t).served .LRN_MNF_CTL 0 = true → s.bit Fld.LRN_MNF_CTL_en = true →
      s.fld Fld.LRN_MNF_CTL_dest = 0 →
      let bits := fun a b c => Fld.LRN_MNF_CTL_release.get w.toNat = a ∧ Fld.LRN_MNF_CTL_rewind.get w.toNat = b ∧
        Fld.LRN_MNF_CTL_mark.get w.toNat = c
      (bits 1 0 0 → Answers (.manifestRelease t 0 w) s (fun s' => idle s' ∧ s'.manifest = { m with
        release := m.read, mark := m.read, ring := m.ring.filter (fun (p : Nat × Bytes) => m.read ≤ p.1) })) ∧
      (bits 0 1 0 → Answers (.manifestRewind t 0 w) s (fun s' => idle s' ∧ s'.manifest = { m with read := m.mark })) ∧
      (bits 0 0 1 → Answers (.manifestMark t 0 w) s (fun s' => idle s' ∧ s'.manifest = { m with mark := m.read }))) ∧
    (∀ byte size : Nat, (s.at t).served .LRN_MNF_WIN3 0 = true → s.fld Fld.LRN_MNF_CTL_dest = 0 → m.read ≠ m.commit → 8 ≤ byte + size →
      Leaves (.manifestWinRead t 0 byte size) s { s.at t with
        manifest := { m with lastTaken := s.mnfSlot, read := m.read + 1 }
        out := s.out ++ [.readData 0 (((leBytes ((s.at t).opening.mnfWindow 3) 8).drop byte).take size)] }) ∧
    (∀ slots : List Bytes, s.mnfHead = some slots → m.delivering = 0 → s.fld Fld.LRN_MNF_CTL_dest = 1 →
      let r := s.fld Fld.LRN_MNF_CTL_dest_index
      s.eventRoom r slots.flatten = true → Answers (.manifestDelivery t) s (fun s' => s'.manifest = { m with delivering := slots.length } ∧
        (s'.hostRing r).writes = (s.hostRing r).writes ++ [⟨.manifest, slots.flatten⟩] ∧ idle s')) ∧
    (m.delivering ≠ 0 → s.fld Fld.LRN_MNF_CTL_dest = 1 →
      (s.hostRing (s.fld Fld.LRN_MNF_CTL_dest_index)).writes.any (fun w => w.kind == .manifest) = false →
      let r := m.read + m.delivering
      Leaves (.manifestDeliveryRelease t) s { s.at t with manifest := { m with
        read := r, mark := r, release := r, delivering := 0, lastTaken := s.mnfSlot
        ring := m.ring.filter (fun (p : Nat × Bytes) => r ≤ p.1) } })

/-- R300, R304, R305, R307, R308: the learn filter and aging. Entries whose window has elapsed expire at a boundary, and with window 0 the
filter holds none; a write of 1 to flush reads back 1 and waits, with the window, for the boundary of R63; at a boundary that has not made
it yet the epoch advances where the tide count is a multiple of 2^k and a pass that is due starts at number 0; in a write-phase stroke the
sweep examines 64 numbers: it passes over those not examinable, an entry that crosses its limit with auto-removal is due for removal, and
one without is reported in an AGED record. At another stroke than 0 the three boundary commands leave the state as it was (log 1, the
model's choice). Completes here: FILTER_ENTRY_EXPIRY, LRN_FILTER_FLUSH, DEVICE_EPOCH_ADVANCE, SWEEP_PASS_START, SWEEP_EXAMINE. -/
def Obligations.FilterAndAging : Prop :=
  ∀ (s : State),
    (s.clock.stroke = 0 → Leaves .filterEntryExpiry s { s with learning := { s.learning with
      filter := if s.learning.window = 0 then [] else
        s.learning.filter.filter (fun e => decide ((s.clock.count + 2 ^ 64 - e.tide) % 2 ^ 64 < s.learning.window * 256)) } }) ∧
    (∀ (t : Nat) (w : Word64) (x : State), Stores s t .LRN_FILTER_CTL 0 w x → Fld.LRN_FILTER_CTL_flush.get w.toNat = 1 →
      Answers (.lrnFilterFlush t 0 w) s (fun s' => s'.bit Fld.LRN_FILTER_CTL_flush = true ∧
        s'.due = s.due ++ [⟨(s.at t).dueTide, .filterWindow (x.fld Fld.LRN_FILTER_CTL_window)⟩, ⟨(s.at t).dueTide, .filterFlush⟩] ∧
        s' = { s with clock := (s.at t).clock, start := (s.at t).start, regs := s'.regs, due := s'.due, pins := s'.pins, ring := s'.ring })) ∧
    (s.clock.stroke = 0 → s.serving = true → s.learning.advancedAt ≠ s.clock.grid → ∀ c ∈ [Instr.deviceEpochAdvance, Instr.sweepPassStart],
      Answers c s (fun s' =>
        s'.learning.epoch = (if s.clock.count % 2 ^ s.learning.k = 0 then (s.learning.epoch + 1) % 256 else s.learning.epoch) ∧
        s'.learning.advancedAt = s.clock.grid ∧
        (s.learning.passDue = true → s'.learning.position = 0 ∧ s'.learning.passDue = false ∧ s'.learning.er = s'.learning.epoch ∧
          s'.learning.ep = s.learning.er) ∧
        (s.learning.passDue = false → s'.learning.position = s.learning.position ∧ s'.learning.er = s.learning.er ∧
          s'.learning.ep = s.learning.ep) ∧
        s'.learning.filter = s.learning.filter ∧ s'.learning.k = s.learning.k ∧
        s' = { s with learning := s'.learning, counters := { s.counters with epochTide := s'.counters.epochTide }, pins := s'.pins
                      ring := s'.ring })) ∧
    (s.clock.stroke ≠ 0 → ∀ c ∈ [Instr.filterEntryExpiry, Instr.deviceEpochAdvance, Instr.sweepPassStart], Leaves c s s) ∧
    (∀ t, (s.at t).inWrite = true → s.serving = true → s.domainDown 25 = false → s.learning.examinedAt ≠ some (s.at t).now →
      s.learning.stalledAt ≠ some s.clock.grid → s.learning.removals = [] → s.learning.passDue = false →
      (s.at t).clock.stroke ≠ lastWriteStroke s.mode.mode → s.learning.position + 64 < 16777216 →
      ((∀ i, i < 64 → s.examinable (s.learning.position + i) = none) → Leaves (.sweepExamine t) s { s.at t with learning := { s.learning with
        examinedAt := some (s.at t).now, position := s.learning.position + 64 } }) ∧
      (∀ e df, s.examinable s.learning.position = some (e, df) → s.crossed s.learning.position df = true →
        s.learning.reported.contains s.learning.position = false →
        (∀ i, 0 < i → i < 64 → s.examinable (s.learning.position + i) = none) →
        (df.autoRemove = true → Leaves (.sweepExamine t) s { s.at t with learning := { s.learning with
          examinedAt := some (s.at t).now, position := s.learning.position + 64, removals := [s.learning.position] } }) ∧
        (df.autoRemove = false → Answers (.sweepExamine t) s (fun s' => s'.learning.removals = [] ∧
          s'.learning.position = s.learning.position + 64 ∧ s'.numbers = s.numbers ∧ s'.tables = s.tables ∧
          (s.fld Fld.LRN_AGE_COUNT_aged + 1 < 2 ^ 32 → s'.fld Fld.LRN_AGE_COUNT_aged = s.fld Fld.LRN_AGE_COUNT_aged + 1)))))


/-- R31, R32, R33, R34, R370, R371, R372, R373, R374, R375, R376, R377: hit counters. Outside the slack an update that has fallen due, with
fewer than 64 applied in its stroke, stamps its entry with the device epoch and counts one, and one of another generation is discarded; a
fold moves the narrow counter of the first entry in the queue into a place; the read of a place ends in the wide counter, which counts from
0 where that read cannot be corrected; a write of the host sets the count, the increments of its stroke after it; and a coherent read
returns the count. Completes here: HIT_UPDATE_APPLY, FOLD, FOLD_READ_RETURN, TEL_CNT_WRITE, TEL_CNT_READ, COUNT_READ_RETURN. -/
def Obligations.HitCounters : Prop :=
  ∀ (s : State) (t : Nat),
    (∀ u : HitUpdate, (s.at t).inSlack = false → s.counters.updates = [u] → u.due ≤ (s.at t).now →
      (s.counters.appliedAt = (s.at t).now → s.counters.appliedNow.length < 64) → Answers (.hitUpdateApply t) s (fun s' =>
        s'.counters.updates = [] ∧
        (s.numbers.gens.findD u.len 0 = u.gen → s'.stampOf u.len = s.learning.epoch ∧
          (s.narrowCount u.len < 65535 → s'.narrowCount u.len = s.narrowCount u.len + 1 ∧
            (s.foldPlace u.len = none → s.wide u.len + s.narrowCount u.len + 1 < 2 ^ 64 → s'.countOf u.len = s.countOf u.len + 1)) ∧
          (65535 ≤ s.narrowCount u.len → s'.narrowCount u.len = s.narrowCount u.len ∧ s'.bit Fld.TEL_CNT_STATUS_sat = true)) ∧
        (s.numbers.gens.findD u.len 0 ≠ u.gen → s'.stampOf u.len = s.stampOf u.len ∧ s'.narrowCount u.len = s.narrowCount u.len) ∧
        (∀ n, n ≠ u.len → s'.narrowCount n = s.narrowCount n ∧ s'.stampOf n = s.stampOf n) ∧
        s'.counters.places = s.counters.places ∧ s'.dram = s.dram ∧ s'.numbers = s.numbers)) ∧
    (∀ (len : Nat) (rest : List Nat), s.counters.foldQueue = len :: rest → s.awake = true → s.params.slackAt ≤ (s.at t).clock.stroke →
      (s.at t).clock.stroke < s.params.slackAt + 8 → s.counters.foldAt ≠ some (s.at t).now → s.foldPlace len = none →
      s.counters.places.length < 16 → Answers (.fold t) s (fun s' => s'.counters.foldQueue = rest ∧ s'.narrowCount len = 0 ∧
        s'.foldPlace len = some ⟨len, false, s.narrowCount len, some (s.wide len)⟩ ∧ s'.countOf len = s.countOf len ∧ s'.dram = s.dram)) ∧
    (∀ (len : Nat) (p : FoldPlace) (how : DramRead), s.foldPlace len = some p → s.counters.held = [] →
      let a := wideAddr len
      let base := if s.readEnd a how = .uncorrectable then 0 else p.wide.getD 0
      Answers (.foldReadReturn t len how) s (fun s' => s'.foldPlace len = none ∧ s'.narrowCount len = s.narrowCount len ∧
        s'.dram = ((((s.at t).dramReturn 5 a 8).countRead a how).spoil a 8).dram.write a
          (leBytes ((if p.isSet then p.amount else base + p.amount) % 2 ^ 64) 8))) ∧
    (∀ (len : Nat) (data : Bytes), data.length = 8 → (s.at t).holds .TEL_CNT_WRITE = false → (s.at t).served .TEL_CNT_WRITE 0 = true →
      s.cmdAuth = false → s.selectedCount 0 = some len → s.counters.places.length < 16 → Answers (.telCntWrite t 0 data) s (fun s' =>
        s'.narrowCount len = (s.at t).appliedTo len ∧
        (s.foldPlace len = none →
          s'.dram = ((s.at t).spoil (wideAddr len) 8).dram.write (wideAddr len) (leBytes (leNat data % 2 ^ 64) 8)) ∧
        (∀ p, s.foldPlace len = some p → s'.foldPlace len = some { p with isSet := true, amount := leNat data % 2 ^ 64 } ∧
          s'.countOf len = (leNat data % 2 ^ 64 + (s.at t).appliedTo len) % 2 ^ 64))) ∧
    (let x := (s.at t).applyUpdates
     ∀ len size : Nat, 4 ≤ size → x.served .TEL_CNT_READ 0 = true → x.cmdAuth = false → x.selectedCount 0 = some len →
      let sum := fun (n : Nat) => x.counters.reads ++ [⟨len, n, x.wide len, false, 0, 0, size⟩]
      (∀ p, x.foldPlace len = some p → p.isSet = true → Answers (.telCntRead t 0 0 size) s (fun s' =>
        s'.out = x.out ++ [.readData 0 ((leBytes ((p.amount + x.narrowCount len) % 2 ^ 64) 8).take size)] ∧
        s'.counters.latched = (p.amount + x.narrowCount len) % 2 ^ 64)) ∧
      (x.counters.held = [] →
        (∀ p, x.foldPlace len = some p → p.isSet = false → Leaves (.telCntRead t 0 0 size) s
          ({ x with counters := { x.counters with reads := sum (p.amount + x.narrowCount len) } }.dramIssue 5 (wideAddr len) 8)) ∧
        (x.foldPlace len = none → Leaves (.telCntRead t 0 0 size) s
          ({ x with counters := { x.counters with reads := sum (x.narrowCount len) } }.dramIssue 5 (wideAddr len) 8)))) ∧
    (∀ (r : CountRead) (rest : List CountRead) (how : DramRead), s.counters.reads = r :: rest → r.behindWrite = false →
      let v := ((if s.readEnd (wideAddr r.len) how = .uncorrectable then 0 else r.wide) + r.partialSum) % 2 ^ 64
      Answers (.countReadReturn t how) s (fun s' => s'.counters.reads = rest ∧ s'.counters.latched = v ∧ s'.dram = s.dram ∧
        (s.readEnd (wideAddr r.len) how = .direct →
          s'.out = s.out ++ [.readData r.fn (((leBytes v 8).drop r.byte).take r.size)])))


/-- R266, R267, R381, R382, R383, R384, R385, R387, R390, R393: in a stroke of the trace phase a trace visits the banks that its chart
lists, as many as the operations left allow; a row whose tag reads uncorrectable is no row of it. When all are visited its completion, with
the rows found, is to be posted at the next boundary; else it goes on from the first bank left. A digest reads one line of its table in a
trace-phase stroke that no trace uses. A line with one row, all its units well read, adds its entry's hash; a line without a row adds
nothing; and after the last line the DIGEST record is posted, and held where its quay has no room. Completes here: TRACE_ACTIVATION,
DIGEST_READ. -/
def Obligations.TracesAndDigests : Prop :=
  (∀ (s : State) (t : Nat) (tags : List TagFault) (x : Trace) (tb : TableRec), (s.at t).inTrace = true → s.observe.traces = [x] →
    s.table x.tid = some tb → x.banks = none →
    let banks := tb.chart.traceBanks x.key x.mask
    let n := (s.at t).traceLeft
    let found := fun (b : Nat) =>
      if s.bankDown b = true then [] else s.traceRows b tb.df.units tb.df.tid x.key x.mask (badRows tags b)
    (banks.length ≤ n → Answers (.traceActivation t tags) s (fun s' => s'.observe.traces = [] ∧
      ∃ y : Trace, y.rows = x.rows ++ banks.flatMap found ∧ y.visited = x.visited ++ banks ∧ y.unstable = x.unstable ∧
        y.first = s.clock.grid ∧ y.last = s.clock.grid ∧
        y.more = (x.more || banks.any (fun b => (found b).length == 64)) ∧
        s'.cmds = { s.cmds with accepted := s.cmds.accepted.map (fun a =>
          if a.id = x.id then { a with
            result := some (0, 0, 0, 0, y.payload tb.df.cls), postAt := some (s.clock.grid + 1), applied := true } else a) } ∧
        (tags = [] → s' = { s with
          clock := (s.at t).clock, start := (s.at t).start, pins := s'.pins, ring := s'.ring, cmds := s'.cmds
          observe := { s.observe with traces := [], traceOps := s'.observe.traceOps, traceAt := (s.at t).now } }))) ∧
    (n < banks.length → Answers (.traceActivation t tags) s (fun s' => s'.cmds = s.cmds ∧
      ∃ y : Trace, s'.observe.traces = [y] ∧ y.id = x.id ∧ y.banks = some (banks.drop n) ∧ y.visited = x.visited ++ banks.take n ∧
        y.rows = x.rows ++ (banks.take n).flatMap found ∧
        (tags = [] → s' = { s with
          clock := (s.at t).clock, start := (s.at t).start, observe := s'.observe, pins := s'.pins, ring := s'.ring })))) ∧
  (∀ (s : State) (t : Nat) (tags : List TagFault) (d : Digest) (rest : List Digest) (tb : TableRec) (k : Nat) (left : List Nat),
    (s.at t).inTrace = true → s.observe.traces = [] → 0 < (s.at t).traceLeft → s.observe.digests = d :: rest →
    s.table d.tid = some tb → tb.chart.version = d.version → d.lines = some (k :: left) →
    let bank := k / 8192
    let inLine := (s.matchable bank (tb.df.tid % 4096)).filter (fun p => lineOf tb.df.units p.1 == k % 8192)
    let rows := inLine.filter (fun p => !(badRows tags bank).contains p.1)
    let next := fun (x : Digest) => { x with lines := some left, visited := if d.visited.contains bank then d.visited else d.visited ++ [bank] }
    let read := ((s.at t).useTrace 1).tagFaults [bank] (tags.filter (fun x => inLine.any (fun p => p.1 == x.row)))
    (∀ how, rows = [] → left ≠ [] →
      Leaves (.digestRead t how tags) s { read with observe := { read.observe with digests := next d :: rest } }) ∧
    (∀ (row : Nat) (tag : Tag) (e : Entry) (h : RowRead), rows = [(row, tag)] → s.entry tag.len = some e →
      (∀ j, j < tb.df.units → h.units.getD j true = true) → left ≠ [] →
      let added : Digest := { d with sum := (d.sum + s.entryHash tb.df tag.len e) % 2 ^ 128, entries := d.entries + 1 }
      let data := if tb.df.adBytes = 0 then read else read.dramIssue 4 (adAddr tag.len) tb.df.adBytes
      Leaves (.digestRead t [h] tags) s { data with observe := { data.observe with digests := next added :: rest } }) ∧
    (∀ how, rows = [] → left = [] → tags = [] → s.observe.buffer = [] → s.fld Fld.TEL_DEST_CTL_dest = 2 →
      s.quayRoom (s.fld Fld.TEL_DEST_CTL_dest_index) 6 = false →
      Leaves (.digestRead t how []) s { read with observe := { read.observe with
        digests := rest
        buffer := [⟨2, s.fld Fld.TEL_DEST_CTL_dest_index, false, true, s.digestRecord d⟩] } }))


/-- R389, R390, R393, R394: telemetry records go out in order. One for a quay or a ring with room is offered or queued there; one for the
capture buffer is written from the pointer on, and a stopped buffer drops it and counts; and a write of 0 to stop restarts the capture at
word 0. At a boundary whose tide count is a multiple of 2^k the sampler takes the depths and the greatest waits of every quay and active
ring, and the waits start again; the samples become SAMPLE records, up to 64 in a tide. Completes here: TELEMETRY_DELIVERY, CAPTURE_RESTART,
QUEUE_SAMPLE_CAPTURE, SAMPLE_POST. -/
def Obligations.TelemetryAndSamples : Prop :=
  (∀ (s : State) (t : Nat),
    (∀ r : TelRecord, s.observe.buffer = [r] →
      let x := { s.at t with observe := { s.observe with buffer := [] } }
      (r.dest = 1 → s.eventRoom r.index r.bytes = true → Leaves (.telemetryDelivery t) s (x.ringQueue r.index .event r.bytes)) ∧
      (r.dest = 2 → s.quayRoom r.index (r.bytes.length / 8) = true →
        Leaves (.telemetryDelivery t) s (x.offerSecondary r.index .secondary r.bytes)) ∧
      (r.dest = 2 → s.quayRoom r.index (r.bytes.length / 8) = false → Leaves (.telemetryDelivery t) s (s.at t)) ∧
      (∀ n, r.dest = 0 → s.observe.captureStopped = false → r.bytes.length = 8 * n → s.observe.captureWord + n < 2 ^ 30 →
        Answers (.telemetryDelivery t) s (fun s' =>
          s'.observe = { x.observe with captureWord := s.observe.captureWord + n } ∧
          (s.dramCtl.pcs = [] → s'.dram = s.dram.write (captureAddr + 8 * s.observe.captureWord) r.bytes) ∧
          s' = ({ x with observe := s'.observe, pins := s'.pins, ring := s'.ring }).dramAs s')) ∧
      (r.dest = 0 → s.observe.captureStopped = true → Leaves (.telemetryDelivery t) s (x.bump Fld.TEL_DROP_COUNT_sample))) ∧
    (∀ (w : Word64) (x : State), Stores s t .TEL_CAPTURE_PTR 0 w x → Fld.TEL_CAPTURE_PTR_stop.get w.toNat = 0 →
      Leaves (.captureRestart t 0 w) s { x with observe := { x.observe with captureWord := 0, captureWraps := 0, captureStopped := false } })) ∧
  (∀ (s : State),
    (s.observe.sampleEn = true → s.clock.count % 2 ^ s.observe.sampleK = 0 → s.observe.capturedAt ≠ s.clock.grid → s.clock.stroke = 0 →
      Answers .queueSampleCapture s (fun s' =>
        (∃ l, s'.observe.samples = s.observe.samples ++ l ∧
          (∀ q x, (q, x) ∈ s.links.quays → ∃ y ∈ l, y.isRing = false ∧ y.queue = q ∧ y.tide = s.clock.count ∧
            (∀ c, c < 4 → y.depths[c]? = some (s.search.waiting.filter (fun r => r.src == Source.quay q && r.cls == c)).length ∧
              y.waits[c]? = some (s.observe.waits.findD (4 * q + c) 0))) ∧
          (∀ n x, (n, x) ∈ s.host.rings → x.state = .active → ∃ y ∈ l, y.isRing = true ∧ y.queue = n ∧ y.tide = s.clock.count ∧
            y.waits = [s.observe.waits.findD (1000 + n) 0] ∧ (s.ringKind n = 0 → y.depths = [x.posted]))) ∧
        s'.observe.waits = [] ∧ s'.observe.capturedAt = s.clock.grid ∧
        s' = { s with observe := s'.observe, pins := s'.pins, ring := s'.ring })) ∧
    (∀ t, s.observe.samplesTide ≠ s.clock.grid → s.observe.samples ≠ [] → Answers (.samplePost t) s (fun s' =>
      s'.observe.samples = s.observe.samples.drop 64 ∧ s'.observe.samplesTide = s.clock.grid ∧
      (∀ x, s.observe.samples = [x] → s.observe.buffer = [] → s.fld Fld.TEL_DEST_CTL_dest = 2 →
        s.quayRoom (s.fld Fld.TEL_DEST_CTL_dest_index) 4 = false →
        s'.observe.buffer = [⟨2, s.fld Fld.TEL_DEST_CTL_dest_index, false, false, s.sampleRecord x⟩]))))

/-- R178, R184, R188, R352, R353, R408, R455, R465: records of a logical quay. A record of the length that its header gives, within its
credit, is charged and taken: a search request waits in the lowest class of its own and its berth's, a command joins the FIFO of its quay, a
chunk for an open stream joins the chunk queue. One beyond its credit is counted and discarded. Completes here: SEARCH_REQUEST,
TABLE_COMMAND, STREAM_CHUNK. -/
def Obligations.QuayRecordsTaken : Prop :=
  ∀ (s : State) (t q : Nat) (rec : Bytes),
    let l := s.link (.quay q)
    let charge := quayCharge rec
    let taken := fun (s' : State) => s'.link (.quay q) = l.charge charge.1 charge.2 ∧ s'.power.accepted = true ∧
      s' = { s with
        clock := (s.at t).clock, start := (s.at t).start, links := s'.links, power := s'.power, search := s'.search, cmds := s'.cmds,
        scribes := s'.scribes
        pins := s'.pins, ring := s'.ring }
    s.power.state = 0 → l.up = true → recordLength rec = some rec.length → 16 ≤ rec.length →
    (creditFits (l.limits.getD charge.1 0) (l.charged.getD charge.1 0) charge.2 = true →
      (byteAt rec 0 = 0x10 → Answers (.searchRequest t (.quay q) rec) s (fun s' => taken s' ∧ s'.cmds = s.cmds ∧ s'.scribes = s.scribes ∧
        s'.search = { s.search with waiting := s.search.waiting ++ [⟨.quay q, quayMaster q, (s.at t).now, s.clock.count,
          max (byteAt rec 1 % 4) (s.berth (fieldLE rec 2 2 % 16384)).record.ceiling, rec, 0, false, false⟩] })) ∧
      (byteAt rec 0 = 0x30 → Answers (.tableCommand t (.quay q) rec) s (fun s' => taken s' ∧ s'.search = s.search ∧ s'.scribes = s.scribes ∧
        (s'.fifo (.quay q)).map (·.record) = (s.fifo (.quay q)).map (·.record) ++ [rec] ∧
        (∀ src, sourceKey src ≠ sourceKey (.quay q) → s'.fifo src = s.fifo src))) ∧
      (∀ n x, byteAt rec 0 = 0x20 → chunkHeaderOk rec = true → s.openStream (fieldLE rec 4 3) = some (n, x) →
        (s.at t).frozen (quayMaster q) = false →
        Answers (.streamChunk t (.quay q) rec) s (fun s' => taken s' ∧ s'.search = s.search ∧ s'.cmds = s.cmds ∧
          s'.scribes = { s.scribes with queue := s.scribes.queue ++ [⟨.quay q, (s.at t).now,
            max (byteAt rec 1 % 4) (s.berth (fieldLE rec 12 2 % 16384)).record.ceiling, x.set, n, rec, 0, false⟩] }))) ∧
    (creditFits (l.limits.getD charge.1 0) (l.charged.getD charge.1 0) charge.2 = false →
      ∀ c ∈ [Instr.searchRequest t (.quay q) rec, Instr.tableCommand t (.quay q) rec, Instr.streamChunk t (.quay q) rec],
        (byteAt rec 0 = 0x10 → c = Instr.searchRequest t (.quay q) rec) → (byteAt rec 0 = 0x30 → c = Instr.tableCommand t (.quay q) rec) →
        (byteAt rec 0 = 0x20 → c = Instr.streamChunk t (.quay q) rec) →
        Leaves c s ((s.at t).bumpHold Fld.QUY_ERR_COUNT_overrun 1 q))

/-- R523, R524, R525, R533, R534, R535, R536: a SUBMIT ring with a whole record posted, and room for its reply in its COMPLETE ring, is
read: the device index passes the record's entries, the reply's entries are reserved, and the search enters under the function of the ring,
no higher than the ring's class. A ring with nothing posted is left as it is. A read of a peer window returns its credit word. A write whose
payload is one search request under the window's berth takes its bytes of the window's space and reserves its reply's entries; one that
reaches past the window, or falls in none, is counted and discarded. Completes here: RING_FETCH, PEER_WINDOW_TLP. -/
def Obligations.RingsFetchedAndWindows : Prop :=
  (∀ (s : State) (t r : Nat) (rec : Bytes),
    let x := s.hostRing r
    let pair := s.ringPair r
    let k := (rec.length + 63) / 64
    (x.posted = 0 → Leaves (.ringFetch t r rec) s (s.at t)) ∧
    ((s.at t).intakeOpen = true → s.power.state = 0 → s.host.linkUp = true → x.state = .active → s.ringKind r = 0 →
      (s.function (ringFn r)).flr = false → byteAt rec 0 = 0x10 → hostRecordLength rec = some rec.length → k ≤ x.posted →
      0 < x.posted → pair ≠ r → s.ringActive pair = true → s.ringKind pair = 1 → reserveOf rec ≤ s.ringFree pair →
      Answers (.ringFetch t r rec) s (fun s' =>
        s'.hostRing r = { x with devIndex := (x.devIndex + k) % 2 ^ 32, moved := true } ∧
        s'.hostRing pair = { s.hostRing pair with reserved := (s.hostRing pair).reserved + reserveOf rec } ∧
        (∀ n, n ≠ r → n ≠ pair → s'.hostRing n = s.hostRing n) ∧
        s'.out = s.out ++ [.hostRead (s.fld Fld.HST_RING_BASE_base r * 4096 + 64 * (x.devIndex % s.ringSize r)) rec.length] ∧
        s'.search = { s.search with waiting := s.search.waiting ++ [⟨.hostRing r, ringFn r, (s.at t).now, s.clock.count,
          max (max (byteAt rec 1 % 4) (s.fld Fld.HST_RING_CTL_class r)) (s.berth (fieldLE rec 2 2 % 16384)).record.ceiling, rec,
          s.ticket pair, false, false⟩] } ∧
        s' = { s with
          clock := (s.at t).clock, start := (s.at t).start, host := s'.host, power := s'.power, search := s'.search, out := s'.out
          pins := s'.pins, ring := s'.ring }))) ∧
  (∀ (s : State) (t off : Nat) (data : Bytes),
    let w := off / 0x100000 % 16
    let a := (s.window w).active
    let reply := 16 * a.fn + a.slot
    s.host.pcie.bar2 = true → s.host.linkUp = true →
    Leaves (.peerWindowTlp t off []) s { s.at t with out := s.out ++ [.readData a.fn
      (leBytes (((s.window w).gen % 65536) * 2 ^ 48 + (16384 + (s.window w).freed) % 2 ^ 32) 8)] } ∧
    (data ≠ [] → s.power.state = 0 → (s.at t).intakeStopped = false → (s.at t).engineRuns = true →
      ((s.at t).noWindow w off data.length = false → splitRecords (data.length / 8 + 1) data = some [data] → byteAt data 0 = 0x10 →
        fieldLE data 2 2 % 16384 = a.berth → (s.window w).held + data.length ≤ 16384 →
        Answers (.peerWindowTlp t off data) s (fun s' =>
          s'.window w = { s.window w with held := (s.window w).held + data.length } ∧
          (s'.hostRing reply).reserved = (s.hostRing reply).reserved + reserveOf data ∧
          s'.search = { s.search with waiting := s.search.waiting ++ [⟨.window w, a.fn, (s.at t).now, s.clock.count,
            max (byteAt data 1 % 4) (s.berth a.berth).record.ceiling, data, s.ticket reply, false, false⟩] } ∧
          s' = { s with
            clock := (s.at t).clock, start := (s.at t).start, host := s'.host, power := s'.power, search := s'.search, pins := s'.pins,
            ring := s'.ring })) ∧
      ((s.at t).noWindow w off data.length = true →
        Leaves (.peerWindowTlp t off data) s ((s.at t).bump Fld.HST_WIN_COUNT_nowin 1 w))))

/-- R27, R67, R68, R69, R70, R189, R191, R192, R194: dispatch. In a search stroke the one request that waits, eligible, is dispatched on the
first pipe when its reservation fits; and the pipe front of a search of one lookup ends it whole, or builds the lookup's key and the banks
that it activates. A request that its 320 strokes have passed without dispatch receives BUSY, whole and in the layout of the mode of that
tide. Completes here: DISPATCH, BUSY_RESULT. -/
def Obligations.SearchesDispatched : Prop :=
  (∀ (s : State) (t q : Nat) (r : Request),
    let rec_ := r.record
    let b := s.berth (reqBerth rec_)
    let look := reqDesc rec_ 0
    (s.at t).dispatchOn = true → s.ring.queue = [] → s.search.waiting = [r] → r.src = .quay q → q < 48 → r.cls < 4 →
    (s.at t).eligible r = true → 0 < (s.at t).pipesNow →
    (s.at t).reservation rec_ + (s.at t).charged (s.at t).now ≤ (s.at t).capNow →
    let out := fun (p : State → Search → Prop) => Answers (.dispatch t) s (fun s' => s'.search.waiting = [] ∧
      s'.search.doneAt = some (s.at t).now ∧ ∃ f, s'.search.flights = s.search.flights ++ [f] ∧ f.req = r ∧ f.d = some (s.at t).now ∧
        f.pipe = 0 ∧ f.mode = s.mode.mode ∧ f.assembled = none ∧ f.activated = false ∧ f.resolved = false ∧ p s' f)
    (r.wrongBerth = false → (s.at t).frozen r.master = true → out (fun _ f => f.status = some 9 ∧ f.looks = [])) ∧
    (r.wrongBerth = false → (s.at t).frozen r.master = false →
      (requestOk rec_ r.badLength = false → out (fun s' f => f.status = some 0xB ∧ f.looks = [] ∧ s'.berths = s.berths)) ∧
      (requestOk rec_ r.badLength = true → s.inRange r.master (reqBerth rec_) = true → reqLooks rec_ ≤ s.params.lookups →
        (b.record.shaperEn = true → b.levelP ≤ 0 → out (fun s' f => f.status = some 7 ∧ f.looks = [] ∧ s'.berth (reqBerth rec_) = b)) ∧
        (b.record.shaperEn = false → reqLooks rec_ = 1 → descMalformed rec_ 0 = false → descChain look = false →
          (∀ g tb, b.record.grantAt (descSlot look) = some g → g.search = true → s.slotTable rec_ 0 = some tb → tb.df.direct = false →
            fieldFits rec_ look tb.df = true → tb.df.ringSpan = false → out (fun s' f => f.status = none ∧ f.extra = 0 ∧
              s'.berth (reqBerth rec_) = b ∧ ∃ l, f.looks = [l] ∧ l.status = none ∧ l.df = some tb.df ∧ l.tid = g.tid ∧
                l.key = keyField rec_ (descOff look) tb.df.units ∧ l.banks = tb.chart.banksOf l.key ∧ l.desc = look)) ∧
          (∀ g, b.record.grantAt (descSlot look) = some g → g.search = true → s.slotTable rec_ 0 = none →
            out (fun _ f => f.status = none ∧ ∃ l, f.looks = [l] ∧ l.status = some 0xA)) ∧
          (b.record.grantAt (descSlot look) = none →
            out (fun _ f => f.status = none ∧ ∃ l, f.looks = [l] ∧ l.status = some 8)))))) ∧
  (∀ (s : State) (t : Nat) (r : Request), s.search.waiting = [r] → r.s0 + 319 < (s.at t).now →
    Answers (.busyResult t) s (fun s' => s'.search.waiting = [] ∧ ((∀ w, r.src ≠ .window w) → s'.host = s.host ∧ s'.links = s.links) ∧
      ∃ f, s'.search.flights = s.search.flights ++ [f] ∧ f.req = r ∧ f.d = none ∧ f.status = some 6 ∧
        f.assembled = some (wholeResult r.record (s.modeAt ((r.s0 + 319) / 256)) 6)))

/-- R71, R145, R197, R198, R199, R200, R201, R202, R203, R204, R209, R212, R267: 256 strokes after dispatch a ternary lookup makes its
activations: its winner in each copy is the best of the first matches; a split search makes as many as its cap in that stroke; and a chained
lookup whose source has its data by now makes its own 256 strokes later. 351 strokes after dispatch a lookup is resolved. With no winner it
misses; with one, its stamp and increment fall due, and without data, or with data of the hot store, it is a hit, else its data is read from
DRAM; where the two copies disagree it waits for its validation. Completes here: ACTIVATION, RESOLUTION. -/
def Obligations.ActivatesAndResolves : Prop :=
  (∀ (s : State) (t : Nat) (tags : List TagFault) (f : Search) (d : Nat), s.search.flights = [f] → s.ring.queue = [] → f.d = some d →
    let best := fun (df : TableDef) (l : Look) (acts : List (Bool × Nat)) (mirror : Bool) (from_ : Option Cand) =>
      bestOf (candBefore df.cls) (from_.toList ++ ((acts.filter (fun a => a.1 == mirror)).map (fun a => a.2)).filterMap (fun b =>
        s.firstMatch b (df.tid % 4096) df.units l.key (badRows tags b)))
    let after := fun (df : TableDef) (l : Look) (acts : List (Bool × Nat)) => { l with
      winner := best df l acts false l.winner, mirror := if l.m3 then best df l acts true l.mirror else best df l acts false l.winner }
    let flies := fun (acts : List (Bool × Nat)) (g : Search) =>
      Leaves (.activation t tags) s { (s.at t).tagFaults (acts.map (fun a => a.2)) tags with search := { s.search with flights := [g] } }
    (∀ l df, f.activated = false → f.resolved = false → d + 256 ≤ (s.at t).now → f.looks = [l] → l.status = none → l.df = some df →
      df.direct = false → descChain l.desc = false →
      let acts := s.activations l.m3 l.banks
      (f.split = false → acts.length ≤ 128 → flies acts { f with activated := true, looks := [after df l acts] }) ∧
      (f.split = true → f.half = false → (s.at t).now < d + 257 →
        flies (acts.take f.first) { f with half := true, looks := [after df l (acts.take f.first)] })) ∧
    (∀ src l df, f.split = false → f.activated = true → f.resolved = true → f.chainActivated = false → d + 512 ≤ (s.at t).now →
      f.looks = [src, l] → descChain src.desc = false → descChain l.desc = true → l.status = none → l.frontDone = true → l.df = some df →
      df.direct = false → (s.activations l.m3 l.banks).length ≤ 128 →
      let acts := s.activations l.m3 l.banks
      flies acts { f with chainActivated := true, looks := [src, after df l acts] })) ∧
  (∀ (s : State) (t : Nat) (f : Search) (d : Nat) (l : Look) (df : TableDef), s.search.flights = [f] → s.ring.queue = [] → f.d = some d →
    f.activated = true → f.resolved = false → f.chainActivated = false → d + 351 ≤ (s.at t).now → f.looks = [l] →
    l.status = none → l.df = some df → df.direct = false → df.ringSpan = false → descChain l.desc = false →
    let flight := fun (x : Look) => { s.search with flights := [{ f with resolved := true, looks := [x] }] }
    let noData := reqNoAd f.req.record || df.adBytes == 0
    (l.winner = none → l.mirror = none →
      (df.learn = false → Leaves (.resolution t) s { s.at t with search := flight { l with status := some 1 } }) ∧
      (df.learn = true → Answers (.resolution t) s (fun s' => s'.search = flight { l with status := some 1 } ∧ s'.counters = s.counters))) ∧
    (∀ c, l.winner = some c → l.mirror = some c →
      let hot := df.hot != 2 && s.hotIn c.len ((d + 320) / 256)
      let counted := { s.counters with updates := queueUpdate ⟨c.len, c.gen, d + 351⟩ s.counters.updates }
      (noData = true → Leaves (.resolution t) s { s.at t with
        search := flight { l with status := some 0, pre := if hot then some 0 else none }, counters := counted }) ∧
      (noData = false → Answers (.resolution t) s (fun s' => s'.counters = counted ∧
        (hot = true → s'.search = flight { l with status := some 0, pre := some 0, data := (s.adFor c.len l.view).take df.adBytes }) ∧
        (hot = false → s'.search = flight { l with reading := true, pre := none })))) ∧
    (disagrees l.winner l.mirror = true → Answers (.resolution t) s (fun s' =>
      s'.search = flight { l with disagree := true, reading := !noData } ∧ s'.counters = s.counters)))


/-- R140, R142, R145, R199, R201, R267: the winner of a ternary lookup is a row of its table, in a bank that the lookup activates and that
is up, whose tag is well read and all of whose units match the key; where `precedes` orders the first matches of these banks, no one of them
precedes the winner; and where some such row of a bank that is up matches, there is a winner. -/
def Obligations.WinnerIsBest : Prop :=
  ∀ (s : State) (df : TableDef) (key : Digits) (banks : List Nat) (tags : List TagFault),
    let up := fun (b : Nat) => b ∈ banks ∧ s.bankDown b = false
    let first := fun (c : Cand) => ∃ b, up b ∧ s.firstMatch b (df.tid % 4096) df.units key (badRows tags b) = some c
    let before := fun (x y : Cand) => precedes df.cls (x.keyHi, x.keyLo, x.len) (y.keyHi, y.keyLo, y.len)
    let w := (s.winners false df key tags (s.activations false banks) (none, none)).1
    (∀ c, w = some c → first c ∧ up c.bank ∧ c.row ∉ badRows tags c.bank ∧
      (∃ tag, (c.row, tag) ∈ s.matchable c.bank (df.tid % 4096) ∧ tag.len = c.len ∧ tag.gen = c.gen) ∧
      s.rowHits c.bank df.units c.row key = true) ∧
    (∀ c, w = some c → (∀ x y z, first x → first y → first z → before x y = true → before y z = true → before x z = true) →
      ∀ c', first c' → before c' c = false) ∧
    (∀ b row tag, up b → (row, tag) ∈ s.matchable b (df.tid % 4096) → row ∉ badRows tags b → s.rowHits b df.units row key = true →
      w.isSome = true)


/-- R203, R204, R205, R208, R209, R210, R211, R212, R213, R214, R215, R216, R218, R219, R549: a data read that returns within its window
gives the lookup its winner's associated data, or DATA_LOST where it does not decode; and one still out when the window has ended is late.
360 strokes after dispatch a chained lookup is decided from its source. A source that misses gives a miss; one whose copies disagree gives
INTEGRITY; one whose data is late gives DATA_LOST; and one that gave its data in time lets the lookup go on to its own activation, or ends
it with what the view of its chain word found. A disagreement is decided in its stage from the reads of both winners. Where only one copy's
winner validates it is the lookup's winner with status MIRROR_DISAGREE, or DATA_LOST where its data is lost, and its stamp and increment
fall due; where neither does, the lookup ends with INTEGRITY and without a winner. Completes here: REAL_TIME_READ_RETURN, DATA_LATE,
CHAINED_PIPE_FRONT, MIRROR_VALIDATION. -/
def Obligations.DataChainsAndMirrors : Prop :=
  (∀ (s : State) (t : Nat) (f : Search) (d : Nat) (l : Look) (df : TableDef) (c : Cand), f.d = some d → l.reading = true →
    l.disagree = false → l.winner = some c → l.df = some df →
    let only := fun (s' : State) => s'.dram = s.dram ∧
      s' = ({ s with clock := (s.at t).clock, start := (s.at t).start, search := s'.search, pins := s'.pins, ring := s'.ring }).dramAs s'
    (∀ (i : Nat) (how : DramRead), s.search.flights.find? (fun g => g.id == f.id) = some f → f.looks[i]? = some l →
      d + (if descChain l.desc then 608 else 352) ≤ (s.at t).now → (s.at t).now ≤ d + windowEnd f.mode →
      let flights := fun (x : Look) =>
        s.search.flights.map (fun g => if g.id = f.id then { g with looks := g.looks.set i x } else g)
      (s.readEnd (adAddr c.len) how ≠ .uncorrectable → Answers (.realTimeReadReturn t f.id i how) s (fun s' => only s' ∧
        s'.search = { s.search with flights := flights { l with
          reading := false
          status := some 0
          data := (s.adFor c.len l.view).take df.adBytes } })) ∧
      (s.readEnd (adAddr c.len) how = .uncorrectable → Answers (.realTimeReadReturn t f.id i how) s (fun s' => only s' ∧
        s'.search = { s.search with flights := flights { l with reading := false, status := some 4 } } ∧
        s'.bit Fld.MEM_STATUS_uncorrectable = true))) ∧
    (s.search.flights = [f] → f.looks = [l] → f.resolved = true → f.assembled = none → d + windowEnd f.mode + 1 ≤ (s.at t).now →
      Answers (.dataLate t) s (fun s' => only s' ∧
        s'.search = { s.search with flights := [{ f with looks := [{ l with reading := false, status := some 4 }] }] }))) ∧
  (∀ (s : State) (t : Nat) (f : Search) (d : Nat) (src l : Look), s.search.flights = [f] → f.d = some d → f.resolved = true →
    f.status = none → f.assembled = none → d + 360 ≤ (s.at t).now → f.looks = [src, l] → descChain src.desc = false →
    descChain l.desc = true → descSrc l.desc = 0 → l.status = none → l.frontDone = false →
    let becomes := fun (x : Look) => Leaves (.chainedPipeFront t) s { s.at t with search := { s.search with
      flights := [{ f with looks := [src, x] }] } }
    let ends := fun (st : Nat) => becomes { l with status := some st, tid := 0, df := none }
    (src.status = some 1 → ends 1) ∧
    (∀ df, src.df = some df → (src.status = none ∨ src.status = some 0) →
      (src.disagree = true → src.winner ≠ none → df.direct = false → ends 3) ∧
      (src.disagree = false → (if df.direct then src.pre = some 0 else src.winner ≠ none ∧ src.pre = some 0 ∧ df.adBytes ≠ 0) →
        (∀ ldf, l.df = some ldf → becomes { l with frontDone := true }) ∧
        (l.df = none → l.pre = some 0xA → becomes { l with status := some 0xA }) ∧
        (l.df = none → l.pre = some 8 → Answers (.chainedPipeFront t) s (fun s' =>
          s'.search.flights = [{ f with looks := [src, { l with status := some 8 }] }]))) ∧
      (src.disagree = false → df.direct = false → src.winner ≠ none → df.adBytes = 0 → ends 0xB) ∧
      (src.disagree = false → df.direct = false → src.winner ≠ none → df.adBytes ≠ 0 → src.pre = none → ends 4))) ∧
  (∀ (s : State) (t : Nat) (f : Search) (d i : Nat) (l : Look) (df : TableDef) (v : MirrorReads), f.d = some d →
    s.search.flights.find? (fun g => g.id == f.id) = some f → f.looks[i]? = some l → l.disagree = true → l.status = none →
    l.df = some df → d + 1120 ≤ (s.at t).now → (s.at t).now < d + 1376 →
    let ok := fun (pass : Bool) (c : Cand) => s.validates df l.key pass (s.shadowBank c.bank c.row) c
    let none_ := fun (pass : Bool) (w : Option Cand) => ∀ c, w = some c → ok pass c = false
    let flights := fun (x : Look) =>
      s.search.flights.map (fun g => if g.id = f.id then { g with looks := g.looks.set i x } else g)
    let decided := fun (c : Cand) (lost : Bool) => Answers (.mirrorValidation t f.id i v) s (fun s' =>
      s'.search.flights = flights { l with
        status := some (if lost then 4 else 2), winner := some c, mirror := some c, reading := false
        data := if l.reading && !lost then (s.adFor c.len l.view).take df.adBytes else [] } ∧
      s'.counters.updates = queueUpdate ⟨c.len, c.gen, d + 1376⟩ s.counters.updates)
    (∀ p, l.winner = some p → ok v.primaryPass p = true → none_ v.mirrorPass l.mirror → decided p (l.reading && !v.primaryData)) ∧
    (∀ m, l.mirror = some m → ok v.mirrorPass m = true → none_ v.primaryPass l.winner → decided m (l.reading && !v.mirrorData)) ∧
    (none_ v.primaryPass l.winner → none_ v.mirrorPass l.mirror → Answers (.mirrorValidation t f.id i v) s (fun s' =>
      s'.search.flights = flights { l with status := some 3, winner := none, mirror := none, reading := false } ∧
      s'.counters = s.counters)))


/-- R26, R216, R218, R220, R222, R224, R289, R457, R527: at its stroke of assembly a search of one decided ternary lookup gets its result
record: its lookup's status, its winner's handle, and the data of a hit; a lookup of M3 that receives CORRECTED or SUSPECT is counted. A
result whose stroke has come leaves its search: to the lanes of the quay that sent the request, behind what the quay has, or to the COMPLETE
ring where its entries are reserved. Completes here: ASSEMBLY, RESULT_RELEASE. -/
def Obligations.ResultsAssembledAndReleased : Prop :=
  (∀ (s : State) (t : Nat) (f : Search) (d st : Nat) (l : Look) (df : TableDef), s.search.flights = [f] → f.d = some d →
    f.assembled = none → f.resolved = true → f.status = none → d + assemblyAt f ≤ (s.at t).now → f.looks = [l] →
    l.df = some df → df.direct = false → l.status = some st → l.reading = false → l.disagree = false → s.ring.launches = [] →
    let data := if st = 0 ∨ st = 2 then l.data else []
    let handle := match l.winner with
      | some c => s.handle c.gen c.len
      | none => 0
    let bytes := if f.mode = 7
      then resultM7 f.req.record (entryM7 st (handle % 2 ^ 24) (st == 0 && l.data.length == 32) ++ if st = 0 then l.data.take 16 else [])
      else resultRecord f.req.record st 1 f.ring (lookEntry st (sizeCode data.length) (descChain l.desc) false l.tid handle ++ data)
    let x := { s.at t with search := { s.search with flights := [{ f with assembled := some bytes }] } }
    Leaves (.assembly t) s (if f.mode = 3 ∧ st = 2 then x.bump Fld.ARY_INTEG_COUNT2_corrected
      else if f.mode = 3 ∧ st = 3 then x.bump Fld.ARY_INTEG_COUNT2_suspect else x)) ∧
  (∀ (s : State) (t : Nat) (f : Search) (bytes : Bytes), s.search.flights = [f] → f.assembled = some bytes → releaseAt f ≤ (s.at t).now →
    s.observe.sessions = [] →
    let x := { s.at t with search := { s.search with flights := [] } }
    (∀ q, f.req.src = .quay q → (s.link (.quay q)).up = true →
      let charge := quayCharge f.req.record
      let l := s.link (.quay q)
      Leaves (.resultRelease t) s { x.setLink (.quay q) { l with tx := l.tx ++ [⟨.result charge.1 charge.2, bytes, 0⟩] } with
        out := s.out ++ [.offered q bytes] }) ∧
    (∀ n, f.req.src = .hostRing n ∨ f.req.src = .window n →
      let r := ticketRing f.req.reply
      let y := s.hostRing r
      (s.function (ringFn r)).flr = false → s.host.linkUp = true → s.ticketHolds f.req.reply = true → reserveOf f.req.record ≤ y.reserved →
        Leaves (.resultRelease t) s (x.setRing r { y with writes := y.writes ++ [⟨.reply (reserveOf f.req.record), bytes⟩] })))


/-- R333, R335, R336, R340, R341, R342, R343: when a glyph image has been copied its checks decide. One that passes all takes its partition
in the half with more free granules and goes on loading; one that fails has its slot FAILED with the check's code, and the load's command
ends with LOAD_ERROR. A partition whose load has taken its strokes makes its set usable at the next boundary. Of the go of SCB_GLYPH_CTL: a
load from outside the host's DRAM region, or into a slot in use, has its result at once; else the image is copied and the slot is LOADING.
An unload of a set with open streams is refused, and of another waits for its boundary. Completes here: GLYPH_COPY_DONE,
PARTITION_LOAD_DONE, SCB_GLYPH_LOAD, SCB_GLYPH_UNLOAD. -/
def Obligations.GlyphSets : Prop :=
  (∀ (s : State) (t set : Nat),
    let g := s.glyph set
    (g.state = .loading → g.copying = true →
      let h := s.glyphHeader set
      let code := s.admitCheck set true
      let half := if s.granulesFree 0 < s.granulesFree 1 then 1 else 0
      let placed := { g with
        hotBytes := fieldLE h 16 4, patterns := fieldLE h 12 2, admitErr := 0, partLog2 := partitionLog2 (fieldLE h 16 4), half := half
        copying := false, loadEnd := 0 }
      (code = 0 → Answers (.glyphCopyDone t set) s (fun s' =>
        s'.glyph set = { placed with
          loadEnd := ((s.at t).setGlyph set placed).loaderFree half + (fieldLE h 16 4 + 255) / 256 } ∧
        (∀ n, n ≠ set → s'.glyph n = s.glyph n) ∧ s' = { s with
          clock := (s.at t).clock, start := (s.at t).start, scribes := { s.scribes with glyphs := s'.scribes.glyphs }, pins := s'.pins
          ring := s'.ring })) ∧
      (code ≠ 0 → Answers (.glyphCopyDone t set) s (fun s' => (s'.glyph set).state = .failed ∧ (s'.glyph set).admitErr = code ∧
        s'.bit Fld.SCB_STATUS_admit_fail = true ∧ (∀ n, n ≠ set → s'.glyph n = s.glyph n) ∧
        (∀ id, g.command = some id → s'.cmds.accepted = s.cmds.accepted.map (fun a =>
          if a.id = id then { a with
            result := some (0x18, 0, 0, 0, leBytes code 8), postAt := some (s.at t).dueTide, applied := true } else a))))) ∧
    ((g.state = .reloading ∨ (g.state = .loading ∧ g.copying = false)) → g.loadEnd ≤ (s.at t).now →
      s.due.any (fun d => d.change == Change.glyphReady set) = false →
      Leaves (.partitionLoadDone t set) s { s.at t with due := s.due ++ [⟨s.clock.grid + 1, .glyphReady set⟩] })) ∧
  (∀ (s : State) (t : Nat) (w : Word64) (x : State), Stores s t .SCB_GLYPH_CTL 0 w x → Fld.SCB_GLYPH_CTL_go.get w.toNat = 1 →
    s.cmdAuth = false → x.glyphBusy = false →
    let set := x.fld Fld.SCB_GLYPH_CTL_set
    let len := x.fld Fld.SCB_GLYPH_CTL_length
    let addr := x.fld Fld.SCB_GLYPH_ADDR_addr
    let result := fun (c : Instr) (n : Nat) => Leaves c s (x.setFld Fld.SCB_GLYPH_CTL_result n)
    (x.fld Fld.SCB_GLYPH_CTL_op = 1 →
      (dmaRange addr len = false → result (.scbGlyphLoad t 0 w) 2) ∧
      (dmaRange addr len = true → s.setBusy set = true → result (.scbGlyphLoad t 0 w) 1) ∧
      (dmaRange addr len = true → s.setBusy set = false → Leaves (.scbGlyphLoad t 0 w) s
        ({ x with dram := (s.dram.clear (glyphAddr set) 134217728).write (glyphAddr set) (s.dram.read addr (min len 134217728)) }.setGlyph set
          ⟨.loading, len, 0, 0, 0, 0, 0, true, none, none, true, 0⟩))) ∧
    (x.fld Fld.SCB_GLYPH_CTL_op = 2 →
      (s.setStreams set ≠ 0 → result (.scbGlyphUnload t 0 w) 1) ∧
      (s.setStreams set = 0 → Leaves (.scbGlyphUnload t 0 w) s { x.setFld Fld.SCB_GLYPH_CTL_result 0 with
        due := s.due ++ [⟨(s.at t).dueTide, .glyphUnload set⟩] })))

/-- R355, R356, R357, R358, R367, R368: the go of SCB_SCRIBE_CTL. A scribe that may go offline does so at the boundary that ends the next
tide; one that may not has the check's code as its result; and one put online is assignable from the boundary that R63 gives. At stroke 0
the one chunk that may be assigned goes to the first free scribe of its half for the next tide, its stream's state to be read, and leaves
the queue. Completes here: SCB_SCRIBE_OFFLINE, SCB_SCRIBE_ONLINE, CHUNK_ASSIGNMENT. -/
def Obligations.ScribesAssigned : Prop :=
  (∀ (s : State) (t : Nat) (w : Word64) (x : State), Stores s t .SCB_SCRIBE_CTL 0 w x → Fld.SCB_SCRIBE_CTL_go.get w.toNat = 1 →
    s.cmdAuth = false →
    let n := x.fld Fld.SCB_SCRIBE_CTL_scribe
    let y := fun (r : Nat) => x.setFld Fld.SCB_SCRIBE_CTL_result r
    s.domainDown (26 + n / 32) = false →
    (x.fld Fld.SCB_SCRIBE_CTL_op = 1 →
      (s.offlineCheck n ≠ 0 → Leaves (.scbScribeOffline t 0 w) s (y (s.offlineCheck n))) ∧
      (s.offlineCheck n = 0 → (s.scribe n).offlineAt = none → Leaves (.scbScribeOffline t 0 w) s
        ((y 0).setScribe n { s.scribe n with offlineAt := some (s.clock.grid + 2), onlineAt := none }))) ∧
    (x.fld Fld.SCB_SCRIBE_CTL_op = 2 → Leaves (.scbScribeOnline t 0 w) s
      ((y 0).setScribe n { s.scribe n with offlineAt := none, onlineAt := some (s.at t).dueTide }))) ∧
  (∀ (s : State) (c : Chunk) (x : Nat) (more : List Nat), s.clock.stroke = 0 → s.scribes.assignedAt ≠ some s.clock.grid →
    s.clockRuns = true → s.serving = true → s.awake = true → s.scribes.queue = [c] → s.candidates 0 = [c] → c.cls < 4 → c.set < 64 →
    (∀ v ∈ s.scribes.scribes.vals, v.work = []) →
    (s.activeNext 0).filter (fun y => (s.scribe y).online && (s.scribe y).assignFrom ≤ s.clock.grid && (s.scribe y).offlineAt.isNone &&
      !s.domainDown 26) = x :: more →
    Answers .chunkAssignment s (fun s' => s'.scribes.queue = [] ∧ s'.scribes.assignedAt = some s.clock.grid ∧
      s'.scribe x = { s.scribe x with work := [⟨{ c with credited := true }, s.clock.grid + 1, false, true, false, none⟩] } ∧
      (∀ y, y ≠ x → s'.scribe y = s.scribe y) ∧
      s' = { s with links := s'.links, host := s'.host, scribes := s'.scribes, memQueues := s'.memQueues, pins := s'.pins, ring := s'.ring }))

/-- R358, R362, R363, R364: the state of a chunk's stream is read in the tide before it runs. A read that returns is noted, with the check
of its bytes; one still out at the end of the tide sends its chunk back to the head of its stream. A chunk that has not completed in stroke
255 is faulted, its stream with it, and its scribe waits. The end of a chunk that wants an answer is reported to the carrier's quay; one
that asks for none and found nothing leaves without a record. Completes here: STREAM_STATE_READ_RETURN, STREAM_STATE_READ_LATE,
CHUNK_WATCHDOG, CHUNK_REPORT. -/
def Obligations.ChunksReadAndEnd : Prop :=
  (∀ (s : State) (t n : Nat) (a : Assigned), (s.scribe n).work = [a] → a.runTide = s.clock.grid + 1 → a.reading = true →
    let st := s.streamState a.chunk.stream
    let lost := fun (how : DramRead) => s.spanEnd (streamAddr a.chunk.stream) 64 how == DramEnd.uncorrectable
    (∀ how, Answers (.streamStateReadReturn t n how) s (fun s' =>
      s'.scribe n = { s.scribe n with work := [{ a with reading := false, badState := lost how || st != sealState st }] } ∧
      (∀ m, m ≠ n → s'.scribe m = s.scribe m) ∧ s'.scribes.queue = s.scribes.queue ∧ s'.dram = s.dram ∧
      s' = ({ s with clock := (s.at t).clock, start := (s.at t).start, scribes := s'.scribes, pins := s'.pins, ring := s'.ring }).dramAs s')) ∧
    Answers (.streamStateReadLate n) s (fun s' => (s'.scribe n).work = [] ∧ s'.scribes.queue = requeue a.chunk s.scribes.queue ∧
      (∀ m, m ≠ n → s'.scribe m = s.scribe m) ∧ s'.dram = s.dram ∧ s'.clock = (s.at 255).clock)) ∧
  (∀ (s : State) (x : Nat) (a : Assigned), (s.scribe x).work = [a] →
    let n := a.chunk.stream
    let rec_ := a.chunk.record
    (a.runTide = s.clock.grid → a.ended = none → Answers (.chunkWatchdog x) s (fun s' =>
      (∃ e, (s'.scribe x).work = [{ a with ended := some e }] ∧ e.status = 4 ∧ e.cause = 1 ∧ e.reported = []) ∧
      (s'.scribe x).assignFrom = s.clock.grid + 3 ∧ s'.bit Fld.SCB_STATUS_fault = true ∧
      s'.dram = ((s.at 255).spoil (streamAddr n) 64).dram.write (streamAddr n) (sealState
        (patch (s.streamState n) 11 (leBytes (setBit (byteAt (s.streamState n) 11) 1 true) 1))) ∧
      (∀ y, y ≠ x → s'.scribe y = s.scribe y))) ∧
    (∀ e q, a.ended = some e → a.runTide < s.clock.grid → e.reported = [] → e.found = 0 → a.chunk.src = .quay q → s.scribes.reports = [] →
      (e.status = 0 → (byteAt rec_ 1).testBit 3 = false → (byteAt rec_ 1).testBit 2 = false → e.ackAll = false →
        Answers (.chunkReport x) s (fun s' => (s'.scribe x).work = [] ∧ s'.scribes.reports = [] ∧ s'.out = s.out ∧ s'.links = s.links)) ∧
      (e.status ≠ 0 → e.dest = 0 → 12 ≤ rec_.length → s.quayRoom q 3 = true →
        Answers (.chunkReport x) s (fun s' => (s'.scribe x).work = [] ∧ s'.scribes.reports = [] ∧
          s'.out = s.out ++ [.offered q (chunkStatus rec_ e.status 0 e.cause 0 e.tide)]))))

/-- R329, R330, R331, R350, R358, R359, R360, R361: a chunk runs. A frozen stream's master, a failed state, a wrong berth or a set out of
the berth's mask, and a wrong sequence number end it without a match, in this order; else its bytes go through the automaton, and the
stream's state that is to be written in stroke 255 has the new offset, the next sequence number and the count of the matches reported.
Completes here: CHUNK_RUN. -/
def Obligations.ChunksRun : Prop :=
  ∀ (s : State) (t x : Nat) (a : Assigned), (s.scribe x).work = [a] → a.runTide = s.clock.grid → a.ended = none → a.reading = false →
    let n := a.chunk.stream
    let st := s.streamState n
    let rec_ := a.chunk.record
    let berth := fieldLE rec_ 12 2 % 16384
    let dest := fieldLE st 14 2
    let ends := fun (p : State → ChunkEnd → Prop) => Answers (.chunkRun t x) s (fun s' =>
      ∃ e, (s'.scribe x).work = [{ a with ended := some e }] ∧ e.tide = s.clock.count ∧ e.dest = dest / 16384 ∧ e.index = dest % 4096 ∧ p s' e)
    let bare := fun (status cause : Nat) (s' : State) (e : ChunkEnd) => e.status = status ∧ e.cause = cause ∧ e.reported = [] ∧ e.found = 0 ∧
      e.after = none ∧ s'.dram = s.dram
    ((s.at t).frozen (streamMaster n) = true → ends (bare 1 0)) ∧
    ((s.at t).frozen (streamMaster n) = false →
      (a.badState = true → ends (bare 4 2)) ∧
      (a.badState = false → (byteAt st 11).testBit 1 = true → ends (bare 4 3)) ∧
      (a.badState = false → (byteAt st 11).testBit 1 = false →
        (berth ≠ fieldLE st 12 2 % 16384 ∨ (s.berth berth).record.glyphMask.testBit a.chunk.set = false →
          ends (fun _ e => e.status = 6 ∧ e.reported = [] ∧ e.after = none)) ∧
        (berth = fieldLE st 12 2 % 16384 → (s.berth berth).record.glyphMask.testBit a.chunk.set = true →
          (fieldLE rec_ 8 4 ≠ fieldLE st 16 4 → ends (bare 3 0)) ∧
          (fieldLE rec_ 8 4 = fieldLE st 16 4 →
            let off := fieldLE st 4 6
            let len := fieldLE rec_ 2 2
            let r := walk (s.hotImage a.chunk.set) ((rec_.drop 16).take len) off (fieldLE st 0 4) ((st.drop 32).take 16) []
            let close := if (byteAt rec_ 1).testBit 2 = true ∧ 0 < off + len then
              ((Config.closing (s.hotImage a.chunk.set) r.1 r.2.1).foldr insertUp []).map (fun p => (off + len - 1, p % 32768, true)) else []
            let all := r.2.2 ++ close
            ends (fun s' e => e.status = 0 ∧ e.cause = 0 ∧ e.reported = all.take 64 ∧ e.found = all.length ∧ s'.dram = s.dram ∧
              ∃ new, e.after = some new ∧ fieldLE new 0 4 = r.1 % 2 ^ 32 ∧
                fieldLE new 4 6 = (off + len) % 2 ^ 48 ∧ fieldLE new 12 2 = fieldLE st 12 2 ∧
                fieldLE new 16 4 = (fieldLE st 16 4 + 1) % 2 ^ 32 ∧
                fieldLE new 24 8 = (fieldLE st 24 8 + e.reported.length) % 2 ^ 64)))))

/-- R414, R416, R420, R422, R440, R441, R442, R443, R446: the registers that forgive and thaw, and the boundary. A forgive of the selected
berth is pending for its boundary; a thaw is accepted for its boundary, and while cmd_auth is 1 it is refused; at a boundary every master
whose thaw is due is free again, or frozen anew where a violation has come since. An armed sensor's trip, and a debug token that opens
debug, zeroise the seal store; after a trip every domain but PD00 is held and ALERT_N is driven, until the hold ends in Recovery; and a
failed health test stops the generator. Completes here: BTH_FORGIVE, SEC_THAW, AUTO_THAW, TAMPER_TRIP, TAMPER_HOLD_END, ENTROPY_HEALTH_FAIL,
DEBUG_TOKEN. -/
def Obligations.FreezesAndSealStore : Prop :=
  (∀ (s : State) (t : Nat) (w : Word64),
    let b := s.fld Fld.BTH_SEL_berth 0
    let m := w.toNat % 2 ^ 32
    let grid := s.clock.grid
    ((s.at t).holds .BTH_SHAPER_CTL = false → (s.at t).served .BTH_SHAPER_CTL 0 = true → Fld.BTH_SHAPER_CTL_forgive.get w.toNat = 1 →
      s.cmdAuth = false → (s.berth b).forgivePending = false → Leaves (.bthForgive t 0 w) s
        { (s.at t).setBerth b { s.berth b with forgivePending := true } with due := s.due ++ [⟨(s.at t).dueTide, .forgive b⟩] }) ∧
    ((s.at t).served .SEC_THAW 0 = true → s.cmdAuth = false →
      (∀ f, (s.master m).freeze = some f → f.thawAccepted = none → Leaves (.secThaw t 0 w) s ((s.at t).setMaster m { s.master m with
        freeze := some { f with thawAccepted := some ((s.at t).dueTide, (s.at t).now, 2) } })) ∧
      ((s.master m).freeze = none → Leaves (.secThaw t 0 w) s (s.at t))) ∧
    ((s.at t).served .SEC_THAW 0 = true → s.cmdAuth = true → Answers (.secThaw t 0 w) s (fun s' =>
      s'.bit Fld.SEC_STATUS_thaw_refused = true ∧ s'.masters = s.masters ∧ s'.due = s.due)) ∧
    (s.clock.stroke = 0 → Answers .autoThaw s (fun s' => ∀ n,
      ((s.master n).freeze = none → s'.master n = s.master n) ∧
      (∀ f, (s.master n).freeze = some f →
        let ends := f.thawAt = some grid ∨ ∃ a, f.thawAccepted = some a ∧ a.1 ≤ grid
        (¬ ends → s'.master n = s.master n) ∧
        (ends → f.again = none → s'.master n = { s.master n with freeze := none }) ∧
        (∀ p, ends → f.again = some p → ∃ f', (s'.master n).freeze = some f' ∧ f'.cause = p.1 ∧ f'.since = grid ∧ f'.fromStroke = s.now ∧
          f'.again = none))))) ∧
  (∀ (s : State) (t : Nat),
    let zeroised := fun (s' : State) => s'.security.keys = [] ∧ s'.security.rootKeys = false ∧ s'.security.sessions = [] ∧
      s'.security.bootNonce = 0 ∧ s'.security.kek = zeros 32 ∧ s'.security.transport = 0
    (∀ causes : Nat, s.power.vddAon = true → s.armed causes ≠ 0 → Answers (.tamperTrip t causes) s (fun s' => zeroised s' ∧
      s'.power.tamperHold = true ∧ s'.pins.alert = true ∧ s'.security.tamperCause = s.armed causes ∧
      s'.security.tamperEvents = min 65535 (s.security.tamperEvents + 1) ∧ s'.bit Fld.PWR_RESET_CAUSE_tamper = true ∧
      s'.fuses = s.fuses ∧ s'.tables = State.reset.tables ∧ s'.dram = [] ∧ s'.search = State.reset.search ∧ s'.cmds = State.reset.cmds)) ∧
    (s.power.tamperHold = true → s.power.railsValid = true → Answers .tamperHoldEnd s (fun s' => s'.power.tamperHold = false ∧
      s'.boot.stage = 14 ∧ s'.bit Fld.SEC_STATUS_tamper_seen = true ∧ s'.security.rootKeys = true ∧ s'.security.keys = s.security.keys)) ∧
    (s.security.rootKeys = true → Answers (.entropyHealthFail t) s (fun s' => s'.security = { s.security with drbgFailed := true } ∧
      s'.bit Fld.SEC_STATUS_drbg_fail = true)) ∧
    (∀ key sig, s.fuses.lifeCycle = 3 → s.security.debugOpen = false → s.debugTokenOk key sig = true →
      Answers (.debugToken t key sig) s (fun s' => zeroised s' ∧
      s'.security.debugOpen = true ∧ s'.fuses = s.fuses)))

/-- R445, R630, R642: the TAP. A public instruction is in force whenever it is loaded; a boundary-scan instruction only in Recovery or a
halt, and a debug instruction only while the TAP is not restricted, else BYPASS; and a test-logic reset sets its status bit and returns the
instruction register to IDCODE. Each read of the SMBus target returns its bytes while VDD_AON is up, and changes nothing else: the
identification register, the state byte, the hottest die reading, the reading of each stack that is on, and bits 63 to 48 of SEC_TAMPER_LOG.
Completes here: TAP_INSTRUCTION, TAP_TEST_LOGIC_RESET, GET_IDENT, GET_STATE, GET_DIE_TEMP, GET_STACK_TEMP, GET_TAMPER. -/
def Obligations.TapAndSmbus : Prop :=
  (∀ (s : State), s.power.vddAon = true →
    (∀ ir : Nat,
      let kind := Config.tapKind (ir % 256)
      let halted := s.boot.stage = 14 ∨ s.boot.stage = 15
      let free := s.security.debugOpen = true ∨ (s.boot.device.debugLock = false ∧ s.serving = true)
      Answers (.tapInstruction ir) s (fun s' =>
        s'.service.tapIr = (if kind = 0 ∨ (kind = 1 ∧ halted) ∨ (kind = 2 ∧ free) then ir % 256 else 0xFF) ∧
        s' = { s with service := { s.service with tapIr := s'.service.tapIr }, pins := s'.pins, ring := s'.ring })) ∧
    Answers .tapTestLogicReset s (fun s' => s'.bit Fld.TST_TAP_STATUS_tap_reset = true ∧ s'.service.tapIr = Config.tapIdcode % 256 ∧
      s' = { s with regs := s'.regs, setAt := s'.setAt, setBits := s'.setBits, service := s'.service, pins := s'.pins, ring := s'.ring })) ∧
  (∀ (s : State), s.power.vddAon = true →
    let answers := fun (c : Instr) (bs : Bytes) => Leaves c s { s with out := s.out ++ [.smbus bs] }
    let stack := fun (n : Nat) => if s.domainStatus (28 + n) = 1 then BitVec.ofNat 8 (twos (s.stack n).temp 8) else BitVec.ofNat 8 0xFF
    answers .getIdent (leBytes (s.word .GLB_IDENT 0) 8) ∧
    answers .getState [BitVec.ofNat 8 (s.power.state % 8 + 8 * b2n s.serving + 16 * b2n s.power.tamperHold + 32 * b2n s.power.halted +
      64 * b2n s.pins.alert)] ∧
    answers .getDieTemp (leBytes (twos (hottest s.service.dieTemps).1 16) 2) ∧
    answers .getStackTemp [stack 0, stack 1] ∧
    answers .getTamper (leBytes s.security.tamperEvents 2))

/-- R448, R474, R475, R476, R482: bring-up. All lanes locked lead from TRAIN to ALIGN, codeword lock from ALIGN to INIT, INIT and INIT_DONE
once sent and received to UP, where sequences, counts and limits start at 0 and the limits rise to the pool sizes while the device serves.
Nothing else changes but what settles with every command. Setting enable of QUY_CTL on a quay that is OFF starts its training in the widest
block of usable lanes; clearing it turns the quay OFF; and a reset clears its retired lanes and its counts, and brings a FAILED quay up
again. Completes here: LANE_LOCK, CODEWORD_LOCK, INIT, INIT_DONE, QUY_ENABLE, QUY_RESET. -/
def Obligations.LinkBringUpAndControl : Prop :=
  (∀ (s : State) (t : Nat) (p : Port), s.hasPort p = true →
    let only := fun s' => s' = { s with clock := (s.at t).clock, start := (s.at t).start, links := s'.links, pins := s'.pins, ring := s'.ring }
    let upNow := fun s' => (s'.link p).state = .up ∧ (s'.link p).rxExpect = 0 ∧ (s'.link p).txNext = 0 ∧ (s'.link p).replay = [] ∧
      (s'.link p).limits = (if s.serving then (s.link p).poolSize else (s.link p).poolSize.map (fun _ => 0)) ∧
      (s'.link p).charged = (s.link p).poolSize.map (fun _ => 0) ∧ (s'.link p).lastFrame = (s.at t).now
    ((s.link p).state = .train → Answers (.laneLock t p) s (fun s' => (s'.link p).state = .align ∧
      (s'.link p).lanes.length = (s.link p).lanes.length ∧
      (∀ i x, (s.link p).lo ≤ i → i < (s.link p).lo + (s.link p).width → (s'.link p).lanes[i]? = some x →
        x.locked = true ∧ x.retraining = false) ∧ only s')) ∧
    ((s.link p).state = .align → Answers (.codewordLock t p) s (fun s' =>
      (s'.link p).state = .initing ∧ (s'.link p).initSent = true ∧ (s'.link p).doneSent = false ∧ (s'.link p).doneSeen = false ∧
      only s')) ∧
    (∀ width, (s.link p).state = .initing → Answers (.init t p width) s (fun s' =>
      ((s.link p).doneSeen = false → (s'.link p).state = .initing ∧ (s'.link p).doneSent = true) ∧
      ((s.link p).doneSeen = true → upNow s') ∧ only s')) ∧
    ((s.link p).state = .initing → Answers (.initDone t p) s (fun s' =>
      ((s.link p).doneSent = false → (s'.link p).state = .initing ∧ (s'.link p).doneSeen = true) ∧
      ((s.link p).doneSent = true → upNow s') ∧ only s'))) ∧
  (∀ (s : State) (t q : Nat) (w : Word64) (x : State), s.fld Fld.QUY_SEL_lquay 0 = q → s.hasPort (.quay q) = true →
    Stores s t .QUY_CTL q w x → Fld.QUY_CTL_retrain.get w.toNat = 0 →
    let l := s.link (.quay q)
    (Fld.QUY_CTL_reset.get w.toNat = 0 →
      (∀ lo n, s.bit Fld.QUY_CTL_enable q = false → x.bit Fld.QUY_CTL_enable q = true → l.state = .off → l.choose = some (lo, n) →
        Leaves (.quyEnable t 0 w) s (x.setLink (.quay q) { l with
          state := .train, lo := lo, width := n, since := (s.at t).now
          lanes := l.lanes.map (fun (y : Lane) => { y with locked := false, retraining := false }) })) ∧
      (s.bit Fld.QUY_CTL_enable q = true → x.bit Fld.QUY_CTL_enable q = false → Answers (.quyEnable t 0 w) s (fun s' =>
        (s'.link (.quay q)).state = .off ∧ (s'.link (.quay q)).width = 0))) ∧
    (Fld.QUY_CTL_reset.get w.toNat = 1 → x.bit Fld.QUY_CTL_enable q = s.bit Fld.QUY_CTL_enable q →
      Answers (.quyReset t 0 w) s (fun s' =>
        (∀ y ∈ (s'.link (.quay q)).lanes, y.retired = false) ∧ s'.fld Fld.QUY_ERR_COUNT_crc_fail q = 0 ∧
        s'.fld Fld.QUY_CORR_COUNT_corrected q = 0 ∧
        (l.state = .failed → (s'.link (.quay q)).state = .train ∨ (s'.link (.quay q)).state = .failed))))

/-- R474, R475, R477, R478, R479, R480, R481: bring-up and liveness that time out, and a retrain that the host commands, take the link down.
Its session ends, it keeps its secondary records, a quay that was UP sets went_down, and it begins training in the widest block of its
usable lanes, or fails where there is none. A lane that loses lock, passes the error limit or is reported bad is given up for the half of
the lanes without it and is retrained; a lane that does not lock in TRAIN is retrained once and then retired; a WIDTH that is acknowledged
waits for the codeword it names, and a lane that has locked again leads to a WIDTH to the widest block. Completes here: ALIGN_TIMEOUT,
INIT_TIMEOUT, LIVENESS_TIMEOUT, QUY_RETRAIN, LANE_LOSS_OF_LOCK, SER_LIMIT_EXCEEDED, LANE_BAD, LANE_LOCK_TIMEOUT, WIDTH_ACK, RETRAIN_LOCK. -/
def Obligations.LanesAndLinksGoDown : Prop :=
  (∀ (s : State) (t : Nat) (p : Port),
    let l := s.link p
    let now := (s.at t).now
    let down := fun (s' : State) =>
      (s'.link p).state = (if l.choose.isSome = true then .train else .failed) ∧ (s'.link p).rxExpect = 0 ∧ (s'.link p).txNext = 0 ∧
      (s'.link p).replay = [] ∧ (s'.link p).widthTo = none ∧
      ((∀ r ∈ l.tx, ∀ a b i j, r.kind ≠ .redirect a b i j) → (s'.link p).tx = keptSecondary l.tx) ∧
      (∀ lo w, l.choose = some (lo, w) → (s'.link p).lo = lo ∧ (s'.link p).width = w) ∧
      (∀ q, p = .quay q → (s'.fld Fld.FLT_STATUS_pending).testBit 1 = true ∧ (l.up = true → s'.bit Fld.QUY_STATUS_went_down q = true))
    (l.state = .align → l.since + 1500000 ≤ now → Answers (.alignTimeout t p) s down) ∧
    (l.state = .initing → l.since + 1500000 ≤ now → Answers (.initTimeout t p) s down) ∧
    (l.up = true → l.lastFrame + 1500000 ≤ now → Answers (.livenessTimeout t p) s down) ∧
    (∀ f rest, l.up = true → l.replay = f :: rest → f.sentAt + 512 ≤ now → 16 ≤ f.replays → Answers (.replayTimeout t p) s down) ∧
    (∀ (q : Nat) (w : Word64) (x : State), p = .quay q → s.fld Fld.QUY_SEL_lquay 0 = q → s.hasPort p = true → Stores s t .QUY_CTL q w x →
      x.bit Fld.QUY_CTL_enable q = s.bit Fld.QUY_CTL_enable q → Fld.QUY_CTL_reset.get w.toNat = 0 → Fld.QUY_CTL_retrain.get w.toNat = 1 →
      l.state ≠ .off → l.state ≠ .failed → Answers (.quyRetrain t 0 w) s down)) ∧
  (∀ (s : State) (t lane : Nat) (p : Port) (x : Lane), s.hasPort p = true →
    let l := s.link p
    let now := (s.at t).now
    let idx := lane - l.laneBase
    l.lane lane = some x →
    (l.up = true → l.widthTo = none → l.lo ≤ idx → idx < l.lo + l.width →
      let half := l.width / 2
      let lo := if idx < l.lo + half then l.lo + half else l.lo
      half ≠ 0 → l.minWidth ≤ half → l.blockUsable lo half = true →
      ∀ c ∈ [Instr.laneLossOfLock t p lane, Instr.serLimitExceeded t p lane, Instr.laneBad t p (idx - l.lo)],
        Answers c s (fun s' => (s'.link p).widthTo = some (lo, half, (l.cwNum + 16) % 65536) ∧
          (s'.link p).lane lane = some { x with locked := false, retraining := true, retrains := min 63 (x.retrains + 1), since := now } ∧
          (s'.link p).width = l.width ∧ (s'.link p).state = .up ∧
          s' = { s with clock := (s.at t).clock, start := (s.at t).start, links := s'.links, pins := s'.pins, ring := s'.ring })) ∧
    (x.retired = false → x.locked = false →
      (l.state = .train → x.retraining = false → l.since + 7500000 ≤ now → Answers (.laneLockTimeout t p lane) s (fun s' =>
        (s'.link p).lane lane = some { x with retraining := true, retrains := min 63 (x.retrains + 1), since := now } ∧
          (s'.link p).state = .train)) ∧
      (l.state = .train → x.retraining = true → x.since + 7500000 ≤ now → Answers (.laneLockTimeout t p lane) s (fun s' =>
        ∃ y, (s'.link p).lane lane = some y ∧ y.retired = true)) ∧
      (l.up = true → x.retraining = true → x.since + 7500000 ≤ now → Answers (.laneLockTimeout t p lane) s (fun s' =>
        (s'.link p).lane lane = some { x with locked := false, retired := true, retraining := false } ∧ (s'.link p).state = .up))) ∧
    (∀ lo w cw, l.up = true → l.widthTo = some (lo, w, cw) → Leaves (.widthAck t p) s ((s.at t).setLink p { l with widthAcked := true })) ∧
    (l.up = true → x.retraining = true → now ≤ x.since + 7500000 →
      let l1 := l.mapLane lane (fun y => { y with locked := true, retraining := false })
      let l2 := l1.forceWidth
      (l1.retraining = true → Leaves (.retrainLock t p lane) s ((s.at t).setLink p l1)) ∧
      (∀ lo w, l1.retraining = false → l2.choose = some (lo, w) → (w ≠ l2.width ∨ lo ≠ l2.lo) →
        Leaves (.retrainLock t p lane) s ((s.at t).setWidth p
          { l2 with widthTo := some (lo, w, (l2.cwNum + 16) % 65536), widthAcked := false }))))

/-- R453, R454, R455, R456, R457, R458, R459, R460, R461: frames in. A codeword that does not decode, or a frame whose check fails, is
answered with nak; a passing frame is taken for its ack and its limit; a DATA frame beyond the sequence is answered with nak, one before it
is dropped, and the next in sequence is taken with the record that it ends. Completes here: FRAME_RECEIVE. -/
def Obligations.FramesReceived : Prop :=
  ∀ (s : State) (t : Nat) (p : Port) (f : Bytes), s.hasPort p = true → (s.link p).up = true → f.length = 320 →
    let l := s.link p
    let now := (s.at t).now
    let ok := crc32 (f.take 316) = fieldLE f 316 4
    let b := byteAt f 6
    let heard := { l.acked (fieldLE f 3 3) with
      lastFrame := now, peerLimit := if b / 8 % 8 = 0 then fieldLE f 8 2 else l.peerLimit }
    (∀ errors, 15 < errors ∨ ¬ ok → Answers (.frameReceive t p errors f) s (fun s' => s'.link p = { l with nak := true })) ∧
    (∀ errors, errors ≤ 15 → ok → b.testBit 2 = false →
      let x := match p with
        | .quay q => if errors = 0 then s.at t else (s.at t).bump Fld.QUY_CORR_COUNT_corrected errors q
        | _ => s.at t
      let noted := fun (y : State) => y.raiseQuay p Fld.QUY_STATUS_replay
      (b % 4 ≠ 1 → Leaves (.frameReceive t p errors f) s (x.setLink p heard)) ∧
      (b % 4 = 1 → fieldLE f 0 3 ≠ l.rxExpect → frameBelow (fieldLE f 0 3) l.rxExpect = false →
        Leaves (.frameReceive t p errors f) s (x.setLink p { heard with nak := true })) ∧
      (b % 4 = 1 → fieldLE f 0 3 ≠ l.rxExpect → frameBelow (fieldLE f 0 3) l.rxExpect = true →
        Leaves (.frameReceive t p errors f) s (noted (x.setLink p heard))) ∧
      (∀ (q : Nat) (l3 : Link) (rec : Bytes), p = .quay q → b % 4 = 1 → fieldLE f 0 3 = l.rxExpect →
        heard.excess f = false → heard.delimit p f = (l3, [(rec, false)]) →
        let y := x.setLink p { l3 with rxExpect := (l.rxExpect + 1) % 2 ^ 24, nak := false }
        Leaves (.frameReceive t p errors f) s ((if l.nak then noted y else y).quayRecord q rec false)))

/-- R449, R451, R453, R454, R461, R462: codewords out. A link with nothing to send fills its two frames with IDLE; a result is put in a DATA
frame with its start bit and leaves the buffer, its frame is kept for replay, and its credit returns; and frames not acknowledged for 512
strokes are sent again, two to a codeword, under the codeword numbers that follow. From the data bits of any codeword, scrambled as they
are, a receiver takes its number, its width code and the bits of its two frames. Completes here: FRAME_TRANSMIT, REPLAY_TIMEOUT. -/
def Obligations.CodewordsSent : Prop :=
  (∀ (s : State) (t : Nat) (p : Port), s.hasPort p = true → (s.link p).up = true → (s.link p).ctl = [] → (s.link p).widthTo = none →
    s.scribes.reports = [] → s.observe.buffer = [] → (s.at t).intakeStopped = false →
    let l := s.link p
    let turn := fun (x : Link) => { x with rotation := (x.rotation + 1) % 6 }
    let word := fun (f0 f1 : Bytes) => s.out ++ [Emit.codeword p l.cwNum (widthCode l.width) f0 f1]
    (l.tx = [] → Leaves (.frameTransmit t p) s { (s.at t).setLink p { turn (turn l) with cwNum := (l.cwNum + 1) % 65536 } with
      out := word (l.frame 0 l.txNext 0 []) ((turn l).frame 0 l.txNext 0 []) }) ∧
    (∀ (r : TxRecord) (pool words k : Nat), l.tx = [r] → r.kind = .result pool words → r.sent = 0 → r.bytes.length = 8 * k → 1 ≤ k → k ≤ 37 →
      l.replay.length < l.replayPart → Answers (.frameTransmit t p) s (fun s' =>
        let f := (l.returnCredit pool words).frame 1 l.txNext 1 r.bytes
        (s'.link p).tx = [] ∧ (s'.link p).txNext = (l.txNext + 1) % 2 ^ 24 ∧
        (s'.link p).replay = l.replay ++ [⟨l.txNext, f, (s.at t).now, 0⟩] ∧
        (s'.link p).limits = (l.returnCredit pool words).limits ∧ ∃ f1, s'.out = word f f1)) ∧
    (∀ f rest, l.replay = f :: rest → f.sentAt + 512 ≤ (s.at t).now → (∀ g ∈ l.replay, g.replays < 16) →
      Answers (.replayTimeout t p) s (fun s' => (s'.link p).replayFrom = some (f.seq, (s.at t).now) ∧ (s'.link p).state = .up ∧
        (s'.link p).replay = l.replay.map (fun g => if frameBelow g.seq f.seq = true then g else { g with
          sentAt := (s.at t).now, replays := g.replays + 1 }) ∧
        (∀ q, p = .quay q → s'.bit Fld.QUY_STATUS_replay q = true) ∧
        let n := ((l.replay.filter (fun g => !frameBelow g.seq f.seq)).length + 1) / 2
        (s'.link p).cwNum = (l.cwNum + n) % 65536 ∧
        ∃ es : List Emit, s'.out = s.out ++ es ∧ es.length = n ∧ ∀ e ∈ es, ∃ num f0 f1, e = .codeword p num (widthCode l.width) f0 f1))) ∧
  (∀ (num width : Nat) (f0 f1 : Bytes),
    codewordRead (codewordData num width f0 f1) = (num % 65536, width % 4, leNat (f0 ++ f1)))

/-- R486, R491, R492, R493, R494, R495, R497, R498: a ring lookup at its origin. Its record goes out in its stroke on the east port; the
record that comes back in time is merged and its credit returned; and a lookup whose record has not come back when assembly begins stands as
it was launched. Of ring search records at a member, one of an epoch that counts this member is queued for its search, with one hop more;
one of another epoch passes through, to leave 48 strokes later; one of a member that is not counted, or with 7 hops, is discarded; and a
record that is ready leaves on the east port with its credit returned. Completes here: RING_RECORD_LAUNCH, RING_SEARCH_RECORD,
RING_RECORD_LATE, RING_RECORD_FORWARD. -/
def Obligations.RingLookups : Prop :=
  (∀ (s : State) (t : Nat) (x : Launch), s.ring.launches = [x] →
    let ring := fun (s' : State) (y : Launch) => s'.ring.launches = [y] ∧ s'.ring.epoch = s.ring.epoch ∧ s'.ring.queue = s.ring.queue
    (x.sent = false → x.at_ ≤ (s.at t).now → s.links.east.up = true → Answers (.ringRecordLaunch t) s (fun s' =>
      ring s' { x with sent := true } ∧ s'.links = { s.links with east := { s.links.east with
        tx := s.links.east.tx ++ [⟨.secondary, x.own, 0⟩] } } ∧ s'.search = s.search)) ∧
    (∀ bs : Bytes, s.power.state = 0 → byteAt bs 0 = 0x18 → bs.length = 64 → s.ring.gatesOpen = true → s.links.west.up = true →
      byteAt bs 1 / 4 % 8 = s.member → fieldLE bs 8 4 = x.tag → x.sent = true → x.merged = none →
      (s.at t).pastMerge x 1 = false → Answers (.ringSearchRecord t bs) s (fun s' => ring s' { x with merged := some bs } ∧
        s'.links = { s.links with west := (s.links.west.charge 0 8).returnCredit 0 8 } ∧ s'.search = s.search)) ∧
    (∀ f, x.merged = none → f ∈ s.search.flights → f.id = x.search → f.reached (s.at t).now (assemblyAt f) = true →
      Leaves (.ringRecordLate t) s { s.at t with ring := { s.ring with launches := [{ x with merged := some x.own }] } })) ∧
  (∀ (s : State) (t : Nat),
    let now := (s.at t).now
    (∀ bs : Bytes, s.power.state = 0 → byteAt bs 0 = 0x18 → bs.length = 64 → s.ring.gatesOpen = true → s.links.west.up = true →
      byteAt bs 1 / 4 % 8 ≠ s.member →
      let hops := byteAt bs 1 / 32 % 8
      let bs1 := setByte bs 1 (byteAt bs 1 + 32)
      let r : RingRec := ⟨bs1, now, none, false, none, 0, [], false, none, none, false, false, none⟩
      (hops ≠ 7 → s.counted (byteAt bs 1 / 4 % 8) = true →
        (s.searchable bs1 = true → Answers (.ringSearchRecord t bs) s (fun s' => s'.ring.queue = s.ring.queue ++ [r] ∧
          s'.links = { s.links with west := s.links.west.charge 0 8 })) ∧
        (s.searchable bs1 = false → Answers (.ringSearchRecord t bs) s (fun s' =>
          s'.ring.queue = s.ring.queue ++ [{ r with passThrough := true, sendAt := some (now + 48) }] ∧
          s'.links = { s.links with west := s.links.west.charge 0 8 }))) ∧
      (hops = 7 ∨ s.counted (byteAt bs 1 / 4 % 8) = false → Answers (.ringSearchRecord t bs) s (fun s' => s'.ring.queue = s.ring.queue ∧
        s'.links = { s.links with west := (s.links.west.charge 0 8).returnCredit 0 8 }))) ∧
    (∀ r, s.ring.queue = [r] → r.ready now = true → s.links.east.up = true → Leaves (.ringRecordForward t) s { s.at t with
      ring := { s.ring with queue := [] }
      links := { s.links with
        east := { s.links.east with tx := s.links.east.tx ++ [⟨.secondary, r.bytes, 0⟩] }
        west := s.links.west.returnCredit 0 8 } }))

/-- R500, R501, R502, R503, R504: the census. The leader launches a probe in the tides of even count; a probe of another member goes on with
this member's bits, or stops at one of a lower number with a probe of its own; a probe that comes back with other members than the epoch's
leads to a commit; a commit of a later epoch is taken at the next boundary and goes on; after 4 tides of silence a force probe is launched,
and after 4 more the member enters its solo epoch. Completes here: CENSUS_PROBE_LAUNCH, CENSUS, CENSUS_TIMEOUT, FORCE_PROBE_TIMEOUT. -/
def Obligations.RingCensus : Prop :=
  ∀ (s : State) (t : Nat),
    let east := fun (s' : State) (m : Bytes) => s'.links.east = { s.links.east with ctl := s.links.east.ctl ++ [m] }
    let e := s.ring.epoch
    s.ring.gatesOpen = true → s.links.east.up = true →
    (s.clock.stroke = 0 → s.clock.count % 2 = 0 → s.leader = true → Answers .censusProbeLaunch s (fun s' =>
      s'.ring.probe = some s.clock.grid ∧ s'.ring.forced = s.ring.forced ∧
      east s' (censusMessage false false s.member e.number 0 0))) ∧
    (∀ m : Bytes, byteAt m 0 = 6 → s.links.west.up = true →
      let launcher := byteAt m 1 / 4 % 8
      let force := (byteAt m 1).testBit 1
      let present := byteAt m 4
      let weight2 := byteAt m 5
      ((byteAt m 1).testBit 0 = false → launcher ≠ s.member → (s.ring.probe = none ∧ s.ring.forced = none) ∨ launcher < s.member →
        Answers (.census t m) s (fun s' => s'.ring.lastCensus = s.clock.grid ∧ s'.ring.probe = s.ring.probe ∧ s'.ring.epoch = e ∧
        east s' (censusMessage false force launcher (fieldLE m 2 2) (present ||| s.ownBits.1) (weight2 ||| s.ownBits.2)))) ∧
      ((byteAt m 1).testBit 0 = false → s.member < launcher → s.ring.probe ≠ none ∨ s.ring.forced ≠ none →
        Leaves (.census t m) s { s.at t with ring := { s.ring with lastCensus := s.clock.grid } }) ∧
      ((byteAt m 1).testBit 0 = false → launcher = s.member →
        force = true ∨ present ||| s.ownBits.1 ≠ e.present ∨ weight2 ||| s.ownBits.2 ≠ e.weight2 → Answers (.census t m) s (fun s' =>
          let new : Epoch := ⟨(e.number + 1) % 65536, present ||| s.ownBits.1, weight2 ||| s.ownBits.2⟩
          s'.ring.commit = some new ∧ (force = false → s'.ring.probe = none) ∧ (force = true → s'.ring.forced = none) ∧
          east s' (censusMessage true false s.member new.number new.present new.weight2))) ∧
      ((byteAt m 1).testBit 0 = true → launcher ≠ s.member → epochLater (fieldLE m 2 2) e.number = true →
        (∀ other, s.ring.lastCommit = some (fieldLE m 2 2, other) → launcher < other) →
        Answers (.census t m) s (fun s' => s'.ring.epochNext = some ⟨fieldLE m 2 2, present, weight2⟩ ∧
          s'.ring.lastCommit = some (fieldLE m 2 2, launcher) ∧ s'.ring.epoch = e ∧ east s' m)) ∧
      (∀ c, (byteAt m 1).testBit 0 = true → launcher = s.member → s.ring.commit = some c → c.number = fieldLE m 2 2 →
        Answers (.census t m) s (fun s' => s'.ring.commit = none ∧ s'.ring.epoch = e ∧
          s'.ring.epochNext = (if epochLater c.number e.number = true ∧ s.ring.lastCommit = some (c.number, s.member)
            then some ⟨c.number, present, weight2⟩ else s.ring.epochNext)))) ∧
    (s.ring.lastCensus + 4 ≤ s.clock.grid → s.ring.forced = none → Answers (.censusTimeout t) s (fun s' =>
      s'.ring.forced = some s.clock.grid ∧ s'.bit Fld.RNG_STATUS_census_timeout = true ∧
      east s' (censusMessage false true s.member e.number 0 0))) ∧
    (∀ g, s.ring.forced = some g → g + 4 ≤ s.clock.grid → s.ring.solo = false → s.gatesWanted = true → Answers (.forceProbeTimeout t) s (fun s' =>
      s'.ring.forced = none ∧ s'.ring.soloNext = some 3))

/-- R508, R509, R510: joining and leaving. A join of an enabled ring opens the lock gates where the other conditions for it hold and starts
the training of both ports; a leave launches a commit without this member, and when it has come back, or after 4 tides, the records that
wait pass through and the ports are turned off. Completes here: RNG_JOIN, RNG_LEAVE, LEAVE_COMPLETE. -/
def Obligations.RingMembership : Prop :=
  ∀ (s : State) (t : Nat),
    (∀ (w : Word64) (x : State), Stores s t .RNG_CTL 0 w x →
      (Fld.RNG_CTL_join.get w.toNat = 1 → Fld.RNG_CTL_leave.get w.toNat = 0 → s.links.record.ringEnable = true → s.ring.joined = false →
        Answers (.rngJoin t 0 w) s (fun s' => s'.ring.joined = true ∧ s'.ring.leaving = none ∧ s'.ring.lastCensus = s.clock.grid ∧
          (s'.ring.gatesOpen = true ↔ s'.gatesWanted = true) ∧
          (s'.ring.gatesOpen = true → s.links.east.state = .off → s.links.west.state = .off →
            (s'.links.east.state = .train ∨ s'.links.east.state = .failed) ∧
            (s'.links.west.state = .train ∨ s'.links.west.state = .failed)))) ∧
      (Fld.RNG_CTL_join.get w.toNat = 0 → Fld.RNG_CTL_leave.get w.toNat = 1 → s.ring.joined = true → s.ring.leaving = none →
        Answers (.rngLeave t 0 w) s (fun s' => s'.ring.leaving = some s.clock.grid ∧ ∃ e, s'.ring.commit = some e ∧
          e.number = (s.ring.epoch.number + 1) % 65536 ∧ e.present.testBit s.member = false))) ∧
    (∀ g, s.ring.leaving = some g → s.ring.commit = none ∨ g + 4 ≤ s.clock.grid → s.links.record.ringEnable = true →
      Answers (.leaveComplete t) s (fun s' => s'.ring.joined = false ∧ s'.ring.leaving = none ∧ s'.ring.queue = [] ∧
        s'.ring.gatesOpen = false ∧ s'.pins.lgHoldE = false ∧ s'.links.east.state = .off ∧ s'.links.west.state = .off))

/-- R520, R521, R522, R527, R530, R531: rings. A doorbell in range moves the host's index, and arms a ring of the device; one out of range
puts the ring in ERROR; an enable makes a DISABLED ring ACTIVE with both indices 0, and a reset disables it. The oldest record that waits
for a ring with room is written: its data, from the device's index on, then the write-back word with the index beyond it, and the vector
last, in the stroke after, where the ring is armed for it. Completes here: DOORBELL, HST_RING_ENABLE, HST_RING_RESET, HOST_RING_WRITE. -/
def Obligations.HostRings : Prop :=
  (∀ (s : State) (t : Nat),
    (∀ (fn slot : Nat) (data : Bytes),
      let r := 16 * fn + slot
      let x := s.hostRing r
      let idx := fieldLE data 0 4
      (s.at t).intakeStopped = false → s.power.state = 0 → 8 ≤ data.length → slot < 16 → s.hasFunction fn = true →
      (s.function fn).flr = false → s.host.linkUp = true → x.state = .active →
      (s.doorbellOk r idx = true →
        (s.ringKind r = 0 → Leaves (.doorbell t fn slot data) s ((s.at t).setRing r { x with hostIndex := idx })) ∧
        (s.ringKind r ≠ 0 → (byteAt data 4).testBit 0 = true →
          Leaves (.doorbell t fn slot data) s ((s.at t).setRing r { x with hostIndex := idx, armed := some idx }))) ∧
      (s.doorbellOk r idx = false → Answers (.doorbell t fn slot data) s (fun s' =>
        s'.hostRing r = { x with state := .error, cause := 4 } ∧ (s'.fld Fld.FLT_STATUS_pending).testBit 1 = true))) ∧
    (∀ (fn : Nat) (w : Word64) (x : State) (fixed : List Nat),
      let r := s.ringSel fn
      s.hasFunction fn = true → (s.at t).served .HST_RING_CTL 0 = true →
      fixed = (if s.bit Fld.HST_RING_CTL_en r = true then ringFixed else []) →
      (s.at t).storeFields .HST_RING_CTL r w.toNat (fullMask - 1) fixed = (x, false, false) →
      (w.toNat % 2 = 1 → Fld.HST_RING_CTL_reset.get w.toNat = 0 → s.bit Fld.HST_RING_CTL_en r = false → x.mayEnable fn r = true →
        Leaves (.hstRingEnable t fn w) s
          ((x.setRing r ⟨.active, (s.hostRing r).cause, 0, 0, 0, none, (s.hostRing r).writes, false,
            (s.hostRing r).era⟩).setFld Fld.HST_RING_CTL_en 1 r)) ∧
      (Fld.HST_RING_CTL_reset.get w.toNat = 1 → Answers (.hstRingReset t fn w) s (fun s' =>
        (s'.hostRing r).state = .disabled ∧ (s'.hostRing r).hostIndex = 0 ∧ (s'.hostRing r).devIndex = 0 ∧ (s'.hostRing r).reserved = 0 ∧
        s'.fld Fld.HST_RING_CTL_en r = 0 ∧ (∀ n, n ≠ r → s'.hostRing n = s.hostRing n))))) ∧
  (∀ (s : State) (t r : Nat) (w : RingWrite) (rest : List RingWrite), s.scribes.reports = [] → s.observe.buffer = [] →
    let x := s.hostRing r
    let n := (w.bytes.length + 63) / 64
    let entries := match w.kind with
      | .reply e => e
      | _ => 0
    let dev := (x.devIndex + n) % 2 ^ 32
    let data := (ringPieces (s.fld Fld.HST_RING_BASE_base r * 4096) (s.ringSize r) x.devIndex w.bytes).map (fun p => Emit.hostWrite p.1 p.2)
    let word := Emit.hostWrite (s.fld Fld.HST_RING_WB_addr r * 8) (leBytes dev 4 ++ leBytes s.clock.count 4)
    let vector := Emit.msix (ringFn r) (s.fld Fld.HST_RING_CTL_vector r) ((s.at t).now + 1)
    x.writes = w :: rest → s.host.linkUp = true → x.state = .active →
    (match w.kind with
      | .reply _ => n ≤ s.ringFree r + x.reserved
      | _ => n ≤ s.ringFree r) →
    let next := { x with devIndex := dev, reserved := x.reserved - entries, writes := rest }
    (x.armed = none → Leaves (.hostRingWrite t r) s { (s.at t).setRing r next with out := s.out ++ data ++ [word] }) ∧
    (∀ c, x.armed = some c → 0 < (dev + 2 ^ 32 - c) % 2 ^ 32 → (dev + 2 ^ 32 - c) % 2 ^ 32 < 2 ^ 31 →
      Leaves (.hostRingWrite t r) s { (s.at t).setRing r { next with armed := none } with out := s.out ++ data ++ [word, vector] }))

/-- R512, R513, R514, R516, R532, R539, R540: windows and functions. A commit of staged windows that are in range waits for its boundary,
and one that is not has the result 1; VF Enable sets NumVFs, and clearing it takes every VF away; and an FLR of a VF drops its waiting
commands and ends with its rings disabled. A data link comes up at a rate and width that the device supports and its record allows; when it
goes down every ring is DISABLED and the loss is noted; a hot reset leaves the link up and no VF; and PERST_N takes the link down and holds
the PCIe domains in reset. Completes here: HST_WIN_COMMIT, VF_ENABLE, FLR, FLR_COMPLETE, LINK_UP, LINK_DOWN, HOT_RESET, PERST_N_ASSERT. -/
def Obligations.FunctionsAndDataLink : Prop :=
  (∀ (s : State) (t : Nat),
    (∀ (w : Word64) (x : State), Stores s t .HST_WIN_CTL 0 w x → Fld.HST_WIN_CTL_commit.get w.toNat = 1 → s.host.winPending = false →
      (x.stagedOk = true → Leaves (.hstWinCommit t 0 w) s { x with
        host := { x.host with winPending := true, winResult := 0 }, due := s.due ++ [⟨(s.at t).dueTide, .winCommit⟩] }) ∧
      (x.stagedOk = false → Leaves (.hstWinCommit t 0 w) s { x with host := { x.host with winResult := 1 } })) ∧
    (∀ n : Nat, s.host.linkUp = true → s.recovery = false →
      (s.host.numVfs = 0 → n ≤ s.host.pcie.totalVfs → Leaves (.vfEnable true n) s { s with host := { s.host with numVfs := n } }) ∧
      Answers (.vfEnable false n) s (fun s' => s'.host.numVfs = 0 ∧ s'.host.linkUp = true ∧
        (∀ f i, 1 ≤ f → f ≤ s.host.numVfs → i < 16 → (s'.hostRing (16 * f + i)).state = .disabled))) ∧
    (∀ fn : Nat, fn ≠ 0 → s.hasFunction fn = true → s.host.linkUp = true → Answers (.flr t fn) s (fun s' =>
      (s'.function fn).flr = true ∧ s'.host.numVfs = s.host.numVfs ∧ s'.cmds.accepted = s.cmds.accepted ∧
      (∀ p ∈ s'.cmds.fifos, 64 ≤ p.1 → p.1 < 9000 → ∀ c ∈ p.2, c.master ≠ fn) ∧
      (∀ i, i < 16 → ∀ w ∈ (s'.hostRing (16 * fn + i)).writes, ∀ e, w.kind ≠ .reply e))) ∧
    (∀ fn : Nat, (s.function fn).flr = true → Answers (.flrComplete fn) s (fun s' => (s'.function fn).flr = false ∧
      s'.bit Fld.HST_STATUS_flr_seen = true ∧
      (∀ i, i < 16 → (s'.hostRing (16 * fn + i)).state = .disabled ∧ (s'.hostRing (16 * fn + i)).reserved = 0)))) ∧
  (∀ (s : State),
    (∀ (gen width : Nat) (flit : Bool), s.pcieRuns = true → s.host.linkUp = false → s.linkAllowed gen width flit = true →
      Answers (.linkUp gen width flit) s (fun s' => s'.host.linkUp = true ∧ s'.host.gen = gen ∧ s'.host.width = width ∧ s'.host.flit = flit ∧
        s'.power.pcieReset = false ∧ s'.host.numVfs = 0)) ∧
    (s.host.linkUp = true →
      Answers .linkDown s (fun s' => s'.host.linkUp = false ∧ s'.host.gen = 0 ∧ s'.host.width = 0 ∧ s'.bit Fld.HST_STATUS_link_lost = true ∧
        (∀ r, (s'.hostRing r).state = .disabled) ∧ s'.host.numVfs = s.host.numVfs ∧ s'.search = s.search ∧ s'.dram = s.dram) ∧
      Answers .hotReset s (fun s' => s'.host.linkUp = true ∧ s'.host.numVfs = 0 ∧ s'.host.winPending = false ∧
        s'.bit Fld.PWR_RESET_CAUSE_hot_reset = true ∧ s'.tables = s.tables ∧ s'.dram = s.dram)) ∧
    Answers .perstNAssert s (fun s' => s'.host.linkUp = false ∧ s'.power.pcieReset = true ∧ s'.host.numVfs = 0 ∧
      s'.bit Fld.PWR_RESET_CAUSE_perst = true ∧ s'.tables = s.tables ∧ s'.dram = s.dram ∧ s'.clock = s.clock))

/-- R43, R517, R526, R538: reads and accesses of the host. A read of the device that times out is signalled and counted, and its ring is in
ERROR; a completion that comes after that is discarded; one with an error puts the ring in ERROR; and a DMA access of the host reads or
writes its region, or is counted as rejected. Completes here: COMPLETION_TIMEOUT, UR_OR_CA_COMPLETION, LATE_CPL, HOST_DMA_ACCESS. -/
def Obligations.HostAccesses : Prop :=
  ∀ (s : State) (t : Nat),
    let timed := fun (fn : Nat) (s' : State) => Emit.aer fn ∈ s'.out ∧ s'.host.abandoned = s.host.abandoned + 1
    (∀ r, s.fetchOut r = true →
      Answers (.completionTimeout t (.ringFetch r)) s (fun s' => timed (ringFn r) s' ∧ (s'.hostRing r).state = .error ∧
        (s'.hostRing r).cause = 1) ∧
      Answers (.urOrCaCompletion t r) s (fun s' => s'.hostRing r = { s.hostRing r with state := .error, cause := 3 } ∧
        s'.host.abandoned = s.host.abandoned)) ∧
    (s.host.flashBusy = true → Answers (.completionTimeout t .flashProgram) s (fun s' => timed 0 s' ∧ s'.host.flashBusy = false ∧
      s'.fld Fld.GLB_FLASH_PROG_CTL_result = 3)) ∧
    (∀ fn, s.host.linkUp = true → s.hasFunction fn = true → Answers (.completionTimeout t (.dma fn)) s (fun s' => timed fn s' ∧
      s'.host.rings = s.host.rings)) ∧
    (s.host.abandoned ≠ 0 → Leaves (.lateCpl t) s
      ({ s.at t with host := { s.host with abandoned := s.host.abandoned - 1 } }.bump Fld.HST_CPL_COUNT_late)) ∧
    (s.host.abandoned = 0 → Leaves (.lateCpl t) s (s.at t)) ∧
    (∀ (addr len : Nat) (data : Bytes), s.host.linkUp = true → s.clockRuns = true →
      (captureAddr ≤ addr → addr + len ≤ dramEnd → Leaves (.hostDmaAccess t false addr len data) s { s.at t with
        out := s.out ++ [.readData 0 (s.dram.read addr len)] }) ∧
      (hostDmaAddr ≤ addr → addr + data.length ≤ dramEnd → Answers (.hostDmaAccess t true addr len data) s (fun s' =>
        s'.dram = ((s.at t).spoil addr data.length).dram.write addr data ∧
        s' = ({ s with clock := (s.at t).clock, start := (s.at t).start, pins := s'.pins, ring := s'.ring }).dramAs s')) ∧
      (addr < hostDmaAddr ∨ dramEnd < addr + data.length → Answers (.hostDmaAccess t true addr len data) s (fun s' => s'.dram = s.dram ∧
        s'.out = s.out)))

/-- R578, R580, R581, R586, R593: A change by POWER that R580 refuses is answered with its cause; a change to Doze or below is entered from
the boundary that R63 gives; Idle waits for its conditions and its command with it; a domain reset waits for its boundary. By PWR_STATE_CTL
a change to Doze or below is entered from the boundary that R63 gives, unless a change of mode or power is pending, the glyphs or the seed
are not done, or a flash program runs; Idle waits for its boundary and quiet; and Run wakes a device in Doze. A domain reset that passes its
check waits for its boundary, one that fails has the check's result, and at the boundary that ends it the domain returns to service: the
journal is replayed for PD25, and the PCIe domains leave reset. Completes here: POWER, PWR_LOW_STATE_REQUEST, PWR_IDLE_REQUEST,
PWR_WAKE_REGISTER, PWR_DOMAIN_RESET, DOMAIN_RESET_END. -/
def Obligations.PowerRequests : Prop :=
  (∀ (s : State) (t : Nat) (src : Source) (c : Cmd) (rest : List Cmd),
    let body := cmdBody c.record
    let held := fun (s' : State) => ∃ a, Taken s s' src c rest a ∧ a.result = none ∧ a.postAt = none
    Clears s t src c rest 0x43 false false .supervisor → body.length = 8 → zerosAt body 2 6 = true →
    (byteAt body 0 = 1 → 2 ≤ byteAt body 1 → byteAt body 1 ≤ 5 →
      (s.lowRefused ≠ 0 → Answers (.power t src) s (fun s' => Commits s t src c rest s' 0x1C 0 (leBytes s.lowRefused 8) ∧
        s'.power = { s.power with result := s.lowRefused })) ∧
      (s.lowRefused = 0 → Answers (.power t src) s (fun s' => Commits s t src c rest s' 0 0 [] ∧
        s'.power = { s.power with result := 0, entry := some ⟨byteAt body 1, 0, (s.at t).dueTide, s.clock.grid, false⟩ }))) ∧
    (byteAt body 0 = 1 → byteAt body 1 = 1 → s.powerPending = false → Answers (.power t src) s (fun s' => held s' ∧
      s'.power = { s.power with result := 0, idleAt := some ((s.at t).dueTide, some s.cmds.nextId) })) ∧
    (byteAt body 0 = 2 → byteAt body 1 < 30 → s.resetCheck (byteAt body 1) (fromHost src) = 0 → s.power.domainReset = none →
      Answers (.power t src) s (fun s' => held s' ∧ s'.power = { s.power with
        domainReset := some ⟨byteAt body 1, false, (s.at t).dueTide, some s.cmds.nextId⟩, resetResult := 0 }))) ∧
  (∀ (s : State) (t : Nat) (w : Word64) (x : State), Stores s t .PWR_STATE_CTL 0 w x → Fld.PWR_STATE_CTL_go.get w.toNat = 1 →
    let target := x.fld Fld.PWR_STATE_CTL_target
    let due := (s.at t).dueTide
    let leaves := fun (c : Instr) (p : Power) => Leaves c s { x with power := p }
    (s.cmdAuth = false → 2 ≤ target → target ≤ 5 →
      (s.mode.pending = none → s.powerPending = false → s.boot.glyphDone = true → s.boot.seedDone = true → s.host.flashBusy = false →
        leaves (.pwrLowStateRequest t 0 w) { s.power with result := 0, entry := some ⟨target, 0, due, s.clock.grid, false⟩ }) ∧
      ((s.mode.pending ≠ none ∨ s.powerPending = true) → leaves (.pwrLowStateRequest t 0 w) { s.power with result := 1 }) ∧
      (s.mode.pending = none → s.powerPending = false → (s.boot.glyphDone = false ∨ s.boot.seedDone = false) →
        leaves (.pwrLowStateRequest t 0 w) { s.power with result := 4 }) ∧
      (s.mode.pending = none → s.powerPending = false → s.boot.glyphDone = true → s.boot.seedDone = true → s.host.flashBusy = true →
        leaves (.pwrLowStateRequest t 0 w) { s.power with result := 5 })) ∧
    (s.cmdAuth = false → target = 1 → s.powerPending = false →
      leaves (.pwrIdleRequest t 0 w) { s.power with result := 0, idleAt := some (due, none) }) ∧
    (target = 0 → s.power.state = 2 → s.power.entry = none → s.power.exit = none → s.power.tamperHold = false → s.power.vddAon = true →
      s.power.halted = false → leaves (.pwrWakeRegister t 0 w) { s.power with result := 0, exit := some 2, wakeSrc := 2 })) ∧
  (∀ (s : State),
    (∀ (t : Nat) (w : Word64) (x : State), Stores s t .PWR_DOMAIN_RESET 0 w x → Fld.PWR_DOMAIN_RESET_go.get w.toNat = 1 → s.cmdAuth = false →
      s.power.domainReset = none →
      let d := x.fld Fld.PWR_DOMAIN_RESET_domain
      (s.resetCheck d true = 0 → Leaves (.pwrDomainReset t 0 w) s { x with
        power := { s.power with domainReset := some ⟨d, false, (s.at t).dueTide, none⟩, resetResult := 0 } }) ∧
      (s.resetCheck d true ≠ 0 → Leaves (.pwrDomainReset t 0 w) s { x with
        power := { s.power with resetResult := s.resetCheck d true } })) ∧
    (∀ (d : Nat) (x : DomainReset), s.power.domainReset = some x → x.started = true → x.domain = d → x.command = none → s.clock.stroke = 0 →
      let y := { s with power := { s.power with domainReset := none } }
      (d = 25 → Leaves .domainResetEnd s { y with cmds := { s.cmds with
        journal := []
        flights := s.cmds.flights.map (fun (i : Insertion) =>
          if i.rollback.isNone && i.lastWrite.isNone then { i with rollback := some 0x10 } else i) } }) ∧
      (d = 4 ∨ d = 5 → Leaves .domainResetEnd s { y with power := { y.power with pcieReset := false } }) ∧
      (d = 2 ∨ d = 3 ∨ (20 ≤ d ∧ d ≤ 24) ∨ d = 28 ∨ d = 29 → Leaves .domainResetEnd s y)))

/-- R578, R579, R582, R583, R584: entries. A quiet device enters Idle by itself, and an arrival wakes it within 96 strokes; an entry that is
drained for 64 tides goes on to the ring; the narrow counters are folded for Deep; and at its end the device rests in its state, its quays
quiet. Completes here: AUTO_IDLE_ENTRY, IDLE_WAKE, ENTRY_DRAIN_END, BULK_FOLD, ENTRY_COMPLETE. -/
def Obligations.PowerEntries : Prop :=
  ∀ (s : State) (t : Nat),
    (s.clock.stroke = 0 → s.serving = true → s.power.state = 0 → s.bit Fld.PWR_STATE_CTL_auto_idle = true →
      s.fld Fld.PWR_STATE_CTL_idle_tides ≤ s.power.quietTides → s.power.entry = none → s.power.exit = none → s.power.idleAt = none →
      Leaves .autoIdleEntry s { s with power := { s.power with state := 1 } }) ∧
    (s.power.state = 1 → Answers (.idleWake t) s (fun s' => s'.power.state = 0 ∧ s'.power.clockedAt ≤ (s.at t).now + 96 ∧
      (s.at t).now ≤ s'.power.clockedAt ∧ s' = { s with
        clock := (s.at t).clock, start := (s.at t).start, power := s'.power, freeCounter := s.freeCounter + 1, pins := s'.pins,
        ring := s'.ring })) ∧
    (∀ e : PowerEntry, s.power.entry = some e →
      (e.step = 1 → e.lastRecord + 65 ≤ s.clock.grid → s.drained = true → s.ring.joined = false →
        Leaves .entryDrainEnd s { s with power := { s.power with entry := some { e with step := 3 } } }) ∧
      (e.step = 3 → s.ring.joined = false →
        (e.target = 4 → e.folded = false → s.counters.places = [] → s.counters.foldQueue = [] → s.counters.held = [] →
          ∀ reads : List StripeRead, Answers (.bulkFold reads) s (fun s' => s'.power.entry = some { e with folded := true } ∧
            (∀ p ∈ s.counters.narrow, s'.narrowCount p.1 = 0) ∧
            (reads = [] → s.dramCtl.pcs = [] → s.dram.wf = true → (s.counters.narrow.map (fun (p : Nat × Nat) => p.1)).Nodup →
              ∀ p ∈ s.counters.narrow, s'.wide p.1 = (s.wide p.1 + p.2) % 2 ^ 64))) ∧
        (s.power.heldWake = none →
          (e.target = 2 → Answers .entryComplete s (fun s' => s'.power.state = 2 ∧ s'.power.entry = none ∧ s'.host.linkUp = s.host.linkUp ∧
            (∀ q, (s'.link (.quay q)).up = false))) ∧
          (e.target = 3 → Answers .entryComplete s (fun s' => s'.power.state = 3 ∧ s'.power.entry = none ∧ s'.host.linkUp = false ∧
            s'.hot.lines = [] ∧ s'.power.tideRecord = s.clock.count ∧ s'.power.rtcRecord = s.power.rtc ∧
            (∀ q, (s'.link (.quay q)).up = false))) ∧
          (e.target = 4 → e.folded = true → s.scrub.unsettled = [] → s.cmds.journal = [] → Answers .entryComplete s (fun s' =>
            s'.power.state = 4 ∧ s'.power.tideRecord = s.clock.count ∧ s'.learning.filter = [] ∧ s'.host.linkUp = false)) ∧
          (e.target = 5 → Answers .entryComplete s (fun s' => s'.power.state = 5 ∧ s'.power.railsValid = false ∧ s'.power.mainEn = false ∧
            s'.dram = [] ∧ s'.fuses = s.fuses ∧ s'.power.tideRecord = s.clock.count ∧ s'.bit Fld.PWR_RESET_CAUSE_off_guard = true)))))

/-- R82, R480, R577, R586, R587, R588, R589, R643: wake events. In Retain an enabled RTC alarm, PERST_N or WAKE starts the exit with its
source; during an entry it is held; and a WAKE is acknowledged in every case. From Doze the device runs again with its quays in ALIGN; from
Retain and Deep the tide count goes on by the tides that the RTC counted; and a link that stays in ALIGN for 1 ms goes down. Completes here:
RTC_ALARM, PERST_N_WAKE, WAKE, EXIT_COMPLETE, EXIT_LANE_TIMEOUT. -/
def Obligations.WakesAndExits : Prop :=
  (∀ (s : State) (t : Nat), s.power.tamperHold = false → s.power.vddAon = true → s.power.halted = false →
    let asleep := s.power.state = 3 ∧ s.power.entry = none ∧ s.power.exit = none
    let wakes := fun (k : Nat) (s' : State) => s'.power.exit = some k ∧ s'.power.wakeSrc = k ∧ s'.power.state = 3
    let held := fun (k : Nat) (s' : State) => s'.power.heldWake = some (s.power.heldWake.getD k) ∧ s'.power.entry = s.power.entry ∧
      s'.power.exit = s.power.exit
    (∀ count, count = s.fld Fld.PWR_WAKE_CTL_alarm → s.bit Fld.PWR_WAKE_CTL_alarm_en = true →
      (asleep → Answers (.rtcAlarm count) s (wakes 4)) ∧ (s.power.entry ≠ none → Answers (.rtcAlarm count) s (held 4))) ∧
    (s.bit Fld.PWR_WAKE_CTL_perst_en = true →
      (asleep → Answers .perstNWake s (wakes 5)) ∧ (s.power.entry ≠ none → Answers .perstNWake s (held 5))) ∧
    (s.bit Fld.PWR_WAKE_CTL_smbus_en = true →
      (asleep → Answers (.wake t) s (fun s' => wakes 3 s' ∧ s'.out = s.out ++ [.smbus []])) ∧
      (s.power.entry ≠ none → Answers (.wake t) s (fun s' => held 3 s' ∧ s'.out = s.out ++ [.smbus []])))) ∧
  (∀ (s : State),
    (∀ (rtc src : Nat) (lost : List RowLoss), s.power.exit = some src →
      let runs := fun (s' : State) => s'.power.state = 0 ∧ s'.power.exit = none ∧ s'.power.wakeSrc = src ∧
        s'.bit Fld.PWR_STATE_STATUS_woke = true ∧ s'.power.clockedAt = (s.clock.grid + 1) * 256
      let missed := (rtc + 2 ^ 48 - s.power.rtcRecord) % 2 ^ 48 * 5859375 / 32768
      (s.power.state = 2 → s.host.heldWrites = [] → s.host.heldDoorbells = [] → s.host.heldTlps = [] →
        Answers (.exitComplete rtc lost) s (fun s' => runs s' ∧ s'.clock = s.clock ∧ s'.host.linkUp = s.host.linkUp ∧
          (∀ q lo w, (s.link (.quay q)).state = .down → (s.link (.quay q)).choose = some (lo, w) →
            (s'.link (.quay q)).state = .align ∧ (s'.link (.quay q)).width = w))) ∧
      ((s.power.state = 3 ∨ s.power.state = 4) → Answers (.exitComplete rtc lost) s (fun s' => runs s' ∧
        s'.clock.count = (s.power.tideRecord + missed) % 2 ^ 64 ∧ s'.clock.grid = s.clock.grid ∧ s'.host.numVfs = 0))) ∧
    (∀ (t : Nat) (p : Port), (s.link p).state = .align → (s.link p).since + 1500000 ≤ (s.at t).now →
      Answers (.exitLaneTimeout t p) s (fun s' => (s'.link p).replay = [] ∧
        (s'.link p).state = (if (s.link p).choose.isSome = true then .train else .failed))))

/-- R323, R594, R600, R604, R605, R606, R641: the fault log and the management core. A read of the window's last byte frees the oldest
record, and one whose EVENT ring has room is written there and freed; a restart of the management core ends the work that it did and is
recorded; and a die reading above 105 °C is reported once. ALERT_N is driven low while a pending bit whose class has alert 1 in FLT_ROUTE is
set, the tamper hold is in force, a stack is hot, or the sequencer has halted, from the command that brings it about on, and its level in
the next stroke is that condition, after every step. Completes here: FLT_WIN_READ, FAULT_LOG_DELIVERY, MGMT_WATCHDOG, DIE_TEMP_READOUT. -/
def Obligations.FaultsAndRestarts : Prop :=
  (∀ (s : State) (t : Nat),
    (∀ (r : FaultRec) (rest : List FaultRec), s.faults.held = r :: rest →
      (∀ byte size : Nat, (s.at t).served .FLT_WIN3 0 = true → s.fld Fld.FLT_CTL_dest = 0 → 8 ≤ byte + size →
        Leaves (.fltWinRead t 0 byte size) s { s.at t with
          faults := { s.faults with held := rest, lastTaken := r.bytes }
          out := s.out ++ [.readData 0 (((leBytes ((s.at t).opening.fltWindow 3) 8).drop byte).take size)] }) ∧
      (s.fld Fld.FLT_CTL_dest = 1 → s.bit Fld.FLT_CTL_en = true → r.bytes.length = 32 →
        let n := s.fld Fld.FLT_CTL_dest_index
        let x := s.hostRing n
        s.ringKind n = 2 → x.writes = [] → s.eventRoom n r.bytes = true → Answers (.faultLogDelivery t) s (fun s' =>
          s'.faults.held = rest ∧ s'.faults.lastTaken = r.bytes ∧ (s'.hostRing n).devIndex = (x.devIndex + 1) % 2 ^ 32 ∧
          (s'.hostRing n).writes = [] ∧
          Emit.hostWrite (s.fld Fld.HST_RING_BASE_base n * 4096 + 64 * (x.devIndex % s.ringSize n)) (r.bytes ++ zeros 32) ∈ s'.out))) ∧
    ((s.at t).coreRuns = true → Answers (.mgmtWatchdog t) s (fun s' => s'.host.flashBusy = false ∧ s'.security.keyWrap = none ∧
      s'.bit Fld.PWR_RESET_CAUSE_watchdog = true ∧ (s'.fld Fld.FLT_STATUS_pending).testBit 1 = true ∧
      (∀ id, s.security.keyWrap = some id → ∀ a ∈ s'.cmds.accepted, a.id = id → a.result = some (0x1B, 0, 0, 0, [])) ∧
      s'.tables = s.tables ∧ s'.dram = s.dram)) ∧
    (∀ temps : List Int, s.power.vddAon = true → temps.length = 8 → s.logRuns = true →
      ((hottest temps).1 ≤ 1680 → s.service.dieHot = false → Leaves (.dieTempReadout t temps) s { s.at t with
        service := { s.service with dieTemps := temps } }) ∧
      (1680 < (hottest temps).1 → s.service.dieHot = false → Answers (.dieTempReadout t temps) s (fun s' =>
        s'.service = { s.service with dieTemps := temps, dieHot := true } ∧ (s'.fld Fld.FLT_STATUS_pending).testBit 2 = true)))) ∧
  (∀ (s s' : State) (c : Instr) (rest : List Instr), s.pending = c :: rest → step s = .next s' →
    let low := (∃ n, n < 5 ∧ (s'.fld Fld.FLT_STATUS_pending).testBit n = true ∧ (s'.fld Fld.FLT_ROUTE_route).testBit (8 * n) = true) ∨
      s'.power.tamperHold = true ∨ (∃ x ∈ s'.dramCtl.stackStates, x.hot = true) ∨ s'.power.halted = true
    (low → s'.pins.alert = true) ∧ (s'.pins.nextAlert = true ↔ low))
end

