-- ==== Sys2Proof/Laws/State.lean ====
section
/-! SUPPORT. For each named update of the state, the components that it leaves as they were, one simp lemma each. -/
namespace Sys2Proof.Machine

@[simp] theorem State.at_regs (s : State) (t : Nat) : (s.at t).regs = s.regs := by cases s; rfl
@[simp] theorem State.at_setBits (s : State) (t : Nat) : (s.at t).setBits = s.setBits := by cases s; rfl
@[simp] theorem State.at_setAt (s : State) (t : Nat) : (s.at t).setAt = s.setAt := by cases s; rfl
@[simp] theorem State.at_rc (s : State) (t : Nat) : (s.at t).rc = s.rc := by cases s; rfl
@[simp] theorem State.at_scratch (s : State) (t : Nat) : (s.at t).scratch = s.scratch := by cases s; rfl
@[simp] theorem State.at_memQueues (s : State) (t : Nat) : (s.at t).memQueues = s.memQueues := by cases s; rfl
@[simp] theorem State.at_fuses (s : State) (t : Nat) : (s.at t).fuses = s.fuses := by cases s; rfl
@[simp] theorem State.at_boot (s : State) (t : Nat) : (s.at t).boot = s.boot := by cases s; rfl
@[simp] theorem State.at_power (s : State) (t : Nat) : (s.at t).power = s.power := by cases s; rfl
@[simp] theorem State.at_faults (s : State) (t : Nat) : (s.at t).faults = s.faults := by cases s; rfl
@[simp] theorem State.at_service (s : State) (t : Nat) : (s.at t).service = s.service := by cases s; rfl
@[simp] theorem State.at_pins (s : State) (t : Nat) : (s.at t).pins = s.pins := by cases s; rfl
@[simp] theorem State.at_berths (s : State) (t : Nat) : (s.at t).berths = s.berths := by cases s; rfl
@[simp] theorem State.at_masters (s : State) (t : Nat) : (s.at t).masters = s.masters := by cases s; rfl
@[simp] theorem State.at_security (s : State) (t : Nat) : (s.at t).security = s.security := by cases s; rfl
@[simp] theorem State.at_tables (s : State) (t : Nat) : (s.at t).tables = s.tables := by cases s; rfl
@[simp] theorem State.at_arrays (s : State) (t : Nat) : (s.at t).arrays = s.arrays := by cases s; rfl
@[simp] theorem State.at_numbers (s : State) (t : Nat) : (s.at t).numbers = s.numbers := by cases s; rfl
@[simp] theorem State.at_cmds (s : State) (t : Nat) : (s.at t).cmds = s.cmds := by cases s; rfl
@[simp] theorem State.at_hot (s : State) (t : Nat) : (s.at t).hot = s.hot := by cases s; rfl
@[simp] theorem State.at_scrub (s : State) (t : Nat) : (s.at t).scrub = s.scrub := by cases s; rfl
@[simp] theorem State.at_learning (s : State) (t : Nat) : (s.at t).learning = s.learning := by cases s; rfl
@[simp] theorem State.at_manifest (s : State) (t : Nat) : (s.at t).manifest = s.manifest := by cases s; rfl
@[simp] theorem State.at_mode (s : State) (t : Nat) : (s.at t).mode = s.mode := by cases s; rfl
@[simp] theorem State.at_search (s : State) (t : Nat) : (s.at t).search = s.search := by cases s; rfl
@[simp] theorem State.at_scribes (s : State) (t : Nat) : (s.at t).scribes = s.scribes := by cases s; rfl
@[simp] theorem State.at_counters (s : State) (t : Nat) : (s.at t).counters = s.counters := by cases s; rfl
@[simp] theorem State.at_observe (s : State) (t : Nat) : (s.at t).observe = s.observe := by cases s; rfl
@[simp] theorem State.at_links (s : State) (t : Nat) : (s.at t).links = s.links := by cases s; rfl
@[simp] theorem State.at_ring (s : State) (t : Nat) : (s.at t).ring = s.ring := by cases s; rfl
@[simp] theorem State.at_host (s : State) (t : Nat) : (s.at t).host = s.host := by cases s; rfl
@[simp] theorem State.at_dramCtl (s : State) (t : Nat) : (s.at t).dramCtl = s.dramCtl := by cases s; rfl
@[simp] theorem State.at_dram (s : State) (t : Nat) : (s.at t).dram = s.dram := by cases s; rfl
@[simp] theorem State.at_diram (s : State) (t : Nat) : (s.at t).diram = s.diram := by cases s; rfl
@[simp] theorem State.at_due (s : State) (t : Nat) : (s.at t).due = s.due := by cases s; rfl
@[simp] theorem State.at_freeCounter (s : State) (t : Nat) : (s.at t).freeCounter = s.freeCounter := by cases s; rfl
@[simp] theorem State.at_out (s : State) (t : Nat) : (s.at t).out = s.out := by cases s; rfl
@[simp] theorem State.at_pending (s : State) (t : Nat) : (s.at t).pending = s.pending := by cases s; rfl

@[simp] theorem State.noteRc_clock (s : State) (f : Fld) (n i : Nat) : (s.noteRc f n i).clock = s.clock := by cases s; rfl
@[simp] theorem State.noteRc_regs (s : State) (f : Fld) (n i : Nat) : (s.noteRc f n i).regs = s.regs := by cases s; rfl
@[simp] theorem State.noteRc_setBits (s : State) (f : Fld) (n i : Nat) : (s.noteRc f n i).setBits = s.setBits := by cases s; rfl
@[simp] theorem State.noteRc_setAt (s : State) (f : Fld) (n i : Nat) : (s.noteRc f n i).setAt = s.setAt := by cases s; rfl
@[simp] theorem State.noteRc_start (s : State) (f : Fld) (n i : Nat) : (s.noteRc f n i).start = s.start := by cases s; rfl
@[simp] theorem State.noteRc_scratch (s : State) (f : Fld) (n i : Nat) : (s.noteRc f n i).scratch = s.scratch := by cases s; rfl
@[simp] theorem State.noteRc_memQueues (s : State) (f : Fld) (n i : Nat) : (s.noteRc f n i).memQueues = s.memQueues := by cases s; rfl
@[simp] theorem State.noteRc_fuses (s : State) (f : Fld) (n i : Nat) : (s.noteRc f n i).fuses = s.fuses := by cases s; rfl
@[simp] theorem State.noteRc_boot (s : State) (f : Fld) (n i : Nat) : (s.noteRc f n i).boot = s.boot := by cases s; rfl
@[simp] theorem State.noteRc_power (s : State) (f : Fld) (n i : Nat) : (s.noteRc f n i).power = s.power := by cases s; rfl
@[simp] theorem State.noteRc_faults (s : State) (f : Fld) (n i : Nat) : (s.noteRc f n i).faults = s.faults := by cases s; rfl
@[simp] theorem State.noteRc_service (s : State) (f : Fld) (n i : Nat) : (s.noteRc f n i).service = s.service := by cases s; rfl
@[simp] theorem State.noteRc_pins (s : State) (f : Fld) (n i : Nat) : (s.noteRc f n i).pins = s.pins := by cases s; rfl
@[simp] theorem State.noteRc_berths (s : State) (f : Fld) (n i : Nat) : (s.noteRc f n i).berths = s.berths := by cases s; rfl
@[simp] theorem State.noteRc_masters (s : State) (f : Fld) (n i : Nat) : (s.noteRc f n i).masters = s.masters := by cases s; rfl
@[simp] theorem State.noteRc_security (s : State) (f : Fld) (n i : Nat) : (s.noteRc f n i).security = s.security := by cases s; rfl
@[simp] theorem State.noteRc_tables (s : State) (f : Fld) (n i : Nat) : (s.noteRc f n i).tables = s.tables := by cases s; rfl
@[simp] theorem State.noteRc_arrays (s : State) (f : Fld) (n i : Nat) : (s.noteRc f n i).arrays = s.arrays := by cases s; rfl
@[simp] theorem State.noteRc_numbers (s : State) (f : Fld) (n i : Nat) : (s.noteRc f n i).numbers = s.numbers := by cases s; rfl
@[simp] theorem State.noteRc_cmds (s : State) (f : Fld) (n i : Nat) : (s.noteRc f n i).cmds = s.cmds := by cases s; rfl
@[simp] theorem State.noteRc_hot (s : State) (f : Fld) (n i : Nat) : (s.noteRc f n i).hot = s.hot := by cases s; rfl
@[simp] theorem State.noteRc_scrub (s : State) (f : Fld) (n i : Nat) : (s.noteRc f n i).scrub = s.scrub := by cases s; rfl
@[simp] theorem State.noteRc_learning (s : State) (f : Fld) (n i : Nat) : (s.noteRc f n i).learning = s.learning := by cases s; rfl
@[simp] theorem State.noteRc_manifest (s : State) (f : Fld) (n i : Nat) : (s.noteRc f n i).manifest = s.manifest := by cases s; rfl
@[simp] theorem State.noteRc_mode (s : State) (f : Fld) (n i : Nat) : (s.noteRc f n i).mode = s.mode := by cases s; rfl
@[simp] theorem State.noteRc_search (s : State) (f : Fld) (n i : Nat) : (s.noteRc f n i).search = s.search := by cases s; rfl
@[simp] theorem State.noteRc_scribes (s : State) (f : Fld) (n i : Nat) : (s.noteRc f n i).scribes = s.scribes := by cases s; rfl
@[simp] theorem State.noteRc_counters (s : State) (f : Fld) (n i : Nat) : (s.noteRc f n i).counters = s.counters := by cases s; rfl
@[simp] theorem State.noteRc_observe (s : State) (f : Fld) (n i : Nat) : (s.noteRc f n i).observe = s.observe := by cases s; rfl
@[simp] theorem State.noteRc_links (s : State) (f : Fld) (n i : Nat) : (s.noteRc f n i).links = s.links := by cases s; rfl
@[simp] theorem State.noteRc_ring (s : State) (f : Fld) (n i : Nat) : (s.noteRc f n i).ring = s.ring := by cases s; rfl
@[simp] theorem State.noteRc_host (s : State) (f : Fld) (n i : Nat) : (s.noteRc f n i).host = s.host := by cases s; rfl
@[simp] theorem State.noteRc_dramCtl (s : State) (f : Fld) (n i : Nat) : (s.noteRc f n i).dramCtl = s.dramCtl := by cases s; rfl
@[simp] theorem State.noteRc_dram (s : State) (f : Fld) (n i : Nat) : (s.noteRc f n i).dram = s.dram := by cases s; rfl
@[simp] theorem State.noteRc_diram (s : State) (f : Fld) (n i : Nat) : (s.noteRc f n i).diram = s.diram := by cases s; rfl
@[simp] theorem State.noteRc_due (s : State) (f : Fld) (n i : Nat) : (s.noteRc f n i).due = s.due := by cases s; rfl
@[simp] theorem State.noteRc_freeCounter (s : State) (f : Fld) (n i : Nat) : (s.noteRc f n i).freeCounter = s.freeCounter := by cases s; rfl
@[simp] theorem State.noteRc_out (s : State) (f : Fld) (n i : Nat) : (s.noteRc f n i).out = s.out := by cases s; rfl
@[simp] theorem State.noteRc_pending (s : State) (f : Fld) (n i : Nat) : (s.noteRc f n i).pending = s.pending := by cases s; rfl

@[simp] theorem State.setWord_clock (s : State) (r : Reg) (i v : Nat) : (s.setWord r i v).clock = s.clock := by cases s; rfl
@[simp] theorem State.setWord_setBits (s : State) (r : Reg) (i v : Nat) : (s.setWord r i v).setBits = s.setBits := by cases s; rfl
@[simp] theorem State.setWord_setAt (s : State) (r : Reg) (i v : Nat) : (s.setWord r i v).setAt = s.setAt := by cases s; rfl
@[simp] theorem State.setWord_rc (s : State) (r : Reg) (i v : Nat) : (s.setWord r i v).rc = s.rc := by cases s; rfl
@[simp] theorem State.setWord_start (s : State) (r : Reg) (i v : Nat) : (s.setWord r i v).start = s.start := by cases s; rfl
@[simp] theorem State.setWord_scratch (s : State) (r : Reg) (i v : Nat) : (s.setWord r i v).scratch = s.scratch := by cases s; rfl
@[simp] theorem State.setWord_memQueues (s : State) (r : Reg) (i v : Nat) : (s.setWord r i v).memQueues = s.memQueues := by cases s; rfl
@[simp] theorem State.setWord_fuses (s : State) (r : Reg) (i v : Nat) : (s.setWord r i v).fuses = s.fuses := by cases s; rfl
@[simp] theorem State.setWord_boot (s : State) (r : Reg) (i v : Nat) : (s.setWord r i v).boot = s.boot := by cases s; rfl
@[simp] theorem State.setWord_power (s : State) (r : Reg) (i v : Nat) : (s.setWord r i v).power = s.power := by cases s; rfl
@[simp] theorem State.setWord_faults (s : State) (r : Reg) (i v : Nat) : (s.setWord r i v).faults = s.faults := by cases s; rfl
@[simp] theorem State.setWord_service (s : State) (r : Reg) (i v : Nat) : (s.setWord r i v).service = s.service := by cases s; rfl
@[simp] theorem State.setWord_pins (s : State) (r : Reg) (i v : Nat) : (s.setWord r i v).pins = s.pins := by cases s; rfl
@[simp] theorem State.setWord_berths (s : State) (r : Reg) (i v : Nat) : (s.setWord r i v).berths = s.berths := by cases s; rfl
@[simp] theorem State.setWord_masters (s : State) (r : Reg) (i v : Nat) : (s.setWord r i v).masters = s.masters := by cases s; rfl
@[simp] theorem State.setWord_security (s : State) (r : Reg) (i v : Nat) : (s.setWord r i v).security = s.security := by cases s; rfl
@[simp] theorem State.setWord_tables (s : State) (r : Reg) (i v : Nat) : (s.setWord r i v).tables = s.tables := by cases s; rfl
@[simp] theorem State.setWord_arrays (s : State) (r : Reg) (i v : Nat) : (s.setWord r i v).arrays = s.arrays := by cases s; rfl
@[simp] theorem State.setWord_numbers (s : State) (r : Reg) (i v : Nat) : (s.setWord r i v).numbers = s.numbers := by cases s; rfl
@[simp] theorem State.setWord_cmds (s : State) (r : Reg) (i v : Nat) : (s.setWord r i v).cmds = s.cmds := by cases s; rfl
@[simp] theorem State.setWord_hot (s : State) (r : Reg) (i v : Nat) : (s.setWord r i v).hot = s.hot := by cases s; rfl
@[simp] theorem State.setWord_scrub (s : State) (r : Reg) (i v : Nat) : (s.setWord r i v).scrub = s.scrub := by cases s; rfl
@[simp] theorem State.setWord_learning (s : State) (r : Reg) (i v : Nat) : (s.setWord r i v).learning = s.learning := by cases s; rfl
@[simp] theorem State.setWord_manifest (s : State) (r : Reg) (i v : Nat) : (s.setWord r i v).manifest = s.manifest := by cases s; rfl
@[simp] theorem State.setWord_mode (s : State) (r : Reg) (i v : Nat) : (s.setWord r i v).mode = s.mode := by cases s; rfl
@[simp] theorem State.setWord_search (s : State) (r : Reg) (i v : Nat) : (s.setWord r i v).search = s.search := by cases s; rfl
@[simp] theorem State.setWord_scribes (s : State) (r : Reg) (i v : Nat) : (s.setWord r i v).scribes = s.scribes := by cases s; rfl
@[simp] theorem State.setWord_counters (s : State) (r : Reg) (i v : Nat) : (s.setWord r i v).counters = s.counters := by cases s; rfl
@[simp] theorem State.setWord_observe (s : State) (r : Reg) (i v : Nat) : (s.setWord r i v).observe = s.observe := by cases s; rfl
@[simp] theorem State.setWord_links (s : State) (r : Reg) (i v : Nat) : (s.setWord r i v).links = s.links := by cases s; rfl
@[simp] theorem State.setWord_ring (s : State) (r : Reg) (i v : Nat) : (s.setWord r i v).ring = s.ring := by cases s; rfl
@[simp] theorem State.setWord_host (s : State) (r : Reg) (i v : Nat) : (s.setWord r i v).host = s.host := by cases s; rfl
@[simp] theorem State.setWord_dramCtl (s : State) (r : Reg) (i v : Nat) : (s.setWord r i v).dramCtl = s.dramCtl := by cases s; rfl
@[simp] theorem State.setWord_dram (s : State) (r : Reg) (i v : Nat) : (s.setWord r i v).dram = s.dram := by cases s; rfl
@[simp] theorem State.setWord_diram (s : State) (r : Reg) (i v : Nat) : (s.setWord r i v).diram = s.diram := by cases s; rfl
@[simp] theorem State.setWord_due (s : State) (r : Reg) (i v : Nat) : (s.setWord r i v).due = s.due := by cases s; rfl
@[simp] theorem State.setWord_freeCounter (s : State) (r : Reg) (i v : Nat) : (s.setWord r i v).freeCounter = s.freeCounter := by cases s; rfl
@[simp] theorem State.setWord_out (s : State) (r : Reg) (i v : Nat) : (s.setWord r i v).out = s.out := by cases s; rfl
@[simp] theorem State.setWord_pending (s : State) (r : Reg) (i v : Nat) : (s.setWord r i v).pending = s.pending := by cases s; rfl

@[simp] theorem State.setFld_clock (s : State) (f : Fld) (v i : Nat) : (s.setFld f v i).clock = s.clock := by cases s; rfl
@[simp] theorem State.setFld_setBits (s : State) (f : Fld) (v i : Nat) : (s.setFld f v i).setBits = s.setBits := by cases s; rfl
@[simp] theorem State.setFld_setAt (s : State) (f : Fld) (v i : Nat) : (s.setFld f v i).setAt = s.setAt := by cases s; rfl
@[simp] theorem State.setFld_rc (s : State) (f : Fld) (v i : Nat) : (s.setFld f v i).rc = s.rc := by cases s; rfl
@[simp] theorem State.setFld_start (s : State) (f : Fld) (v i : Nat) : (s.setFld f v i).start = s.start := by cases s; rfl
@[simp] theorem State.setFld_scratch (s : State) (f : Fld) (v i : Nat) : (s.setFld f v i).scratch = s.scratch := by cases s; rfl
@[simp] theorem State.setFld_memQueues (s : State) (f : Fld) (v i : Nat) : (s.setFld f v i).memQueues = s.memQueues := by cases s; rfl
@[simp] theorem State.setFld_fuses (s : State) (f : Fld) (v i : Nat) : (s.setFld f v i).fuses = s.fuses := by cases s; rfl
@[simp] theorem State.setFld_boot (s : State) (f : Fld) (v i : Nat) : (s.setFld f v i).boot = s.boot := by cases s; rfl
@[simp] theorem State.setFld_power (s : State) (f : Fld) (v i : Nat) : (s.setFld f v i).power = s.power := by cases s; rfl
@[simp] theorem State.setFld_faults (s : State) (f : Fld) (v i : Nat) : (s.setFld f v i).faults = s.faults := by cases s; rfl
@[simp] theorem State.setFld_service (s : State) (f : Fld) (v i : Nat) : (s.setFld f v i).service = s.service := by cases s; rfl
@[simp] theorem State.setFld_pins (s : State) (f : Fld) (v i : Nat) : (s.setFld f v i).pins = s.pins := by cases s; rfl
@[simp] theorem State.setFld_berths (s : State) (f : Fld) (v i : Nat) : (s.setFld f v i).berths = s.berths := by cases s; rfl
@[simp] theorem State.setFld_masters (s : State) (f : Fld) (v i : Nat) : (s.setFld f v i).masters = s.masters := by cases s; rfl
@[simp] theorem State.setFld_security (s : State) (f : Fld) (v i : Nat) : (s.setFld f v i).security = s.security := by cases s; rfl
@[simp] theorem State.setFld_tables (s : State) (f : Fld) (v i : Nat) : (s.setFld f v i).tables = s.tables := by cases s; rfl
@[simp] theorem State.setFld_arrays (s : State) (f : Fld) (v i : Nat) : (s.setFld f v i).arrays = s.arrays := by cases s; rfl
@[simp] theorem State.setFld_numbers (s : State) (f : Fld) (v i : Nat) : (s.setFld f v i).numbers = s.numbers := by cases s; rfl
@[simp] theorem State.setFld_cmds (s : State) (f : Fld) (v i : Nat) : (s.setFld f v i).cmds = s.cmds := by cases s; rfl
@[simp] theorem State.setFld_hot (s : State) (f : Fld) (v i : Nat) : (s.setFld f v i).hot = s.hot := by cases s; rfl
@[simp] theorem State.setFld_scrub (s : State) (f : Fld) (v i : Nat) : (s.setFld f v i).scrub = s.scrub := by cases s; rfl
@[simp] theorem State.setFld_learning (s : State) (f : Fld) (v i : Nat) : (s.setFld f v i).learning = s.learning := by cases s; rfl
@[simp] theorem State.setFld_manifest (s : State) (f : Fld) (v i : Nat) : (s.setFld f v i).manifest = s.manifest := by cases s; rfl
@[simp] theorem State.setFld_mode (s : State) (f : Fld) (v i : Nat) : (s.setFld f v i).mode = s.mode := by cases s; rfl
@[simp] theorem State.setFld_search (s : State) (f : Fld) (v i : Nat) : (s.setFld f v i).search = s.search := by cases s; rfl
@[simp] theorem State.setFld_scribes (s : State) (f : Fld) (v i : Nat) : (s.setFld f v i).scribes = s.scribes := by cases s; rfl
@[simp] theorem State.setFld_counters (s : State) (f : Fld) (v i : Nat) : (s.setFld f v i).counters = s.counters := by cases s; rfl
@[simp] theorem State.setFld_observe (s : State) (f : Fld) (v i : Nat) : (s.setFld f v i).observe = s.observe := by cases s; rfl
@[simp] theorem State.setFld_links (s : State) (f : Fld) (v i : Nat) : (s.setFld f v i).links = s.links := by cases s; rfl
@[simp] theorem State.setFld_ring (s : State) (f : Fld) (v i : Nat) : (s.setFld f v i).ring = s.ring := by cases s; rfl
@[simp] theorem State.setFld_host (s : State) (f : Fld) (v i : Nat) : (s.setFld f v i).host = s.host := by cases s; rfl
@[simp] theorem State.setFld_dramCtl (s : State) (f : Fld) (v i : Nat) : (s.setFld f v i).dramCtl = s.dramCtl := by cases s; rfl
@[simp] theorem State.setFld_dram (s : State) (f : Fld) (v i : Nat) : (s.setFld f v i).dram = s.dram := by cases s; rfl
@[simp] theorem State.setFld_diram (s : State) (f : Fld) (v i : Nat) : (s.setFld f v i).diram = s.diram := by cases s; rfl
@[simp] theorem State.setFld_due (s : State) (f : Fld) (v i : Nat) : (s.setFld f v i).due = s.due := by cases s; rfl
@[simp] theorem State.setFld_freeCounter (s : State) (f : Fld) (v i : Nat) : (s.setFld f v i).freeCounter = s.freeCounter := by cases s; rfl
@[simp] theorem State.setFld_out (s : State) (f : Fld) (v i : Nat) : (s.setFld f v i).out = s.out := by cases s; rfl
@[simp] theorem State.setFld_pending (s : State) (f : Fld) (v i : Nat) : (s.setFld f v i).pending = s.pending := by cases s; rfl

@[simp] theorem State.emit_clock (s : State) (e : Emit) : (s.emit e).clock = s.clock := by cases s; rfl
@[simp] theorem State.emit_regs (s : State) (e : Emit) : (s.emit e).regs = s.regs := by cases s; rfl
@[simp] theorem State.emit_setBits (s : State) (e : Emit) : (s.emit e).setBits = s.setBits := by cases s; rfl
@[simp] theorem State.emit_setAt (s : State) (e : Emit) : (s.emit e).setAt = s.setAt := by cases s; rfl
@[simp] theorem State.emit_rc (s : State) (e : Emit) : (s.emit e).rc = s.rc := by cases s; rfl
@[simp] theorem State.emit_start (s : State) (e : Emit) : (s.emit e).start = s.start := by cases s; rfl
@[simp] theorem State.emit_scratch (s : State) (e : Emit) : (s.emit e).scratch = s.scratch := by cases s; rfl
@[simp] theorem State.emit_memQueues (s : State) (e : Emit) : (s.emit e).memQueues = s.memQueues := by cases s; rfl
@[simp] theorem State.emit_fuses (s : State) (e : Emit) : (s.emit e).fuses = s.fuses := by cases s; rfl
@[simp] theorem State.emit_boot (s : State) (e : Emit) : (s.emit e).boot = s.boot := by cases s; rfl
@[simp] theorem State.emit_power (s : State) (e : Emit) : (s.emit e).power = s.power := by cases s; rfl
@[simp] theorem State.emit_faults (s : State) (e : Emit) : (s.emit e).faults = s.faults := by cases s; rfl
@[simp] theorem State.emit_service (s : State) (e : Emit) : (s.emit e).service = s.service := by cases s; rfl
@[simp] theorem State.emit_pins (s : State) (e : Emit) : (s.emit e).pins = s.pins := by cases s; rfl
@[simp] theorem State.emit_berths (s : State) (e : Emit) : (s.emit e).berths = s.berths := by cases s; rfl
@[simp] theorem State.emit_masters (s : State) (e : Emit) : (s.emit e).masters = s.masters := by cases s; rfl
@[simp] theorem State.emit_security (s : State) (e : Emit) : (s.emit e).security = s.security := by cases s; rfl
@[simp] theorem State.emit_tables (s : State) (e : Emit) : (s.emit e).tables = s.tables := by cases s; rfl
@[simp] theorem State.emit_arrays (s : State) (e : Emit) : (s.emit e).arrays = s.arrays := by cases s; rfl
@[simp] theorem State.emit_numbers (s : State) (e : Emit) : (s.emit e).numbers = s.numbers := by cases s; rfl
@[simp] theorem State.emit_cmds (s : State) (e : Emit) : (s.emit e).cmds = s.cmds := by cases s; rfl
@[simp] theorem State.emit_hot (s : State) (e : Emit) : (s.emit e).hot = s.hot := by cases s; rfl
@[simp] theorem State.emit_scrub (s : State) (e : Emit) : (s.emit e).scrub = s.scrub := by cases s; rfl
@[simp] theorem State.emit_learning (s : State) (e : Emit) : (s.emit e).learning = s.learning := by cases s; rfl
@[simp] theorem State.emit_manifest (s : State) (e : Emit) : (s.emit e).manifest = s.manifest := by cases s; rfl
@[simp] theorem State.emit_mode (s : State) (e : Emit) : (s.emit e).mode = s.mode := by cases s; rfl
@[simp] theorem State.emit_search (s : State) (e : Emit) : (s.emit e).search = s.search := by cases s; rfl
@[simp] theorem State.emit_scribes (s : State) (e : Emit) : (s.emit e).scribes = s.scribes := by cases s; rfl
@[simp] theorem State.emit_counters (s : State) (e : Emit) : (s.emit e).counters = s.counters := by cases s; rfl
@[simp] theorem State.emit_observe (s : State) (e : Emit) : (s.emit e).observe = s.observe := by cases s; rfl
@[simp] theorem State.emit_links (s : State) (e : Emit) : (s.emit e).links = s.links := by cases s; rfl
@[simp] theorem State.emit_ring (s : State) (e : Emit) : (s.emit e).ring = s.ring := by cases s; rfl
@[simp] theorem State.emit_host (s : State) (e : Emit) : (s.emit e).host = s.host := by cases s; rfl
@[simp] theorem State.emit_dramCtl (s : State) (e : Emit) : (s.emit e).dramCtl = s.dramCtl := by cases s; rfl
@[simp] theorem State.emit_dram (s : State) (e : Emit) : (s.emit e).dram = s.dram := by cases s; rfl
@[simp] theorem State.emit_diram (s : State) (e : Emit) : (s.emit e).diram = s.diram := by cases s; rfl
@[simp] theorem State.emit_due (s : State) (e : Emit) : (s.emit e).due = s.due := by cases s; rfl
@[simp] theorem State.emit_freeCounter (s : State) (e : Emit) : (s.emit e).freeCounter = s.freeCounter := by cases s; rfl
@[simp] theorem State.emit_pending (s : State) (e : Emit) : (s.emit e).pending = s.pending := by cases s; rfl

@[simp] theorem State.defer_clock (s : State) (c : Change) : (s.defer c).clock = s.clock := by cases s; rfl
@[simp] theorem State.defer_regs (s : State) (c : Change) : (s.defer c).regs = s.regs := by cases s; rfl
@[simp] theorem State.defer_setBits (s : State) (c : Change) : (s.defer c).setBits = s.setBits := by cases s; rfl
@[simp] theorem State.defer_setAt (s : State) (c : Change) : (s.defer c).setAt = s.setAt := by cases s; rfl
@[simp] theorem State.defer_rc (s : State) (c : Change) : (s.defer c).rc = s.rc := by cases s; rfl
@[simp] theorem State.defer_start (s : State) (c : Change) : (s.defer c).start = s.start := by cases s; rfl
@[simp] theorem State.defer_scratch (s : State) (c : Change) : (s.defer c).scratch = s.scratch := by cases s; rfl
@[simp] theorem State.defer_memQueues (s : State) (c : Change) : (s.defer c).memQueues = s.memQueues := by cases s; rfl
@[simp] theorem State.defer_fuses (s : State) (c : Change) : (s.defer c).fuses = s.fuses := by cases s; rfl
@[simp] theorem State.defer_boot (s : State) (c : Change) : (s.defer c).boot = s.boot := by cases s; rfl
@[simp] theorem State.defer_power (s : State) (c : Change) : (s.defer c).power = s.power := by cases s; rfl
@[simp] theorem State.defer_faults (s : State) (c : Change) : (s.defer c).faults = s.faults := by cases s; rfl
@[simp] theorem State.defer_service (s : State) (c : Change) : (s.defer c).service = s.service := by cases s; rfl
@[simp] theorem State.defer_pins (s : State) (c : Change) : (s.defer c).pins = s.pins := by cases s; rfl
@[simp] theorem State.defer_berths (s : State) (c : Change) : (s.defer c).berths = s.berths := by cases s; rfl
@[simp] theorem State.defer_masters (s : State) (c : Change) : (s.defer c).masters = s.masters := by cases s; rfl
@[simp] theorem State.defer_security (s : State) (c : Change) : (s.defer c).security = s.security := by cases s; rfl
@[simp] theorem State.defer_tables (s : State) (c : Change) : (s.defer c).tables = s.tables := by cases s; rfl
@[simp] theorem State.defer_arrays (s : State) (c : Change) : (s.defer c).arrays = s.arrays := by cases s; rfl
@[simp] theorem State.defer_numbers (s : State) (c : Change) : (s.defer c).numbers = s.numbers := by cases s; rfl
@[simp] theorem State.defer_cmds (s : State) (c : Change) : (s.defer c).cmds = s.cmds := by cases s; rfl
@[simp] theorem State.defer_hot (s : State) (c : Change) : (s.defer c).hot = s.hot := by cases s; rfl
@[simp] theorem State.defer_scrub (s : State) (c : Change) : (s.defer c).scrub = s.scrub := by cases s; rfl
@[simp] theorem State.defer_learning (s : State) (c : Change) : (s.defer c).learning = s.learning := by cases s; rfl
@[simp] theorem State.defer_manifest (s : State) (c : Change) : (s.defer c).manifest = s.manifest := by cases s; rfl
@[simp] theorem State.defer_mode (s : State) (c : Change) : (s.defer c).mode = s.mode := by cases s; rfl
@[simp] theorem State.defer_search (s : State) (c : Change) : (s.defer c).search = s.search := by cases s; rfl
@[simp] theorem State.defer_scribes (s : State) (c : Change) : (s.defer c).scribes = s.scribes := by cases s; rfl
@[simp] theorem State.defer_counters (s : State) (c : Change) : (s.defer c).counters = s.counters := by cases s; rfl
@[simp] theorem State.defer_observe (s : State) (c : Change) : (s.defer c).observe = s.observe := by cases s; rfl
@[simp] theorem State.defer_links (s : State) (c : Change) : (s.defer c).links = s.links := by cases s; rfl
@[simp] theorem State.defer_ring (s : State) (c : Change) : (s.defer c).ring = s.ring := by cases s; rfl
@[simp] theorem State.defer_host (s : State) (c : Change) : (s.defer c).host = s.host := by cases s; rfl
@[simp] theorem State.defer_dramCtl (s : State) (c : Change) : (s.defer c).dramCtl = s.dramCtl := by cases s; rfl
@[simp] theorem State.defer_dram (s : State) (c : Change) : (s.defer c).dram = s.dram := by cases s; rfl
@[simp] theorem State.defer_diram (s : State) (c : Change) : (s.defer c).diram = s.diram := by cases s; rfl
@[simp] theorem State.defer_freeCounter (s : State) (c : Change) : (s.defer c).freeCounter = s.freeCounter := by cases s; rfl
@[simp] theorem State.defer_out (s : State) (c : Change) : (s.defer c).out = s.out := by cases s; rfl
@[simp] theorem State.defer_pending (s : State) (c : Change) : (s.defer c).pending = s.pending := by cases s; rfl

@[simp] theorem State.raiseBits_clock (s : State) (f : Fld) (v i : Nat) : (s.raiseBits f v i).clock = s.clock := by cases s; rfl
@[simp] theorem State.raiseBits_rc (s : State) (f : Fld) (v i : Nat) : (s.raiseBits f v i).rc = s.rc := by cases s; rfl
@[simp] theorem State.raiseBits_start (s : State) (f : Fld) (v i : Nat) : (s.raiseBits f v i).start = s.start := by cases s; rfl
@[simp] theorem State.raiseBits_scratch (s : State) (f : Fld) (v i : Nat) : (s.raiseBits f v i).scratch = s.scratch := by cases s; rfl
@[simp] theorem State.raiseBits_memQueues (s : State) (f : Fld) (v i : Nat) : (s.raiseBits f v i).memQueues = s.memQueues := by cases s; rfl
@[simp] theorem State.raiseBits_fuses (s : State) (f : Fld) (v i : Nat) : (s.raiseBits f v i).fuses = s.fuses := by cases s; rfl
@[simp] theorem State.raiseBits_boot (s : State) (f : Fld) (v i : Nat) : (s.raiseBits f v i).boot = s.boot := by cases s; rfl
@[simp] theorem State.raiseBits_power (s : State) (f : Fld) (v i : Nat) : (s.raiseBits f v i).power = s.power := by cases s; rfl
@[simp] theorem State.raiseBits_faults (s : State) (f : Fld) (v i : Nat) : (s.raiseBits f v i).faults = s.faults := by cases s; rfl
@[simp] theorem State.raiseBits_service (s : State) (f : Fld) (v i : Nat) : (s.raiseBits f v i).service = s.service := by cases s; rfl
@[simp] theorem State.raiseBits_pins (s : State) (f : Fld) (v i : Nat) : (s.raiseBits f v i).pins = s.pins := by cases s; rfl
@[simp] theorem State.raiseBits_berths (s : State) (f : Fld) (v i : Nat) : (s.raiseBits f v i).berths = s.berths := by cases s; rfl
@[simp] theorem State.raiseBits_masters (s : State) (f : Fld) (v i : Nat) : (s.raiseBits f v i).masters = s.masters := by cases s; rfl
@[simp] theorem State.raiseBits_security (s : State) (f : Fld) (v i : Nat) : (s.raiseBits f v i).security = s.security := by cases s; rfl
@[simp] theorem State.raiseBits_tables (s : State) (f : Fld) (v i : Nat) : (s.raiseBits f v i).tables = s.tables := by cases s; rfl
@[simp] theorem State.raiseBits_arrays (s : State) (f : Fld) (v i : Nat) : (s.raiseBits f v i).arrays = s.arrays := by cases s; rfl
@[simp] theorem State.raiseBits_numbers (s : State) (f : Fld) (v i : Nat) : (s.raiseBits f v i).numbers = s.numbers := by cases s; rfl
@[simp] theorem State.raiseBits_cmds (s : State) (f : Fld) (v i : Nat) : (s.raiseBits f v i).cmds = s.cmds := by cases s; rfl
@[simp] theorem State.raiseBits_hot (s : State) (f : Fld) (v i : Nat) : (s.raiseBits f v i).hot = s.hot := by cases s; rfl
@[simp] theorem State.raiseBits_scrub (s : State) (f : Fld) (v i : Nat) : (s.raiseBits f v i).scrub = s.scrub := by cases s; rfl
@[simp] theorem State.raiseBits_learning (s : State) (f : Fld) (v i : Nat) : (s.raiseBits f v i).learning = s.learning := by cases s; rfl
@[simp] theorem State.raiseBits_manifest (s : State) (f : Fld) (v i : Nat) : (s.raiseBits f v i).manifest = s.manifest := by cases s; rfl
@[simp] theorem State.raiseBits_mode (s : State) (f : Fld) (v i : Nat) : (s.raiseBits f v i).mode = s.mode := by cases s; rfl
@[simp] theorem State.raiseBits_search (s : State) (f : Fld) (v i : Nat) : (s.raiseBits f v i).search = s.search := by cases s; rfl
@[simp] theorem State.raiseBits_scribes (s : State) (f : Fld) (v i : Nat) : (s.raiseBits f v i).scribes = s.scribes := by cases s; rfl
@[simp] theorem State.raiseBits_counters (s : State) (f : Fld) (v i : Nat) : (s.raiseBits f v i).counters = s.counters := by cases s; rfl
@[simp] theorem State.raiseBits_observe (s : State) (f : Fld) (v i : Nat) : (s.raiseBits f v i).observe = s.observe := by cases s; rfl
@[simp] theorem State.raiseBits_links (s : State) (f : Fld) (v i : Nat) : (s.raiseBits f v i).links = s.links := by cases s; rfl
@[simp] theorem State.raiseBits_ring (s : State) (f : Fld) (v i : Nat) : (s.raiseBits f v i).ring = s.ring := by cases s; rfl
@[simp] theorem State.raiseBits_host (s : State) (f : Fld) (v i : Nat) : (s.raiseBits f v i).host = s.host := by cases s; rfl
@[simp] theorem State.raiseBits_dramCtl (s : State) (f : Fld) (v i : Nat) : (s.raiseBits f v i).dramCtl = s.dramCtl := by cases s; rfl
@[simp] theorem State.raiseBits_dram (s : State) (f : Fld) (v i : Nat) : (s.raiseBits f v i).dram = s.dram := by cases s; rfl
@[simp] theorem State.raiseBits_diram (s : State) (f : Fld) (v i : Nat) : (s.raiseBits f v i).diram = s.diram := by cases s; rfl
@[simp] theorem State.raiseBits_due (s : State) (f : Fld) (v i : Nat) : (s.raiseBits f v i).due = s.due := by cases s; rfl
@[simp] theorem State.raiseBits_freeCounter (s : State) (f : Fld) (v i : Nat) : (s.raiseBits f v i).freeCounter = s.freeCounter := by cases s; rfl
@[simp] theorem State.raiseBits_out (s : State) (f : Fld) (v i : Nat) : (s.raiseBits f v i).out = s.out := by cases s; rfl
@[simp] theorem State.raiseBits_pending (s : State) (f : Fld) (v i : Nat) : (s.raiseBits f v i).pending = s.pending := by cases s; rfl

@[simp] theorem State.raise_clock (s : State) (f : Fld) (i : Nat) : (s.raise f i).clock = s.clock := by cases s; rfl
@[simp] theorem State.raise_rc (s : State) (f : Fld) (i : Nat) : (s.raise f i).rc = s.rc := by cases s; rfl
@[simp] theorem State.raise_start (s : State) (f : Fld) (i : Nat) : (s.raise f i).start = s.start := by cases s; rfl
@[simp] theorem State.raise_scratch (s : State) (f : Fld) (i : Nat) : (s.raise f i).scratch = s.scratch := by cases s; rfl
@[simp] theorem State.raise_memQueues (s : State) (f : Fld) (i : Nat) : (s.raise f i).memQueues = s.memQueues := by cases s; rfl
@[simp] theorem State.raise_fuses (s : State) (f : Fld) (i : Nat) : (s.raise f i).fuses = s.fuses := by cases s; rfl
@[simp] theorem State.raise_boot (s : State) (f : Fld) (i : Nat) : (s.raise f i).boot = s.boot := by cases s; rfl
@[simp] theorem State.raise_power (s : State) (f : Fld) (i : Nat) : (s.raise f i).power = s.power := by cases s; rfl
@[simp] theorem State.raise_faults (s : State) (f : Fld) (i : Nat) : (s.raise f i).faults = s.faults := by cases s; rfl
@[simp] theorem State.raise_service (s : State) (f : Fld) (i : Nat) : (s.raise f i).service = s.service := by cases s; rfl
@[simp] theorem State.raise_pins (s : State) (f : Fld) (i : Nat) : (s.raise f i).pins = s.pins := by cases s; rfl
@[simp] theorem State.raise_berths (s : State) (f : Fld) (i : Nat) : (s.raise f i).berths = s.berths := by cases s; rfl
@[simp] theorem State.raise_masters (s : State) (f : Fld) (i : Nat) : (s.raise f i).masters = s.masters := by cases s; rfl
@[simp] theorem State.raise_security (s : State) (f : Fld) (i : Nat) : (s.raise f i).security = s.security := by cases s; rfl
@[simp] theorem State.raise_tables (s : State) (f : Fld) (i : Nat) : (s.raise f i).tables = s.tables := by cases s; rfl
@[simp] theorem State.raise_arrays (s : State) (f : Fld) (i : Nat) : (s.raise f i).arrays = s.arrays := by cases s; rfl
@[simp] theorem State.raise_numbers (s : State) (f : Fld) (i : Nat) : (s.raise f i).numbers = s.numbers := by cases s; rfl
@[simp] theorem State.raise_cmds (s : State) (f : Fld) (i : Nat) : (s.raise f i).cmds = s.cmds := by cases s; rfl
@[simp] theorem State.raise_hot (s : State) (f : Fld) (i : Nat) : (s.raise f i).hot = s.hot := by cases s; rfl
@[simp] theorem State.raise_scrub (s : State) (f : Fld) (i : Nat) : (s.raise f i).scrub = s.scrub := by cases s; rfl
@[simp] theorem State.raise_learning (s : State) (f : Fld) (i : Nat) : (s.raise f i).learning = s.learning := by cases s; rfl
@[simp] theorem State.raise_manifest (s : State) (f : Fld) (i : Nat) : (s.raise f i).manifest = s.manifest := by cases s; rfl
@[simp] theorem State.raise_mode (s : State) (f : Fld) (i : Nat) : (s.raise f i).mode = s.mode := by cases s; rfl
@[simp] theorem State.raise_search (s : State) (f : Fld) (i : Nat) : (s.raise f i).search = s.search := by cases s; rfl
@[simp] theorem State.raise_scribes (s : State) (f : Fld) (i : Nat) : (s.raise f i).scribes = s.scribes := by cases s; rfl
@[simp] theorem State.raise_counters (s : State) (f : Fld) (i : Nat) : (s.raise f i).counters = s.counters := by cases s; rfl
@[simp] theorem State.raise_observe (s : State) (f : Fld) (i : Nat) : (s.raise f i).observe = s.observe := by cases s; rfl
@[simp] theorem State.raise_links (s : State) (f : Fld) (i : Nat) : (s.raise f i).links = s.links := by cases s; rfl
@[simp] theorem State.raise_ring (s : State) (f : Fld) (i : Nat) : (s.raise f i).ring = s.ring := by cases s; rfl
@[simp] theorem State.raise_host (s : State) (f : Fld) (i : Nat) : (s.raise f i).host = s.host := by cases s; rfl
@[simp] theorem State.raise_dramCtl (s : State) (f : Fld) (i : Nat) : (s.raise f i).dramCtl = s.dramCtl := by cases s; rfl
@[simp] theorem State.raise_dram (s : State) (f : Fld) (i : Nat) : (s.raise f i).dram = s.dram := by cases s; rfl
@[simp] theorem State.raise_diram (s : State) (f : Fld) (i : Nat) : (s.raise f i).diram = s.diram := by cases s; rfl
@[simp] theorem State.raise_due (s : State) (f : Fld) (i : Nat) : (s.raise f i).due = s.due := by cases s; rfl
@[simp] theorem State.raise_freeCounter (s : State) (f : Fld) (i : Nat) : (s.raise f i).freeCounter = s.freeCounter := by cases s; rfl
@[simp] theorem State.raise_out (s : State) (f : Fld) (i : Nat) : (s.raise f i).out = s.out := by cases s; rfl
@[simp] theorem State.raise_pending (s : State) (f : Fld) (i : Nat) : (s.raise f i).pending = s.pending := by cases s; rfl

@[simp] theorem State.bump_clock (s : State) (f : Fld) (n i : Nat) : (s.bump f n i).clock = s.clock := by cases s; rfl
@[simp] theorem State.bump_setBits (s : State) (f : Fld) (n i : Nat) : (s.bump f n i).setBits = s.setBits := by cases s; rfl
@[simp] theorem State.bump_setAt (s : State) (f : Fld) (n i : Nat) : (s.bump f n i).setAt = s.setAt := by cases s; rfl
@[simp] theorem State.bump_start (s : State) (f : Fld) (n i : Nat) : (s.bump f n i).start = s.start := by cases s; rfl
@[simp] theorem State.bump_scratch (s : State) (f : Fld) (n i : Nat) : (s.bump f n i).scratch = s.scratch := by cases s; rfl
@[simp] theorem State.bump_memQueues (s : State) (f : Fld) (n i : Nat) : (s.bump f n i).memQueues = s.memQueues := by cases s; rfl
@[simp] theorem State.bump_fuses (s : State) (f : Fld) (n i : Nat) : (s.bump f n i).fuses = s.fuses := by cases s; rfl
@[simp] theorem State.bump_boot (s : State) (f : Fld) (n i : Nat) : (s.bump f n i).boot = s.boot := by cases s; rfl
@[simp] theorem State.bump_power (s : State) (f : Fld) (n i : Nat) : (s.bump f n i).power = s.power := by cases s; rfl
@[simp] theorem State.bump_faults (s : State) (f : Fld) (n i : Nat) : (s.bump f n i).faults = s.faults := by cases s; rfl
@[simp] theorem State.bump_service (s : State) (f : Fld) (n i : Nat) : (s.bump f n i).service = s.service := by cases s; rfl
@[simp] theorem State.bump_pins (s : State) (f : Fld) (n i : Nat) : (s.bump f n i).pins = s.pins := by cases s; rfl
@[simp] theorem State.bump_berths (s : State) (f : Fld) (n i : Nat) : (s.bump f n i).berths = s.berths := by cases s; rfl
@[simp] theorem State.bump_masters (s : State) (f : Fld) (n i : Nat) : (s.bump f n i).masters = s.masters := by cases s; rfl
@[simp] theorem State.bump_security (s : State) (f : Fld) (n i : Nat) : (s.bump f n i).security = s.security := by cases s; rfl
@[simp] theorem State.bump_tables (s : State) (f : Fld) (n i : Nat) : (s.bump f n i).tables = s.tables := by cases s; rfl
@[simp] theorem State.bump_arrays (s : State) (f : Fld) (n i : Nat) : (s.bump f n i).arrays = s.arrays := by cases s; rfl
@[simp] theorem State.bump_numbers (s : State) (f : Fld) (n i : Nat) : (s.bump f n i).numbers = s.numbers := by cases s; rfl
@[simp] theorem State.bump_cmds (s : State) (f : Fld) (n i : Nat) : (s.bump f n i).cmds = s.cmds := by cases s; rfl
@[simp] theorem State.bump_hot (s : State) (f : Fld) (n i : Nat) : (s.bump f n i).hot = s.hot := by cases s; rfl
@[simp] theorem State.bump_scrub (s : State) (f : Fld) (n i : Nat) : (s.bump f n i).scrub = s.scrub := by cases s; rfl
@[simp] theorem State.bump_learning (s : State) (f : Fld) (n i : Nat) : (s.bump f n i).learning = s.learning := by cases s; rfl
@[simp] theorem State.bump_manifest (s : State) (f : Fld) (n i : Nat) : (s.bump f n i).manifest = s.manifest := by cases s; rfl
@[simp] theorem State.bump_mode (s : State) (f : Fld) (n i : Nat) : (s.bump f n i).mode = s.mode := by cases s; rfl
@[simp] theorem State.bump_search (s : State) (f : Fld) (n i : Nat) : (s.bump f n i).search = s.search := by cases s; rfl
@[simp] theorem State.bump_scribes (s : State) (f : Fld) (n i : Nat) : (s.bump f n i).scribes = s.scribes := by cases s; rfl
@[simp] theorem State.bump_counters (s : State) (f : Fld) (n i : Nat) : (s.bump f n i).counters = s.counters := by cases s; rfl
@[simp] theorem State.bump_observe (s : State) (f : Fld) (n i : Nat) : (s.bump f n i).observe = s.observe := by cases s; rfl
@[simp] theorem State.bump_links (s : State) (f : Fld) (n i : Nat) : (s.bump f n i).links = s.links := by cases s; rfl
@[simp] theorem State.bump_ring (s : State) (f : Fld) (n i : Nat) : (s.bump f n i).ring = s.ring := by cases s; rfl
@[simp] theorem State.bump_host (s : State) (f : Fld) (n i : Nat) : (s.bump f n i).host = s.host := by cases s; rfl
@[simp] theorem State.bump_dramCtl (s : State) (f : Fld) (n i : Nat) : (s.bump f n i).dramCtl = s.dramCtl := by cases s; rfl
@[simp] theorem State.bump_dram (s : State) (f : Fld) (n i : Nat) : (s.bump f n i).dram = s.dram := by cases s; rfl
@[simp] theorem State.bump_diram (s : State) (f : Fld) (n i : Nat) : (s.bump f n i).diram = s.diram := by cases s; rfl
@[simp] theorem State.bump_due (s : State) (f : Fld) (n i : Nat) : (s.bump f n i).due = s.due := by cases s; rfl
@[simp] theorem State.bump_out (s : State) (f : Fld) (n i : Nat) : (s.bump f n i).out = s.out := by cases s; rfl
@[simp] theorem State.bump_pending (s : State) (f : Fld) (n i : Nat) : (s.bump f n i).pending = s.pending := by cases s; rfl

@[simp] theorem State.bumpHold_clock (s : State) (f : Fld) (n i : Nat) : (s.bumpHold f n i).clock = s.clock := by cases s; rfl
@[simp] theorem State.bumpHold_setBits (s : State) (f : Fld) (n i : Nat) : (s.bumpHold f n i).setBits = s.setBits := by cases s; rfl
@[simp] theorem State.bumpHold_setAt (s : State) (f : Fld) (n i : Nat) : (s.bumpHold f n i).setAt = s.setAt := by cases s; rfl
@[simp] theorem State.bumpHold_start (s : State) (f : Fld) (n i : Nat) : (s.bumpHold f n i).start = s.start := by cases s; rfl
@[simp] theorem State.bumpHold_scratch (s : State) (f : Fld) (n i : Nat) : (s.bumpHold f n i).scratch = s.scratch := by cases s; rfl
@[simp] theorem State.bumpHold_memQueues (s : State) (f : Fld) (n i : Nat) : (s.bumpHold f n i).memQueues = s.memQueues := by cases s; rfl
@[simp] theorem State.bumpHold_fuses (s : State) (f : Fld) (n i : Nat) : (s.bumpHold f n i).fuses = s.fuses := by cases s; rfl
@[simp] theorem State.bumpHold_boot (s : State) (f : Fld) (n i : Nat) : (s.bumpHold f n i).boot = s.boot := by cases s; rfl
@[simp] theorem State.bumpHold_power (s : State) (f : Fld) (n i : Nat) : (s.bumpHold f n i).power = s.power := by cases s; rfl
@[simp] theorem State.bumpHold_faults (s : State) (f : Fld) (n i : Nat) : (s.bumpHold f n i).faults = s.faults := by cases s; rfl
@[simp] theorem State.bumpHold_service (s : State) (f : Fld) (n i : Nat) : (s.bumpHold f n i).service = s.service := by cases s; rfl
@[simp] theorem State.bumpHold_pins (s : State) (f : Fld) (n i : Nat) : (s.bumpHold f n i).pins = s.pins := by cases s; rfl
@[simp] theorem State.bumpHold_berths (s : State) (f : Fld) (n i : Nat) : (s.bumpHold f n i).berths = s.berths := by cases s; rfl
@[simp] theorem State.bumpHold_masters (s : State) (f : Fld) (n i : Nat) : (s.bumpHold f n i).masters = s.masters := by cases s; rfl
@[simp] theorem State.bumpHold_security (s : State) (f : Fld) (n i : Nat) : (s.bumpHold f n i).security = s.security := by cases s; rfl
@[simp] theorem State.bumpHold_tables (s : State) (f : Fld) (n i : Nat) : (s.bumpHold f n i).tables = s.tables := by cases s; rfl
@[simp] theorem State.bumpHold_arrays (s : State) (f : Fld) (n i : Nat) : (s.bumpHold f n i).arrays = s.arrays := by cases s; rfl
@[simp] theorem State.bumpHold_numbers (s : State) (f : Fld) (n i : Nat) : (s.bumpHold f n i).numbers = s.numbers := by cases s; rfl
@[simp] theorem State.bumpHold_cmds (s : State) (f : Fld) (n i : Nat) : (s.bumpHold f n i).cmds = s.cmds := by cases s; rfl
@[simp] theorem State.bumpHold_hot (s : State) (f : Fld) (n i : Nat) : (s.bumpHold f n i).hot = s.hot := by cases s; rfl
@[simp] theorem State.bumpHold_scrub (s : State) (f : Fld) (n i : Nat) : (s.bumpHold f n i).scrub = s.scrub := by cases s; rfl
@[simp] theorem State.bumpHold_learning (s : State) (f : Fld) (n i : Nat) : (s.bumpHold f n i).learning = s.learning := by cases s; rfl
@[simp] theorem State.bumpHold_manifest (s : State) (f : Fld) (n i : Nat) : (s.bumpHold f n i).manifest = s.manifest := by cases s; rfl
@[simp] theorem State.bumpHold_mode (s : State) (f : Fld) (n i : Nat) : (s.bumpHold f n i).mode = s.mode := by cases s; rfl
@[simp] theorem State.bumpHold_search (s : State) (f : Fld) (n i : Nat) : (s.bumpHold f n i).search = s.search := by cases s; rfl
@[simp] theorem State.bumpHold_scribes (s : State) (f : Fld) (n i : Nat) : (s.bumpHold f n i).scribes = s.scribes := by cases s; rfl
@[simp] theorem State.bumpHold_counters (s : State) (f : Fld) (n i : Nat) : (s.bumpHold f n i).counters = s.counters := by cases s; rfl
@[simp] theorem State.bumpHold_observe (s : State) (f : Fld) (n i : Nat) : (s.bumpHold f n i).observe = s.observe := by cases s; rfl
@[simp] theorem State.bumpHold_links (s : State) (f : Fld) (n i : Nat) : (s.bumpHold f n i).links = s.links := by cases s; rfl
@[simp] theorem State.bumpHold_ring (s : State) (f : Fld) (n i : Nat) : (s.bumpHold f n i).ring = s.ring := by cases s; rfl
@[simp] theorem State.bumpHold_host (s : State) (f : Fld) (n i : Nat) : (s.bumpHold f n i).host = s.host := by cases s; rfl
@[simp] theorem State.bumpHold_dramCtl (s : State) (f : Fld) (n i : Nat) : (s.bumpHold f n i).dramCtl = s.dramCtl := by cases s; rfl
@[simp] theorem State.bumpHold_dram (s : State) (f : Fld) (n i : Nat) : (s.bumpHold f n i).dram = s.dram := by cases s; rfl
@[simp] theorem State.bumpHold_diram (s : State) (f : Fld) (n i : Nat) : (s.bumpHold f n i).diram = s.diram := by cases s; rfl
@[simp] theorem State.bumpHold_due (s : State) (f : Fld) (n i : Nat) : (s.bumpHold f n i).due = s.due := by cases s; rfl
@[simp] theorem State.bumpHold_freeCounter (s : State) (f : Fld) (n i : Nat) : (s.bumpHold f n i).freeCounter = s.freeCounter := by cases s; rfl
@[simp] theorem State.bumpHold_out (s : State) (f : Fld) (n i : Nat) : (s.bumpHold f n i).out = s.out := by cases s; rfl
@[simp] theorem State.bumpHold_pending (s : State) (f : Fld) (n i : Nat) : (s.bumpHold f n i).pending = s.pending := by cases s; rfl

@[simp] theorem State.bumpMod_clock (s : State) (f : Fld) (n i : Nat) : (s.bumpMod f n i).clock = s.clock := by cases s; rfl
@[simp] theorem State.bumpMod_setBits (s : State) (f : Fld) (n i : Nat) : (s.bumpMod f n i).setBits = s.setBits := by cases s; rfl
@[simp] theorem State.bumpMod_setAt (s : State) (f : Fld) (n i : Nat) : (s.bumpMod f n i).setAt = s.setAt := by cases s; rfl
@[simp] theorem State.bumpMod_start (s : State) (f : Fld) (n i : Nat) : (s.bumpMod f n i).start = s.start := by cases s; rfl
@[simp] theorem State.bumpMod_scratch (s : State) (f : Fld) (n i : Nat) : (s.bumpMod f n i).scratch = s.scratch := by cases s; rfl
@[simp] theorem State.bumpMod_memQueues (s : State) (f : Fld) (n i : Nat) : (s.bumpMod f n i).memQueues = s.memQueues := by cases s; rfl
@[simp] theorem State.bumpMod_fuses (s : State) (f : Fld) (n i : Nat) : (s.bumpMod f n i).fuses = s.fuses := by cases s; rfl
@[simp] theorem State.bumpMod_boot (s : State) (f : Fld) (n i : Nat) : (s.bumpMod f n i).boot = s.boot := by cases s; rfl
@[simp] theorem State.bumpMod_power (s : State) (f : Fld) (n i : Nat) : (s.bumpMod f n i).power = s.power := by cases s; rfl
@[simp] theorem State.bumpMod_faults (s : State) (f : Fld) (n i : Nat) : (s.bumpMod f n i).faults = s.faults := by cases s; rfl
@[simp] theorem State.bumpMod_service (s : State) (f : Fld) (n i : Nat) : (s.bumpMod f n i).service = s.service := by cases s; rfl
@[simp] theorem State.bumpMod_pins (s : State) (f : Fld) (n i : Nat) : (s.bumpMod f n i).pins = s.pins := by cases s; rfl
@[simp] theorem State.bumpMod_berths (s : State) (f : Fld) (n i : Nat) : (s.bumpMod f n i).berths = s.berths := by cases s; rfl
@[simp] theorem State.bumpMod_masters (s : State) (f : Fld) (n i : Nat) : (s.bumpMod f n i).masters = s.masters := by cases s; rfl
@[simp] theorem State.bumpMod_security (s : State) (f : Fld) (n i : Nat) : (s.bumpMod f n i).security = s.security := by cases s; rfl
@[simp] theorem State.bumpMod_tables (s : State) (f : Fld) (n i : Nat) : (s.bumpMod f n i).tables = s.tables := by cases s; rfl
@[simp] theorem State.bumpMod_arrays (s : State) (f : Fld) (n i : Nat) : (s.bumpMod f n i).arrays = s.arrays := by cases s; rfl
@[simp] theorem State.bumpMod_numbers (s : State) (f : Fld) (n i : Nat) : (s.bumpMod f n i).numbers = s.numbers := by cases s; rfl
@[simp] theorem State.bumpMod_cmds (s : State) (f : Fld) (n i : Nat) : (s.bumpMod f n i).cmds = s.cmds := by cases s; rfl
@[simp] theorem State.bumpMod_hot (s : State) (f : Fld) (n i : Nat) : (s.bumpMod f n i).hot = s.hot := by cases s; rfl
@[simp] theorem State.bumpMod_scrub (s : State) (f : Fld) (n i : Nat) : (s.bumpMod f n i).scrub = s.scrub := by cases s; rfl
@[simp] theorem State.bumpMod_learning (s : State) (f : Fld) (n i : Nat) : (s.bumpMod f n i).learning = s.learning := by cases s; rfl
@[simp] theorem State.bumpMod_manifest (s : State) (f : Fld) (n i : Nat) : (s.bumpMod f n i).manifest = s.manifest := by cases s; rfl
@[simp] theorem State.bumpMod_mode (s : State) (f : Fld) (n i : Nat) : (s.bumpMod f n i).mode = s.mode := by cases s; rfl
@[simp] theorem State.bumpMod_search (s : State) (f : Fld) (n i : Nat) : (s.bumpMod f n i).search = s.search := by cases s; rfl
@[simp] theorem State.bumpMod_scribes (s : State) (f : Fld) (n i : Nat) : (s.bumpMod f n i).scribes = s.scribes := by cases s; rfl
@[simp] theorem State.bumpMod_counters (s : State) (f : Fld) (n i : Nat) : (s.bumpMod f n i).counters = s.counters := by cases s; rfl
@[simp] theorem State.bumpMod_observe (s : State) (f : Fld) (n i : Nat) : (s.bumpMod f n i).observe = s.observe := by cases s; rfl
@[simp] theorem State.bumpMod_links (s : State) (f : Fld) (n i : Nat) : (s.bumpMod f n i).links = s.links := by cases s; rfl
@[simp] theorem State.bumpMod_ring (s : State) (f : Fld) (n i : Nat) : (s.bumpMod f n i).ring = s.ring := by cases s; rfl
@[simp] theorem State.bumpMod_host (s : State) (f : Fld) (n i : Nat) : (s.bumpMod f n i).host = s.host := by cases s; rfl
@[simp] theorem State.bumpMod_dramCtl (s : State) (f : Fld) (n i : Nat) : (s.bumpMod f n i).dramCtl = s.dramCtl := by cases s; rfl
@[simp] theorem State.bumpMod_dram (s : State) (f : Fld) (n i : Nat) : (s.bumpMod f n i).dram = s.dram := by cases s; rfl
@[simp] theorem State.bumpMod_diram (s : State) (f : Fld) (n i : Nat) : (s.bumpMod f n i).diram = s.diram := by cases s; rfl
@[simp] theorem State.bumpMod_due (s : State) (f : Fld) (n i : Nat) : (s.bumpMod f n i).due = s.due := by cases s; rfl
@[simp] theorem State.bumpMod_freeCounter (s : State) (f : Fld) (n i : Nat) : (s.bumpMod f n i).freeCounter = s.freeCounter := by cases s; rfl
@[simp] theorem State.bumpMod_out (s : State) (f : Fld) (n i : Nat) : (s.bumpMod f n i).out = s.out := by cases s; rfl
@[simp] theorem State.bumpMod_pending (s : State) (f : Fld) (n i : Nat) : (s.bumpMod f n i).pending = s.pending := by cases s; rfl

@[simp] theorem State.sendVector_clock (s : State) (cls : Nat) : (s.sendVector cls).clock = s.clock := by cases s; rfl
@[simp] theorem State.sendVector_regs (s : State) (cls : Nat) : (s.sendVector cls).regs = s.regs := by cases s; rfl
@[simp] theorem State.sendVector_setBits (s : State) (cls : Nat) : (s.sendVector cls).setBits = s.setBits := by cases s; rfl
@[simp] theorem State.sendVector_setAt (s : State) (cls : Nat) : (s.sendVector cls).setAt = s.setAt := by cases s; rfl
@[simp] theorem State.sendVector_rc (s : State) (cls : Nat) : (s.sendVector cls).rc = s.rc := by cases s; rfl
@[simp] theorem State.sendVector_start (s : State) (cls : Nat) : (s.sendVector cls).start = s.start := by cases s; rfl
@[simp] theorem State.sendVector_scratch (s : State) (cls : Nat) : (s.sendVector cls).scratch = s.scratch := by cases s; rfl
@[simp] theorem State.sendVector_memQueues (s : State) (cls : Nat) : (s.sendVector cls).memQueues = s.memQueues := by cases s; rfl
@[simp] theorem State.sendVector_fuses (s : State) (cls : Nat) : (s.sendVector cls).fuses = s.fuses := by cases s; rfl
@[simp] theorem State.sendVector_boot (s : State) (cls : Nat) : (s.sendVector cls).boot = s.boot := by cases s; rfl
@[simp] theorem State.sendVector_power (s : State) (cls : Nat) : (s.sendVector cls).power = s.power := by cases s; rfl
@[simp] theorem State.sendVector_faults (s : State) (cls : Nat) : (s.sendVector cls).faults = s.faults := by cases s; rfl
@[simp] theorem State.sendVector_service (s : State) (cls : Nat) : (s.sendVector cls).service = s.service := by cases s; rfl
@[simp] theorem State.sendVector_pins (s : State) (cls : Nat) : (s.sendVector cls).pins = s.pins := by cases s; rfl
@[simp] theorem State.sendVector_berths (s : State) (cls : Nat) : (s.sendVector cls).berths = s.berths := by cases s; rfl
@[simp] theorem State.sendVector_masters (s : State) (cls : Nat) : (s.sendVector cls).masters = s.masters := by cases s; rfl
@[simp] theorem State.sendVector_security (s : State) (cls : Nat) : (s.sendVector cls).security = s.security := by cases s; rfl
@[simp] theorem State.sendVector_tables (s : State) (cls : Nat) : (s.sendVector cls).tables = s.tables := by cases s; rfl
@[simp] theorem State.sendVector_arrays (s : State) (cls : Nat) : (s.sendVector cls).arrays = s.arrays := by cases s; rfl
@[simp] theorem State.sendVector_numbers (s : State) (cls : Nat) : (s.sendVector cls).numbers = s.numbers := by cases s; rfl
@[simp] theorem State.sendVector_cmds (s : State) (cls : Nat) : (s.sendVector cls).cmds = s.cmds := by cases s; rfl
@[simp] theorem State.sendVector_hot (s : State) (cls : Nat) : (s.sendVector cls).hot = s.hot := by cases s; rfl
@[simp] theorem State.sendVector_scrub (s : State) (cls : Nat) : (s.sendVector cls).scrub = s.scrub := by cases s; rfl
@[simp] theorem State.sendVector_learning (s : State) (cls : Nat) : (s.sendVector cls).learning = s.learning := by cases s; rfl
@[simp] theorem State.sendVector_manifest (s : State) (cls : Nat) : (s.sendVector cls).manifest = s.manifest := by cases s; rfl
@[simp] theorem State.sendVector_mode (s : State) (cls : Nat) : (s.sendVector cls).mode = s.mode := by cases s; rfl
@[simp] theorem State.sendVector_search (s : State) (cls : Nat) : (s.sendVector cls).search = s.search := by cases s; rfl
@[simp] theorem State.sendVector_scribes (s : State) (cls : Nat) : (s.sendVector cls).scribes = s.scribes := by cases s; rfl
@[simp] theorem State.sendVector_counters (s : State) (cls : Nat) : (s.sendVector cls).counters = s.counters := by cases s; rfl
@[simp] theorem State.sendVector_observe (s : State) (cls : Nat) : (s.sendVector cls).observe = s.observe := by cases s; rfl
@[simp] theorem State.sendVector_links (s : State) (cls : Nat) : (s.sendVector cls).links = s.links := by cases s; rfl
@[simp] theorem State.sendVector_ring (s : State) (cls : Nat) : (s.sendVector cls).ring = s.ring := by cases s; rfl
@[simp] theorem State.sendVector_host (s : State) (cls : Nat) : (s.sendVector cls).host = s.host := by cases s; rfl
@[simp] theorem State.sendVector_dramCtl (s : State) (cls : Nat) : (s.sendVector cls).dramCtl = s.dramCtl := by cases s; rfl
@[simp] theorem State.sendVector_dram (s : State) (cls : Nat) : (s.sendVector cls).dram = s.dram := by cases s; rfl
@[simp] theorem State.sendVector_diram (s : State) (cls : Nat) : (s.sendVector cls).diram = s.diram := by cases s; rfl
@[simp] theorem State.sendVector_due (s : State) (cls : Nat) : (s.sendVector cls).due = s.due := by cases s; rfl
@[simp] theorem State.sendVector_freeCounter (s : State) (cls : Nat) : (s.sendVector cls).freeCounter = s.freeCounter := by cases s; rfl
@[simp] theorem State.sendVector_pending (s : State) (cls : Nat) : (s.sendVector cls).pending = s.pending := by cases s; rfl

@[simp] theorem State.postFault_clock (s : State) (cls block : Nat) (bytes : Bytes) : (s.postFault cls block bytes).clock = s.clock := by
  simp only [State.postFault]; repeat' split
  all_goals simp
@[simp] theorem State.postFault_start (s : State) (cls block : Nat) (bytes : Bytes) : (s.postFault cls block bytes).start = s.start := by
  simp only [State.postFault]; repeat' split
  all_goals simp
@[simp] theorem State.postFault_scratch (s : State) (cls block : Nat) (bytes : Bytes) : (s.postFault cls block bytes).scratch = s.scratch := by
  simp only [State.postFault]; repeat' split
  all_goals simp
@[simp] theorem State.postFault_memQueues (s : State) (cls block : Nat) (bytes : Bytes) : (s.postFault cls block bytes).memQueues = s.memQueues := by
  simp only [State.postFault]; repeat' split
  all_goals simp
@[simp] theorem State.postFault_fuses (s : State) (cls block : Nat) (bytes : Bytes) : (s.postFault cls block bytes).fuses = s.fuses := by
  simp only [State.postFault]; repeat' split
  all_goals simp
@[simp] theorem State.postFault_boot (s : State) (cls block : Nat) (bytes : Bytes) : (s.postFault cls block bytes).boot = s.boot := by
  simp only [State.postFault]; repeat' split
  all_goals simp
@[simp] theorem State.postFault_power (s : State) (cls block : Nat) (bytes : Bytes) : (s.postFault cls block bytes).power = s.power := by
  simp only [State.postFault]; repeat' split
  all_goals simp
@[simp] theorem State.postFault_service (s : State) (cls block : Nat) (bytes : Bytes) : (s.postFault cls block bytes).service = s.service := by
  simp only [State.postFault]; repeat' split
  all_goals simp
@[simp] theorem State.postFault_pins (s : State) (cls block : Nat) (bytes : Bytes) : (s.postFault cls block bytes).pins = s.pins := by
  simp only [State.postFault]; repeat' split
  all_goals simp
@[simp] theorem State.postFault_berths (s : State) (cls block : Nat) (bytes : Bytes) : (s.postFault cls block bytes).berths = s.berths := by
  simp only [State.postFault]; repeat' split
  all_goals simp
@[simp] theorem State.postFault_masters (s : State) (cls block : Nat) (bytes : Bytes) : (s.postFault cls block bytes).masters = s.masters := by
  simp only [State.postFault]; repeat' split
  all_goals simp
@[simp] theorem State.postFault_security (s : State) (cls block : Nat) (bytes : Bytes) : (s.postFault cls block bytes).security = s.security := by
  simp only [State.postFault]; repeat' split
  all_goals simp
@[simp] theorem State.postFault_tables (s : State) (cls block : Nat) (bytes : Bytes) : (s.postFault cls block bytes).tables = s.tables := by
  simp only [State.postFault]; repeat' split
  all_goals simp
@[simp] theorem State.postFault_arrays (s : State) (cls block : Nat) (bytes : Bytes) : (s.postFault cls block bytes).arrays = s.arrays := by
  simp only [State.postFault]; repeat' split
  all_goals simp
@[simp] theorem State.postFault_numbers (s : State) (cls block : Nat) (bytes : Bytes) : (s.postFault cls block bytes).numbers = s.numbers := by
  simp only [State.postFault]; repeat' split
  all_goals simp
@[simp] theorem State.postFault_cmds (s : State) (cls block : Nat) (bytes : Bytes) : (s.postFault cls block bytes).cmds = s.cmds := by
  simp only [State.postFault]; repeat' split
  all_goals simp
@[simp] theorem State.postFault_hot (s : State) (cls block : Nat) (bytes : Bytes) : (s.postFault cls block bytes).hot = s.hot := by
  simp only [State.postFault]; repeat' split
  all_goals simp
@[simp] theorem State.postFault_scrub (s : State) (cls block : Nat) (bytes : Bytes) : (s.postFault cls block bytes).scrub = s.scrub := by
  simp only [State.postFault]; repeat' split
  all_goals simp
@[simp] theorem State.postFault_learning (s : State) (cls block : Nat) (bytes : Bytes) : (s.postFault cls block bytes).learning = s.learning := by
  simp only [State.postFault]; repeat' split
  all_goals simp
@[simp] theorem State.postFault_manifest (s : State) (cls block : Nat) (bytes : Bytes) : (s.postFault cls block bytes).manifest = s.manifest := by
  simp only [State.postFault]; repeat' split
  all_goals simp
@[simp] theorem State.postFault_mode (s : State) (cls block : Nat) (bytes : Bytes) : (s.postFault cls block bytes).mode = s.mode := by
  simp only [State.postFault]; repeat' split
  all_goals simp
@[simp] theorem State.postFault_search (s : State) (cls block : Nat) (bytes : Bytes) : (s.postFault cls block bytes).search = s.search := by
  simp only [State.postFault]; repeat' split
  all_goals simp
@[simp] theorem State.postFault_scribes (s : State) (cls block : Nat) (bytes : Bytes) : (s.postFault cls block bytes).scribes = s.scribes := by
  simp only [State.postFault]; repeat' split
  all_goals simp
@[simp] theorem State.postFault_counters (s : State) (cls block : Nat) (bytes : Bytes) : (s.postFault cls block bytes).counters = s.counters := by
  simp only [State.postFault]; repeat' split
  all_goals simp
@[simp] theorem State.postFault_observe (s : State) (cls block : Nat) (bytes : Bytes) : (s.postFault cls block bytes).observe = s.observe := by
  simp only [State.postFault]; repeat' split
  all_goals simp
@[simp] theorem State.postFault_links (s : State) (cls block : Nat) (bytes : Bytes) : (s.postFault cls block bytes).links = s.links := by
  simp only [State.postFault]; repeat' split
  all_goals simp
@[simp] theorem State.postFault_ring (s : State) (cls block : Nat) (bytes : Bytes) : (s.postFault cls block bytes).ring = s.ring := by
  simp only [State.postFault]; repeat' split
  all_goals simp
@[simp] theorem State.postFault_host (s : State) (cls block : Nat) (bytes : Bytes) : (s.postFault cls block bytes).host = s.host := by
  simp only [State.postFault]; repeat' split
  all_goals simp
@[simp] theorem State.postFault_dramCtl (s : State) (cls block : Nat) (bytes : Bytes) : (s.postFault cls block bytes).dramCtl = s.dramCtl := by
  simp only [State.postFault]; repeat' split
  all_goals simp
@[simp] theorem State.postFault_dram (s : State) (cls block : Nat) (bytes : Bytes) : (s.postFault cls block bytes).dram = s.dram := by
  simp only [State.postFault]; repeat' split
  all_goals simp
@[simp] theorem State.postFault_diram (s : State) (cls block : Nat) (bytes : Bytes) : (s.postFault cls block bytes).diram = s.diram := by
  simp only [State.postFault]; repeat' split
  all_goals simp
@[simp] theorem State.postFault_due (s : State) (cls block : Nat) (bytes : Bytes) : (s.postFault cls block bytes).due = s.due := by
  simp only [State.postFault]; repeat' split
  all_goals simp
@[simp] theorem State.postFault_pending (s : State) (cls block : Nat) (bytes : Bytes) : (s.postFault cls block bytes).pending = s.pending := by
  simp only [State.postFault]; repeat' split
  all_goals simp

@[simp] theorem State.faultEvent_clock (s : State) (code cls block object a b : Nat) : (s.faultEvent code cls block object a b).clock = s.clock := by simp [State.faultEvent]
@[simp] theorem State.faultEvent_start (s : State) (code cls block object a b : Nat) : (s.faultEvent code cls block object a b).start = s.start := by simp [State.faultEvent]
@[simp] theorem State.faultEvent_scratch (s : State) (code cls block object a b : Nat) : (s.faultEvent code cls block object a b).scratch = s.scratch := by simp [State.faultEvent]
@[simp] theorem State.faultEvent_memQueues (s : State) (code cls block object a b : Nat) : (s.faultEvent code cls block object a b).memQueues = s.memQueues := by simp [State.faultEvent]
@[simp] theorem State.faultEvent_fuses (s : State) (code cls block object a b : Nat) : (s.faultEvent code cls block object a b).fuses = s.fuses := by simp [State.faultEvent]
@[simp] theorem State.faultEvent_boot (s : State) (code cls block object a b : Nat) : (s.faultEvent code cls block object a b).boot = s.boot := by simp [State.faultEvent]
@[simp] theorem State.faultEvent_power (s : State) (code cls block object a b : Nat) : (s.faultEvent code cls block object a b).power = s.power := by simp [State.faultEvent]
@[simp] theorem State.faultEvent_service (s : State) (code cls block object a b : Nat) : (s.faultEvent code cls block object a b).service = s.service := by simp [State.faultEvent]
@[simp] theorem State.faultEvent_pins (s : State) (code cls block object a b : Nat) : (s.faultEvent code cls block object a b).pins = s.pins := by simp [State.faultEvent]
@[simp] theorem State.faultEvent_berths (s : State) (code cls block object a b : Nat) : (s.faultEvent code cls block object a b).berths = s.berths := by simp [State.faultEvent]
@[simp] theorem State.faultEvent_masters (s : State) (code cls block object a b : Nat) : (s.faultEvent code cls block object a b).masters = s.masters := by simp [State.faultEvent]
@[simp] theorem State.faultEvent_security (s : State) (code cls block object a b : Nat) : (s.faultEvent code cls block object a b).security = s.security := by simp [State.faultEvent]
@[simp] theorem State.faultEvent_tables (s : State) (code cls block object a b : Nat) : (s.faultEvent code cls block object a b).tables = s.tables := by simp [State.faultEvent]
@[simp] theorem State.faultEvent_arrays (s : State) (code cls block object a b : Nat) : (s.faultEvent code cls block object a b).arrays = s.arrays := by simp [State.faultEvent]
@[simp] theorem State.faultEvent_numbers (s : State) (code cls block object a b : Nat) : (s.faultEvent code cls block object a b).numbers = s.numbers := by simp [State.faultEvent]
@[simp] theorem State.faultEvent_cmds (s : State) (code cls block object a b : Nat) : (s.faultEvent code cls block object a b).cmds = s.cmds := by simp [State.faultEvent]
@[simp] theorem State.faultEvent_hot (s : State) (code cls block object a b : Nat) : (s.faultEvent code cls block object a b).hot = s.hot := by simp [State.faultEvent]
@[simp] theorem State.faultEvent_scrub (s : State) (code cls block object a b : Nat) : (s.faultEvent code cls block object a b).scrub = s.scrub := by simp [State.faultEvent]
@[simp] theorem State.faultEvent_learning (s : State) (code cls block object a b : Nat) : (s.faultEvent code cls block object a b).learning = s.learning := by simp [State.faultEvent]
@[simp] theorem State.faultEvent_manifest (s : State) (code cls block object a b : Nat) : (s.faultEvent code cls block object a b).manifest = s.manifest := by simp [State.faultEvent]
@[simp] theorem State.faultEvent_mode (s : State) (code cls block object a b : Nat) : (s.faultEvent code cls block object a b).mode = s.mode := by simp [State.faultEvent]
@[simp] theorem State.faultEvent_search (s : State) (code cls block object a b : Nat) : (s.faultEvent code cls block object a b).search = s.search := by simp [State.faultEvent]
@[simp] theorem State.faultEvent_scribes (s : State) (code cls block object a b : Nat) : (s.faultEvent code cls block object a b).scribes = s.scribes := by simp [State.faultEvent]
@[simp] theorem State.faultEvent_counters (s : State) (code cls block object a b : Nat) : (s.faultEvent code cls block object a b).counters = s.counters := by simp [State.faultEvent]
@[simp] theorem State.faultEvent_observe (s : State) (code cls block object a b : Nat) : (s.faultEvent code cls block object a b).observe = s.observe := by simp [State.faultEvent]
@[simp] theorem State.faultEvent_links (s : State) (code cls block object a b : Nat) : (s.faultEvent code cls block object a b).links = s.links := by simp [State.faultEvent]
@[simp] theorem State.faultEvent_ring (s : State) (code cls block object a b : Nat) : (s.faultEvent code cls block object a b).ring = s.ring := by simp [State.faultEvent]
@[simp] theorem State.faultEvent_host (s : State) (code cls block object a b : Nat) : (s.faultEvent code cls block object a b).host = s.host := by simp [State.faultEvent]
@[simp] theorem State.faultEvent_dramCtl (s : State) (code cls block object a b : Nat) : (s.faultEvent code cls block object a b).dramCtl = s.dramCtl := by simp [State.faultEvent]
@[simp] theorem State.faultEvent_dram (s : State) (code cls block object a b : Nat) : (s.faultEvent code cls block object a b).dram = s.dram := by simp [State.faultEvent]
@[simp] theorem State.faultEvent_diram (s : State) (code cls block object a b : Nat) : (s.faultEvent code cls block object a b).diram = s.diram := by simp [State.faultEvent]
@[simp] theorem State.faultEvent_due (s : State) (code cls block object a b : Nat) : (s.faultEvent code cls block object a b).due = s.due := by simp [State.faultEvent]
@[simp] theorem State.faultEvent_pending (s : State) (code cls block object a b : Nat) : (s.faultEvent code cls block object a b).pending = s.pending := by simp [State.faultEvent]

@[simp] theorem State.setBerth_clock (s : State) (b : Nat) (x : Berth) : (s.setBerth b x).clock = s.clock := by cases s; rfl
@[simp] theorem State.setBerth_regs (s : State) (b : Nat) (x : Berth) : (s.setBerth b x).regs = s.regs := by cases s; rfl
@[simp] theorem State.setBerth_setBits (s : State) (b : Nat) (x : Berth) : (s.setBerth b x).setBits = s.setBits := by cases s; rfl
@[simp] theorem State.setBerth_setAt (s : State) (b : Nat) (x : Berth) : (s.setBerth b x).setAt = s.setAt := by cases s; rfl
@[simp] theorem State.setBerth_rc (s : State) (b : Nat) (x : Berth) : (s.setBerth b x).rc = s.rc := by cases s; rfl
@[simp] theorem State.setBerth_start (s : State) (b : Nat) (x : Berth) : (s.setBerth b x).start = s.start := by cases s; rfl
@[simp] theorem State.setBerth_scratch (s : State) (b : Nat) (x : Berth) : (s.setBerth b x).scratch = s.scratch := by cases s; rfl
@[simp] theorem State.setBerth_memQueues (s : State) (b : Nat) (x : Berth) : (s.setBerth b x).memQueues = s.memQueues := by cases s; rfl
@[simp] theorem State.setBerth_fuses (s : State) (b : Nat) (x : Berth) : (s.setBerth b x).fuses = s.fuses := by cases s; rfl
@[simp] theorem State.setBerth_boot (s : State) (b : Nat) (x : Berth) : (s.setBerth b x).boot = s.boot := by cases s; rfl
@[simp] theorem State.setBerth_power (s : State) (b : Nat) (x : Berth) : (s.setBerth b x).power = s.power := by cases s; rfl
@[simp] theorem State.setBerth_faults (s : State) (b : Nat) (x : Berth) : (s.setBerth b x).faults = s.faults := by cases s; rfl
@[simp] theorem State.setBerth_service (s : State) (b : Nat) (x : Berth) : (s.setBerth b x).service = s.service := by cases s; rfl
@[simp] theorem State.setBerth_pins (s : State) (b : Nat) (x : Berth) : (s.setBerth b x).pins = s.pins := by cases s; rfl
@[simp] theorem State.setBerth_masters (s : State) (b : Nat) (x : Berth) : (s.setBerth b x).masters = s.masters := by cases s; rfl
@[simp] theorem State.setBerth_security (s : State) (b : Nat) (x : Berth) : (s.setBerth b x).security = s.security := by cases s; rfl
@[simp] theorem State.setBerth_tables (s : State) (b : Nat) (x : Berth) : (s.setBerth b x).tables = s.tables := by cases s; rfl
@[simp] theorem State.setBerth_arrays (s : State) (b : Nat) (x : Berth) : (s.setBerth b x).arrays = s.arrays := by cases s; rfl
@[simp] theorem State.setBerth_numbers (s : State) (b : Nat) (x : Berth) : (s.setBerth b x).numbers = s.numbers := by cases s; rfl
@[simp] theorem State.setBerth_cmds (s : State) (b : Nat) (x : Berth) : (s.setBerth b x).cmds = s.cmds := by cases s; rfl
@[simp] theorem State.setBerth_hot (s : State) (b : Nat) (x : Berth) : (s.setBerth b x).hot = s.hot := by cases s; rfl
@[simp] theorem State.setBerth_scrub (s : State) (b : Nat) (x : Berth) : (s.setBerth b x).scrub = s.scrub := by cases s; rfl
@[simp] theorem State.setBerth_learning (s : State) (b : Nat) (x : Berth) : (s.setBerth b x).learning = s.learning := by cases s; rfl
@[simp] theorem State.setBerth_manifest (s : State) (b : Nat) (x : Berth) : (s.setBerth b x).manifest = s.manifest := by cases s; rfl
@[simp] theorem State.setBerth_mode (s : State) (b : Nat) (x : Berth) : (s.setBerth b x).mode = s.mode := by cases s; rfl
@[simp] theorem State.setBerth_search (s : State) (b : Nat) (x : Berth) : (s.setBerth b x).search = s.search := by cases s; rfl
@[simp] theorem State.setBerth_scribes (s : State) (b : Nat) (x : Berth) : (s.setBerth b x).scribes = s.scribes := by cases s; rfl
@[simp] theorem State.setBerth_counters (s : State) (b : Nat) (x : Berth) : (s.setBerth b x).counters = s.counters := by cases s; rfl
@[simp] theorem State.setBerth_observe (s : State) (b : Nat) (x : Berth) : (s.setBerth b x).observe = s.observe := by cases s; rfl
@[simp] theorem State.setBerth_links (s : State) (b : Nat) (x : Berth) : (s.setBerth b x).links = s.links := by cases s; rfl
@[simp] theorem State.setBerth_ring (s : State) (b : Nat) (x : Berth) : (s.setBerth b x).ring = s.ring := by cases s; rfl
@[simp] theorem State.setBerth_host (s : State) (b : Nat) (x : Berth) : (s.setBerth b x).host = s.host := by cases s; rfl
@[simp] theorem State.setBerth_dramCtl (s : State) (b : Nat) (x : Berth) : (s.setBerth b x).dramCtl = s.dramCtl := by cases s; rfl
@[simp] theorem State.setBerth_dram (s : State) (b : Nat) (x : Berth) : (s.setBerth b x).dram = s.dram := by cases s; rfl
@[simp] theorem State.setBerth_diram (s : State) (b : Nat) (x : Berth) : (s.setBerth b x).diram = s.diram := by cases s; rfl
@[simp] theorem State.setBerth_due (s : State) (b : Nat) (x : Berth) : (s.setBerth b x).due = s.due := by cases s; rfl
@[simp] theorem State.setBerth_freeCounter (s : State) (b : Nat) (x : Berth) : (s.setBerth b x).freeCounter = s.freeCounter := by cases s; rfl
@[simp] theorem State.setBerth_out (s : State) (b : Nat) (x : Berth) : (s.setBerth b x).out = s.out := by cases s; rfl
@[simp] theorem State.setBerth_pending (s : State) (b : Nat) (x : Berth) : (s.setBerth b x).pending = s.pending := by cases s; rfl

@[simp] theorem State.setMaster_clock (s : State) (m : Nat) (x : Master) : (s.setMaster m x).clock = s.clock := by cases s; rfl
@[simp] theorem State.setMaster_regs (s : State) (m : Nat) (x : Master) : (s.setMaster m x).regs = s.regs := by cases s; rfl
@[simp] theorem State.setMaster_setBits (s : State) (m : Nat) (x : Master) : (s.setMaster m x).setBits = s.setBits := by cases s; rfl
@[simp] theorem State.setMaster_setAt (s : State) (m : Nat) (x : Master) : (s.setMaster m x).setAt = s.setAt := by cases s; rfl
@[simp] theorem State.setMaster_rc (s : State) (m : Nat) (x : Master) : (s.setMaster m x).rc = s.rc := by cases s; rfl
@[simp] theorem State.setMaster_start (s : State) (m : Nat) (x : Master) : (s.setMaster m x).start = s.start := by cases s; rfl
@[simp] theorem State.setMaster_scratch (s : State) (m : Nat) (x : Master) : (s.setMaster m x).scratch = s.scratch := by cases s; rfl
@[simp] theorem State.setMaster_memQueues (s : State) (m : Nat) (x : Master) : (s.setMaster m x).memQueues = s.memQueues := by cases s; rfl
@[simp] theorem State.setMaster_fuses (s : State) (m : Nat) (x : Master) : (s.setMaster m x).fuses = s.fuses := by cases s; rfl
@[simp] theorem State.setMaster_boot (s : State) (m : Nat) (x : Master) : (s.setMaster m x).boot = s.boot := by cases s; rfl
@[simp] theorem State.setMaster_power (s : State) (m : Nat) (x : Master) : (s.setMaster m x).power = s.power := by cases s; rfl
@[simp] theorem State.setMaster_faults (s : State) (m : Nat) (x : Master) : (s.setMaster m x).faults = s.faults := by cases s; rfl
@[simp] theorem State.setMaster_service (s : State) (m : Nat) (x : Master) : (s.setMaster m x).service = s.service := by cases s; rfl
@[simp] theorem State.setMaster_pins (s : State) (m : Nat) (x : Master) : (s.setMaster m x).pins = s.pins := by cases s; rfl
@[simp] theorem State.setMaster_berths (s : State) (m : Nat) (x : Master) : (s.setMaster m x).berths = s.berths := by cases s; rfl
@[simp] theorem State.setMaster_security (s : State) (m : Nat) (x : Master) : (s.setMaster m x).security = s.security := by cases s; rfl
@[simp] theorem State.setMaster_tables (s : State) (m : Nat) (x : Master) : (s.setMaster m x).tables = s.tables := by cases s; rfl
@[simp] theorem State.setMaster_arrays (s : State) (m : Nat) (x : Master) : (s.setMaster m x).arrays = s.arrays := by cases s; rfl
@[simp] theorem State.setMaster_numbers (s : State) (m : Nat) (x : Master) : (s.setMaster m x).numbers = s.numbers := by cases s; rfl
@[simp] theorem State.setMaster_cmds (s : State) (m : Nat) (x : Master) : (s.setMaster m x).cmds = s.cmds := by cases s; rfl
@[simp] theorem State.setMaster_hot (s : State) (m : Nat) (x : Master) : (s.setMaster m x).hot = s.hot := by cases s; rfl
@[simp] theorem State.setMaster_scrub (s : State) (m : Nat) (x : Master) : (s.setMaster m x).scrub = s.scrub := by cases s; rfl
@[simp] theorem State.setMaster_learning (s : State) (m : Nat) (x : Master) : (s.setMaster m x).learning = s.learning := by cases s; rfl
@[simp] theorem State.setMaster_manifest (s : State) (m : Nat) (x : Master) : (s.setMaster m x).manifest = s.manifest := by cases s; rfl
@[simp] theorem State.setMaster_mode (s : State) (m : Nat) (x : Master) : (s.setMaster m x).mode = s.mode := by cases s; rfl
@[simp] theorem State.setMaster_search (s : State) (m : Nat) (x : Master) : (s.setMaster m x).search = s.search := by cases s; rfl
@[simp] theorem State.setMaster_scribes (s : State) (m : Nat) (x : Master) : (s.setMaster m x).scribes = s.scribes := by cases s; rfl
@[simp] theorem State.setMaster_counters (s : State) (m : Nat) (x : Master) : (s.setMaster m x).counters = s.counters := by cases s; rfl
@[simp] theorem State.setMaster_observe (s : State) (m : Nat) (x : Master) : (s.setMaster m x).observe = s.observe := by cases s; rfl
@[simp] theorem State.setMaster_links (s : State) (m : Nat) (x : Master) : (s.setMaster m x).links = s.links := by cases s; rfl
@[simp] theorem State.setMaster_ring (s : State) (m : Nat) (x : Master) : (s.setMaster m x).ring = s.ring := by cases s; rfl
@[simp] theorem State.setMaster_host (s : State) (m : Nat) (x : Master) : (s.setMaster m x).host = s.host := by cases s; rfl
@[simp] theorem State.setMaster_dramCtl (s : State) (m : Nat) (x : Master) : (s.setMaster m x).dramCtl = s.dramCtl := by cases s; rfl
@[simp] theorem State.setMaster_dram (s : State) (m : Nat) (x : Master) : (s.setMaster m x).dram = s.dram := by cases s; rfl
@[simp] theorem State.setMaster_diram (s : State) (m : Nat) (x : Master) : (s.setMaster m x).diram = s.diram := by cases s; rfl
@[simp] theorem State.setMaster_due (s : State) (m : Nat) (x : Master) : (s.setMaster m x).due = s.due := by cases s; rfl
@[simp] theorem State.setMaster_freeCounter (s : State) (m : Nat) (x : Master) : (s.setMaster m x).freeCounter = s.freeCounter := by cases s; rfl
@[simp] theorem State.setMaster_out (s : State) (m : Nat) (x : Master) : (s.setMaster m x).out = s.out := by cases s; rfl
@[simp] theorem State.setMaster_pending (s : State) (m : Nat) (x : Master) : (s.setMaster m x).pending = s.pending := by cases s; rfl

@[simp] theorem State.settle_clock (s : State) : s.settle.clock = s.clock := by cases s; rfl
@[simp] theorem State.settle_regs (s : State) : s.settle.regs = s.regs := by cases s; rfl
@[simp] theorem State.settle_setBits (s : State) : s.settle.setBits = s.setBits := by cases s; rfl
@[simp] theorem State.settle_setAt (s : State) : s.settle.setAt = s.setAt := by cases s; rfl
@[simp] theorem State.settle_rc (s : State) : s.settle.rc = s.rc := by cases s; rfl
@[simp] theorem State.settle_start (s : State) : s.settle.start = s.start := by cases s; rfl
@[simp] theorem State.settle_scratch (s : State) : s.settle.scratch = s.scratch := by cases s; rfl
@[simp] theorem State.settle_memQueues (s : State) : s.settle.memQueues = s.memQueues := by cases s; rfl
@[simp] theorem State.settle_fuses (s : State) : s.settle.fuses = s.fuses := by cases s; rfl
@[simp] theorem State.settle_boot (s : State) : s.settle.boot = s.boot := by cases s; rfl
@[simp] theorem State.settle_power (s : State) : s.settle.power = s.power := by cases s; rfl
@[simp] theorem State.settle_faults (s : State) : s.settle.faults = s.faults := by cases s; rfl
@[simp] theorem State.settle_service (s : State) : s.settle.service = s.service := by cases s; rfl
@[simp] theorem State.settle_berths (s : State) : s.settle.berths = s.berths := by cases s; rfl
@[simp] theorem State.settle_masters (s : State) : s.settle.masters = s.masters := by cases s; rfl
@[simp] theorem State.settle_security (s : State) : s.settle.security = s.security := by cases s; rfl
@[simp] theorem State.settle_tables (s : State) : s.settle.tables = s.tables := by cases s; rfl
@[simp] theorem State.settle_arrays (s : State) : s.settle.arrays = s.arrays := by cases s; rfl
@[simp] theorem State.settle_numbers (s : State) : s.settle.numbers = s.numbers := by cases s; rfl
@[simp] theorem State.settle_cmds (s : State) : s.settle.cmds = s.cmds := by cases s; rfl
@[simp] theorem State.settle_hot (s : State) : s.settle.hot = s.hot := by cases s; rfl
@[simp] theorem State.settle_scrub (s : State) : s.settle.scrub = s.scrub := by cases s; rfl
@[simp] theorem State.settle_learning (s : State) : s.settle.learning = s.learning := by cases s; rfl
@[simp] theorem State.settle_manifest (s : State) : s.settle.manifest = s.manifest := by cases s; rfl
@[simp] theorem State.settle_mode (s : State) : s.settle.mode = s.mode := by cases s; rfl
@[simp] theorem State.settle_search (s : State) : s.settle.search = s.search := by cases s; rfl
@[simp] theorem State.settle_scribes (s : State) : s.settle.scribes = s.scribes := by cases s; rfl
@[simp] theorem State.settle_counters (s : State) : s.settle.counters = s.counters := by cases s; rfl
@[simp] theorem State.settle_observe (s : State) : s.settle.observe = s.observe := by cases s; rfl
@[simp] theorem State.settle_links (s : State) : s.settle.links = s.links := by cases s; rfl
@[simp] theorem State.settle_host (s : State) : s.settle.host = s.host := by cases s; rfl
@[simp] theorem State.settle_dramCtl (s : State) : s.settle.dramCtl = s.dramCtl := by cases s; rfl
@[simp] theorem State.settle_dram (s : State) : s.settle.dram = s.dram := by cases s; rfl
@[simp] theorem State.settle_diram (s : State) : s.settle.diram = s.diram := by cases s; rfl
@[simp] theorem State.settle_due (s : State) : s.settle.due = s.due := by cases s; rfl
@[simp] theorem State.settle_freeCounter (s : State) : s.settle.freeCounter = s.freeCounter := by cases s; rfl
@[simp] theorem State.settle_out (s : State) : s.settle.out = s.out := by cases s; rfl
@[simp] theorem State.settle_pending (s : State) : s.settle.pending = s.pending := by cases s; rfl

end Sys2Proof.Machine
end

