-- ==== Sys2Proof/Laws/Table.lean ====
section
/-! SUPPORT. Laws of the containers: a sparse table reads what was put, and every memory operation keeps the canonical form and leaves
every other byte alone. -/
namespace Sys2Proof.Machine

@[simp] theorem Table.find_nil {α : Type} (k : Nat) : Table.find ([] : Table α) k = none := rfl

@[simp] theorem Table.findD_nil {α : Type} (k : Nat) (d : α) : Table.findD ([] : Table α) k d = d := rfl

@[simp] theorem Table.find_put_same {α : Type} (m : Table α) (k : Nat) (v : α) : (m.put k v).find k = some v := by
  induction m with
  | nil => simp [Table.put, Table.find]
  | cons p rest ih =>
    obtain ⟨j, u⟩ := p
    simp only [Table.put]
    split
    · simp [Table.find]
    · split
      · simp [Table.find]
      · have : ¬ j = k := fun h => by simp_all
        simp [Table.find, this, ih]

theorem Table.find_put_ne {α : Type} (m : Table α) (k l : Nat) (v : α) (h : l ≠ k) : (m.put k v).find l = m.find l := by
  induction m with
  | nil => simp [Table.put, Table.find, Ne.symm h]
  | cons p rest ih =>
    obtain ⟨j, u⟩ := p
    simp only [Table.put]
    split
    · simp [Table.find, Ne.symm h]
    · split
      · subst_vars; simp [Table.find, Ne.symm h]
      · simp only [Table.find, ih]

@[simp] theorem Table.find_del_same {α : Type} (m : Table α) (k : Nat) : (m.del k).find k = none := by
  induction m with
  | nil => rfl
  | cons p rest ih =>
    obtain ⟨j, u⟩ := p
    unfold Table.del at ih ⊢
    by_cases h : j = k
    · rw [List.filter_cons_of_neg (by simp [h])]; exact ih
    · rw [List.filter_cons_of_pos (by simp [h])]; simp only [Table.find, h, if_false]; exact ih

theorem Table.find_del_ne {α : Type} (m : Table α) (k l : Nat) (h : l ≠ k) : (m.del k).find l = m.find l := by
  induction m with
  | nil => rfl
  | cons p rest ih =>
    obtain ⟨j, u⟩ := p
    unfold Table.del at ih ⊢
    by_cases hj : j = k
    · rw [List.filter_cons_of_neg (by simp [hj])]
      have : ¬ j = l := by omega
      simp only [Table.find, this, if_false]; exact ih
    · rw [List.filter_cons_of_pos (by simp [hj])]; simp only [Table.find, ih]

@[simp] theorem Table.findD_put_same {α : Type} (m : Table α) (k : Nat) (v d : α) : (m.put k v).findD k d = v := by
  simp [Table.findD]

theorem Table.findD_put_ne {α : Type} (m : Table α) (k l : Nat) (v d : α) (h : l ≠ k) :
    (m.put k v).findD l d = m.findD l d := by
  simp [Table.findD, Table.find_put_ne m k l v h]

@[simp] theorem Table.findD_del_same {α : Type} (m : Table α) (k : Nat) (d : α) : (m.del k).findD k d = d := by
  simp [Table.findD]

theorem Table.findD_del_ne {α : Type} (m : Table α) (k l : Nat) (d : α) (h : l ≠ k) : (m.del k).findD l d = m.findD l d := by
  simp [Table.findD, Table.find_del_ne m k l h]

/-! The byte memory. -/

theorem Memory.risingFrom_cons (lo j : Nat) (c : Byte) (rest : Memory) :
    Memory.risingFrom lo ((j, c) :: rest) = true ↔ lo ≤ j ∧ c ≠ 0 ∧ Memory.risingFrom (j + 1) rest = true := by
  simp [Memory.risingFrom, and_assoc]

theorem Memory.risingFrom_mono (m : Memory) (a b : Nat) (h : a ≤ b) (hm : m.risingFrom b = true) : m.risingFrom a = true := by
  cases m with
  | nil => rfl
  | cons p rest =>
    obtain ⟨j, c⟩ := p
    rw [Memory.risingFrom_cons] at hm ⊢
    exact ⟨by omega, hm.2⟩

theorem Memory.risingFrom_set (m : Memory) (lo a : Nat) (b : Byte) (h : lo ≤ a) (hm : m.risingFrom lo = true) :
    (m.set a b).risingFrom lo = true := by
  induction m generalizing lo with
  | nil =>
    simp only [Memory.set]
    split
    · rfl
    · rw [Memory.risingFrom_cons]; exact ⟨h, by assumption, rfl⟩
  | cons p rest ih =>
    obtain ⟨j, c⟩ := p
    have hm' := hm
    rw [Memory.risingFrom_cons] at hm'
    obtain ⟨hj, hc, hr⟩ := hm'
    simp only [Memory.set]
    split
    · split
      · exact hm
      · rw [Memory.risingFrom_cons, Memory.risingFrom_cons]; exact ⟨h, by assumption, by omega, hc, hr⟩
    · split
      · split
        · exact Memory.risingFrom_mono rest lo (j + 1) (by omega) hr
        · rw [Memory.risingFrom_cons]; subst_vars; exact ⟨hj, by assumption, hr⟩
      · rw [Memory.risingFrom_cons]; exact ⟨hj, hc, ih (j + 1) (by omega) hr⟩

/-- Writing a byte keeps the canonical form. -/
theorem Memory.wf_set (m : Memory) (a : Nat) (b : Byte) (h : m.wf = true) : (m.set a b).wf = true :=
  Memory.risingFrom_set m 0 a b (Nat.zero_le a) h

/-- Writing bytes keeps the canonical form. -/
theorem Memory.wf_write (m : Memory) (a : Nat) (bs : Bytes) (h : m.wf = true) : (m.write a bs).wf = true := by
  induction bs generalizing m a with
  | nil => exact h
  | cons b rest ih => exact ih (m.set a b) (a + 1) (Memory.wf_set m a b h)

theorem Memory.risingFrom_filter (m : Memory) (lo : Nat) (p : Nat × Byte → Bool) (h : m.risingFrom lo = true) :
    Memory.risingFrom lo (m.filter p) = true := by
  induction m generalizing lo with
  | nil => rfl
  | cons x rest ih =>
    obtain ⟨j, c⟩ := x
    rw [Memory.risingFrom_cons] at h
    by_cases hp : p (j, c) = true
    · rw [List.filter_cons_of_pos hp, Memory.risingFrom_cons]; exact ⟨h.1, h.2.1, ih (j + 1) h.2.2⟩
    · rw [List.filter_cons_of_neg hp]
      exact ih lo (Memory.risingFrom_mono rest lo (j + 1) (by omega) h.2.2)

/-- Zeroing a range keeps the canonical form. -/
theorem Memory.wf_clear (m : Memory) (a n : Nat) (h : m.wf = true) : (m.clear a n).wf = true :=
  Memory.risingFrom_filter m 0 _ h

theorem Memory.get_of_risingFrom (m : Memory) (lo a : Nat) (h : m.risingFrom lo = true) (ha : a < lo) : m.get a = 0 := by
  induction m generalizing lo with
  | nil => rfl
  | cons x rest ih =>
    obtain ⟨j, c⟩ := x
    rw [Memory.risingFrom_cons] at h
    have : ¬ j = a := by omega
    simp only [Memory.get, this, if_false]
    exact ih (j + 1) h.2.2 (by omega)

theorem Memory.get_set_risingFrom (m : Memory) (lo a l : Nat) (b : Byte) (h : m.risingFrom lo = true) :
    (m.set a b).get l = if l = a then b else m.get l := by
  induction m generalizing lo with
  | nil =>
    by_cases hl : l = a
    · subst hl
      by_cases hb : b = 0
      · simp only [Memory.set, hb, if_true, Memory.get]
      · simp only [Memory.set, hb, if_true, if_false, Memory.get]
    · by_cases hb : b = 0
      · simp only [Memory.set, hb, if_true, hl, if_false, Memory.get]
      · simp only [Memory.set, hb, hl, if_false, Memory.get, Ne.symm hl]
  | cons x rest ih =>
    obtain ⟨j, c⟩ := x
    rw [Memory.risingFrom_cons] at h
    obtain ⟨hj, hc, hr⟩ := h
    have hlow : ∀ k, k ≤ j → Memory.get rest k = 0 := fun k hk => Memory.get_of_risingFrom rest (j + 1) k hr (by omega)
    by_cases h1 : a < j
    · by_cases hl : l = a
      · subst hl
        have hja : ¬ j = l := by omega
        by_cases hb : b = 0
        · simp only [Memory.set, h1, hb, if_true, Memory.get, hja, if_false]; exact hlow l (by omega)
        · simp only [Memory.set, h1, hb, if_true, if_false, Memory.get]
      · by_cases hb : b = 0
        · simp only [Memory.set, h1, hb, if_true, hl, if_false]
        · simp only [Memory.set, h1, hb, if_true, hl, if_false, Memory.get, Ne.symm hl]
    · by_cases h2 : a = j
      · subst h2
        by_cases hl : l = a
        · subst hl
          by_cases hb : b = 0
          · simp only [Memory.set, Nat.lt_irrefl, hb, if_true, if_false]; exact hlow l (by omega)
          · simp only [Memory.set, Nat.lt_irrefl, hb, if_true, if_false, Memory.get]
        · by_cases hb : b = 0
          · simp only [Memory.set, Nat.lt_irrefl, hb, if_true, if_false, hl, Memory.get, Ne.symm hl]
          · simp only [Memory.set, Nat.lt_irrefl, hb, if_true, if_false, hl, Memory.get, Ne.symm hl]
      · simp only [Memory.set, h1, h2, if_false, Memory.get, ih (j + 1) hr]
        by_cases hl : l = a
        · subst hl; simp only [Ne.symm h2, if_false, if_true]
        · simp only [hl, if_false]

/-- A byte reads as it was last written, and every other byte as before. -/
theorem Memory.get_set (m : Memory) (a l : Nat) (b : Byte) (h : m.wf = true) :
    (m.set a b).get l = if l = a then b else m.get l :=
  Memory.get_set_risingFrom m 0 a l b h

/-- A write of bytes leaves every byte outside them alone. -/
theorem Memory.get_write_outside (m : Memory) (a l : Nat) (bs : Bytes) (h : m.wf = true) (hl : l < a ∨ a + bs.length ≤ l) :
    (m.write a bs).get l = m.get l := by
  induction bs generalizing m a with
  | nil => rfl
  | cons b rest ih =>
    simp only [List.length_cons] at hl
    have h1 := ih (m.set a b) (a + 1) (Memory.wf_set m a b h) (by omega)
    have h2 : ¬ l = a := by omega
    simp only [Memory.write, h1, Memory.get_set m a l b h, h2, if_false]

end Sys2Proof.Machine
end

