-- ==== Sys2Proof/Laws/Registers.lean ====
section
/-! SUPPORT. Laws of the register store: a register, or one field of it, reads as it was last written, and every other register and
every other field reads as before. -/
namespace Sys2Proof.Machine

@[simp] theorem State.word_at (s : State) (t : Nat) (r : Reg) (i : Nat) : (s.at t).word r i = s.word r i := rfl
@[simp] theorem State.fld_at (s : State) (t : Nat) (f : Fld) (i : Nat) : (s.at t).fld f i = s.fld f i := rfl
@[simp] theorem State.bit_at (s : State) (t : Nat) (f : Fld) (i : Nat) : (s.at t).bit f i = s.bit f i := rfl
@[simp] theorem State.word_settle (s : State) (r : Reg) (i : Nat) : s.settle.word r i = s.word r i := by simp [State.word]
@[simp] theorem State.fld_settle (s : State) (f : Fld) (i : Nat) : s.settle.fld f i = s.fld f i := by simp [State.fld]
@[simp] theorem State.bit_settle (s : State) (f : Fld) (i : Nat) : s.settle.bit f i = s.bit f i := by simp [State.bit]

/-- A word reads as it was written. -/
@[simp] theorem State.word_setWord_same (s : State) (r : Reg) (i v : Nat) : (s.setWord r i v).word r i = v % 2 ^ 64 := by
  unfold State.setWord State.word
  dsimp only
  by_cases h : v % 2 ^ 64 = r.resetNat
  · rw [if_pos h, Table.find_del_same]; exact h.symm
  · rw [if_neg h, Table.find_put_same]; exact BitVec.toNat_ofNat ..

/-- Every register with another key reads as before. -/
theorem State.word_setWord_ne (s : State) (r q : Reg) (i j v : Nat) (h : q.key j ≠ r.key i) :
    (s.setWord r i v).word q j = s.word q j := by
  unfold State.setWord State.word
  dsimp only
  by_cases hv : v % 2 ^ 64 = r.resetNat
  · rw [if_pos hv, Table.find_del_ne _ _ _ h]
  · rw [if_neg hv, Table.find_put_ne _ _ _ _ h]

/-- The fields of a register of another key read as before. -/
theorem State.fld_setFld_ne (s : State) (f g : Fld) (i j v : Nat) (h : g.reg.key j ≠ f.reg.key i) :
    (s.setFld f v i).fld g j = s.fld g j := by
  unfold State.setFld State.fld
  rw [State.word_setWord_ne _ _ _ _ _ _ h]

theorem Fld.get_into_same (f : Fld) (w v : Nat) : f.get (f.into w v) = v % 2 ^ f.width := by
  unfold Fld.get Fld.into
  dsimp only
  have hp : 0 < 2 ^ f.lo := Nat.two_pow_pos _
  have hle : w / 2 ^ f.lo % 2 ^ f.width * 2 ^ f.lo ≤ w :=
    le_trans (Nat.mul_le_mul_right _ (Nat.mod_le _ _)) (Nat.div_mul_le_self _ _)
  set q := w / 2 ^ f.lo with hq
  have hw : w = q * 2 ^ f.lo + w % 2 ^ f.lo := by rw [hq]; exact (Nat.div_add_mod' w (2 ^ f.lo)).symm
  have hq2 : q = q / 2 ^ f.width * 2 ^ f.width + q % 2 ^ f.width := (Nat.div_add_mod' q (2 ^ f.width)).symm
  have key : w - q % 2 ^ f.width * 2 ^ f.lo + v % 2 ^ f.width * 2 ^ f.lo =
      w % 2 ^ f.lo + 2 ^ f.lo * (q / 2 ^ f.width * 2 ^ f.width + v % 2 ^ f.width) := by
    have : q * 2 ^ f.lo = (q / 2 ^ f.width * 2 ^ f.width) * 2 ^ f.lo + q % 2 ^ f.width * 2 ^ f.lo := by
      rw [← Nat.add_mul]; rw [← hq2]
    have e : w - q % 2 ^ f.width * 2 ^ f.lo = (q / 2 ^ f.width * 2 ^ f.width) * 2 ^ f.lo + w % 2 ^ f.lo := by omega
    rw [e]; ring
  rw [key, Nat.add_mul_div_left _ _ hp, Nat.div_eq_of_lt (Nat.mod_lt _ hp), Nat.zero_add]
  rw [Nat.add_comm, Nat.add_mul_mod_self_right, Nat.mod_mod]

/-- A word around a field: the bits above it, the field, the bits below it. -/
theorem Fld.into_split (f : Fld) (w v : Nat) :
    f.into w v = w / 2 ^ (f.lo + f.width) * 2 ^ (f.lo + f.width) + v % 2 ^ f.width * 2 ^ f.lo + w % 2 ^ f.lo := by
  unfold Fld.into
  dsimp only
  have a := Nat.div_add_mod' w (2 ^ f.lo)
  have b := Nat.div_add_mod' (w / 2 ^ f.lo) (2 ^ f.width)
  have c : w / 2 ^ f.lo * 2 ^ f.lo = (w / 2 ^ f.lo / 2 ^ f.width * 2 ^ f.width + w / 2 ^ f.lo % 2 ^ f.width) * 2 ^ f.lo := by
    rw [b]
  rw [Nat.add_mul, Nat.mul_assoc, ← Nat.pow_add, Nat.add_comm f.width f.lo, Nat.div_div_eq_div_mul, ← Nat.pow_add] at c
  omega

theorem Fld.get_into_disjoint (f g : Fld) (w v : Nat) (h : g.lo + g.width ≤ f.lo ∨ f.lo + f.width ≤ g.lo) :
    g.get (f.into w v) = g.get w := by
  unfold Fld.get
  rw [Fld.into_split]
  have hv : v % 2 ^ f.width * 2 ^ f.lo + w % 2 ^ f.lo < 2 ^ (f.lo + f.width) := by
    have h1 := Nat.mod_lt v (Nat.two_pow_pos f.width)
    have h2 := Nat.mod_lt w (Nat.two_pow_pos f.lo)
    calc v % 2 ^ f.width * 2 ^ f.lo + w % 2 ^ f.lo < v % 2 ^ f.width * 2 ^ f.lo + 2 ^ f.lo := by omega
      _ = (v % 2 ^ f.width + 1) * 2 ^ f.lo := by ring
      _ ≤ 2 ^ f.width * 2 ^ f.lo := Nat.mul_le_mul_right _ h1
      _ = 2 ^ (f.lo + f.width) := by rw [Nat.pow_add, Nat.mul_comm]
  rcases h with h | h
  · obtain ⟨k, hk⟩ : ∃ k, f.lo = g.lo + g.width + k := ⟨f.lo - (g.lo + g.width), by omega⟩
    have e : ∀ x, x / 2 ^ g.lo % 2 ^ g.width = x % 2 ^ f.lo / 2 ^ g.lo % 2 ^ g.width := by
      intro x
      rw [hk, Nat.pow_add, Nat.pow_add, Nat.mul_assoc, Nat.mod_mul_right_div_self, Nat.mod_mul_right_mod]
    rw [e, e w]
    congr 2
    rw [Nat.pow_add, ← Nat.mul_assoc, Nat.mul_right_comm, Nat.add_mod, ← Nat.add_mul, Nat.mul_mod_left, Nat.zero_add, Nat.mod_mod,
      Nat.mod_mod]
  · obtain ⟨k, hk⟩ : ∃ k, g.lo = f.lo + f.width + k := ⟨g.lo - (f.lo + f.width), by omega⟩
    rw [hk, Nat.pow_add 2 (f.lo + f.width) k, ← Nat.div_div_eq_div_mul, ← Nat.div_div_eq_div_mul]
    rw [Nat.add_assoc, Nat.mul_comm (w / 2 ^ (f.lo + f.width)), Nat.mul_add_div (Nat.two_pow_pos _), Nat.div_eq_of_lt hv,
      Nat.add_zero]

theorem Fld.into_lt (f : Fld) (w v : Nat) (hf : f.lo + f.width ≤ 64) (hw : w < 2 ^ 64) : f.into w v < 2 ^ 64 := by
  unfold Fld.into
  dsimp only
  have hp : 0 < 2 ^ f.lo := Nat.two_pow_pos _
  have hq : 0 < 2 ^ f.width := Nat.two_pow_pos _
  have h1 : w / 2 ^ f.lo % 2 ^ f.width * 2 ^ f.lo ≤ w :=
    le_trans (Nat.mul_le_mul_right _ (Nat.mod_le _ _)) (Nat.div_mul_le_self _ _)
  have hsplit : w = w / 2 ^ f.lo / 2 ^ f.width * 2 ^ (f.lo + f.width) + w / 2 ^ f.lo % 2 ^ f.width * 2 ^ f.lo + w % 2 ^ f.lo := by
    have a := Nat.div_add_mod' w (2 ^ f.lo)
    have b := Nat.div_add_mod' (w / 2 ^ f.lo) (2 ^ f.width)
    have c : w / 2 ^ f.lo * 2 ^ f.lo = (w / 2 ^ f.lo / 2 ^ f.width * 2 ^ f.width + w / 2 ^ f.lo % 2 ^ f.width) * 2 ^ f.lo := by
      rw [b]
    rw [Nat.add_mul, Nat.mul_assoc, ← Nat.pow_add, Nat.add_comm f.width f.lo] at c
    omega
  have hv : v % 2 ^ f.width * 2 ^ f.lo + 2 ^ f.lo ≤ 2 ^ (f.lo + f.width) := by
    have := Nat.mod_lt v hq
    calc v % 2 ^ f.width * 2 ^ f.lo + 2 ^ f.lo = (v % 2 ^ f.width + 1) * 2 ^ f.lo := by ring
      _ ≤ 2 ^ f.width * 2 ^ f.lo := Nat.mul_le_mul_right _ this
      _ = 2 ^ (f.lo + f.width) := by rw [Nat.pow_add, Nat.mul_comm]
  have hm : w % 2 ^ f.lo < 2 ^ f.lo := Nat.mod_lt _ hp
  obtain ⟨k, hk⟩ : ∃ k, (2 : Nat) ^ 64 = k * 2 ^ (f.lo + f.width) :=
    ⟨2 ^ (64 - (f.lo + f.width)), by rw [← Nat.pow_add]; congr 1; omega⟩
  set top := w / 2 ^ f.lo / 2 ^ f.width
  have ht : top < k := by
    by_contra hc
    have : k * 2 ^ (f.lo + f.width) ≤ top * 2 ^ (f.lo + f.width) := Nat.mul_le_mul_right _ (by omega)
    omega
  have : (top + 1) * 2 ^ (f.lo + f.width) ≤ k * 2 ^ (f.lo + f.width) := Nat.mul_le_mul_right _ ht
  rw [Nat.add_mul, Nat.one_mul] at this
  omega

theorem State.word_lt (s : State) (r : Reg) (i : Nat) (h : r.resetNat < 2 ^ 64) : s.word r i < 2 ^ 64 := by
  unfold State.word
  split
  · exact BitVec.isLt _
  · exact h

/-- A field reads as it was written. -/
theorem State.fld_setFld_same (s : State) (f : Fld) (i v : Nat) (hf : f.lo + f.width ≤ 64) (hr : f.reg.resetNat < 2 ^ 64) :
    (s.setFld f v i).fld f i = v % 2 ^ f.width := by
  unfold State.setFld State.fld
  rw [State.word_setWord_same, Nat.mod_eq_of_lt (Fld.into_lt f _ v hf (State.word_lt s f.reg i hr))]
  exact Fld.get_into_same f _ v

/-- A field of the same register that shares no bit with the field written reads as before. -/
theorem State.fld_setFld_disjoint (s : State) (f g : Fld) (i v : Nat) (he : g.reg = f.reg) (hf : f.lo + f.width ≤ 64)
    (hr : f.reg.resetNat < 2 ^ 64) (h : g.lo + g.width ≤ f.lo ∨ f.lo + f.width ≤ g.lo) :
    (s.setFld f v i).fld g i = s.fld g i := by
  unfold State.setFld State.fld
  rw [he, State.word_setWord_same, Nat.mod_eq_of_lt (Fld.into_lt f _ v hf (State.word_lt s f.reg i hr))]
  exact Fld.get_into_disjoint f g _ v h

/-- Offsets lie inside BAR0. -/
theorem Reg.offset_lt (r : Reg) : r.offset < 0x4000000 := by cases r <;> decide

/-- Registers of different offsets have different keys, whatever their copies. -/
theorem Reg.key_ne {r q : Reg} (i j : Nat) (h : r.offset ≠ q.offset) : r.key i ≠ q.key j := by
  have a := Reg.offset_lt r
  have b := Reg.offset_lt q
  unfold Reg.key
  omega

/-- Copies of a register have different keys. -/
theorem Reg.key_ne_index (r : Reg) {i j : Nat} (h : i ≠ j) : r.key i ≠ r.key j := by unfold Reg.key; omega

/-- A field reads the register store alone. -/
theorem State.fld_of_regs {s x : State} (h : x.regs = s.regs) (f : Fld) (i : Nat) : x.fld f i = s.fld f i := by
  unfold State.fld State.word; rw [h]

theorem State.bit_of_regs {s x : State} (h : x.regs = s.regs) (f : Fld) (i : Nat) : x.bit f i = s.bit f i := by
  unfold State.bit; rw [State.fld_of_regs h]

theorem State.fld_setFld_reg (s : State) (f g : Fld) (i j v : Nat) (h : g.reg.offset ≠ f.reg.offset) :
    (s.setFld f v i).fld g j = s.fld g j := State.fld_setFld_ne s f g i j v (Reg.key_ne j i h)

theorem State.fld_setFld_index (s : State) (f g : Fld) (i j v : Nat) (he : g.reg = f.reg) (h : j ≠ i) :
    (s.setFld f v i).fld g j = s.fld g j := State.fld_setFld_ne s f g i j v (by rw [he]; exact Reg.key_ne_index _ h)

/-- Raising bits of a field. -/
theorem State.fld_raiseBits (s : State) (f g : Fld) (i j v : Nat) :
    (s.raiseBits f v i).fld g j = (s.setFld f (s.fld f i ||| v) i).fld g j := rfl

theorem State.fld_raise (s : State) (f g : Fld) (i j : Nat) : (s.raise f i).fld g j = (s.setFld f (s.fld f i ||| 1) i).fld g j := rfl

theorem State.bit_raise_same (s : State) (f : Fld) (i : Nat) (hw : f.width = 1) (hf : f.lo + f.width ≤ 64)
    (hr : f.reg.resetNat < 2 ^ 64) : (s.raise f i).bit f i = true := by
  have e : (s.raise f i).fld f i = 1 := by
    rw [State.fld_raise, State.fld_setFld_same _ _ _ _ hf hr, hw]
    have h : s.fld f i < 2 := by unfold State.fld; rw [hw]; exact Nat.mod_lt _ (by decide)
    interval_cases h' : s.fld f i <;> decide
  simp [State.bit, e]

theorem State.fld_bump_reg (s : State) (f g : Fld) (n i j : Nat) (h : g.reg.offset ≠ f.reg.offset) :
    (s.bump f n i).fld g j = s.fld g j :=
  State.fld_setFld_reg (s.noteRc f n i) f g i j _ h

theorem State.fld_bump_same (s : State) (f : Fld) (n i : Nat) (hf : f.lo + f.width ≤ 64) (hr : f.reg.resetNat < 2 ^ 64)
    (h : s.fld f i + n < 2 ^ f.width) : (s.bump f n i).fld f i = s.fld f i + n := by
  have e : (s.bump f n i).fld f i = ((s.noteRc f n i).setFld f (s.fld f i + n) i).fld f i := by
    have : ¬ 2 ^ f.width ≤ s.fld f i + n := by omega
    unfold State.bump
    simp only [this, decide_false, Bool.false_eq_true, if_false]
    rfl
  rw [e, State.fld_setFld_same _ _ _ _ hf hr, Nat.mod_eq_of_lt h]

theorem State.fld_bumpHold_reg (s : State) (f g : Fld) (n i j : Nat) (h : g.reg.offset ≠ f.reg.offset) :
    (s.bumpHold f n i).fld g j = s.fld g j := State.fld_setFld_reg (s.noteRc f n i) f g i j _ h

end Sys2Proof.Machine
end

