-- ==== Sys2Proof/Laws/Access.lean ====
section
/-! SUPPORT. Register writes: what storing the fields of a register changes, and when a go bit acts. -/
namespace Sys2Proof.Machine

/-- One field's part of a register write leaves everything but the register store, whatever it adds to the flags. -/
theorem State.storeFields_regs (s : State) (r : Reg) (i w mask : Nat) (fixed : List Nat) :
    (s.storeFields r i w mask fixed).1 = { s with regs := (s.storeFields r i w mask fixed).1.regs } := by
  unfold State.storeFields
  suffices h : ∀ (l : List FieldDesc) (acc : State × Bool × Bool), acc.1 = { s with regs := acc.1.regs } →
      ∀ f : State × Bool × Bool → FieldDesc → State × Bool × Bool,
        (∀ a d, a.1 = { s with regs := a.1.regs } → (f a d).1 = { s with regs := (f a d).1.regs }) →
        (l.foldl f acc).1 = { s with regs := (l.foldl f acc).1.regs } from
    h r.fields (s, false, false) rfl _ (by
      intro a d ha
      dsimp only
      have hs : ∀ (v : Nat), a.1.setFld ⟨r, d.lo, d.width⟩ v i = { s with regs := (a.1.setFld ⟨r, d.lo, d.width⟩ v i).regs } := by
        intro v; rw [ha]; rfl
      split
      · split
        · exact ha
        · split
          · exact ha
          · split
            · exact hs _
            · exact ha
      · exact hs _
      · exact ha)
  intro l
  induction l with
  | nil => intro acc ha f _; exact ha
  | cons d l ih => intro acc ha f hf; exact ih (f acc d) (hf acc d ha) f hf

/-- The stored state of a served write differs from the state at its stroke in the register store alone. -/
theorem Stores.only {s : State} {t : Nat} {r : Reg} {i : Nat} {w : Word64} {x : State} (h : Stores s t r i w x) :
    x = { s.at t with regs := x.regs } := by
  have e := (s.at t).storeFields_regs r i w.toNat fullMask []
  rw [h.2.2] at e
  exact e

/-- A go bit that is written 1, whose path is open and whose work is idle, acts on the stored state. -/
theorem State.goBit_of {s : State} {t : Nat} {r : Reg} {i : Nat} {w : Word64} {x : State} (h : Stores s t r i w x) (go : Fld)
    (closed : State → Option State) (busy : State → Bool) (act : State → State) (hg : go.get w.toNat = 1)
    (hc : closed x = none) (hb : busy x = false) :
    (s.at t).goBit 0 w.toNat fullMask r i go closed busy act = act x := by
  have hm : w.toNat &&& fullMask = w.toNat := by
    have := w.isLt
    rw [fullMask, Nat.and_two_pow_sub_one_eq_mod, Nat.mod_eq_of_lt this]
  unfold State.goBit
  simp only [h.1, h.2.1, h.2.2, hm, hg, hc, hb]
  rfl

/-- The same for a go bit whose path cmd_auth closes. -/
theorem State.goClosed_of {s : State} {t : Nat} {r : Reg} {i : Nat} {w : Word64} {x : State} (h : Stores s t r i w x) (go : Fld)
    (closed : State → State) (busy : State → Bool) (act : State → State) (hg : go.get w.toNat = 1)
    (hc : s.cmdAuth = false) (hb : busy x = false) :
    (s.at t).goClosed 0 w.toNat fullMask r i go closed busy act = act x := by
  have : x.cmdAuth = false := by rw [h.only]; exact hc
  exact State.goBit_of h go _ busy act hg (by simp [this]) hb

end Sys2Proof.Machine
end

