-- ==== Sys2Proof/Laws/Frames.lean ====
section
/-! SUPPORT. For each shared operation of the command engine, the links, the rings and the registers, the components that it leaves as
they were, one simp lemma each. -/
namespace Sys2Proof.Machine

@[simp] theorem State.setFifo_clock (s : State) (src : Source) (l : List Cmd) : (s.setFifo src l).clock = s.clock := by cases s; rfl
@[simp] theorem State.setFifo_regs (s : State) (src : Source) (l : List Cmd) : (s.setFifo src l).regs = s.regs := by cases s; rfl
@[simp] theorem State.setFifo_setBits (s : State) (src : Source) (l : List Cmd) : (s.setFifo src l).setBits = s.setBits := by cases s; rfl
@[simp] theorem State.setFifo_setAt (s : State) (src : Source) (l : List Cmd) : (s.setFifo src l).setAt = s.setAt := by cases s; rfl
@[simp] theorem State.setFifo_rc (s : State) (src : Source) (l : List Cmd) : (s.setFifo src l).rc = s.rc := by cases s; rfl
@[simp] theorem State.setFifo_start (s : State) (src : Source) (l : List Cmd) : (s.setFifo src l).start = s.start := by cases s; rfl
@[simp] theorem State.setFifo_scratch (s : State) (src : Source) (l : List Cmd) : (s.setFifo src l).scratch = s.scratch := by cases s; rfl
@[simp] theorem State.setFifo_memQueues (s : State) (src : Source) (l : List Cmd) : (s.setFifo src l).memQueues = s.memQueues := by cases s; rfl
@[simp] theorem State.setFifo_fuses (s : State) (src : Source) (l : List Cmd) : (s.setFifo src l).fuses = s.fuses := by cases s; rfl
@[simp] theorem State.setFifo_boot (s : State) (src : Source) (l : List Cmd) : (s.setFifo src l).boot = s.boot := by cases s; rfl
@[simp] theorem State.setFifo_power (s : State) (src : Source) (l : List Cmd) : (s.setFifo src l).power = s.power := by cases s; rfl
@[simp] theorem State.setFifo_faults (s : State) (src : Source) (l : List Cmd) : (s.setFifo src l).faults = s.faults := by cases s; rfl
@[simp] theorem State.setFifo_service (s : State) (src : Source) (l : List Cmd) : (s.setFifo src l).service = s.service := by cases s; rfl
@[simp] theorem State.setFifo_pins (s : State) (src : Source) (l : List Cmd) : (s.setFifo src l).pins = s.pins := by cases s; rfl
@[simp] theorem State.setFifo_berths (s : State) (src : Source) (l : List Cmd) : (s.setFifo src l).berths = s.berths := by cases s; rfl
@[simp] theorem State.setFifo_masters (s : State) (src : Source) (l : List Cmd) : (s.setFifo src l).masters = s.masters := by cases s; rfl
@[simp] theorem State.setFifo_security (s : State) (src : Source) (l : List Cmd) : (s.setFifo src l).security = s.security := by cases s; rfl
@[simp] theorem State.setFifo_tables (s : State) (src : Source) (l : List Cmd) : (s.setFifo src l).tables = s.tables := by cases s; rfl
@[simp] theorem State.setFifo_arrays (s : State) (src : Source) (l : List Cmd) : (s.setFifo src l).arrays = s.arrays := by cases s; rfl
@[simp] theorem State.setFifo_numbers (s : State) (src : Source) (l : List Cmd) : (s.setFifo src l).numbers = s.numbers := by cases s; rfl
@[simp] theorem State.setFifo_hot (s : State) (src : Source) (l : List Cmd) : (s.setFifo src l).hot = s.hot := by cases s; rfl
@[simp] theorem State.setFifo_scrub (s : State) (src : Source) (l : List Cmd) : (s.setFifo src l).scrub = s.scrub := by cases s; rfl
@[simp] theorem State.setFifo_learning (s : State) (src : Source) (l : List Cmd) : (s.setFifo src l).learning = s.learning := by cases s; rfl
@[simp] theorem State.setFifo_manifest (s : State) (src : Source) (l : List Cmd) : (s.setFifo src l).manifest = s.manifest := by cases s; rfl
@[simp] theorem State.setFifo_mode (s : State) (src : Source) (l : List Cmd) : (s.setFifo src l).mode = s.mode := by cases s; rfl
@[simp] theorem State.setFifo_search (s : State) (src : Source) (l : List Cmd) : (s.setFifo src l).search = s.search := by cases s; rfl
@[simp] theorem State.setFifo_scribes (s : State) (src : Source) (l : List Cmd) : (s.setFifo src l).scribes = s.scribes := by cases s; rfl
@[simp] theorem State.setFifo_counters (s : State) (src : Source) (l : List Cmd) : (s.setFifo src l).counters = s.counters := by cases s; rfl
@[simp] theorem State.setFifo_observe (s : State) (src : Source) (l : List Cmd) : (s.setFifo src l).observe = s.observe := by cases s; rfl
@[simp] theorem State.setFifo_links (s : State) (src : Source) (l : List Cmd) : (s.setFifo src l).links = s.links := by cases s; rfl
@[simp] theorem State.setFifo_ring (s : State) (src : Source) (l : List Cmd) : (s.setFifo src l).ring = s.ring := by cases s; rfl
@[simp] theorem State.setFifo_host (s : State) (src : Source) (l : List Cmd) : (s.setFifo src l).host = s.host := by cases s; rfl
@[simp] theorem State.setFifo_dramCtl (s : State) (src : Source) (l : List Cmd) : (s.setFifo src l).dramCtl = s.dramCtl := by cases s; rfl
@[simp] theorem State.setFifo_dram (s : State) (src : Source) (l : List Cmd) : (s.setFifo src l).dram = s.dram := by cases s; rfl
@[simp] theorem State.setFifo_diram (s : State) (src : Source) (l : List Cmd) : (s.setFifo src l).diram = s.diram := by cases s; rfl
@[simp] theorem State.setFifo_due (s : State) (src : Source) (l : List Cmd) : (s.setFifo src l).due = s.due := by cases s; rfl
@[simp] theorem State.setFifo_freeCounter (s : State) (src : Source) (l : List Cmd) : (s.setFifo src l).freeCounter = s.freeCounter := by cases s; rfl
@[simp] theorem State.setFifo_out (s : State) (src : Source) (l : List Cmd) : (s.setFifo src l).out = s.out := by cases s; rfl
@[simp] theorem State.setFifo_pending (s : State) (src : Source) (l : List Cmd) : (s.setFifo src l).pending = s.pending := by cases s; rfl

@[simp] theorem State.setLink_clock (s : State) (p : Port) (l : Link) : (s.setLink p l).clock = s.clock := by
  simp only [State.setLink]; repeat' split
  all_goals simp
@[simp] theorem State.setLink_regs (s : State) (p : Port) (l : Link) : (s.setLink p l).regs = s.regs := by
  simp only [State.setLink]; repeat' split
  all_goals simp
@[simp] theorem State.setLink_setBits (s : State) (p : Port) (l : Link) : (s.setLink p l).setBits = s.setBits := by
  simp only [State.setLink]; repeat' split
  all_goals simp
@[simp] theorem State.setLink_setAt (s : State) (p : Port) (l : Link) : (s.setLink p l).setAt = s.setAt := by
  simp only [State.setLink]; repeat' split
  all_goals simp
@[simp] theorem State.setLink_rc (s : State) (p : Port) (l : Link) : (s.setLink p l).rc = s.rc := by
  simp only [State.setLink]; repeat' split
  all_goals simp
@[simp] theorem State.setLink_start (s : State) (p : Port) (l : Link) : (s.setLink p l).start = s.start := by
  simp only [State.setLink]; repeat' split
  all_goals simp
@[simp] theorem State.setLink_scratch (s : State) (p : Port) (l : Link) : (s.setLink p l).scratch = s.scratch := by
  simp only [State.setLink]; repeat' split
  all_goals simp
@[simp] theorem State.setLink_memQueues (s : State) (p : Port) (l : Link) : (s.setLink p l).memQueues = s.memQueues := by
  simp only [State.setLink]; repeat' split
  all_goals simp
@[simp] theorem State.setLink_fuses (s : State) (p : Port) (l : Link) : (s.setLink p l).fuses = s.fuses := by
  simp only [State.setLink]; repeat' split
  all_goals simp
@[simp] theorem State.setLink_boot (s : State) (p : Port) (l : Link) : (s.setLink p l).boot = s.boot := by
  simp only [State.setLink]; repeat' split
  all_goals simp
@[simp] theorem State.setLink_power (s : State) (p : Port) (l : Link) : (s.setLink p l).power = s.power := by
  simp only [State.setLink]; repeat' split
  all_goals simp
@[simp] theorem State.setLink_faults (s : State) (p : Port) (l : Link) : (s.setLink p l).faults = s.faults := by
  simp only [State.setLink]; repeat' split
  all_goals simp
@[simp] theorem State.setLink_service (s : State) (p : Port) (l : Link) : (s.setLink p l).service = s.service := by
  simp only [State.setLink]; repeat' split
  all_goals simp
@[simp] theorem State.setLink_pins (s : State) (p : Port) (l : Link) : (s.setLink p l).pins = s.pins := by
  simp only [State.setLink]; repeat' split
  all_goals simp
@[simp] theorem State.setLink_berths (s : State) (p : Port) (l : Link) : (s.setLink p l).berths = s.berths := by
  simp only [State.setLink]; repeat' split
  all_goals simp
@[simp] theorem State.setLink_masters (s : State) (p : Port) (l : Link) : (s.setLink p l).masters = s.masters := by
  simp only [State.setLink]; repeat' split
  all_goals simp
@[simp] theorem State.setLink_security (s : State) (p : Port) (l : Link) : (s.setLink p l).security = s.security := by
  simp only [State.setLink]; repeat' split
  all_goals simp
@[simp] theorem State.setLink_tables (s : State) (p : Port) (l : Link) : (s.setLink p l).tables = s.tables := by
  simp only [State.setLink]; repeat' split
  all_goals simp
@[simp] theorem State.setLink_arrays (s : State) (p : Port) (l : Link) : (s.setLink p l).arrays = s.arrays := by
  simp only [State.setLink]; repeat' split
  all_goals simp
@[simp] theorem State.setLink_numbers (s : State) (p : Port) (l : Link) : (s.setLink p l).numbers = s.numbers := by
  simp only [State.setLink]; repeat' split
  all_goals simp
@[simp] theorem State.setLink_cmds (s : State) (p : Port) (l : Link) : (s.setLink p l).cmds = s.cmds := by
  simp only [State.setLink]; repeat' split
  all_goals simp
@[simp] theorem State.setLink_hot (s : State) (p : Port) (l : Link) : (s.setLink p l).hot = s.hot := by
  simp only [State.setLink]; repeat' split
  all_goals simp
@[simp] theorem State.setLink_scrub (s : State) (p : Port) (l : Link) : (s.setLink p l).scrub = s.scrub := by
  simp only [State.setLink]; repeat' split
  all_goals simp
@[simp] theorem State.setLink_learning (s : State) (p : Port) (l : Link) : (s.setLink p l).learning = s.learning := by
  simp only [State.setLink]; repeat' split
  all_goals simp
@[simp] theorem State.setLink_manifest (s : State) (p : Port) (l : Link) : (s.setLink p l).manifest = s.manifest := by
  simp only [State.setLink]; repeat' split
  all_goals simp
@[simp] theorem State.setLink_mode (s : State) (p : Port) (l : Link) : (s.setLink p l).mode = s.mode := by
  simp only [State.setLink]; repeat' split
  all_goals simp
@[simp] theorem State.setLink_search (s : State) (p : Port) (l : Link) : (s.setLink p l).search = s.search := by
  simp only [State.setLink]; repeat' split
  all_goals simp
@[simp] theorem State.setLink_scribes (s : State) (p : Port) (l : Link) : (s.setLink p l).scribes = s.scribes := by
  simp only [State.setLink]; repeat' split
  all_goals simp
@[simp] theorem State.setLink_counters (s : State) (p : Port) (l : Link) : (s.setLink p l).counters = s.counters := by
  simp only [State.setLink]; repeat' split
  all_goals simp
@[simp] theorem State.setLink_observe (s : State) (p : Port) (l : Link) : (s.setLink p l).observe = s.observe := by
  simp only [State.setLink]; repeat' split
  all_goals simp
@[simp] theorem State.setLink_ring (s : State) (p : Port) (l : Link) : (s.setLink p l).ring = s.ring := by
  simp only [State.setLink]; repeat' split
  all_goals simp
@[simp] theorem State.setLink_host (s : State) (p : Port) (l : Link) : (s.setLink p l).host = s.host := by
  simp only [State.setLink]; repeat' split
  all_goals simp
@[simp] theorem State.setLink_dramCtl (s : State) (p : Port) (l : Link) : (s.setLink p l).dramCtl = s.dramCtl := by
  simp only [State.setLink]; repeat' split
  all_goals simp
@[simp] theorem State.setLink_dram (s : State) (p : Port) (l : Link) : (s.setLink p l).dram = s.dram := by
  simp only [State.setLink]; repeat' split
  all_goals simp
@[simp] theorem State.setLink_diram (s : State) (p : Port) (l : Link) : (s.setLink p l).diram = s.diram := by
  simp only [State.setLink]; repeat' split
  all_goals simp
@[simp] theorem State.setLink_due (s : State) (p : Port) (l : Link) : (s.setLink p l).due = s.due := by
  simp only [State.setLink]; repeat' split
  all_goals simp
@[simp] theorem State.setLink_freeCounter (s : State) (p : Port) (l : Link) : (s.setLink p l).freeCounter = s.freeCounter := by
  simp only [State.setLink]; repeat' split
  all_goals simp
@[simp] theorem State.setLink_out (s : State) (p : Port) (l : Link) : (s.setLink p l).out = s.out := by
  simp only [State.setLink]; repeat' split
  all_goals simp
@[simp] theorem State.setLink_pending (s : State) (p : Port) (l : Link) : (s.setLink p l).pending = s.pending := by
  simp only [State.setLink]; repeat' split
  all_goals simp

@[simp] theorem State.setRing_clock (s : State) (r : Nat) (x : HostRing) : (s.setRing r x).clock = s.clock := by cases s; rfl
@[simp] theorem State.setRing_regs (s : State) (r : Nat) (x : HostRing) : (s.setRing r x).regs = s.regs := by cases s; rfl
@[simp] theorem State.setRing_setBits (s : State) (r : Nat) (x : HostRing) : (s.setRing r x).setBits = s.setBits := by cases s; rfl
@[simp] theorem State.setRing_setAt (s : State) (r : Nat) (x : HostRing) : (s.setRing r x).setAt = s.setAt := by cases s; rfl
@[simp] theorem State.setRing_rc (s : State) (r : Nat) (x : HostRing) : (s.setRing r x).rc = s.rc := by cases s; rfl
@[simp] theorem State.setRing_start (s : State) (r : Nat) (x : HostRing) : (s.setRing r x).start = s.start := by cases s; rfl
@[simp] theorem State.setRing_scratch (s : State) (r : Nat) (x : HostRing) : (s.setRing r x).scratch = s.scratch := by cases s; rfl
@[simp] theorem State.setRing_memQueues (s : State) (r : Nat) (x : HostRing) : (s.setRing r x).memQueues = s.memQueues := by cases s; rfl
@[simp] theorem State.setRing_fuses (s : State) (r : Nat) (x : HostRing) : (s.setRing r x).fuses = s.fuses := by cases s; rfl
@[simp] theorem State.setRing_boot (s : State) (r : Nat) (x : HostRing) : (s.setRing r x).boot = s.boot := by cases s; rfl
@[simp] theorem State.setRing_power (s : State) (r : Nat) (x : HostRing) : (s.setRing r x).power = s.power := by cases s; rfl
@[simp] theorem State.setRing_faults (s : State) (r : Nat) (x : HostRing) : (s.setRing r x).faults = s.faults := by cases s; rfl
@[simp] theorem State.setRing_service (s : State) (r : Nat) (x : HostRing) : (s.setRing r x).service = s.service := by cases s; rfl
@[simp] theorem State.setRing_pins (s : State) (r : Nat) (x : HostRing) : (s.setRing r x).pins = s.pins := by cases s; rfl
@[simp] theorem State.setRing_berths (s : State) (r : Nat) (x : HostRing) : (s.setRing r x).berths = s.berths := by cases s; rfl
@[simp] theorem State.setRing_masters (s : State) (r : Nat) (x : HostRing) : (s.setRing r x).masters = s.masters := by cases s; rfl
@[simp] theorem State.setRing_security (s : State) (r : Nat) (x : HostRing) : (s.setRing r x).security = s.security := by cases s; rfl
@[simp] theorem State.setRing_tables (s : State) (r : Nat) (x : HostRing) : (s.setRing r x).tables = s.tables := by cases s; rfl
@[simp] theorem State.setRing_arrays (s : State) (r : Nat) (x : HostRing) : (s.setRing r x).arrays = s.arrays := by cases s; rfl
@[simp] theorem State.setRing_numbers (s : State) (r : Nat) (x : HostRing) : (s.setRing r x).numbers = s.numbers := by cases s; rfl
@[simp] theorem State.setRing_cmds (s : State) (r : Nat) (x : HostRing) : (s.setRing r x).cmds = s.cmds := by cases s; rfl
@[simp] theorem State.setRing_hot (s : State) (r : Nat) (x : HostRing) : (s.setRing r x).hot = s.hot := by cases s; rfl
@[simp] theorem State.setRing_scrub (s : State) (r : Nat) (x : HostRing) : (s.setRing r x).scrub = s.scrub := by cases s; rfl
@[simp] theorem State.setRing_learning (s : State) (r : Nat) (x : HostRing) : (s.setRing r x).learning = s.learning := by cases s; rfl
@[simp] theorem State.setRing_manifest (s : State) (r : Nat) (x : HostRing) : (s.setRing r x).manifest = s.manifest := by cases s; rfl
@[simp] theorem State.setRing_mode (s : State) (r : Nat) (x : HostRing) : (s.setRing r x).mode = s.mode := by cases s; rfl
@[simp] theorem State.setRing_search (s : State) (r : Nat) (x : HostRing) : (s.setRing r x).search = s.search := by cases s; rfl
@[simp] theorem State.setRing_scribes (s : State) (r : Nat) (x : HostRing) : (s.setRing r x).scribes = s.scribes := by cases s; rfl
@[simp] theorem State.setRing_counters (s : State) (r : Nat) (x : HostRing) : (s.setRing r x).counters = s.counters := by cases s; rfl
@[simp] theorem State.setRing_observe (s : State) (r : Nat) (x : HostRing) : (s.setRing r x).observe = s.observe := by cases s; rfl
@[simp] theorem State.setRing_links (s : State) (r : Nat) (x : HostRing) : (s.setRing r x).links = s.links := by cases s; rfl
@[simp] theorem State.setRing_ring (s : State) (r : Nat) (x : HostRing) : (s.setRing r x).ring = s.ring := by cases s; rfl
@[simp] theorem State.setRing_dramCtl (s : State) (r : Nat) (x : HostRing) : (s.setRing r x).dramCtl = s.dramCtl := by cases s; rfl
@[simp] theorem State.setRing_dram (s : State) (r : Nat) (x : HostRing) : (s.setRing r x).dram = s.dram := by cases s; rfl
@[simp] theorem State.setRing_diram (s : State) (r : Nat) (x : HostRing) : (s.setRing r x).diram = s.diram := by cases s; rfl
@[simp] theorem State.setRing_due (s : State) (r : Nat) (x : HostRing) : (s.setRing r x).due = s.due := by cases s; rfl
@[simp] theorem State.setRing_freeCounter (s : State) (r : Nat) (x : HostRing) : (s.setRing r x).freeCounter = s.freeCounter := by cases s; rfl
@[simp] theorem State.setRing_out (s : State) (r : Nat) (x : HostRing) : (s.setRing r x).out = s.out := by cases s; rfl
@[simp] theorem State.setRing_pending (s : State) (r : Nat) (x : HostRing) : (s.setRing r x).pending = s.pending := by cases s; rfl

@[simp] theorem State.setFunction_clock (s : State) (f : Nat) (x : Function) : (s.setFunction f x).clock = s.clock := by cases s; rfl
@[simp] theorem State.setFunction_regs (s : State) (f : Nat) (x : Function) : (s.setFunction f x).regs = s.regs := by cases s; rfl
@[simp] theorem State.setFunction_setBits (s : State) (f : Nat) (x : Function) : (s.setFunction f x).setBits = s.setBits := by cases s; rfl
@[simp] theorem State.setFunction_setAt (s : State) (f : Nat) (x : Function) : (s.setFunction f x).setAt = s.setAt := by cases s; rfl
@[simp] theorem State.setFunction_rc (s : State) (f : Nat) (x : Function) : (s.setFunction f x).rc = s.rc := by cases s; rfl
@[simp] theorem State.setFunction_start (s : State) (f : Nat) (x : Function) : (s.setFunction f x).start = s.start := by cases s; rfl
@[simp] theorem State.setFunction_scratch (s : State) (f : Nat) (x : Function) : (s.setFunction f x).scratch = s.scratch := by cases s; rfl
@[simp] theorem State.setFunction_memQueues (s : State) (f : Nat) (x : Function) : (s.setFunction f x).memQueues = s.memQueues := by cases s; rfl
@[simp] theorem State.setFunction_fuses (s : State) (f : Nat) (x : Function) : (s.setFunction f x).fuses = s.fuses := by cases s; rfl
@[simp] theorem State.setFunction_boot (s : State) (f : Nat) (x : Function) : (s.setFunction f x).boot = s.boot := by cases s; rfl
@[simp] theorem State.setFunction_power (s : State) (f : Nat) (x : Function) : (s.setFunction f x).power = s.power := by cases s; rfl
@[simp] theorem State.setFunction_faults (s : State) (f : Nat) (x : Function) : (s.setFunction f x).faults = s.faults := by cases s; rfl
@[simp] theorem State.setFunction_service (s : State) (f : Nat) (x : Function) : (s.setFunction f x).service = s.service := by cases s; rfl
@[simp] theorem State.setFunction_pins (s : State) (f : Nat) (x : Function) : (s.setFunction f x).pins = s.pins := by cases s; rfl
@[simp] theorem State.setFunction_berths (s : State) (f : Nat) (x : Function) : (s.setFunction f x).berths = s.berths := by cases s; rfl
@[simp] theorem State.setFunction_masters (s : State) (f : Nat) (x : Function) : (s.setFunction f x).masters = s.masters := by cases s; rfl
@[simp] theorem State.setFunction_security (s : State) (f : Nat) (x : Function) : (s.setFunction f x).security = s.security := by cases s; rfl
@[simp] theorem State.setFunction_tables (s : State) (f : Nat) (x : Function) : (s.setFunction f x).tables = s.tables := by cases s; rfl
@[simp] theorem State.setFunction_arrays (s : State) (f : Nat) (x : Function) : (s.setFunction f x).arrays = s.arrays := by cases s; rfl
@[simp] theorem State.setFunction_numbers (s : State) (f : Nat) (x : Function) : (s.setFunction f x).numbers = s.numbers := by cases s; rfl
@[simp] theorem State.setFunction_cmds (s : State) (f : Nat) (x : Function) : (s.setFunction f x).cmds = s.cmds := by cases s; rfl
@[simp] theorem State.setFunction_hot (s : State) (f : Nat) (x : Function) : (s.setFunction f x).hot = s.hot := by cases s; rfl
@[simp] theorem State.setFunction_scrub (s : State) (f : Nat) (x : Function) : (s.setFunction f x).scrub = s.scrub := by cases s; rfl
@[simp] theorem State.setFunction_learning (s : State) (f : Nat) (x : Function) : (s.setFunction f x).learning = s.learning := by cases s; rfl
@[simp] theorem State.setFunction_manifest (s : State) (f : Nat) (x : Function) : (s.setFunction f x).manifest = s.manifest := by cases s; rfl
@[simp] theorem State.setFunction_mode (s : State) (f : Nat) (x : Function) : (s.setFunction f x).mode = s.mode := by cases s; rfl
@[simp] theorem State.setFunction_search (s : State) (f : Nat) (x : Function) : (s.setFunction f x).search = s.search := by cases s; rfl
@[simp] theorem State.setFunction_scribes (s : State) (f : Nat) (x : Function) : (s.setFunction f x).scribes = s.scribes := by cases s; rfl
@[simp] theorem State.setFunction_counters (s : State) (f : Nat) (x : Function) : (s.setFunction f x).counters = s.counters := by cases s; rfl
@[simp] theorem State.setFunction_observe (s : State) (f : Nat) (x : Function) : (s.setFunction f x).observe = s.observe := by cases s; rfl
@[simp] theorem State.setFunction_links (s : State) (f : Nat) (x : Function) : (s.setFunction f x).links = s.links := by cases s; rfl
@[simp] theorem State.setFunction_ring (s : State) (f : Nat) (x : Function) : (s.setFunction f x).ring = s.ring := by cases s; rfl
@[simp] theorem State.setFunction_dramCtl (s : State) (f : Nat) (x : Function) : (s.setFunction f x).dramCtl = s.dramCtl := by cases s; rfl
@[simp] theorem State.setFunction_dram (s : State) (f : Nat) (x : Function) : (s.setFunction f x).dram = s.dram := by cases s; rfl
@[simp] theorem State.setFunction_diram (s : State) (f : Nat) (x : Function) : (s.setFunction f x).diram = s.diram := by cases s; rfl
@[simp] theorem State.setFunction_due (s : State) (f : Nat) (x : Function) : (s.setFunction f x).due = s.due := by cases s; rfl
@[simp] theorem State.setFunction_freeCounter (s : State) (f : Nat) (x : Function) : (s.setFunction f x).freeCounter = s.freeCounter := by cases s; rfl
@[simp] theorem State.setFunction_out (s : State) (f : Nat) (x : Function) : (s.setFunction f x).out = s.out := by cases s; rfl
@[simp] theorem State.setFunction_pending (s : State) (f : Nat) (x : Function) : (s.setFunction f x).pending = s.pending := by cases s; rfl

@[simp] theorem State.setWindow_clock (s : State) (w : Nat) (x : Window) : (s.setWindow w x).clock = s.clock := by cases s; rfl
@[simp] theorem State.setWindow_regs (s : State) (w : Nat) (x : Window) : (s.setWindow w x).regs = s.regs := by cases s; rfl
@[simp] theorem State.setWindow_setBits (s : State) (w : Nat) (x : Window) : (s.setWindow w x).setBits = s.setBits := by cases s; rfl
@[simp] theorem State.setWindow_setAt (s : State) (w : Nat) (x : Window) : (s.setWindow w x).setAt = s.setAt := by cases s; rfl
@[simp] theorem State.setWindow_rc (s : State) (w : Nat) (x : Window) : (s.setWindow w x).rc = s.rc := by cases s; rfl
@[simp] theorem State.setWindow_start (s : State) (w : Nat) (x : Window) : (s.setWindow w x).start = s.start := by cases s; rfl
@[simp] theorem State.setWindow_scratch (s : State) (w : Nat) (x : Window) : (s.setWindow w x).scratch = s.scratch := by cases s; rfl
@[simp] theorem State.setWindow_memQueues (s : State) (w : Nat) (x : Window) : (s.setWindow w x).memQueues = s.memQueues := by cases s; rfl
@[simp] theorem State.setWindow_fuses (s : State) (w : Nat) (x : Window) : (s.setWindow w x).fuses = s.fuses := by cases s; rfl
@[simp] theorem State.setWindow_boot (s : State) (w : Nat) (x : Window) : (s.setWindow w x).boot = s.boot := by cases s; rfl
@[simp] theorem State.setWindow_power (s : State) (w : Nat) (x : Window) : (s.setWindow w x).power = s.power := by cases s; rfl
@[simp] theorem State.setWindow_faults (s : State) (w : Nat) (x : Window) : (s.setWindow w x).faults = s.faults := by cases s; rfl
@[simp] theorem State.setWindow_service (s : State) (w : Nat) (x : Window) : (s.setWindow w x).service = s.service := by cases s; rfl
@[simp] theorem State.setWindow_pins (s : State) (w : Nat) (x : Window) : (s.setWindow w x).pins = s.pins := by cases s; rfl
@[simp] theorem State.setWindow_berths (s : State) (w : Nat) (x : Window) : (s.setWindow w x).berths = s.berths := by cases s; rfl
@[simp] theorem State.setWindow_masters (s : State) (w : Nat) (x : Window) : (s.setWindow w x).masters = s.masters := by cases s; rfl
@[simp] theorem State.setWindow_security (s : State) (w : Nat) (x : Window) : (s.setWindow w x).security = s.security := by cases s; rfl
@[simp] theorem State.setWindow_tables (s : State) (w : Nat) (x : Window) : (s.setWindow w x).tables = s.tables := by cases s; rfl
@[simp] theorem State.setWindow_arrays (s : State) (w : Nat) (x : Window) : (s.setWindow w x).arrays = s.arrays := by cases s; rfl
@[simp] theorem State.setWindow_numbers (s : State) (w : Nat) (x : Window) : (s.setWindow w x).numbers = s.numbers := by cases s; rfl
@[simp] theorem State.setWindow_cmds (s : State) (w : Nat) (x : Window) : (s.setWindow w x).cmds = s.cmds := by cases s; rfl
@[simp] theorem State.setWindow_hot (s : State) (w : Nat) (x : Window) : (s.setWindow w x).hot = s.hot := by cases s; rfl
@[simp] theorem State.setWindow_scrub (s : State) (w : Nat) (x : Window) : (s.setWindow w x).scrub = s.scrub := by cases s; rfl
@[simp] theorem State.setWindow_learning (s : State) (w : Nat) (x : Window) : (s.setWindow w x).learning = s.learning := by cases s; rfl
@[simp] theorem State.setWindow_manifest (s : State) (w : Nat) (x : Window) : (s.setWindow w x).manifest = s.manifest := by cases s; rfl
@[simp] theorem State.setWindow_mode (s : State) (w : Nat) (x : Window) : (s.setWindow w x).mode = s.mode := by cases s; rfl
@[simp] theorem State.setWindow_search (s : State) (w : Nat) (x : Window) : (s.setWindow w x).search = s.search := by cases s; rfl
@[simp] theorem State.setWindow_scribes (s : State) (w : Nat) (x : Window) : (s.setWindow w x).scribes = s.scribes := by cases s; rfl
@[simp] theorem State.setWindow_counters (s : State) (w : Nat) (x : Window) : (s.setWindow w x).counters = s.counters := by cases s; rfl
@[simp] theorem State.setWindow_observe (s : State) (w : Nat) (x : Window) : (s.setWindow w x).observe = s.observe := by cases s; rfl
@[simp] theorem State.setWindow_links (s : State) (w : Nat) (x : Window) : (s.setWindow w x).links = s.links := by cases s; rfl
@[simp] theorem State.setWindow_ring (s : State) (w : Nat) (x : Window) : (s.setWindow w x).ring = s.ring := by cases s; rfl
@[simp] theorem State.setWindow_dramCtl (s : State) (w : Nat) (x : Window) : (s.setWindow w x).dramCtl = s.dramCtl := by cases s; rfl
@[simp] theorem State.setWindow_dram (s : State) (w : Nat) (x : Window) : (s.setWindow w x).dram = s.dram := by cases s; rfl
@[simp] theorem State.setWindow_diram (s : State) (w : Nat) (x : Window) : (s.setWindow w x).diram = s.diram := by cases s; rfl
@[simp] theorem State.setWindow_due (s : State) (w : Nat) (x : Window) : (s.setWindow w x).due = s.due := by cases s; rfl
@[simp] theorem State.setWindow_freeCounter (s : State) (w : Nat) (x : Window) : (s.setWindow w x).freeCounter = s.freeCounter := by cases s; rfl
@[simp] theorem State.setWindow_out (s : State) (w : Nat) (x : Window) : (s.setWindow w x).out = s.out := by cases s; rfl
@[simp] theorem State.setWindow_pending (s : State) (w : Nat) (x : Window) : (s.setWindow w x).pending = s.pending := by cases s; rfl

@[simp] theorem State.releaseRecord_clock (s : State) (src : Source) (rec : Bytes) : (s.releaseRecord src rec).clock = s.clock := by
  simp only [State.releaseRecord]; repeat' split
  all_goals simp
@[simp] theorem State.releaseRecord_regs (s : State) (src : Source) (rec : Bytes) : (s.releaseRecord src rec).regs = s.regs := by
  simp only [State.releaseRecord]; repeat' split
  all_goals simp
@[simp] theorem State.releaseRecord_setBits (s : State) (src : Source) (rec : Bytes) : (s.releaseRecord src rec).setBits = s.setBits := by
  simp only [State.releaseRecord]; repeat' split
  all_goals simp
@[simp] theorem State.releaseRecord_setAt (s : State) (src : Source) (rec : Bytes) : (s.releaseRecord src rec).setAt = s.setAt := by
  simp only [State.releaseRecord]; repeat' split
  all_goals simp
@[simp] theorem State.releaseRecord_rc (s : State) (src : Source) (rec : Bytes) : (s.releaseRecord src rec).rc = s.rc := by
  simp only [State.releaseRecord]; repeat' split
  all_goals simp
@[simp] theorem State.releaseRecord_start (s : State) (src : Source) (rec : Bytes) : (s.releaseRecord src rec).start = s.start := by
  simp only [State.releaseRecord]; repeat' split
  all_goals simp
@[simp] theorem State.releaseRecord_scratch (s : State) (src : Source) (rec : Bytes) : (s.releaseRecord src rec).scratch = s.scratch := by
  simp only [State.releaseRecord]; repeat' split
  all_goals simp
@[simp] theorem State.releaseRecord_memQueues (s : State) (src : Source) (rec : Bytes) : (s.releaseRecord src rec).memQueues = s.memQueues := by
  simp only [State.releaseRecord]; repeat' split
  all_goals simp
@[simp] theorem State.releaseRecord_fuses (s : State) (src : Source) (rec : Bytes) : (s.releaseRecord src rec).fuses = s.fuses := by
  simp only [State.releaseRecord]; repeat' split
  all_goals simp
@[simp] theorem State.releaseRecord_boot (s : State) (src : Source) (rec : Bytes) : (s.releaseRecord src rec).boot = s.boot := by
  simp only [State.releaseRecord]; repeat' split
  all_goals simp
@[simp] theorem State.releaseRecord_power (s : State) (src : Source) (rec : Bytes) : (s.releaseRecord src rec).power = s.power := by
  simp only [State.releaseRecord]; repeat' split
  all_goals simp
@[simp] theorem State.releaseRecord_faults (s : State) (src : Source) (rec : Bytes) : (s.releaseRecord src rec).faults = s.faults := by
  simp only [State.releaseRecord]; repeat' split
  all_goals simp
@[simp] theorem State.releaseRecord_service (s : State) (src : Source) (rec : Bytes) : (s.releaseRecord src rec).service = s.service := by
  simp only [State.releaseRecord]; repeat' split
  all_goals simp
@[simp] theorem State.releaseRecord_pins (s : State) (src : Source) (rec : Bytes) : (s.releaseRecord src rec).pins = s.pins := by
  simp only [State.releaseRecord]; repeat' split
  all_goals simp
@[simp] theorem State.releaseRecord_berths (s : State) (src : Source) (rec : Bytes) : (s.releaseRecord src rec).berths = s.berths := by
  simp only [State.releaseRecord]; repeat' split
  all_goals simp
@[simp] theorem State.releaseRecord_masters (s : State) (src : Source) (rec : Bytes) : (s.releaseRecord src rec).masters = s.masters := by
  simp only [State.releaseRecord]; repeat' split
  all_goals simp
@[simp] theorem State.releaseRecord_security (s : State) (src : Source) (rec : Bytes) : (s.releaseRecord src rec).security = s.security := by
  simp only [State.releaseRecord]; repeat' split
  all_goals simp
@[simp] theorem State.releaseRecord_tables (s : State) (src : Source) (rec : Bytes) : (s.releaseRecord src rec).tables = s.tables := by
  simp only [State.releaseRecord]; repeat' split
  all_goals simp
@[simp] theorem State.releaseRecord_arrays (s : State) (src : Source) (rec : Bytes) : (s.releaseRecord src rec).arrays = s.arrays := by
  simp only [State.releaseRecord]; repeat' split
  all_goals simp
@[simp] theorem State.releaseRecord_numbers (s : State) (src : Source) (rec : Bytes) : (s.releaseRecord src rec).numbers = s.numbers := by
  simp only [State.releaseRecord]; repeat' split
  all_goals simp
@[simp] theorem State.releaseRecord_cmds (s : State) (src : Source) (rec : Bytes) : (s.releaseRecord src rec).cmds = s.cmds := by
  simp only [State.releaseRecord]; repeat' split
  all_goals simp
@[simp] theorem State.releaseRecord_hot (s : State) (src : Source) (rec : Bytes) : (s.releaseRecord src rec).hot = s.hot := by
  simp only [State.releaseRecord]; repeat' split
  all_goals simp
@[simp] theorem State.releaseRecord_scrub (s : State) (src : Source) (rec : Bytes) : (s.releaseRecord src rec).scrub = s.scrub := by
  simp only [State.releaseRecord]; repeat' split
  all_goals simp
@[simp] theorem State.releaseRecord_learning (s : State) (src : Source) (rec : Bytes) : (s.releaseRecord src rec).learning = s.learning := by
  simp only [State.releaseRecord]; repeat' split
  all_goals simp
@[simp] theorem State.releaseRecord_manifest (s : State) (src : Source) (rec : Bytes) : (s.releaseRecord src rec).manifest = s.manifest := by
  simp only [State.releaseRecord]; repeat' split
  all_goals simp
@[simp] theorem State.releaseRecord_mode (s : State) (src : Source) (rec : Bytes) : (s.releaseRecord src rec).mode = s.mode := by
  simp only [State.releaseRecord]; repeat' split
  all_goals simp
@[simp] theorem State.releaseRecord_search (s : State) (src : Source) (rec : Bytes) : (s.releaseRecord src rec).search = s.search := by
  simp only [State.releaseRecord]; repeat' split
  all_goals simp
@[simp] theorem State.releaseRecord_scribes (s : State) (src : Source) (rec : Bytes) : (s.releaseRecord src rec).scribes = s.scribes := by
  simp only [State.releaseRecord]; repeat' split
  all_goals simp
@[simp] theorem State.releaseRecord_counters (s : State) (src : Source) (rec : Bytes) : (s.releaseRecord src rec).counters = s.counters := by
  simp only [State.releaseRecord]; repeat' split
  all_goals simp
@[simp] theorem State.releaseRecord_observe (s : State) (src : Source) (rec : Bytes) : (s.releaseRecord src rec).observe = s.observe := by
  simp only [State.releaseRecord]; repeat' split
  all_goals simp
@[simp] theorem State.releaseRecord_ring (s : State) (src : Source) (rec : Bytes) : (s.releaseRecord src rec).ring = s.ring := by
  simp only [State.releaseRecord]; repeat' split
  all_goals simp
@[simp] theorem State.releaseRecord_dramCtl (s : State) (src : Source) (rec : Bytes) : (s.releaseRecord src rec).dramCtl = s.dramCtl := by
  simp only [State.releaseRecord]; repeat' split
  all_goals simp
@[simp] theorem State.releaseRecord_dram (s : State) (src : Source) (rec : Bytes) : (s.releaseRecord src rec).dram = s.dram := by
  simp only [State.releaseRecord]; repeat' split
  all_goals simp
@[simp] theorem State.releaseRecord_diram (s : State) (src : Source) (rec : Bytes) : (s.releaseRecord src rec).diram = s.diram := by
  simp only [State.releaseRecord]; repeat' split
  all_goals simp
@[simp] theorem State.releaseRecord_due (s : State) (src : Source) (rec : Bytes) : (s.releaseRecord src rec).due = s.due := by
  simp only [State.releaseRecord]; repeat' split
  all_goals simp
@[simp] theorem State.releaseRecord_freeCounter (s : State) (src : Source) (rec : Bytes) : (s.releaseRecord src rec).freeCounter = s.freeCounter := by
  simp only [State.releaseRecord]; repeat' split
  all_goals simp
@[simp] theorem State.releaseRecord_out (s : State) (src : Source) (rec : Bytes) : (s.releaseRecord src rec).out = s.out := by
  simp only [State.releaseRecord]; repeat' split
  all_goals simp
@[simp] theorem State.releaseRecord_pending (s : State) (src : Source) (rec : Bytes) : (s.releaseRecord src rec).pending = s.pending := by
  simp only [State.releaseRecord]; repeat' split
  all_goals simp

@[simp] theorem State.releaseReply_clock (s : State) (src : Source) (ring entries : Nat) : (s.releaseReply src ring entries).clock = s.clock := by
  simp only [State.releaseReply]; repeat' split
  all_goals simp
@[simp] theorem State.releaseReply_regs (s : State) (src : Source) (ring entries : Nat) : (s.releaseReply src ring entries).regs = s.regs := by
  simp only [State.releaseReply]; repeat' split
  all_goals simp
@[simp] theorem State.releaseReply_setBits (s : State) (src : Source) (ring entries : Nat) : (s.releaseReply src ring entries).setBits = s.setBits := by
  simp only [State.releaseReply]; repeat' split
  all_goals simp
@[simp] theorem State.releaseReply_setAt (s : State) (src : Source) (ring entries : Nat) : (s.releaseReply src ring entries).setAt = s.setAt := by
  simp only [State.releaseReply]; repeat' split
  all_goals simp
@[simp] theorem State.releaseReply_rc (s : State) (src : Source) (ring entries : Nat) : (s.releaseReply src ring entries).rc = s.rc := by
  simp only [State.releaseReply]; repeat' split
  all_goals simp
@[simp] theorem State.releaseReply_start (s : State) (src : Source) (ring entries : Nat) : (s.releaseReply src ring entries).start = s.start := by
  simp only [State.releaseReply]; repeat' split
  all_goals simp
@[simp] theorem State.releaseReply_scratch (s : State) (src : Source) (ring entries : Nat) : (s.releaseReply src ring entries).scratch = s.scratch := by
  simp only [State.releaseReply]; repeat' split
  all_goals simp
@[simp] theorem State.releaseReply_memQueues (s : State) (src : Source) (ring entries : Nat) : (s.releaseReply src ring entries).memQueues = s.memQueues := by
  simp only [State.releaseReply]; repeat' split
  all_goals simp
@[simp] theorem State.releaseReply_fuses (s : State) (src : Source) (ring entries : Nat) : (s.releaseReply src ring entries).fuses = s.fuses := by
  simp only [State.releaseReply]; repeat' split
  all_goals simp
@[simp] theorem State.releaseReply_boot (s : State) (src : Source) (ring entries : Nat) : (s.releaseReply src ring entries).boot = s.boot := by
  simp only [State.releaseReply]; repeat' split
  all_goals simp
@[simp] theorem State.releaseReply_power (s : State) (src : Source) (ring entries : Nat) : (s.releaseReply src ring entries).power = s.power := by
  simp only [State.releaseReply]; repeat' split
  all_goals simp
@[simp] theorem State.releaseReply_faults (s : State) (src : Source) (ring entries : Nat) : (s.releaseReply src ring entries).faults = s.faults := by
  simp only [State.releaseReply]; repeat' split
  all_goals simp
@[simp] theorem State.releaseReply_service (s : State) (src : Source) (ring entries : Nat) : (s.releaseReply src ring entries).service = s.service := by
  simp only [State.releaseReply]; repeat' split
  all_goals simp
@[simp] theorem State.releaseReply_pins (s : State) (src : Source) (ring entries : Nat) : (s.releaseReply src ring entries).pins = s.pins := by
  simp only [State.releaseReply]; repeat' split
  all_goals simp
@[simp] theorem State.releaseReply_berths (s : State) (src : Source) (ring entries : Nat) : (s.releaseReply src ring entries).berths = s.berths := by
  simp only [State.releaseReply]; repeat' split
  all_goals simp
@[simp] theorem State.releaseReply_masters (s : State) (src : Source) (ring entries : Nat) : (s.releaseReply src ring entries).masters = s.masters := by
  simp only [State.releaseReply]; repeat' split
  all_goals simp
@[simp] theorem State.releaseReply_security (s : State) (src : Source) (ring entries : Nat) : (s.releaseReply src ring entries).security = s.security := by
  simp only [State.releaseReply]; repeat' split
  all_goals simp
@[simp] theorem State.releaseReply_tables (s : State) (src : Source) (ring entries : Nat) : (s.releaseReply src ring entries).tables = s.tables := by
  simp only [State.releaseReply]; repeat' split
  all_goals simp
@[simp] theorem State.releaseReply_arrays (s : State) (src : Source) (ring entries : Nat) : (s.releaseReply src ring entries).arrays = s.arrays := by
  simp only [State.releaseReply]; repeat' split
  all_goals simp
@[simp] theorem State.releaseReply_numbers (s : State) (src : Source) (ring entries : Nat) : (s.releaseReply src ring entries).numbers = s.numbers := by
  simp only [State.releaseReply]; repeat' split
  all_goals simp
@[simp] theorem State.releaseReply_cmds (s : State) (src : Source) (ring entries : Nat) : (s.releaseReply src ring entries).cmds = s.cmds := by
  simp only [State.releaseReply]; repeat' split
  all_goals simp
@[simp] theorem State.releaseReply_hot (s : State) (src : Source) (ring entries : Nat) : (s.releaseReply src ring entries).hot = s.hot := by
  simp only [State.releaseReply]; repeat' split
  all_goals simp
@[simp] theorem State.releaseReply_scrub (s : State) (src : Source) (ring entries : Nat) : (s.releaseReply src ring entries).scrub = s.scrub := by
  simp only [State.releaseReply]; repeat' split
  all_goals simp
@[simp] theorem State.releaseReply_learning (s : State) (src : Source) (ring entries : Nat) : (s.releaseReply src ring entries).learning = s.learning := by
  simp only [State.releaseReply]; repeat' split
  all_goals simp
@[simp] theorem State.releaseReply_manifest (s : State) (src : Source) (ring entries : Nat) : (s.releaseReply src ring entries).manifest = s.manifest := by
  simp only [State.releaseReply]; repeat' split
  all_goals simp
@[simp] theorem State.releaseReply_mode (s : State) (src : Source) (ring entries : Nat) : (s.releaseReply src ring entries).mode = s.mode := by
  simp only [State.releaseReply]; repeat' split
  all_goals simp
@[simp] theorem State.releaseReply_search (s : State) (src : Source) (ring entries : Nat) : (s.releaseReply src ring entries).search = s.search := by
  simp only [State.releaseReply]; repeat' split
  all_goals simp
@[simp] theorem State.releaseReply_scribes (s : State) (src : Source) (ring entries : Nat) : (s.releaseReply src ring entries).scribes = s.scribes := by
  simp only [State.releaseReply]; repeat' split
  all_goals simp
@[simp] theorem State.releaseReply_counters (s : State) (src : Source) (ring entries : Nat) : (s.releaseReply src ring entries).counters = s.counters := by
  simp only [State.releaseReply]; repeat' split
  all_goals simp
@[simp] theorem State.releaseReply_observe (s : State) (src : Source) (ring entries : Nat) : (s.releaseReply src ring entries).observe = s.observe := by
  simp only [State.releaseReply]; repeat' split
  all_goals simp
@[simp] theorem State.releaseReply_links (s : State) (src : Source) (ring entries : Nat) : (s.releaseReply src ring entries).links = s.links := by
  simp only [State.releaseReply]; repeat' split
  all_goals simp
@[simp] theorem State.releaseReply_ring (s : State) (src : Source) (ring entries : Nat) : (s.releaseReply src ring entries).ring = s.ring := by
  simp only [State.releaseReply]; repeat' split
  all_goals simp
@[simp] theorem State.releaseReply_dramCtl (s : State) (src : Source) (ring entries : Nat) : (s.releaseReply src ring entries).dramCtl = s.dramCtl := by
  simp only [State.releaseReply]; repeat' split
  all_goals simp
@[simp] theorem State.releaseReply_dram (s : State) (src : Source) (ring entries : Nat) : (s.releaseReply src ring entries).dram = s.dram := by
  simp only [State.releaseReply]; repeat' split
  all_goals simp
@[simp] theorem State.releaseReply_diram (s : State) (src : Source) (ring entries : Nat) : (s.releaseReply src ring entries).diram = s.diram := by
  simp only [State.releaseReply]; repeat' split
  all_goals simp
@[simp] theorem State.releaseReply_due (s : State) (src : Source) (ring entries : Nat) : (s.releaseReply src ring entries).due = s.due := by
  simp only [State.releaseReply]; repeat' split
  all_goals simp
@[simp] theorem State.releaseReply_freeCounter (s : State) (src : Source) (ring entries : Nat) : (s.releaseReply src ring entries).freeCounter = s.freeCounter := by
  simp only [State.releaseReply]; repeat' split
  all_goals simp
@[simp] theorem State.releaseReply_out (s : State) (src : Source) (ring entries : Nat) : (s.releaseReply src ring entries).out = s.out := by
  simp only [State.releaseReply]; repeat' split
  all_goals simp
@[simp] theorem State.releaseReply_pending (s : State) (src : Source) (ring entries : Nat) : (s.releaseReply src ring entries).pending = s.pending := by
  simp only [State.releaseReply]; repeat' split
  all_goals simp

@[simp] theorem State.popHead_clock (s : State) (src : Source) (c : Cmd) : (s.popHead src c).clock = s.clock := by simp [State.popHead]
@[simp] theorem State.popHead_regs (s : State) (src : Source) (c : Cmd) : (s.popHead src c).regs = s.regs := by simp [State.popHead]
@[simp] theorem State.popHead_setBits (s : State) (src : Source) (c : Cmd) : (s.popHead src c).setBits = s.setBits := by simp [State.popHead]
@[simp] theorem State.popHead_setAt (s : State) (src : Source) (c : Cmd) : (s.popHead src c).setAt = s.setAt := by simp [State.popHead]
@[simp] theorem State.popHead_rc (s : State) (src : Source) (c : Cmd) : (s.popHead src c).rc = s.rc := by simp [State.popHead]
@[simp] theorem State.popHead_start (s : State) (src : Source) (c : Cmd) : (s.popHead src c).start = s.start := by simp [State.popHead]
@[simp] theorem State.popHead_scratch (s : State) (src : Source) (c : Cmd) : (s.popHead src c).scratch = s.scratch := by simp [State.popHead]
@[simp] theorem State.popHead_memQueues (s : State) (src : Source) (c : Cmd) : (s.popHead src c).memQueues = s.memQueues := by simp [State.popHead]
@[simp] theorem State.popHead_fuses (s : State) (src : Source) (c : Cmd) : (s.popHead src c).fuses = s.fuses := by simp [State.popHead]
@[simp] theorem State.popHead_boot (s : State) (src : Source) (c : Cmd) : (s.popHead src c).boot = s.boot := by simp [State.popHead]
@[simp] theorem State.popHead_power (s : State) (src : Source) (c : Cmd) : (s.popHead src c).power = s.power := by simp [State.popHead]
@[simp] theorem State.popHead_faults (s : State) (src : Source) (c : Cmd) : (s.popHead src c).faults = s.faults := by simp [State.popHead]
@[simp] theorem State.popHead_service (s : State) (src : Source) (c : Cmd) : (s.popHead src c).service = s.service := by simp [State.popHead]
@[simp] theorem State.popHead_pins (s : State) (src : Source) (c : Cmd) : (s.popHead src c).pins = s.pins := by simp [State.popHead]
@[simp] theorem State.popHead_berths (s : State) (src : Source) (c : Cmd) : (s.popHead src c).berths = s.berths := by simp [State.popHead]
@[simp] theorem State.popHead_masters (s : State) (src : Source) (c : Cmd) : (s.popHead src c).masters = s.masters := by simp [State.popHead]
@[simp] theorem State.popHead_security (s : State) (src : Source) (c : Cmd) : (s.popHead src c).security = s.security := by simp [State.popHead]
@[simp] theorem State.popHead_tables (s : State) (src : Source) (c : Cmd) : (s.popHead src c).tables = s.tables := by simp [State.popHead]
@[simp] theorem State.popHead_arrays (s : State) (src : Source) (c : Cmd) : (s.popHead src c).arrays = s.arrays := by simp [State.popHead]
@[simp] theorem State.popHead_numbers (s : State) (src : Source) (c : Cmd) : (s.popHead src c).numbers = s.numbers := by simp [State.popHead]
@[simp] theorem State.popHead_hot (s : State) (src : Source) (c : Cmd) : (s.popHead src c).hot = s.hot := by simp [State.popHead]
@[simp] theorem State.popHead_scrub (s : State) (src : Source) (c : Cmd) : (s.popHead src c).scrub = s.scrub := by simp [State.popHead]
@[simp] theorem State.popHead_learning (s : State) (src : Source) (c : Cmd) : (s.popHead src c).learning = s.learning := by simp [State.popHead]
@[simp] theorem State.popHead_manifest (s : State) (src : Source) (c : Cmd) : (s.popHead src c).manifest = s.manifest := by simp [State.popHead]
@[simp] theorem State.popHead_mode (s : State) (src : Source) (c : Cmd) : (s.popHead src c).mode = s.mode := by simp [State.popHead]
@[simp] theorem State.popHead_search (s : State) (src : Source) (c : Cmd) : (s.popHead src c).search = s.search := by simp [State.popHead]
@[simp] theorem State.popHead_scribes (s : State) (src : Source) (c : Cmd) : (s.popHead src c).scribes = s.scribes := by simp [State.popHead]
@[simp] theorem State.popHead_counters (s : State) (src : Source) (c : Cmd) : (s.popHead src c).counters = s.counters := by simp [State.popHead]
@[simp] theorem State.popHead_observe (s : State) (src : Source) (c : Cmd) : (s.popHead src c).observe = s.observe := by simp [State.popHead]
@[simp] theorem State.popHead_ring (s : State) (src : Source) (c : Cmd) : (s.popHead src c).ring = s.ring := by simp [State.popHead]
@[simp] theorem State.popHead_dramCtl (s : State) (src : Source) (c : Cmd) : (s.popHead src c).dramCtl = s.dramCtl := by simp [State.popHead]
@[simp] theorem State.popHead_dram (s : State) (src : Source) (c : Cmd) : (s.popHead src c).dram = s.dram := by simp [State.popHead]
@[simp] theorem State.popHead_diram (s : State) (src : Source) (c : Cmd) : (s.popHead src c).diram = s.diram := by simp [State.popHead]
@[simp] theorem State.popHead_due (s : State) (src : Source) (c : Cmd) : (s.popHead src c).due = s.due := by simp [State.popHead]
@[simp] theorem State.popHead_freeCounter (s : State) (src : Source) (c : Cmd) : (s.popHead src c).freeCounter = s.freeCounter := by simp [State.popHead]
@[simp] theorem State.popHead_out (s : State) (src : Source) (c : Cmd) : (s.popHead src c).out = s.out := by simp [State.popHead]
@[simp] theorem State.popHead_pending (s : State) (src : Source) (c : Cmd) : (s.popHead src c).pending = s.pending := by simp [State.popHead]

@[simp] theorem State.noteCookie_clock (s : State) (src : Source) (c : Cmd) : (s.noteCookie src c).clock = s.clock := by
  simp only [State.noteCookie]; repeat' split
  all_goals simp
@[simp] theorem State.noteCookie_regs (s : State) (src : Source) (c : Cmd) : (s.noteCookie src c).regs = s.regs := by
  simp only [State.noteCookie]; repeat' split
  all_goals simp
@[simp] theorem State.noteCookie_setBits (s : State) (src : Source) (c : Cmd) : (s.noteCookie src c).setBits = s.setBits := by
  simp only [State.noteCookie]; repeat' split
  all_goals simp
@[simp] theorem State.noteCookie_setAt (s : State) (src : Source) (c : Cmd) : (s.noteCookie src c).setAt = s.setAt := by
  simp only [State.noteCookie]; repeat' split
  all_goals simp
@[simp] theorem State.noteCookie_rc (s : State) (src : Source) (c : Cmd) : (s.noteCookie src c).rc = s.rc := by
  simp only [State.noteCookie]; repeat' split
  all_goals simp
@[simp] theorem State.noteCookie_start (s : State) (src : Source) (c : Cmd) : (s.noteCookie src c).start = s.start := by
  simp only [State.noteCookie]; repeat' split
  all_goals simp
@[simp] theorem State.noteCookie_scratch (s : State) (src : Source) (c : Cmd) : (s.noteCookie src c).scratch = s.scratch := by
  simp only [State.noteCookie]; repeat' split
  all_goals simp
@[simp] theorem State.noteCookie_memQueues (s : State) (src : Source) (c : Cmd) : (s.noteCookie src c).memQueues = s.memQueues := by
  simp only [State.noteCookie]; repeat' split
  all_goals simp
@[simp] theorem State.noteCookie_fuses (s : State) (src : Source) (c : Cmd) : (s.noteCookie src c).fuses = s.fuses := by
  simp only [State.noteCookie]; repeat' split
  all_goals simp
@[simp] theorem State.noteCookie_boot (s : State) (src : Source) (c : Cmd) : (s.noteCookie src c).boot = s.boot := by
  simp only [State.noteCookie]; repeat' split
  all_goals simp
@[simp] theorem State.noteCookie_power (s : State) (src : Source) (c : Cmd) : (s.noteCookie src c).power = s.power := by
  simp only [State.noteCookie]; repeat' split
  all_goals simp
@[simp] theorem State.noteCookie_faults (s : State) (src : Source) (c : Cmd) : (s.noteCookie src c).faults = s.faults := by
  simp only [State.noteCookie]; repeat' split
  all_goals simp
@[simp] theorem State.noteCookie_service (s : State) (src : Source) (c : Cmd) : (s.noteCookie src c).service = s.service := by
  simp only [State.noteCookie]; repeat' split
  all_goals simp
@[simp] theorem State.noteCookie_pins (s : State) (src : Source) (c : Cmd) : (s.noteCookie src c).pins = s.pins := by
  simp only [State.noteCookie]; repeat' split
  all_goals simp
@[simp] theorem State.noteCookie_berths (s : State) (src : Source) (c : Cmd) : (s.noteCookie src c).berths = s.berths := by
  simp only [State.noteCookie]; repeat' split
  all_goals simp
@[simp] theorem State.noteCookie_security (s : State) (src : Source) (c : Cmd) : (s.noteCookie src c).security = s.security := by
  simp only [State.noteCookie]; repeat' split
  all_goals simp
@[simp] theorem State.noteCookie_tables (s : State) (src : Source) (c : Cmd) : (s.noteCookie src c).tables = s.tables := by
  simp only [State.noteCookie]; repeat' split
  all_goals simp
@[simp] theorem State.noteCookie_arrays (s : State) (src : Source) (c : Cmd) : (s.noteCookie src c).arrays = s.arrays := by
  simp only [State.noteCookie]; repeat' split
  all_goals simp
@[simp] theorem State.noteCookie_numbers (s : State) (src : Source) (c : Cmd) : (s.noteCookie src c).numbers = s.numbers := by
  simp only [State.noteCookie]; repeat' split
  all_goals simp
@[simp] theorem State.noteCookie_cmds (s : State) (src : Source) (c : Cmd) : (s.noteCookie src c).cmds = s.cmds := by
  simp only [State.noteCookie]; repeat' split
  all_goals simp
@[simp] theorem State.noteCookie_hot (s : State) (src : Source) (c : Cmd) : (s.noteCookie src c).hot = s.hot := by
  simp only [State.noteCookie]; repeat' split
  all_goals simp
@[simp] theorem State.noteCookie_scrub (s : State) (src : Source) (c : Cmd) : (s.noteCookie src c).scrub = s.scrub := by
  simp only [State.noteCookie]; repeat' split
  all_goals simp
@[simp] theorem State.noteCookie_learning (s : State) (src : Source) (c : Cmd) : (s.noteCookie src c).learning = s.learning := by
  simp only [State.noteCookie]; repeat' split
  all_goals simp
@[simp] theorem State.noteCookie_manifest (s : State) (src : Source) (c : Cmd) : (s.noteCookie src c).manifest = s.manifest := by
  simp only [State.noteCookie]; repeat' split
  all_goals simp
@[simp] theorem State.noteCookie_mode (s : State) (src : Source) (c : Cmd) : (s.noteCookie src c).mode = s.mode := by
  simp only [State.noteCookie]; repeat' split
  all_goals simp
@[simp] theorem State.noteCookie_search (s : State) (src : Source) (c : Cmd) : (s.noteCookie src c).search = s.search := by
  simp only [State.noteCookie]; repeat' split
  all_goals simp
@[simp] theorem State.noteCookie_scribes (s : State) (src : Source) (c : Cmd) : (s.noteCookie src c).scribes = s.scribes := by
  simp only [State.noteCookie]; repeat' split
  all_goals simp
@[simp] theorem State.noteCookie_counters (s : State) (src : Source) (c : Cmd) : (s.noteCookie src c).counters = s.counters := by
  simp only [State.noteCookie]; repeat' split
  all_goals simp
@[simp] theorem State.noteCookie_observe (s : State) (src : Source) (c : Cmd) : (s.noteCookie src c).observe = s.observe := by
  simp only [State.noteCookie]; repeat' split
  all_goals simp
@[simp] theorem State.noteCookie_links (s : State) (src : Source) (c : Cmd) : (s.noteCookie src c).links = s.links := by
  simp only [State.noteCookie]; repeat' split
  all_goals simp
@[simp] theorem State.noteCookie_ring (s : State) (src : Source) (c : Cmd) : (s.noteCookie src c).ring = s.ring := by
  simp only [State.noteCookie]; repeat' split
  all_goals simp
@[simp] theorem State.noteCookie_host (s : State) (src : Source) (c : Cmd) : (s.noteCookie src c).host = s.host := by
  simp only [State.noteCookie]; repeat' split
  all_goals simp
@[simp] theorem State.noteCookie_dramCtl (s : State) (src : Source) (c : Cmd) : (s.noteCookie src c).dramCtl = s.dramCtl := by
  simp only [State.noteCookie]; repeat' split
  all_goals simp
@[simp] theorem State.noteCookie_dram (s : State) (src : Source) (c : Cmd) : (s.noteCookie src c).dram = s.dram := by
  simp only [State.noteCookie]; repeat' split
  all_goals simp
@[simp] theorem State.noteCookie_diram (s : State) (src : Source) (c : Cmd) : (s.noteCookie src c).diram = s.diram := by
  simp only [State.noteCookie]; repeat' split
  all_goals simp
@[simp] theorem State.noteCookie_due (s : State) (src : Source) (c : Cmd) : (s.noteCookie src c).due = s.due := by
  simp only [State.noteCookie]; repeat' split
  all_goals simp
@[simp] theorem State.noteCookie_freeCounter (s : State) (src : Source) (c : Cmd) : (s.noteCookie src c).freeCounter = s.freeCounter := by
  simp only [State.noteCookie]; repeat' split
  all_goals simp
@[simp] theorem State.noteCookie_out (s : State) (src : Source) (c : Cmd) : (s.noteCookie src c).out = s.out := by
  simp only [State.noteCookie]; repeat' split
  all_goals simp
@[simp] theorem State.noteCookie_pending (s : State) (src : Source) (c : Cmd) : (s.noteCookie src c).pending = s.pending := by
  simp only [State.noteCookie]; repeat' split
  all_goals simp

@[simp] theorem State.keepCookie_clock (s : State) (old : State) (src : Source) (c : Cmd) : (s.keepCookie old src c).clock = s.clock := by
  simp only [State.keepCookie]; repeat' split
  all_goals simp
@[simp] theorem State.keepCookie_regs (s : State) (old : State) (src : Source) (c : Cmd) : (s.keepCookie old src c).regs = s.regs := by
  simp only [State.keepCookie]; repeat' split
  all_goals simp
@[simp] theorem State.keepCookie_setBits (s : State) (old : State) (src : Source) (c : Cmd) : (s.keepCookie old src c).setBits = s.setBits := by
  simp only [State.keepCookie]; repeat' split
  all_goals simp
@[simp] theorem State.keepCookie_setAt (s : State) (old : State) (src : Source) (c : Cmd) : (s.keepCookie old src c).setAt = s.setAt := by
  simp only [State.keepCookie]; repeat' split
  all_goals simp
@[simp] theorem State.keepCookie_rc (s : State) (old : State) (src : Source) (c : Cmd) : (s.keepCookie old src c).rc = s.rc := by
  simp only [State.keepCookie]; repeat' split
  all_goals simp
@[simp] theorem State.keepCookie_start (s : State) (old : State) (src : Source) (c : Cmd) : (s.keepCookie old src c).start = s.start := by
  simp only [State.keepCookie]; repeat' split
  all_goals simp
@[simp] theorem State.keepCookie_scratch (s : State) (old : State) (src : Source) (c : Cmd) : (s.keepCookie old src c).scratch = s.scratch := by
  simp only [State.keepCookie]; repeat' split
  all_goals simp
@[simp] theorem State.keepCookie_memQueues (s : State) (old : State) (src : Source) (c : Cmd) : (s.keepCookie old src c).memQueues = s.memQueues := by
  simp only [State.keepCookie]; repeat' split
  all_goals simp
@[simp] theorem State.keepCookie_fuses (s : State) (old : State) (src : Source) (c : Cmd) : (s.keepCookie old src c).fuses = s.fuses := by
  simp only [State.keepCookie]; repeat' split
  all_goals simp
@[simp] theorem State.keepCookie_boot (s : State) (old : State) (src : Source) (c : Cmd) : (s.keepCookie old src c).boot = s.boot := by
  simp only [State.keepCookie]; repeat' split
  all_goals simp
@[simp] theorem State.keepCookie_power (s : State) (old : State) (src : Source) (c : Cmd) : (s.keepCookie old src c).power = s.power := by
  simp only [State.keepCookie]; repeat' split
  all_goals simp
@[simp] theorem State.keepCookie_faults (s : State) (old : State) (src : Source) (c : Cmd) : (s.keepCookie old src c).faults = s.faults := by
  simp only [State.keepCookie]; repeat' split
  all_goals simp
@[simp] theorem State.keepCookie_service (s : State) (old : State) (src : Source) (c : Cmd) : (s.keepCookie old src c).service = s.service := by
  simp only [State.keepCookie]; repeat' split
  all_goals simp
@[simp] theorem State.keepCookie_pins (s : State) (old : State) (src : Source) (c : Cmd) : (s.keepCookie old src c).pins = s.pins := by
  simp only [State.keepCookie]; repeat' split
  all_goals simp
@[simp] theorem State.keepCookie_berths (s : State) (old : State) (src : Source) (c : Cmd) : (s.keepCookie old src c).berths = s.berths := by
  simp only [State.keepCookie]; repeat' split
  all_goals simp
@[simp] theorem State.keepCookie_security (s : State) (old : State) (src : Source) (c : Cmd) : (s.keepCookie old src c).security = s.security := by
  simp only [State.keepCookie]; repeat' split
  all_goals simp
@[simp] theorem State.keepCookie_tables (s : State) (old : State) (src : Source) (c : Cmd) : (s.keepCookie old src c).tables = s.tables := by
  simp only [State.keepCookie]; repeat' split
  all_goals simp
@[simp] theorem State.keepCookie_arrays (s : State) (old : State) (src : Source) (c : Cmd) : (s.keepCookie old src c).arrays = s.arrays := by
  simp only [State.keepCookie]; repeat' split
  all_goals simp
@[simp] theorem State.keepCookie_numbers (s : State) (old : State) (src : Source) (c : Cmd) : (s.keepCookie old src c).numbers = s.numbers := by
  simp only [State.keepCookie]; repeat' split
  all_goals simp
@[simp] theorem State.keepCookie_cmds (s : State) (old : State) (src : Source) (c : Cmd) : (s.keepCookie old src c).cmds = s.cmds := by
  simp only [State.keepCookie]; repeat' split
  all_goals simp
@[simp] theorem State.keepCookie_hot (s : State) (old : State) (src : Source) (c : Cmd) : (s.keepCookie old src c).hot = s.hot := by
  simp only [State.keepCookie]; repeat' split
  all_goals simp
@[simp] theorem State.keepCookie_scrub (s : State) (old : State) (src : Source) (c : Cmd) : (s.keepCookie old src c).scrub = s.scrub := by
  simp only [State.keepCookie]; repeat' split
  all_goals simp
@[simp] theorem State.keepCookie_learning (s : State) (old : State) (src : Source) (c : Cmd) : (s.keepCookie old src c).learning = s.learning := by
  simp only [State.keepCookie]; repeat' split
  all_goals simp
@[simp] theorem State.keepCookie_manifest (s : State) (old : State) (src : Source) (c : Cmd) : (s.keepCookie old src c).manifest = s.manifest := by
  simp only [State.keepCookie]; repeat' split
  all_goals simp
@[simp] theorem State.keepCookie_mode (s : State) (old : State) (src : Source) (c : Cmd) : (s.keepCookie old src c).mode = s.mode := by
  simp only [State.keepCookie]; repeat' split
  all_goals simp
@[simp] theorem State.keepCookie_search (s : State) (old : State) (src : Source) (c : Cmd) : (s.keepCookie old src c).search = s.search := by
  simp only [State.keepCookie]; repeat' split
  all_goals simp
@[simp] theorem State.keepCookie_scribes (s : State) (old : State) (src : Source) (c : Cmd) : (s.keepCookie old src c).scribes = s.scribes := by
  simp only [State.keepCookie]; repeat' split
  all_goals simp
@[simp] theorem State.keepCookie_counters (s : State) (old : State) (src : Source) (c : Cmd) : (s.keepCookie old src c).counters = s.counters := by
  simp only [State.keepCookie]; repeat' split
  all_goals simp
@[simp] theorem State.keepCookie_observe (s : State) (old : State) (src : Source) (c : Cmd) : (s.keepCookie old src c).observe = s.observe := by
  simp only [State.keepCookie]; repeat' split
  all_goals simp
@[simp] theorem State.keepCookie_links (s : State) (old : State) (src : Source) (c : Cmd) : (s.keepCookie old src c).links = s.links := by
  simp only [State.keepCookie]; repeat' split
  all_goals simp
@[simp] theorem State.keepCookie_ring (s : State) (old : State) (src : Source) (c : Cmd) : (s.keepCookie old src c).ring = s.ring := by
  simp only [State.keepCookie]; repeat' split
  all_goals simp
@[simp] theorem State.keepCookie_host (s : State) (old : State) (src : Source) (c : Cmd) : (s.keepCookie old src c).host = s.host := by
  simp only [State.keepCookie]; repeat' split
  all_goals simp
@[simp] theorem State.keepCookie_dramCtl (s : State) (old : State) (src : Source) (c : Cmd) : (s.keepCookie old src c).dramCtl = s.dramCtl := by
  simp only [State.keepCookie]; repeat' split
  all_goals simp
@[simp] theorem State.keepCookie_dram (s : State) (old : State) (src : Source) (c : Cmd) : (s.keepCookie old src c).dram = s.dram := by
  simp only [State.keepCookie]; repeat' split
  all_goals simp
@[simp] theorem State.keepCookie_diram (s : State) (old : State) (src : Source) (c : Cmd) : (s.keepCookie old src c).diram = s.diram := by
  simp only [State.keepCookie]; repeat' split
  all_goals simp
@[simp] theorem State.keepCookie_due (s : State) (old : State) (src : Source) (c : Cmd) : (s.keepCookie old src c).due = s.due := by
  simp only [State.keepCookie]; repeat' split
  all_goals simp
@[simp] theorem State.keepCookie_freeCounter (s : State) (old : State) (src : Source) (c : Cmd) : (s.keepCookie old src c).freeCounter = s.freeCounter := by
  simp only [State.keepCookie]; repeat' split
  all_goals simp
@[simp] theorem State.keepCookie_out (s : State) (old : State) (src : Source) (c : Cmd) : (s.keepCookie old src c).out = s.out := by
  simp only [State.keepCookie]; repeat' split
  all_goals simp
@[simp] theorem State.keepCookie_pending (s : State) (old : State) (src : Source) (c : Cmd) : (s.keepCookie old src c).pending = s.pending := by
  simp only [State.keepCookie]; repeat' split
  all_goals simp

@[simp] theorem State.accept_clock (s : State) (src : Source) (c : Cmd) (n : Nat) (b : Bool) (r : Option (Nat × Nat × Nat × Nat × Bytes)) (p : Option Nat) : (s.accept src c n b r p).clock = s.clock := by simp [State.accept]
@[simp] theorem State.accept_regs (s : State) (src : Source) (c : Cmd) (n : Nat) (b : Bool) (r : Option (Nat × Nat × Nat × Nat × Bytes)) (p : Option Nat) : (s.accept src c n b r p).regs = s.regs := by simp [State.accept]
@[simp] theorem State.accept_setBits (s : State) (src : Source) (c : Cmd) (n : Nat) (b : Bool) (r : Option (Nat × Nat × Nat × Nat × Bytes)) (p : Option Nat) : (s.accept src c n b r p).setBits = s.setBits := by simp [State.accept]
@[simp] theorem State.accept_setAt (s : State) (src : Source) (c : Cmd) (n : Nat) (b : Bool) (r : Option (Nat × Nat × Nat × Nat × Bytes)) (p : Option Nat) : (s.accept src c n b r p).setAt = s.setAt := by simp [State.accept]
@[simp] theorem State.accept_rc (s : State) (src : Source) (c : Cmd) (n : Nat) (b : Bool) (r : Option (Nat × Nat × Nat × Nat × Bytes)) (p : Option Nat) : (s.accept src c n b r p).rc = s.rc := by simp [State.accept]
@[simp] theorem State.accept_start (s : State) (src : Source) (c : Cmd) (n : Nat) (b : Bool) (r : Option (Nat × Nat × Nat × Nat × Bytes)) (p : Option Nat) : (s.accept src c n b r p).start = s.start := by simp [State.accept]
@[simp] theorem State.accept_scratch (s : State) (src : Source) (c : Cmd) (n : Nat) (b : Bool) (r : Option (Nat × Nat × Nat × Nat × Bytes)) (p : Option Nat) : (s.accept src c n b r p).scratch = s.scratch := by simp [State.accept]
@[simp] theorem State.accept_memQueues (s : State) (src : Source) (c : Cmd) (n : Nat) (b : Bool) (r : Option (Nat × Nat × Nat × Nat × Bytes)) (p : Option Nat) : (s.accept src c n b r p).memQueues = s.memQueues := by simp [State.accept]
@[simp] theorem State.accept_fuses (s : State) (src : Source) (c : Cmd) (n : Nat) (b : Bool) (r : Option (Nat × Nat × Nat × Nat × Bytes)) (p : Option Nat) : (s.accept src c n b r p).fuses = s.fuses := by simp [State.accept]
@[simp] theorem State.accept_boot (s : State) (src : Source) (c : Cmd) (n : Nat) (b : Bool) (r : Option (Nat × Nat × Nat × Nat × Bytes)) (p : Option Nat) : (s.accept src c n b r p).boot = s.boot := by simp [State.accept]
@[simp] theorem State.accept_power (s : State) (src : Source) (c : Cmd) (n : Nat) (b : Bool) (r : Option (Nat × Nat × Nat × Nat × Bytes)) (p : Option Nat) : (s.accept src c n b r p).power = s.power := by simp [State.accept]
@[simp] theorem State.accept_faults (s : State) (src : Source) (c : Cmd) (n : Nat) (b : Bool) (r : Option (Nat × Nat × Nat × Nat × Bytes)) (p : Option Nat) : (s.accept src c n b r p).faults = s.faults := by simp [State.accept]
@[simp] theorem State.accept_service (s : State) (src : Source) (c : Cmd) (n : Nat) (b : Bool) (r : Option (Nat × Nat × Nat × Nat × Bytes)) (p : Option Nat) : (s.accept src c n b r p).service = s.service := by simp [State.accept]
@[simp] theorem State.accept_pins (s : State) (src : Source) (c : Cmd) (n : Nat) (b : Bool) (r : Option (Nat × Nat × Nat × Nat × Bytes)) (p : Option Nat) : (s.accept src c n b r p).pins = s.pins := by simp [State.accept]
@[simp] theorem State.accept_berths (s : State) (src : Source) (c : Cmd) (n : Nat) (b : Bool) (r : Option (Nat × Nat × Nat × Nat × Bytes)) (p : Option Nat) : (s.accept src c n b r p).berths = s.berths := by simp [State.accept]
@[simp] theorem State.accept_masters (s : State) (src : Source) (c : Cmd) (n : Nat) (b : Bool) (r : Option (Nat × Nat × Nat × Nat × Bytes)) (p : Option Nat) : (s.accept src c n b r p).masters = s.masters := by simp [State.accept]
@[simp] theorem State.accept_security (s : State) (src : Source) (c : Cmd) (n : Nat) (b : Bool) (r : Option (Nat × Nat × Nat × Nat × Bytes)) (p : Option Nat) : (s.accept src c n b r p).security = s.security := by simp [State.accept]
@[simp] theorem State.accept_tables (s : State) (src : Source) (c : Cmd) (n : Nat) (b : Bool) (r : Option (Nat × Nat × Nat × Nat × Bytes)) (p : Option Nat) : (s.accept src c n b r p).tables = s.tables := by simp [State.accept]
@[simp] theorem State.accept_arrays (s : State) (src : Source) (c : Cmd) (n : Nat) (b : Bool) (r : Option (Nat × Nat × Nat × Nat × Bytes)) (p : Option Nat) : (s.accept src c n b r p).arrays = s.arrays := by simp [State.accept]
@[simp] theorem State.accept_numbers (s : State) (src : Source) (c : Cmd) (n : Nat) (b : Bool) (r : Option (Nat × Nat × Nat × Nat × Bytes)) (p : Option Nat) : (s.accept src c n b r p).numbers = s.numbers := by simp [State.accept]
@[simp] theorem State.accept_hot (s : State) (src : Source) (c : Cmd) (n : Nat) (b : Bool) (r : Option (Nat × Nat × Nat × Nat × Bytes)) (p : Option Nat) : (s.accept src c n b r p).hot = s.hot := by simp [State.accept]
@[simp] theorem State.accept_scrub (s : State) (src : Source) (c : Cmd) (n : Nat) (b : Bool) (r : Option (Nat × Nat × Nat × Nat × Bytes)) (p : Option Nat) : (s.accept src c n b r p).scrub = s.scrub := by simp [State.accept]
@[simp] theorem State.accept_learning (s : State) (src : Source) (c : Cmd) (n : Nat) (b : Bool) (r : Option (Nat × Nat × Nat × Nat × Bytes)) (p : Option Nat) : (s.accept src c n b r p).learning = s.learning := by simp [State.accept]
@[simp] theorem State.accept_manifest (s : State) (src : Source) (c : Cmd) (n : Nat) (b : Bool) (r : Option (Nat × Nat × Nat × Nat × Bytes)) (p : Option Nat) : (s.accept src c n b r p).manifest = s.manifest := by simp [State.accept]
@[simp] theorem State.accept_mode (s : State) (src : Source) (c : Cmd) (n : Nat) (b : Bool) (r : Option (Nat × Nat × Nat × Nat × Bytes)) (p : Option Nat) : (s.accept src c n b r p).mode = s.mode := by simp [State.accept]
@[simp] theorem State.accept_search (s : State) (src : Source) (c : Cmd) (n : Nat) (b : Bool) (r : Option (Nat × Nat × Nat × Nat × Bytes)) (p : Option Nat) : (s.accept src c n b r p).search = s.search := by simp [State.accept]
@[simp] theorem State.accept_scribes (s : State) (src : Source) (c : Cmd) (n : Nat) (b : Bool) (r : Option (Nat × Nat × Nat × Nat × Bytes)) (p : Option Nat) : (s.accept src c n b r p).scribes = s.scribes := by simp [State.accept]
@[simp] theorem State.accept_counters (s : State) (src : Source) (c : Cmd) (n : Nat) (b : Bool) (r : Option (Nat × Nat × Nat × Nat × Bytes)) (p : Option Nat) : (s.accept src c n b r p).counters = s.counters := by simp [State.accept]
@[simp] theorem State.accept_observe (s : State) (src : Source) (c : Cmd) (n : Nat) (b : Bool) (r : Option (Nat × Nat × Nat × Nat × Bytes)) (p : Option Nat) : (s.accept src c n b r p).observe = s.observe := by simp [State.accept]
@[simp] theorem State.accept_ring (s : State) (src : Source) (c : Cmd) (n : Nat) (b : Bool) (r : Option (Nat × Nat × Nat × Nat × Bytes)) (p : Option Nat) : (s.accept src c n b r p).ring = s.ring := by simp [State.accept]
@[simp] theorem State.accept_dramCtl (s : State) (src : Source) (c : Cmd) (n : Nat) (b : Bool) (r : Option (Nat × Nat × Nat × Nat × Bytes)) (p : Option Nat) : (s.accept src c n b r p).dramCtl = s.dramCtl := by simp [State.accept]
@[simp] theorem State.accept_dram (s : State) (src : Source) (c : Cmd) (n : Nat) (b : Bool) (r : Option (Nat × Nat × Nat × Nat × Bytes)) (p : Option Nat) : (s.accept src c n b r p).dram = s.dram := by simp [State.accept]
@[simp] theorem State.accept_diram (s : State) (src : Source) (c : Cmd) (n : Nat) (b : Bool) (r : Option (Nat × Nat × Nat × Nat × Bytes)) (p : Option Nat) : (s.accept src c n b r p).diram = s.diram := by simp [State.accept]
@[simp] theorem State.accept_due (s : State) (src : Source) (c : Cmd) (n : Nat) (b : Bool) (r : Option (Nat × Nat × Nat × Nat × Bytes)) (p : Option Nat) : (s.accept src c n b r p).due = s.due := by simp [State.accept]
@[simp] theorem State.accept_freeCounter (s : State) (src : Source) (c : Cmd) (n : Nat) (b : Bool) (r : Option (Nat × Nat × Nat × Nat × Bytes)) (p : Option Nat) : (s.accept src c n b r p).freeCounter = s.freeCounter := by simp [State.accept]
@[simp] theorem State.accept_out (s : State) (src : Source) (c : Cmd) (n : Nat) (b : Bool) (r : Option (Nat × Nat × Nat × Nat × Bytes)) (p : Option Nat) : (s.accept src c n b r p).out = s.out := by simp [State.accept]
@[simp] theorem State.accept_pending (s : State) (src : Source) (c : Cmd) (n : Nat) (b : Bool) (r : Option (Nat × Nat × Nat × Nat × Bytes)) (p : Option Nat) : (s.accept src c n b r p).pending = s.pending := by simp [State.accept]

@[simp] theorem State.acceptWrite_clock (s : State) (src : Source) (c : Cmd) : (s.acceptWrite src c).clock = s.clock := by simp [State.acceptWrite]
@[simp] theorem State.acceptWrite_regs (s : State) (src : Source) (c : Cmd) : (s.acceptWrite src c).regs = s.regs := by simp [State.acceptWrite]
@[simp] theorem State.acceptWrite_setBits (s : State) (src : Source) (c : Cmd) : (s.acceptWrite src c).setBits = s.setBits := by simp [State.acceptWrite]
@[simp] theorem State.acceptWrite_setAt (s : State) (src : Source) (c : Cmd) : (s.acceptWrite src c).setAt = s.setAt := by simp [State.acceptWrite]
@[simp] theorem State.acceptWrite_rc (s : State) (src : Source) (c : Cmd) : (s.acceptWrite src c).rc = s.rc := by simp [State.acceptWrite]
@[simp] theorem State.acceptWrite_start (s : State) (src : Source) (c : Cmd) : (s.acceptWrite src c).start = s.start := by simp [State.acceptWrite]
@[simp] theorem State.acceptWrite_scratch (s : State) (src : Source) (c : Cmd) : (s.acceptWrite src c).scratch = s.scratch := by simp [State.acceptWrite]
@[simp] theorem State.acceptWrite_memQueues (s : State) (src : Source) (c : Cmd) : (s.acceptWrite src c).memQueues = s.memQueues := by simp [State.acceptWrite]
@[simp] theorem State.acceptWrite_fuses (s : State) (src : Source) (c : Cmd) : (s.acceptWrite src c).fuses = s.fuses := by simp [State.acceptWrite]
@[simp] theorem State.acceptWrite_boot (s : State) (src : Source) (c : Cmd) : (s.acceptWrite src c).boot = s.boot := by simp [State.acceptWrite]
@[simp] theorem State.acceptWrite_power (s : State) (src : Source) (c : Cmd) : (s.acceptWrite src c).power = s.power := by simp [State.acceptWrite]
@[simp] theorem State.acceptWrite_faults (s : State) (src : Source) (c : Cmd) : (s.acceptWrite src c).faults = s.faults := by simp [State.acceptWrite]
@[simp] theorem State.acceptWrite_service (s : State) (src : Source) (c : Cmd) : (s.acceptWrite src c).service = s.service := by simp [State.acceptWrite]
@[simp] theorem State.acceptWrite_pins (s : State) (src : Source) (c : Cmd) : (s.acceptWrite src c).pins = s.pins := by simp [State.acceptWrite]
@[simp] theorem State.acceptWrite_berths (s : State) (src : Source) (c : Cmd) : (s.acceptWrite src c).berths = s.berths := by simp [State.acceptWrite]
@[simp] theorem State.acceptWrite_masters (s : State) (src : Source) (c : Cmd) : (s.acceptWrite src c).masters = s.masters := by simp [State.acceptWrite]
@[simp] theorem State.acceptWrite_security (s : State) (src : Source) (c : Cmd) : (s.acceptWrite src c).security = s.security := by simp [State.acceptWrite]
@[simp] theorem State.acceptWrite_tables (s : State) (src : Source) (c : Cmd) : (s.acceptWrite src c).tables = s.tables := by simp [State.acceptWrite]
@[simp] theorem State.acceptWrite_arrays (s : State) (src : Source) (c : Cmd) : (s.acceptWrite src c).arrays = s.arrays := by simp [State.acceptWrite]
@[simp] theorem State.acceptWrite_numbers (s : State) (src : Source) (c : Cmd) : (s.acceptWrite src c).numbers = s.numbers := by simp [State.acceptWrite]
@[simp] theorem State.acceptWrite_hot (s : State) (src : Source) (c : Cmd) : (s.acceptWrite src c).hot = s.hot := by simp [State.acceptWrite]
@[simp] theorem State.acceptWrite_scrub (s : State) (src : Source) (c : Cmd) : (s.acceptWrite src c).scrub = s.scrub := by simp [State.acceptWrite]
@[simp] theorem State.acceptWrite_learning (s : State) (src : Source) (c : Cmd) : (s.acceptWrite src c).learning = s.learning := by simp [State.acceptWrite]
@[simp] theorem State.acceptWrite_manifest (s : State) (src : Source) (c : Cmd) : (s.acceptWrite src c).manifest = s.manifest := by simp [State.acceptWrite]
@[simp] theorem State.acceptWrite_mode (s : State) (src : Source) (c : Cmd) : (s.acceptWrite src c).mode = s.mode := by simp [State.acceptWrite]
@[simp] theorem State.acceptWrite_search (s : State) (src : Source) (c : Cmd) : (s.acceptWrite src c).search = s.search := by simp [State.acceptWrite]
@[simp] theorem State.acceptWrite_scribes (s : State) (src : Source) (c : Cmd) : (s.acceptWrite src c).scribes = s.scribes := by simp [State.acceptWrite]
@[simp] theorem State.acceptWrite_counters (s : State) (src : Source) (c : Cmd) : (s.acceptWrite src c).counters = s.counters := by simp [State.acceptWrite]
@[simp] theorem State.acceptWrite_observe (s : State) (src : Source) (c : Cmd) : (s.acceptWrite src c).observe = s.observe := by simp [State.acceptWrite]
@[simp] theorem State.acceptWrite_ring (s : State) (src : Source) (c : Cmd) : (s.acceptWrite src c).ring = s.ring := by simp [State.acceptWrite]
@[simp] theorem State.acceptWrite_dramCtl (s : State) (src : Source) (c : Cmd) : (s.acceptWrite src c).dramCtl = s.dramCtl := by simp [State.acceptWrite]
@[simp] theorem State.acceptWrite_dram (s : State) (src : Source) (c : Cmd) : (s.acceptWrite src c).dram = s.dram := by simp [State.acceptWrite]
@[simp] theorem State.acceptWrite_diram (s : State) (src : Source) (c : Cmd) : (s.acceptWrite src c).diram = s.diram := by simp [State.acceptWrite]
@[simp] theorem State.acceptWrite_due (s : State) (src : Source) (c : Cmd) : (s.acceptWrite src c).due = s.due := by simp [State.acceptWrite]
@[simp] theorem State.acceptWrite_freeCounter (s : State) (src : Source) (c : Cmd) : (s.acceptWrite src c).freeCounter = s.freeCounter := by simp [State.acceptWrite]
@[simp] theorem State.acceptWrite_out (s : State) (src : Source) (c : Cmd) : (s.acceptWrite src c).out = s.out := by simp [State.acceptWrite]
@[simp] theorem State.acceptWrite_pending (s : State) (src : Source) (c : Cmd) : (s.acceptWrite src c).pending = s.pending := by simp [State.acceptWrite]

@[simp] theorem State.acceptBoundary_clock (s : State) (src : Source) (c : Cmd) (r : Nat) (p : Bytes) : (s.acceptBoundary src c r p).clock = s.clock := by simp [State.acceptBoundary]
@[simp] theorem State.acceptBoundary_regs (s : State) (src : Source) (c : Cmd) (r : Nat) (p : Bytes) : (s.acceptBoundary src c r p).regs = s.regs := by simp [State.acceptBoundary]
@[simp] theorem State.acceptBoundary_setBits (s : State) (src : Source) (c : Cmd) (r : Nat) (p : Bytes) : (s.acceptBoundary src c r p).setBits = s.setBits := by simp [State.acceptBoundary]
@[simp] theorem State.acceptBoundary_setAt (s : State) (src : Source) (c : Cmd) (r : Nat) (p : Bytes) : (s.acceptBoundary src c r p).setAt = s.setAt := by simp [State.acceptBoundary]
@[simp] theorem State.acceptBoundary_rc (s : State) (src : Source) (c : Cmd) (r : Nat) (p : Bytes) : (s.acceptBoundary src c r p).rc = s.rc := by simp [State.acceptBoundary]
@[simp] theorem State.acceptBoundary_start (s : State) (src : Source) (c : Cmd) (r : Nat) (p : Bytes) : (s.acceptBoundary src c r p).start = s.start := by simp [State.acceptBoundary]
@[simp] theorem State.acceptBoundary_scratch (s : State) (src : Source) (c : Cmd) (r : Nat) (p : Bytes) : (s.acceptBoundary src c r p).scratch = s.scratch := by simp [State.acceptBoundary]
@[simp] theorem State.acceptBoundary_memQueues (s : State) (src : Source) (c : Cmd) (r : Nat) (p : Bytes) : (s.acceptBoundary src c r p).memQueues = s.memQueues := by simp [State.acceptBoundary]
@[simp] theorem State.acceptBoundary_fuses (s : State) (src : Source) (c : Cmd) (r : Nat) (p : Bytes) : (s.acceptBoundary src c r p).fuses = s.fuses := by simp [State.acceptBoundary]
@[simp] theorem State.acceptBoundary_boot (s : State) (src : Source) (c : Cmd) (r : Nat) (p : Bytes) : (s.acceptBoundary src c r p).boot = s.boot := by simp [State.acceptBoundary]
@[simp] theorem State.acceptBoundary_power (s : State) (src : Source) (c : Cmd) (r : Nat) (p : Bytes) : (s.acceptBoundary src c r p).power = s.power := by simp [State.acceptBoundary]
@[simp] theorem State.acceptBoundary_faults (s : State) (src : Source) (c : Cmd) (r : Nat) (p : Bytes) : (s.acceptBoundary src c r p).faults = s.faults := by simp [State.acceptBoundary]
@[simp] theorem State.acceptBoundary_service (s : State) (src : Source) (c : Cmd) (r : Nat) (p : Bytes) : (s.acceptBoundary src c r p).service = s.service := by simp [State.acceptBoundary]
@[simp] theorem State.acceptBoundary_pins (s : State) (src : Source) (c : Cmd) (r : Nat) (p : Bytes) : (s.acceptBoundary src c r p).pins = s.pins := by simp [State.acceptBoundary]
@[simp] theorem State.acceptBoundary_berths (s : State) (src : Source) (c : Cmd) (r : Nat) (p : Bytes) : (s.acceptBoundary src c r p).berths = s.berths := by simp [State.acceptBoundary]
@[simp] theorem State.acceptBoundary_masters (s : State) (src : Source) (c : Cmd) (r : Nat) (p : Bytes) : (s.acceptBoundary src c r p).masters = s.masters := by simp [State.acceptBoundary]
@[simp] theorem State.acceptBoundary_security (s : State) (src : Source) (c : Cmd) (r : Nat) (p : Bytes) : (s.acceptBoundary src c r p).security = s.security := by simp [State.acceptBoundary]
@[simp] theorem State.acceptBoundary_tables (s : State) (src : Source) (c : Cmd) (r : Nat) (p : Bytes) : (s.acceptBoundary src c r p).tables = s.tables := by simp [State.acceptBoundary]
@[simp] theorem State.acceptBoundary_arrays (s : State) (src : Source) (c : Cmd) (r : Nat) (p : Bytes) : (s.acceptBoundary src c r p).arrays = s.arrays := by simp [State.acceptBoundary]
@[simp] theorem State.acceptBoundary_numbers (s : State) (src : Source) (c : Cmd) (r : Nat) (p : Bytes) : (s.acceptBoundary src c r p).numbers = s.numbers := by simp [State.acceptBoundary]
@[simp] theorem State.acceptBoundary_hot (s : State) (src : Source) (c : Cmd) (r : Nat) (p : Bytes) : (s.acceptBoundary src c r p).hot = s.hot := by simp [State.acceptBoundary]
@[simp] theorem State.acceptBoundary_scrub (s : State) (src : Source) (c : Cmd) (r : Nat) (p : Bytes) : (s.acceptBoundary src c r p).scrub = s.scrub := by simp [State.acceptBoundary]
@[simp] theorem State.acceptBoundary_learning (s : State) (src : Source) (c : Cmd) (r : Nat) (p : Bytes) : (s.acceptBoundary src c r p).learning = s.learning := by simp [State.acceptBoundary]
@[simp] theorem State.acceptBoundary_manifest (s : State) (src : Source) (c : Cmd) (r : Nat) (p : Bytes) : (s.acceptBoundary src c r p).manifest = s.manifest := by simp [State.acceptBoundary]
@[simp] theorem State.acceptBoundary_mode (s : State) (src : Source) (c : Cmd) (r : Nat) (p : Bytes) : (s.acceptBoundary src c r p).mode = s.mode := by simp [State.acceptBoundary]
@[simp] theorem State.acceptBoundary_search (s : State) (src : Source) (c : Cmd) (r : Nat) (p : Bytes) : (s.acceptBoundary src c r p).search = s.search := by simp [State.acceptBoundary]
@[simp] theorem State.acceptBoundary_scribes (s : State) (src : Source) (c : Cmd) (r : Nat) (p : Bytes) : (s.acceptBoundary src c r p).scribes = s.scribes := by simp [State.acceptBoundary]
@[simp] theorem State.acceptBoundary_counters (s : State) (src : Source) (c : Cmd) (r : Nat) (p : Bytes) : (s.acceptBoundary src c r p).counters = s.counters := by simp [State.acceptBoundary]
@[simp] theorem State.acceptBoundary_observe (s : State) (src : Source) (c : Cmd) (r : Nat) (p : Bytes) : (s.acceptBoundary src c r p).observe = s.observe := by simp [State.acceptBoundary]
@[simp] theorem State.acceptBoundary_ring (s : State) (src : Source) (c : Cmd) (r : Nat) (p : Bytes) : (s.acceptBoundary src c r p).ring = s.ring := by simp [State.acceptBoundary]
@[simp] theorem State.acceptBoundary_dramCtl (s : State) (src : Source) (c : Cmd) (r : Nat) (p : Bytes) : (s.acceptBoundary src c r p).dramCtl = s.dramCtl := by simp [State.acceptBoundary]
@[simp] theorem State.acceptBoundary_dram (s : State) (src : Source) (c : Cmd) (r : Nat) (p : Bytes) : (s.acceptBoundary src c r p).dram = s.dram := by simp [State.acceptBoundary]
@[simp] theorem State.acceptBoundary_diram (s : State) (src : Source) (c : Cmd) (r : Nat) (p : Bytes) : (s.acceptBoundary src c r p).diram = s.diram := by simp [State.acceptBoundary]
@[simp] theorem State.acceptBoundary_due (s : State) (src : Source) (c : Cmd) (r : Nat) (p : Bytes) : (s.acceptBoundary src c r p).due = s.due := by simp [State.acceptBoundary]
@[simp] theorem State.acceptBoundary_freeCounter (s : State) (src : Source) (c : Cmd) (r : Nat) (p : Bytes) : (s.acceptBoundary src c r p).freeCounter = s.freeCounter := by simp [State.acceptBoundary]
@[simp] theorem State.acceptBoundary_out (s : State) (src : Source) (c : Cmd) (r : Nat) (p : Bytes) : (s.acceptBoundary src c r p).out = s.out := by simp [State.acceptBoundary]
@[simp] theorem State.acceptBoundary_pending (s : State) (src : Source) (c : Cmd) (r : Nat) (p : Bytes) : (s.acceptBoundary src c r p).pending = s.pending := by simp [State.acceptBoundary]

@[simp] theorem State.refuse_clock (s : State) (src : Source) (c : Cmd) (r h : Nat) (p : Bytes) : (s.refuse src c r h p).clock = s.clock := by simp [State.refuse]
@[simp] theorem State.refuse_regs (s : State) (src : Source) (c : Cmd) (r h : Nat) (p : Bytes) : (s.refuse src c r h p).regs = s.regs := by simp [State.refuse]
@[simp] theorem State.refuse_setBits (s : State) (src : Source) (c : Cmd) (r h : Nat) (p : Bytes) : (s.refuse src c r h p).setBits = s.setBits := by simp [State.refuse]
@[simp] theorem State.refuse_setAt (s : State) (src : Source) (c : Cmd) (r h : Nat) (p : Bytes) : (s.refuse src c r h p).setAt = s.setAt := by simp [State.refuse]
@[simp] theorem State.refuse_rc (s : State) (src : Source) (c : Cmd) (r h : Nat) (p : Bytes) : (s.refuse src c r h p).rc = s.rc := by simp [State.refuse]
@[simp] theorem State.refuse_start (s : State) (src : Source) (c : Cmd) (r h : Nat) (p : Bytes) : (s.refuse src c r h p).start = s.start := by simp [State.refuse]
@[simp] theorem State.refuse_scratch (s : State) (src : Source) (c : Cmd) (r h : Nat) (p : Bytes) : (s.refuse src c r h p).scratch = s.scratch := by simp [State.refuse]
@[simp] theorem State.refuse_memQueues (s : State) (src : Source) (c : Cmd) (r h : Nat) (p : Bytes) : (s.refuse src c r h p).memQueues = s.memQueues := by simp [State.refuse]
@[simp] theorem State.refuse_fuses (s : State) (src : Source) (c : Cmd) (r h : Nat) (p : Bytes) : (s.refuse src c r h p).fuses = s.fuses := by simp [State.refuse]
@[simp] theorem State.refuse_boot (s : State) (src : Source) (c : Cmd) (r h : Nat) (p : Bytes) : (s.refuse src c r h p).boot = s.boot := by simp [State.refuse]
@[simp] theorem State.refuse_power (s : State) (src : Source) (c : Cmd) (r h : Nat) (p : Bytes) : (s.refuse src c r h p).power = s.power := by simp [State.refuse]
@[simp] theorem State.refuse_faults (s : State) (src : Source) (c : Cmd) (r h : Nat) (p : Bytes) : (s.refuse src c r h p).faults = s.faults := by simp [State.refuse]
@[simp] theorem State.refuse_service (s : State) (src : Source) (c : Cmd) (r h : Nat) (p : Bytes) : (s.refuse src c r h p).service = s.service := by simp [State.refuse]
@[simp] theorem State.refuse_pins (s : State) (src : Source) (c : Cmd) (r h : Nat) (p : Bytes) : (s.refuse src c r h p).pins = s.pins := by simp [State.refuse]
@[simp] theorem State.refuse_berths (s : State) (src : Source) (c : Cmd) (r h : Nat) (p : Bytes) : (s.refuse src c r h p).berths = s.berths := by simp [State.refuse]
@[simp] theorem State.refuse_masters (s : State) (src : Source) (c : Cmd) (r h : Nat) (p : Bytes) : (s.refuse src c r h p).masters = s.masters := by simp [State.refuse]
@[simp] theorem State.refuse_security (s : State) (src : Source) (c : Cmd) (r h : Nat) (p : Bytes) : (s.refuse src c r h p).security = s.security := by simp [State.refuse]
@[simp] theorem State.refuse_tables (s : State) (src : Source) (c : Cmd) (r h : Nat) (p : Bytes) : (s.refuse src c r h p).tables = s.tables := by simp [State.refuse]
@[simp] theorem State.refuse_arrays (s : State) (src : Source) (c : Cmd) (r h : Nat) (p : Bytes) : (s.refuse src c r h p).arrays = s.arrays := by simp [State.refuse]
@[simp] theorem State.refuse_numbers (s : State) (src : Source) (c : Cmd) (r h : Nat) (p : Bytes) : (s.refuse src c r h p).numbers = s.numbers := by simp [State.refuse]
@[simp] theorem State.refuse_hot (s : State) (src : Source) (c : Cmd) (r h : Nat) (p : Bytes) : (s.refuse src c r h p).hot = s.hot := by simp [State.refuse]
@[simp] theorem State.refuse_scrub (s : State) (src : Source) (c : Cmd) (r h : Nat) (p : Bytes) : (s.refuse src c r h p).scrub = s.scrub := by simp [State.refuse]
@[simp] theorem State.refuse_learning (s : State) (src : Source) (c : Cmd) (r h : Nat) (p : Bytes) : (s.refuse src c r h p).learning = s.learning := by simp [State.refuse]
@[simp] theorem State.refuse_manifest (s : State) (src : Source) (c : Cmd) (r h : Nat) (p : Bytes) : (s.refuse src c r h p).manifest = s.manifest := by simp [State.refuse]
@[simp] theorem State.refuse_mode (s : State) (src : Source) (c : Cmd) (r h : Nat) (p : Bytes) : (s.refuse src c r h p).mode = s.mode := by simp [State.refuse]
@[simp] theorem State.refuse_search (s : State) (src : Source) (c : Cmd) (r h : Nat) (p : Bytes) : (s.refuse src c r h p).search = s.search := by simp [State.refuse]
@[simp] theorem State.refuse_scribes (s : State) (src : Source) (c : Cmd) (r h : Nat) (p : Bytes) : (s.refuse src c r h p).scribes = s.scribes := by simp [State.refuse]
@[simp] theorem State.refuse_counters (s : State) (src : Source) (c : Cmd) (r h : Nat) (p : Bytes) : (s.refuse src c r h p).counters = s.counters := by simp [State.refuse]
@[simp] theorem State.refuse_observe (s : State) (src : Source) (c : Cmd) (r h : Nat) (p : Bytes) : (s.refuse src c r h p).observe = s.observe := by simp [State.refuse]
@[simp] theorem State.refuse_ring (s : State) (src : Source) (c : Cmd) (r h : Nat) (p : Bytes) : (s.refuse src c r h p).ring = s.ring := by simp [State.refuse]
@[simp] theorem State.refuse_dramCtl (s : State) (src : Source) (c : Cmd) (r h : Nat) (p : Bytes) : (s.refuse src c r h p).dramCtl = s.dramCtl := by simp [State.refuse]
@[simp] theorem State.refuse_dram (s : State) (src : Source) (c : Cmd) (r h : Nat) (p : Bytes) : (s.refuse src c r h p).dram = s.dram := by simp [State.refuse]
@[simp] theorem State.refuse_diram (s : State) (src : Source) (c : Cmd) (r h : Nat) (p : Bytes) : (s.refuse src c r h p).diram = s.diram := by simp [State.refuse]
@[simp] theorem State.refuse_due (s : State) (src : Source) (c : Cmd) (r h : Nat) (p : Bytes) : (s.refuse src c r h p).due = s.due := by simp [State.refuse]
@[simp] theorem State.refuse_freeCounter (s : State) (src : Source) (c : Cmd) (r h : Nat) (p : Bytes) : (s.refuse src c r h p).freeCounter = s.freeCounter := by simp [State.refuse]
@[simp] theorem State.refuse_out (s : State) (src : Source) (c : Cmd) (r h : Nat) (p : Bytes) : (s.refuse src c r h p).out = s.out := by simp [State.refuse]
@[simp] theorem State.refuse_pending (s : State) (src : Source) (c : Cmd) (r h : Nat) (p : Bytes) : (s.refuse src c r h p).pending = s.pending := by simp [State.refuse]

@[simp] theorem State.securityRecord_clock (s : State) (event cause master info thaw : Nat) : (s.securityRecord event cause master info thaw).clock = s.clock := by simp [State.securityRecord]
@[simp] theorem State.securityRecord_start (s : State) (event cause master info thaw : Nat) : (s.securityRecord event cause master info thaw).start = s.start := by simp [State.securityRecord]
@[simp] theorem State.securityRecord_scratch (s : State) (event cause master info thaw : Nat) : (s.securityRecord event cause master info thaw).scratch = s.scratch := by simp [State.securityRecord]
@[simp] theorem State.securityRecord_memQueues (s : State) (event cause master info thaw : Nat) : (s.securityRecord event cause master info thaw).memQueues = s.memQueues := by simp [State.securityRecord]
@[simp] theorem State.securityRecord_fuses (s : State) (event cause master info thaw : Nat) : (s.securityRecord event cause master info thaw).fuses = s.fuses := by simp [State.securityRecord]
@[simp] theorem State.securityRecord_boot (s : State) (event cause master info thaw : Nat) : (s.securityRecord event cause master info thaw).boot = s.boot := by simp [State.securityRecord]
@[simp] theorem State.securityRecord_power (s : State) (event cause master info thaw : Nat) : (s.securityRecord event cause master info thaw).power = s.power := by simp [State.securityRecord]
@[simp] theorem State.securityRecord_service (s : State) (event cause master info thaw : Nat) : (s.securityRecord event cause master info thaw).service = s.service := by simp [State.securityRecord]
@[simp] theorem State.securityRecord_pins (s : State) (event cause master info thaw : Nat) : (s.securityRecord event cause master info thaw).pins = s.pins := by simp [State.securityRecord]
@[simp] theorem State.securityRecord_berths (s : State) (event cause master info thaw : Nat) : (s.securityRecord event cause master info thaw).berths = s.berths := by simp [State.securityRecord]
@[simp] theorem State.securityRecord_masters (s : State) (event cause master info thaw : Nat) : (s.securityRecord event cause master info thaw).masters = s.masters := by simp [State.securityRecord]
@[simp] theorem State.securityRecord_security (s : State) (event cause master info thaw : Nat) : (s.securityRecord event cause master info thaw).security = s.security := by simp [State.securityRecord]
@[simp] theorem State.securityRecord_tables (s : State) (event cause master info thaw : Nat) : (s.securityRecord event cause master info thaw).tables = s.tables := by simp [State.securityRecord]
@[simp] theorem State.securityRecord_arrays (s : State) (event cause master info thaw : Nat) : (s.securityRecord event cause master info thaw).arrays = s.arrays := by simp [State.securityRecord]
@[simp] theorem State.securityRecord_numbers (s : State) (event cause master info thaw : Nat) : (s.securityRecord event cause master info thaw).numbers = s.numbers := by simp [State.securityRecord]
@[simp] theorem State.securityRecord_cmds (s : State) (event cause master info thaw : Nat) : (s.securityRecord event cause master info thaw).cmds = s.cmds := by simp [State.securityRecord]
@[simp] theorem State.securityRecord_hot (s : State) (event cause master info thaw : Nat) : (s.securityRecord event cause master info thaw).hot = s.hot := by simp [State.securityRecord]
@[simp] theorem State.securityRecord_scrub (s : State) (event cause master info thaw : Nat) : (s.securityRecord event cause master info thaw).scrub = s.scrub := by simp [State.securityRecord]
@[simp] theorem State.securityRecord_learning (s : State) (event cause master info thaw : Nat) : (s.securityRecord event cause master info thaw).learning = s.learning := by simp [State.securityRecord]
@[simp] theorem State.securityRecord_manifest (s : State) (event cause master info thaw : Nat) : (s.securityRecord event cause master info thaw).manifest = s.manifest := by simp [State.securityRecord]
@[simp] theorem State.securityRecord_mode (s : State) (event cause master info thaw : Nat) : (s.securityRecord event cause master info thaw).mode = s.mode := by simp [State.securityRecord]
@[simp] theorem State.securityRecord_search (s : State) (event cause master info thaw : Nat) : (s.securityRecord event cause master info thaw).search = s.search := by simp [State.securityRecord]
@[simp] theorem State.securityRecord_scribes (s : State) (event cause master info thaw : Nat) : (s.securityRecord event cause master info thaw).scribes = s.scribes := by simp [State.securityRecord]
@[simp] theorem State.securityRecord_counters (s : State) (event cause master info thaw : Nat) : (s.securityRecord event cause master info thaw).counters = s.counters := by simp [State.securityRecord]
@[simp] theorem State.securityRecord_observe (s : State) (event cause master info thaw : Nat) : (s.securityRecord event cause master info thaw).observe = s.observe := by simp [State.securityRecord]
@[simp] theorem State.securityRecord_links (s : State) (event cause master info thaw : Nat) : (s.securityRecord event cause master info thaw).links = s.links := by simp [State.securityRecord]
@[simp] theorem State.securityRecord_ring (s : State) (event cause master info thaw : Nat) : (s.securityRecord event cause master info thaw).ring = s.ring := by simp [State.securityRecord]
@[simp] theorem State.securityRecord_host (s : State) (event cause master info thaw : Nat) : (s.securityRecord event cause master info thaw).host = s.host := by simp [State.securityRecord]
@[simp] theorem State.securityRecord_dramCtl (s : State) (event cause master info thaw : Nat) : (s.securityRecord event cause master info thaw).dramCtl = s.dramCtl := by simp [State.securityRecord]
@[simp] theorem State.securityRecord_dram (s : State) (event cause master info thaw : Nat) : (s.securityRecord event cause master info thaw).dram = s.dram := by simp [State.securityRecord]
@[simp] theorem State.securityRecord_diram (s : State) (event cause master info thaw : Nat) : (s.securityRecord event cause master info thaw).diram = s.diram := by simp [State.securityRecord]
@[simp] theorem State.securityRecord_due (s : State) (event cause master info thaw : Nat) : (s.securityRecord event cause master info thaw).due = s.due := by simp [State.securityRecord]
@[simp] theorem State.securityRecord_pending (s : State) (event cause master info thaw : Nat) : (s.securityRecord event cause master info thaw).pending = s.pending := by simp [State.securityRecord]

@[simp] theorem State.newFreeze_clock (s : State) (m cause info st : Nat) : (s.newFreeze m cause info st).clock = s.clock := by simp [State.newFreeze]
@[simp] theorem State.newFreeze_start (s : State) (m cause info st : Nat) : (s.newFreeze m cause info st).start = s.start := by simp [State.newFreeze]
@[simp] theorem State.newFreeze_scratch (s : State) (m cause info st : Nat) : (s.newFreeze m cause info st).scratch = s.scratch := by simp [State.newFreeze]
@[simp] theorem State.newFreeze_memQueues (s : State) (m cause info st : Nat) : (s.newFreeze m cause info st).memQueues = s.memQueues := by simp [State.newFreeze]
@[simp] theorem State.newFreeze_fuses (s : State) (m cause info st : Nat) : (s.newFreeze m cause info st).fuses = s.fuses := by simp [State.newFreeze]
@[simp] theorem State.newFreeze_boot (s : State) (m cause info st : Nat) : (s.newFreeze m cause info st).boot = s.boot := by simp [State.newFreeze]
@[simp] theorem State.newFreeze_power (s : State) (m cause info st : Nat) : (s.newFreeze m cause info st).power = s.power := by simp [State.newFreeze]
@[simp] theorem State.newFreeze_service (s : State) (m cause info st : Nat) : (s.newFreeze m cause info st).service = s.service := by simp [State.newFreeze]
@[simp] theorem State.newFreeze_pins (s : State) (m cause info st : Nat) : (s.newFreeze m cause info st).pins = s.pins := by simp [State.newFreeze]
@[simp] theorem State.newFreeze_berths (s : State) (m cause info st : Nat) : (s.newFreeze m cause info st).berths = s.berths := by simp [State.newFreeze]
@[simp] theorem State.newFreeze_security (s : State) (m cause info st : Nat) : (s.newFreeze m cause info st).security = s.security := by simp [State.newFreeze]
@[simp] theorem State.newFreeze_tables (s : State) (m cause info st : Nat) : (s.newFreeze m cause info st).tables = s.tables := by simp [State.newFreeze]
@[simp] theorem State.newFreeze_arrays (s : State) (m cause info st : Nat) : (s.newFreeze m cause info st).arrays = s.arrays := by simp [State.newFreeze]
@[simp] theorem State.newFreeze_numbers (s : State) (m cause info st : Nat) : (s.newFreeze m cause info st).numbers = s.numbers := by simp [State.newFreeze]
@[simp] theorem State.newFreeze_cmds (s : State) (m cause info st : Nat) : (s.newFreeze m cause info st).cmds = s.cmds := by simp [State.newFreeze]
@[simp] theorem State.newFreeze_hot (s : State) (m cause info st : Nat) : (s.newFreeze m cause info st).hot = s.hot := by simp [State.newFreeze]
@[simp] theorem State.newFreeze_scrub (s : State) (m cause info st : Nat) : (s.newFreeze m cause info st).scrub = s.scrub := by simp [State.newFreeze]
@[simp] theorem State.newFreeze_learning (s : State) (m cause info st : Nat) : (s.newFreeze m cause info st).learning = s.learning := by simp [State.newFreeze]
@[simp] theorem State.newFreeze_manifest (s : State) (m cause info st : Nat) : (s.newFreeze m cause info st).manifest = s.manifest := by simp [State.newFreeze]
@[simp] theorem State.newFreeze_mode (s : State) (m cause info st : Nat) : (s.newFreeze m cause info st).mode = s.mode := by simp [State.newFreeze]
@[simp] theorem State.newFreeze_search (s : State) (m cause info st : Nat) : (s.newFreeze m cause info st).search = s.search := by simp [State.newFreeze]
@[simp] theorem State.newFreeze_scribes (s : State) (m cause info st : Nat) : (s.newFreeze m cause info st).scribes = s.scribes := by simp [State.newFreeze]
@[simp] theorem State.newFreeze_counters (s : State) (m cause info st : Nat) : (s.newFreeze m cause info st).counters = s.counters := by simp [State.newFreeze]
@[simp] theorem State.newFreeze_observe (s : State) (m cause info st : Nat) : (s.newFreeze m cause info st).observe = s.observe := by simp [State.newFreeze]
@[simp] theorem State.newFreeze_links (s : State) (m cause info st : Nat) : (s.newFreeze m cause info st).links = s.links := by simp [State.newFreeze]
@[simp] theorem State.newFreeze_ring (s : State) (m cause info st : Nat) : (s.newFreeze m cause info st).ring = s.ring := by simp [State.newFreeze]
@[simp] theorem State.newFreeze_host (s : State) (m cause info st : Nat) : (s.newFreeze m cause info st).host = s.host := by simp [State.newFreeze]
@[simp] theorem State.newFreeze_dramCtl (s : State) (m cause info st : Nat) : (s.newFreeze m cause info st).dramCtl = s.dramCtl := by simp [State.newFreeze]
@[simp] theorem State.newFreeze_dram (s : State) (m cause info st : Nat) : (s.newFreeze m cause info st).dram = s.dram := by simp [State.newFreeze]
@[simp] theorem State.newFreeze_diram (s : State) (m cause info st : Nat) : (s.newFreeze m cause info st).diram = s.diram := by simp [State.newFreeze]
@[simp] theorem State.newFreeze_due (s : State) (m cause info st : Nat) : (s.newFreeze m cause info st).due = s.due := by simp [State.newFreeze]
@[simp] theorem State.newFreeze_pending (s : State) (m cause info st : Nat) : (s.newFreeze m cause info st).pending = s.pending := by simp [State.newFreeze]

@[simp] theorem State.violation_clock (s : State) (m cause info : Nat) : (s.violation m cause info).clock = s.clock := by
  simp only [State.violation]; repeat' split
  all_goals simp
@[simp] theorem State.violation_start (s : State) (m cause info : Nat) : (s.violation m cause info).start = s.start := by
  simp only [State.violation]; repeat' split
  all_goals simp
@[simp] theorem State.violation_scratch (s : State) (m cause info : Nat) : (s.violation m cause info).scratch = s.scratch := by
  simp only [State.violation]; repeat' split
  all_goals simp
@[simp] theorem State.violation_memQueues (s : State) (m cause info : Nat) : (s.violation m cause info).memQueues = s.memQueues := by
  simp only [State.violation]; repeat' split
  all_goals simp
@[simp] theorem State.violation_fuses (s : State) (m cause info : Nat) : (s.violation m cause info).fuses = s.fuses := by
  simp only [State.violation]; repeat' split
  all_goals simp
@[simp] theorem State.violation_boot (s : State) (m cause info : Nat) : (s.violation m cause info).boot = s.boot := by
  simp only [State.violation]; repeat' split
  all_goals simp
@[simp] theorem State.violation_power (s : State) (m cause info : Nat) : (s.violation m cause info).power = s.power := by
  simp only [State.violation]; repeat' split
  all_goals simp
@[simp] theorem State.violation_service (s : State) (m cause info : Nat) : (s.violation m cause info).service = s.service := by
  simp only [State.violation]; repeat' split
  all_goals simp
@[simp] theorem State.violation_pins (s : State) (m cause info : Nat) : (s.violation m cause info).pins = s.pins := by
  simp only [State.violation]; repeat' split
  all_goals simp
@[simp] theorem State.violation_berths (s : State) (m cause info : Nat) : (s.violation m cause info).berths = s.berths := by
  simp only [State.violation]; repeat' split
  all_goals simp
@[simp] theorem State.violation_security (s : State) (m cause info : Nat) : (s.violation m cause info).security = s.security := by
  simp only [State.violation]; repeat' split
  all_goals simp
@[simp] theorem State.violation_tables (s : State) (m cause info : Nat) : (s.violation m cause info).tables = s.tables := by
  simp only [State.violation]; repeat' split
  all_goals simp
@[simp] theorem State.violation_arrays (s : State) (m cause info : Nat) : (s.violation m cause info).arrays = s.arrays := by
  simp only [State.violation]; repeat' split
  all_goals simp
@[simp] theorem State.violation_numbers (s : State) (m cause info : Nat) : (s.violation m cause info).numbers = s.numbers := by
  simp only [State.violation]; repeat' split
  all_goals simp
@[simp] theorem State.violation_cmds (s : State) (m cause info : Nat) : (s.violation m cause info).cmds = s.cmds := by
  simp only [State.violation]; repeat' split
  all_goals simp
@[simp] theorem State.violation_hot (s : State) (m cause info : Nat) : (s.violation m cause info).hot = s.hot := by
  simp only [State.violation]; repeat' split
  all_goals simp
@[simp] theorem State.violation_scrub (s : State) (m cause info : Nat) : (s.violation m cause info).scrub = s.scrub := by
  simp only [State.violation]; repeat' split
  all_goals simp
@[simp] theorem State.violation_learning (s : State) (m cause info : Nat) : (s.violation m cause info).learning = s.learning := by
  simp only [State.violation]; repeat' split
  all_goals simp
@[simp] theorem State.violation_manifest (s : State) (m cause info : Nat) : (s.violation m cause info).manifest = s.manifest := by
  simp only [State.violation]; repeat' split
  all_goals simp
@[simp] theorem State.violation_mode (s : State) (m cause info : Nat) : (s.violation m cause info).mode = s.mode := by
  simp only [State.violation]; repeat' split
  all_goals simp
@[simp] theorem State.violation_search (s : State) (m cause info : Nat) : (s.violation m cause info).search = s.search := by
  simp only [State.violation]; repeat' split
  all_goals simp
@[simp] theorem State.violation_scribes (s : State) (m cause info : Nat) : (s.violation m cause info).scribes = s.scribes := by
  simp only [State.violation]; repeat' split
  all_goals simp
@[simp] theorem State.violation_counters (s : State) (m cause info : Nat) : (s.violation m cause info).counters = s.counters := by
  simp only [State.violation]; repeat' split
  all_goals simp
@[simp] theorem State.violation_observe (s : State) (m cause info : Nat) : (s.violation m cause info).observe = s.observe := by
  simp only [State.violation]; repeat' split
  all_goals simp
@[simp] theorem State.violation_links (s : State) (m cause info : Nat) : (s.violation m cause info).links = s.links := by
  simp only [State.violation]; repeat' split
  all_goals simp
@[simp] theorem State.violation_ring (s : State) (m cause info : Nat) : (s.violation m cause info).ring = s.ring := by
  simp only [State.violation]; repeat' split
  all_goals simp
@[simp] theorem State.violation_host (s : State) (m cause info : Nat) : (s.violation m cause info).host = s.host := by
  simp only [State.violation]; repeat' split
  all_goals simp
@[simp] theorem State.violation_dramCtl (s : State) (m cause info : Nat) : (s.violation m cause info).dramCtl = s.dramCtl := by
  simp only [State.violation]; repeat' split
  all_goals simp
@[simp] theorem State.violation_dram (s : State) (m cause info : Nat) : (s.violation m cause info).dram = s.dram := by
  simp only [State.violation]; repeat' split
  all_goals simp
@[simp] theorem State.violation_diram (s : State) (m cause info : Nat) : (s.violation m cause info).diram = s.diram := by
  simp only [State.violation]; repeat' split
  all_goals simp
@[simp] theorem State.violation_due (s : State) (m cause info : Nat) : (s.violation m cause info).due = s.due := by
  simp only [State.violation]; repeat' split
  all_goals simp
@[simp] theorem State.violation_pending (s : State) (m cause info : Nat) : (s.violation m cause info).pending = s.pending := by
  simp only [State.violation]; repeat' split
  all_goals simp

@[simp] theorem State.thawRequest_clock (s : State) (m info : Nat) : (s.thawRequest m info).clock = s.clock := by
  simp only [State.thawRequest]; repeat' split
  all_goals simp
@[simp] theorem State.thawRequest_regs (s : State) (m info : Nat) : (s.thawRequest m info).regs = s.regs := by
  simp only [State.thawRequest]; repeat' split
  all_goals simp
@[simp] theorem State.thawRequest_setBits (s : State) (m info : Nat) : (s.thawRequest m info).setBits = s.setBits := by
  simp only [State.thawRequest]; repeat' split
  all_goals simp
@[simp] theorem State.thawRequest_setAt (s : State) (m info : Nat) : (s.thawRequest m info).setAt = s.setAt := by
  simp only [State.thawRequest]; repeat' split
  all_goals simp
@[simp] theorem State.thawRequest_rc (s : State) (m info : Nat) : (s.thawRequest m info).rc = s.rc := by
  simp only [State.thawRequest]; repeat' split
  all_goals simp
@[simp] theorem State.thawRequest_start (s : State) (m info : Nat) : (s.thawRequest m info).start = s.start := by
  simp only [State.thawRequest]; repeat' split
  all_goals simp
@[simp] theorem State.thawRequest_scratch (s : State) (m info : Nat) : (s.thawRequest m info).scratch = s.scratch := by
  simp only [State.thawRequest]; repeat' split
  all_goals simp
@[simp] theorem State.thawRequest_memQueues (s : State) (m info : Nat) : (s.thawRequest m info).memQueues = s.memQueues := by
  simp only [State.thawRequest]; repeat' split
  all_goals simp
@[simp] theorem State.thawRequest_fuses (s : State) (m info : Nat) : (s.thawRequest m info).fuses = s.fuses := by
  simp only [State.thawRequest]; repeat' split
  all_goals simp
@[simp] theorem State.thawRequest_boot (s : State) (m info : Nat) : (s.thawRequest m info).boot = s.boot := by
  simp only [State.thawRequest]; repeat' split
  all_goals simp
@[simp] theorem State.thawRequest_power (s : State) (m info : Nat) : (s.thawRequest m info).power = s.power := by
  simp only [State.thawRequest]; repeat' split
  all_goals simp
@[simp] theorem State.thawRequest_faults (s : State) (m info : Nat) : (s.thawRequest m info).faults = s.faults := by
  simp only [State.thawRequest]; repeat' split
  all_goals simp
@[simp] theorem State.thawRequest_service (s : State) (m info : Nat) : (s.thawRequest m info).service = s.service := by
  simp only [State.thawRequest]; repeat' split
  all_goals simp
@[simp] theorem State.thawRequest_pins (s : State) (m info : Nat) : (s.thawRequest m info).pins = s.pins := by
  simp only [State.thawRequest]; repeat' split
  all_goals simp
@[simp] theorem State.thawRequest_berths (s : State) (m info : Nat) : (s.thawRequest m info).berths = s.berths := by
  simp only [State.thawRequest]; repeat' split
  all_goals simp
@[simp] theorem State.thawRequest_security (s : State) (m info : Nat) : (s.thawRequest m info).security = s.security := by
  simp only [State.thawRequest]; repeat' split
  all_goals simp
@[simp] theorem State.thawRequest_tables (s : State) (m info : Nat) : (s.thawRequest m info).tables = s.tables := by
  simp only [State.thawRequest]; repeat' split
  all_goals simp
@[simp] theorem State.thawRequest_arrays (s : State) (m info : Nat) : (s.thawRequest m info).arrays = s.arrays := by
  simp only [State.thawRequest]; repeat' split
  all_goals simp
@[simp] theorem State.thawRequest_numbers (s : State) (m info : Nat) : (s.thawRequest m info).numbers = s.numbers := by
  simp only [State.thawRequest]; repeat' split
  all_goals simp
@[simp] theorem State.thawRequest_cmds (s : State) (m info : Nat) : (s.thawRequest m info).cmds = s.cmds := by
  simp only [State.thawRequest]; repeat' split
  all_goals simp
@[simp] theorem State.thawRequest_hot (s : State) (m info : Nat) : (s.thawRequest m info).hot = s.hot := by
  simp only [State.thawRequest]; repeat' split
  all_goals simp
@[simp] theorem State.thawRequest_scrub (s : State) (m info : Nat) : (s.thawRequest m info).scrub = s.scrub := by
  simp only [State.thawRequest]; repeat' split
  all_goals simp
@[simp] theorem State.thawRequest_learning (s : State) (m info : Nat) : (s.thawRequest m info).learning = s.learning := by
  simp only [State.thawRequest]; repeat' split
  all_goals simp
@[simp] theorem State.thawRequest_manifest (s : State) (m info : Nat) : (s.thawRequest m info).manifest = s.manifest := by
  simp only [State.thawRequest]; repeat' split
  all_goals simp
@[simp] theorem State.thawRequest_mode (s : State) (m info : Nat) : (s.thawRequest m info).mode = s.mode := by
  simp only [State.thawRequest]; repeat' split
  all_goals simp
@[simp] theorem State.thawRequest_search (s : State) (m info : Nat) : (s.thawRequest m info).search = s.search := by
  simp only [State.thawRequest]; repeat' split
  all_goals simp
@[simp] theorem State.thawRequest_scribes (s : State) (m info : Nat) : (s.thawRequest m info).scribes = s.scribes := by
  simp only [State.thawRequest]; repeat' split
  all_goals simp
@[simp] theorem State.thawRequest_counters (s : State) (m info : Nat) : (s.thawRequest m info).counters = s.counters := by
  simp only [State.thawRequest]; repeat' split
  all_goals simp
@[simp] theorem State.thawRequest_observe (s : State) (m info : Nat) : (s.thawRequest m info).observe = s.observe := by
  simp only [State.thawRequest]; repeat' split
  all_goals simp
@[simp] theorem State.thawRequest_links (s : State) (m info : Nat) : (s.thawRequest m info).links = s.links := by
  simp only [State.thawRequest]; repeat' split
  all_goals simp
@[simp] theorem State.thawRequest_ring (s : State) (m info : Nat) : (s.thawRequest m info).ring = s.ring := by
  simp only [State.thawRequest]; repeat' split
  all_goals simp
@[simp] theorem State.thawRequest_host (s : State) (m info : Nat) : (s.thawRequest m info).host = s.host := by
  simp only [State.thawRequest]; repeat' split
  all_goals simp
@[simp] theorem State.thawRequest_dramCtl (s : State) (m info : Nat) : (s.thawRequest m info).dramCtl = s.dramCtl := by
  simp only [State.thawRequest]; repeat' split
  all_goals simp
@[simp] theorem State.thawRequest_dram (s : State) (m info : Nat) : (s.thawRequest m info).dram = s.dram := by
  simp only [State.thawRequest]; repeat' split
  all_goals simp
@[simp] theorem State.thawRequest_diram (s : State) (m info : Nat) : (s.thawRequest m info).diram = s.diram := by
  simp only [State.thawRequest]; repeat' split
  all_goals simp
@[simp] theorem State.thawRequest_due (s : State) (m info : Nat) : (s.thawRequest m info).due = s.due := by
  simp only [State.thawRequest]; repeat' split
  all_goals simp
@[simp] theorem State.thawRequest_freeCounter (s : State) (m info : Nat) : (s.thawRequest m info).freeCounter = s.freeCounter := by
  simp only [State.thawRequest]; repeat' split
  all_goals simp
@[simp] theorem State.thawRequest_out (s : State) (m info : Nat) : (s.thawRequest m info).out = s.out := by
  simp only [State.thawRequest]; repeat' split
  all_goals simp
@[simp] theorem State.thawRequest_pending (s : State) (m info : Nat) : (s.thawRequest m info).pending = s.pending := by
  simp only [State.thawRequest]; repeat' split
  all_goals simp

@[simp] theorem State.logAccess_clock (s : State) (fn off reason : Nat) : (s.logAccess fn off reason).clock = s.clock := by
  simp only [State.logAccess]; repeat' split
  all_goals simp
@[simp] theorem State.logAccess_setBits (s : State) (fn off reason : Nat) : (s.logAccess fn off reason).setBits = s.setBits := by
  simp only [State.logAccess]; repeat' split
  all_goals simp
@[simp] theorem State.logAccess_setAt (s : State) (fn off reason : Nat) : (s.logAccess fn off reason).setAt = s.setAt := by
  simp only [State.logAccess]; repeat' split
  all_goals simp
@[simp] theorem State.logAccess_start (s : State) (fn off reason : Nat) : (s.logAccess fn off reason).start = s.start := by
  simp only [State.logAccess]; repeat' split
  all_goals simp
@[simp] theorem State.logAccess_scratch (s : State) (fn off reason : Nat) : (s.logAccess fn off reason).scratch = s.scratch := by
  simp only [State.logAccess]; repeat' split
  all_goals simp
@[simp] theorem State.logAccess_memQueues (s : State) (fn off reason : Nat) : (s.logAccess fn off reason).memQueues = s.memQueues := by
  simp only [State.logAccess]; repeat' split
  all_goals simp
@[simp] theorem State.logAccess_fuses (s : State) (fn off reason : Nat) : (s.logAccess fn off reason).fuses = s.fuses := by
  simp only [State.logAccess]; repeat' split
  all_goals simp
@[simp] theorem State.logAccess_boot (s : State) (fn off reason : Nat) : (s.logAccess fn off reason).boot = s.boot := by
  simp only [State.logAccess]; repeat' split
  all_goals simp
@[simp] theorem State.logAccess_power (s : State) (fn off reason : Nat) : (s.logAccess fn off reason).power = s.power := by
  simp only [State.logAccess]; repeat' split
  all_goals simp
@[simp] theorem State.logAccess_faults (s : State) (fn off reason : Nat) : (s.logAccess fn off reason).faults = s.faults := by
  simp only [State.logAccess]; repeat' split
  all_goals simp
@[simp] theorem State.logAccess_service (s : State) (fn off reason : Nat) : (s.logAccess fn off reason).service = s.service := by
  simp only [State.logAccess]; repeat' split
  all_goals simp
@[simp] theorem State.logAccess_pins (s : State) (fn off reason : Nat) : (s.logAccess fn off reason).pins = s.pins := by
  simp only [State.logAccess]; repeat' split
  all_goals simp
@[simp] theorem State.logAccess_berths (s : State) (fn off reason : Nat) : (s.logAccess fn off reason).berths = s.berths := by
  simp only [State.logAccess]; repeat' split
  all_goals simp
@[simp] theorem State.logAccess_masters (s : State) (fn off reason : Nat) : (s.logAccess fn off reason).masters = s.masters := by
  simp only [State.logAccess]; repeat' split
  all_goals simp
@[simp] theorem State.logAccess_security (s : State) (fn off reason : Nat) : (s.logAccess fn off reason).security = s.security := by
  simp only [State.logAccess]; repeat' split
  all_goals simp
@[simp] theorem State.logAccess_tables (s : State) (fn off reason : Nat) : (s.logAccess fn off reason).tables = s.tables := by
  simp only [State.logAccess]; repeat' split
  all_goals simp
@[simp] theorem State.logAccess_arrays (s : State) (fn off reason : Nat) : (s.logAccess fn off reason).arrays = s.arrays := by
  simp only [State.logAccess]; repeat' split
  all_goals simp
@[simp] theorem State.logAccess_numbers (s : State) (fn off reason : Nat) : (s.logAccess fn off reason).numbers = s.numbers := by
  simp only [State.logAccess]; repeat' split
  all_goals simp
@[simp] theorem State.logAccess_cmds (s : State) (fn off reason : Nat) : (s.logAccess fn off reason).cmds = s.cmds := by
  simp only [State.logAccess]; repeat' split
  all_goals simp
@[simp] theorem State.logAccess_hot (s : State) (fn off reason : Nat) : (s.logAccess fn off reason).hot = s.hot := by
  simp only [State.logAccess]; repeat' split
  all_goals simp
@[simp] theorem State.logAccess_scrub (s : State) (fn off reason : Nat) : (s.logAccess fn off reason).scrub = s.scrub := by
  simp only [State.logAccess]; repeat' split
  all_goals simp
@[simp] theorem State.logAccess_learning (s : State) (fn off reason : Nat) : (s.logAccess fn off reason).learning = s.learning := by
  simp only [State.logAccess]; repeat' split
  all_goals simp
@[simp] theorem State.logAccess_manifest (s : State) (fn off reason : Nat) : (s.logAccess fn off reason).manifest = s.manifest := by
  simp only [State.logAccess]; repeat' split
  all_goals simp
@[simp] theorem State.logAccess_mode (s : State) (fn off reason : Nat) : (s.logAccess fn off reason).mode = s.mode := by
  simp only [State.logAccess]; repeat' split
  all_goals simp
@[simp] theorem State.logAccess_search (s : State) (fn off reason : Nat) : (s.logAccess fn off reason).search = s.search := by
  simp only [State.logAccess]; repeat' split
  all_goals simp
@[simp] theorem State.logAccess_scribes (s : State) (fn off reason : Nat) : (s.logAccess fn off reason).scribes = s.scribes := by
  simp only [State.logAccess]; repeat' split
  all_goals simp
@[simp] theorem State.logAccess_counters (s : State) (fn off reason : Nat) : (s.logAccess fn off reason).counters = s.counters := by
  simp only [State.logAccess]; repeat' split
  all_goals simp
@[simp] theorem State.logAccess_observe (s : State) (fn off reason : Nat) : (s.logAccess fn off reason).observe = s.observe := by
  simp only [State.logAccess]; repeat' split
  all_goals simp
@[simp] theorem State.logAccess_links (s : State) (fn off reason : Nat) : (s.logAccess fn off reason).links = s.links := by
  simp only [State.logAccess]; repeat' split
  all_goals simp
@[simp] theorem State.logAccess_ring (s : State) (fn off reason : Nat) : (s.logAccess fn off reason).ring = s.ring := by
  simp only [State.logAccess]; repeat' split
  all_goals simp
@[simp] theorem State.logAccess_dramCtl (s : State) (fn off reason : Nat) : (s.logAccess fn off reason).dramCtl = s.dramCtl := by
  simp only [State.logAccess]; repeat' split
  all_goals simp
@[simp] theorem State.logAccess_dram (s : State) (fn off reason : Nat) : (s.logAccess fn off reason).dram = s.dram := by
  simp only [State.logAccess]; repeat' split
  all_goals simp
@[simp] theorem State.logAccess_diram (s : State) (fn off reason : Nat) : (s.logAccess fn off reason).diram = s.diram := by
  simp only [State.logAccess]; repeat' split
  all_goals simp
@[simp] theorem State.logAccess_due (s : State) (fn off reason : Nat) : (s.logAccess fn off reason).due = s.due := by
  simp only [State.logAccess]; repeat' split
  all_goals simp
@[simp] theorem State.logAccess_freeCounter (s : State) (fn off reason : Nat) : (s.logAccess fn off reason).freeCounter = s.freeCounter := by
  simp only [State.logAccess]; repeat' split
  all_goals simp
@[simp] theorem State.logAccess_out (s : State) (fn off reason : Nat) : (s.logAccess fn off reason).out = s.out := by
  simp only [State.logAccess]; repeat' split
  all_goals simp
@[simp] theorem State.logAccess_pending (s : State) (fn off reason : Nat) : (s.logAccess fn off reason).pending = s.pending := by
  simp only [State.logAccess]; repeat' split
  all_goals simp

@[simp] theorem State.holdWrite_clock (s : State) (fn : Nat) (r : Reg) (w mask : Nat) : (s.holdWrite fn r w mask).clock = s.clock := by cases s; rfl
@[simp] theorem State.holdWrite_regs (s : State) (fn : Nat) (r : Reg) (w mask : Nat) : (s.holdWrite fn r w mask).regs = s.regs := by cases s; rfl
@[simp] theorem State.holdWrite_setBits (s : State) (fn : Nat) (r : Reg) (w mask : Nat) : (s.holdWrite fn r w mask).setBits = s.setBits := by cases s; rfl
@[simp] theorem State.holdWrite_setAt (s : State) (fn : Nat) (r : Reg) (w mask : Nat) : (s.holdWrite fn r w mask).setAt = s.setAt := by cases s; rfl
@[simp] theorem State.holdWrite_rc (s : State) (fn : Nat) (r : Reg) (w mask : Nat) : (s.holdWrite fn r w mask).rc = s.rc := by cases s; rfl
@[simp] theorem State.holdWrite_start (s : State) (fn : Nat) (r : Reg) (w mask : Nat) : (s.holdWrite fn r w mask).start = s.start := by cases s; rfl
@[simp] theorem State.holdWrite_scratch (s : State) (fn : Nat) (r : Reg) (w mask : Nat) : (s.holdWrite fn r w mask).scratch = s.scratch := by cases s; rfl
@[simp] theorem State.holdWrite_memQueues (s : State) (fn : Nat) (r : Reg) (w mask : Nat) : (s.holdWrite fn r w mask).memQueues = s.memQueues := by cases s; rfl
@[simp] theorem State.holdWrite_fuses (s : State) (fn : Nat) (r : Reg) (w mask : Nat) : (s.holdWrite fn r w mask).fuses = s.fuses := by cases s; rfl
@[simp] theorem State.holdWrite_boot (s : State) (fn : Nat) (r : Reg) (w mask : Nat) : (s.holdWrite fn r w mask).boot = s.boot := by cases s; rfl
@[simp] theorem State.holdWrite_power (s : State) (fn : Nat) (r : Reg) (w mask : Nat) : (s.holdWrite fn r w mask).power = s.power := by cases s; rfl
@[simp] theorem State.holdWrite_faults (s : State) (fn : Nat) (r : Reg) (w mask : Nat) : (s.holdWrite fn r w mask).faults = s.faults := by cases s; rfl
@[simp] theorem State.holdWrite_service (s : State) (fn : Nat) (r : Reg) (w mask : Nat) : (s.holdWrite fn r w mask).service = s.service := by cases s; rfl
@[simp] theorem State.holdWrite_pins (s : State) (fn : Nat) (r : Reg) (w mask : Nat) : (s.holdWrite fn r w mask).pins = s.pins := by cases s; rfl
@[simp] theorem State.holdWrite_berths (s : State) (fn : Nat) (r : Reg) (w mask : Nat) : (s.holdWrite fn r w mask).berths = s.berths := by cases s; rfl
@[simp] theorem State.holdWrite_masters (s : State) (fn : Nat) (r : Reg) (w mask : Nat) : (s.holdWrite fn r w mask).masters = s.masters := by cases s; rfl
@[simp] theorem State.holdWrite_security (s : State) (fn : Nat) (r : Reg) (w mask : Nat) : (s.holdWrite fn r w mask).security = s.security := by cases s; rfl
@[simp] theorem State.holdWrite_tables (s : State) (fn : Nat) (r : Reg) (w mask : Nat) : (s.holdWrite fn r w mask).tables = s.tables := by cases s; rfl
@[simp] theorem State.holdWrite_arrays (s : State) (fn : Nat) (r : Reg) (w mask : Nat) : (s.holdWrite fn r w mask).arrays = s.arrays := by cases s; rfl
@[simp] theorem State.holdWrite_numbers (s : State) (fn : Nat) (r : Reg) (w mask : Nat) : (s.holdWrite fn r w mask).numbers = s.numbers := by cases s; rfl
@[simp] theorem State.holdWrite_cmds (s : State) (fn : Nat) (r : Reg) (w mask : Nat) : (s.holdWrite fn r w mask).cmds = s.cmds := by cases s; rfl
@[simp] theorem State.holdWrite_hot (s : State) (fn : Nat) (r : Reg) (w mask : Nat) : (s.holdWrite fn r w mask).hot = s.hot := by cases s; rfl
@[simp] theorem State.holdWrite_scrub (s : State) (fn : Nat) (r : Reg) (w mask : Nat) : (s.holdWrite fn r w mask).scrub = s.scrub := by cases s; rfl
@[simp] theorem State.holdWrite_learning (s : State) (fn : Nat) (r : Reg) (w mask : Nat) : (s.holdWrite fn r w mask).learning = s.learning := by cases s; rfl
@[simp] theorem State.holdWrite_manifest (s : State) (fn : Nat) (r : Reg) (w mask : Nat) : (s.holdWrite fn r w mask).manifest = s.manifest := by cases s; rfl
@[simp] theorem State.holdWrite_mode (s : State) (fn : Nat) (r : Reg) (w mask : Nat) : (s.holdWrite fn r w mask).mode = s.mode := by cases s; rfl
@[simp] theorem State.holdWrite_search (s : State) (fn : Nat) (r : Reg) (w mask : Nat) : (s.holdWrite fn r w mask).search = s.search := by cases s; rfl
@[simp] theorem State.holdWrite_scribes (s : State) (fn : Nat) (r : Reg) (w mask : Nat) : (s.holdWrite fn r w mask).scribes = s.scribes := by cases s; rfl
@[simp] theorem State.holdWrite_counters (s : State) (fn : Nat) (r : Reg) (w mask : Nat) : (s.holdWrite fn r w mask).counters = s.counters := by cases s; rfl
@[simp] theorem State.holdWrite_observe (s : State) (fn : Nat) (r : Reg) (w mask : Nat) : (s.holdWrite fn r w mask).observe = s.observe := by cases s; rfl
@[simp] theorem State.holdWrite_links (s : State) (fn : Nat) (r : Reg) (w mask : Nat) : (s.holdWrite fn r w mask).links = s.links := by cases s; rfl
@[simp] theorem State.holdWrite_ring (s : State) (fn : Nat) (r : Reg) (w mask : Nat) : (s.holdWrite fn r w mask).ring = s.ring := by cases s; rfl
@[simp] theorem State.holdWrite_dramCtl (s : State) (fn : Nat) (r : Reg) (w mask : Nat) : (s.holdWrite fn r w mask).dramCtl = s.dramCtl := by cases s; rfl
@[simp] theorem State.holdWrite_dram (s : State) (fn : Nat) (r : Reg) (w mask : Nat) : (s.holdWrite fn r w mask).dram = s.dram := by cases s; rfl
@[simp] theorem State.holdWrite_diram (s : State) (fn : Nat) (r : Reg) (w mask : Nat) : (s.holdWrite fn r w mask).diram = s.diram := by cases s; rfl
@[simp] theorem State.holdWrite_due (s : State) (fn : Nat) (r : Reg) (w mask : Nat) : (s.holdWrite fn r w mask).due = s.due := by cases s; rfl
@[simp] theorem State.holdWrite_freeCounter (s : State) (fn : Nat) (r : Reg) (w mask : Nat) : (s.holdWrite fn r w mask).freeCounter = s.freeCounter := by cases s; rfl
@[simp] theorem State.holdWrite_out (s : State) (fn : Nat) (r : Reg) (w mask : Nat) : (s.holdWrite fn r w mask).out = s.out := by cases s; rfl
@[simp] theorem State.holdWrite_pending (s : State) (fn : Nat) (r : Reg) (w mask : Nat) : (s.holdWrite fn r w mask).pending = s.pending := by cases s; rfl

@[simp] theorem State.setResult_clock (s : State) (id : Nat) (r : Nat × Nat × Nat × Nat × Bytes) (n : Nat) : (s.setResult id r n).clock = s.clock := by cases s; rfl
@[simp] theorem State.setResult_regs (s : State) (id : Nat) (r : Nat × Nat × Nat × Nat × Bytes) (n : Nat) : (s.setResult id r n).regs = s.regs := by cases s; rfl
@[simp] theorem State.setResult_setBits (s : State) (id : Nat) (r : Nat × Nat × Nat × Nat × Bytes) (n : Nat) : (s.setResult id r n).setBits = s.setBits := by cases s; rfl
@[simp] theorem State.setResult_setAt (s : State) (id : Nat) (r : Nat × Nat × Nat × Nat × Bytes) (n : Nat) : (s.setResult id r n).setAt = s.setAt := by cases s; rfl
@[simp] theorem State.setResult_rc (s : State) (id : Nat) (r : Nat × Nat × Nat × Nat × Bytes) (n : Nat) : (s.setResult id r n).rc = s.rc := by cases s; rfl
@[simp] theorem State.setResult_start (s : State) (id : Nat) (r : Nat × Nat × Nat × Nat × Bytes) (n : Nat) : (s.setResult id r n).start = s.start := by cases s; rfl
@[simp] theorem State.setResult_scratch (s : State) (id : Nat) (r : Nat × Nat × Nat × Nat × Bytes) (n : Nat) : (s.setResult id r n).scratch = s.scratch := by cases s; rfl
@[simp] theorem State.setResult_memQueues (s : State) (id : Nat) (r : Nat × Nat × Nat × Nat × Bytes) (n : Nat) : (s.setResult id r n).memQueues = s.memQueues := by cases s; rfl
@[simp] theorem State.setResult_fuses (s : State) (id : Nat) (r : Nat × Nat × Nat × Nat × Bytes) (n : Nat) : (s.setResult id r n).fuses = s.fuses := by cases s; rfl
@[simp] theorem State.setResult_boot (s : State) (id : Nat) (r : Nat × Nat × Nat × Nat × Bytes) (n : Nat) : (s.setResult id r n).boot = s.boot := by cases s; rfl
@[simp] theorem State.setResult_power (s : State) (id : Nat) (r : Nat × Nat × Nat × Nat × Bytes) (n : Nat) : (s.setResult id r n).power = s.power := by cases s; rfl
@[simp] theorem State.setResult_faults (s : State) (id : Nat) (r : Nat × Nat × Nat × Nat × Bytes) (n : Nat) : (s.setResult id r n).faults = s.faults := by cases s; rfl
@[simp] theorem State.setResult_service (s : State) (id : Nat) (r : Nat × Nat × Nat × Nat × Bytes) (n : Nat) : (s.setResult id r n).service = s.service := by cases s; rfl
@[simp] theorem State.setResult_pins (s : State) (id : Nat) (r : Nat × Nat × Nat × Nat × Bytes) (n : Nat) : (s.setResult id r n).pins = s.pins := by cases s; rfl
@[simp] theorem State.setResult_berths (s : State) (id : Nat) (r : Nat × Nat × Nat × Nat × Bytes) (n : Nat) : (s.setResult id r n).berths = s.berths := by cases s; rfl
@[simp] theorem State.setResult_masters (s : State) (id : Nat) (r : Nat × Nat × Nat × Nat × Bytes) (n : Nat) : (s.setResult id r n).masters = s.masters := by cases s; rfl
@[simp] theorem State.setResult_security (s : State) (id : Nat) (r : Nat × Nat × Nat × Nat × Bytes) (n : Nat) : (s.setResult id r n).security = s.security := by cases s; rfl
@[simp] theorem State.setResult_tables (s : State) (id : Nat) (r : Nat × Nat × Nat × Nat × Bytes) (n : Nat) : (s.setResult id r n).tables = s.tables := by cases s; rfl
@[simp] theorem State.setResult_arrays (s : State) (id : Nat) (r : Nat × Nat × Nat × Nat × Bytes) (n : Nat) : (s.setResult id r n).arrays = s.arrays := by cases s; rfl
@[simp] theorem State.setResult_numbers (s : State) (id : Nat) (r : Nat × Nat × Nat × Nat × Bytes) (n : Nat) : (s.setResult id r n).numbers = s.numbers := by cases s; rfl
@[simp] theorem State.setResult_hot (s : State) (id : Nat) (r : Nat × Nat × Nat × Nat × Bytes) (n : Nat) : (s.setResult id r n).hot = s.hot := by cases s; rfl
@[simp] theorem State.setResult_scrub (s : State) (id : Nat) (r : Nat × Nat × Nat × Nat × Bytes) (n : Nat) : (s.setResult id r n).scrub = s.scrub := by cases s; rfl
@[simp] theorem State.setResult_learning (s : State) (id : Nat) (r : Nat × Nat × Nat × Nat × Bytes) (n : Nat) : (s.setResult id r n).learning = s.learning := by cases s; rfl
@[simp] theorem State.setResult_manifest (s : State) (id : Nat) (r : Nat × Nat × Nat × Nat × Bytes) (n : Nat) : (s.setResult id r n).manifest = s.manifest := by cases s; rfl
@[simp] theorem State.setResult_mode (s : State) (id : Nat) (r : Nat × Nat × Nat × Nat × Bytes) (n : Nat) : (s.setResult id r n).mode = s.mode := by cases s; rfl
@[simp] theorem State.setResult_search (s : State) (id : Nat) (r : Nat × Nat × Nat × Nat × Bytes) (n : Nat) : (s.setResult id r n).search = s.search := by cases s; rfl
@[simp] theorem State.setResult_scribes (s : State) (id : Nat) (r : Nat × Nat × Nat × Nat × Bytes) (n : Nat) : (s.setResult id r n).scribes = s.scribes := by cases s; rfl
@[simp] theorem State.setResult_counters (s : State) (id : Nat) (r : Nat × Nat × Nat × Nat × Bytes) (n : Nat) : (s.setResult id r n).counters = s.counters := by cases s; rfl
@[simp] theorem State.setResult_observe (s : State) (id : Nat) (r : Nat × Nat × Nat × Nat × Bytes) (n : Nat) : (s.setResult id r n).observe = s.observe := by cases s; rfl
@[simp] theorem State.setResult_links (s : State) (id : Nat) (r : Nat × Nat × Nat × Nat × Bytes) (n : Nat) : (s.setResult id r n).links = s.links := by cases s; rfl
@[simp] theorem State.setResult_ring (s : State) (id : Nat) (r : Nat × Nat × Nat × Nat × Bytes) (n : Nat) : (s.setResult id r n).ring = s.ring := by cases s; rfl
@[simp] theorem State.setResult_host (s : State) (id : Nat) (r : Nat × Nat × Nat × Nat × Bytes) (n : Nat) : (s.setResult id r n).host = s.host := by cases s; rfl
@[simp] theorem State.setResult_dramCtl (s : State) (id : Nat) (r : Nat × Nat × Nat × Nat × Bytes) (n : Nat) : (s.setResult id r n).dramCtl = s.dramCtl := by cases s; rfl
@[simp] theorem State.setResult_dram (s : State) (id : Nat) (r : Nat × Nat × Nat × Nat × Bytes) (n : Nat) : (s.setResult id r n).dram = s.dram := by cases s; rfl
@[simp] theorem State.setResult_diram (s : State) (id : Nat) (r : Nat × Nat × Nat × Nat × Bytes) (n : Nat) : (s.setResult id r n).diram = s.diram := by cases s; rfl
@[simp] theorem State.setResult_due (s : State) (id : Nat) (r : Nat × Nat × Nat × Nat × Bytes) (n : Nat) : (s.setResult id r n).due = s.due := by cases s; rfl
@[simp] theorem State.setResult_freeCounter (s : State) (id : Nat) (r : Nat × Nat × Nat × Nat × Bytes) (n : Nat) : (s.setResult id r n).freeCounter = s.freeCounter := by cases s; rfl
@[simp] theorem State.setResult_out (s : State) (id : Nat) (r : Nat × Nat × Nat × Nat × Bytes) (n : Nat) : (s.setResult id r n).out = s.out := by cases s; rfl
@[simp] theorem State.setResult_pending (s : State) (id : Nat) (r : Nat × Nat × Nat × Nat × Bytes) (n : Nat) : (s.setResult id r n).pending = s.pending := by cases s; rfl

@[simp] theorem State.ringError_clock (s : State) (r cause : Nat) : (s.ringError r cause).clock = s.clock := by simp [State.ringError]
@[simp] theorem State.ringError_start (s : State) (r cause : Nat) : (s.ringError r cause).start = s.start := by simp [State.ringError]
@[simp] theorem State.ringError_scratch (s : State) (r cause : Nat) : (s.ringError r cause).scratch = s.scratch := by simp [State.ringError]
@[simp] theorem State.ringError_memQueues (s : State) (r cause : Nat) : (s.ringError r cause).memQueues = s.memQueues := by simp [State.ringError]
@[simp] theorem State.ringError_fuses (s : State) (r cause : Nat) : (s.ringError r cause).fuses = s.fuses := by simp [State.ringError]
@[simp] theorem State.ringError_boot (s : State) (r cause : Nat) : (s.ringError r cause).boot = s.boot := by simp [State.ringError]
@[simp] theorem State.ringError_power (s : State) (r cause : Nat) : (s.ringError r cause).power = s.power := by simp [State.ringError]
@[simp] theorem State.ringError_service (s : State) (r cause : Nat) : (s.ringError r cause).service = s.service := by simp [State.ringError]
@[simp] theorem State.ringError_pins (s : State) (r cause : Nat) : (s.ringError r cause).pins = s.pins := by simp [State.ringError]
@[simp] theorem State.ringError_berths (s : State) (r cause : Nat) : (s.ringError r cause).berths = s.berths := by simp [State.ringError]
@[simp] theorem State.ringError_masters (s : State) (r cause : Nat) : (s.ringError r cause).masters = s.masters := by simp [State.ringError]
@[simp] theorem State.ringError_security (s : State) (r cause : Nat) : (s.ringError r cause).security = s.security := by simp [State.ringError]
@[simp] theorem State.ringError_tables (s : State) (r cause : Nat) : (s.ringError r cause).tables = s.tables := by simp [State.ringError]
@[simp] theorem State.ringError_arrays (s : State) (r cause : Nat) : (s.ringError r cause).arrays = s.arrays := by simp [State.ringError]
@[simp] theorem State.ringError_numbers (s : State) (r cause : Nat) : (s.ringError r cause).numbers = s.numbers := by simp [State.ringError]
@[simp] theorem State.ringError_cmds (s : State) (r cause : Nat) : (s.ringError r cause).cmds = s.cmds := by simp [State.ringError]
@[simp] theorem State.ringError_hot (s : State) (r cause : Nat) : (s.ringError r cause).hot = s.hot := by simp [State.ringError]
@[simp] theorem State.ringError_scrub (s : State) (r cause : Nat) : (s.ringError r cause).scrub = s.scrub := by simp [State.ringError]
@[simp] theorem State.ringError_learning (s : State) (r cause : Nat) : (s.ringError r cause).learning = s.learning := by simp [State.ringError]
@[simp] theorem State.ringError_manifest (s : State) (r cause : Nat) : (s.ringError r cause).manifest = s.manifest := by simp [State.ringError]
@[simp] theorem State.ringError_mode (s : State) (r cause : Nat) : (s.ringError r cause).mode = s.mode := by simp [State.ringError]
@[simp] theorem State.ringError_search (s : State) (r cause : Nat) : (s.ringError r cause).search = s.search := by simp [State.ringError]
@[simp] theorem State.ringError_scribes (s : State) (r cause : Nat) : (s.ringError r cause).scribes = s.scribes := by simp [State.ringError]
@[simp] theorem State.ringError_counters (s : State) (r cause : Nat) : (s.ringError r cause).counters = s.counters := by simp [State.ringError]
@[simp] theorem State.ringError_observe (s : State) (r cause : Nat) : (s.ringError r cause).observe = s.observe := by simp [State.ringError]
@[simp] theorem State.ringError_links (s : State) (r cause : Nat) : (s.ringError r cause).links = s.links := by simp [State.ringError]
@[simp] theorem State.ringError_ring (s : State) (r cause : Nat) : (s.ringError r cause).ring = s.ring := by simp [State.ringError]
@[simp] theorem State.ringError_dramCtl (s : State) (r cause : Nat) : (s.ringError r cause).dramCtl = s.dramCtl := by simp [State.ringError]
@[simp] theorem State.ringError_dram (s : State) (r cause : Nat) : (s.ringError r cause).dram = s.dram := by simp [State.ringError]
@[simp] theorem State.ringError_diram (s : State) (r cause : Nat) : (s.ringError r cause).diram = s.diram := by simp [State.ringError]
@[simp] theorem State.ringError_due (s : State) (r cause : Nat) : (s.ringError r cause).due = s.due := by simp [State.ringError]
@[simp] theorem State.ringError_pending (s : State) (r cause : Nat) : (s.ringError r cause).pending = s.pending := by simp [State.ringError]

end Sys2Proof.Machine
end

