-- ==== Sys2Proof/Laws/Boot.lean ====
section
/-! SUPPORT. The boot: a record that is sealed opens to its contents, and what the end of a boot or of an exit leaves alone. -/
namespace Sys2Proof.Machine

@[simp] theorem length_leBytes (v n : Nat) : (leBytes v n).length = n := by
  induction n generalizing v with
  | zero => rfl
  | succ n ih => simp [leBytes, ih]

/-- The bytes of a number that they can hold spell it. -/
theorem leNat_leBytes (v n : Nat) (h : v < 256 ^ n) : leNat (leBytes v n) = v := by
  induction n generalizing v with
  | zero => simp at h; simp [leBytes, leNat, h]
  | succ n ih =>
    have : v / 256 < 256 ^ n := Nat.div_lt_of_lt_mul (by rw [Nat.pow_succ, Nat.mul_comm] at h; exact h)
    simp [leBytes, leNat, ih _ this]
    omega

@[simp] theorem length_zeros (n : Nat) : (zeros n).length = n := by simp [zeros]

@[simp] theorem length_beBytes (v n : Nat) : (beBytes v n).length = n := by simp [beBytes]

@[simp] theorem length_aesBlock (ks : List Nat) (bs : Bytes) : (aesBlock ks bs).length = 16 := by simp [aesBlock]

/-- The key stream of GCM has the length asked of it. -/
@[simp] theorem length_gcmStream (ks : List Nat) (nonce : Bytes) (n : Nat) : (gcmStream ks nonce n).length = n := by
  unfold gcmStream
  rw [List.length_take, List.length_flatMap]
  have whole : ∀ k, ((List.range k).map (fun i => (aesBlock ks (nonce ++ beBytes (i + 2) 4)).length)).sum = 16 * k := by
    intro k
    induction k with
    | zero => rfl
    | succ k ih => rw [List.range_succ, List.map_append, List.sum_append, ih]; simp; omega
  rw [whole]
  omega

@[simp] theorem length_gcmTag (ks : List Nat) (nonce aad text : Bytes) : (gcmTag ks nonce aad text).length = 16 := by
  simp [gcmTag, xorBytes]

@[simp] theorem length_gcmCrypt (ks : List Nat) (nonce text : Bytes) : (gcmCrypt ks nonce text).length = text.length := by
  simp [gcmCrypt, xorBytes]

/-- What is added twice is gone. -/
theorem xorBytes_twice (xs ys : Bytes) (h : xs.length ≤ ys.length) : xorBytes (xorBytes xs ys) ys = xs := by
  induction xs generalizing ys with
  | nil => rfl
  | cons x xs ih =>
    cases ys with
    | nil => simp at h
    | cons y ys =>
      simp only [xorBytes, List.zipWith_cons_cons, List.cons.injEq]
      exact ⟨by rw [BitVec.xor_assoc, BitVec.xor_self, BitVec.xor_zero], ih ys (by simpa using h)⟩

/-- GCM decrypts what it has encrypted. -/
theorem gcmCrypt_twice (ks : List Nat) (nonce text : Bytes) : gcmCrypt ks nonce (gcmCrypt ks nonce text) = text := by
  have := xorBytes_twice text (gcmStream ks nonce text.length) (by simp)
  simpa only [gcmCrypt, xorBytes, List.length_zipWith, length_gcmStream, Nat.min_self] using this

/-- The stored bytes of a record of a section (R89, R90): nonce, length, ciphertext, tag, and zeros up to a multiple of 16. -/
def sealRecord (ks : List Nat) (typ index seq : Nat) (nonce text : Bytes) : Bytes :=
  let ct := gcmCrypt ks nonce text
  nonce ++ (leBytes text.length 4 ++ (ct ++ (gcmTag ks nonce (recordAad typ index seq) ct ++
    zeros ((text.length + 47) / 16 * 16 - 32 - text.length))))

theorem length_sealRecord (ks : List Nat) (typ index seq : Nat) (nonce text : Bytes) (h : nonce.length = 12) :
    (sealRecord ks typ index seq nonce text).length = (text.length + 47) / 16 * 16 := by
  simp [sealRecord, h]; omega

/-- A sealed record stands at the head of the bytes that begin with it. -/
theorem sealedAt_sealRecord (ks : List Nat) (typ index seq : Nat) (nonce text rest : Bytes) (hn : nonce.length = 12)
    (h1 : 1 ≤ text.length) (h2 : text.length ≤ 65536) :
    sealedAt (sealRecord ks typ index seq nonce text ++ rest) =
      some ⟨nonce, gcmCrypt ks nonce text, gcmTag ks nonce (recordAad typ index seq) (gcmCrypt ks nonce text),
        (text.length + 47) / 16 * 16⟩ := by
  have hl := length_sealRecord ks typ index seq nonce text hn
  let ct := gcmCrypt ks nonce text
  let tag := gcmTag ks nonce (recordAad typ index seq) ct
  let pad := (text.length + 47) / 16 * 16 - 32 - text.length
  have e : sealRecord ks typ index seq nonce text ++ rest =
      nonce ++ (leBytes text.length 4 ++ (ct ++ (tag ++ (zeros pad ++ rest)))) := by
    simp [sealRecord, ct, tag, pad]
  have d12 : (sealRecord ks typ index seq nonce text ++ rest).drop 12 = leBytes text.length 4 ++ (ct ++ (tag ++ (zeros pad ++ rest))) := by
    rw [e]; exact List.drop_left' hn
  have d16 : (sealRecord ks typ index seq nonce text ++ rest).drop 16 = ct ++ (tag ++ (zeros pad ++ rest)) := by
    rw [show 16 = 12 + 4 from rfl, ← List.drop_drop, d12]; exact List.drop_left' (by simp)
  have dt : (sealRecord ks typ index seq nonce text ++ rest).drop (16 + text.length) = tag ++ (zeros pad ++ rest) := by
    rw [← List.drop_drop, d16]; exact List.drop_left' (by simp [ct])
  have dp : (sealRecord ks typ index seq nonce text ++ rest).drop (32 + text.length) = zeros pad ++ rest := by
    rw [show 32 + text.length = 16 + text.length + 16 by omega, ← List.drop_drop, dt]; exact List.drop_left' (by simp [tag])
  have len : fieldLE (sealRecord ks typ index seq nonce text ++ rest) 12 4 = text.length := by
    unfold fieldLE
    rw [d12, List.take_left' (by simp)]
    exact leNat_leBytes _ _ (by omega)
  unfold sealedAt
  simp only [len]
  rw [if_pos]
  · refine congrArg some ?_
    have c : (ct ++ (tag ++ (zeros pad ++ rest))).take text.length = ct := List.take_left' (by simp [ct])
    have g : (tag ++ (zeros pad ++ rest)).take 16 = tag := List.take_left' (by simp [tag])
    have n : (sealRecord ks typ index seq nonce text ++ rest).take 12 = nonce := by rw [e]; exact List.take_left' hn
    rw [d16, dt, c, g, n]
  · simp only [zerosAt, dp, List.length_append, hl, Bool.and_eq_true, decide_eq_true_eq]
    refine ⟨⟨⟨h1, h2⟩, by omega⟩, ?_⟩
    rw [List.take_left' (by simp [pad])]
    simp [zeros]

/-- A sealed record is the first of the records opened from bytes that begin with it (R89 to R91). -/
theorem openRecords_sealRecord (ks : List Nat) (typ index seq fuel : Nat) (nonce text rest : Bytes) (hn : nonce.length = 12)
    (h1 : 1 ≤ text.length) (h2 : text.length ≤ 65536) :
    openRecords ks typ seq (fuel + 1) index (sealRecord ks typ index seq nonce text ++ rest) =
      some text :: openRecords ks typ seq fuel (index + 1) rest := by
  have hl := length_sealRecord ks typ index seq nonce text hn
  have ne : (sealRecord ks typ index seq nonce text ++ rest).isEmpty = false := by
    rw [List.isEmpty_eq_false_iff]
    intro h
    have := congrArg List.length h
    simp [hl] at this
    omega
  rw [openRecords, ne, sealedAt_sealRecord ks typ index seq nonce text rest hn h1 h2]
  simp only [SealedRec.open, beq_self_eq_true, if_true, gcmCrypt_twice, Bool.false_eq_true, if_false]
  rw [List.drop_left' hl]

/-- Records sealed one behind the other from an index on, each with its nonce (R89). -/
def sealRecords (ks : List Nat) (typ seq : Nat) : Nat → List (Bytes × Bytes) → Bytes
  | _, [] => []
  | index, (nonce, text) :: rest => sealRecord ks typ index seq nonce text ++ sealRecords ks typ seq (index + 1) rest

/-- Sealed records take at least 33 bytes each. -/
theorem length_sealRecords (ks : List Nat) (typ seq index : Nat) (rs : List (Bytes × Bytes))
    (h : ∀ r ∈ rs, r.1.length = 12 ∧ 1 ≤ r.2.length ∧ r.2.length ≤ 65536) :
    32 * rs.length ≤ (sealRecords ks typ seq index rs).length := by
  induction rs generalizing index with
  | nil => exact Nat.zero_le _
  | cons r rs ih =>
    obtain ⟨hn, h1, -⟩ := h r (List.mem_cons_self ..)
    have := ih (index + 1) (fun x hx => h x (List.mem_cons_of_mem _ hx))
    simp only [sealRecords, List.length_append, List.length_cons, length_sealRecord _ _ _ _ _ _ hn]
    omega

/-- Every record of a section that is sealed so opens to its contents. -/
theorem openRecords_sealRecords (ks : List Nat) (typ seq index fuel : Nat) (rs : List (Bytes × Bytes))
    (h : ∀ r ∈ rs, r.1.length = 12 ∧ 1 ≤ r.2.length ∧ r.2.length ≤ 65536) (hf : rs.length < fuel) :
    openRecords ks typ seq fuel index (sealRecords ks typ seq index rs) = rs.map (fun r => some r.2) := by
  induction rs generalizing index fuel with
  | nil =>
    obtain ⟨n, rfl⟩ : ∃ n, fuel = n + 1 := ⟨fuel - 1, by omega⟩
    rfl
  | cons r rs ih =>
    obtain ⟨n, rfl⟩ : ∃ n, fuel = n + 1 := ⟨fuel - 1, by omega⟩
    obtain ⟨hn, h1, h2⟩ := h r (List.mem_cons_self ..)
    rw [sealRecords, openRecords_sealRecord ks typ index seq n r.1 r.2 _ hn h1 h2,
      ih (index + 1) n (fun x hx => h x (List.mem_cons_of_mem _ hx)) (by simpa using hf)]
    rfl

/-- The records of a CORE section that is sealed under the scroll key (R91). -/
theorem State.coreRecords_sealRecords (s : State) (hd : HeaderRead) (rs : List (Bytes × Bytes))
    (h : ∀ r ∈ rs, r.1.length = 12 ∧ 1 ≤ r.2.length ∧ r.2.length ≤ 65536) :
    s.coreRecords hd (sealRecords (roundKeys s.scrollKey) 1 (scrollSeqOf hd) 0 rs) = rs.map (fun r => some r.2) := by
  have := length_sealRecords (roundKeys s.scrollKey) 1 (scrollSeqOf hd) 0 rs h
  exact openRecords_sealRecords _ _ _ _ _ rs h (by omega)

/-- A record of GLYPH or SEED opens to its contents, the four bytes of its head gone (R92). -/
theorem State.openRecord_sealRecord (s : State) (typ index : Nat) (nonce text : Bytes) (hn : nonce.length = 12)
    (h1 : 4 ≤ text.length) (h2 : text.length ≤ 65536) :
    s.openRecord typ index (sealRecord (roundKeys s.scrollKey) typ index s.boot.scrollSeq nonce text) = some (text.drop 4) := by
  have hs := sealedAt_sealRecord (roundKeys s.scrollKey) typ index s.boot.scrollSeq nonce text [] hn (by omega) h2
  rw [List.append_nil] at hs
  unfold State.openRecord
  rw [hs]
  simp [SealedRec.open, gcmCrypt_twice, length_sealRecord _ _ _ _ _ _ hn, h1]

@[simp] theorem length_sha384 (bs : Bytes) : (sha384 bs).length = 48 := by simp [sha384]

@[simp] theorem State.resumeBoot_boot (s : State) : s.resumeBoot.boot = s.boot := by unfold State.resumeBoot; split <;> rfl
@[simp] theorem State.resumeBoot_fuses (s : State) : s.resumeBoot.fuses = s.fuses := by unfold State.resumeBoot; split <;> rfl
@[simp] theorem State.resumeBoot_dramCtl (s : State) : s.resumeBoot.dramCtl = s.dramCtl := by unfold State.resumeBoot; split <;> rfl

/-- The power domains and rails as they are: only the time records change. -/
theorem State.resumeBoot_power (s : State) : s.resumeBoot.power.railsValid = s.power.railsValid ∧
    s.resumeBoot.power.railFails = s.power.railFails ∧ s.resumeBoot.power.state = s.power.state := by
  unfold State.resumeBoot
  split <;> exact ⟨rfl, rfl, rfl⟩

@[simp] theorem State.endExit_boot (s : State) : s.endExit.boot = s.boot := by unfold State.endExit; split <;> simp
@[simp] theorem State.endExit_fuses (s : State) : s.endExit.fuses = s.fuses := by unfold State.endExit; split <;> simp
@[simp] theorem State.endExit_dramCtl (s : State) : s.endExit.dramCtl = s.dramCtl := by unfold State.endExit; split <;> simp
@[simp] theorem State.endExit_security (s : State) : s.endExit.security = s.security := by unfold State.endExit; split <;> simp
@[simp] theorem State.endExit_host (s : State) : s.endExit.host = s.host := by unfold State.endExit; split <;> simp

theorem State.endExit_power (s : State) : s.endExit.power.railsValid = s.power.railsValid ∧
    s.endExit.power.railFails = s.power.railFails ∧ s.endExit.power.state = s.power.state := by
  unfold State.endExit
  split <;> simp

end Sys2Proof.Machine
end

