-- ==== Sys2Proof/Laws/Engine.lean ====
section
/-! SUPPORT. The command engine: what its shared checks and the acceptance of a command do, once for every command. -/
namespace Sys2Proof.Machine

/-- A FIFO that was replaced holds the records that it was given. -/
theorem State.fifo_setFifo_records (s : State) (src : Source) (l : List Cmd) :
    ((s.setFifo src l).fifo src).map (·.record) = l.map (·.record) := by
  cases l with
  | nil => simp [State.setFifo, State.fifo]
  | cons c rest =>
    by_cases h : c.headTide.isNone = true <;> simp [State.setFifo, State.fifo, h]

theorem State.fifo_setFifo_length (s : State) (src : Source) (l : List Cmd) : ((s.setFifo src l).fifo src).length = l.length := by
  have := congrArg List.length (State.fifo_setFifo_records s src l)
  simpa using this

theorem State.fifo_of_cmds (s s' : State) (h : s.cmds.fifos = s'.cmds.fifos) (src : Source) : s.fifo src = s'.fifo src := by
  simp [State.fifo, h]

@[simp] theorem State.releaseRecord_record (s : State) (src : Source) (rec : Bytes) :
    (s.releaseRecord src rec).links.record = s.links.record := by
  cases src <;> (simp only [State.releaseRecord, State.setLink]; repeat' split)
  all_goals rfl

@[simp] theorem State.fifo_popHead (s : State) (src : Source) (c : Cmd) :
    (s.popHead src c).cmds.fifos = (s.setFifo src ((s.fifo src).drop 1)).cmds.fifos := by
  simp [State.popHead]

@[simp] theorem State.accepted_popHead (s : State) (src : Source) (c : Cmd) : (s.popHead src c).cmds.accepted = s.cmds.accepted := by
  simp [State.popHead, State.setFifo]

@[simp] theorem State.nextId_popHead (s : State) (src : Source) (c : Cmd) : (s.popHead src c).cmds.nextId = s.cmds.nextId := by
  simp [State.popHead, State.setFifo]

@[simp] theorem State.popHead_record (s : State) (src : Source) (c : Cmd) : (s.popHead src c).links.record = s.links.record := by
  simp [State.popHead]

/-- Acceptance (R60): the command leaves its FIFO and is held. -/
theorem State.accept_accepted (s : State) (src : Source) (c : Cmd) (n : Nat) (b : Bool)
    (r : Option (Nat × Nat × Nat × Nat × Bytes)) (p : Option Nat) :
    (s.accept src c n b r p).cmds.accepted =
      s.cmds.accepted ++ [⟨s.cmds.nextId, src, c.record, c.master, c.reply, s.clock.grid, n, b, r, p, 0⟩] := by
  simp [State.accept]

theorem State.accept_fifos (s : State) (src : Source) (c : Cmd) (n : Nat) (b : Bool)
    (r : Option (Nat × Nat × Nat × Nat × Bytes)) (p : Option Nat) :
    (s.accept src c n b r p).cmds.fifos = (s.setFifo src ((s.fifo src).drop 1)).cmds.fifos := by
  simp [State.accept]

theorem State.accept_fifo (s : State) (src : Source) (c : Cmd) (n : Nat) (b : Bool)
    (r : Option (Nat × Nat × Nat × Nat × Bytes)) (p : Option Nat) :
    ((s.accept src c n b r p).fifo src).map (·.record) = ((s.fifo src).drop 1).map (·.record) := by
  rw [State.fifo_of_cmds _ _ (State.accept_fifos s src c n b r p), State.fifo_setFifo_records]

theorem State.accept_fifo_length (s : State) (src : Source) (c : Cmd) (n : Nat) (b : Bool)
    (r : Option (Nat × Nat × Nat × Nat × Bytes)) (p : Option Nat) :
    ((s.accept src c n b r p).fifo src).length = (s.fifo src).length - 1 := by
  have := congrArg List.length (State.accept_fifo s src c n b r p)
  simpa using this

@[simp] theorem State.accept_record (s : State) (src : Source) (c : Cmd) (n : Nat) (b : Bool)
    (r : Option (Nat × Nat × Nat × Nat × Bytes)) (p : Option Nat) : (s.accept src c n b r p).links.record = s.links.record := by
  simp [State.accept]

/-- Once the command has left its FIFO, its cookie stands. -/
theorem State.keepCookie_of_shorter (s old : State) (src : Source) (c : Cmd) (h : (s.fifo src).length < (old.fifo src).length) :
    s.keepCookie old src c = s := by
  have : ¬ (s.fifo src).length = (old.fifo src).length := by omega
  simp [State.keepCookie, this]

theorem State.master_setMaster (s : State) (m k : Nat) (x : Master) : (s.setMaster m x).master k = if k = m then x else s.master k := by
  unfold State.setMaster State.master
  dsimp only
  split
  · subst_vars; simp
  · rw [Table.findD_put_ne _ _ _ _ _ (by assumption)]

theorem State.master_record_noteCookie (s : State) (src : Source) (c : Cmd) (m : Nat) :
    ((s.noteCookie src c).master m).record = (s.master m).record := by
  unfold State.noteCookie
  split
  · rfl
  · rw [State.master_setMaster]; split <;> simp_all

@[simp] theorem State.inRange_noteCookie (s : State) (src : Source) (c : Cmd) (m b : Nat) :
    (s.noteCookie src c).inRange m b = s.inRange m b := by
  simp [State.inRange, State.berthRange, State.master_record_noteCookie]

@[simp] theorem State.hasRole_noteCookie (s : State) (src : Source) (c : Cmd) (m : Nat) (r : Role) :
    (s.noteCookie src c).hasRole m r = s.hasRole m r := by
  simp [State.hasRole, State.master_record_noteCookie, State.cmdAuth, State.recovery]

/-- The cookie of a master is no part of its rights. -/
@[simp] theorem State.denied_noteCookie (s : State) (src : Source) (c : Cmd) (need : Right) :
    (s.noteCookie src c).denied src c need = s.denied src c need := by
  have hb : ∀ b, (s.noteCookie src c).berth b = s.berth b := fun b => by simp [State.berth]
  unfold State.denied; dsimp only
  rw [hb, State.inRange_noteCookie, State.hasRole_noteCookie, State.hasRole_noteCookie, State.hasRole_noteCookie]

@[simp] theorem State.table_noteCookie (s : State) (src : Source) (c : Cmd) (tid : Nat) :
    (s.noteCookie src c).table tid = s.table tid := by simp [State.table]

@[simp] theorem State.fifo_noteCookie (s : State) (src : Source) (c : Cmd) (x : Source) : (s.noteCookie src c).fifo x = s.fifo x :=
  State.fifo_of_cmds _ _ (by simp) x

/-- A source that has been considered in this stroke is noted once. -/
theorem State.noteTurn_noted (s : State) (src : Source) (h : s.takenNow.2.2.contains (sourceKey src) = true) : s.noteTurn src = s := by
  unfold State.noteTurn
  dsimp only
  rw [if_pos h]

/-- Acceptance notes the turn of its source. -/
theorem State.accept_takenFrom (s : State) (src : Source) (c : Cmd) (n : Nat) (b : Bool)
    (r : Option (Nat × Nat × Nat × Nat × Bytes)) (p : Option Nat) :
    (s.accept src c n b r p).takenNow.2.2.contains (sourceKey src) = true := by
  simp [State.takenNow, State.accept, State.popHead, State.now]

/-- The head of a FIFO that may be taken is looked at, and its source's turn is noted. -/
theorem State.atHead_of {s : State} {t : Nat} {src : Source} {c : Cmd} {rest : List Cmd} {ops : Nat → Bool}
    (body : State → Cmd → State) (h1 : (s.at t).fifo src = c :: rest) (h2 : ops (cmdOp c.record) = true)
    (h3 : (s.at t).takeable src c = true) : s.atHead t src ops body = (body (s.at t) c).noteTurn src := by
  simp only [State.atHead, h1, h2, h3, Bool.and_self, if_true]

/-- A command that clears the shared checks, whose own form is right and that no early check refuses, comes to its own effect. -/
theorem State.checked_of {s : State} {t : Nat} {src : Source} {c : Cmd} {rest : List Cmd} {op : Nat} {ut uh : Bool}
    {need : Right} (h : Clears s t src c rest op ut uh need) {form : Bool} {early : State → Option Nat} (act : State → State)
    (hf : form = true) (he : early ((s.at t).noteCookie src c) = none) :
    (s.at t).checked src c ut uh form need early act =
      (act ((s.at t).noteCookie src c)).keepCookie (s.at t) src c := by
  obtain ⟨-, -, -, h4, h5, h6⟩ := h
  simp [State.checked, h4, hf, h5, he, h6]

@[simp] theorem State.kindCheck_noteCookie (s : State) (src : Source) (c : Cmd) (tid : Nat) (d b : Bool) :
    (s.noteCookie src c).kindCheck tid d b = s.kindCheck tid d b := by simp only [State.kindCheck, State.table_noteCookie]

@[simp] theorem State.noTable_noteCookie (s : State) (src x : Source) (c : Cmd) (tid : Nat) :
    (s.noteCookie src c).noTable x tid = s.noTable x tid := by simp only [State.noTable, State.table_noteCookie]

@[simp] theorem State.table_at (s : State) (t tid : Nat) : (s.at t).table tid = s.table tid := rfl

@[simp] theorem State.kindCheck_at (s : State) (t tid : Nat) (d b : Bool) : (s.at t).kindCheck tid d b = s.kindCheck tid d b := rfl

/-- An accepted command stands in the list, its FIFO is one shorter, and nothing else has changed but what acceptance moves. -/
theorem Clears.taken {s : State} {t : Nat} {src : Source} {c : Cmd} {rest : List Cmd} {op : Nat} {ut uh : Bool}
    {need : Right} (h : Clears s t src c rest op ut uh need) (n : Nat) (b : Bool)
    (r : Option (Nat × Nat × Nat × Nat × Bytes)) (p : Option Nat) :
    let s' := ((((s.at t).noteCookie src c).accept src c n b r p).keepCookie (s.at t) src c).settle
    Taken s s' src c rest ⟨s.cmds.nextId, src, c.record, c.master, c.reply, s.clock.grid, n, b, r, p, 0⟩ ∧ OnlyTaken s s' t := by
  obtain ⟨h1, -⟩ := h
  have hk : (((s.at t).noteCookie src c).accept src c n b r p).keepCookie (s.at t) src c =
      ((s.at t).noteCookie src c).accept src c n b r p := by
    apply State.keepCookie_of_shorter
    rw [State.accept_fifo_length, State.fifo_noteCookie, h1]
    simp
  rw [hk]
  refine ⟨⟨?_, rfl, rfl, rfl, rfl, rfl, ?_⟩, ?_, ?_, ?_, ?_, ?_⟩
  · simp only [State.settle_cmds, State.accept_accepted, State.noteCookie_cmds, State.at_cmds, State.noteCookie_clock]; rfl
  · rw [State.fifo_of_cmds _ (((s.at t).noteCookie src c).accept src c n b r p) (by simp), State.accept_fifo]
    simp [h1]
  · apply State.ext <;> simp
  · simp
  · simp
  · simp
  · simp only [State.settle, State.settleGates, State.accept_ring, State.noteCookie_ring, State.at_ring]

end Sys2Proof.Machine
end

