-- ==== Sys2Proof/Laws/Links.lean ====
section
/-! SUPPORT. The links: a port reads the link that was set, and what the shared operations of a link leave alone. -/
namespace Sys2Proof.Machine

@[simp] theorem length_mapFrom {α : Type} (f : Nat → α → α) (i : Nat) (l : List α) : (mapFrom f i l).length = l.length := by
  induction l generalizing i with
  | nil => rfl
  | cons x xs ih => simp [mapFrom, ih]

theorem getElem?_mapFrom {α : Type} (f : Nat → α → α) (i n : Nat) (l : List α) :
    (mapFrom f i l)[n]? = (l[n]?).map (f (i + n)) := by
  induction l generalizing i n with
  | nil => simp [mapFrom]
  | cons x xs ih =>
    cases n with
    | zero => simp [mapFrom]
    | succ n => simp [mapFrom, ih, Nat.add_assoc, Nat.add_comm 1 n]

@[simp] theorem State.link_settle (s : State) (p : Port) : s.settle.link p = s.link p := by cases p <;> simp [State.link]
@[simp] theorem State.link_at (s : State) (t : Nat) (p : Port) : (s.at t).link p = s.link p := by cases p <;> simp [State.link]
@[simp] theorem State.hasPort_at (s : State) (t : Nat) (p : Port) : (s.at t).hasPort p = s.hasPort p := by
  cases p <;> simp [State.hasPort]

/-- A configured port reads the link that was set. -/
theorem State.link_setLink (s : State) (p : Port) (l : Link) (h : s.hasPort p = true) : (s.setLink p l).link p = l := by
  cases p <;> simp_all [State.link, State.setLink, State.hasPort]

/-- Another port reads as before. -/
theorem State.link_setLink_ne (s : State) (p q : Port) (l : Link) (h : q ≠ p) : (s.setLink p l).link q = s.link q := by
  cases p with
  | quay a =>
    simp only [State.setLink]
    split
    · cases q with
      | quay b =>
        simp only [State.link]
        rw [Table.findD_put_ne _ _ _ _ _ (fun e => h (by rw [e]))]
      | east => rfl
      | west => rfl
    · rfl
  | east => cases q <;> simp_all [State.setLink, State.link]
  | west => cases q <;> simp_all [State.setLink, State.link]

/-- The ports configured stay the same. -/
@[simp] theorem State.hasPort_setLink (s : State) (p q : Port) (l : Link) : (s.setLink p l).hasPort q = s.hasPort q := by
  cases p with
  | quay a =>
    simp only [State.setLink]
    split
    · cases q with
      | quay b =>
        rename_i ha
        simp only [State.hasPort, Table.has]
        by_cases e : b = a
        · subst e; rw [Table.find_put_same]; exact ha.symm
        · rw [Table.find_put_ne _ _ _ _ e]
      | east => rfl
      | west => rfl
    · rfl
  | east => cases q <;> simp [State.setLink, State.hasPort]
  | west => cases q <;> simp [State.setLink, State.hasPort]

@[simp] theorem State.setLink_record (s : State) (p : Port) (l : Link) : (s.setLink p l).links.record = s.links.record := by
  cases p <;> simp only [State.setLink]
  split <;> rfl

@[simp] theorem State.serving_at (s : State) (t : Nat) : (s.at t).serving = s.serving := rfl
@[simp] theorem State.serving_setLink (s : State) (p : Port) (l : Link) : (s.setLink p l).serving = s.serving := by
  simp [State.serving]
@[simp] theorem State.now_setLink (s : State) (p : Port) (l : Link) : (s.setLink p l).now = s.now := by simp [State.now]
@[simp] theorem State.now_settle (s : State) : s.settle.now = s.now := by simp [State.now]

@[simp] theorem State.link_raise (s : State) (f : Fld) (i : Nat) (p : Port) : (s.raise f i).link p = s.link p := by
  cases p <;> simp [State.link]
@[simp] theorem State.link_bump (s : State) (f : Fld) (n i : Nat) (p : Port) : (s.bump f n i).link p = s.link p := by
  cases p <;> simp [State.link]
@[simp] theorem State.link_emit (s : State) (e : Emit) (p : Port) : (s.emit e).link p = s.link p := by
  cases p <;> simp [State.link]
@[simp] theorem State.link_faultEvent (s : State) (a b c d e f : Nat) (p : Port) : (s.faultEvent a b c d e f).link p = s.link p := by
  cases p <;> simp [State.link]
@[simp] theorem State.hasPort_raise (s : State) (f : Fld) (i : Nat) (p : Port) : (s.raise f i).hasPort p = s.hasPort p := by
  cases p <;> simp [State.hasPort]
@[simp] theorem State.hasPort_bump (s : State) (f : Fld) (n i : Nat) (p : Port) : (s.bump f n i).hasPort p = s.hasPort p := by
  cases p <;> simp [State.hasPort]
@[simp] theorem State.hasPort_emit (s : State) (e : Emit) (p : Port) : (s.emit e).hasPort p = s.hasPort p := by
  cases p <;> simp [State.hasPort]
@[simp] theorem State.hasPort_faultEvent (s : State) (a b c d e f : Nat) (p : Port) :
    (s.faultEvent a b c d e f).hasPort p = s.hasPort p := by cases p <;> simp [State.hasPort]

/-- The control of a codeword fills its first 20 bits and no more. -/
theorem codewordControl_lt (num width : Nat) : codewordControl num width < 2 ^ 20 := by
  have h1 := Nat.mod_lt num (show 0 < 65536 by decide)
  have h2 := Nat.mod_lt width (show 0 < 4 by decide)
  unfold codewordControl
  omega

/-- Scrambling twice with one codeword number gives the bits back (R451). -/
theorem scrambler_twice (num n : Nat) : (n ^^^ scrambler num) ^^^ scrambler num = n := by
  rw [Nat.xor_assoc, Nat.xor_self, Nat.xor_zero]

/-- The scrambler takes 16 bits of the codeword number. -/
theorem scrambler_mod (num : Nat) : scrambler (num % 65536) = scrambler num := by
  unfold scrambler
  rw [Nat.mod_mod]

end Sys2Proof.Machine
end

