-- ==== Sys2Proof/WellFormed.lean ====
section
/-! DEFINITION. The well-formed commands: every operand lies in the range that the spec gives it. -/
namespace Sys2Proof

/-- A stroke of a tide (R46). -/
def strokeOk (t : Nat) : Bool := t < 256
/-- The physical function is 0, virtual function n is n (R514). -/
def fnOk (f : Nat) : Bool := f < 256
/-- A byte offset in the 64 MiB of BAR0 (21_registers.md). -/
def offOk (o : Nat) : Bool := o < 0x4000000
/-- The size of one access in bytes. -/
def sizeOk (n : Nat) : Bool := 0 < n && n ≤ 64
/-- A logical quay (R68). -/
def quayOk (q : Nat) : Bool := q < 48
/-- A pseudo-channel (R39). -/
def pcOk (p : Nat) : Bool := p < 64
/-- A physical lane of a port: 8 of a quay, 16 of a ring port. -/
def laneOk (l : Nat) : Bool := l < 16
/-- A scribe. -/
def scribeOk (n : Nat) : Bool := n < 64
/-- A glyph set. -/
def setOk (n : Nat) : Bool := n < 64
/-- A logical bank (R19). -/
def bankOk (b : Nat) : Bool := b < 512
/-- A row of a bank (R16). -/
def rowOk (r : Nat) : Bool := r < 32768
/-- A table identifier of 16 bits (R138). -/
def tidOk (x : Nat) : Bool := x < 65536
/-- A logical entry number of 24 bits (R21). -/
def lenOk (n : Nat) : Bool := n < 0x1000000
/-- A host ring (R519). -/
def ringOk (r : Nat) : Bool := r < 4096
/-- A stack. -/
def stackOk (n : Nat) : Bool := n < 2
/-- A doorbell slot. -/
def slotOk (n : Nat) : Bool := n < 4096
/-- A byte of a register. -/
def byteOk (n : Nat) : Bool := n < 64
/-- A line of a bank: 8,192 lines of four units. -/
def lineOk (n : Nat) : Bool := n < 8192
/-- A TAP instruction of 8 bits (R619). -/
def irOk (n : Nat) : Bool := n < 256
/-- A digit position of a selector (R249). -/
def posOk (n : Nat) : Bool := n < 320
/-- A source in its range (R178). -/
def sourceOk : Source → Bool
  | .quay q => q < 48
  | .hostRing r => r < 4096
  | .window w => w < 16
  | .seed => true
/-- A port in its range. -/
def portOk : Port → Bool
  | .quay q => q < 48
  | .east => true
  | .west => true
/-- The bytes of one record, frame or access. -/
def bytesOk (b : Bytes) : Bool := 0 < b.length && b.length ≤ 8192

/-- A readout of the eight die sensors (R641). -/
def tempsOk (xs : List Int) : Bool := xs.length == 8
/-- An occupied row with units that it holds. -/
def lossOk (x : RowLoss) : Bool := bankOk x.bank && rowOk x.row && 0 < x.units && x.units < 16

/-- Whether a command's operands lie in their ranges. -/
def Instr.wf (i : Instr) : Bool :=
  match i with
  | .powerOnReset => true
  | .mainRailsValid _ => true
  | .railSequenceTimeout => true
  | .railSequenceRetry => true
  | .discovery _ => true
  | .copyCoreReadEnd _ => true
  | .copyReadTimeout => true
  | .coreApplyComplete _ => true
  | .applyFailure => true
  | .glyphRecordVerified t _ => strokeOk t
  | .seedRecordVerified t _ _ => strokeOk t
  | .glbBootReboot t fn _ => strokeOk t && fnOk fn
  | .glbBootRetry t fn _ => strokeOk t && fnOk fn
  | .flashProgGo t fn _ => strokeOk t && fnOk fn
  | .flashProgDone t _ _ => strokeOk t
  | .tideBoundary => true
  | .commitStroke => true
  | .ppsEdge t => strokeOk t
  | .ppsLost t => strokeOk t
  | .glbTideStepArm t fn _ => strokeOk t && fnOk fn
  | .latchedRead t fn off size => strokeOk t && fnOk fn && offOk off && sizeOk size
  | .rcFieldRead t fn off size => strokeOk t && fnOk fn && offOk off && sizeOk size
  | .registerWrite t fn off data => strokeOk t && fnOk fn && offOk off && bytesOk data
  | .glbModeGo t fn _ => strokeOk t && fnOk fn
  | .setMode t src => strokeOk t && sourceOk src
  | .modePreparationDone t => strokeOk t
  | .searchRequest t src rec => strokeOk t && sourceOk src && bytesOk rec
  | .dispatch t => strokeOk t
  | .busyResult t => strokeOk t
  | .activation t _ => strokeOk t
  | .resolution t => strokeOk t
  | .hitUpdateApply t => strokeOk t
  | .realTimeReadReturn t _ _ _ => strokeOk t
  | .dataLate t => strokeOk t
  | .chainedPipeFront t => strokeOk t
  | .mirrorValidation t _ _ _ => strokeOk t
  | .assembly t => strokeOk t
  | .resultRelease t => strokeOk t
  | .tableCommand t src rec => strokeOk t && sourceOk src && bytesOk rec
  | .commandDropFrozen t src => strokeOk t && sourceOk src
  | .commandWriteApply t => strokeOk t
  | .insert t src _ => strokeOk t && sourceOk src
  | .delete t src => strokeOk t && sourceOk src
  | .modifyAd t src => strokeOk t && sourceOk src
  | .readEntry t src => strokeOk t && sourceOk src
  | .counterRead t src => strokeOk t && sourceOk src
  | .counterWrite t src => strokeOk t && sourceOk src
  | .tableCreate t src => strokeOk t && sourceOk src
  | .tableDelete t src => strokeOk t && sourceOk src
  | .tableFlush t src => strokeOk t && sourceOk src
  | .diWrite t src => strokeOk t && sourceOk src
  | .diRead t src => strokeOk t && sourceOk src
  | .trace t src => strokeOk t && sourceOk src
  | .traceActivation t _ => strokeOk t
  | .tableDigest t src => strokeOk t && sourceOk src
  | .digestRead t _ _ => strokeOk t
  | .streamOpen t src => strokeOk t && sourceOk src
  | .streamClose t src => strokeOk t && sourceOk src
  | .streamReset t src => strokeOk t && sourceOk src
  | .glyphLoad t src => strokeOk t && sourceOk src
  | .glyphUnload t src => strokeOk t && sourceOk src
  | .berthWrite t src => strokeOk t && sourceOk src
  | .berthForgive t src => strokeOk t && sourceOk src
  | .masterWrite t src => strokeOk t && sourceOk src
  | .thaw t src => strokeOk t && sourceOk src
  | .power t src => strokeOk t && sourceOk src
  | .lcChange t src _ => strokeOk t && sourceOk src
  | .keyWrap t src => strokeOk t && sourceOk src
  | .keyWrapComplete t => strokeOk t
  | .bankService t src => strokeOk t && sourceOk src
  | .pcFence t src => strokeOk t && sourceOk src
  | .laneRetire t src => strokeOk t && sourceOk src
  | .scribeService t src => strokeOk t && sourceOk src
  | .commandHeadTimeout src => sourceOk src
  | .commandCompletionTimeout => true
  | .insertPlanStep t _ _ => strokeOk t
  | .insertRollback t => strokeOk t
  | .respacing t tid _ => strokeOk t && tidOk tid
  | .chartSplit t tid pos => strokeOk t && tidOk tid && posOk pos
  | .chartMerge t tid => strokeOk t && tidOk tid
  | .resequencing t tid => strokeOk t && tidOk tid
  | .tableRelabel t tid => strokeOk t && tidOk tid
  | .mirrorBuild t => strokeOk t
  | .tableFreeing t tid => strokeOk t && tidOk tid
  | .hotPromotion t len => strokeOk t && lenOk len
  | .hotDecay => true
  | .pinnedLineFill t len => strokeOk t && lenOk len
  | .adChangeWrite t => strokeOk t
  | .pilDrain t fn _ => strokeOk t && fnOk fn
  | .pilReturn t fn _ => strokeOk t && fnOk fn
  | .bankDrainCopy t _ => strokeOk t
  | .drainComplete t => strokeOk t
  | .scrubRead t => strokeOk t
  | .scrubCompare t _ => strokeOk t
  | .repairWrite t => strokeOk t
  | .shadowStripeRebuild t _ _ => strokeOk t
  | .metaRebuild t len => strokeOk t && lenOk len
  | .lenWithheld t len => strokeOk t && lenOk len
  | .tagRestoreSearchEnd t _ => strokeOk t
  | .filterEntryExpiry => true
  | .lrnFilterFlush t fn _ => strokeOk t && fnOk fn
  | .deviceEpochAdvance => true
  | .sweepPassStart => true
  | .sweepExamine t => strokeOk t
  | .manifestCommit t _ => strokeOk t
  | .gapAdmit t => strokeOk t
  | .manifestRelease t fn _ => strokeOk t && fnOk fn
  | .manifestRewind t fn _ => strokeOk t && fnOk fn
  | .manifestMark t fn _ => strokeOk t && fnOk fn
  | .manifestWinRead t fn byte size => strokeOk t && fnOk fn && byteOk byte && sizeOk size
  | .manifestDelivery t => strokeOk t
  | .manifestDeliveryRelease t => strokeOk t
  | .streamChunk t src rec => strokeOk t && sourceOk src && bytesOk rec
  | .chunkAssignment => true
  | .streamStateReadReturn t scribe _ => strokeOk t && scribeOk scribe
  | .streamStateReadLate scribe => scribeOk scribe
  | .chunkRun t scribe => strokeOk t && scribeOk scribe
  | .chunkWatchdog scribe => scribeOk scribe
  | .chunkReport scribe => scribeOk scribe
  | .glyphCopyDone t set => strokeOk t && setOk set
  | .partitionLoadDone t set => strokeOk t && setOk set
  | .scbGlyphLoad t fn _ => strokeOk t && fnOk fn
  | .scbGlyphUnload t fn _ => strokeOk t && fnOk fn
  | .scbScribeOffline t fn _ => strokeOk t && fnOk fn
  | .scbScribeOnline t fn _ => strokeOk t && fnOk fn
  | .fold t => strokeOk t
  | .foldReadReturn t len _ => strokeOk t && lenOk len
  | .telCntWrite t fn data => strokeOk t && fnOk fn && bytesOk data
  | .telCntRead t fn byte size => strokeOk t && fnOk fn && byteOk byte && sizeOk size
  | .countReadReturn t _ => strokeOk t
  | .queueSampleCapture => true
  | .samplePost t => strokeOk t
  | .telemetryDelivery t => strokeOk t
  | .captureRestart t fn _ => strokeOk t && fnOk fn
  | .bthForgive t fn _ => strokeOk t && fnOk fn
  | .secThaw t fn _ => strokeOk t && fnOk fn
  | .autoThaw => true
  | .tamperTrip t _ => strokeOk t
  | .tamperHoldEnd => true
  | .entropyHealthFail t => strokeOk t
  | .debugToken t _ _ => strokeOk t
  | .tapInstruction ir => irOk ir
  | .quyEnable t fn _ => strokeOk t && fnOk fn
  | .quyReset t fn _ => strokeOk t && fnOk fn
  | .quyRetrain t fn _ => strokeOk t && fnOk fn
  | .laneLock t p => strokeOk t && portOk p
  | .laneLockTimeout t p lane => strokeOk t && portOk p && laneOk lane
  | .codewordLock t p => strokeOk t && portOk p
  | .alignTimeout t p => strokeOk t && portOk p
  | .init t p _ => strokeOk t && portOk p
  | .initDone t p => strokeOk t && portOk p
  | .initTimeout t p => strokeOk t && portOk p
  | .frameReceive t p _ frame => strokeOk t && portOk p && bytesOk frame
  | .replayTimeout t p => strokeOk t && portOk p
  | .livenessTimeout t p => strokeOk t && portOk p
  | .laneLossOfLock t p lane => strokeOk t && portOk p && laneOk lane
  | .serLimitExceeded t p lane => strokeOk t && portOk p && laneOk lane
  | .laneBad t p lane => strokeOk t && portOk p && laneOk lane
  | .widthAck t p => strokeOk t && portOk p
  | .retrainLock t p lane => strokeOk t && portOk p && laneOk lane
  | .ringRecordLaunch t => strokeOk t
  | .ringSearchRecord t rec => strokeOk t && bytesOk rec
  | .ringRecordLate t => strokeOk t
  | .censusProbeLaunch => true
  | .census t msg => strokeOk t && bytesOk msg
  | .censusTimeout t => strokeOk t
  | .forceProbeTimeout t => strokeOk t
  | .rngJoin t fn _ => strokeOk t && fnOk fn
  | .rngLeave t fn _ => strokeOk t && fnOk fn
  | .leaveComplete t => strokeOk t
  | .doorbell t fn slot data => strokeOk t && fnOk fn && slotOk slot && bytesOk data
  | .hstRingEnable t fn _ => strokeOk t && fnOk fn
  | .hstRingReset t fn _ => strokeOk t && fnOk fn
  | .ringFetch t ring rec => strokeOk t && ringOk ring && bytesOk rec
  | .hostRingWrite t ring => strokeOk t && ringOk ring
  | .peerWindowTlp t off data => strokeOk t && offOk off && bytesOk data
  | .hstWinCommit t fn _ => strokeOk t && fnOk fn
  | .flr t fn => strokeOk t && fnOk fn
  | .flrComplete fn => fnOk fn
  | .perstNAssert => true
  | .hotReset => true
  | .linkDown => true
  | .linkUp _ _ _ => true
  | .completionTimeout t _ => strokeOk t
  | .lateCpl t => strokeOk t
  | .refreshDue pc => pcOk pc
  | .stackTempReadout t stack _ => strokeOk t && stackOk stack
  | .verifyStart pc => pcOk pc
  | .verifyEnd t pc _ => strokeOk t && pcOk pc
  | .rebuildStripes t _ => strokeOk t
  | .dramCommandWatchdog t pc => strokeOk t && pcOk pc
  | .pwrWakeRegister t fn _ => strokeOk t && fnOk fn
  | .pwrIdleRequest t fn _ => strokeOk t && fnOk fn
  | .pwrLowStateRequest t fn _ => strokeOk t && fnOk fn
  | .autoIdleEntry => true
  | .idleWake t => strokeOk t
  | .entryDrainEnd => true
  | .bulkFold _ => true
  | .entryComplete => true
  | .rtcAlarm _ => true
  | .perstNWake => true
  | .exitComplete _ lost => lost.all lossOk
  | .exitLaneTimeout t p => strokeOk t && portOk p
  | .pwrDomainReset t fn _ => strokeOk t && fnOk fn
  | .domainResetEnd => true
  | .mgmtWatchdog t => strokeOk t
  | .fltWinRead t fn byte size => strokeOk t && fnOk fn && byteOk byte && sizeOk size
  | .faultLogDelivery t => strokeOk t
  | .dieTempReadout t temps => strokeOk t && tempsOk temps
  | .aryBistGo t fn _ => strokeOk t && fnOk fn
  | .bistComplete t _ line => strokeOk t && lineOk line
  | .getIdent => true
  | .getState => true
  | .getDieTemp => true
  | .getStackTemp => true
  | .getTamper => true
  | .wake t => strokeOk t
  | .copyHeaderKeysReadEnd _ => true
  | .frameTransmit t p => strokeOk t && portOk p
  | .shadowWriteComplete t bank line => strokeOk t && bankOk bank && lineOk line
  | .urOrCaCompletion t ring => strokeOk t && ringOk ring
  | .ringRecordForward t => strokeOk t
  | .mirrorCopyFreeing t => strokeOk t
  | .hotWayDemotion t => strokeOk t
  | .quadrantRowRewrite t bank row => strokeOk t && bankOk bank && rowOk row
  | .vddAonRemoved => true
  | .hostDmaAccess t _ _ _ data => strokeOk t && bytesOk data
  | .vfEnable _ numVfs => fnOk numVfs
  | .tapTestLogicReset => true

end Sys2Proof
end

