-- ==== Sys2Proof/Tests/Slice0.lean ====
section
/-! SUPPORT. The model's own tests. -/
namespace Sys2Proof.Tests
open Sys2Proof Sys2Proof.Machine
set_option Elab.async false
set_option maxRecDepth 100000
set_option linter.unusedVariables false

/-- A state in Serving: grid tide 10, the rails valid, the PCIe link up with 4 virtual functions. -/
def base : State :=
  { State.reset with
    clock := { Clock.reset with grid := 10, count := 10 }
    boot := { Boot.reset with
      stage := 5, powerOn := false, glyphDone := true, seedDone := true
      device := { DeviceRec.reset with permitted := 255 } }
    power := { Power.reset with railsValid := true, pcieReset := false }
    host := { HostIf.reset with pcie := ⟨1, 6, 4, 2, true⟩, linkUp := true, gen := 6, width := 8, flit := true, numVfs := 4 } }

/-- A command record in form, of berth 0, for the source `cmdSrc`. -/
def cmd (op tid handle : Nat) (body : Bytes) : Cmd :=
  ⟨[BitVec.ofNat 8 0x30, BitVec.ofNat 8 op] ++ leBytes ((16 + body.length) / 8) 2 ++ leBytes 0 2 ++ leBytes tid 2 ++ leBytes 7 4 ++
    leBytes handle 4 ++ body, 0, 0, none, 2, false⟩

/-- Host ring 1 of the physical function sends the commands. -/
def cmdSrc : Source := .hostRing 1

/-- A command at the head of its FIFO. -/
def withCmd (s : State) (c : Cmd) : State := { s with cmds := { s.cmds with fifos := [(sourceKey cmdSrc, [c])] } }

/-- A word with these fields. -/
def wordOf (fs : List (Fld × Nat)) : Word64 := BitVec.ofNat 64 (fs.foldl (fun a p => a + p.2 * 2 ^ p.1.lo) 0)

/-- The state with the fields of a register write stored. -/
def stored (s : State) (t : Nat) (r : Reg) (i : Nat) (w : Word64) : State := ((s.at t).storeFields r i w.toNat fullMask []).1

/-- The entries of a DRAM_SETS record with one set, valid for every pseudo-channel. -/
def setEntry : Bytes := zeros 91 ++ [1] ++ zeros 36

def setEntries : Nat → Bytes
  | 0 => []
  | n + 1 => setEntry ++ setEntries n

def deviceBytes : Bytes := [0x01, 0x01, 0, 0, 0xFF] ++ zeros 11
def setsBytes : Bytes := [0x02, 0x01, 0, 0, 1] ++ zeros 11 ++ setEntries 64
def firmwareBytes : Bytes := [0x03, 0x01, 0, 0]
def linksBytes : Bytes := [0x04, 0x01, 0, 0] ++ zeros 12 ++ (List.replicate 12 ([3] ++ zeros 15)).flatten
def pcieBytes : Bytes := [0x05, 0x01, 0, 0, 4, 6, 4, 0, 2, 1] ++ zeros 6

theorem setEntries_length (n : Nat) : (setEntries n).length = 128 * n := by
  induction n with
  | zero => rfl
  | succ n ih =>
    show (setEntry ++ setEntries n).length = _
    rw [List.length_append, ih, show setEntry.length = 128 from rfl]; omega

theorem setEntries_drop (n k : Nat) (h : k ≤ n) : (setEntries n).drop (128 * k) = setEntries (n - k) := by
  induction k generalizing n with
  | zero => rfl
  | succ k ih =>
    obtain ⟨m, rfl⟩ : ∃ m, n = m + 1 := ⟨n - 1, by omega⟩
    have : (setEntries (m + 1)).drop 128 = setEntries m := List.drop_left' (by rfl)
    rw [show 128 * (k + 1) = 128 + 128 * k by omega, ← List.drop_drop, this, ih m (by omega)]
    congr 1; omega

theorem sets_drop (e : Nat) (h : e < 64) :
    ∃ m, setsBytes.drop (16 + 128 * e) = setEntry ++ setEntries m := by
  refine ⟨63 - e, ?_⟩
  have : setsBytes.drop 16 = setEntries 64 := rfl
  rw [← List.drop_drop, this, setEntries_drop _ _ (by omega), show 64 - e = (63 - e) + 1 by omega]
  rfl

theorem sets_byte (e j : Nat) (he : e < 64) (hj : j < 128) :
    byteAt setsBytes (16 + 128 * e + j) = byteAt setEntry j := by
  obtain ⟨m, hm⟩ := sets_drop e he
  unfold byteAt
  rw [← List.getElem?_drop, hm, List.getElem?_append_left (by show j < 128; exact hj)]

theorem test_dram_sets_valid : dramSetsValid setsBytes = true := by
  have entry : ∀ e, e < 64 → (let x := setsBytes.drop (16 + 128 * e); byteAt x 90 < 16 && byteAt x 91 < 2 && zerosAt x 92 36) = true := by
    intro e he
    obtain ⟨m, hm⟩ := sets_drop e he
    dsimp only
    rw [hm]
    rfl
  have head : byteAt setsBytes 4 = 1 := rfl
  have sets : ∀ p, p < 64 → (setsOf setsBytes p).contains 0 = true := by
    intro p hp
    unfold setsOf
    rw [head]
    have : byteAt setsBytes (16 + 128 * (1 * p + 0) + 91) = 1 := by
      rw [show 16 + 128 * (1 * p + 0) + 91 = 16 + 128 * p + 91 by omega, sets_byte p 91 hp (by omega)]; rfl
    simpa [List.range_succ] using this
  have long : setsBytes.length = 16 + 8192 * 1 := by
    show ([0x02, 0x01, 0, 0, 1] ++ zeros 11 ++ setEntries 64).length = _
    rw [List.length_append, setEntries_length]; rfl
  unfold dramSetsValid
  rw [head]
  dsimp only
  rw [long, List.all_eq_true.2 (fun e he => entry e (by simpa using he)), List.all_eq_true.2 (fun p hp => sets p (by simpa using hp))]
  rfl

def coreRecs : List Bytes := [deviceBytes, setsBytes, firmwareBytes, linksBytes, pcieBytes]

theorem core_ok (s : State) : s.coreOk coreRecs = true := by
  unfold State.coreOk coreRecs
  dsimp only
  rw [show afterFirmware [firmwareBytes, linksBytes, pcieBytes] = some [linksBytes, pcieBytes] by decide +kernel]
  dsimp only
  rw [test_dram_sets_valid, show deviceValid deviceBytes = true by decide +kernel, show linksValid linksBytes = true by decide +kernel,
    show pcieValid pcieBytes = true by decide +kernel]
  rfl

/-- One entry of a section table. -/
def sectionEntry (typ sealed_ count off len : Nat) (digest : Bytes) : Bytes :=
  leBytes typ 1 ++ leBytes sealed_ 1 ++ leBytes count 2 ++ leBytes off 4 ++ leBytes len 4 ++ zeros 4 ++ digest

/-- The first 64 bytes of a header, written out from the layout of R87: two sections. -/
def headerStart : Bytes :=
  [0x41, 0x4C, 0x53, 0x52, 0x53, 0x43, 0x52, 0x4C, 0x02, 0x00, 0x00, 0x10, 0, 0, 0, 0, 41, 0, 0, 0, 0, 0x0E, 0x80, 0x12,
    0x10, 0x10, 2, 0, 0, 0, 0, 0] ++ zeros 32

/-- A public key: the base point of P-384. -/
def pointKey : Bytes := [4] ++ beBytes gx384 48 ++ beBytes gy384 48

/-- A header whose checks pass: KEYS at 4,096 and CORE of 5 records at 8,192. The owner key is `pointKey`, and the signature
was computed apart from the model. -/
def header : HeaderRead :=
  { bytes := headerStart ++
      (sectionEntry 4 0 1 4096 72 (beBytes
        0x22ab5f853459d9442935ac041bf5a4ec39234b9ce2d411580633f9814985ac801020c4b00ab5c0ce1cafbb4d2e44fcd1 48) ++
      sectionEntry 1 1 5 8192 16384 (zeros 48)) ++ zeros 128 ++ pointKey ++ zeros 3583 ++
      (beBytes 0xaa87ca22be8b05378eb1c71ef320ad746e1d3b628ba79b9859f741e082542a385502f25dbf55296c3a545e3872760ab7 48 ++ beBytes
        0x8b12e775d34a2ffeae3f163598880e03733db4e03d46a7c8c04785d67aa560d171dc383eaa76a98da9be5c75cef5b748 48)
    keyBytes := [1, 0, 0, 0, 0, 0, 0, 0, 0, 0, 1, 40, 0, 0, 0, 0] ++
      beBytes 0x97317494343807e690fd1e431413963dc0e3deb4907fb89fa36ce65126d0ea1301381fb3a2941e2f 40 ++ zeros 16 }

/-- The SHA-384 of that owner key. -/
def ownerHash : Bytes := beBytes
  0x8c4f262412b7f9ed867606705a130de5212fd048fbaf8c3842f4a240f4b45ba0c90f82194ccdda3ed89c96b0afe1d51d 48

/-- A header that gives a section of one type alone. -/
def oneSection (typ count len : Nat) (digest : Bytes) : HeaderRead :=
  ⟨[0x41, 0x4C, 0x53, 0x52, 0x53, 0x43, 0x52, 0x4C, 0x02, 0x00, 0x00, 0x10, 0, 0, 0, 0, 41, 0, 0, 0, 0, 0x0E, 0x80, 0x12,
    0x10, 0x10, 1, 0, 0, 0, 0, 0] ++ zeros 32 ++ leBytes typ 1 ++ [1] ++ leBytes count 2 ++ leBytes 8192 4 ++ leBytes len 4 ++ zeros 4 ++
    digest, []⟩

/-- `base` in another stage of boot. -/
def inStage (n : Nat) : State :=
  { base with
    boot := { base.boot with stage := n, glyphDone := false, seedDone := false }
    fuses := { base.fuses with lifeCycle := 1, ownerHash := ownerHash }, security := { base.security with kek := zeros 32 } }

/-- Records sealed as a CORE section of `header`'s sequence, under the scroll key of 32 zeros. -/
def coreSealed (recs : List Bytes) : Bytes := sealRecords (roundKeys (zeros 32)) 1 41 0 (recs.map (fun r => (zeros 12, r)))

/-- A header whose CORE section is these records. -/
def coreHeader (recs : List Bytes) : HeaderRead := oneSection 1 recs.length 16384 (sha384 (coreSealed recs))

/-- Read A with that header held. -/
def readingCore (h : HeaderRead) : State :=
  { inStage 2 with
    boot := { (inStage 2).boot with header := some h }, security := { (inStage 2).security with keys := [⟨0, 1, zeros 32⟩] } }

theorem core_digest (recs : List Bytes) : sha384 (coreSealed recs) = digestOf (coreHeader recs) 1 := by
  have e : digestOf (coreHeader recs) 1 = ((coreHeader recs).bytes.drop 80).take 48 := rfl
  rw [e]
  unfold coreHeader oneSection
  rw [List.drop_left' (by simp [length_leBytes, length_zeros])]
  rw [List.take_of_length_le (by simp)]

theorem core_records (recs : List Bytes) (h : ∀ r ∈ recs, 1 ≤ r.length ∧ r.length ≤ 65536) :
    (readingCore (coreHeader recs)).coreRecords (coreHeader recs) (coreSealed recs) = recs.map some := by
  have := State.coreRecords_sealRecords (readingCore (coreHeader recs)) (coreHeader recs) (recs.map (fun r => (zeros 12, r))) (by
    intro r hr
    obtain ⟨x, hx, rfl⟩ := List.mem_map.1 hr
    exact ⟨rfl, h x hx⟩)
  rw [List.map_map] at this
  exact this

theorem core_verifies (recs : List Bytes) (h : ∀ r ∈ recs, 1 ≤ r.length ∧ r.length ≤ 65536) (hn : recs.length < 65536) :
    (readingCore (coreHeader recs)).coreVerifies (coreHeader recs) (coreSealed recs) = true := by
  have e : sectionOf (coreHeader recs) 1 = some ⟨1, 1, recs.length % 256 + 256 * (recs.length / 256 % 256), 8192, 16384⟩ := rfl
  unfold State.coreVerifies
  rw [core_records recs h, e]
  simp
  omega

theorem core_filtered (recs : List Bytes) (h : ∀ r ∈ recs, 1 ≤ r.length ∧ r.length ≤ 65536) :
    ((readingCore (coreHeader recs)).coreRecords (coreHeader recs) (coreSealed recs)).filterMap id = recs := by
  rw [core_records recs h]
  simp

theorem coreRecs_lengths : ∀ r ∈ coreRecs, 1 ≤ r.length ∧ r.length ≤ 65536 := by
  have long : setsBytes.length = 8208 := by
    show ([0x02, 0x01, 0, 0, 1] ++ zeros 11 ++ setEntries 64).length = _
    rw [List.length_append, setEntries_length]; rfl
  intro r hr
  simp only [coreRecs, List.mem_cons, List.not_mem_nil, or_false] at hr
  rcases hr with rfl | rfl | rfl | rfl | rfl
  · decide
  · rw [long]; decide
  · decide
  · decide
  · decide

/-- Serving, with the GLYPH or the SEED section of one record more than `k` still to read. -/
def inSection (typ : Nat) : State :=
  { inStage 5 with
    boot := { (inStage 5).boot with
      header := some (oneSection typ 2 65536 (zeros 48)), scrollSeq := 41, glyphDone := typ == 3 }
    security := { (inStage 5).security with keys := [⟨0, 1, zeros 32⟩] } }

/-- A record of a section, sealed. -/
def sealedRec (typ : Nat) (text : Bytes) : Bytes := sealRecord (roundKeys (zeros 32)) typ 0 41 (zeros 12) text

theorem section_opens (typ : Nat) (text : Bytes) (h1 : 4 ≤ text.length) (h2 : text.length ≤ 65536) :
    (inSection typ).openRecord typ 0 (sealedRec typ text) = some (text.drop 4) :=
  (inSection typ).openRecord_sealRecord typ 0 (zeros 12) text rfl h1 h2

theorem section_goes_on (typ : Nat) (text : Bytes) (hl : text.length ≤ 1024) (ht : typ = 2 ∨ typ = 3) :
    (inSection typ).sectionEnd typ 1 (sealedRec typ text) = 0 := by
  have e : (inSection typ).boot.header.bind (fun h => (sectionOf h typ).map (fun x => (x, digestOf h typ))) =
      some (⟨typ, 1, 2, 8192, 65536⟩, zeros 48) := by
    rcases ht with rfl | rfl <;> decide +kernel
  have l := length_sealRecord (roundKeys (zeros 32)) typ 0 41 (zeros 12) text rfl
  unfold State.sectionEnd
  rw [e]
  have b : (inSection typ).boot.sectionBytes = [] := rfl
  simp only [b, List.nil_append, sealedRec, l]
  rw [if_pos (by omega)]

/-- A class T table of one unit with 8 bytes of associated data, in bank 5. -/
def ternDef : TableDef :=
  { tid := 1, cls := 0, width := 0, adSize := 1, evict := 0, hot := 0, seedGate := false, ringSpan := false, learn := false, ageEn := true
    autoRemove := true, zeroMiss := false, owner := 0, ageLimit := 2, indexBits := 0, quota := 0, depth := 0 }
/-- A direct-index table of 10 entries of 8 bytes. -/
def directDef : TableDef :=
  { tid := 0x8000, cls := 0, width := 0, adSize := 0, evict := 0, hot := 0, seedGate := false, ringSpan := false, learn := false
    ageEn := false, autoRemove := false, zeroMiss := true, owner := 0, ageLimit := 0, indexBits := 4, quota := 0, depth := 10 }
def ternTable : TableRec := { TableRec.fresh ternDef .live [] 0 false with chart := ⟨[], [[5]], [], 0, false⟩, units := 1, counter := 4 }
def directTable : TableRec := TableRec.fresh directDef .live [0] 0 false

/-- The key of the entry: every digit is compared. -/
def keyBits : Digits := BitVec.ofNat 320 0x1234
/-- A live entry in row 9 of bank 5. -/
def anEntry : Entry := ⟨1, 1, 1, .live, 5, 9, 100, 3, 3, keyBits, allDigits 1, 0, true⟩
def aTag : Tag := ⟨.live, false, 1, 1, 7, 100, 3⟩

/-- A berth with every right on both tables. -/
def aBerth : BerthRec := { BerthRec.reset with glyphMask := 2 ^ 64 - 1, grants := [⟨0, 1, true, true, true⟩, ⟨1, 0x8000, true, true, true⟩] }

/-- `base` with two tables, an entry, a berth, a glyph set and an open stream. -/
def world : State :=
  { base with
    tables := [(1, ternTable), (0x8000, directTable)]
    berths := [(0, { Berth.reset with record := aBerth })]
    numbers := { State.reset.numbers with entries := [(7, anEntry)], gens := [(7, 1)], fresh := 8 }
    arrays := { Arrays.reset with
      tags := [(rowKey (ownSlot 5) 9, aTag)]
      units := [(rowKey (ownSlot 5) 9, ⟨BitVec.ofNat 80 0x1234, BitVec.ofNat 80 (2 ^ 80 - 1)⟩)]
      spans := [(5 * 512, ⟨1, 1⟩)] }
    diram := [(24, 0x55)]
    security := { Security.reset with rootKeys := true, selfTestOk := true }
    scribes := { State.reset.scribes with
      glyphs := [(3, { Glyph.reset with state := .admitted, imageLen := 4096, partLog2 := 1 })], streams := [(0, ⟨1, 3, 0⟩)], fresh := 1 } }

/-- `world` in life-cycle state 1, with the SHA-384 of `pointKey` in the fuses. -/
def ownedWorld : State := { world with fuses := { world.fuses with lifeCycle := 1, ownerHash := ownerHash } }

/-- The signature of a token that takes it to life-cycle state 2, computed apart from the model. -/
def tokenSignature : Bytes :=
  beBytes 0xaa87ca22be8b05378eb1c71ef320ad746e1d3b628ba79b9859f741e082542a385502f25dbf55296c3a545e3872760ab7 48 ++
  beBytes 0x26f8048d719ae12a58d9594f8cf549ccb5d3b80a3dbaafe525ec4ddfc83e929e38249b33aa5d67b90822581dec9c3c8c 48

/-- The signature of a debug token for the challenge of 32 zeros, computed apart from the model. -/
def debugSignature : Bytes :=
  beBytes 0xaa87ca22be8b05378eb1c71ef320ad746e1d3b628ba79b9859f741e082542a385502f25dbf55296c3a545e3872760ab7 48 ++
  beBytes 0x4e17c96e60f71b1c3b4ea5aaf630e83cfe9e38a9e0077a2cd95ce5f100bba7d4cd233207a82c7951300f5fdc8abb2b84 48

/-- The handle of the entry, and of the stream. -/
def aHandle : Nat := 2 ^ 24 + 7
def aStream : Nat := 2 ^ 20

/-- The only command accepted, to be applied in this tide. -/
def withAccepted (s : State) (c : Cmd) : State :=
  { s with cmds := { s.cmds with
    accepted := [⟨4, cmdSrc, c.record, 0, 2, 10, 10, false, none, none, 0⟩], nextId := 5 } }
def acceptedOf (c : Cmd) : Accepted := ⟨4, cmdSrc, c.record, 0, 2, 10, 10, false, none, none, 0⟩

/-- A flight that places a new entry 8 in row 11 of bank 5. -/
def aFlight : Insertion :=
  { id := 4, tid := 1, len := 8, gen := 1, tide := 10, bound := 16, keyHi := 90, keyLo := 4, value := keyBits, mask := allDigits 1
    ad := zeros 8, plan := ⟨5, 11, [], [], false⟩, nextStep := 0, stepTide := 10, victim := none, victimHandle := 0, victimCount := 0
    lastWrite := none, rollback := none, relabels := [], rolledBack := false, evicted := false }
def withFlight (f : Insertion) : State :=
  { world with
    numbers := { world.numbers with
      entries := [(7, anEntry), (8, { anEntry with state := .placing, row := 11, keyHi := 90, keyLo := 4, seq := 4 })]
      gens := [(7, 1), (8, 1)], fresh := 9 }
    cmds := { world.cmds with
      flights := [f], accepted := [⟨4, cmdSrc, (cmd 1 1 0 []).record, 0, 2, 10, 10, true, none, none, 0⟩], nextId := 5 } }

/-- `world` with another record of its ternary table. -/
def withTable (tb : TableRec) : State := { world with tables := [(1, tb)] }

/-- A quay that is UP, with room in every pool and at its peer. -/
def upQuay : Link :=
  { Link.configured 4 1 0 15 [256, 256, 256, 256, 256, 256] none 2 1 with
      state := .up, width := 4, limits := [256, 256, 256, 256, 256, 256], peerLimit := 2048 }
def onQuay (l : Link) : State := { world with links := { world.links with quays := [(0, l)] } }

/-- A search request of one or more lookups with a key of two words. -/
def searchRec (descs : List Nat) : Bytes :=
  [0x10, BitVec.ofNat 8 (4 * descs.length), 0, 0, 2, 0, 0, 0] ++ (descs.map (fun d => leBytes d 2)).flatten ++ zeros (8 - 2 * descs.length) ++
    [0x34, 0x12] ++ zeros 14
def aReq : Request := ⟨.quay 0, 0, 2490, 9, 1, searchRec [0], 0, false, false⟩
/-- A lookup of the ternary table, and one of the direct-index table. -/
def aLook : Look := { Look.start 0 10 with df := some ternDef, key := keyBits, banks := [5], tid := 1 }
def dLook : Look := { Look.start 128 10 with df := some directDef, tid := 0x8000 }
def aSearch (looks : List Look) : Search :=
  { id := 4, req := aReq, d := some 2000, pipe := 0, mode := 0, extra := 0, ring := false, epoch := 0, split := false, first := 0, half := false, status := none
    looks := looks, activated := true, resolved := false, chainActivated := false, chainResolved := false, assembled := none }
/-- `world` with one search in flight. -/
def withSearch (f : Search) : State := { world with search := { world.search with flights := [f] } }
/-- `world` with one request that waits. -/
def withReq (r : Request) : State := { world with search := { world.search with waiting := [r] } }
def aCand : Cand := ⟨5, 9, 7, 1, 100, 3⟩
/-- `world` with host ring 3 and the fields of its control register. -/
def withRing (size kind : Nat) (x : HostRing) : State :=
  ((({ world with host := { world.host with rings := [(3, x)] } } : State).setFld Fld.HST_RING_CTL_size_log2 size 3).setFld
    Fld.HST_RING_CTL_kind kind 3).setFld Fld.HST_RING_CTL_en 1 3

/-- A search in flight over `world`, with the shadow and the metadata line of the entry written. -/
def shadowed (f : Search) : State :=
  ((withSearch f).writeMeta 7 anEntry 1).dramWrite (shadowAddr (5 * 32768 + 9)) (leBytes 0x1234 10 ++ leBytes (2 ^ 80 - 1) 10)

/-- The header of a glyph image of 4,096 bytes with no hot part. -/
def glyphHead : Bytes :=
  glyphMagic ++ leBytes 1 2 ++ leBytes 0x1280 2 ++ zeros 4 ++ leBytes 0 4 ++ leBytes 256 4 ++ leBytes 256 4 ++ leBytes 128 4 ++
    beBytes 0xf809b88323411f24a6f152e5e9d9d1b5466b77e0f3c7550f8b242c31b6e7b99bcb45bdecb6124bc23283db3b9fc4f5b3 48
/-- Glyph slot 4 loads, and its image begins with these bytes. -/
def withGlyph (g : Glyph) (head : Bytes) : State := (world.setGlyph 4 g).dramWrite (glyphAddr 4) head
/-- `world` where command requests are authenticated. -/
def authWorld : State := { world with boot := { world.boot with device := { world.boot.device with cmdAuth := true } } }
/-- A stream chunk of 4 bytes, with its sequence and berth. -/
def chunkRec (seq berth : Nat) : Bytes :=
  [0x20, 0, 4, 0] ++ leBytes aStream 3 ++ [0] ++ leBytes seq 4 ++ leBytes berth 2 ++ zeros 2 ++ zeros 8
def aChunk (rec_ : Bytes) : Chunk := ⟨.quay 0, 2000, 0, 3, 0, rec_, 0, false⟩
/-- Scribe 0 holds one chunk. -/
def withWork (s : State) (a : Assigned) : State :=
  { s with scribes := { s.scribes with scribes := [(0, { Scribe.reset with work := [a] })] } }
/-- `onQuay` a long time later. -/
def lateQuay (l : Link) : State := { onQuay l with clock := { world.clock with grid := 100000 } }
/-- The lanes of a quay where the first is being retrained. -/
def retrainLanes : List Lane := ⟨true, false, false, 0, true, 0⟩ :: List.replicate 3 ⟨true, true, false, 0, false, 0⟩

/-- A DATA frame with its check: its sequence number, start bits and payload. -/
def dataFrame (seq flags starts : Nat) (payload : Bytes) : Bytes :=
  let body := leBytes seq 3 ++ leBytes 0 3 ++ [BitVec.ofNat 8 flags, 0] ++ leBytes 256 2 ++ leBytes starts 5 ++ [0] ++ payload ++
    zeros (300 - payload.length)
  body ++ leBytes (crc32 body) 4
/-- `world` with the ring joined, member 0 of 2, both ring links UP. -/
def ringWorld : State :=
  { world with
    links := { world.links with record := { world.links.record with ringEnable := true, member := 0, members := 2 }, east := upQuay, west := upQuay }
    ring := { world.ring with joined := true, gatesOpen := true, solo := false, epoch := ⟨5, 3, 0⟩, previous := ⟨4, 3, 0⟩ } }
/-- A RING_LOOKUP record: its origin and hop count, ring epoch and tag. -/
def ringRec (origin hop epoch tag : Nat) : Bytes :=
  [0x18, BitVec.ofNat 8 (4 * origin + 32 * hop), 0, 0, 0, 0, BitVec.ofNat 8 epoch, 0] ++ leBytes tag 4 ++ zeros 52
def aLaunch : Launch := ⟨9, 4, 0, zeros 40, none, 2000, false⟩
/-- A census message. -/
def census (commit : Bool) (launcher number present weight2 : Nat) : Bytes :=
  [6, BitVec.ofNat 8 (b2n commit + 4 * launcher)] ++ leBytes number 2 ++ [BitVec.ofNat 8 present, BitVec.ofNat 8 weight2] ++ zeros 10
/-- `world` in an entry to a low-power state. -/
def entering (e : PowerEntry) : State := { world with power := { world.power with entry := some e } }
/-- `world` in a power state. -/
def inPower (n : Nat) : State := { world with power := { world.power with state := n } }

/-- Each check of the well-formed commands refuses a command that breaks it, and nothing else of that command is wrong. -/
theorem test_wf_refuses :
    ([.ppsEdge 256, .glbModeGo 0 256 0, .latchedRead 0 0 0x4000000 8, .latchedRead 0 0 0 0, .latchedRead 0 0 0 65,
      .setMode 0 (.quay 48), .setMode 0 (.hostRing 4096), .setMode 0 (.window 16), .laneLock 0 (.quay 48),
      .refreshDue 64, .laneBad 0 .east 16, .streamStateReadLate 64, .glyphCopyDone 0 64, .quadrantRowRewrite 0 512 0,
      .quadrantRowRewrite 0 0 32768, .respacing 0 65536 [], .metaRebuild 0 0x1000000, .hostRingWrite 0 4096,
      .stackTempReadout 0 2 800, .doorbell 0 0 4096 (zeros 8), .manifestWinRead 0 0 64 8, .bistComplete 0 0 8192,
      .tapInstruction 256, .chartSplit 0 0 320, .census 0 [], .dieTempReadout 0 [1, 2, 3], .exitComplete 0 [⟨0, 0, 0⟩],
      .exitComplete 0 [⟨0, 0, 16⟩]] : List Instr).all (fun i => !i.wf) = true := by decide

/-- At the ends of the ranges the same commands are well-formed. -/
theorem test_wf_accepts :
    ([.ppsEdge 255, .glbModeGo 0 255 0, .latchedRead 0 0 0x3FFFFF8 8, .latchedRead 0 0 0 64, .setMode 255 (.quay 47),
      .setMode 0 (.hostRing 4095), .setMode 0 (.window 15), .refreshDue 63, .laneBad 0 .east 15, .streamStateReadLate 63,
      .glyphCopyDone 0 63, .quadrantRowRewrite 0 511 32767, .respacing 0 65535 [], .metaRebuild 0 0xFFFFFF, .hostRingWrite 0 4095,
      .stackTempReadout 0 1 800, .manifestWinRead 0 0 63 8, .bistComplete 0 0 8191, .tapInstruction 255, .chartSplit 0 0 319,
      .dieTempReadout 0 (List.replicate 8 800), .exitComplete 0 [⟨0, 0, 15⟩]] : List Instr).all (fun i => i.wf) = true := by decide

/-- The table gives no row bits, so no word spells a command, and none is put in front. -/
theorem test_decode_nothing (nbits w : Nat) : decodeTableWord nbits w = none := rfl
theorem test_fetch_nothing (s : State) (nbits w : Nat) : s.withFetchWord nbits w = s := rfl

/-- The lowest coefficients of the generator polynomial of RS(544,514) (IEEE 802.3 Clause 91). -/
theorem test_rs_generator : rsGenerator.reverse.take 4 = [523, 834, 128, 158] := by decide +kernel

/-- The control of codeword 0x1234 on four lanes (R449). -/
theorem test_codeword_control : codewordControl 0x1234 1 = 0x11234 := by decide

/-- Symbol 9 travels on lane 1 of eight, its lowest bit pair first (R450). -/
theorem test_symbol_lane : symbolLane 8 9 = 1 ∧ bitPairs 0x2B1#10 = [1, 0, 3, 2, 2] := by decide

/-- The check value of the CRC-32 of IEEE 802.3, which R453's frames carry: that of the ASCII digits 1 to 9. -/
theorem test_crc32 : crc32 [0x31, 0x32, 0x33, 0x34, 0x35, 0x36, 0x37, 0x38, 0x39] = 0xCBF43926 := by decide +kernel

/-- The SHA-384 of the three characters abc (FIPS 180-4's example). -/
theorem test_sha384 : sha384 [0x61, 0x62, 0x63] = beBytes
    0xcb00753f45a35e8bb5a03d699ac65007272c32ab0eded1631a8b605a43ff5bed8086072ba1e7cc2358baeca134c825a7 48 := by decide +kernel

/-- The AES-256 example of FIPS 197, appendix C.3. -/
theorem test_aes256 : aesBlock (roundKeys (beBytes 0x000102030405060708090a0b0c0d0e0f101112131415161718191a1b1c1d1e1f 32))
    (beBytes 0x00112233445566778899aabbccddeeff 16) = beBytes 0x8ea2b7ca516745bfeafc49904b496089 16 := by decide +kernel

/-- On an empty queue the block idles. -/
theorem test_idle : step State.reset = .next State.reset := rfl

/-- The hypotheses of StepTakesTheFront are met, those of each clause. -/
theorem test_hypotheses_StepTakesTheFront :
    (∃ (s : State) (c : Instr) (rest : List Instr), s.pending = c :: rest) ∧
    (∃ (s : State), s.pending = []) := by
  repeat' refine And.intro ?_ ?_
  · refine ⟨{ base with pending := [.hotDecay] }, .hotDecay, [], ?_⟩
    decide +kernel
  · refine ⟨base, ?_⟩
    decide +kernel

/-- The hypotheses of PinsFollowEveryStep are met. -/
theorem test_hypotheses_PinsFollowEveryStep :
    ∃ (s : State), PinsFollow s := by
  refine ⟨State.reset, ?_⟩
  (first | decide +kernel | (unfold PinsFollow; decide +kernel))

/-- The hypotheses of DramKeepsItsForm are met, those of each clause. -/
theorem test_hypotheses_DramKeepsItsForm :
    (∃ (t : Nat) (m : Nat) (n : Nat) (data : Bytes) (b : Bool) (s : State) (s' : State), MemoryForm s ∧ exec (Instr.hostDmaAccess t b m n data) s =
    Host.Outcome.next s') ∧
    (∃ (t : Nat) (n : Nat) (how : DramRead) (s : State) (s' : State), MemoryForm s ∧ exec (Instr.foldReadReturn t n how) s = Host.Outcome.next s') ∧
    (∃ (t : Nat) (n : Nat) (data : Bytes) (s : State) (s' : State), MemoryForm s ∧ exec (Instr.telCntWrite t n data) s = Host.Outcome.next s') ∧
    (∃ (t : Nat) (src : Source) (s : State) (s' : State), MemoryForm s ∧ exec (Instr.glyphLoad t src) s = Host.Outcome.next s') ∧
    (∃ (t : Nat) (n : Nat) (w : Word64) (s : State) (s' : State), MemoryForm s ∧ exec (Instr.scbGlyphLoad t n w) s = Host.Outcome.next s') ∧
    (∃ (t : Nat) (src : Source) (s : State) (s' : State), MemoryForm s ∧ exec (Instr.streamOpen t src) s = Host.Outcome.next s') ∧
    (∃ (t : Nat) (n : Nat) (s : State) (s' : State), MemoryForm s ∧ exec (Instr.chunkRun t n) s = Host.Outcome.next s') ∧
    (∃ (n : Nat) (s : State) (s' : State), MemoryForm s ∧ exec (Instr.chunkWatchdog n) s = Host.Outcome.next s') ∧
    (∃ (reads : List StripeRead) (s : State) (s' : State), MemoryForm s ∧ exec (Instr.bulkFold reads) s = Host.Outcome.next s') := by
  repeat' refine And.intro ?_ ?_
  · refine ⟨240, 1, 0, [1], false, world, ?_⟩
    refine ⟨_, by (first | decide +kernel | (unfold MemoryForm; decide +kernel)), rfl⟩
  · refine ⟨240, 7, ⟨[], [], []⟩, world, ?_⟩
    refine ⟨_, by (first | decide +kernel | (unfold MemoryForm; decide +kernel)), rfl⟩
  · refine ⟨240, 0, leBytes 5 8, world, ?_⟩
    refine ⟨_, by (first | decide +kernel | (unfold MemoryForm; decide +kernel)), rfl⟩
  · refine ⟨240, .quay 0, world, ?_⟩
    refine ⟨_, by (first | decide +kernel | (unfold MemoryForm; decide +kernel)), rfl⟩
  · refine ⟨240, 0, 0, world, ?_⟩
    refine ⟨_, by (first | decide +kernel | (unfold MemoryForm; decide +kernel)), rfl⟩
  · refine ⟨240, .quay 0, world, ?_⟩
    refine ⟨_, by (first | decide +kernel | (unfold MemoryForm; decide +kernel)), rfl⟩
  · refine ⟨240, 0, world, ?_⟩
    refine ⟨_, by (first | decide +kernel | (unfold MemoryForm; decide +kernel)), rfl⟩
  · refine ⟨0, world, ?_⟩
    refine ⟨_, by (first | decide +kernel | (unfold MemoryForm; decide +kernel)), rfl⟩
  · refine ⟨[], world, ?_⟩
    refine ⟨_, by (first | decide +kernel | (unfold MemoryForm; decide +kernel)), rfl⟩

/-- The hypotheses of SequencesCompare are met. -/
theorem test_hypotheses_SequencesCompare :
    ∃ (a : Nat), True := by
  refine ⟨0, ?_⟩
  decide +kernel

/-- The hypotheses of DirectLookups are met, those of each clause. -/
theorem test_hypotheses_DirectLookups :
    (∃ (tb : TableRec), tb.df.direct = true) ∧
    (∃ (s : State) (rec_ : Bytes) (l : Look) (tb : TableRec), tb.df.direct = true ∧ let off := descOff l.desc;
    let x := (byteAt rec_ (16 + off) + 256 * byteAt rec_ (17 + off) + 65536 * byteAt rec_ (18 + off)) % 2 ^ tb.df.indexBits;
    let miss := tb.df.depth ≤ x ∨ tb.df.zeroMiss = true ∧ ∀ (b : Byte), b ∈ s.diRead tb x → b = 0; miss) ∧
    (∃ (s : State) (rec_ : Bytes) (l : Look) (tb : TableRec), tb.df.direct = true ∧ let off := descOff l.desc;
    let x := (byteAt rec_ (16 + off) + 256 * byteAt rec_ (17 + off) + 65536 * byteAt rec_ (18 + off)) % 2 ^ tb.df.indexBits;
    let miss := tb.df.depth ≤ x ∨ tb.df.zeroMiss = true ∧ ∀ (b : Byte), b ∈ s.diRead tb x → b = 0; ¬miss) ∧
    (∃ (tb : TableRec), tb.df.direct = true ∧ ∃ (f : Search) (d : Nat) (base : Nat) (i : Nat), True) := by
  repeat' refine And.intro ?_ ?_
  · refine ⟨directTable, ?_⟩
    decide +kernel
  · refine ⟨world, searchRec [128 + 8], dLook, { directTable with df := { directDef with depth := 0 } }, ?_⟩
    decide +kernel
  · refine ⟨world, searchRec [128], dLook, { directTable with df := { directDef with zeroMiss := false, indexBits := 2 } }, ?_⟩
    decide +kernel
  · refine ⟨directTable, ?_⟩
    refine ⟨by decide +kernel, aSearch [dLook], 0, 0, 0, trivial⟩

/-- The hypotheses of DoorbellsOutOfRange are met, those of each clause. -/
theorem test_hypotheses_DoorbellsOutOfRange :
    (∃ (s : State) (t : Nat) (fn : Nat) (slot : Nat) (data : Bytes), (s.at t).intakeStopped = false ∧ s.host.linkUp = true ∧ s.hasFunction fn = true ∧
    (s.function fn).flr = false ∧ slot < 16 ∧ let r := 16 * fn + slot; let x := s.hostRing r; List.length data < 8 ∨ x.state ≠ RingState.active) ∧
    (∃ (s : State) (t : Nat) (fn : Nat) (slot : Nat) (data : Bytes), (s.at t).intakeStopped = false ∧ s.host.linkUp = true ∧ s.hasFunction fn = true ∧
    (s.function fn).flr = false ∧ slot < 16 ∧ let r := 16 * fn + slot; let x := s.hostRing r; let idx := fieldLE data 0 4;
    let apart := if s.ringKind r = 0 then (idx + 2 ^ 32 - x.devIndex) % 2 ^ 32 else (x.devIndex + 2 ^ 32 - idx) % 2 ^ 32; 8 ≤ List.length data ∧
    x.state = RingState.active ∧ (2 ^ s.fld Fld.HST_RING_CTL_size_log2 r < apart ∨ 2 ^ 31 ≤ (idx + 2 ^ 32 - x.hostIndex) % 2 ^ 32)) := by
  repeat' refine And.intro ?_ ?_
  · refine ⟨withRing 6 0 HostRing.reset, 3, 0, 3, zeros 8, ?_⟩
    decide +kernel
  · refine ⟨withRing 6 0 { HostRing.reset with state := .active }, 3, 0, 3, leBytes 65 8, ?_⟩
    decide +kernel


/-- The hypotheses of ChecksRefuse are met, those of each clause. -/
theorem test_hypotheses_ChecksRefuse :
    (∃ (s : State) (t : Nat) (src : Source) (c : Cmd) (rest : List Cmd), (s.at t).fifo src = c :: rest ∧ (s.at t).takeable src c = true ∧
    let op := cmdOp c.record; c.headerOk true false = false ∧ op = 8) ∧
    (∃ (s : State) (t : Nat) (src : Source) (c : Cmd) (rest : List Cmd), (s.at t).fifo src = c :: rest ∧ (s.at t).takeable src c = true ∧
    let op := cmdOp c.record; c.headerOk true false = false ∧ op = 41) ∧
    (∃ (s : State) (t : Nat) (src : Source) (c : Cmd) (rest : List Cmd), (s.at t).fifo src = c :: rest ∧ (s.at t).takeable src c = true ∧
    let op := cmdOp c.record; c.headerOk true false = false ∧ op = 40) ∧
    (∃ (s : State) (t : Nat) (src : Source) (c : Cmd) (rest : List Cmd), (s.at t).fifo src = c :: rest ∧ (s.at t).takeable src c = true ∧
    let op := cmdOp c.record; c.headerOk true false = false ∧ op = 32) ∧
    (∃ (s : State) (t : Nat) (src : Source) (c : Cmd) (rest : List Cmd), (s.at t).fifo src = c :: rest ∧ (s.at t).takeable src c = true ∧
    let op := cmdOp c.record; c.headerOk false false = false ∧ op = 56) ∧
    (∃ (s : State) (t : Nat) (src : Source) (c : Cmd) (rest : List Cmd), (s.at t).fifo src = c :: rest ∧ (s.at t).takeable src c = true ∧
    let op := cmdOp c.record; c.headerOk false false = false ∧ op = 57) ∧
    (∃ (s : State) (t : Nat) (src : Source) (c : Cmd) (rest : List Cmd), (s.at t).fifo src = c :: rest ∧ (s.at t).takeable src c = true ∧
    let op := cmdOp c.record; c.headerOk false false = false ∧ op = 65) ∧
    (∃ (s : State) (t : Nat) (src : Source) (c : Cmd) (rest : List Cmd), (s.at t).fifo src = c :: rest ∧ (s.at t).takeable src c = true ∧
    let op := cmdOp c.record; c.headerOk false false = false ∧ op = 66) ∧
    (∃ (s : State) (t : Nat) (src : Source) (c : Cmd) (rest : List Cmd), (s.at t).fifo src = c :: rest ∧ (s.at t).takeable src c = true ∧
    let op := cmdOp c.record; c.headerOk false false = false ∧ op = 67) ∧
    (∃ (s : State) (t : Nat) (src : Source) (c : Cmd) (rest : List Cmd), (s.at t).fifo src = c :: rest ∧ (s.at t).takeable src c = true ∧
    let op := cmdOp c.record; c.headerOk false false = false ∧ op = 81) ∧
    (∃ (s : State) (t : Nat) (src : Source) (c : Cmd) (rest : List Cmd), (s.at t).fifo src = c :: rest ∧ (s.at t).takeable src c = true ∧
    let op := cmdOp c.record; c.headerOk false false = false ∧ op = 80) ∧
    (∃ (s : State) (t : Nat) (src : Source) (c : Cmd) (rest : List Cmd), (s.at t).fifo src = c :: rest ∧ (s.at t).takeable src c = true ∧
    let op := cmdOp c.record; c.headerOk false false = false ∧ op = 83) ∧
    (∃ (s : State) (t : Nat) (src : Source) (c : Cmd) (rest : List Cmd), (s.at t).fifo src = c :: rest ∧ (s.at t).takeable src c = true ∧
    let op := cmdOp c.record; op = 66 ∧ c.headerOk false false = true ∧ List.length (cmdBody c.record) = 8 ∧ zerosAt (cmdBody c.record) 4 4 = true ∧
    src ≠ Source.seed ∧ (s.at t).authFails src c = true) ∧
    (∃ (s : State) (t : Nat) (src : Source) (c : Cmd) (rest : List Cmd), (s.at t).fifo src = c :: rest ∧ (s.at t).takeable src c = true ∧
    let op := cmdOp c.record; op = 66 ∧ c.headerOk false false = true ∧ List.length (cmdBody c.record) = 8 ∧ zerosAt (cmdBody c.record) 4 4 = true ∧
    src ≠ Source.seed ∧ ∃ (cause : Nat), (s.at t).authFails src c = false ∧ (s.at t).denied src c Right.supervisor = some cause) := by
  repeat' refine And.intro ?_ ?_
  · refine ⟨withCmd base { cmd 0x08 0 0 [] with badLength := true }, 3, cmdSrc, { cmd 0x08 0 0 [] with badLength := true }, [], ?_⟩
    decide +kernel
  · refine ⟨withCmd base { cmd 0x29 0 0 [] with badLength := true }, 3, cmdSrc, { cmd 0x29 0 0 [] with badLength := true }, [], ?_⟩
    decide +kernel
  · refine ⟨withCmd base { cmd 0x28 0 0 [] with badLength := true }, 3, cmdSrc, { cmd 0x28 0 0 [] with badLength := true }, [], ?_⟩
    decide +kernel
  · refine ⟨withCmd base { cmd 0x20 0 0 [] with badLength := true }, 3, cmdSrc, { cmd 0x20 0 0 [] with badLength := true }, [], ?_⟩
    decide +kernel
  · refine ⟨withCmd base { cmd 0x38 0 0 [] with badLength := true }, 3, cmdSrc, { cmd 0x38 0 0 [] with badLength := true }, [], ?_⟩
    decide +kernel
  · refine ⟨withCmd base { cmd 0x39 0 0 [] with badLength := true }, 3, cmdSrc, { cmd 0x39 0 0 [] with badLength := true }, [], ?_⟩
    decide +kernel
  · refine ⟨withCmd base { cmd 0x41 0 0 [] with badLength := true }, 3, cmdSrc, { cmd 0x41 0 0 [] with badLength := true }, [], ?_⟩
    decide +kernel
  · refine ⟨withCmd base { cmd 0x42 0 0 [] with badLength := true }, 3, cmdSrc, { cmd 0x42 0 0 [] with badLength := true }, [], ?_⟩
    decide +kernel
  · refine ⟨withCmd base { cmd 0x43 0 0 [] with badLength := true }, 3, cmdSrc, { cmd 0x43 0 0 [] with badLength := true }, [], ?_⟩
    decide +kernel
  · refine ⟨withCmd base { cmd 0x51 0 0 [] with badLength := true }, 3, cmdSrc, { cmd 0x51 0 0 [] with badLength := true }, [], ?_⟩
    decide +kernel
  · refine ⟨withCmd base { cmd 0x50 0 0 [] with badLength := true }, 3, cmdSrc, { cmd 0x50 0 0 [] with badLength := true }, [], ?_⟩
    decide +kernel
  · refine ⟨withCmd base { cmd 0x53 0 0 [] with badLength := true }, 3, cmdSrc, { cmd 0x53 0 0 [] with badLength := true }, [], ?_⟩
    decide +kernel
  · refine ⟨{ withCmd base (cmd 0x42 0 0 (leBytes 5 8)) with boot := { base.boot with device := { base.boot.device with cmdAuth := true } } }, 3, cmdSrc,
        cmd 0x42 0 0 (leBytes 5 8), [], ?_⟩
    decide +kernel
  · refine ⟨withCmd base { cmd 0x42 0 0 (leBytes 5 8) with master := 1 }, 3, cmdSrc, { cmd 0x42 0 0 (leBytes 5 8) with master := 1 }, [], ?_⟩
    repeat (refine ⟨by decide +kernel, ?_⟩)
    refine ⟨5, ?_⟩
    decide +kernel

/-- The hypotheses of PowerOnAndRails are met, those of each clause. -/
theorem test_hypotheses_PowerOnAndRails :
    (∃ (s : State), True) ∧
    (∃ (s : State), s.power.vddAon = true ∧ s.power.mainEn = true ∧ s.power.halted = false ∧ s.boot.stage = 0 ∧ s.power.tamperHold = true) ∧
    (∃ (s : State), s.power.vddAon = true ∧ s.power.mainEn = true ∧ s.power.halted = false ∧ s.boot.stage = 0 ∧ s.power.tamperHold = false) ∧
    (∃ (s : State), s.power.mainEn = true ∧ s.power.railsValid = false ∧ s.power.halted = false) ∧
    (∃ (s : State), s.power.vddAon = true ∧ s.power.mainEn = false ∧ s.power.halted = false ∧ s.power.railFails ≠ 0) := by
  repeat' refine And.intro ?_ ?_
  · refine ⟨base, ?_⟩
    decide +kernel
  · refine ⟨{ State.reset with power := { Power.reset with tamperHold := true } }, ?_⟩
    decide +kernel
  · refine ⟨State.reset, ?_⟩
    decide +kernel
  · refine ⟨State.reset, ?_⟩
    decide +kernel
  · refine ⟨{ State.reset with power := { Power.reset with mainEn := false, railFails := 2 } }, ?_⟩
    decide +kernel

/-- The hypotheses of BootReadsAndApply are met, those of each clause. -/
theorem test_hypotheses_BootReadsAndApply :
    (∃ (s : State) (d : SfdpRead), s.boot.stage = 1 ∧ s.boot.fromOffGuard = false ∧ d.read = true ∧ d.lists8D = true ∧ d.enabled = true ∧ d.readAgain =
    true) ∧
    (∃ (s : State) (d : SfdpRead), s.boot.stage = 1 ∧ s.boot.fromOffGuard = true ∧ d.enabled = true ∧ d.readAgain = true) ∧
    (∃ (s : State) (d : SfdpRead), s.boot.stage = 1 ∧ s.discovers d = false) ∧
    (∃ (s : State), s.reading = true) ∧
    (∃ (s : State), s.reading = true ∧ s.boot.header = none ∧ ∃ (h : HeaderRead), s.headerCheck h = 0) ∧
    (∃ (s : State), s.reading = true ∧ s.boot.header = none ∧ ∃ (h : HeaderRead), s.headerCheck h ≠ 0) ∧
    (∃ (s : State), s.reading = true ∧ ∃ (h : HeaderRead) (stored : Bytes), s.boot.header = some h ∧
    let records := List.filterMap id (s.coreRecords h stored); let whole := sha384 stored = digestOf h 1; whole ∧ s.coreVerifies h stored = true ∧
    s.coreOk records = true) ∧
    (∃ (s : State), s.reading = true ∧ ∃ (h : HeaderRead) (stored : Bytes), s.boot.header = some h ∧ let whole := sha384 stored = digestOf h 1; ¬whole) ∧
    (∃ (s : State), s.reading = true ∧ ∃ (h : HeaderRead) (stored : Bytes), s.boot.header = some h ∧ let whole := sha384 stored = digestOf h 1; whole ∧
    s.coreVerifies h stored = false) ∧
    (∃ (s : State), s.reading = true ∧ ∃ (h : HeaderRead) (stored : Bytes), s.boot.header = some h ∧
    let records := List.filterMap id (s.coreRecords h stored); let whole := sha384 stored = digestOf h 1; whole ∧ s.coreVerifies h stored = true ∧
    s.coreOk records = false) ∧
    (∃ (s : State), s.boot.stage = 4 ∧ s.boot.applied = false) ∧
    (∃ (s : State) (r : ApplyResult) (dev : Bytes) (sets : Bytes) (rest : List Bytes), s.boot.stage = 4 ∧ s.boot.applied = false ∧ s.boot.core = dev ::
    sets :: rest ∧ let placed := if s.boot.powerOn = true then (s.slotsTested r.failed).each (List.range 512) State.placeBank else s; (placed.bootDram
    sets r).bootDead r.dead = false) ∧
    (∃ (s : State) (r : ApplyResult) (dev : Bytes) (sets : Bytes) (rest : List Bytes), s.boot.stage = 4 ∧ s.boot.applied = false ∧ s.boot.core = dev ::
    sets :: rest ∧ let placed := if s.boot.powerOn = true then (s.slotsTested r.failed).each (List.range 512) State.placeBank else s; (placed.bootDram
    sets r).bootDead r.dead = true ∧ s.boot.fromOffGuard = false) ∧
    (∃ (s : State), s.serving = true ∧ ∃ (g : GlyphRecord), s.boot.glyphDone = false ∧ g.set < 64 ∧ s.openRecord 2 s.boot.glyphRecord g.stored = none) ∧
    (∃ (s : State), s.serving = true ∧ ∃ (g : GlyphRecord), s.boot.glyphDone = false ∧ g.set < 64 ∧ ∃ (contents : Bytes), s.openRecord 2
    s.boot.glyphRecord g.stored = some contents ∧ s.sectionEnd 2 (s.boot.glyphRecord + 1) g.stored = 0 ∧ (s.glyph g.set).booting = false ∧ s.setBusy
    g.set = false ∧ g.lastOfSet = false ∧ List.length contents ≤ 65536) ∧
    (∃ (s : State), s.serving = true ∧ ∃ (stored : Bytes) (ended : List Nat), s.boot.glyphDone = true ∧ s.boot.seedDone = false ∧ s.boot.seedClosed =
    false ∧ s.openRecord 3 s.boot.seedRecord stored = none) ∧
    (∃ (s : State), s.serving = true ∧ ∃ (stored : Bytes) (ended : List Nat), s.boot.glyphDone = true ∧ s.boot.seedDone = false ∧ s.boot.seedClosed =
    false ∧ ∃ (contents : Bytes), s.openRecord 3 s.boot.seedRecord stored = some contents ∧ s.sectionEnd 3 (s.boot.seedRecord + 1) stored = 0) := by
  repeat' refine And.intro ?_ ?_
  · refine ⟨inStage 1, ⟨true, [0x06], true, true, true⟩, ?_⟩
    decide +kernel
  · refine ⟨{ inStage 1 with boot := { (inStage 1).boot with fromOffGuard := true, recordedCopy := 1 } }, ⟨true, [0x06], true, true, true⟩, ?_⟩
    decide +kernel
  · refine ⟨inStage 1, ⟨true, [0x06], false, true, true⟩, ?_⟩
    decide +kernel
  · refine ⟨inStage 3, ?_⟩
    decide +kernel
  · refine ⟨inStage 2, ?_⟩
    repeat (refine ⟨by decide +kernel, ?_⟩)
    refine ⟨header, ?_⟩
    decide +kernel
  · refine ⟨inStage 2, ?_⟩
    repeat (refine ⟨by decide +kernel, ?_⟩)
    refine ⟨{ header with keyBytes := [] }, ?_⟩
    decide +kernel
  · refine ⟨readingCore (coreHeader coreRecs), ?_⟩
    repeat (refine ⟨by decide +kernel, ?_⟩)
    refine ⟨coreHeader coreRecs, coreSealed coreRecs, ?_⟩
    exact ⟨rfl, core_digest _, core_verifies _ coreRecs_lengths (by decide), by rw [core_filtered _ coreRecs_lengths]; exact core_ok _⟩
  · refine ⟨readingCore (coreHeader []), ?_⟩
    repeat (refine ⟨by decide +kernel, ?_⟩)
    refine ⟨coreHeader [], [1], ?_⟩
    decide +kernel
  · refine ⟨readingCore (oneSection 1 1 16384 (sha384 [])), ?_⟩
    repeat (refine ⟨by decide +kernel, ?_⟩)
    refine ⟨oneSection 1 1 16384 (sha384 []), [], ?_⟩
    decide +kernel
  · refine ⟨readingCore (coreHeader [[0]]), ?_⟩
    repeat (refine ⟨by decide +kernel, ?_⟩)
    refine ⟨coreHeader [[0]], coreSealed [[0]], ?_⟩
    exact ⟨rfl, core_digest _, core_verifies _ (by simp) (by decide), by rw [core_filtered _ (by simp)]; rfl⟩
  · refine ⟨inStage 4, ?_⟩
    decide +kernel
  · refine ⟨{ inStage 4 with boot := { (inStage 4).boot with core := [deviceBytes, [], firmwareBytes, linksBytes, pcieBytes] } }, ⟨[], [], []⟩,
        deviceBytes, [], [firmwareBytes, linksBytes, pcieBytes], ?_⟩
    decide +kernel
  · refine ⟨{ inStage 4 with boot := { (inStage 4).boot with core := [deviceBytes, [], firmwareBytes, linksBytes, pcieBytes] } }, ⟨[], [], List.range 64⟩,
        deviceBytes, [], [firmwareBytes, linksBytes, pcieBytes], ?_⟩
    decide +kernel
  · refine ⟨inSection 2, ?_⟩
    repeat (refine ⟨by decide +kernel, ?_⟩)
    refine ⟨⟨[1], 63, false⟩, ?_⟩
    decide +kernel
  · refine ⟨inSection 2, ?_⟩
    repeat (refine ⟨by decide +kernel, ?_⟩)
    refine ⟨⟨sealedRec 2 (zeros 40), 63, false⟩, ?_⟩
    repeat (refine ⟨by decide +kernel, ?_⟩)
    refine ⟨zeros 36, ?_⟩
    exact ⟨section_opens 2 _ (by decide) (by decide), section_goes_on 2 _ (by decide) (.inl rfl), by decide +kernel, by decide +kernel, rfl,
        by decide +kernel⟩
  · refine ⟨inSection 3, ?_⟩
    repeat (refine ⟨by decide +kernel, ?_⟩)
    refine ⟨[1], [], ?_⟩
    decide +kernel
  · refine ⟨inSection 3, ?_⟩
    repeat (refine ⟨by decide +kernel, ?_⟩)
    refine ⟨sealedRec 3 ([0, 0, 0, 0] ++ (cmd 1 0 0 []).record), [1], ?_⟩
    repeat (refine ⟨by decide +kernel, ?_⟩)
    refine ⟨(cmd 1 0 0 []).record, ?_⟩
    exact ⟨section_opens 3 _ (by decide) (by decide), section_goes_on 3 _ (by decide) (.inr rfl)⟩

/-- The hypotheses of RebootAndFlash are met, those of each clause. -/
theorem test_hypotheses_RebootAndFlash :
    (∃ (w : Word64), Fld.GLB_BOOT_CTL_reboot.get (BitVec.toNat w) = 1) ∧
    (∃ (s : State) (w : Word64), Fld.GLB_BOOT_CTL_reboot.get (BitVec.toNat w) = 0 ∧ Fld.GLB_BOOT_CTL_retry.get (BitVec.toNat w) = 1 ∧ s.recovery = true ∧
    s.fuses.lifeCycle ≠ 0 ∧ s.fuses.lifeCycle ≠ 4) ∧
    (∃ (s : State) (t : Nat) (w : Word64) (x : State), Stores s t Reg.GLB_FLASH_PROG_CTL 0 w x ∧ Fld.GLB_FLASH_PROG_CTL_go.get (BitVec.toNat w) = 1 ∧
    s.host.flashBusy = false ∧ let off := x.fld Fld.GLB_FLASH_PROG_CTL_flash_off; let len := 4096 * x.fld Fld.GLB_FLASH_PROG_CTL_pages; x.flashRefused
    off len = true) ∧
    (∃ (s : State) (t : Nat) (w : Word64) (x : State), Stores s t Reg.GLB_FLASH_PROG_CTL 0 w x ∧ Fld.GLB_FLASH_PROG_CTL_go.get (BitVec.toNat w) = 1 ∧
    s.host.flashBusy = false ∧ let off := x.fld Fld.GLB_FLASH_PROG_CTL_flash_off; let len := 4096 * x.fld Fld.GLB_FLASH_PROG_CTL_pages; x.flashRefused
    off len = false) ∧
    (∃ (s : State), s.host.flashBusy = true ∧ ∃ (back : Bytes), True) ∧
    (∃ (s : State), s.host.flashBusy = true ∧ ∃ (back : Bytes) (data : Bytes), List.length data = s.flashLen) := by
  repeat' refine And.intro ?_ ?_
  · refine ⟨wordOf [(Fld.GLB_BOOT_CTL_reboot, 1)], ?_⟩
    decide +kernel
  · refine ⟨inStage 14, wordOf [(Fld.GLB_BOOT_CTL_retry, 1)], ?_⟩
    decide +kernel
  · refine ⟨base, 3, wordOf [(Fld.GLB_FLASH_PROG_CTL_go, 1), (Fld.GLB_FLASH_PROG_CTL_pages, 2), (Fld.GLB_FLASH_PROG_CTL_flash_off, 536866816)],
        stored base 3 .GLB_FLASH_PROG_CTL 0 (wordOf [(Fld.GLB_FLASH_PROG_CTL_go, 1), (Fld.GLB_FLASH_PROG_CTL_pages, 2),
        (Fld.GLB_FLASH_PROG_CTL_flash_off, 536866816)]), ?_⟩
    (first | decide +kernel | (unfold Stores; decide +kernel))
  · refine ⟨base, 3, wordOf [(Fld.GLB_FLASH_PROG_CTL_go, 1), (Fld.GLB_FLASH_PROG_CTL_pages, 1), (Fld.GLB_FLASH_PROG_CTL_flash_off, 536866816)],
        stored base 3 .GLB_FLASH_PROG_CTL 0 (wordOf [(Fld.GLB_FLASH_PROG_CTL_go, 1), (Fld.GLB_FLASH_PROG_CTL_pages, 1),
        (Fld.GLB_FLASH_PROG_CTL_flash_off, 536866816)]), ?_⟩
    (first | decide +kernel | (unfold Stores; decide +kernel))
  · refine ⟨{ base with host := { base.host with flashBusy := true } }, ?_⟩
    repeat (refine ⟨by decide +kernel, ?_⟩)
    refine ⟨[], ?_⟩
    decide +kernel
  · refine ⟨({ base with host := { base.host with flashBusy := true } } : State).setFld Fld.GLB_FLASH_PROG_CTL_pages 1, ?_⟩
    repeat (refine ⟨by decide +kernel, ?_⟩)
    refine ⟨[], zeros 4096, ?_⟩
    decide +kernel

/-- The hypotheses of TideBoundaryAndCommitStroke are met, those of each clause. -/
theorem test_hypotheses_TideBoundaryAndCommitStroke :
    (∃ (s : State), s.gridRuns = true) ∧
    (∃ (s : State), s.awake = true) := by
  repeat' refine And.intro ?_ ?_
  · refine ⟨base, ?_⟩
    decide +kernel
  · refine ⟨base, ?_⟩
    decide +kernel

/-- The hypotheses of PpsAndStep are met, those of each clause. -/
theorem test_hypotheses_PpsAndStep :
    (∃ (s : State) (t : Nat), (s.at t).acceptsEdge = true) ∧
    (∃ (s : State) (t : Nat), (s.at t).edgeLost = true) ∧
    (∃ (s : State) (t : Nat) (w : Word64) (x : State), Stores s t Reg.GLB_TIDE_CTL 0 w x ∧ Fld.GLB_TIDE_CTL_step.get (BitVec.toNat w) = 1 ∧ s.bit
    Fld.GLB_TIDE_CTL_step = false) := by
  repeat' refine And.intro ?_ ?_
  · refine ⟨base, 200, ?_⟩
    decide +kernel
  · refine ⟨({ base with clock := { base.clock with grid := 6445313, lastEdge := some 0 } } : State).setFld Fld.GLB_TIDE_CTL_lock_en 1, 0, ?_⟩
    decide +kernel
  · refine ⟨base, 3, wordOf [(Fld.GLB_TIDE_CTL_step, 1)], stored base 3 .GLB_TIDE_CTL 0 (wordOf [(Fld.GLB_TIDE_CTL_step, 1)]), ?_⟩
    (first | decide +kernel | (unfold Stores; decide +kernel))

/-- The hypotheses of RegisterAccess are met, those of each clause. -/
theorem test_hypotheses_RegisterAccess :
    (∃ (s : State) (t : Nat) (data : Bytes), List.length data = 8 ∧ ∃ (r : Reg), r ∈ plainRegs ∧ (s.at t).holds r = false ∧ (s.at t).served r 0 = true) ∧
    (∃ (s : State) (t : Nat) (data : Bytes), List.length data = 8 ∧ (s.at t).served Reg.GLB_TIDE_STATUS 0 = true ∧ ∃ (f : Fld), f ∈
    [Fld.GLB_TIDE_STATUS_pps_lost, Fld.GLB_TIDE_STATUS_step_done]) ∧
    (∃ (data : Bytes), List.length data = 8 ∧ ∃ (off : Nat), off % 8 = 0 ∧ regAt off = none) ∧
    (∃ (r : Reg), r ∈ latchRegs) ∧
    (∃ (s : State) (r : Reg), r ∈ latchRegs ∧ ∃ (l : Nat), (s.function 0).latches.get r = some l) ∧
    (∃ (s : State) (t : Nat) (r : Reg), r ∈ Reg.all ∧ ¬r ∈ latchRegs ∧ r ≠ Reg.TEL_CNT_READ ∧ r ≠ Reg.LRN_MNF_WIN3 ∧ r ≠ Reg.FLT_WIN3 ∧ (s.at t).served r
    (s.regIndex 0 r) = true) ∧
    (∃ (s : State) (t : Nat) (fn : Nat), fn ≠ 0 ∧ s.hasFunction fn = true ∧ ∃ (r : Reg), r ∈ Reg.all ∧ r ≠ Reg.TEL_CNT_READ ∧ (s.at t).vfReads fn r =
    false) ∧
    (∃ (s : State) (fn : Nat) (off : Nat), s.hasFunction fn = true ∧ off % 8 = 0 ∧ regAt off = none) ∧
    (∃ (s : State) (fn : Nat), fn ≠ 0 ∧ s.power.state ≠ 2) ∧
    (∃ (s : State) (fn : Nat) (w : Word64), fn ≠ 0 ∧ s.power.state ≠ 2 ∧ Fld.GLB_MODE_CTL_go.get (BitVec.toNat w) = 1) ∧
    (∃ (s : State) (fn : Nat) (w : Word64), fn ≠ 0 ∧ s.power.state ≠ 2 ∧ Fld.SCB_GLYPH_CTL_go.get (BitVec.toNat w) = 1) := by
  repeat' refine And.intro ?_ ?_
  · refine ⟨base, 3, leBytes 5 8, ?_⟩
    repeat (refine ⟨by decide +kernel, ?_⟩)
    refine ⟨.GLB_TOD_NEXT, ?_⟩
    decide +kernel
  · refine ⟨base, 3, leBytes (2 ^ 64 - 1) 8, ?_⟩
    repeat (refine ⟨by decide +kernel, ?_⟩)
    refine ⟨Fld.GLB_TIDE_STATUS_pps_lost, ?_⟩
    decide +kernel
  · refine ⟨leBytes 5 8, ?_⟩
    repeat (refine ⟨by decide +kernel, ?_⟩)
    refine ⟨0x00FFFFF8, ?_⟩
    decide +kernel
  · refine ⟨.PWR_RTC, ?_⟩
    decide +kernel
  · refine ⟨base, .BTH_LEVEL_P, ?_⟩
    repeat (refine ⟨by decide +kernel, ?_⟩)
    refine ⟨0, ?_⟩
    decide +kernel
  · refine ⟨base, 3, .QUY_ERR_COUNT, ?_⟩
    decide +kernel
  · refine ⟨base, 3, 4, ?_⟩
    repeat (refine ⟨by decide +kernel, ?_⟩)
    refine ⟨.PWR_RTC, ?_⟩
    decide +kernel
  · refine ⟨base, 4, 0x00FFFFF8, ?_⟩
    decide +kernel
  · refine ⟨base, 1, ?_⟩
    decide +kernel
  · refine ⟨base, 1, wordOf [(Fld.GLB_MODE_CTL_go, 1)], ?_⟩
    decide +kernel
  · refine ⟨base, 1, wordOf [(Fld.SCB_GLYPH_CTL_go, 1)], ?_⟩
    decide +kernel

/-- The hypotheses of ModeRequests are met, those of each clause. -/
theorem test_hypotheses_ModeRequests :
    (∃ (s : State) (t : Nat) (w : Word64) (x : State), Stores s t Reg.GLB_MODE_CTL 0 w x ∧ Fld.GLB_MODE_CTL_go.get (BitVec.toNat w) = 1 ∧ s.cmdAuth =
    false ∧ let m := x.fld Fld.GLB_MODE_CTL_target; s.modeCheck m ≠ 0) ∧
    (∃ (s : State) (t : Nat) (w : Word64) (x : State), Stores s t Reg.GLB_MODE_CTL 0 w x ∧ Fld.GLB_MODE_CTL_go.get (BitVec.toNat w) = 1 ∧ s.cmdAuth =
    false ∧ let m := x.fld Fld.GLB_MODE_CTL_target; s.modeCheck m = 0 ∧ m ≠ s.mode.mode) ∧
    (∃ (s : State) (t : Nat) (w : Word64) (x : State), Stores s t Reg.GLB_MODE_CTL 0 w x ∧ Fld.GLB_MODE_CTL_go.get (BitVec.toNat w) = 1 ∧ s.cmdAuth =
    false ∧ let m := x.fld Fld.GLB_MODE_CTL_target; s.modeCheck m = 0 ∧ m = s.mode.mode) ∧
    (∃ (s : State) (t : Nat) (src : Source) (c : Cmd) (rest : List Cmd), Clears s t src c rest 64 false false Right.supervisor ∧ List.length (cmdBody
    c.record) = 8 ∧ zerosAt (cmdBody c.record) 1 7 = true ∧ let m := byteAt (cmdBody c.record) 0; m < 8 ∧ s.modeCheck m ≠ 0) ∧
    (∃ (s : State) (t : Nat) (src : Source) (c : Cmd) (rest : List Cmd), Clears s t src c rest 64 false false Right.supervisor ∧ List.length (cmdBody
    c.record) = 8 ∧ zerosAt (cmdBody c.record) 1 7 = true ∧ let m := byteAt (cmdBody c.record) 0; m < 8 ∧ s.modeCheck m = 0 ∧ m ≠ s.mode.mode) ∧
    (∃ (s : State), s.mode.preparing = true ∧ s.preparedNow = true) := by
  repeat' refine And.intro ?_ ?_
  · refine ⟨{ base with boot := { base.boot with device := { base.boot.device with permitted := 3 } } }, 3, wordOf [(Fld.GLB_MODE_CTL_go, 1),
        (Fld.GLB_MODE_CTL_target, 2)],
        stored ({ base with boot := { base.boot with device := { base.boot.device with permitted := 3 } } }) 3 .GLB_MODE_CTL 0 (wordOf [(Fld.GLB_MODE_CTL_go,
        1), (Fld.GLB_MODE_CTL_target, 2)]), ?_⟩
    (first | decide +kernel | (unfold Stores; decide +kernel))
  · refine ⟨base, 3, wordOf [(Fld.GLB_MODE_CTL_go, 1), (Fld.GLB_MODE_CTL_target, 7)], stored (base) 3 .GLB_MODE_CTL 0 (wordOf [(Fld.GLB_MODE_CTL_go, 1),
        (Fld.GLB_MODE_CTL_target, 7)]), ?_⟩
    (first | decide +kernel | (unfold Stores; decide +kernel))
  · refine ⟨base, 3, wordOf [(Fld.GLB_MODE_CTL_go, 1), (Fld.GLB_MODE_CTL_target, 0)], stored (base) 3 .GLB_MODE_CTL 0 (wordOf [(Fld.GLB_MODE_CTL_go, 1),
        (Fld.GLB_MODE_CTL_target, 0)]), ?_⟩
    (first | decide +kernel | (unfold Stores; decide +kernel))
  · refine ⟨withCmd ({ base with boot := { base.boot with device := { base.boot.device with permitted := 3 } } }) (cmd 0x40 0 0 (leBytes 2 8)), 3, cmdSrc,
        cmd 0x40 0 0 (leBytes 2 8), [], ?_⟩
    (first | decide +kernel | (unfold Clears; decide +kernel))
  · refine ⟨withCmd (base) (cmd 0x40 0 0 (leBytes 7 8)), 3, cmdSrc, cmd 0x40 0 0 (leBytes 7 8), [], ?_⟩
    (first | decide +kernel | (unfold Clears; decide +kernel))
  · refine ⟨{ base with mode := { base.mode with pending := some 5, preparing := true } }, ?_⟩
    decide +kernel

/-- The hypotheses of BoundaryCommandsAccepted are met, those of each clause. -/
theorem test_hypotheses_BoundaryCommandsAccepted :
    (∃ (s : State) (t : Nat) (src : Source) (c : Cmd) (rest : List Cmd), let body := cmdBody c.record; Clears s t src c rest 8 true false Right.supervisor
    ∧ List.length body = 64 ∧ fieldLE body 4 2 = cmdTid c.record ∧ s.createCheck body = none) ∧
    (∃ (s : State) (t : Nat) (src : Source) (c : Cmd) (rest : List Cmd), let body := cmdBody c.record; Clears s t src c rest 56 false false
    Right.supervisor ∧ BerthRec.valid body = true) ∧
    (∃ (s : State) (t : Nat) (src : Source) (c : Cmd) (rest : List Cmd), let body := cmdBody c.record; Clears s t src c rest 65 false false
    Right.supervisor ∧ s.masterValid body = true) ∧
    (∃ (s : State) (t : Nat) (src : Source) (c : Cmd) (rest : List Cmd), let body := cmdBody c.record; Clears s t src c rest 41 true false
    Right.supervisor ∧ body = [] ∧ cmdTid c.record < 64 ∧ s.setStreams (cmdTid c.record) = 0) ∧
    (∃ (s : State) (t : Nat) (src : Source) (c : Cmd) (rest : List Cmd), let body := cmdBody c.record; Clears s t src c rest 33 false true Right.user ∧
    body = [] ∧ cmdHandle c.record < 16777216 ∧ (s.openStream (cmdHandle c.record)).isSome = true ∧ fieldLE (s.streamState (cmdHandle c.record %
    1048576)) 12 2 % 16384 = cmdBerth c.record) ∧
    (∃ (s : State) (t : Nat) (src : Source) (c : Cmd) (rest : List Cmd), let body := cmdBody c.record; Clears s t src c rest 34 false true Right.user ∧
    body = [] ∧ cmdHandle c.record < 16777216 ∧ (s.openStream (cmdHandle c.record)).isSome = true ∧ fieldLE (s.streamState (cmdHandle c.record %
    1048576)) 12 2 % 16384 = cmdBerth c.record) ∧
    (∃ (s : State) (t : Nat) (src : Source) (c : Cmd) (rest : List Cmd), let body := cmdBody c.record; Clears s t src c rest 81 false false Right.service
    ∧ List.length body = 8 ∧ byteAt body 0 < 64 ∧ zerosAt body 1 7 = true ∧ s.fenceRefused (byteAt body 0) = false) ∧
    (∃ (s : State) (t : Nat) (src : Source) (c : Cmd) (rest : List Cmd), let body := cmdBody c.record; ∃ (p : Port), Clears s t src c rest 82 false false
    Right.service ∧ List.length body = 8 ∧ portOf (byteAt body 0) = some p ∧ zerosAt body 2 6 = true ∧ s.laneRefused p ((s.link p).laneBase + byteAt
    body 1) = false) ∧
    (∃ (s : State), s.clock.stroke ≤ 255 ∧ s.mode.mode < 8) := by
  repeat' refine And.intro ?_ ?_
  · refine ⟨withCmd (world) (cmd 0x08 2 0 ([0x06, 0x01, 0, 0, 2, 0, 0, 0, 1] ++ zeros 55)), 3, cmdSrc, cmd 0x08 2 0 ([0x06, 0x01, 0, 0, 2, 0, 0, 0,
        1] ++ zeros 55), [], ?_⟩
    (first | decide +kernel | (unfold Clears; decide +kernel))
  · refine ⟨withCmd (world) (cmd 0x38 0 0 ([0x07, 0x01, 0, 0, 9] ++ zeros 291)), 3, cmdSrc, cmd 0x38 0 0 ([0x07, 0x01, 0, 0, 9] ++ zeros 291), [], ?_⟩
    (first | decide +kernel | (unfold Clears; decide +kernel))
  · refine ⟨withCmd (world) (cmd 0x41 0 0 ([0x08, 0x01, 0, 0, 5, 0, 0, 0] ++ leBytes 100 2 ++ leBytes 10 2 ++ [0xFF, 0xFF, 1, 0] ++ zeros 8)), 3, cmdSrc,
        cmd 0x41 0 0 ([0x08, 0x01, 0, 0, 5, 0, 0, 0] ++ leBytes 100 2 ++ leBytes 10 2 ++ [0xFF, 0xFF, 1, 0] ++ zeros 8), [], ?_⟩
    (first | decide +kernel | (unfold Clears; decide +kernel))
  · refine ⟨withCmd ({ world with scribes := { world.scribes with streams := [] } }) (cmd 0x29 3 0 ([])), 3, cmdSrc, cmd 0x29 3 0 ([]), [], ?_⟩
    (first | decide +kernel | (unfold Clears; decide +kernel))
  · refine ⟨withCmd (world) (cmd 0x21 0 aStream ([])), 3, cmdSrc, cmd 0x21 0 aStream ([]), [], ?_⟩
    (first | decide +kernel | (unfold Clears; decide +kernel))
  · refine ⟨withCmd (world) (cmd 0x22 0 aStream ([])), 3, cmdSrc, cmd 0x22 0 aStream ([]), [], ?_⟩
    (first | decide +kernel | (unfold Clears; decide +kernel))
  · refine ⟨withCmd (world) (cmd 0x51 0 0 (leBytes 59 8)), 3, cmdSrc, cmd 0x51 0 0 (leBytes 59 8), [], ?_⟩
    (first | decide +kernel | (unfold Clears; decide +kernel))
  · refine ⟨withCmd ({ world with links := { world.links with quays := [(0, { Link.configured 4 1 0 15 [256, 256, 256, 256, 256, 256] none 2 1 with state := .down })] } }) (cmd 0x52 0 0 (leBytes (256 * 3) 8)),
        3, cmdSrc, cmd 0x52 0 0 (leBytes (256 * 3) 8), [], ?_⟩
    refine ⟨.quay 0, ?_⟩
    (first | decide +kernel | (unfold Clears; decide +kernel))
  · refine ⟨base, ?_⟩
    decide +kernel

/-- The hypotheses of ServiceCommandsAct are met, those of each clause. -/
theorem test_hypotheses_ServiceCommandsAct :
    (∃ (s : State) (t : Nat) (src : Source) (c : Cmd) (rest : List Cmd), let body := cmdBody c.record; Clears s t src c rest 57 false false
    Right.supervisor ∧ List.length body = 8 ∧ fieldLE body 0 2 < 16384 ∧ zerosAt body 2 6 = true) ∧
    (∃ (s : State) (t : Nat) (src : Source) (c : Cmd) (rest : List Cmd), let body := cmdBody c.record; Clears s t src c rest 66 false false
    Right.supervisor ∧ List.length body = 8 ∧ zerosAt body 4 4 = true) ∧
    (∃ (s : State) (t : Nat) (src : Source) (c : Cmd) (rest : List Cmd), let body := cmdBody c.record; ∃ (ownerKeyA : Bytes), Clears s t src c rest 68
    false false Right.supervisor ∧ s.lcForm body = true ∧ s.lcAllowed c (byteAt body 0) = true ∧ (s.fuses.lifeCycle ≠ 0 → s.tokenOk ownerKeyA body =
    true) ∧ s.security.lcPending = false) ∧
    (∃ (s : State) (t : Nat) (src : Source) (c : Cmd) (rest : List Cmd), let body := cmdBody c.record; Clears s t src c rest 69 false false
    Right.supervisor ∧ wrapForm body = true ∧ s.wrapRefused body = false ∧ s.security.keyWrap = none) ∧
    (∃ (s : State) (a : Accepted) (id : Nat), s.security.keyWrap = some id ∧ List.find? (fun (a : Accepted) ↦ a.id == id) s.cmds.accepted = some a) ∧
    (∃ (s : State) (t : Nat) (src : Source) (c : Cmd) (rest : List Cmd), let body := cmdBody c.record; Clears s t src c rest 83 false false Right.service
    ∧ List.length body = 8 ∧ byteAt body 1 < 64 ∧ zerosAt body 2 6 = true ∧ byteAt body 0 = 2) ∧
    (∃ (s : State) (t : Nat) (src : Source) (c : Cmd) (rest : List Cmd), let body := cmdBody c.record; Clears s t src c rest 83 false false Right.service
    ∧ List.length body = 8 ∧ byteAt body 1 < 64 ∧ zerosAt body 2 6 = true ∧ byteAt body 0 = 1 ∧ s.offlineCheck (byteAt body 1) = 0 ∧ (s.scribe (byteAt
    body 1)).offlineAt = none) ∧
    (∃ (s : State) (t : Nat) (src : Source) (c : Cmd) (rest : List Cmd), let body := cmdBody c.record; Clears s t src c rest 80 false false Right.service
    ∧ bankForm body = true ∧ byteAt body 0 = 3 ∧ s.service.bist = none ∧ let slot := byteAt body 4 * 136 + byteAt body 5 * 17 + byteAt body 6;
    (s.slotState slot).health ≠ Health.serving ∧ (s.slotState slot).health ≠ Health.testing) ∧
    (∃ (s : State) (t : Nat) (src : Source) (c : Cmd) (rest : List Cmd), let body := cmdBody c.record; Clears s t src c rest 80 false false Right.service
    ∧ bankForm body = true ∧ byteAt body 0 ≠ 3 ∧ s.arrays.drain = none ∧ s.drainRefused (fieldLE body 2 2) (byteAt body 0) = none) := by
  repeat' refine And.intro ?_ ?_
  · refine ⟨withCmd (world) (cmd 0x39 0 0 (leBytes 16383 8)), 3, cmdSrc, cmd 0x39 0 0 (leBytes 16383 8), [], ?_⟩
    (first | decide +kernel | (unfold Clears; decide +kernel))
  · refine ⟨withCmd (world) (cmd 0x42 0 0 (leBytes 5 8)), 3, cmdSrc, cmd 0x42 0 0 (leBytes 5 8), [], ?_⟩
    (first | decide +kernel | (unfold Clears; decide +kernel))
  · refine ⟨withCmd (ownedWorld) (cmd 0x44 0 0 ([2] ++ zeros 63 ++ tokenSignature)), 3, cmdSrc, cmd 0x44 0 0 ([2] ++ zeros 63 ++ tokenSignature), [], ?_⟩
    refine ⟨pointKey, ?_⟩
    (first | decide +kernel | (unfold Clears; decide +kernel))
  · refine ⟨withCmd (world) (cmd 0x45 0 0 (leBytes 1 8 ++ zeros 104 ++ [1, 0, 3, 0] ++ zeros 60)), 3, cmdSrc,
        cmd 0x45 0 0 (leBytes 1 8 ++ zeros 104 ++ [1, 0, 3, 0] ++ zeros 60), [], ?_⟩
    (first | decide +kernel | (unfold Clears; decide +kernel))
  · refine ⟨{ withAccepted world (cmd 0x45 0 0 (zeros 112)) with security := { world.security with keyWrap := some 4 } },
        acceptedOf (cmd 0x45 0 0 (zeros 112)), 4, ?_⟩
    decide +kernel
  · refine ⟨withCmd (world) (cmd 0x53 0 0 ([2, 63] ++ zeros 6)), 3, cmdSrc, cmd 0x53 0 0 ([2, 63] ++ zeros 6), [], ?_⟩
    (first | decide +kernel | (unfold Clears; decide +kernel))
  · refine ⟨withCmd (world) (cmd 0x53 0 0 ([1, 63] ++ zeros 6)), 3, cmdSrc, cmd 0x53 0 0 ([1, 63] ++ zeros 6), [], ?_⟩
    (first | decide +kernel | (unfold Clears; decide +kernel))
  · refine ⟨withCmd (world) (cmd 0x50 0 0 ([3, 0, 0, 0, 3, 7, 16, 0])), 3, cmdSrc, cmd 0x50 0 0 ([3, 0, 0, 0, 3, 7, 16, 0]), [], ?_⟩
    (first | decide +kernel | (unfold Clears; decide +kernel))
  · refine ⟨withCmd (world) (cmd 0x50 0 0 ([1, 0] ++ leBytes 511 2 ++ zeros 4)), 3, cmdSrc, cmd 0x50 0 0 ([1, 0] ++ leBytes 511 2 ++ zeros 4), [], ?_⟩
    (first | decide +kernel | (unfold Clears; decide +kernel))

/-- The hypotheses of WriteCommandsAccepted are met, those of each clause. -/
theorem test_hypotheses_WriteCommandsAccepted :
    (∃ (s : State) (t : Nat) (src : Source) (c : Cmd) (rest : List Cmd), (s.at t).noTable src (cmdTid c.record) = none ∧ Clears s t src c rest 2 true true
    Right.edit ∧ cmdBody c.record = [] ∧ s.kindCheck (cmdTid c.record) false false = none ∧ ∀ (p : Nat × Entry), ((s.at t).target (cmdTid c.record)
    (cmdHandle c.record)).snd = some p → (s.at t).removalRoom p.snd (s.at t).applyTide = true) ∧
    (∃ (s : State) (t : Nat) (src : Source) (c : Cmd) (rest : List Cmd), (s.at t).noTable src (cmdTid c.record) = none ∧ Clears s t src c rest 3 true true
    Right.edit ∧ s.kindCheck (cmdTid c.record) false false = none ∧ ∀ (tb : TableRec), s.table (cmdTid c.record) = some tb → 0 < tb.df.adBytes ∧
    List.length (cmdBody c.record) = tb.df.adBytes) ∧
    (∃ (s : State) (t : Nat) (src : Source) (c : Cmd) (rest : List Cmd), (s.at t).noTable src (cmdTid c.record) = none ∧ Clears s t src c rest 4 true true
    Right.read ∧ cmdBody c.record = [] ∧ s.kindCheck (cmdTid c.record) false false = none) ∧
    (∃ (s : State) (t : Nat) (src : Source) (c : Cmd) (rest : List Cmd), (s.at t).noTable src (cmdTid c.record) = none ∧ Clears s t src c rest 5 true true
    Right.counter ∧ cmdBody c.record = [] ∧ s.kindCheck (cmdTid c.record) false false = none) ∧
    (∃ (s : State) (t : Nat) (src : Source) (c : Cmd) (rest : List Cmd), (s.at t).noTable src (cmdTid c.record) = none ∧ Clears s t src c rest 6 true true
    Right.edit ∧ List.length (cmdBody c.record) = 8 ∧ s.kindCheck (cmdTid c.record) false false = none) ∧
    (∃ (s : State) (t : Nat) (src : Source) (c : Cmd) (rest : List Cmd), (s.at t).noTable src (cmdTid c.record) = none ∧ Clears s t src c rest 9 true
    false Right.supervisor ∧ cmdBody c.record = []) ∧
    (∃ (s : State) (t : Nat) (src : Source) (c : Cmd) (rest : List Cmd), (s.at t).noTable src (cmdTid c.record) = none ∧ Clears s t src c rest 10 true
    false Right.supervisor ∧ cmdBody c.record = [] ∧ ∀ (tb : TableRec), s.table (cmdTid c.record) = some tb → tb.state ≠ TableState.flushed) ∧
    (∃ (s : State) (t : Nat) (src : Source) (c : Cmd) (rest : List Cmd), (s.at t).noTable src (cmdTid c.record) = none ∧ Clears s t src c rest 16 true
    false Right.edit ∧ zerosAt (cmdBody c.record) 4 4 = true ∧ s.kindCheck (cmdTid c.record) true true = none ∧ ∀ (tb : TableRec), s.table (cmdTid
    c.record) = some tb → List.length (cmdBody c.record) = 8 + tb.df.entrySize) ∧
    (∃ (s : State) (t : Nat) (src : Source) (c : Cmd) (rest : List Cmd), (s.at t).noTable src (cmdTid c.record) = none ∧ Clears s t src c rest 17 true
    false Right.read ∧ List.length (cmdBody c.record) = 8 ∧ zerosAt (cmdBody c.record) 4 4 = true ∧ s.kindCheck (cmdTid c.record) true false = none) := by
  repeat' refine And.intro ?_ ?_
  · refine ⟨withCmd (world) (cmd 0x02 1 aHandle ([])), 3, cmdSrc, cmd 0x02 1 aHandle ([]), [], ?_⟩
    refine ⟨by (first | decide +kernel | (unfold Clears; decide +kernel)), by (first | decide +kernel | (unfold Clears; decide +kernel)),
        by (first | decide +kernel | (unfold Clears; decide +kernel)), by (first | decide +kernel | (unfold Clears; decide +kernel)),
        fun p h => ?_⟩; obtain rfl := Option.some.inj h.symm; (first | decide +kernel | (unfold Clears; decide +kernel))
  · refine ⟨withCmd (world) (cmd 0x03 1 aHandle (leBytes 1 8)), 3, cmdSrc, cmd 0x03 1 aHandle (leBytes 1 8), [], ?_⟩
    refine ⟨by (first | decide +kernel | (unfold Clears; decide +kernel)), by (first | decide +kernel | (unfold Clears; decide +kernel)),
        by (first | decide +kernel | (unfold Clears; decide +kernel)),
        fun p h => ?_⟩; obtain rfl := Option.some.inj h.symm; (first | decide +kernel | (unfold Clears; decide +kernel))
  · refine ⟨withCmd (world) (cmd 0x04 1 aHandle ([])), 3, cmdSrc, cmd 0x04 1 aHandle ([]), [], ?_⟩
    (first | decide +kernel | (unfold Clears; decide +kernel))
  · refine ⟨withCmd (world) (cmd 0x05 1 aHandle ([])), 3, cmdSrc, cmd 0x05 1 aHandle ([]), [], ?_⟩
    (first | decide +kernel | (unfold Clears; decide +kernel))
  · refine ⟨withCmd (world) (cmd 0x06 1 aHandle (leBytes 5 8)), 3, cmdSrc, cmd 0x06 1 aHandle (leBytes 5 8), [], ?_⟩
    (first | decide +kernel | (unfold Clears; decide +kernel))
  · refine ⟨withCmd (world) (cmd 0x09 1 0 ([])), 3, cmdSrc, cmd 0x09 1 0 ([]), [], ?_⟩
    (first | decide +kernel | (unfold Clears; decide +kernel))
  · refine ⟨withCmd (world) (cmd 0x0A 1 0 ([])), 3, cmdSrc, cmd 0x0A 1 0 ([]), [], ?_⟩
    refine ⟨by (first | decide +kernel | (unfold Clears; decide +kernel)), by (first | decide +kernel | (unfold Clears; decide +kernel)),
        by (first | decide +kernel | (unfold Clears; decide +kernel)),
        fun p h => ?_⟩; obtain rfl := Option.some.inj h.symm; (first | decide +kernel | (unfold Clears; decide +kernel))
  · refine ⟨withCmd (world) (cmd 0x10 32768 0 (leBytes 9 8 ++ leBytes 1 8)), 3, cmdSrc, cmd 0x10 32768 0 (leBytes 9 8 ++ leBytes 1 8), [], ?_⟩
    refine ⟨by (first | decide +kernel | (unfold Clears; decide +kernel)), by (first | decide +kernel | (unfold Clears; decide +kernel)),
        by (first | decide +kernel | (unfold Clears; decide +kernel)), by (first | decide +kernel | (unfold Clears; decide +kernel)),
        fun p h => ?_⟩; obtain rfl := Option.some.inj h.symm; (first | decide +kernel | (unfold Clears; decide +kernel))
  · refine ⟨withCmd (world) (cmd 0x11 32768 0 (leBytes 9 8)), 3, cmdSrc, cmd 0x11 32768 0 (leBytes 9 8), [], ?_⟩
    (first | decide +kernel | (unfold Clears; decide +kernel))

/-- The hypotheses of InsertAccepted are met, those of each clause. -/
theorem test_hypotheses_InsertAccepted :
    (∃ (s : State) (t : Nat) (src : Source) (c : Cmd) (rest : List Cmd) (tb : TableRec), Clears s t src c rest 1 true true Right.edit ∧ insertForm
    c.record = true ∧ (s.at t).noTable src (cmdTid c.record) = none ∧ s.table (cmdTid c.record) = some tb ∧ ∃ (r : Nat) (h : Nat), (s.at
    t).insertCheck tb c.record = some (r, h)) ∧
    (∃ (s : State) (t : Nat) (src : Source) (c : Cmd) (rest : List Cmd) (tb : TableRec), Clears s t src c rest 1 true true Right.edit ∧ insertForm
    c.record = true ∧ (s.at t).noTable src (cmdTid c.record) = none ∧ s.table (cmdTid c.record) = some tb ∧ let q := (s.at t).quotaBinds tb;
    let binds := q.fst || q.snd; (s.at t).insertCheck tb c.record = none ∧ binds = true ∧ tb.df.evict = 0) ∧
    (∃ (s : State) (t : Nat) (src : Source) (c : Cmd) (rest : List Cmd) (p : Plan) (tb : TableRec), Clears s t src c rest 1 true true Right.edit ∧
    insertForm c.record = true ∧ (s.at t).noTable src (cmdTid c.record) = none ∧ s.table (cmdTid c.record) = some tb ∧
    let q := (s.at t).quotaBinds tb; let binds := q.fst || q.snd; (s.at t).insertCheck tb c.record = none ∧ (binds = true → tb.df.evict ≠ 0) ∧
    let v := if binds = true then ((s.at t).chooseVictim tb).fst else none; (binds = true → v.isSome = true) ∧ (∀ (x : Nat × Entry), v = some x →
    (s.at t).removalRoom x.snd (s.at t).firstStep = true) ∧ p.noPlan = false ∧ s.cmds.flights.length < flightLimit s.mode.mode ∧ (s.at t).labelsOk tb
    c.record p.relabel = true ∧ ∃ (n : Nat) (k : Nat × Nat × Nat) (at_ : Nat), (s.at t).nextNumber = some n ∧ (s.at t).newKeys tb c.record n p.relabel
    = some k ∧ (s.at t).firstMove p.relabel = some at_ ∧ (s.at t).planOk tb (insertValue tb.df c.record) (insertMask tb.df c.record) k p at_ = true) := by
  repeat' refine And.intro ?_ ?_
  · refine ⟨withCmd (world) (cmd 0x01 1 0 (leBytes 50 4 ++ zeros 4 ++ leBytes 0x77 16 ++ zeros 8 ++ zeros 8)), 3, cmdSrc,
        cmd 0x01 1 0 (leBytes 50 4 ++ zeros 4 ++ leBytes 0x77 16 ++ zeros 8 ++ zeros 8), [], ternTable, ?_⟩
    repeat (refine ⟨by (first | decide +kernel | (unfold Clears; decide +kernel)), ?_⟩)
    refine ⟨0x0A, 0, ?_⟩
    (first | decide +kernel | (unfold Clears; decide +kernel))
  · refine ⟨withCmd (withTable { ternTable with df := { ternDef with quota := 1 } }) (cmd 0x01 1 0 (leBytes 50 4 ++ zeros 4 ++ leBytes 0x77 16 ++ zeros 8)),
        3, cmdSrc, cmd 0x01 1 0 (leBytes 50 4 ++ zeros 4 ++ leBytes 0x77 16 ++ zeros 8), [], { ternTable with df := { ternDef with quota := 1 } }, ?_⟩
    (first | decide +kernel | (unfold Clears; decide +kernel))
  · refine ⟨withCmd (world) (cmd 0x01 1 0 (leBytes 50 4 ++ zeros 4 ++ leBytes 0x77 16 ++ zeros 8)), 3, cmdSrc,
        cmd 0x01 1 0 (leBytes 50 4 ++ zeros 4 ++ leBytes 0x77 16 ++ zeros 8), [], ⟨5, 11, [], [], false⟩, ternTable, ?_⟩
    repeat (refine ⟨by (first | decide +kernel | (unfold Clears; decide +kernel)), ?_⟩)
    refine ⟨8, (50, 4, 8), 10, ?_⟩
    (first | decide +kernel | (unfold Clears; decide +kernel))

/-- The hypotheses of WritePhaseApplies are met, those of each clause. -/
theorem test_hypotheses_WritePhaseApplies :
    (∃ (s : State) (t : Nat) (a : Accepted) (tb : TableRec), (s.at t).inWrite = true ∧ List.filter (fun (b : Accepted) ↦ !b.applied && decide (b.applyTide
    ≤ s.clock.grid) && b.result.isNone) s.cmds.accepted = [a] ∧ s.table (cmdTid a.record) = some tb ∧ tb.state ≠ TableState.deleted ∧ cmdOp a.record =
    9) ∧
    (∃ (s : State) (t : Nat) (a : Accepted) (tb : TableRec), (s.at t).inWrite = true ∧ List.filter (fun (b : Accepted) ↦ !b.applied && decide (b.applyTide
    ≤ s.clock.grid) && b.result.isNone) s.cmds.accepted = [a] ∧ s.table (cmdTid a.record) = some tb ∧ tb.state ≠ TableState.deleted ∧ cmdOp a.record =
    10 ∧ tb.state ≠ TableState.flushed) ∧
    (∃ (s : State) (t : Nat) (a : Accepted) (tb : TableRec), (s.at t).inWrite = true ∧ List.filter (fun (b : Accepted) ↦ !b.applied && decide (b.applyTide
    ≤ s.clock.grid) && b.result.isNone) s.cmds.accepted = [a] ∧ s.table (cmdTid a.record) = some tb ∧ tb.state ≠ TableState.deleted ∧ cmdOp a.record =
    17) ∧
    (∃ (s : State) (t : Nat) (a : Accepted) (tb : TableRec), (s.at t).inWrite = true ∧ List.filter (fun (b : Accepted) ↦ !b.applied && decide (b.applyTide
    ≤ s.clock.grid) && b.result.isNone) s.cmds.accepted = [a] ∧ s.table (cmdTid a.record) = some tb ∧ tb.state ≠ TableState.deleted ∧
    let h := cmdHandle a.record; ∃ (len : Nat) (e : Entry), s.target (cmdTid a.record) h = (0, some (len, e)) ∧ cmdOp a.record = 4) ∧
    (∃ (s : State) (t : Nat) (a : Accepted) (tb : TableRec), (s.at t).inWrite = true ∧ List.filter (fun (b : Accepted) ↦ !b.applied && decide (b.applyTide
    ≤ s.clock.grid) && b.result.isNone) s.cmds.accepted = [a] ∧ s.table (cmdTid a.record) = some tb ∧ tb.state ≠ TableState.deleted ∧
    let h := cmdHandle a.record; ∃ (len : Nat) (e : Entry), s.target (cmdTid a.record) h = (0, some (len, e)) ∧ cmdOp a.record = 2 ∧
    s.numbers.pendingMeta.has len = false ∧ (s.at t).opsRoom (s.writeBanks e.bank e.row) 1 (fun (x : Nat) ↦ 0) 0 = true) ∧
    (∃ (s : State) (t : Nat) (a : Accepted) (tb : TableRec), (s.at t).inWrite = true ∧ List.filter (fun (b : Accepted) ↦ !b.applied && decide (b.applyTide
    ≤ s.clock.grid) && b.result.isNone) s.cmds.accepted = [a] ∧ s.table (cmdTid a.record) = some tb ∧ tb.state ≠ TableState.deleted ∧
    let h := cmdHandle a.record; ∃ (r : Nat), s.target (cmdTid a.record) h = (r, none) ∧ cmdOp a.record = 4) := by
  repeat' refine And.intro ?_ ?_
  · refine ⟨withAccepted world (cmd 0x09 1 0 ([])), 240, acceptedOf (cmd 0x09 1 0 ([])), ternTable, ?_⟩
    decide +kernel
  · refine ⟨withAccepted world (cmd 0x0A 1 0 ([])), 240, acceptedOf (cmd 0x0A 1 0 ([])), ternTable, ?_⟩
    decide +kernel
  · refine ⟨withAccepted world (cmd 0x11 32768 0 (leBytes 9 8)), 240, acceptedOf (cmd 0x11 32768 0 (leBytes 9 8)), directTable, ?_⟩
    decide +kernel
  · refine ⟨withAccepted world (cmd 0x04 1 aHandle ([])), 240, acceptedOf (cmd 0x04 1 aHandle ([])), ternTable, ?_⟩
    repeat (refine ⟨by decide +kernel, ?_⟩)
    refine ⟨7, anEntry, ?_⟩
    decide +kernel
  · refine ⟨withAccepted world (cmd 0x02 1 aHandle ([])), 240, acceptedOf (cmd 0x02 1 aHandle ([])), ternTable, ?_⟩
    repeat (refine ⟨by decide +kernel, ?_⟩)
    refine ⟨7, anEntry, ?_⟩
    decide +kernel
  · refine ⟨withAccepted world (cmd 0x04 1 (2 ^ 25 + 7) ([])), 240, acceptedOf (cmd 0x04 1 (2 ^ 25 + 7) ([])), ternTable, ?_⟩
    repeat (refine ⟨by decide +kernel, ?_⟩)
    refine ⟨0x06, ?_⟩
    decide +kernel

/-- The hypotheses of OpeningCommands are met, those of each clause. -/
theorem test_hypotheses_OpeningCommands :
    (∃ (s : State) (t : Nat) (src : Source) (c : Cmd) (rest : List Cmd), let body := cmdBody c.record; ∃ (n : Nat), Clears s t src c rest 32 true false
    Right.user ∧ List.length body = 8 ∧ cmdTid c.record < 64 ∧ destOk (fieldLE body 0 2) = true ∧ byteAt body 2 < 2 ∧ zerosAt body 3 5 = true ∧
    (s.berth (cmdBerth c.record)).record.glyphMask.testBit (cmdTid c.record) = true ∧ s.setUsable (cmdTid c.record) = true ∧ s.freeStream = some n) ∧
    (∃ (s : State) (t : Nat) (src : Source) (c : Cmd) (rest : List Cmd), let body := cmdBody c.record; Clears s t src c rest 40 true false
    Right.supervisor ∧ List.length body = 64 ∧ cmdTid c.record < 64 ∧ zerosAt body 12 4 = true ∧ dmaRange (fieldLE body 0 8) (fieldLE body 8 4) = true
    ∧ s.setBusy (cmdTid c.record) = false) ∧
    (∃ (s : State) (t : Nat) (src : Source) (c : Cmd) (rest : List Cmd), let body := cmdBody c.record; ∃ (tb : TableRec), Clears s t src c rest 12 true
    false Right.counter ∧ 8 ≤ List.length body ∧ zerosAt body 0 8 = true ∧ s.observe.traces.length < 8 ∧ (s.at t).noTable src (cmdTid c.record) = none
    ∧ s.table (cmdTid c.record) = some tb ∧ tb.df.direct = false ∧ traceForm tb.df body = true) ∧
    (∃ (s : State) (t : Nat) (src : Source) (c : Cmd) (rest : List Cmd), let body := cmdBody c.record; Clears s t src c rest 13 true false Right.counter ∧
    body = [] ∧ s.observe.digests.length < 4 ∧ (s.at t).noTable src (cmdTid c.record) = none ∧ s.kindCheck (cmdTid c.record) false false = none) := by
  repeat' refine And.intro ?_ ?_
  · refine ⟨withCmd (world) (cmd 0x20 3 0 (leBytes 0 8)), 3, cmdSrc, cmd 0x20 3 0 (leBytes 0 8), [], ?_⟩
    refine ⟨1, ?_⟩
    (first | decide +kernel | (unfold Clears; decide +kernel))
  · refine ⟨withCmd (world) (cmd 0x28 5 0 (leBytes hostDmaAddr 8 ++ leBytes 4096 4 ++ zeros 4 ++ zeros 48)), 3, cmdSrc,
        cmd 0x28 5 0 (leBytes hostDmaAddr 8 ++ leBytes 4096 4 ++ zeros 4 ++ zeros 48), [], ?_⟩
    (first | decide +kernel | (unfold Clears; decide +kernel))
  · refine ⟨withCmd (world) (cmd 0x0C 1 0 (zeros 40)), 3, cmdSrc, cmd 0x0C 1 0 (zeros 40), [], ?_⟩
    refine ⟨ternTable, ?_⟩
    (first | decide +kernel | (unfold Clears; decide +kernel))
  · refine ⟨withCmd (world) (cmd 0x0D 1 0 ([])), 3, cmdSrc, cmd 0x0D 1 0 ([]), [], ?_⟩
    (first | decide +kernel | (unfold Clears; decide +kernel))

/-- The hypotheses of CommandsEndOtherwise are met, those of each clause. -/
theorem test_hypotheses_CommandsEndOtherwise :
    (∃ (s : State) (t : Nat) (src : Source) (c : Cmd) (rest : List Cmd), src ≠ Source.seed ∧ (s.at t).fifo src = c :: rest ∧ (s.at t).frozen c.master =
    true ∧ c.eligible ≤ (s.at t).now ∧ (s.at t).engineRuns = true ∧ s.cmds.takenAt ≠ (s.at t).now) ∧
    (∃ (s : State) (src : Source) (c : Cmd) (rest : List Cmd) (h : Nat), s.clock.stroke = 0 ∧ s.fifo src = c :: rest ∧ c.headTide = some h ∧ h + 257 ≤
    s.clock.grid ∧ ownBound (cmdOp c.record) = false) ∧
    (∃ (s : State) (a : Accepted), s.clock.stroke = 0 ∧ List.filter s.overdue s.cmds.accepted = [a]) := by
  repeat' refine And.intro ?_ ?_
  · refine ⟨withCmd ({ world with masters := [(0, { Master.reset with freeze := some ⟨2, 9, none, 0, 0, none, none⟩ })] }) ({ cmd 2 1 0 [] with headTide := some 5 }),
        3, cmdSrc, { cmd 2 1 0 [] with headTide := some 5 }, [], ?_⟩
    decide +kernel
  · refine ⟨{ withCmd world { cmd 2 1 0 [] with headTide := some 0 } with clock := { base.clock with grid := 257 } }, cmdSrc,
        { cmd 2 1 0 [] with headTide := some 0 }, [], 0, ?_⟩
    decide +kernel
  · refine ⟨{ withAccepted world (cmd 2 1 0 []) with clock := { base.clock with grid := 600 } }, acceptedOf (cmd 2 1 0 []), ?_⟩
    decide +kernel

/-- The hypotheses of PlanStepAndRollback are met, those of each clause. -/
theorem test_hypotheses_PlanStepAndRollback :
    (∃ (s : State) (t : Nat), (s.at t).inWrite = true ∧ ∃ (f : Insertion) (e : Entry) (tb : TableRec), List.find? (fun (i : Insertion) ↦ i.id == f.id)
    s.cmds.flights = some f ∧ f.waits = true ∧ f.relabels = [] ∧ f.victim = none ∧ f.stepTide ≤ s.clock.grid ∧ planMoves f.plan = [] ∧ s.table f.tid =
    some tb ∧ s.entry f.len = some e ∧ let banks := s.pairBanks f.plan.bank; let n := stepOps (s.flightWidth f) [] true;
    let rows := s.rowsNow f.tid f.plan.bank;
    let free := (s.writable f.plan.bank f.plan.row && s.spanFree f.tid tb.df.units f.plan.bank f.plan.row && rows.all fun (x : PlacedRow) ↦ x.fst != f.plan.row) && stepInOrder tb.df.cls rows [] [(f.plan.row, f.keyHi, f.keyLo, f.len)];
    let room := (s.at t).planRoom banks n && !banks.any s.bankDown; n ≠ 0 ∧ free = true ∧ room = true) ∧
    (∃ (s : State) (t : Nat), (s.at t).inWrite = true ∧ ∃ (f : Insertion) (e : Entry) (tb : TableRec), List.find? (fun (i : Insertion) ↦ i.id == f.id)
    s.cmds.flights = some f ∧ f.waits = true ∧ f.relabels = [] ∧ f.victim = none ∧ f.stepTide ≤ s.clock.grid ∧ planMoves f.plan = [] ∧ s.table f.tid =
    some tb ∧ s.entry f.len = some e ∧ let banks := s.pairBanks f.plan.bank; let n := stepOps (s.flightWidth f) [] true;
    let rows := s.rowsNow f.tid f.plan.bank;
    let free := (s.writable f.plan.bank f.plan.row && s.spanFree f.tid tb.df.units f.plan.bank f.plan.row && rows.all fun (x : PlacedRow) ↦ x.fst != f.plan.row) && stepInOrder tb.df.cls rows [] [(f.plan.row, f.keyHi, f.keyLo, f.len)];
    let room := (s.at t).planRoom banks n && !banks.any s.bankDown; ∃ (held : Bool), free = true ∧ room = false) ∧
    (∃ (s : State) (t : Nat), (s.at t).inWrite = true ∧ ∃ (f : Insertion) (e : Entry) (code : Nat), List.filter (fun (i : Insertion) ↦ i.rollback.isSome
    && !i.rolledBack) s.cmds.flights = [f] ∧ f.rollback = some code ∧ s.entry f.len = some e ∧ f.victim = none ∧ (f.lastWrite.isSome = true → (s.at
    t).roomFor Rank.plan (s.writeBanks e.bank e.row) 1 = true)) := by
  repeat' refine And.intro ?_ ?_
  · refine ⟨withFlight aFlight, 240, ?_⟩
    repeat (refine ⟨by decide +kernel, ?_⟩)
    refine ⟨aFlight, { anEntry with state := .placing, row := 11, keyHi := 90, keyLo := 4, seq := 4 }, ternTable, ?_⟩
    decide +kernel
  · refine ⟨{ withFlight aFlight with service := { base.service with unavailable := [5] } }, 240, ?_⟩
    repeat (refine ⟨by decide +kernel, ?_⟩)
    refine ⟨aFlight, { anEntry with state := .placing, row := 11, keyHi := 90, keyLo := 4, seq := 4 }, ternTable, ?_⟩
    repeat (refine ⟨by decide +kernel, ?_⟩)
    refine ⟨false, ?_⟩
    decide +kernel
  · refine ⟨withFlight { aFlight with rollback := some 0x10 }, 240, ?_⟩
    repeat (refine ⟨by decide +kernel, ?_⟩)
    refine ⟨{ aFlight with rollback := some 0x10 }, { anEntry with state := .placing, row := 11, keyHi := 90, keyLo := 4, seq := 4 }, 0x10, ?_⟩
    decide +kernel

/-- The hypotheses of BackgroundAndMirrorWork are met, those of each clause. -/
theorem test_hypotheses_BackgroundAndMirrorWork :
    (∃ (s : State) (t : Nat) (tid : Nat) (tb : TableRec), (s.at t).inWrite = true ∧ s.table tid = some tb ∧ tb.df.tid = tid) ∧
    (∃ (s : State) (t : Nat) (tid : Nat) (tb : TableRec), (s.at t).inWrite = true ∧ s.table tid = some tb ∧ tb.df.tid = tid ∧
    let quiet := tb.state = TableState.live ∧ tb.df.direct = false ∧ s.observed tid = false; ∃ (m : Move) (len : Nat) (e : Entry), quiet ∧ s.planBusy
    tid m.bank = false ∧ s.liveMoves tid [m] = [(m, len)] ∧ s.entry len = some e ∧ s.writable m.bank m.dst = true ∧ s.respaces tb.df m.bank (s.rowsNow
    tid m.bank) [m] = true ∧ (s.playStep tb.df m.bank (s.rowsNow tid m.bank) [] [m] (s.newRows tid m.bank) []).isSome = true ∧ (s.at t).backRoom
    Rank.respace (s.pairBanks m.bank) (stepOps tb.df.units [m] false) = true) ∧
    (∃ (s : State) (t : Nat) (tid : Nat) (tb : TableRec), (s.at t).inWrite = true ∧ s.table tid = some tb ∧ tb.df.tid = tid ∧
    let quiet := tb.state = TableState.live ∧ tb.df.direct = false ∧ s.observed tid = false;
    let whole := tb.nextChart.selector.length = tb.chart.selector.length; quiet ∧ tb.work ≠ 1 ∧ s.maySplit tb = true ∧ s.wantsSplit tb = true ∧ whole
    ∧ ∃ (pos : Nat), pos < 80 * tb.df.units ∧ tb.nextChart.selector.contains pos = false) ∧
    (∃ (s : State) (t : Nat) (tid : Nat) (tb : TableRec), (s.at t).inWrite = true ∧ s.table tid = some tb ∧ tb.df.tid = tid ∧
    let quiet := tb.state = TableState.live ∧ tb.df.direct = false ∧ s.observed tid = false;
    let whole := tb.nextChart.selector.length = tb.chart.selector.length; let pairs := List.filter (s.mayMerge tb) (List.range tb.nextChart.half);
    quiet ∧ tb.work ≠ 1 ∧ tb.nextChart.selector ≠ [] ∧ whole ∧ pairs ≠ [] ∧ tb.merged = [] ∧ tb.nextChart.unite pairs ≠ tb.chart) ∧
    (∃ (s : State) (t : Nat) (tid : Nat) (tb : TableRec), (s.at t).inWrite = true ∧ s.table tid = some tb ∧ tb.df.tid = tid ∧
    let quiet := tb.state = TableState.live ∧ tb.df.direct = false ∧ s.observed tid = false;
    let whole := tb.nextChart.selector.length = tb.chart.selector.length; let pairs := List.filter (s.mayMerge tb) (List.range tb.nextChart.half);
    quiet ∧ tb.work ≠ 1 ∧ tb.nextChart.selector ≠ [] ∧ whole ∧ pairs ≠ [] ∧ tb.chartNext = none ∧ pairs.length = tb.chart.half ∧ tb.merged.length =
    tb.chart.half ∧ tb.chart.unite pairs = tb.chart) ∧
    (∃ (s : State) (t : Nat) (tid : Nat) (tb : TableRec), (s.at t).inWrite = true ∧ s.table tid = some tb ∧ tb.df.tid = tid ∧
    let quiet := tb.state = TableState.live ∧ tb.df.direct = false ∧ s.observed tid = false; quiet ∧ ∃ (len : Nat) (q : Nat) (e : Entry), tb.reseq =
    some { left := [(len, q)] } ∧ s.entry len = some e ∧ e.state = EntryState.live ∧ ((s.at t).setTable tb).workRoom Rank.renumber e.bank 1 = true) ∧
    (∃ (s : State) (t : Nat) (tid : Nat) (tb : TableRec), (s.at t).inWrite = true ∧ s.table tid = some tb ∧ tb.df.tid = tid ∧ tb.state = TableState.live ∧
    tb.df.cls = 1 ∧ tb.df.direct = false ∧ ∃ (len : Nat) (y : Nat) (e : Entry), tb.relabel = [(len, y)] ∧ s.entry len = some e ∧ e.state =
    EntryState.live ∧ (s.at t).workRoom Rank.renumber e.bank 1 = true) ∧
    (∃ (s : State) (t : Nat) (tid : Nat) (tb : TableRec), (s.at t).inWrite = true ∧ s.table tid = some tb ∧ tb.df.tid = tid ∧ (tb.state =
    TableState.flushed ∨ tb.state = TableState.deleted) ∧ (List.any s.numbers.entries fun (p : Nat × Entry) ↦ p.snd.tid == tid) = false) ∧
    (∃ (s : State) (t : Nat) (tid : Nat) (tb : TableRec), (s.at t).inWrite = true ∧ s.table tid = some tb ∧ tb.df.tid = tid ∧ (tb.state =
    TableState.flushed ∨ tb.state = TableState.deleted) ∧ ∃ (len : Nat) (e : Entry), List.filter (fun (p : Nat × Nat) ↦ p.fst == tid)
    s.numbers.freeing = [(tid, len)] ∧ s.entry len = some e ∧ e.tid = tid ∧ e.state = EntryState.live ∧ (s.at t).backRoom Rank.free (s.writeBanks
    e.bank e.row) 1 = true) ∧
    (∃ (s : State) (t : Nat), (s.at t).inWrite = true ∧ s.mode.pending = some 3 ∧ s.mode.preparing = true ∧ s.mirrorBlocked = [] ∧ s.arrays.mirrorBuild =
    []) ∧
    (∃ (s : State) (t : Nat), (s.at t).inWrite = true ∧ s.mode.pending = some 3 ∧ s.mode.preparing = true ∧ s.mirrorBlocked = [] ∧ ∃ (bank : Nat) (row :
    Nat) (e : Entry), row < 32768 ∧ s.arrays.mirrorBuild = [32768 * bank + row] ∧ s.entry (s.tag bank row).len = some e ∧ e.bank = bank ∧ e.row = row
    ∧ e.gen = (s.tag bank row).gen ∧ (s.tag bank row).state = RowState.live ∧ partnerBank bank ≠ bank ∧ s.arrays.mirrorFree.contains (rowKey
    (partnerBank bank) row) = false ∧ s.tagWritable (partnerBank bank) row = true ∧ (s.at t).backRoom Rank.build [partnerBank bank] e.width = true) ∧
    (∃ (s : State) (t : Nat), (s.at t).inWrite = true ∧ ∃ (bank : Nat) (row : Nat), row < 32768 ∧ s.arrays.mirrorFree = [32768 * bank + row] ∧ (s.tag bank
    row).state = RowState.live ∧ (s.at t).backRoom Rank.free [bank] 1 = true) := by
  repeat' refine And.intro ?_ ?_
  · refine ⟨world, 251, 1, ternTable, ?_⟩
    decide +kernel
  · refine ⟨withTable { ternTable with df := { ternDef with cls := 2 } }, 240, 1, { ternTable with df := { ternDef with cls := 2 } }, ?_⟩
    repeat (refine ⟨by decide +kernel, ?_⟩)
    refine ⟨⟨5, 9, 3⟩, 7, anEntry, ?_⟩
    decide +kernel
  · refine ⟨withTable { ternTable with chart := ⟨[0, 1, 3], [[5], [5], [5], [5], [5], [5], [5], [5]], [], 0, false⟩ }, 240, 1,
        { ternTable with chart := ⟨[0, 1, 3], [[5], [5], [5], [5], [5], [5], [5], [5]], [], 0, false⟩ }, ?_⟩
    repeat (refine ⟨by decide +kernel, ?_⟩)
    refine ⟨79, ?_⟩
    decide +kernel
  · refine ⟨withTable { ternTable with chart := ⟨[0], [[5], [6]], [], 0, false⟩ }, 240, 1, { ternTable with chart := ⟨[0], [[5], [6]], [], 0, false⟩ },
        ?_⟩
    decide +kernel
  · refine ⟨withTable { ternTable with chart := ⟨[0], [[5], [5]], [], 0, false⟩, merged := [0] }, 240, 1,
        { ternTable with chart := ⟨[0], [[5], [5]], [], 0, false⟩, merged := [0] }, ?_⟩
    decide +kernel
  · refine ⟨withTable { ternTable with reseq := some ⟨[(7, 0)]⟩ }, 240, 1, { ternTable with reseq := some ⟨[(7, 0)]⟩ }, ?_⟩
    repeat (refine ⟨by decide +kernel, ?_⟩)
    refine ⟨7, 0, anEntry, ?_⟩
    decide +kernel
  · refine ⟨withTable { ternTable with df := { ternDef with cls := 1 }, relabel := [(7, 65536)] }, 240, 1,
        { ternTable with df := { ternDef with cls := 1 }, relabel := [(7, 65536)] }, ?_⟩
    repeat (refine ⟨by decide +kernel, ?_⟩)
    refine ⟨7, 65536, anEntry, ?_⟩
    decide +kernel
  · refine ⟨{ withTable { ternTable with state := .flushed } with numbers := State.reset.numbers }, 240, 1, { ternTable with state := .flushed }, ?_⟩
    decide +kernel
  · refine ⟨{ withTable { ternTable with state := .deleted } with numbers := { world.numbers with freeing := [(1, 7)] } }, 240, 1,
        { ternTable with state := .deleted }, ?_⟩
    repeat (refine ⟨by decide +kernel, ?_⟩)
    refine ⟨7, anEntry, ?_⟩
    decide +kernel
  · refine ⟨{ world with mode := { world.mode with pending := some 3, preparing := true }, arrays := { world.arrays with mirrorBuild := [] } }, 240, ?_⟩
    decide +kernel
  · refine ⟨{ world with mode := { world.mode with pending := some 3, preparing := true }, arrays := { world.arrays with mirrorBuild := [32768 * 5 + 9] } },
        240, ?_⟩
    repeat (refine ⟨by decide +kernel, ?_⟩)
    refine ⟨5, 9, anEntry, ?_⟩
    decide +kernel
  · refine ⟨{ world with arrays := { world.arrays with mirrorFree := [32768 * 5 + 9] } }, 240, ?_⟩
    repeat (refine ⟨by decide +kernel, ?_⟩)
    refine ⟨5, 9, ?_⟩
    decide +kernel

/-- The hypotheses of HotStore are met, those of each clause. -/
theorem test_hypotheses_HotStore :
    (∃ (s : State) (t : Nat) (c : AdChange), s.hot.adChanges = [c] ∧ adWindowStart s.mode.mode ≤ ↑(s.at t).now - ↑(c.tide * 256) ∧ (↑(s.at t).now -
    ↑(c.tide * 256) ≤ 95 ∨ c.tide < s.clock.grid) ∧ (s.hot.adAt = (s.at t).now → s.hot.adNow < 8)) ∧
    (∃ (s : State) (t : Nat) (len : Nat) (w : Nat) (e : Entry) (tb : TableRec), s.entry len = some e ∧ s.table e.tid = some tb ∧ (s.at t).inWrite = true ∧
    s.bit Fld.PIL_HOT_CTL_auto_en = true ∧ tb.df.hot = 0 ∧ tb.df.adBytes ≠ 0 ∧ e.state = EntryState.live ∧ s.adPending len = false ∧ s.hot.tags.has
    len = false ∧ s.fld Fld.PIL_HOT_CTL_promote_thresh ≤ s.hot.filter.findD len 0 ∧ 0 < s.hot.filter.findD len 0 ∧ s.autoWay (hotSet len) = some w) ∧
    (∃ (s : State) (t : Nat) (len : Nat) (w : Nat), (s.at t).inWrite = true ∧ List.find? (fun (n : Nat) ↦ decide (hotSet n = hotSet len)) s.hot.pinWait =
    some len ∧ s.adPending len = false ∧ s.freeWay (hotSet len) 4 = some w) ∧
    (∃ (s : State), s.hot.decayStart + s.decayPeriod ≤ s.clock.grid) ∧
    (∃ (s : State), s.clock.grid < s.hot.decayStart + s.decayPeriod) ∧
    (∃ (s : State) (t : Nat) (k : Nat) (l : HotLine) (g : HotTag), (s.at t).inWrite = true ∧ s.mode.pending = some 5 ∧ s.mode.preparing = true ∧
    s.hot.lines = [(k, l)] ∧ 4 ≤ k % 8 ∧ l.freeFrom = none ∧ s.adPending l.len = false ∧ s.hot.tags.find l.len = some g ∧ k = hotKey (hotSet l.len)
    g.way) := by
  repeat' refine And.intro ?_ ?_
  · refine ⟨{ world with hot := { world.hot with adChanges := [⟨7, leBytes 5 8, 10⟩] } }, 87, ⟨7, leBytes 5 8, 10⟩, ?_⟩
    decide +kernel
  · refine ⟨({ world with hot := { world.hot with filter := [(7, 4)] } } : State).setFld Fld.PIL_HOT_CTL_auto_en 1, 240, 7, 7, anEntry, ternTable, ?_⟩
    decide +kernel
  · refine ⟨{ world with hot := { world.hot with pinWait := [7] } }, 240, 7, 0, ?_⟩
    decide +kernel
  · refine ⟨{ world with clock := { world.clock with grid := 1024 * 1024 * 1024 * 1024 } }, ?_⟩
    decide +kernel
  · refine ⟨world, ?_⟩
    decide +kernel
  · refine ⟨{ world with mode := { world.mode with pending := some 5, preparing := true }, hot := { world.hot with lines := [(7 * 8 + 4, ⟨7, false, 3, zeros 8, none⟩)], tags := [(7, ⟨4, 9, none⟩)] } },
        240, 60, ⟨7, false, 3, zeros 8, none⟩, ⟨4, 9, none⟩, ?_⟩
    decide +kernel

/-- The hypotheses of DrainsAndSelfTests are met, those of each clause. -/
theorem test_hypotheses_DrainsAndSelfTests :
    (∃ (s : State) (t : Nat) (w : Word64) (x : State), Stores s t Reg.PIL_DRAIN_CTL 0 w x ∧ Fld.PIL_DRAIN_CTL_go.get (BitVec.toNat w) = 1 ∧ s.cmdAuth =
    false ∧ s.arrays.drain = none ∧ let bank := x.fld Fld.PIL_DRAIN_CTL_bank; ∃ (op : Nat), x.fld Fld.PIL_DRAIN_CTL_op = op ∧ (op = 1 ∨ op = 2) ∧ ∃ (c
    : Instr), (c = if op = 1 then Instr.pilDrain t 0 w else Instr.pilReturn t 0 w) ∧ ∃ (r : Nat), s.drainRefused bank op = some r) ∧
    (∃ (s : State) (t : Nat) (w : Word64) (x : State), Stores s t Reg.PIL_DRAIN_CTL 0 w x ∧ Fld.PIL_DRAIN_CTL_go.get (BitVec.toNat w) = 1 ∧ s.cmdAuth =
    false ∧ s.arrays.drain = none ∧ let bank := x.fld Fld.PIL_DRAIN_CTL_bank; ∃ (op : Nat), x.fld Fld.PIL_DRAIN_CTL_op = op ∧ (op = 1 ∨ op = 2) ∧ ∃ (c
    : Instr), (c = if op = 1 then Instr.pilDrain t 0 w else Instr.pilReturn t 0 w) ∧ s.drainRefused bank op = none) ∧
    (∃ (s : State) (t : Nat) (d : Drain), s.arrays.drain = some d ∧ (s.at t).inWrite = true ∧ d.startTide ≤ s.clock.grid ∧ d.copied < d.total ∧ (s.at
    t).copyRoom d = true) ∧
    (∃ (s : State) (t : Nat) (d : Drain), s.arrays.drain = some d ∧ (s.at t).clock.stroke = 255 ∧ d.copied = d.total) ∧
    (∃ (s : State) (t : Nat) (w : Word64) (x : State), Stores s t Reg.ARY_BIST_CTL 0 w x ∧ Fld.ARY_BIST_CTL_go.get (BitVec.toNat w) = 1 ∧ s.cmdAuth =
    false ∧ s.service.bist = none ∧
    let slot := x.fld Fld.ARY_BIST_CTL_quadrant * 136 + x.fld Fld.ARY_BIST_CTL_block * 17 + x.fld Fld.ARY_BIST_CTL_slot; (s.slotState slot).health ≠
    Health.serving ∧ (s.slotState slot).health ≠ Health.testing) ∧
    (∃ (s : State) (t : Nat) (b : Bist), s.service.bist = some b ∧ b.started = true ∧ b.ended = none ∧ b.opsLeft ≤ s.bistStrokes (s.at t).clock.stroke ∧
    ((s.at t).inWrite = true ∨ (s.at t).inScrub = true)) ∧
    (∃ (s : State) (t : Nat) (bank : Nat) (row : Nat), (s.at t).inWrite = true ∧ s.toRewrite bank row = true ∧ let w := (s.bankWidth bank).getD 1; row <
    32768 / w ∧ (s.at t).backRoom Rank.free [bank] w = true) := by
  repeat' refine And.intro ?_ ?_
  · refine ⟨world, 3, wordOf [(Fld.PIL_DRAIN_CTL_go, 1), (Fld.PIL_DRAIN_CTL_bank, 511), (Fld.PIL_DRAIN_CTL_op, 2)],
        stored (world) 3 .PIL_DRAIN_CTL 0 (wordOf [(Fld.PIL_DRAIN_CTL_go, 1), (Fld.PIL_DRAIN_CTL_bank, 511), (Fld.PIL_DRAIN_CTL_op, 2)]), ?_⟩
    repeat (refine ⟨by (first | decide +kernel | (unfold Stores; decide +kernel)), ?_⟩)
    refine ⟨2, ?_⟩
    repeat (refine ⟨by (first | decide +kernel | (unfold Stores; decide +kernel)), ?_⟩)
    refine ⟨.pilReturn 3 0 (wordOf [(Fld.PIL_DRAIN_CTL_go, 1), (Fld.PIL_DRAIN_CTL_bank, 511), (Fld.PIL_DRAIN_CTL_op, 2)]), ?_⟩
    repeat (refine ⟨by (first | decide +kernel | (unfold Stores; decide +kernel)), ?_⟩)
    refine ⟨2, ?_⟩
    (first | decide +kernel | (unfold Stores; decide +kernel))
  · refine ⟨world, 3, wordOf [(Fld.PIL_DRAIN_CTL_go, 1), (Fld.PIL_DRAIN_CTL_bank, 511), (Fld.PIL_DRAIN_CTL_op, 1)],
        stored (world) 3 .PIL_DRAIN_CTL 0 (wordOf [(Fld.PIL_DRAIN_CTL_go, 1), (Fld.PIL_DRAIN_CTL_bank, 511), (Fld.PIL_DRAIN_CTL_op, 1)]), ?_⟩
    repeat (refine ⟨by (first | decide +kernel | (unfold Stores; decide +kernel)), ?_⟩)
    refine ⟨1, ?_⟩
    repeat (refine ⟨by (first | decide +kernel | (unfold Stores; decide +kernel)), ?_⟩)
    refine ⟨.pilDrain 3 0 (wordOf [(Fld.PIL_DRAIN_CTL_go, 1), (Fld.PIL_DRAIN_CTL_bank, 511), (Fld.PIL_DRAIN_CTL_op, 1)]), ?_⟩
    (first | decide +kernel | (unfold Stores; decide +kernel))
  · refine ⟨{ world with arrays := { world.arrays with drain := some ⟨5, 1, spareSlot 5, 32768, 9, 10, false⟩ } }, 240, ⟨5, 1, spareSlot 5, 32768, 9, 10,
        false⟩, ?_⟩
    decide +kernel
  · refine ⟨{ world with arrays := { world.arrays with drain := some ⟨5, 1, spareSlot 5, 32768, 32768, 10, false⟩ } }, 255, ⟨5, 1, spareSlot 5, 32768,
        32768, 10, false⟩, ?_⟩
    decide +kernel
  · refine ⟨world, 3, wordOf [(Fld.ARY_BIST_CTL_go, 1), (Fld.ARY_BIST_CTL_quadrant, 3), (Fld.ARY_BIST_CTL_block, 7), (Fld.ARY_BIST_CTL_slot, 16)],
        stored (world) 3 .ARY_BIST_CTL 0 (wordOf [(Fld.ARY_BIST_CTL_go, 1), (Fld.ARY_BIST_CTL_quadrant, 3), (Fld.ARY_BIST_CTL_block, 7),
        (Fld.ARY_BIST_CTL_slot, 16)]), ?_⟩
    (first | decide +kernel | (unfold Stores; decide +kernel))
  · refine ⟨{ world with service := { world.service with bist := some ⟨16, 12, true, none⟩ } }, 253, ⟨16, 12, true, none⟩, ?_⟩
    decide +kernel
  · refine ⟨{ world with arrays := { world.arrays with rewriteBanks := [5] } }, 240, 5, 32767, ?_⟩
    decide +kernel

/-- The hypotheses of DramCare are met, those of each clause. -/
theorem test_hypotheses_DramCare :
    (∃ (s : State) (pc : Nat), s.clock.stroke = 0 ∧ s.clock.count % (s.stack (pc / 32)).period = pc % (s.stack (pc / 32)).period ∧ (s.pc pc).refreshAt ≠
    some s.clock.grid ∧ s.panicking (pc / 32) = true ∧ (s.pc pc).postponed < 8) ∧
    (∃ (s : State) (pc : Nat), s.clock.stroke = 0 ∧ s.clock.count % (s.stack (pc / 32)).period = pc % (s.stack (pc / 32)).period ∧ (s.pc pc).refreshAt ≠
    some s.clock.grid ∧ s.panicking (pc / 32) = false ∧ s.rtWaiting pc = true ∧ (s.pc pc).postponed < 8) ∧
    (∃ (s : State) (pc : Nat), s.clock.stroke = 0 ∧ s.clock.count % (s.stack (pc / 32)).period = pc % (s.stack (pc / 32)).period ∧ (s.pc pc).refreshAt ≠
    some s.clock.grid ∧ (8 ≤ (s.pc pc).postponed ∨ s.panicking (pc / 32) = false ∧ s.rtWaiting pc = false)) ∧
    (∃ (n : Nat), n < 2) ∧
    (∃ (s : State) (pc : Nat), s.clock.count % 585728 = 9152 * pc ∧ ((s.pc pc).state = PcState.inService ∨ (s.pc pc).state = PcState.rebuilding) ∧ (s.pc
    pc).verify = none ∧ (s.pc pc).fencing = false ∧ s.power.state ≤ 1) ∧
    (∃ (s : State) (pc : Nat) (v : Verify), (s.pc pc).verify = some v ∧ v.ends ≤ s.clock.grid ∧ (s.pc pc).fencing = false ∧ v.spareFor = none ∧ v.watchdog
    = false) ∧
    (∃ (s : State) (pc : Nat) (v : Verify), (s.pc pc).verify = some v ∧ v.ends ≤ s.clock.grid ∧ (s.pc pc).fencing = false ∧ v.spareFor = none ∧ v.watchdog
    = true) ∧
    (∃ (s : State) (pc : Nat) (v : Verify), (s.pc pc).verify = some v ∧ v.ends ≤ s.clock.grid ∧ (s.pc pc).fencing = false ∧ ∃ (place : Nat), v.spareFor =
    some place) ∧
    (∃ (s : State) (pc : Nat) (v : Verify), (s.pc pc).verify = some v ∧ v.ends ≤ s.clock.grid ∧ (s.pc pc).fencing = false ∧ ∃ (k : Nat), s.nextSet pc
    (v.failed ++ [(s.pc pc).set]) = some k) ∧
    (∃ (s : State) (pc : Nat) (v : Verify), (s.pc pc).verify = some v ∧ v.ends ≤ s.clock.grid ∧ (s.pc pc).fencing = false ∧ s.nextSet pc (v.failed ++
    [(s.pc pc).set]) = none) ∧
    (∃ (s : State) (n : Nat) (r : Rebuild) (rest : List Rebuild), s.dramCtl.rebuilds = r :: rest ∧ r.tide ≠ s.clock.grid ∧
    let m := min (min n 64) (groupStripes - r.next); r.next + m < groupStripes) ∧
    (∃ (s : State) (n : Nat) (r : Rebuild) (rest : List Rebuild), s.dramCtl.rebuilds = r :: rest ∧ r.tide ≠ s.clock.grid ∧
    let m := min (min n 64) (groupStripes - r.next); groupStripes ≤ r.next + m) ∧
    (∃ (s : State) (pc : Nat), (s.pc pc).state ≠ PcState.fenced ∧ (s.pc pc).state ≠ PcState.idleSpare ∧ (s.pc pc).fencing = false) := by
  repeat' refine And.intro ?_ ?_
  · refine ⟨{ world with dramCtl := { world.dramCtl with stackStates := [{ Stack.reset with panicNext := true }, Stack.reset], pcs := [(10, { Pseudo.reset 10 with postponed := 7 })] } },
        10, ?_⟩
    decide +kernel
  · refine ⟨{ world with memQueues := [(10, { PcQueue.reset with reads := [(1, 3)] })] }, 10, ?_⟩
    decide +kernel
  · refine ⟨{ world with dramCtl := { world.dramCtl with stackStates := [{ Stack.reset with panicNext := true }, Stack.reset], pcs := [(10, { Pseudo.reset 10 with postponed := 8 })] } },
        10, ?_⟩
    decide +kernel
  · refine ⟨1, ?_⟩
    decide +kernel
  · refine ⟨{ world with clock := { world.clock with count := 9152 * 61 } }, 61, ?_⟩
    decide +kernel
  · refine ⟨{ world with dramCtl := { world.dramCtl with pcs := [(0, { Pseudo.reset 0 with verify := some ⟨10, [], none, false⟩ })] } }, 0, ⟨10, [], none,
        false⟩, ?_⟩
    decide +kernel
  · refine ⟨{ world with dramCtl := { world.dramCtl with pcs := [(0, { Pseudo.reset 0 with verify := some ⟨10, [], none, true⟩ })] } }, 0, ⟨10, [], none,
        true⟩, ?_⟩
    decide +kernel
  · refine ⟨{ world with dramCtl := { world.dramCtl with pcs := [(30, { Pseudo.reset 30 with verify := some ⟨10, [], some 0, false⟩ })] } }, 30, ⟨10, [],
        some 0, false⟩, ?_⟩
    repeat (refine ⟨by decide +kernel, ?_⟩)
    refine ⟨0, ?_⟩
    decide +kernel
  · refine ⟨{ world with dramCtl := { world.dramCtl with validSets := [(0, [0, 2])], nsets := 4, pcs := [(0, { Pseudo.reset 0 with verify := some ⟨10, [], none, false⟩ })] } },
        0, ⟨10, [], none, false⟩, ?_⟩
    repeat (refine ⟨by decide +kernel, ?_⟩)
    refine ⟨2, ?_⟩
    decide +kernel
  · refine ⟨{ world with dramCtl := { world.dramCtl with pcs := [(0, { Pseudo.reset 0 with verify := some ⟨10, [], none, false⟩ })] } }, 0, ⟨10, [], none,
        false⟩, ?_⟩
    decide +kernel
  · refine ⟨{ world with dramCtl := { world.dramCtl with rebuilds := [⟨0, 30, 5, 0, 9⟩] } }, 65, ⟨0, 30, 5, 0, 9⟩, [], ?_⟩
    decide +kernel
  · refine ⟨{ world with dramCtl := { world.dramCtl with rebuilds := [⟨0, 30, 16777152, 0, 9⟩] } }, 64, ⟨0, 30, 16777152, 0, 9⟩, [], ?_⟩
    decide +kernel
  · refine ⟨world, 0, ?_⟩
    decide +kernel

/-- The hypotheses of ScrubberWorks are met, those of each clause. -/
theorem test_hypotheses_ScrubberWorks :
    (∃ (s : State) (t : Nat) (p : PrioLine), (s.at t).inScrub = true ∧ s.serving = true ∧ s.domainDown 25 = false ∧ s.scrub.readAt ≠ some (s.at t).now ∧
    s.scrub.prio = [p] ∧ s.scrub.stripeReads = [] ∧ s.bankDown p.bank = false ∧ s.bit Fld.ARY_SCRUB_CTL_scrub_en = false) ∧
    (∃ (s : State) (r : ScrubRead) (rest : List ScrubRead), s.scrub.reads = r :: rest ∧ ∃ (c : LineCheck), r.dirty = true ∧ s.scrub.prio.length < 64) ∧
    (∃ (s : State) (r : ScrubRead) (rest : List ScrubRead), s.scrub.reads = r :: rest ∧ r.dirty = false ∧ s.bankWidth r.bank = some 1 ∧ s.scrub.verifying
    = [] ∧ s.dramCtl.pcs = [] ∧ ∀ (i : Nat), i < 4 → (s.tag r.bank (4 * r.line + i)).state = RowState.empty ∧ s.unitBits r.bank (4 * r.line + i) =
    s.shadowUnit (s.shadowBank r.bank (4 * r.line + i)) (4 * r.line + i)) ∧
    (∃ (s : State) (t : Nat) (r : Repair), (s.at t).inWrite = true ∧ s.scrub.repairs = [r] ∧ s.repairBarred r = false ∧
    let s0 : State := { s.at t with scrub := { s.scrub with repairs := [] } }; s0.roomFor Rank.repair (s0.repairBanks r) (s0.repairStrokes r) = true ∧
    ∃ (u : Nat), r.kind = RepairKind.unitFix u) ∧
    (∃ (s : State) (t : Nat) (r : Repair), (s.at t).inWrite = true ∧ s.scrub.repairs = [r] ∧ s.repairBarred r = false ∧
    let s0 : State := { s.at t with scrub := { s.scrub with repairs := [] } }; s0.roomFor Rank.repair (s0.repairBanks r) (s0.repairStrokes r) = true ∧
    ∃ (row : Nat), r.kind = RepairKind.emptyRow row) ∧
    (∃ (s : State) (t : Nat) (r : Repair), (s.at t).inWrite = true ∧ s.scrub.repairs = [r] ∧ s.repairBarred r = false ∧
    let s0 : State := { s.at t with scrub := { s.scrub with repairs := [] } }; s0.roomFor Rank.repair (s0.repairBanks r) (s0.repairStrokes r) = true ∧
    ∃ (row : Nat), r.kind = RepairKind.orphan row ∧ (s.tag r.bank row).state = RowState.live) ∧
    (∃ (s : State) (len : Nat) (e : Entry), s.entry len = some e ∧ s.numbers.pendingMeta.has len = true ∧ s.scrub.metaSeen.contains len = true ∧
    let g := s.tag e.bank e.row; g.len = len ∧ g.gen = e.gen ∧ (g.state = RowState.live ∨ g.state = RowState.armed)) ∧
    (∃ (s : State) (len : Nat) (p : Nat), s.numbers.pendingMeta.find len = some p ∧ s.scrub.metaSeen.contains len = false ∧ p + 2 ≤ s.scrub.passes) ∧
    (∃ (s : State) (x : TagSearch) (rest : List TagSearch) (len : Nat) (e : Entry), s.scrub.tagSearches = x :: rest ∧ List.find? (fun (p : Nat × Entry) ↦
    p.snd.state == EntryState.live && p.snd.row == x.row && (p.snd.bank == x.bank || s.mode.mode == 3 && p.snd.bank == partnerBank x.bank))
    s.numbers.entries = some (len, e)) ∧
    (∃ (s : State) (stripe : Nat), s.scrub.stripes.contains stripe = true ∧ (s.scrub.stripeReads.any fun (x : Nat × Nat × Nat) ↦ x.fst == stripe) = false
    ∧ s.mode.mode ≠ 3) ∧
    (∃ (s : State) (bank : Nat) (line : Nat) (n : Nat), s.scrub.unsettled.find (lineKey bank line) = some n) := by
  repeat' refine And.intro ?_ ?_
  · refine ⟨({ world with scrub := { world.scrub with prio := [⟨5, 2, true⟩] } } : State).setFld Fld.ARY_SCRUB_CTL_scrub_en 0, 252, ⟨5, 2, true⟩, ?_⟩
    decide +kernel
  · refine ⟨{ world with scrub := { world.scrub with reads := [⟨5, 2, false, true⟩] } }, ⟨5, 2, false, true⟩, [], ?_⟩
    repeat (refine ⟨by decide +kernel, ?_⟩)
    refine ⟨⟨[], [], [], []⟩, ?_⟩
    decide +kernel
  · refine ⟨{ world with scrub := { world.scrub with reads := [⟨5, 3, false, false⟩] } }, ⟨5, 3, false, false⟩, [], ?_⟩
    iterate 5 refine ⟨by decide +kernel, ?_⟩
    decide +kernel
  · refine ⟨{ world with scrub := { world.scrub with repairs := [⟨5, .unitFix 9⟩] } }, 240, ⟨5, .unitFix 9⟩, ?_⟩
    repeat (refine ⟨by decide +kernel, ?_⟩)
    refine ⟨9, ?_⟩
    decide +kernel
  · refine ⟨{ world with scrub := { world.scrub with repairs := [⟨5, .emptyRow 9⟩] } }, 240, ⟨5, .emptyRow 9⟩, ?_⟩
    repeat (refine ⟨by decide +kernel, ?_⟩)
    refine ⟨9, ?_⟩
    decide +kernel
  · refine ⟨({ world with scrub := { world.scrub with repairs := [⟨5, .orphan 9⟩] } } : State).setFld Fld.ARY_SCRUB_CTL_auto_drain 0, 240, ⟨5, .orphan 9⟩,
        ?_⟩
    repeat (refine ⟨by decide +kernel, ?_⟩)
    refine ⟨9, ?_⟩
    decide +kernel
  · refine ⟨{ world with numbers := { world.numbers with pendingMeta := [(7, 1)] }, scrub := { world.scrub with metaSeen := [7] } }, 7, anEntry, ?_⟩
    decide +kernel
  · refine ⟨{ world with numbers := { world.numbers with pendingMeta := [(8, 1)] }, scrub := { world.scrub with passes := 3 } }, 8, 1, ?_⟩
    decide +kernel
  · refine ⟨{ world with scrub := { world.scrub with tagSearches := [⟨5, 9, 10, 10⟩] } }, ⟨5, 9, 10, 10⟩, [], 7, anEntry, ?_⟩
    decide +kernel
  · refine ⟨{ world with scrub := { world.scrub with stripes := [4] } }, 4, ?_⟩
    decide +kernel
  · refine ⟨{ world with scrub := { world.scrub with unsettled := [(lineKey 5 2, 1)] } }, 5, 2, 1, ?_⟩
    decide +kernel

/-- The hypotheses of ManifestQueue are met, those of each clause. -/
theorem test_hypotheses_ManifestQueue :
    (∃ (s : State) (t : Nat), let m := s.manifest; ∃ (g : Gap), m.gap = some g ∧ s.bit Fld.LRN_MNF_CTL_en = true ∧ m.posted < 1024 ∧ m.occupancy + 1 ≤
    32768 ∧ g.at_ ≠ (s.at t).now ∧ ∀ (r : ManifestRec), r ∈ m.posting → r.at_ ≠ (s.at t).now) ∧
    (∃ (s : State) (t : Nat), let m := s.manifest; ∃ (r : ManifestRec), m.posting = [r] ∧ m.commitAt ≠ some (s.at t).now ∧ r.holdUntil ≤ s.clock.grid ∧
    r.fill = none ∧ m.done = 0 ∧ r.slots.length ≤ 16) ∧
    (∃ (s : State) (t : Nat) (w : Word64), (s.at t).holds Reg.LRN_MNF_CTL = false ∧ (s.at t).served Reg.LRN_MNF_CTL 0 = true ∧ s.bit Fld.LRN_MNF_CTL_en =
    true ∧ s.fld Fld.LRN_MNF_CTL_dest = 0 ∧
    let bits := fun (a b c : Nat) ↦ Fld.LRN_MNF_CTL_release.get (BitVec.toNat w) = a ∧ Fld.LRN_MNF_CTL_rewind.get (BitVec.toNat w) = b ∧ Fld.LRN_MNF_CTL_mark.get (BitVec.toNat w) = c;
    bits 1 0 0) ∧
    (∃ (s : State) (t : Nat) (w : Word64), (s.at t).holds Reg.LRN_MNF_CTL = false ∧ (s.at t).served Reg.LRN_MNF_CTL 0 = true ∧ s.bit Fld.LRN_MNF_CTL_en =
    true ∧ s.fld Fld.LRN_MNF_CTL_dest = 0 ∧
    let bits := fun (a b c : Nat) ↦ Fld.LRN_MNF_CTL_release.get (BitVec.toNat w) = a ∧ Fld.LRN_MNF_CTL_rewind.get (BitVec.toNat w) = b ∧ Fld.LRN_MNF_CTL_mark.get (BitVec.toNat w) = c;
    bits 0 1 0) ∧
    (∃ (s : State) (t : Nat) (w : Word64), (s.at t).holds Reg.LRN_MNF_CTL = false ∧ (s.at t).served Reg.LRN_MNF_CTL 0 = true ∧ s.bit Fld.LRN_MNF_CTL_en =
    true ∧ s.fld Fld.LRN_MNF_CTL_dest = 0 ∧
    let bits := fun (a b c : Nat) ↦ Fld.LRN_MNF_CTL_release.get (BitVec.toNat w) = a ∧ Fld.LRN_MNF_CTL_rewind.get (BitVec.toNat w) = b ∧ Fld.LRN_MNF_CTL_mark.get (BitVec.toNat w) = c;
    bits 0 0 1) ∧
    (∃ (s : State) (t : Nat), let m := s.manifest; ∃ (byte : Nat) (size : Nat), (s.at t).served Reg.LRN_MNF_WIN3 0 = true ∧ s.fld Fld.LRN_MNF_CTL_dest = 0
    ∧ m.read ≠ m.commit ∧ 8 ≤ byte + size) ∧
    (∃ (s : State), let m := s.manifest; ∃ (slots : List Bytes), s.mnfHead = some slots ∧ m.delivering = 0 ∧ s.fld Fld.LRN_MNF_CTL_dest = 1 ∧
    let r := s.fld Fld.LRN_MNF_CTL_dest_index; s.eventRoom r slots.flatten = true) ∧
    (∃ (s : State), let m := s.manifest; m.delivering ≠ 0 ∧ s.fld Fld.LRN_MNF_CTL_dest = 1 ∧ ((s.hostRing (s.fld Fld.LRN_MNF_CTL_dest_index)).writes.any
    fun (w : RingWrite) ↦ w.kind == RingWriteKind.manifest) = false) := by
  repeat' refine And.intro ?_ ?_
  · refine ⟨(({ world with manifest := { world.manifest with gap := some ⟨1, 2, 3, 4, 5⟩ } } : State).setFld Fld.LRN_MNF_CTL_en 1), 3, ?_⟩
    refine ⟨⟨1, 2, 3, 4, 5⟩, ?_⟩
    decide +kernel
  · refine ⟨{ world with manifest := { world.manifest with posting := [⟨[zeros 32, zeros 32], 10, none, 5⟩] } }, 3, ?_⟩
    refine ⟨⟨[zeros 32, zeros 32], 10, none, 5⟩, ?_⟩
    decide +kernel
  · refine ⟨(({ world with manifest := { world.manifest with read := 3, commit := 4, ring := [(2, [1]), (3, [2])] } } : State).setFld Fld.LRN_MNF_CTL_en 1),
        3, wordOf [(Fld.LRN_MNF_CTL_release, 1)], ?_⟩
    decide +kernel
  · refine ⟨(({ world with manifest := { world.manifest with read := 3, commit := 4, mark := 1 } } : State).setFld Fld.LRN_MNF_CTL_en 1), 3,
        wordOf [(Fld.LRN_MNF_CTL_rewind, 1)], ?_⟩
    decide +kernel
  · refine ⟨(({ world with manifest := { world.manifest with read := 3, commit := 4 } } : State).setFld Fld.LRN_MNF_CTL_en 1), 3,
        wordOf [(Fld.LRN_MNF_CTL_mark, 1)], ?_⟩
    decide +kernel
  · refine ⟨{ world with manifest := { world.manifest with commit := 1, ring := [(0, zeros 32)] } }, 3, ?_⟩
    refine ⟨7, 1, ?_⟩
    decide +kernel
  · refine ⟨((((({ world with host := { world.host with rings := [(3, { HostRing.reset with state := .active })] }, manifest := { world.manifest with commit := 1, ring := [(0, [0x46, 0, 1] ++ zeros 29)], delivering := 0 } } : State).setFld Fld.LRN_MNF_CTL_dest 1).setFld Fld.LRN_MNF_CTL_dest_index 3).setFld Fld.HST_RING_CTL_size_log2 6 3).setFld Fld.HST_RING_CTL_kind 2 3),
        ?_⟩
    refine ⟨[[0x46, 0, 1] ++ zeros 29], ?_⟩
    decide +kernel
  · refine ⟨((((({ world with host := { world.host with rings := [(3, { HostRing.reset with state := .active })] }, manifest := { world.manifest with commit := 1, ring := [(0, [0x46, 0, 1] ++ zeros 29)], delivering := 1 } } : State).setFld Fld.LRN_MNF_CTL_dest 1).setFld Fld.LRN_MNF_CTL_dest_index 3).setFld Fld.HST_RING_CTL_size_log2 6 3).setFld Fld.HST_RING_CTL_kind 2 3),
        ?_⟩
    decide +kernel

/-- The hypotheses of FilterAndAging are met, those of each clause. -/
theorem test_hypotheses_FilterAndAging :
    (∃ (s : State), s.clock.stroke = 0) ∧
    (∃ (s : State) (t : Nat) (w : Word64) (x : State), Stores s t Reg.LRN_FILTER_CTL 0 w x ∧ Fld.LRN_FILTER_CTL_flush.get (BitVec.toNat w) = 1) ∧
    (∃ (s : State), s.clock.stroke = 0 ∧ s.serving = true ∧ s.learning.advancedAt ≠ s.clock.grid ∧ ∃ (c : Instr), c ∈ [Instr.deviceEpochAdvance,
    Instr.sweepPassStart]) ∧
    (∃ (s : State), s.clock.stroke ≠ 0 ∧ ∃ (c : Instr), c ∈ [Instr.filterEntryExpiry, Instr.deviceEpochAdvance, Instr.sweepPassStart]) ∧
    (∃ (s : State) (t : Nat), (s.at t).inWrite = true ∧ s.serving = true ∧ s.domainDown 25 = false ∧ s.learning.examinedAt ≠ some (s.at t).now ∧
    s.learning.stalledAt ≠ some s.clock.grid ∧ s.learning.removals = [] ∧ s.learning.passDue = false ∧ (s.at t).clock.stroke ≠ lastWriteStroke
    s.mode.mode ∧ s.learning.position + 64 < 16777216 ∧ ∀ (i : Nat), i < 64 → s.examinable (s.learning.position + i) = none) ∧
    (∃ (s : State) (t : Nat), (s.at t).inWrite = true ∧ s.serving = true ∧ s.domainDown 25 = false ∧ s.learning.examinedAt ≠ some (s.at t).now ∧
    s.learning.stalledAt ≠ some s.clock.grid ∧ s.learning.removals = [] ∧ s.learning.passDue = false ∧ (s.at t).clock.stroke ≠ lastWriteStroke
    s.mode.mode ∧ s.learning.position + 64 < 16777216 ∧ ∃ (e : Entry) (df : TableDef), s.examinable s.learning.position = some (e, df) ∧ s.crossed
    s.learning.position df = true ∧ s.learning.reported.contains s.learning.position = false ∧ (∀ (i : Nat), 0 < i → i < 64 → s.examinable
    (s.learning.position + i) = none) ∧ df.autoRemove = true) ∧
    (∃ (s : State) (t : Nat), (s.at t).inWrite = true ∧ s.serving = true ∧ s.domainDown 25 = false ∧ s.learning.examinedAt ≠ some (s.at t).now ∧
    s.learning.stalledAt ≠ some s.clock.grid ∧ s.learning.removals = [] ∧ s.learning.passDue = false ∧ (s.at t).clock.stroke ≠ lastWriteStroke
    s.mode.mode ∧ s.learning.position + 64 < 16777216 ∧ ∃ (e : Entry) (df : TableDef), s.examinable s.learning.position = some (e, df) ∧ s.crossed
    s.learning.position df = true ∧ s.learning.reported.contains s.learning.position = false ∧ (∀ (i : Nat), 0 < i → i < 64 → s.examinable
    (s.learning.position + i) = none) ∧ df.autoRemove = false) := by
  repeat' refine And.intro ?_ ?_
  · refine ⟨world, ?_⟩
    decide +kernel
  · refine ⟨world, 3, wordOf [(Fld.LRN_FILTER_CTL_flush, 1), (Fld.LRN_FILTER_CTL_window, 9)],
        stored (world) 3 .LRN_FILTER_CTL 0 (wordOf [(Fld.LRN_FILTER_CTL_flush, 1), (Fld.LRN_FILTER_CTL_window, 9)]), ?_⟩
    (first | decide +kernel | (unfold Stores; decide +kernel))
  · refine ⟨world, ?_⟩
    repeat (refine ⟨by decide +kernel, ?_⟩)
    refine ⟨.sweepPassStart, ?_⟩
    decide +kernel
  · refine ⟨world.at 3, ?_⟩
    repeat (refine ⟨by decide +kernel, ?_⟩)
    refine ⟨.sweepPassStart, ?_⟩
    decide +kernel
  · refine ⟨{ world with learning := { world.learning with passDue := false, position := 16777088, epoch := 0, er := 0, ep := 255 } }, 240, ?_⟩
    (repeat (refine ⟨by decide +kernel, ?_⟩)); decide +kernel
  · refine ⟨{ world with tables := [(1, { ternTable with df := { ternDef with autoRemove := true } })], learning := { world.learning with passDue := false, position := 7, epoch := 2, er := 2, ep := 1 } },
        240, ?_⟩
    repeat (refine ⟨by decide +kernel, ?_⟩)
    refine ⟨anEntry, { ternDef with autoRemove := true }, ?_⟩
    refine ⟨by decide +kernel, by decide +kernel, by decide +kernel, fun i h0 h1 => ?_, by decide +kernel⟩; revert h0; revert h1; revert i; decide +kernel
  · refine ⟨{ world with tables := [(1, { ternTable with df := { ternDef with autoRemove := false } })], learning := { world.learning with passDue := false, position := 7, epoch := 2, er := 2, ep := 1 } },
        240, ?_⟩
    repeat (refine ⟨by decide +kernel, ?_⟩)
    refine ⟨anEntry, { ternDef with autoRemove := false }, ?_⟩
    refine ⟨by decide +kernel, by decide +kernel, by decide +kernel, fun i h0 h1 => ?_, by decide +kernel⟩; revert h0; revert h1; revert i; decide +kernel

/-- The hypotheses of HitCounters are met, those of each clause. -/
theorem test_hypotheses_HitCounters :
    (∃ (s : State) (t : Nat) (u : HitUpdate), (s.at t).inSlack = false ∧ s.counters.updates = [u] ∧ u.due ≤ (s.at t).now ∧ (s.counters.appliedAt = (s.at
    t).now → s.counters.appliedNow.length < 64)) ∧
    (∃ (s : State) (t : Nat) (len : Nat) (rest : List Nat), s.counters.foldQueue = len :: rest ∧ s.awake = true ∧ s.params.slackAt ≤ (s.at t).clock.stroke
    ∧ (s.at t).clock.stroke < s.params.slackAt + 8 ∧ s.counters.foldAt ≠ some (s.at t).now ∧ s.foldPlace len = none ∧ s.counters.places.length < 16) ∧
    (∃ (s : State) (len : Nat) (p : FoldPlace), s.foldPlace len = some p ∧ s.counters.held = []) ∧
    (∃ (s : State) (t : Nat) (len : Nat) (data : Bytes), List.length data = 8 ∧ (s.at t).holds Reg.TEL_CNT_WRITE = false ∧ (s.at t).served
    Reg.TEL_CNT_WRITE 0 = true ∧ s.cmdAuth = false ∧ s.selectedCount 0 = some len ∧ s.counters.places.length < 16) ∧
    (∃ (s : State) (t : Nat), let x := (s.at t).applyUpdates; ∃ (len : Nat) (size : Nat), 4 ≤ size ∧ x.served Reg.TEL_CNT_READ 0 = true ∧ x.cmdAuth =
    false ∧ x.selectedCount 0 = some len ∧ ∃ (p : FoldPlace), x.foldPlace len = some p ∧ p.isSet = true) ∧
    (∃ (s : State) (t : Nat), let x := (s.at t).applyUpdates; ∃ (len : Nat) (size : Nat), 4 ≤ size ∧ x.served Reg.TEL_CNT_READ 0 = true ∧ x.cmdAuth =
    false ∧ x.selectedCount 0 = some len ∧ x.counters.held = [] ∧ ∃ (p : FoldPlace), x.foldPlace len = some p ∧ p.isSet = false) ∧
    (∃ (s : State) (t : Nat), let x := (s.at t).applyUpdates; ∃ (len : Nat) (size : Nat), 4 ≤ size ∧ x.served Reg.TEL_CNT_READ 0 = true ∧ x.cmdAuth =
    false ∧ x.selectedCount 0 = some len ∧ x.counters.held = [] ∧ x.foldPlace len = none) ∧
    (∃ (s : State) (r : CountRead) (rest : List CountRead), s.counters.reads = r :: rest ∧ r.behindWrite = false) := by
  repeat' refine And.intro ?_ ?_
  · refine ⟨{ world with counters := { world.counters with updates := [⟨7, 1, 2000⟩] } }, 3, ⟨7, 1, 2000⟩, ?_⟩
    decide +kernel
  · refine ⟨{ world with counters := { world.counters with foldQueue := [7] } }, 245, 7, [], ?_⟩
    decide +kernel
  · refine ⟨{ world with counters := { world.counters with places := [⟨7, false, 5, some 0⟩] } }, 7, ⟨7, false, 5, some 0⟩, ?_⟩
    decide +kernel
  · refine ⟨(world.setFld Fld.TEL_CNT_SEL_handle aHandle), 245, 7, leBytes 9 8, ?_⟩
    decide +kernel
  · refine ⟨(({ world with counters := { world.counters with places := [⟨7, true, 5, none⟩] } } : State).setFld Fld.TEL_CNT_SEL_handle aHandle), 245, 7,
        8, ?_⟩
    repeat (refine ⟨by decide +kernel, ?_⟩)
    refine ⟨⟨7, true, 5, none⟩, ?_⟩
    decide +kernel
  · refine ⟨(({ world with counters := { world.counters with places := [⟨7, false, 5, some 0⟩] } } : State).setFld Fld.TEL_CNT_SEL_handle aHandle), 245,
        7, 8, ?_⟩
    repeat (refine ⟨by decide +kernel, ?_⟩)
    refine ⟨⟨7, false, 5, some 0⟩, ?_⟩
    decide +kernel
  · refine ⟨(world.setFld Fld.TEL_CNT_SEL_handle aHandle), 245, 7, 8, ?_⟩
    decide +kernel
  · refine ⟨{ world with counters := { world.counters with reads := [⟨7, 3, 0, false, 0, 0, 8⟩] } }, ⟨7, 3, 0, false, 0, 0, 8⟩, [], ?_⟩
    decide +kernel

/-- The hypotheses of TracesAndDigests are met, those of each clause. -/
theorem test_hypotheses_TracesAndDigests :
    (∃ (s : State) (t : Nat) (x : Trace) (tb : TableRec), (s.at t).inTrace = true ∧ s.observe.traces = [x] ∧ s.table x.tid = some tb ∧ x.banks = none ∧
    let banks := tb.chart.traceBanks x.key x.mask; let n := (s.at t).traceLeft; banks.length ≤ n) ∧
    (∃ (s : State) (t : Nat) (x : Trace) (tb : TableRec), (s.at t).inTrace = true ∧ s.observe.traces = [x] ∧ s.table x.tid = some tb ∧ x.banks = none ∧
    let banks := tb.chart.traceBanks x.key x.mask; let n := (s.at t).traceLeft; n < banks.length) ∧
    (∃ (s : State) (t : Nat) (tags : List TagFault) (d : Digest) (rest : List Digest) (tb : TableRec) (k : Nat) (left : List Nat), (s.at t).inTrace = true
    ∧ s.observe.traces = [] ∧ 0 < (s.at t).traceLeft ∧ s.observe.digests = d :: rest ∧ s.table d.tid = some tb ∧ tb.chart.version = d.version ∧
    d.lines = some (k :: left) ∧ let bank := k / 8192;
    let inLine := List.filter (fun (p : Nat × Tag) ↦ lineOf tb.df.units p.fst == k % 8192) (s.matchable bank (tb.df.tid % 4096));
    let rows := List.filter (fun (p : Nat × Tag) ↦ !(badRows tags bank).contains p.fst) inLine; ∃ (how : List RowRead), rows = [] ∧ left ≠ []) ∧
    (∃ (s : State) (t : Nat) (tags : List TagFault) (d : Digest) (rest : List Digest) (tb : TableRec) (k : Nat) (left : List Nat), (s.at t).inTrace = true
    ∧ s.observe.traces = [] ∧ 0 < (s.at t).traceLeft ∧ s.observe.digests = d :: rest ∧ s.table d.tid = some tb ∧ tb.chart.version = d.version ∧
    d.lines = some (k :: left) ∧ let bank := k / 8192;
    let inLine := List.filter (fun (p : Nat × Tag) ↦ lineOf tb.df.units p.fst == k % 8192) (s.matchable bank (tb.df.tid % 4096));
    let rows := List.filter (fun (p : Nat × Tag) ↦ !(badRows tags bank).contains p.fst) inLine; ∃ (row : Nat) (tag : Tag) (e : Entry) (h : RowRead),
    rows = [(row, tag)] ∧ s.entry tag.len = some e ∧ (∀ (j : Nat), j < tb.df.units → h.units.getD j true = true) ∧ left ≠ []) ∧
    (∃ (s : State) (t : Nat) (tags : List TagFault) (d : Digest) (rest : List Digest) (tb : TableRec) (k : Nat) (left : List Nat), (s.at t).inTrace = true
    ∧ s.observe.traces = [] ∧ 0 < (s.at t).traceLeft ∧ s.observe.digests = d :: rest ∧ s.table d.tid = some tb ∧ tb.chart.version = d.version ∧
    d.lines = some (k :: left) ∧ let bank := k / 8192;
    let inLine := List.filter (fun (p : Nat × Tag) ↦ lineOf tb.df.units p.fst == k % 8192) (s.matchable bank (tb.df.tid % 4096));
    let rows := List.filter (fun (p : Nat × Tag) ↦ !(badRows tags bank).contains p.fst) inLine; ∃ (how : List RowRead), rows = [] ∧ left = [] ∧ tags =
    [] ∧ s.observe.buffer = [] ∧ s.fld Fld.TEL_DEST_CTL_dest = 2 ∧ s.quayRoom (s.fld Fld.TEL_DEST_CTL_dest_index) 6 = false) := by
  repeat' refine And.intro ?_ ?_
  · refine ⟨{ world with observe := { world.observe with traces := [⟨1, 1, keyBits, allDigits 1, none, [], 0, 0, [], false, false, 0⟩] } }, 254, ⟨1, 1,
        keyBits, allDigits 1, none, [], 0, 0, [], false, false, 0⟩, ternTable, ?_⟩
    decide +kernel
  · refine ⟨{ world with observe := { world.observe with traces := [⟨1, 1, keyBits, allDigits 1, none, [], 0, 0, [], false, false, 0⟩], traceAt := 10 * 256 + 254, traceOps := 4096 } },
        254, ⟨1, 1, keyBits, allDigits 1, none, [], 0, 0, [], false, false, 0⟩, ternTable, ?_⟩
    decide +kernel
  · refine ⟨{ world with observe := { world.observe with digests := [⟨1, 1, 9, some [40960, 40969], [], 0, 0, false, false, 0⟩] } }, 254, [], ⟨1, 1, 9,
        some [40960, 40969], [], 0, 0, false, false, 0⟩, [], ternTable, 40960, [40969], ?_⟩
    repeat (refine ⟨by decide +kernel, ?_⟩)
    refine ⟨[], ?_⟩
    decide +kernel
  · refine ⟨{ world with observe := { world.observe with digests := [⟨1, 1, 9, some [40962, 40970], [], 0, 0, false, false, 0⟩] } }, 254, [], ⟨1, 1, 9,
        some [40962, 40970], [], 0, 0, false, false, 0⟩, [], ternTable, 40962, [40970], ?_⟩
    repeat (refine ⟨by decide +kernel, ?_⟩)
    refine ⟨9, aTag, anEntry, ⟨[true], []⟩, ?_⟩
    refine ⟨by decide +kernel, by decide +kernel, fun j h => ?_, by decide +kernel⟩; revert h; revert j; decide +kernel
  · refine ⟨(({ world with observe := { world.observe with digests := [⟨1, 1, 9, some [40960], [], 0, 0, false, false, 0⟩] } } : State).setFld Fld.TEL_DEST_CTL_dest 2),
        254, [], ⟨1, 1, 9, some [40960], [], 0, 0, false, false, 0⟩, [], ternTable, 40960, [], ?_⟩
    repeat (refine ⟨by decide +kernel, ?_⟩)
    refine ⟨[], ?_⟩
    decide +kernel

/-- The hypotheses of TelemetryAndSamples are met, those of each clause. -/
theorem test_hypotheses_TelemetryAndSamples :
    (∃ (s : State) (r : TelRecord), s.observe.buffer = [r] ∧ r.dest = 1 ∧ s.eventRoom r.index r.bytes = true) ∧
    (∃ (s : State) (r : TelRecord), s.observe.buffer = [r] ∧ r.dest = 2 ∧ s.quayRoom r.index (List.length r.bytes / 8) = true) ∧
    (∃ (s : State) (r : TelRecord), s.observe.buffer = [r] ∧ r.dest = 2 ∧ s.quayRoom r.index (List.length r.bytes / 8) = false) ∧
    (∃ (s : State) (r : TelRecord), s.observe.buffer = [r] ∧ ∃ (n : Nat), r.dest = 0 ∧ s.observe.captureStopped = false ∧ List.length r.bytes = 8 * n ∧
    s.observe.captureWord + n < 2 ^ 30) ∧
    (∃ (s : State) (r : TelRecord), s.observe.buffer = [r] ∧ r.dest = 0 ∧ s.observe.captureStopped = true) ∧
    (∃ (s : State) (t : Nat) (w : Word64) (x : State), Stores s t Reg.TEL_CAPTURE_PTR 0 w x ∧ Fld.TEL_CAPTURE_PTR_stop.get (BitVec.toNat w) = 0) ∧
    (∃ (s : State), s.observe.sampleEn = true ∧ s.clock.count % 2 ^ s.observe.sampleK = 0 ∧ s.observe.capturedAt ≠ s.clock.grid ∧ s.clock.stroke = 0) ∧
    (∃ (s : State), s.observe.samplesTide ≠ s.clock.grid ∧ s.observe.samples ≠ []) := by
  repeat' refine And.intro ?_ ?_
  · refine ⟨(((({ world with observe := { world.observe with buffer := [⟨1, 3, false, false, zeros 48⟩] }, host := { world.host with rings := [(3, { HostRing.reset with state := .active })] } } : State).setFld Fld.HST_RING_CTL_size_log2 6 3).setFld Fld.HST_RING_CTL_kind 2 3)),
        ⟨1, 3, false, false, zeros 48⟩, ?_⟩
    decide +kernel
  · refine ⟨{ onQuay upQuay with observe := { world.observe with buffer := [⟨2, 0, false, false, zeros 48⟩] } }, ⟨2, 0, false, false, zeros 48⟩, ?_⟩
    decide +kernel
  · refine ⟨{ world with observe := { world.observe with buffer := [⟨2, 0, false, false, zeros 48⟩] } }, ⟨2, 0, false, false, zeros 48⟩, ?_⟩
    decide +kernel
  · refine ⟨{ world with observe := { world.observe with buffer := [⟨0, 0, false, false, zeros 48⟩] } }, ⟨0, 0, false, false, zeros 48⟩, ?_⟩
    repeat (refine ⟨by decide +kernel, ?_⟩)
    refine ⟨6, ?_⟩
    decide +kernel
  · refine ⟨{ world with observe := { world.observe with buffer := [⟨0, 0, false, false, zeros 48⟩], captureStopped := true } }, ⟨0, 0, false, false,
        zeros 48⟩, ?_⟩
    decide +kernel
  · refine ⟨world, 3, 0, stored (world) 3 .TEL_CAPTURE_PTR 0 (0), ?_⟩
    (first | decide +kernel | (unfold Stores; decide +kernel))
  · refine ⟨{ world with observe := { world.observe with sampleEn := true } }, ?_⟩
    decide +kernel
  · refine ⟨{ world with observe := { world.observe with samplesTide := 9, samples := [⟨false, 0, 9, [1], [0, 0, 0, 0], 0⟩] } }, ?_⟩
    decide +kernel

/-- The hypotheses of QuayRecordsTaken are met, those of each clause. -/
theorem test_hypotheses_QuayRecordsTaken :
    (∃ (s : State) (q : Nat) (rec : Bytes), let l := s.link (Port.quay q); let charge := quayCharge rec; s.power.state = 0 ∧ l.up = true ∧ recordLength
    rec = some (List.length rec) ∧ 16 ≤ List.length rec ∧ creditFits (l.limits.getD charge.fst 0) (l.charged.getD charge.fst 0) charge.snd = true ∧
    byteAt rec 0 = 16) ∧
    (∃ (s : State) (q : Nat) (rec : Bytes), let l := s.link (Port.quay q); let charge := quayCharge rec; s.power.state = 0 ∧ l.up = true ∧ recordLength
    rec = some (List.length rec) ∧ 16 ≤ List.length rec ∧ creditFits (l.limits.getD charge.fst 0) (l.charged.getD charge.fst 0) charge.snd = true ∧
    byteAt rec 0 = 48) ∧
    (∃ (s : State) (t : Nat) (q : Nat) (rec : Bytes), let l := s.link (Port.quay q); let charge := quayCharge rec; s.power.state = 0 ∧ l.up = true ∧
    recordLength rec = some (List.length rec) ∧ 16 ≤ List.length rec ∧ creditFits (l.limits.getD charge.fst 0) (l.charged.getD charge.fst 0)
    charge.snd = true ∧ ∃ (n : Nat) (x : Machine.Stream), byteAt rec 0 = 32 ∧ chunkHeaderOk rec = true ∧ s.openStream (fieldLE rec 4 3) = some (n, x)
    ∧ (s.at t).frozen (quayMaster q) = false) ∧
    (∃ (s : State) (t : Nat) (q : Nat) (rec : Bytes), let l := s.link (Port.quay q); let charge := quayCharge rec; s.power.state = 0 ∧ l.up = true ∧
    recordLength rec = some (List.length rec) ∧ 16 ≤ List.length rec ∧ creditFits (l.limits.getD charge.fst 0) (l.charged.getD charge.fst 0)
    charge.snd = false ∧ ∃ (c : Instr), c ∈ [Instr.searchRequest t (Source.quay q) rec, Instr.tableCommand t (Source.quay q) rec, Instr.streamChunk t
    (Source.quay q) rec] ∧ (byteAt rec 0 = 16 → c = Instr.searchRequest t (Source.quay q) rec) ∧ (byteAt rec 0 = 48 → c = Instr.tableCommand t
    (Source.quay q) rec) ∧ (byteAt rec 0 = 32 → c = Instr.streamChunk t (Source.quay q) rec)) := by
  repeat' refine And.intro ?_ ?_
  · refine ⟨onQuay upQuay, 0, searchRec [0], ?_⟩
    decide +kernel
  · refine ⟨onQuay upQuay, 0, [0x30, 0x40] ++ leBytes 2 2 ++ zeros 12, ?_⟩
    decide +kernel
  · refine ⟨onQuay upQuay, 3, 0, [0x20, 0, 4, 0] ++ leBytes aStream 3 ++ zeros 9 ++ zeros 8, ?_⟩
    repeat (refine ⟨by decide +kernel, ?_⟩)
    refine ⟨0, ⟨1, 3, 0⟩, ?_⟩
    decide +kernel
  · refine ⟨onQuay { upQuay with limits := [0, 0, 0, 0, 0, 0] }, 3, 0, searchRec [0], ?_⟩
    repeat (refine ⟨by decide +kernel, ?_⟩)
    refine ⟨.searchRequest 3 (.quay 0) (searchRec [0]), ?_⟩
    decide +kernel

/-- The hypotheses of RingsFetchedAndWindows are met, those of each clause. -/
theorem test_hypotheses_RingsFetchedAndWindows :
    (∃ (s : State) (r : Nat), let x := s.hostRing r; x.posted = 0) ∧
    (∃ (s : State) (t : Nat) (r : Nat) (rec : Bytes), let x := s.hostRing r; let pair := s.ringPair r; let k := (List.length rec + 63) / 64; (s.at
    t).intakeOpen = true ∧ s.power.state = 0 ∧ s.host.linkUp = true ∧ x.state = RingState.active ∧ s.ringKind r = 0 ∧ (s.function (ringFn r)).flr =
    false ∧ byteAt rec 0 = 16 ∧ hostRecordLength rec = some (List.length rec) ∧ k ≤ x.posted ∧ 0 < x.posted ∧ pair ≠ r ∧ s.ringActive pair = true ∧
    s.ringKind pair = 1 ∧ reserveOf rec ≤ s.ringFree pair) ∧
    (∃ (s : State), s.host.pcie.bar2 = true ∧ s.host.linkUp = true) ∧
    (∃ (s : State) (t : Nat) (off : Nat) (data : Bytes), let w := off / 1048576 % 16; let a := (s.window w).active; s.host.pcie.bar2 = true ∧
    s.host.linkUp = true ∧ data ≠ [] ∧ s.power.state = 0 ∧ (s.at t).intakeStopped = false ∧ (s.at t).engineRuns = true ∧ (s.at t).noWindow w off
    (List.length data) = false ∧ splitRecords (List.length data / 8 + 1) data = some [data] ∧ byteAt data 0 = 16 ∧ fieldLE data 2 2 % 16384 = a.berth
    ∧ (s.window w).held + List.length data ≤ 16384) ∧
    (∃ (s : State) (t : Nat) (off : Nat) (data : Bytes), let w := off / 1048576 % 16; s.host.pcie.bar2 = true ∧ s.host.linkUp = true ∧ data ≠ [] ∧
    s.power.state = 0 ∧ (s.at t).intakeStopped = false ∧ (s.at t).engineRuns = true ∧ (s.at t).noWindow w off (List.length data) = true) := by
  repeat' refine And.intro ?_ ?_
  · refine ⟨withRing 6 0 { HostRing.reset with state := .active }, 3, ?_⟩
    decide +kernel
  · refine ⟨((((({ world with host := { world.host with rings := [(3, { HostRing.reset with state := .active, hostIndex := 1 }), (4, { HostRing.reset with state := .active })] } } : State).setFld Fld.HST_RING_CTL_size_log2 6 3).setFld Fld.HST_RING_CTL_pair 4 3).setFld Fld.HST_RING_CTL_size_log2 6 4).setFld Fld.HST_RING_CTL_kind 1 4),
        3, 3, searchRec [0], ?_⟩
    decide +kernel
  · refine ⟨world, ?_⟩
    decide +kernel
  · refine ⟨{ world with host := { world.host with pcie := ⟨1, 6, 4, 2, true⟩, windows := [(1, ⟨⟨true, 1, 0, 2⟩, 1, 0, 0⟩)] } }, 3, 1048576,
        searchRec [0], ?_⟩
    decide +kernel
  · refine ⟨{ world with host := { world.host with pcie := ⟨1, 6, 4, 2, true⟩, windows := [(1, ⟨⟨true, 1, 0, 2⟩, 1, 0, 0⟩)] } }, 3, 0, searchRec [0], ?_⟩
    decide +kernel

/-- The hypotheses of SearchesDispatched are met, those of each clause. -/
theorem test_hypotheses_SearchesDispatched :
    (∃ (s : State) (t : Nat) (q : Nat) (r : Request), let rec_ := r.record; (s.at t).dispatchOn = true ∧ s.ring.queue = [] ∧ s.search.waiting = [r] ∧
    r.src = Source.quay q ∧ q < 48 ∧ r.cls < 4 ∧ (s.at t).eligible r = true ∧ 0 < (s.at t).pipesNow ∧ (s.at t).reservation rec_ + (s.at t).charged
    (s.at t).now ≤ (s.at t).capNow ∧ r.wrongBerth = false ∧ (s.at t).frozen r.master = true) ∧
    (∃ (s : State) (t : Nat) (q : Nat) (r : Request), let rec_ := r.record; (s.at t).dispatchOn = true ∧ s.ring.queue = [] ∧ s.search.waiting = [r] ∧
    r.src = Source.quay q ∧ q < 48 ∧ r.cls < 4 ∧ (s.at t).eligible r = true ∧ 0 < (s.at t).pipesNow ∧ (s.at t).reservation rec_ + (s.at t).charged
    (s.at t).now ≤ (s.at t).capNow ∧ r.wrongBerth = false ∧ (s.at t).frozen r.master = false ∧ requestOk rec_ r.badLength = false) ∧
    (∃ (s : State) (t : Nat) (q : Nat) (r : Request), let rec_ := r.record; let b := s.berth (reqBerth rec_); (s.at t).dispatchOn = true ∧ s.ring.queue =
    [] ∧ s.search.waiting = [r] ∧ r.src = Source.quay q ∧ q < 48 ∧ r.cls < 4 ∧ (s.at t).eligible r = true ∧ 0 < (s.at t).pipesNow ∧ (s.at
    t).reservation rec_ + (s.at t).charged (s.at t).now ≤ (s.at t).capNow ∧ r.wrongBerth = false ∧ (s.at t).frozen r.master = false ∧ requestOk rec_
    r.badLength = true ∧ s.inRange r.master (reqBerth rec_) = true ∧ reqLooks rec_ ≤ s.params.lookups ∧ b.record.shaperEn = true ∧ b.levelP ≤ 0) ∧
    (∃ (s : State) (t : Nat) (q : Nat) (r : Request), let rec_ := r.record; let b := s.berth (reqBerth rec_); let look := reqDesc rec_ 0; (s.at
    t).dispatchOn = true ∧ s.ring.queue = [] ∧ s.search.waiting = [r] ∧ r.src = Source.quay q ∧ q < 48 ∧ r.cls < 4 ∧ (s.at t).eligible r = true ∧ 0 <
    (s.at t).pipesNow ∧ (s.at t).reservation rec_ + (s.at t).charged (s.at t).now ≤ (s.at t).capNow ∧ r.wrongBerth = false ∧ (s.at t).frozen r.master
    = false ∧ requestOk rec_ r.badLength = true ∧ s.inRange r.master (reqBerth rec_) = true ∧ reqLooks rec_ ≤ s.params.lookups ∧ b.record.shaperEn =
    false ∧ reqLooks rec_ = 1 ∧ descMalformed rec_ 0 = false ∧ descChain look = false ∧ ∃ (g : Grant) (tb : TableRec), b.record.grantAt (descSlot
    look) = some g ∧ g.search = true ∧ s.slotTable rec_ 0 = some tb ∧ tb.df.direct = false ∧ fieldFits rec_ look tb.df = true ∧ tb.df.ringSpan =
    false) ∧
    (∃ (s : State) (t : Nat) (q : Nat) (r : Request), let rec_ := r.record; let b := s.berth (reqBerth rec_); let look := reqDesc rec_ 0; (s.at
    t).dispatchOn = true ∧ s.ring.queue = [] ∧ s.search.waiting = [r] ∧ r.src = Source.quay q ∧ q < 48 ∧ r.cls < 4 ∧ (s.at t).eligible r = true ∧ 0 <
    (s.at t).pipesNow ∧ (s.at t).reservation rec_ + (s.at t).charged (s.at t).now ≤ (s.at t).capNow ∧ r.wrongBerth = false ∧ (s.at t).frozen r.master
    = false ∧ requestOk rec_ r.badLength = true ∧ s.inRange r.master (reqBerth rec_) = true ∧ reqLooks rec_ ≤ s.params.lookups ∧ b.record.shaperEn =
    false ∧ reqLooks rec_ = 1 ∧ descMalformed rec_ 0 = false ∧ descChain look = false ∧ ∃ (g : Grant), b.record.grantAt (descSlot look) = some g ∧
    g.search = true ∧ s.slotTable rec_ 0 = none) ∧
    (∃ (s : State) (t : Nat) (q : Nat) (r : Request), let rec_ := r.record; let b := s.berth (reqBerth rec_); let look := reqDesc rec_ 0; (s.at
    t).dispatchOn = true ∧ s.ring.queue = [] ∧ s.search.waiting = [r] ∧ r.src = Source.quay q ∧ q < 48 ∧ r.cls < 4 ∧ (s.at t).eligible r = true ∧ 0 <
    (s.at t).pipesNow ∧ (s.at t).reservation rec_ + (s.at t).charged (s.at t).now ≤ (s.at t).capNow ∧ r.wrongBerth = false ∧ (s.at t).frozen r.master
    = false ∧ requestOk rec_ r.badLength = true ∧ s.inRange r.master (reqBerth rec_) = true ∧ reqLooks rec_ ≤ s.params.lookups ∧ b.record.shaperEn =
    false ∧ reqLooks rec_ = 1 ∧ descMalformed rec_ 0 = false ∧ descChain look = false ∧ b.record.grantAt (descSlot look) = none) ∧
    (∃ (s : State) (t : Nat) (r : Request), s.search.waiting = [r] ∧ r.s0 + 319 < (s.at t).now) := by
  repeat' refine And.intro ?_ ?_
  · refine ⟨{ withReq aReq with masters := [(0, { Master.reset with freeze := some ⟨2, 9, none, 0, 0, none, none⟩ })] }, 3, 0, aReq, ?_⟩
    decide +kernel
  · refine ⟨withReq ({ aReq with badLength := true }), 3, 0, { aReq with badLength := true }, ?_⟩
    decide +kernel
  · refine ⟨{ withReq aReq with berths := [(0, { Berth.reset with record := { aBerth with shaperEn := true } })] }, 3, 0, aReq, ?_⟩
    decide +kernel
  · refine ⟨withReq aReq, 3, 0, aReq, ?_⟩
    repeat (refine ⟨by decide +kernel, ?_⟩)
    refine ⟨⟨0, 1, true, true, true⟩, ternTable, ?_⟩
    decide +kernel
  · refine ⟨{ withReq aReq with tables := [] }, 3, 0, aReq, ?_⟩
    repeat (refine ⟨by decide +kernel, ?_⟩)
    refine ⟨⟨0, 1, true, true, true⟩, ?_⟩
    decide +kernel
  · refine ⟨withReq ({ aReq with record := searchRec [256] }), 3, 0, { aReq with record := searchRec [256] }, ?_⟩
    decide +kernel
  · refine ⟨{ withReq aReq with clock := { base.clock with grid := 20 } }, 3, aReq, ?_⟩
    decide +kernel

/-- The hypotheses of ActivatesAndResolves are met, those of each clause. -/
theorem test_hypotheses_ActivatesAndResolves :
    (∃ (s : State) (t : Nat) (f : Search) (d : Nat), s.search.flights = [f] ∧ s.ring.queue = [] ∧ f.d = some d ∧ ∃ (l : Look) (df : TableDef), f.activated
    = false ∧ f.resolved = false ∧ d + 256 ≤ (s.at t).now ∧ f.looks = [l] ∧ l.status = none ∧ l.df = some df ∧ df.direct = false ∧ descChain l.desc =
    false ∧ let acts := s.activations l.m3 l.banks; f.split = false ∧ acts.length ≤ 128) ∧
    (∃ (s : State) (t : Nat) (f : Search) (d : Nat), s.search.flights = [f] ∧ s.ring.queue = [] ∧ f.d = some d ∧ ∃ (l : Look) (df : TableDef), f.activated
    = false ∧ f.resolved = false ∧ d + 256 ≤ (s.at t).now ∧ f.looks = [l] ∧ l.status = none ∧ l.df = some df ∧ df.direct = false ∧ descChain l.desc =
    false ∧ f.split = true ∧ f.half = false ∧ (s.at t).now < d + 257) ∧
    (∃ (s : State) (t : Nat) (f : Search) (d : Nat), s.search.flights = [f] ∧ s.ring.queue = [] ∧ f.d = some d ∧ ∃ (src : Look) (l : Look) (df :
    TableDef), f.split = false ∧ f.activated = true ∧ f.resolved = true ∧ f.chainActivated = false ∧ d + 512 ≤ (s.at t).now ∧ f.looks = [src, l] ∧
    descChain src.desc = false ∧ descChain l.desc = true ∧ l.status = none ∧ l.frontDone = true ∧ l.df = some df ∧ df.direct = false ∧ (s.activations
    l.m3 l.banks).length ≤ 128) ∧
    (∃ (s : State) (t : Nat) (f : Search) (d : Nat) (l : Look) (df : TableDef), s.search.flights = [f] ∧ s.ring.queue = [] ∧ f.d = some d ∧ f.activated =
    true ∧ f.resolved = false ∧ f.chainActivated = false ∧ d + 351 ≤ (s.at t).now ∧ f.looks = [l] ∧ l.status = none ∧ l.df = some df ∧ df.direct =
    false ∧ df.ringSpan = false ∧ descChain l.desc = false ∧ l.winner = none ∧ l.mirror = none ∧ df.learn = false) ∧
    (∃ (s : State) (t : Nat) (f : Search) (d : Nat) (l : Look) (df : TableDef), s.search.flights = [f] ∧ s.ring.queue = [] ∧ f.d = some d ∧ f.activated =
    true ∧ f.resolved = false ∧ f.chainActivated = false ∧ d + 351 ≤ (s.at t).now ∧ f.looks = [l] ∧ l.status = none ∧ l.df = some df ∧ df.direct =
    false ∧ df.ringSpan = false ∧ descChain l.desc = false ∧ l.winner = none ∧ l.mirror = none ∧ df.learn = true) ∧
    (∃ (s : State) (t : Nat) (f : Search) (d : Nat) (l : Look) (df : TableDef), s.search.flights = [f] ∧ s.ring.queue = [] ∧ f.d = some d ∧ f.activated =
    true ∧ f.resolved = false ∧ f.chainActivated = false ∧ d + 351 ≤ (s.at t).now ∧ f.looks = [l] ∧ l.status = none ∧ l.df = some df ∧ df.direct =
    false ∧ df.ringSpan = false ∧ descChain l.desc = false ∧ let noData := reqNoAd f.req.record || df.adBytes == 0; ∃ (c : Cand), l.winner = some c ∧
    l.mirror = some c ∧ noData = true) ∧
    (∃ (s : State) (t : Nat) (f : Search) (d : Nat) (l : Look) (df : TableDef), s.search.flights = [f] ∧ s.ring.queue = [] ∧ f.d = some d ∧ f.activated =
    true ∧ f.resolved = false ∧ f.chainActivated = false ∧ d + 351 ≤ (s.at t).now ∧ f.looks = [l] ∧ l.status = none ∧ l.df = some df ∧ df.direct =
    false ∧ df.ringSpan = false ∧ descChain l.desc = false ∧ let noData := reqNoAd f.req.record || df.adBytes == 0; ∃ (c : Cand), l.winner = some c ∧
    l.mirror = some c ∧ noData = false) ∧
    (∃ (s : State) (t : Nat) (f : Search) (d : Nat) (l : Look) (df : TableDef), s.search.flights = [f] ∧ s.ring.queue = [] ∧ f.d = some d ∧ f.activated =
    true ∧ f.resolved = false ∧ f.chainActivated = false ∧ d + 351 ≤ (s.at t).now ∧ f.looks = [l] ∧ l.status = none ∧ l.df = some df ∧ df.direct =
    false ∧ df.ringSpan = false ∧ descChain l.desc = false ∧ disagrees l.winner l.mirror = true) := by
  repeat' refine And.intro ?_ ?_
  · refine ⟨withSearch ({ aSearch [aLook] with activated := false }), 3, { aSearch [aLook] with activated := false }, 2000, ?_⟩
    repeat (refine ⟨by decide +kernel, ?_⟩)
    refine ⟨aLook, ternDef, ?_⟩
    decide +kernel
  · refine ⟨withSearch ({ aSearch [aLook] with activated := false, split := true, first := 1, d := some 2307 }), 3,
        { aSearch [aLook] with activated := false, split := true, first := 1, d := some 2307 }, 2307, ?_⟩
    repeat (refine ⟨by decide +kernel, ?_⟩)
    refine ⟨aLook, ternDef, ?_⟩
    decide +kernel
  · refine ⟨withSearch ({ aSearch [dLook, { aLook with desc := 32768, frontDone := true }] with resolved := true }), 3,
        { aSearch [dLook, { aLook with desc := 32768, frontDone := true }] with resolved := true }, 2000, ?_⟩
    repeat (refine ⟨by decide +kernel, ?_⟩)
    refine ⟨dLook, { aLook with desc := 32768, frontDone := true }, ternDef, ?_⟩
    decide +kernel
  · refine ⟨withSearch (aSearch [aLook]), 3, aSearch [aLook], 2000, aLook, ternDef, ?_⟩
    decide +kernel
  · refine ⟨withSearch (aSearch [{ aLook with df := some { ternDef with learn := true } }]), 3,
        aSearch [{ aLook with df := some { ternDef with learn := true } }], 2000, { aLook with df := some { ternDef with learn := true } },
        { ternDef with learn := true }, ?_⟩
    decide +kernel
  · refine ⟨withSearch ({ aSearch [{ aLook with winner := some aCand, mirror := some aCand, df := some { ternDef with hot := 2 } }] with req := { aReq with record := [0x10, 0x24] ++ (searchRec [0]).drop 2 } }),
        3,
        { aSearch [{ aLook with winner := some aCand, mirror := some aCand, df := some { ternDef with hot := 2 } }] with req := { aReq with record := [0x10, 0x24] ++ (searchRec [0]).drop 2 } },
        2000, { aLook with winner := some aCand, mirror := some aCand, df := some { ternDef with hot := 2 } }, { ternDef with hot := 2 }, ?_⟩
    repeat (refine ⟨by decide +kernel, ?_⟩)
    refine ⟨aCand, ?_⟩
    decide +kernel
  · refine ⟨withSearch (aSearch [{ aLook with winner := some aCand, mirror := some aCand, df := some { ternDef with hot := 2 } }]), 3,
        aSearch [{ aLook with winner := some aCand, mirror := some aCand, df := some { ternDef with hot := 2 } }], 2000,
        { aLook with winner := some aCand, mirror := some aCand, df := some { ternDef with hot := 2 } }, { ternDef with hot := 2 }, ?_⟩
    repeat (refine ⟨by decide +kernel, ?_⟩)
    refine ⟨aCand, ?_⟩
    decide +kernel
  · refine ⟨withSearch ({ aSearch [{ aLook with winner := some aCand, mirror := some { aCand with len := 8, bank := 13 }, df := some { ternDef with hot := 2 } }] with req := { aReq with record := [0x10, 0x24] ++ (searchRec [0]).drop 2 } }),
        3,
        { aSearch [{ aLook with winner := some aCand, mirror := some { aCand with len := 8, bank := 13 }, df := some { ternDef with hot := 2 } }] with req := { aReq with record := [0x10, 0x24] ++ (searchRec [0]).drop 2 } },
        2000, { aLook with winner := some aCand, mirror := some { aCand with len := 8, bank := 13 }, df := some { ternDef with hot := 2 } },
        { ternDef with hot := 2 }, ?_⟩
    decide +kernel

/-- The hypotheses of WinnerIsBest are met, those of each clause. -/
theorem test_hypotheses_WinnerIsBest :
    (∃ (s : State) (df : TableDef) (key : Digits) (banks : List Nat) (tags : List TagFault),
    let w := (s.winners false df key tags (s.activations false banks) (none, none)).fst; ∃ (c : Cand), w = some c) ∧
    (∃ (s : State) (df : TableDef) (key : Digits) (banks : List Nat) (tags : List TagFault), let up := fun (b : Nat) ↦ b ∈ banks ∧ s.bankDown b = false;
    let first := fun (c : Cand) ↦ ∃ (b : Nat), up b ∧ s.firstMatch b (df.tid % 4096) df.units key (badRows tags b) = some c;
    let before := fun (x y : Cand) ↦ precedes df.cls (x.keyHi, x.keyLo, x.len) (y.keyHi, y.keyLo, y.len);
    let w := (s.winners false df key tags (s.activations false banks) (none, none)).fst; ∃ (c : Cand), w = some c ∧ (∀ (x y z : Cand), first x → first
    y → first z → before x y = true → before y z = true → before x z = true) ∧ ∃ (c' : Cand), first c') ∧
    (∃ (s : State) (df : TableDef) (key : Digits) (banks : List Nat) (tags : List TagFault), let up := fun (b : Nat) ↦ b ∈ banks ∧ s.bankDown b = false; ∃
    (b : Nat) (row : Nat) (tag : Tag), up b ∧ (row, tag) ∈ s.matchable b (df.tid % 4096) ∧ ¬row ∈ badRows tags b ∧ s.rowHits b df.units row key =
    true) := by
  repeat' refine And.intro ?_ ?_
  · refine ⟨world, ternDef, keyBits, [5], [], ?_⟩
    refine ⟨aCand, ?_⟩
    decide +kernel
  · refine ⟨world, ternDef, keyBits, [5], [], ?_⟩
    refine ⟨aCand, ?_⟩
    refine ⟨by decide +kernel, fun x y z hx hy hz => ?_, ⟨5, 9, 7, 1, 100, 3⟩, 5, by decide +kernel, by decide +kernel⟩
    obtain ⟨b, hb, hx⟩ := hx; obtain ⟨b', hb', hy⟩ := hy; obtain ⟨b'', hb'', hz⟩ := hz
    obtain rfl := List.mem_singleton.1 hb.1; obtain rfl := List.mem_singleton.1 hb'.1; obtain rfl := List.mem_singleton.1 hb''.1
    rw [hx] at hy hz; cases hy; cases hz; intro p _; exact p
  · refine ⟨world, ternDef, keyBits, [5], [], ?_⟩
    refine ⟨5, 9, aTag, ?_⟩
    decide +kernel

/-- The hypotheses of DataChainsAndMirrors are met, those of each clause. -/
theorem test_hypotheses_DataChainsAndMirrors :
    (∃ (s : State) (t : Nat) (f : Search) (d : Nat) (l : Look) (df : TableDef) (c : Cand), f.d = some d ∧ l.reading = true ∧ l.disagree = false ∧ l.winner
    = some c ∧ l.df = some df ∧ ∃ (i : Nat) (how : DramRead), List.find? (fun (g : Search) ↦ g.id == f.id) s.search.flights = some f ∧ f.looks[i]? =
    some l ∧ (d + if descChain l.desc = true then 608 else 352) ≤ (s.at t).now ∧ (s.at t).now ≤ d + windowEnd f.mode ∧ s.readEnd (adAddr c.len) how ≠
    DramEnd.uncorrectable) ∧
    (∃ (s : State) (t : Nat) (f : Search) (d : Nat) (l : Look) (df : TableDef) (c : Cand), f.d = some d ∧ l.reading = true ∧ l.disagree = false ∧ l.winner
    = some c ∧ l.df = some df ∧ ∃ (i : Nat) (how : DramRead), List.find? (fun (g : Search) ↦ g.id == f.id) s.search.flights = some f ∧ f.looks[i]? =
    some l ∧ (d + if descChain l.desc = true then 608 else 352) ≤ (s.at t).now ∧ (s.at t).now ≤ d + windowEnd f.mode ∧ s.readEnd (adAddr c.len) how =
    DramEnd.uncorrectable) ∧
    (∃ (s : State) (t : Nat) (f : Search) (d : Nat) (l : Look) (df : TableDef) (c : Cand), f.d = some d ∧ l.reading = true ∧ l.disagree = false ∧ l.winner
    = some c ∧ l.df = some df ∧ s.search.flights = [f] ∧ f.looks = [l] ∧ f.resolved = true ∧ f.assembled = none ∧ d + windowEnd f.mode + 1 ≤ (s.at
    t).now) ∧
    (∃ (s : State) (t : Nat) (f : Search) (d : Nat) (src : Look) (l : Look), s.search.flights = [f] ∧ f.d = some d ∧ f.resolved = true ∧ f.status = none ∧
    f.assembled = none ∧ d + 360 ≤ (s.at t).now ∧ f.looks = [src, l] ∧ descChain src.desc = false ∧ descChain l.desc = true ∧ descSrc l.desc = 0 ∧
    l.status = none ∧ l.frontDone = false ∧ src.status = some 1) ∧
    (∃ (s : State) (t : Nat) (f : Search) (d : Nat) (src : Look) (l : Look), s.search.flights = [f] ∧ f.d = some d ∧ f.resolved = true ∧ f.status = none ∧
    f.assembled = none ∧ d + 360 ≤ (s.at t).now ∧ f.looks = [src, l] ∧ descChain src.desc = false ∧ descChain l.desc = true ∧ descSrc l.desc = 0 ∧
    l.status = none ∧ l.frontDone = false ∧ ∃ (df : TableDef), src.df = some df ∧ (src.status = none ∨ src.status = some 0) ∧ src.disagree = true ∧
    src.winner ≠ none ∧ df.direct = false) ∧
    (∃ (s : State) (t : Nat) (f : Search) (d : Nat) (src : Look) (l : Look), s.search.flights = [f] ∧ f.d = some d ∧ f.resolved = true ∧ f.status = none ∧
    f.assembled = none ∧ d + 360 ≤ (s.at t).now ∧ f.looks = [src, l] ∧ descChain src.desc = false ∧ descChain l.desc = true ∧ descSrc l.desc = 0 ∧
    l.status = none ∧ l.frontDone = false ∧ ∃ (df : TableDef), src.df = some df ∧ (src.status = none ∨ src.status = some 0) ∧ src.disagree = false ∧
    (if df.direct = true then src.pre = some 0 else src.winner ≠ none ∧ src.pre = some 0 ∧ df.adBytes ≠ 0) ∧ ∃ (ldf : TableDef), l.df = some ldf) ∧
    (∃ (s : State) (t : Nat) (f : Search) (d : Nat) (src : Look) (l : Look), s.search.flights = [f] ∧ f.d = some d ∧ f.resolved = true ∧ f.status = none ∧
    f.assembled = none ∧ d + 360 ≤ (s.at t).now ∧ f.looks = [src, l] ∧ descChain src.desc = false ∧ descChain l.desc = true ∧ descSrc l.desc = 0 ∧
    l.status = none ∧ l.frontDone = false ∧ ∃ (df : TableDef), src.df = some df ∧ (src.status = none ∨ src.status = some 0) ∧ src.disagree = false ∧
    (if df.direct = true then src.pre = some 0 else src.winner ≠ none ∧ src.pre = some 0 ∧ df.adBytes ≠ 0) ∧ l.df = none ∧ l.pre = some 10) ∧
    (∃ (s : State) (t : Nat) (f : Search) (d : Nat) (src : Look) (l : Look), s.search.flights = [f] ∧ f.d = some d ∧ f.resolved = true ∧ f.status = none ∧
    f.assembled = none ∧ d + 360 ≤ (s.at t).now ∧ f.looks = [src, l] ∧ descChain src.desc = false ∧ descChain l.desc = true ∧ descSrc l.desc = 0 ∧
    l.status = none ∧ l.frontDone = false ∧ ∃ (df : TableDef), src.df = some df ∧ (src.status = none ∨ src.status = some 0) ∧ src.disagree = false ∧
    (if df.direct = true then src.pre = some 0 else src.winner ≠ none ∧ src.pre = some 0 ∧ df.adBytes ≠ 0) ∧ l.df = none ∧ l.pre = some 8) ∧
    (∃ (s : State) (t : Nat) (f : Search) (d : Nat) (src : Look) (l : Look), s.search.flights = [f] ∧ f.d = some d ∧ f.resolved = true ∧ f.status = none ∧
    f.assembled = none ∧ d + 360 ≤ (s.at t).now ∧ f.looks = [src, l] ∧ descChain src.desc = false ∧ descChain l.desc = true ∧ descSrc l.desc = 0 ∧
    l.status = none ∧ l.frontDone = false ∧ ∃ (df : TableDef), src.df = some df ∧ (src.status = none ∨ src.status = some 0) ∧ src.disagree = false ∧
    df.direct = false ∧ src.winner ≠ none ∧ df.adBytes = 0) ∧
    (∃ (s : State) (t : Nat) (f : Search) (d : Nat) (src : Look) (l : Look), s.search.flights = [f] ∧ f.d = some d ∧ f.resolved = true ∧ f.status = none ∧
    f.assembled = none ∧ d + 360 ≤ (s.at t).now ∧ f.looks = [src, l] ∧ descChain src.desc = false ∧ descChain l.desc = true ∧ descSrc l.desc = 0 ∧
    l.status = none ∧ l.frontDone = false ∧ ∃ (df : TableDef), src.df = some df ∧ (src.status = none ∨ src.status = some 0) ∧ src.disagree = false ∧
    df.direct = false ∧ src.winner ≠ none ∧ df.adBytes ≠ 0 ∧ src.pre = none) ∧
    (∃ (s : State) (t : Nat) (f : Search) (d : Nat) (i : Nat) (l : Look) (df : TableDef) (v : MirrorReads), f.d = some d ∧ List.find? (fun (g : Search) ↦
    g.id == f.id) s.search.flights = some f ∧ f.looks[i]? = some l ∧ l.disagree = true ∧ l.status = none ∧ l.df = some df ∧ d + 1120 ≤ (s.at t).now ∧
    (s.at t).now < d + 1376 ∧ let ok := fun (pass : Bool) (c : Cand) ↦ s.validates df l.key pass (s.shadowBank c.bank c.row) c;
    let none_ := fun (pass : Bool) (w : Option Cand) ↦ ∀ (c : Cand), w = some c → ok pass c = false; ∃ (p : Cand), l.winner = some p ∧ ok
    v.primaryPass p = true ∧ none_ v.mirrorPass l.mirror) ∧
    (∃ (s : State) (t : Nat) (f : Search) (d : Nat) (i : Nat) (l : Look) (df : TableDef) (v : MirrorReads), f.d = some d ∧ List.find? (fun (g : Search) ↦
    g.id == f.id) s.search.flights = some f ∧ f.looks[i]? = some l ∧ l.disagree = true ∧ l.status = none ∧ l.df = some df ∧ d + 1120 ≤ (s.at t).now ∧
    (s.at t).now < d + 1376 ∧ let ok := fun (pass : Bool) (c : Cand) ↦ s.validates df l.key pass (s.shadowBank c.bank c.row) c;
    let none_ := fun (pass : Bool) (w : Option Cand) ↦ ∀ (c : Cand), w = some c → ok pass c = false; ∃ (m : Cand), l.mirror = some m ∧ ok v.mirrorPass
    m = true ∧ none_ v.primaryPass l.winner) ∧
    (∃ (s : State) (t : Nat) (f : Search) (d : Nat) (i : Nat) (l : Look) (df : TableDef) (v : MirrorReads), f.d = some d ∧ List.find? (fun (g : Search) ↦
    g.id == f.id) s.search.flights = some f ∧ f.looks[i]? = some l ∧ l.disagree = true ∧ l.status = none ∧ l.df = some df ∧ d + 1120 ≤ (s.at t).now ∧
    (s.at t).now < d + 1376 ∧ let ok := fun (pass : Bool) (c : Cand) ↦ s.validates df l.key pass (s.shadowBank c.bank c.row) c;
    let none_ := fun (pass : Bool) (w : Option Cand) ↦ ∀ (c : Cand), w = some c → ok pass c = false; none_ v.primaryPass l.winner ∧ none_ v.mirrorPass
    l.mirror) := by
  repeat' refine And.intro ?_ ?_
  · refine ⟨withSearch ({ aSearch [{ aLook with winner := some aCand, reading := true }] with d := some 2200 }), 3,
        { aSearch [{ aLook with winner := some aCand, reading := true }] with d := some 2200 }, 2200,
        { aLook with winner := some aCand, reading := true }, ternDef, aCand, ?_⟩
    repeat (refine ⟨by decide +kernel, ?_⟩)
    refine ⟨0, ⟨[], [], []⟩, ?_⟩
    decide +kernel
  · refine ⟨withSearch ({ aSearch [{ aLook with winner := some aCand, reading := true }] with d := some 2200 }), 3,
        { aSearch [{ aLook with winner := some aCand, reading := true }] with d := some 2200 }, 2200,
        { aLook with winner := some aCand, reading := true }, ternDef, aCand, ?_⟩
    repeat (refine ⟨by decide +kernel, ?_⟩)
    refine ⟨0, ⟨[5, 6, 7], [], []⟩, ?_⟩
    decide +kernel
  · refine ⟨withSearch ({ aSearch [{ aLook with winner := some aCand, reading := true }] with resolved := true, d := some 1000 }), 3,
        { aSearch [{ aLook with winner := some aCand, reading := true }] with resolved := true, d := some 1000 }, 1000,
        { aLook with winner := some aCand, reading := true }, ternDef, aCand, ?_⟩
    decide +kernel
  · refine ⟨withSearch ({ aSearch [{ dLook with status := some 1 }, { aLook with desc := 32768, df := none }] with resolved := true }), 3,
        { aSearch [{ dLook with status := some 1 }, { aLook with desc := 32768, df := none }] with resolved := true }, 2000,
        { dLook with status := some 1 }, { aLook with desc := 32768, df := none }, ?_⟩
    decide +kernel
  · refine ⟨withSearch ({ aSearch [{ aLook with winner := some aCand, disagree := true }, { aLook with desc := 32768 }] with resolved := true }), 3,
        { aSearch [{ aLook with winner := some aCand, disagree := true }, { aLook with desc := 32768 }] with resolved := true }, 2000,
        { aLook with winner := some aCand, disagree := true }, { aLook with desc := 32768 }, ?_⟩
    repeat (refine ⟨by decide +kernel, ?_⟩)
    refine ⟨ternDef, ?_⟩
    decide +kernel
  · refine ⟨withSearch ({ aSearch [{ dLook with status := some 0, pre := some 0 }, { aLook with desc := 32768 }] with resolved := true }), 3,
        { aSearch [{ dLook with status := some 0, pre := some 0 }, { aLook with desc := 32768 }] with resolved := true }, 2000,
        { dLook with status := some 0, pre := some 0 }, { aLook with desc := 32768 }, ?_⟩
    repeat (refine ⟨by decide +kernel, ?_⟩)
    refine ⟨directDef, ?_⟩
    repeat (refine ⟨by decide +kernel, ?_⟩)
    refine ⟨ternDef, ?_⟩
    decide +kernel
  · refine ⟨withSearch ({ aSearch [{ dLook with status := some 0, pre := some 0 }, { aLook with desc := 32768, df := none, pre := some 10 }] with resolved := true }),
        3,
        { aSearch [{ dLook with status := some 0, pre := some 0 }, { aLook with desc := 32768, df := none, pre := some 10 }] with resolved := true },
        2000, { dLook with status := some 0, pre := some 0 }, { aLook with desc := 32768, df := none, pre := some 10 }, ?_⟩
    repeat (refine ⟨by decide +kernel, ?_⟩)
    refine ⟨directDef, ?_⟩
    decide +kernel
  · refine ⟨withSearch ({ aSearch [{ dLook with status := some 0, pre := some 0 }, { aLook with desc := 32768, df := none, pre := some 8 }] with resolved := true }),
        3,
        { aSearch [{ dLook with status := some 0, pre := some 0 }, { aLook with desc := 32768, df := none, pre := some 8 }] with resolved := true },
        2000, { dLook with status := some 0, pre := some 0 }, { aLook with desc := 32768, df := none, pre := some 8 }, ?_⟩
    repeat (refine ⟨by decide +kernel, ?_⟩)
    refine ⟨directDef, ?_⟩
    decide +kernel
  · refine ⟨withSearch ({ aSearch [{ aLook with winner := some aCand, df := some { ternDef with adSize := 0 } }, { aLook with desc := 32768, df := none }] with resolved := true }),
        3,
        { aSearch [{ aLook with winner := some aCand, df := some { ternDef with adSize := 0 } }, { aLook with desc := 32768, df := none }] with resolved := true },
        2000, { aLook with winner := some aCand, df := some { ternDef with adSize := 0 } }, { aLook with desc := 32768, df := none }, ?_⟩
    repeat (refine ⟨by decide +kernel, ?_⟩)
    refine ⟨{ ternDef with adSize := 0 }, ?_⟩
    decide +kernel
  · refine ⟨withSearch ({ aSearch [{ aLook with winner := some aCand }, { aLook with desc := 32768, df := none }] with resolved := true }), 3,
        { aSearch [{ aLook with winner := some aCand }, { aLook with desc := 32768, df := none }] with resolved := true }, 2000,
        { aLook with winner := some aCand }, { aLook with desc := 32768, df := none }, ?_⟩
    repeat (refine ⟨by decide +kernel, ?_⟩)
    refine ⟨ternDef, ?_⟩
    decide +kernel
  · refine ⟨shadowed ({ aSearch [{ aLook with winner := some aCand, mirror := some { aCand with len := 8 }, disagree := true }] with d := some 1400 }), 3,
        { aSearch [{ aLook with winner := some aCand, mirror := some { aCand with len := 8 }, disagree := true }] with d := some 1400 }, 1400, 0,
        { aLook with winner := some aCand, mirror := some { aCand with len := 8 }, disagree := true }, ternDef, ⟨true, true, true, true⟩, ?_⟩
    repeat (refine ⟨by decide +kernel, ?_⟩)
    refine ⟨aCand, ?_⟩
    refine ⟨by decide +kernel, by decide +kernel, fun m h => by obtain rfl := Option.some.inj h.symm; decide +kernel⟩
  · refine ⟨shadowed ({ aSearch [{ aLook with winner := some { aCand with len := 8 }, mirror := some aCand, disagree := true }] with d := some 1400 }), 3,
        { aSearch [{ aLook with winner := some { aCand with len := 8 }, mirror := some aCand, disagree := true }] with d := some 1400 }, 1400, 0,
        { aLook with winner := some { aCand with len := 8 }, mirror := some aCand, disagree := true }, ternDef, ⟨true, true, true, true⟩, ?_⟩
    repeat (refine ⟨by decide +kernel, ?_⟩)
    refine ⟨aCand, ?_⟩
    refine ⟨by decide +kernel, by decide +kernel, fun m h => by obtain rfl := Option.some.inj h.symm; decide +kernel⟩
  · refine ⟨withSearch ({ aSearch [{ aLook with winner := some { aCand with gen := 9 }, mirror := some { aCand with len := 8 }, disagree := true }] with d := some 1400 }),
        3,
        { aSearch [{ aLook with winner := some { aCand with gen := 9 }, mirror := some { aCand with len := 8 }, disagree := true }] with d := some 1400 },
        1400, 0, { aLook with winner := some { aCand with gen := 9 }, mirror := some { aCand with len := 8 }, disagree := true }, ternDef, ⟨false,
        false, true, true⟩, ?_⟩
    iterate 8 refine ⟨by decide +kernel, ?_⟩
    refine ⟨fun m h => by obtain rfl := Option.some.inj h.symm; decide +kernel, fun m h => by obtain rfl := Option.some.inj h.symm; decide +kernel⟩

/-- The hypotheses of ResultsAssembledAndReleased are met, those of each clause. -/
theorem test_hypotheses_ResultsAssembledAndReleased :
    (∃ (s : State) (t : Nat) (f : Search) (d : Nat) (st : Nat) (l : Look) (df : TableDef), s.search.flights = [f] ∧ f.d = some d ∧ f.assembled = none ∧
    f.resolved = true ∧ f.status = none ∧ d + assemblyAt f ≤ (s.at t).now ∧ f.looks = [l] ∧ l.df = some df ∧ df.direct = false ∧ l.status = some st ∧
    l.reading = false ∧ l.disagree = false ∧ s.ring.launches = []) ∧
    (∃ (s : State) (t : Nat) (f : Search) (bytes : Bytes), s.search.flights = [f] ∧ f.assembled = some bytes ∧ releaseAt f ≤ (s.at t).now ∧
    s.observe.sessions = [] ∧ ∃ (q : Nat), f.req.src = Source.quay q ∧ (s.link (Port.quay q)).up = true) ∧
    (∃ (s : State) (t : Nat) (f : Search) (bytes : Bytes), s.search.flights = [f] ∧ f.assembled = some bytes ∧ releaseAt f ≤ (s.at t).now ∧
    s.observe.sessions = [] ∧ ∃ (n : Nat), (f.req.src = Source.hostRing n ∨ f.req.src = Source.window n) ∧ let r := ticketRing f.req.reply;
    let y := s.hostRing r; (s.function (ringFn r)).flr = false ∧ s.host.linkUp = true ∧ s.ticketHolds f.req.reply = true ∧ reserveOf f.req.record ≤
    y.reserved) := by
  repeat' refine And.intro ?_ ?_
  · refine ⟨withSearch ({ aSearch [{ aLook with status := some 0 }] with resolved := true, d := some 1000 }), 3,
        { aSearch [{ aLook with status := some 0 }] with resolved := true, d := some 1000 }, 1000, 0, { aLook with status := some 0 }, ternDef, ?_⟩
    decide +kernel
  · refine ⟨{ withSearch ({ aSearch [{ aLook with status := some 0 }] with req := { aReq with s0 := 1000 }, resolved := true, assembled := some (zeros 48) }) with links := (onQuay upQuay).links },
        3, { aSearch [{ aLook with status := some 0 }] with req := { aReq with s0 := 1000 }, resolved := true, assembled := some (zeros 48) },
        zeros 48, ?_⟩
    repeat (refine ⟨by decide +kernel, ?_⟩)
    refine ⟨0, ?_⟩
    decide +kernel
  · refine ⟨{ withSearch ({ aSearch [{ aLook with status := some 0 }] with req := { aReq with s0 := 1000, src := .hostRing 4, reply := 3 }, resolved := true, assembled := some (zeros 48) }) with host := (withRing 6 1 { HostRing.reset with state := .active, reserved := 1 }).host },
        3,
        { aSearch [{ aLook with status := some 0 }] with req := { aReq with s0 := 1000, src := .hostRing 4, reply := 3 }, resolved := true, assembled := some (zeros 48) },
        zeros 48, ?_⟩
    repeat (refine ⟨by decide +kernel, ?_⟩)
    refine ⟨4, ?_⟩
    decide +kernel

/-- The hypotheses of GlyphSets are met, those of each clause. -/
theorem test_hypotheses_GlyphSets :
    (∃ (s : State) (set : Nat), let g := s.glyph set; g.state = GlyphState.loading ∧ g.copying = true ∧ let code := s.admitCheck set true; code = 0) ∧
    (∃ (s : State) (set : Nat), let g := s.glyph set; g.state = GlyphState.loading ∧ g.copying = true ∧ let code := s.admitCheck set true; code ≠ 0) ∧
    (∃ (s : State) (t : Nat) (set : Nat), let g := s.glyph set; (g.state = GlyphState.reloading ∨ g.state = GlyphState.loading ∧ g.copying = false) ∧
    g.loadEnd ≤ (s.at t).now ∧ (s.due.any fun (d : Due) ↦ d.change == Change.glyphReady set) = false) ∧
    (∃ (s : State) (t : Nat) (w : Word64) (x : State), Stores s t Reg.SCB_GLYPH_CTL 0 w x ∧ Fld.SCB_GLYPH_CTL_go.get (BitVec.toNat w) = 1 ∧ s.cmdAuth =
    false ∧ x.glyphBusy = false ∧ let len := x.fld Fld.SCB_GLYPH_CTL_length; let addr := x.fld Fld.SCB_GLYPH_ADDR_addr; x.fld Fld.SCB_GLYPH_CTL_op = 1
    ∧ dmaRange addr len = false) ∧
    (∃ (s : State) (t : Nat) (w : Word64) (x : State), Stores s t Reg.SCB_GLYPH_CTL 0 w x ∧ Fld.SCB_GLYPH_CTL_go.get (BitVec.toNat w) = 1 ∧ s.cmdAuth =
    false ∧ x.glyphBusy = false ∧ let set := x.fld Fld.SCB_GLYPH_CTL_set; let len := x.fld Fld.SCB_GLYPH_CTL_length;
    let addr := x.fld Fld.SCB_GLYPH_ADDR_addr; x.fld Fld.SCB_GLYPH_CTL_op = 1 ∧ dmaRange addr len = true ∧ s.setBusy set = true) ∧
    (∃ (s : State) (t : Nat) (w : Word64) (x : State), Stores s t Reg.SCB_GLYPH_CTL 0 w x ∧ Fld.SCB_GLYPH_CTL_go.get (BitVec.toNat w) = 1 ∧ s.cmdAuth =
    false ∧ x.glyphBusy = false ∧ let set := x.fld Fld.SCB_GLYPH_CTL_set; let len := x.fld Fld.SCB_GLYPH_CTL_length;
    let addr := x.fld Fld.SCB_GLYPH_ADDR_addr; x.fld Fld.SCB_GLYPH_CTL_op = 1 ∧ dmaRange addr len = true ∧ s.setBusy set = false) ∧
    (∃ (s : State) (t : Nat) (w : Word64) (x : State), Stores s t Reg.SCB_GLYPH_CTL 0 w x ∧ Fld.SCB_GLYPH_CTL_go.get (BitVec.toNat w) = 1 ∧ s.cmdAuth =
    false ∧ x.glyphBusy = false ∧ let set := x.fld Fld.SCB_GLYPH_CTL_set; x.fld Fld.SCB_GLYPH_CTL_op = 2 ∧ s.setStreams set ≠ 0) ∧
    (∃ (s : State) (t : Nat) (w : Word64) (x : State), Stores s t Reg.SCB_GLYPH_CTL 0 w x ∧ Fld.SCB_GLYPH_CTL_go.get (BitVec.toNat w) = 1 ∧ s.cmdAuth =
    false ∧ x.glyphBusy = false ∧ let set := x.fld Fld.SCB_GLYPH_CTL_set; x.fld Fld.SCB_GLYPH_CTL_op = 2 ∧ s.setStreams set = 0) := by
  repeat' refine And.intro ?_ ?_
  · refine ⟨withGlyph ⟨.loading, 256, 0, 0, 0, 0, 0, true, none, none, false, 0⟩ glyphHead, 4, ?_⟩
    decide +kernel
  · refine ⟨withGlyph ⟨.loading, 4096, 0, 0, 0, 0, 0, true, none, none, false, 0⟩ [], 4, ?_⟩
    decide +kernel
  · refine ⟨withGlyph ⟨.loading, 4096, 0, 0, 0, 0, 0, false, none, none, false, 0⟩ glyphHead, 3, 4, ?_⟩
    decide +kernel
  · refine ⟨world, 3, wordOf [(Fld.SCB_GLYPH_CTL_go, 1), (Fld.SCB_GLYPH_CTL_op, 1), (Fld.SCB_GLYPH_CTL_set, 5), (Fld.SCB_GLYPH_CTL_length, 4096)],
        stored (world) 3 .SCB_GLYPH_CTL 0 (wordOf [(Fld.SCB_GLYPH_CTL_go, 1), (Fld.SCB_GLYPH_CTL_op, 1), (Fld.SCB_GLYPH_CTL_set, 5),
        (Fld.SCB_GLYPH_CTL_length, 4096)]), ?_⟩
    (first | decide +kernel | (unfold Stores; decide +kernel))
  · refine ⟨(world.setFld Fld.SCB_GLYPH_ADDR_addr hostDmaAddr), 3, wordOf [(Fld.SCB_GLYPH_CTL_go, 1), (Fld.SCB_GLYPH_CTL_op, 1), (Fld.SCB_GLYPH_CTL_set,
        3), (Fld.SCB_GLYPH_CTL_length, 4096)],
        stored ((world.setFld Fld.SCB_GLYPH_ADDR_addr hostDmaAddr)) 3 .SCB_GLYPH_CTL 0 (wordOf [(Fld.SCB_GLYPH_CTL_go, 1), (Fld.SCB_GLYPH_CTL_op, 1),
        (Fld.SCB_GLYPH_CTL_set, 3), (Fld.SCB_GLYPH_CTL_length, 4096)]), ?_⟩
    (first | decide +kernel | (unfold Stores; decide +kernel))
  · refine ⟨(world.setFld Fld.SCB_GLYPH_ADDR_addr hostDmaAddr), 3, wordOf [(Fld.SCB_GLYPH_CTL_go, 1), (Fld.SCB_GLYPH_CTL_op, 1), (Fld.SCB_GLYPH_CTL_set,
        5), (Fld.SCB_GLYPH_CTL_length, 4096)],
        stored ((world.setFld Fld.SCB_GLYPH_ADDR_addr hostDmaAddr)) 3 .SCB_GLYPH_CTL 0 (wordOf [(Fld.SCB_GLYPH_CTL_go, 1), (Fld.SCB_GLYPH_CTL_op, 1),
        (Fld.SCB_GLYPH_CTL_set, 5), (Fld.SCB_GLYPH_CTL_length, 4096)]), ?_⟩
    (first | decide +kernel | (unfold Stores; decide +kernel))
  · refine ⟨world, 3, wordOf [(Fld.SCB_GLYPH_CTL_go, 1), (Fld.SCB_GLYPH_CTL_op, 2), (Fld.SCB_GLYPH_CTL_set, 3), (Fld.SCB_GLYPH_CTL_length, 0)],
        stored (world) 3 .SCB_GLYPH_CTL 0 (wordOf [(Fld.SCB_GLYPH_CTL_go, 1), (Fld.SCB_GLYPH_CTL_op, 2), (Fld.SCB_GLYPH_CTL_set, 3),
        (Fld.SCB_GLYPH_CTL_length, 0)]), ?_⟩
    (first | decide +kernel | (unfold Stores; decide +kernel))
  · refine ⟨world, 3, wordOf [(Fld.SCB_GLYPH_CTL_go, 1), (Fld.SCB_GLYPH_CTL_op, 2), (Fld.SCB_GLYPH_CTL_set, 5), (Fld.SCB_GLYPH_CTL_length, 0)],
        stored (world) 3 .SCB_GLYPH_CTL 0 (wordOf [(Fld.SCB_GLYPH_CTL_go, 1), (Fld.SCB_GLYPH_CTL_op, 2), (Fld.SCB_GLYPH_CTL_set, 5),
        (Fld.SCB_GLYPH_CTL_length, 0)]), ?_⟩
    (first | decide +kernel | (unfold Stores; decide +kernel))

/-- The hypotheses of ScribesAssigned are met, those of each clause. -/
theorem test_hypotheses_ScribesAssigned :
    (∃ (s : State) (t : Nat) (w : Word64) (x : State), Stores s t Reg.SCB_SCRIBE_CTL 0 w x ∧ Fld.SCB_SCRIBE_CTL_go.get (BitVec.toNat w) = 1 ∧ s.cmdAuth =
    false ∧ let n := x.fld Fld.SCB_SCRIBE_CTL_scribe; s.domainDown (26 + n / 32) = false ∧ x.fld Fld.SCB_SCRIBE_CTL_op = 1 ∧ s.offlineCheck n ≠ 0) ∧
    (∃ (s : State) (t : Nat) (w : Word64) (x : State), Stores s t Reg.SCB_SCRIBE_CTL 0 w x ∧ Fld.SCB_SCRIBE_CTL_go.get (BitVec.toNat w) = 1 ∧ s.cmdAuth =
    false ∧ let n := x.fld Fld.SCB_SCRIBE_CTL_scribe; s.domainDown (26 + n / 32) = false ∧ x.fld Fld.SCB_SCRIBE_CTL_op = 1 ∧ s.offlineCheck n = 0 ∧
    (s.scribe n).offlineAt = none) ∧
    (∃ (s : State) (t : Nat) (w : Word64) (x : State), Stores s t Reg.SCB_SCRIBE_CTL 0 w x ∧ Fld.SCB_SCRIBE_CTL_go.get (BitVec.toNat w) = 1 ∧ s.cmdAuth =
    false ∧ let n := x.fld Fld.SCB_SCRIBE_CTL_scribe; s.domainDown (26 + n / 32) = false ∧ x.fld Fld.SCB_SCRIBE_CTL_op = 2) ∧
    (∃ (s : State) (c : Chunk) (x : Nat) (more : List Nat), s.clock.stroke = 0 ∧ s.scribes.assignedAt ≠ some s.clock.grid ∧ s.clockRuns = true ∧ s.serving
    = true ∧ s.awake = true ∧ s.scribes.queue = [c] ∧ s.candidates 0 = [c] ∧ c.cls < 4 ∧ c.set < 64 ∧ (∀ (v : Scribe), v ∈ s.scribes.scribes.vals →
    v.work = []) ∧ List.filter (fun (y : Nat) ↦ (s.scribe y).online && decide ((s.scribe y).assignFrom ≤ s.clock.grid) && (s.scribe
    y).offlineAt.isNone && !s.domainDown 26) (s.activeNext 0) = x :: more) := by
  repeat' refine And.intro ?_ ?_
  · refine ⟨{ world with scribes := { world.scribes with scribes := [(0, { Scribe.reset with online := false })] } }, 3, wordOf [(Fld.SCB_SCRIBE_CTL_go,
        1), (Fld.SCB_SCRIBE_CTL_op, 1), (Fld.SCB_SCRIBE_CTL_scribe, 0)],
        stored ({ world with scribes := { world.scribes with scribes := [(0, { Scribe.reset with online := false })] } }) 3 .SCB_SCRIBE_CTL 0 (wordOf [(Fld.SCB_SCRIBE_CTL_go,
        1), (Fld.SCB_SCRIBE_CTL_op, 1), (Fld.SCB_SCRIBE_CTL_scribe, 0)]), ?_⟩
    (first | decide +kernel | (unfold Stores; decide +kernel))
  · refine ⟨world, 3, wordOf [(Fld.SCB_SCRIBE_CTL_go, 1), (Fld.SCB_SCRIBE_CTL_op, 1), (Fld.SCB_SCRIBE_CTL_scribe, 0)],
        stored (world) 3 .SCB_SCRIBE_CTL 0 (wordOf [(Fld.SCB_SCRIBE_CTL_go, 1), (Fld.SCB_SCRIBE_CTL_op, 1), (Fld.SCB_SCRIBE_CTL_scribe, 0)]), ?_⟩
    (first | decide +kernel | (unfold Stores; decide +kernel))
  · refine ⟨world, 3, wordOf [(Fld.SCB_SCRIBE_CTL_go, 1), (Fld.SCB_SCRIBE_CTL_op, 2), (Fld.SCB_SCRIBE_CTL_scribe, 0)],
        stored (world) 3 .SCB_SCRIBE_CTL 0 (wordOf [(Fld.SCB_SCRIBE_CTL_go, 1), (Fld.SCB_SCRIBE_CTL_op, 2), (Fld.SCB_SCRIBE_CTL_scribe, 0)]), ?_⟩
    (first | decide +kernel | (unfold Stores; decide +kernel))
  · refine ⟨{ world with scribes := { world.scribes with queue := [aChunk (chunkRec 0 0)] } }, aChunk (chunkRec 0 0), 0, (List.range 32).drop 1, ?_⟩
    iterate 9 refine ⟨by decide +kernel, ?_⟩
    refine ⟨fun v h => (by cases h), by decide +kernel⟩

/-- The hypotheses of ChunksReadAndEnd are met, those of each clause. -/
theorem test_hypotheses_ChunksReadAndEnd :
    (∃ (s : State) (n : Nat) (a : Assigned), (s.scribe n).work = [a] ∧ a.runTide = s.clock.grid + 1 ∧ a.reading = true ∧ ∃ (how : DramRead), True) ∧
    (∃ (s : State) (n : Nat) (a : Assigned), (s.scribe n).work = [a] ∧ a.runTide = s.clock.grid + 1 ∧ a.reading = true) ∧
    (∃ (s : State) (x : Nat) (a : Assigned), (s.scribe x).work = [a] ∧ a.runTide = s.clock.grid ∧ a.ended = none) ∧
    (∃ (s : State) (x : Nat) (a : Assigned), (s.scribe x).work = [a] ∧ let rec_ := a.chunk.record; ∃ (e : ChunkEnd) (q : Nat), a.ended = some e ∧
    a.runTide < s.clock.grid ∧ e.reported = [] ∧ e.found = 0 ∧ a.chunk.src = Source.quay q ∧ s.scribes.reports = [] ∧ e.status = 0 ∧ (byteAt rec_
    1).testBit 3 = false ∧ (byteAt rec_ 1).testBit 2 = false ∧ e.ackAll = false) ∧
    (∃ (s : State) (x : Nat) (a : Assigned), (s.scribe x).work = [a] ∧ let rec_ := a.chunk.record; ∃ (e : ChunkEnd) (q : Nat), a.ended = some e ∧
    a.runTide < s.clock.grid ∧ e.reported = [] ∧ e.found = 0 ∧ a.chunk.src = Source.quay q ∧ s.scribes.reports = [] ∧ e.status ≠ 0 ∧ e.dest = 0 ∧ 12 ≤
    List.length rec_ ∧ s.quayRoom q 3 = true) := by
  repeat' refine And.intro ?_ ?_
  · refine ⟨withWork (world) ⟨aChunk (chunkRec 0 0), 11, false, true, false, none⟩, 0, ⟨aChunk (chunkRec 0 0), 11, false, true, false, none⟩, ?_⟩
    repeat (refine ⟨by decide +kernel, ?_⟩)
    refine ⟨⟨[], [], []⟩, ?_⟩
    decide +kernel
  · refine ⟨withWork (world) ⟨aChunk (chunkRec 0 0), 11, false, true, false, none⟩, 0, ⟨aChunk (chunkRec 0 0), 11, false, true, false, none⟩, ?_⟩
    decide +kernel
  · refine ⟨withWork (world) ⟨aChunk (chunkRec 0 0), 10, false, false, false, none⟩, 0, ⟨aChunk (chunkRec 0 0), 10, false, false, false, none⟩, ?_⟩
    decide +kernel
  · refine ⟨withWork (world) ⟨aChunk (chunkRec 0 0), 9, false, false, false, some ⟨0, 0, [], 0, 9, 0, 0, false, none⟩⟩, 0, ⟨aChunk (chunkRec 0 0), 9,
        false, false, false, some ⟨0, 0, [], 0, 9, 0, 0, false, none⟩⟩, ?_⟩
    repeat (refine ⟨by decide +kernel, ?_⟩)
    refine ⟨⟨0, 0, [], 0, 9, 0, 0, false, none⟩, 0, ?_⟩
    decide +kernel
  · refine ⟨withWork (onQuay upQuay) ⟨aChunk (chunkRec 0 0), 9, false, false, false, some ⟨3, 0, [], 0, 9, 0, 0, false, none⟩⟩, 0, ⟨aChunk (chunkRec 0 0),
        9, false, false, false, some ⟨3, 0, [], 0, 9, 0, 0, false, none⟩⟩, ?_⟩
    repeat (refine ⟨by decide +kernel, ?_⟩)
    refine ⟨⟨3, 0, [], 0, 9, 0, 0, false, none⟩, 0, ?_⟩
    decide +kernel

/-- The hypotheses of ChunksRun are met, those of each clause. -/
theorem test_hypotheses_ChunksRun :
    (∃ (s : State) (t : Nat) (x : Nat) (a : Assigned), (s.scribe x).work = [a] ∧ a.runTide = s.clock.grid ∧ a.ended = none ∧ a.reading = false ∧
    let n := a.chunk.stream; (s.at t).frozen (streamMaster n) = true) ∧
    (∃ (s : State) (t : Nat) (x : Nat) (a : Assigned), (s.scribe x).work = [a] ∧ a.runTide = s.clock.grid ∧ a.ended = none ∧ a.reading = false ∧
    let n := a.chunk.stream; (s.at t).frozen (streamMaster n) = false ∧ a.badState = true) ∧
    (∃ (s : State) (t : Nat) (x : Nat) (a : Assigned), (s.scribe x).work = [a] ∧ a.runTide = s.clock.grid ∧ a.ended = none ∧ a.reading = false ∧
    let n := a.chunk.stream; let st := s.streamState n; (s.at t).frozen (streamMaster n) = false ∧ a.badState = false ∧ (byteAt st 11).testBit 1 =
    true) ∧
    (∃ (s : State) (t : Nat) (x : Nat) (a : Assigned), (s.scribe x).work = [a] ∧ a.runTide = s.clock.grid ∧ a.ended = none ∧ a.reading = false ∧
    let n := a.chunk.stream; let st := s.streamState n; let rec_ := a.chunk.record; let berth := fieldLE rec_ 12 2 % 16384; (s.at t).frozen
    (streamMaster n) = false ∧ a.badState = false ∧ (byteAt st 11).testBit 1 = false ∧ (berth ≠ fieldLE st 12 2 % 16384 ∨ (s.berth
    berth).record.glyphMask.testBit a.chunk.set = false)) ∧
    (∃ (s : State) (t : Nat) (x : Nat) (a : Assigned), (s.scribe x).work = [a] ∧ a.runTide = s.clock.grid ∧ a.ended = none ∧ a.reading = false ∧
    let n := a.chunk.stream; let st := s.streamState n; let rec_ := a.chunk.record; let berth := fieldLE rec_ 12 2 % 16384; (s.at t).frozen
    (streamMaster n) = false ∧ a.badState = false ∧ (byteAt st 11).testBit 1 = false ∧ berth = fieldLE st 12 2 % 16384 ∧ (s.berth
    berth).record.glyphMask.testBit a.chunk.set = true ∧ fieldLE rec_ 8 4 ≠ fieldLE st 16 4) ∧
    (∃ (s : State) (t : Nat) (x : Nat) (a : Assigned), (s.scribe x).work = [a] ∧ a.runTide = s.clock.grid ∧ a.ended = none ∧ a.reading = false ∧
    let n := a.chunk.stream; let st := s.streamState n; let rec_ := a.chunk.record; let berth := fieldLE rec_ 12 2 % 16384; (s.at t).frozen
    (streamMaster n) = false ∧ a.badState = false ∧ (byteAt st 11).testBit 1 = false ∧ berth = fieldLE st 12 2 % 16384 ∧ (s.berth
    berth).record.glyphMask.testBit a.chunk.set = true ∧ fieldLE rec_ 8 4 = fieldLE st 16 4) := by
  repeat' refine And.intro ?_ ?_
  · refine ⟨withWork ({ world with masters := [(streamMaster 0, { Master.reset with freeze := some ⟨2, 9, none, 0, 0, none, none⟩ })] }) ⟨aChunk (chunkRec 0 0),
        10, false, false, false, none⟩, 3, 0, ⟨aChunk (chunkRec 0 0), 10, false, false, false, none⟩, ?_⟩
    decide +kernel
  · refine ⟨withWork (world) ⟨aChunk (chunkRec 0 0), 10, false, false, true, none⟩, 3, 0, ⟨aChunk (chunkRec 0 0), 10, false, false, true, none⟩, ?_⟩
    decide +kernel
  · refine ⟨withWork (world.dramWrite (streamAddr 0) (zeros 11 ++ [2])) ⟨aChunk (chunkRec 0 0), 10, false, false, false, none⟩, 3, 0,
        ⟨aChunk (chunkRec 0 0), 10, false, false, false, none⟩, ?_⟩
    decide +kernel
  · refine ⟨withWork (world) ⟨aChunk (chunkRec 0 1), 10, false, false, false, none⟩, 3, 0, ⟨aChunk (chunkRec 0 1), 10, false, false, false, none⟩, ?_⟩
    decide +kernel
  · refine ⟨withWork (world) ⟨aChunk (chunkRec 1 0), 10, false, false, false, none⟩, 3, 0, ⟨aChunk (chunkRec 1 0), 10, false, false, false, none⟩, ?_⟩
    decide +kernel
  · refine ⟨withWork (world) ⟨aChunk (chunkRec 0 0), 10, false, false, false, none⟩, 3, 0, ⟨aChunk (chunkRec 0 0), 10, false, false, false, none⟩, ?_⟩
    decide +kernel

/-- The hypotheses of FreezesAndSealStore are met, those of each clause. -/
theorem test_hypotheses_FreezesAndSealStore :
    (∃ (s : State) (t : Nat) (w : Word64), let b := s.fld Fld.BTH_SEL_berth; (s.at t).holds Reg.BTH_SHAPER_CTL = false ∧ (s.at t).served
    Reg.BTH_SHAPER_CTL 0 = true ∧ Fld.BTH_SHAPER_CTL_forgive.get (BitVec.toNat w) = 1 ∧ s.cmdAuth = false ∧ (s.berth b).forgivePending = false) ∧
    (∃ (s : State) (t : Nat) (w : Word64), let m := BitVec.toNat w % 2 ^ 32; (s.at t).served Reg.SEC_THAW 0 = true ∧ s.cmdAuth = false ∧ ∃ (f : Freeze),
    (s.master m).freeze = some f ∧ f.thawAccepted = none) ∧
    (∃ (s : State) (t : Nat) (w : Word64), let m := BitVec.toNat w % 2 ^ 32; (s.at t).served Reg.SEC_THAW 0 = true ∧ s.cmdAuth = false ∧ (s.master
    m).freeze = none) ∧
    (∃ (s : State) (t : Nat), (s.at t).served Reg.SEC_THAW 0 = true ∧ s.cmdAuth = true) ∧
    (∃ (s : State), s.clock.stroke = 0) ∧
    (∃ (s : State) (causes : Nat), s.power.vddAon = true ∧ s.armed causes ≠ 0) ∧
    (∃ (s : State), s.power.tamperHold = true ∧ s.power.railsValid = true) ∧
    (∃ (s : State), s.security.rootKeys = true) ∧
    (∃ (s : State) (key : Bytes) (sig : Bytes), s.fuses.lifeCycle = 3 ∧ s.security.debugOpen = false ∧ s.debugTokenOk key sig = true) := by
  repeat' refine And.intro ?_ ?_
  · refine ⟨world, 3, wordOf [(Fld.BTH_SHAPER_CTL_forgive, 1)], ?_⟩
    decide +kernel
  · refine ⟨{ world with masters := [(0, { Master.reset with freeze := some ⟨2, 9, none, 0, 0, none, none⟩ })] }, 3, 0, ?_⟩
    repeat (refine ⟨by decide +kernel, ?_⟩)
    refine ⟨⟨2, 9, none, 0, 0, none, none⟩, ?_⟩
    decide +kernel
  · refine ⟨world, 3, 0, ?_⟩
    decide +kernel
  · refine ⟨authWorld, 3, ?_⟩
    decide +kernel
  · refine ⟨world, ?_⟩
    decide +kernel
  · refine ⟨world, 4, ?_⟩
    decide +kernel
  · refine ⟨{ world with power := { world.power with tamperHold := true } }, ?_⟩
    decide +kernel
  · refine ⟨world, ?_⟩
    decide +kernel
  · refine ⟨{ world with fuses := { world.fuses with lifeCycle := 3, debugHash := ownerHash } }, pointKey, debugSignature, ?_⟩
    decide +kernel

/-- The hypotheses of TapAndSmbus are met, those of each clause. -/
theorem test_hypotheses_TapAndSmbus :
    (∃ (s : State), s.power.vddAon = true ∧ ∃ (ir : Nat), True) ∧
    (∃ (s : State), s.power.vddAon = true) := by
  repeat' refine And.intro ?_ ?_
  · refine ⟨world, ?_⟩
    exact ⟨by decide +kernel, 0, trivial⟩
  · refine ⟨world, ?_⟩
    decide +kernel

/-- The hypotheses of LinkBringUpAndControl are met, those of each clause. -/
theorem test_hypotheses_LinkBringUpAndControl :
    (∃ (s : State) (p : Port), s.hasPort p = true ∧ (s.link p).state = LinkState.train) ∧
    (∃ (s : State) (p : Port), s.hasPort p = true ∧ (s.link p).state = LinkState.align) ∧
    (∃ (s : State) (p : Port), s.hasPort p = true ∧ ∃ (width : Nat), (s.link p).state = LinkState.initing) ∧
    (∃ (s : State) (p : Port), s.hasPort p = true ∧ (s.link p).state = LinkState.initing) ∧
    (∃ (s : State) (t : Nat) (q : Nat) (w : Word64) (x : State), s.fld Fld.QUY_SEL_lquay = q ∧ s.hasPort (Port.quay q) = true ∧ Stores s t Reg.QUY_CTL q w
    x ∧ Fld.QUY_CTL_retrain.get (BitVec.toNat w) = 0 ∧ let l := s.link (Port.quay q); Fld.QUY_CTL_reset.get (BitVec.toNat w) = 0 ∧ ∃ (lo : Nat) (n :
    Nat), s.bit Fld.QUY_CTL_enable q = false ∧ x.bit Fld.QUY_CTL_enable q = true ∧ l.state = LinkState.off ∧ l.choose = some (lo, n)) ∧
    (∃ (s : State) (t : Nat) (q : Nat) (w : Word64) (x : State), s.fld Fld.QUY_SEL_lquay = q ∧ s.hasPort (Port.quay q) = true ∧ Stores s t Reg.QUY_CTL q w
    x ∧ Fld.QUY_CTL_retrain.get (BitVec.toNat w) = 0 ∧ Fld.QUY_CTL_reset.get (BitVec.toNat w) = 0 ∧ s.bit Fld.QUY_CTL_enable q = true ∧ x.bit
    Fld.QUY_CTL_enable q = false) ∧
    (∃ (s : State) (t : Nat) (q : Nat) (w : Word64) (x : State), s.fld Fld.QUY_SEL_lquay = q ∧ s.hasPort (Port.quay q) = true ∧ Stores s t Reg.QUY_CTL q w
    x ∧ Fld.QUY_CTL_retrain.get (BitVec.toNat w) = 0 ∧ Fld.QUY_CTL_reset.get (BitVec.toNat w) = 1 ∧ x.bit Fld.QUY_CTL_enable q = s.bit
    Fld.QUY_CTL_enable q) := by
  repeat' refine And.intro ?_ ?_
  · refine ⟨onQuay { upQuay with state := .train }, .quay 0, ?_⟩
    decide +kernel
  · refine ⟨onQuay { upQuay with state := .align }, .quay 0, ?_⟩
    decide +kernel
  · refine ⟨onQuay { upQuay with state := .initing }, .quay 0, ?_⟩
    repeat (refine ⟨by decide +kernel, ?_⟩)
    refine ⟨4, ?_⟩
    decide +kernel
  · refine ⟨onQuay { upQuay with state := .initing }, .quay 0, ?_⟩
    decide +kernel
  · refine ⟨((onQuay { upQuay with state := .off }).setFld Fld.QUY_CTL_enable 0 0), 3, 0, wordOf [(Fld.QUY_CTL_enable, 1)],
        stored (((onQuay { upQuay with state := .off }).setFld Fld.QUY_CTL_enable 0 0)) 3 .QUY_CTL 0 (wordOf [(Fld.QUY_CTL_enable, 1)]), ?_⟩
    repeat (refine ⟨by (first | decide +kernel | (unfold Stores; decide +kernel)), ?_⟩)
    refine ⟨0, 4, ?_⟩
    (first | decide +kernel | (unfold Stores; decide +kernel))
  · refine ⟨((onQuay upQuay).setFld Fld.QUY_CTL_enable 1 0), 3, 0, 0, stored (((onQuay upQuay).setFld Fld.QUY_CTL_enable 1 0)) 3 .QUY_CTL 0 (0), ?_⟩
    (first | decide +kernel | (unfold Stores; decide +kernel))
  · refine ⟨((onQuay upQuay).setFld Fld.QUY_CTL_enable 1 0), 3, 0, wordOf [(Fld.QUY_CTL_enable, 1), (Fld.QUY_CTL_reset, 1)],
        stored (((onQuay upQuay).setFld Fld.QUY_CTL_enable 1 0)) 3 .QUY_CTL 0 (wordOf [(Fld.QUY_CTL_enable, 1), (Fld.QUY_CTL_reset, 1)]), ?_⟩
    (first | decide +kernel | (unfold Stores; decide +kernel))

/-- The hypotheses of LanesAndLinksGoDown are met, those of each clause. -/
theorem test_hypotheses_LanesAndLinksGoDown :
    (∃ (s : State) (t : Nat) (p : Port), let l := s.link p; let now := (s.at t).now; l.state = LinkState.align ∧ l.since + 1500000 ≤ now) ∧
    (∃ (s : State) (t : Nat) (p : Port), let l := s.link p; let now := (s.at t).now; l.state = LinkState.initing ∧ l.since + 1500000 ≤ now) ∧
    (∃ (s : State) (t : Nat) (p : Port), let l := s.link p; let now := (s.at t).now; l.up = true ∧ l.lastFrame + 1500000 ≤ now) ∧
    (∃ (s : State) (t : Nat) (p : Port), let l := s.link p; let now := (s.at t).now; ∃ (f : SentFrame) (rest : List SentFrame), l.up = true ∧ l.replay = f
    :: rest ∧ f.sentAt + 512 ≤ now ∧ 16 ≤ f.replays) ∧
    (∃ (s : State) (t : Nat) (p : Port), let l := s.link p; ∃ (q : Nat) (w : Word64) (x : State), p = Port.quay q ∧ s.fld Fld.QUY_SEL_lquay = q ∧
    s.hasPort p = true ∧ Stores s t Reg.QUY_CTL q w x ∧ x.bit Fld.QUY_CTL_enable q = s.bit Fld.QUY_CTL_enable q ∧ Fld.QUY_CTL_reset.get (BitVec.toNat
    w) = 0 ∧ Fld.QUY_CTL_retrain.get (BitVec.toNat w) = 1 ∧ l.state ≠ LinkState.off ∧ l.state ≠ LinkState.failed) ∧
    (∃ (s : State) (t : Nat) (lane : Nat) (p : Port) (x : Lane), s.hasPort p = true ∧ let l := s.link p; let idx := lane - l.laneBase; l.lane lane = some
    x ∧ l.up = true ∧ l.widthTo = none ∧ l.lo ≤ idx ∧ idx < l.lo + l.width ∧ let half := l.width / 2;
    let lo := if idx < l.lo + half then l.lo + half else l.lo; half ≠ 0 ∧ l.minWidth ≤ half ∧ l.blockUsable lo half = true ∧ ∃ (c : Instr), c ∈
    [Instr.laneLossOfLock t p lane, Instr.serLimitExceeded t p lane, Instr.laneBad t p (idx - l.lo)]) ∧
    (∃ (s : State) (t : Nat) (lane : Nat) (p : Port) (x : Lane), s.hasPort p = true ∧ let l := s.link p; let now := (s.at t).now; l.lane lane = some x ∧
    x.retired = false ∧ x.locked = false ∧ l.state = LinkState.train ∧ x.retraining = false ∧ l.since + 7500000 ≤ now) ∧
    (∃ (s : State) (t : Nat) (lane : Nat) (p : Port) (x : Lane), s.hasPort p = true ∧ let l := s.link p; let now := (s.at t).now; l.lane lane = some x ∧
    x.retired = false ∧ x.locked = false ∧ l.state = LinkState.train ∧ x.retraining = true ∧ x.since + 7500000 ≤ now) ∧
    (∃ (s : State) (t : Nat) (lane : Nat) (p : Port) (x : Lane), s.hasPort p = true ∧ let l := s.link p; let now := (s.at t).now; l.lane lane = some x ∧
    x.retired = false ∧ x.locked = false ∧ l.up = true ∧ x.retraining = true ∧ x.since + 7500000 ≤ now) ∧
    (∃ (s : State) (lane : Nat) (p : Port) (x : Lane), s.hasPort p = true ∧ let l := s.link p; l.lane lane = some x ∧ ∃ (lo : Nat) (w : Nat) (cw : Nat),
    l.up = true ∧ l.widthTo = some (lo, w, cw)) ∧
    (∃ (s : State) (t : Nat) (lane : Nat) (p : Port) (x : Lane), s.hasPort p = true ∧ let l := s.link p; let now := (s.at t).now; l.lane lane = some x ∧
    l.up = true ∧ x.retraining = true ∧ now ≤ x.since + 7500000 ∧
    let l1 := l.mapLane lane fun (y : Lane) ↦ { usable := y.usable, locked := true, retired := y.retired, retrains := y.retrains, retraining := false, since := y.since };
    l1.retraining = true) ∧
    (∃ (s : State) (t : Nat) (lane : Nat) (p : Port) (x : Lane), s.hasPort p = true ∧ let l := s.link p; let now := (s.at t).now; l.lane lane = some x ∧
    l.up = true ∧ x.retraining = true ∧ now ≤ x.since + 7500000 ∧
    let l1 := l.mapLane lane fun (y : Lane) ↦ { usable := y.usable, locked := true, retired := y.retired, retrains := y.retrains, retraining := false, since := y.since };
    let l2 := l1.forceWidth; ∃ (lo : Nat) (w : Nat), l1.retraining = false ∧ l2.choose = some (lo, w) ∧ (w ≠ l2.width ∨ lo ≠ l2.lo)) := by
  repeat' refine And.intro ?_ ?_
  · refine ⟨lateQuay { upQuay with state := .align }, 3, .quay 0, ?_⟩
    decide +kernel
  · refine ⟨lateQuay { upQuay with state := .initing }, 3, .quay 0, ?_⟩
    decide +kernel
  · refine ⟨lateQuay upQuay, 3, .quay 0, ?_⟩
    decide +kernel
  · refine ⟨lateQuay { upQuay with replay := [⟨0, zeros 320, 0, 16⟩] }, 3, .quay 0, ?_⟩
    refine ⟨⟨0, zeros 320, 0, 16⟩, [], ?_⟩
    decide +kernel
  · refine ⟨((onQuay upQuay).setFld Fld.QUY_CTL_enable 1 0), 3, .quay 0, ?_⟩
    refine ⟨0, wordOf [(Fld.QUY_CTL_enable, 1), (Fld.QUY_CTL_retrain, 1)],
        stored (((onQuay upQuay).setFld Fld.QUY_CTL_enable 1 0)) 3 .QUY_CTL 0 (wordOf [(Fld.QUY_CTL_enable, 1), (Fld.QUY_CTL_retrain, 1)]), ?_⟩
    (first | decide +kernel | (unfold Stores; decide +kernel))
  · refine ⟨onQuay upQuay, 3, 0, .quay 0, ⟨true, false, false, 0, false, 0⟩, ?_⟩
    repeat (refine ⟨by decide +kernel, ?_⟩)
    refine ⟨.laneLossOfLock 3 (.quay 0) 0, ?_⟩
    decide +kernel
  · refine ⟨lateQuay { upQuay with state := .train }, 3, 0, .quay 0, ⟨true, false, false, 0, false, 0⟩, ?_⟩
    decide +kernel
  · refine ⟨lateQuay { upQuay with state := .train, lanes := retrainLanes }, 3, 0, .quay 0, ⟨true, false, false, 0, true, 0⟩, ?_⟩
    decide +kernel
  · refine ⟨lateQuay { upQuay with lanes := retrainLanes }, 3, 0, .quay 0, ⟨true, false, false, 0, true, 0⟩, ?_⟩
    decide +kernel
  · refine ⟨onQuay { upQuay with widthTo := some (0, 2, 5) }, 0, .quay 0, ⟨true, false, false, 0, false, 0⟩, ?_⟩
    repeat (refine ⟨by decide +kernel, ?_⟩)
    refine ⟨0, 2, 5, ?_⟩
    decide +kernel
  · refine ⟨onQuay { upQuay with lanes := ⟨true, false, false, 0, true, 0⟩ :: retrainLanes }, 3, 0, .quay 0, ⟨true, false, false, 0, true, 0⟩, ?_⟩
    decide +kernel
  · refine ⟨onQuay { upQuay with lanes := retrainLanes, width := 2 }, 3, 0, .quay 0, ⟨true, false, false, 0, true, 0⟩, ?_⟩
    repeat (refine ⟨by decide +kernel, ?_⟩)
    refine ⟨0, 4, ?_⟩
    decide +kernel

/-- The hypotheses of FramesReceived are met, those of each clause. -/
theorem test_hypotheses_FramesReceived :
    (∃ (s : State) (p : Port) (f : Bytes), s.hasPort p = true ∧ (s.link p).up = true ∧ List.length f = 320 ∧
    let ok := crc32 (List.take 316 f) = fieldLE f 316 4; ∃ (errors : Nat), 15 < errors ∨ ¬ok) ∧
    (∃ (s : State) (p : Port) (f : Bytes), s.hasPort p = true ∧ (s.link p).up = true ∧ List.length f = 320 ∧
    let ok := crc32 (List.take 316 f) = fieldLE f 316 4; let b := byteAt f 6; ∃ (errors : Nat), errors ≤ 15 ∧ ok ∧ b.testBit 2 = false ∧ b % 4 ≠ 1) ∧
    (∃ (s : State) (p : Port) (f : Bytes), s.hasPort p = true ∧ (s.link p).up = true ∧ List.length f = 320 ∧ let l := s.link p;
    let ok := crc32 (List.take 316 f) = fieldLE f 316 4; let b := byteAt f 6; ∃ (errors : Nat), errors ≤ 15 ∧ ok ∧ b.testBit 2 = false ∧ b % 4 = 1 ∧
    fieldLE f 0 3 ≠ l.rxExpect ∧ frameBelow (fieldLE f 0 3) l.rxExpect = false) ∧
    (∃ (s : State) (p : Port) (f : Bytes), s.hasPort p = true ∧ (s.link p).up = true ∧ List.length f = 320 ∧ let l := s.link p;
    let ok := crc32 (List.take 316 f) = fieldLE f 316 4; let b := byteAt f 6; ∃ (errors : Nat), errors ≤ 15 ∧ ok ∧ b.testBit 2 = false ∧ b % 4 = 1 ∧
    fieldLE f 0 3 ≠ l.rxExpect ∧ frameBelow (fieldLE f 0 3) l.rxExpect = true) ∧
    (∃ (s : State) (t : Nat) (p : Port) (f : Bytes), s.hasPort p = true ∧ (s.link p).up = true ∧ List.length f = 320 ∧ let l := s.link p;
    let now := (s.at t).now; let ok := crc32 (List.take 316 f) = fieldLE f 316 4; let b := byteAt f 6;
    let heard := { l.acked (fieldLE f 3 3) with peerLimit := if b / 8 % 8 = 0 then fieldLE f 8 2 else l.peerLimit, lastFrame := now }; ∃ (errors :
    Nat), errors ≤ 15 ∧ ok ∧ b.testBit 2 = false ∧ ∃ (q : Nat) (l3 : Link) (rec : Bytes), p = Port.quay q ∧ b % 4 = 1 ∧ fieldLE f 0 3 = l.rxExpect ∧
    heard.excess f = false ∧ Link.delimit p heard f = (l3, [(rec, false)])) := by
  repeat' refine And.intro ?_ ?_
  · refine ⟨onQuay upQuay, .quay 0, dataFrame 0 1 1 ([0x30, 0x40] ++ leBytes 2 2 ++ zeros 12), ?_⟩
    repeat (refine ⟨by decide +kernel, ?_⟩)
    refine ⟨16, ?_⟩
    decide +kernel
  · refine ⟨onQuay upQuay, .quay 0, dataFrame 0 0 0 [], ?_⟩
    repeat (refine ⟨by decide +kernel, ?_⟩)
    refine ⟨15, ?_⟩
    decide +kernel
  · refine ⟨onQuay upQuay, .quay 0, dataFrame 5 1 0 [], ?_⟩
    repeat (refine ⟨by decide +kernel, ?_⟩)
    refine ⟨3, ?_⟩
    decide +kernel
  · refine ⟨onQuay { upQuay with rxExpect := 8 }, .quay 0, dataFrame 5 1 0 [], ?_⟩
    repeat (refine ⟨by decide +kernel, ?_⟩)
    refine ⟨0, ?_⟩
    decide +kernel
  · refine ⟨onQuay upQuay, 3, .quay 0, dataFrame 0 1 1 ([0x30, 0x40] ++ leBytes 2 2 ++ zeros 12), ?_⟩
    iterate 3 refine ⟨by decide +kernel, ?_⟩
    refine ⟨0, by decide +kernel, by decide +kernel, by decide +kernel, 0, _, [0x30, 0x40] ++ leBytes 2 2 ++ zeros 12, rfl, by decide +kernel,
        by decide +kernel, by decide +kernel, Prod.ext rfl ?_⟩
    decide +kernel

/-- The hypotheses of CodewordsSent are met, those of each clause. -/
theorem test_hypotheses_CodewordsSent :
    (∃ (s : State) (t : Nat) (p : Port), s.hasPort p = true ∧ (s.link p).up = true ∧ (s.link p).ctl = [] ∧ (s.link p).widthTo = none ∧ s.scribes.reports =
    [] ∧ s.observe.buffer = [] ∧ (s.at t).intakeStopped = false ∧ let l := s.link p; l.tx = []) ∧
    (∃ (s : State) (t : Nat) (p : Port), s.hasPort p = true ∧ (s.link p).up = true ∧ (s.link p).ctl = [] ∧ (s.link p).widthTo = none ∧ s.scribes.reports =
    [] ∧ s.observe.buffer = [] ∧ (s.at t).intakeStopped = false ∧ let l := s.link p; ∃ (r : TxRecord) (pool : Nat) (words : Nat) (k : Nat), l.tx = [r]
    ∧ r.kind = TxKind.result pool words ∧ r.sent = 0 ∧ List.length r.bytes = 8 * k ∧ 1 ≤ k ∧ k ≤ 37 ∧ l.replay.length < l.replayPart) ∧
    (∃ (s : State) (t : Nat) (p : Port), s.hasPort p = true ∧ (s.link p).up = true ∧ (s.link p).ctl = [] ∧ (s.link p).widthTo = none ∧ s.scribes.reports =
    [] ∧ s.observe.buffer = [] ∧ (s.at t).intakeStopped = false ∧ let l := s.link p; ∃ (f : SentFrame) (rest : List SentFrame), l.replay = f :: rest ∧
    f.sentAt + 512 ≤ (s.at t).now ∧ ∀ (g : SentFrame), g ∈ l.replay → g.replays < 16) ∧
    (∃ (num : Nat), True) := by
  repeat' refine And.intro ?_ ?_
  · refine ⟨onQuay upQuay, 3, .quay 0, ?_⟩
    decide +kernel
  · refine ⟨onQuay { upQuay with tx := [⟨.result 0 6, zeros 48, 0⟩] }, 3, .quay 0, ?_⟩
    repeat (refine ⟨by decide +kernel, ?_⟩)
    refine ⟨⟨.result 0 6, zeros 48, 0⟩, 0, 6, 6, ?_⟩
    decide +kernel
  · refine ⟨onQuay { upQuay with replay := [⟨0, zeros 320, 0, 3⟩] }, 3, .quay 0, ?_⟩
    iterate 7 refine ⟨by decide +kernel, ?_⟩
    refine ⟨⟨0, zeros 320, 0, 3⟩, [], by decide +kernel, by decide +kernel, ?_⟩
    decide +kernel
  · refine ⟨7, ?_⟩
    decide +kernel

/-- The hypotheses of RingLookups are met, those of each clause. -/
theorem test_hypotheses_RingLookups :
    (∃ (s : State) (t : Nat) (x : Launch), s.ring.launches = [x] ∧ x.sent = false ∧ x.at_ ≤ (s.at t).now ∧ s.links.east.up = true) ∧
    (∃ (s : State) (t : Nat) (x : Launch), s.ring.launches = [x] ∧ ∃ (bs : Bytes), s.power.state = 0 ∧ byteAt bs 0 = 24 ∧ List.length bs = 64 ∧
    s.ring.gatesOpen = true ∧ s.links.west.up = true ∧ byteAt bs 1 / 4 % 8 = s.member ∧ fieldLE bs 8 4 = x.tag ∧ x.sent = true ∧ x.merged = none ∧
    (s.at t).pastMerge x 1 = false) ∧
    (∃ (s : State) (t : Nat) (x : Launch), s.ring.launches = [x] ∧ ∃ (f : Search), x.merged = none ∧ f ∈ s.search.flights ∧ f.id = x.search ∧ f.reached
    (s.at t).now (assemblyAt f) = true) ∧
    (∃ (s : State) (bs : Bytes), s.power.state = 0 ∧ byteAt bs 0 = 24 ∧ List.length bs = 64 ∧ s.ring.gatesOpen = true ∧ s.links.west.up = true ∧ byteAt bs
    1 / 4 % 8 ≠ s.member ∧ let hops := byteAt bs 1 / 32 % 8; let bs1 := setByte bs 1 (byteAt bs 1 + 32); hops ≠ 7 ∧ s.counted (byteAt bs 1 / 4 % 8) =
    true ∧ s.searchable bs1 = true) ∧
    (∃ (s : State) (bs : Bytes), s.power.state = 0 ∧ byteAt bs 0 = 24 ∧ List.length bs = 64 ∧ s.ring.gatesOpen = true ∧ s.links.west.up = true ∧ byteAt bs
    1 / 4 % 8 ≠ s.member ∧ let hops := byteAt bs 1 / 32 % 8; let bs1 := setByte bs 1 (byteAt bs 1 + 32); hops ≠ 7 ∧ s.counted (byteAt bs 1 / 4 % 8) =
    true ∧ s.searchable bs1 = false) ∧
    (∃ (s : State) (bs : Bytes), s.power.state = 0 ∧ byteAt bs 0 = 24 ∧ List.length bs = 64 ∧ s.ring.gatesOpen = true ∧ s.links.west.up = true ∧ byteAt bs
    1 / 4 % 8 ≠ s.member ∧ let hops := byteAt bs 1 / 32 % 8; hops = 7 ∨ s.counted (byteAt bs 1 / 4 % 8) = false) ∧
    (∃ (s : State) (t : Nat), let now := (s.at t).now; ∃ (r : RingRec), s.ring.queue = [r] ∧ r.ready now = true ∧ s.links.east.up = true) := by
  repeat' refine And.intro ?_ ?_
  · refine ⟨{ ringWorld with ring := { ringWorld.ring with launches := [aLaunch] } }, 3, aLaunch, ?_⟩
    decide +kernel
  · refine ⟨{ ringWorld with ring := { ringWorld.ring with launches := [{ aLaunch with sent := true }] } }, 3, { aLaunch with sent := true }, ?_⟩
    repeat (refine ⟨by decide +kernel, ?_⟩)
    refine ⟨ringRec 0 1 5 9, ?_⟩
    decide +kernel
  · refine ⟨{ ringWorld with ring := { ringWorld.ring with launches := [{ aLaunch with sent := true }] }, search := { world.search with flights := [{ aSearch [aLook] with d := some 1000 }] } },
        3, { aLaunch with sent := true }, ?_⟩
    refine ⟨by decide +kernel, { aSearch [aLook] with d := some 1000 }, by decide +kernel, List.mem_singleton.2 rfl, by decide +kernel, by decide +kernel⟩
  · refine ⟨ringWorld, ringRec 1 0 5 9, ?_⟩
    decide +kernel
  · refine ⟨ringWorld, ringRec 1 0 9 9, ?_⟩
    decide +kernel
  · refine ⟨ringWorld, ringRec 2 0 5 9, ?_⟩
    decide +kernel
  · refine ⟨{ ringWorld with ring := { ringWorld.ring with queue := [⟨ringRec 1 1 5 9, 2000, none, true, none, keyBits, [], false, none, none, false, false, some 2100⟩] } },
        3, ?_⟩
    refine ⟨⟨ringRec 1 1 5 9, 2000, none, true, none, keyBits, [], false, none, none, false, false, some 2100⟩, ?_⟩
    decide +kernel

/-- The hypotheses of RingCensus are met, those of each clause. -/
theorem test_hypotheses_RingCensus :
    (∃ (s : State), s.ring.gatesOpen = true ∧ s.links.east.up = true ∧ s.clock.stroke = 0 ∧ s.clock.count % 2 = 0 ∧ s.leader = true) ∧
    (∃ (s : State), s.ring.gatesOpen = true ∧ s.links.east.up = true ∧ ∃ (m : Bytes), byteAt m 0 = 6 ∧ s.links.west.up = true ∧
    let launcher := byteAt m 1 / 4 % 8; (byteAt m 1).testBit 0 = false ∧ launcher ≠ s.member ∧ (s.ring.probe = none ∧ s.ring.forced = none ∨ launcher
    < s.member)) ∧
    (∃ (s : State), s.ring.gatesOpen = true ∧ s.links.east.up = true ∧ ∃ (m : Bytes), byteAt m 0 = 6 ∧ s.links.west.up = true ∧
    let launcher := byteAt m 1 / 4 % 8; (byteAt m 1).testBit 0 = false ∧ s.member < launcher ∧ (s.ring.probe ≠ none ∨ s.ring.forced ≠ none)) ∧
    (∃ (s : State), let e := s.ring.epoch; s.ring.gatesOpen = true ∧ s.links.east.up = true ∧ ∃ (m : Bytes), byteAt m 0 = 6 ∧ s.links.west.up = true ∧
    let launcher := byteAt m 1 / 4 % 8; let force := (byteAt m 1).testBit 1; let present := byteAt m 4; let weight2 := byteAt m 5; (byteAt m
    1).testBit 0 = false ∧ launcher = s.member ∧ (force = true ∨ present ||| s.ownBits.fst ≠ e.present ∨ weight2 ||| s.ownBits.snd ≠ e.weight2)) ∧
    (∃ (s : State), let e := s.ring.epoch; s.ring.gatesOpen = true ∧ s.links.east.up = true ∧ ∃ (m : Bytes), byteAt m 0 = 6 ∧ s.links.west.up = true ∧
    let launcher := byteAt m 1 / 4 % 8; (byteAt m 1).testBit 0 = true ∧ launcher ≠ s.member ∧ epochLater (fieldLE m 2 2) e.number = true ∧ ∀ (other :
    Nat), s.ring.lastCommit = some (fieldLE m 2 2, other) → launcher < other) ∧
    (∃ (s : State), s.ring.gatesOpen = true ∧ s.links.east.up = true ∧ ∃ (m : Bytes), byteAt m 0 = 6 ∧ s.links.west.up = true ∧
    let launcher := byteAt m 1 / 4 % 8; ∃ (c : Epoch), (byteAt m 1).testBit 0 = true ∧ launcher = s.member ∧ s.ring.commit = some c ∧ c.number =
    fieldLE m 2 2) ∧
    (∃ (s : State), s.ring.gatesOpen = true ∧ s.links.east.up = true ∧ s.ring.lastCensus + 4 ≤ s.clock.grid ∧ s.ring.forced = none) ∧
    (∃ (s : State), s.ring.gatesOpen = true ∧ s.links.east.up = true ∧ ∃ (g : Nat), s.ring.forced = some g ∧ g + 4 ≤ s.clock.grid ∧ s.ring.solo = false ∧
    s.gatesWanted = true) := by
  repeat' refine And.intro ?_ ?_
  · refine ⟨ringWorld, ?_⟩
    decide +kernel
  · refine ⟨ringWorld, ?_⟩
    repeat (refine ⟨by decide +kernel, ?_⟩)
    refine ⟨census false 1 0 2 0, ?_⟩
    decide +kernel
  · refine ⟨{ ringWorld with ring := { ringWorld.ring with probe := some 9 } }, ?_⟩
    repeat (refine ⟨by decide +kernel, ?_⟩)
    refine ⟨census false 1 0 4 0, ?_⟩
    decide +kernel
  · refine ⟨ringWorld, ?_⟩
    repeat (refine ⟨by decide +kernel, ?_⟩)
    refine ⟨census false 0 6 7 0, ?_⟩
    decide +kernel
  · refine ⟨ringWorld, ?_⟩
    repeat (refine ⟨by decide +kernel, ?_⟩)
    refine ⟨census true 1 6 3 0, ?_⟩
    iterate 5 refine ⟨by decide +kernel, ?_⟩
    exact fun g h => by cases h
  · refine ⟨{ ringWorld with ring := { ringWorld.ring with commit := some ⟨6, 3, 0⟩ } }, ?_⟩
    repeat (refine ⟨by decide +kernel, ?_⟩)
    refine ⟨census true 0 6 3 0, ?_⟩
    repeat (refine ⟨by decide +kernel, ?_⟩)
    refine ⟨⟨6, 3, 0⟩, ?_⟩
    decide +kernel
  · refine ⟨{ ringWorld with ring := { ringWorld.ring with lastCensus := 3 } }, ?_⟩
    decide +kernel
  · refine ⟨{ ringWorld with ring := { ringWorld.ring with forced := some 3 } }, ?_⟩
    repeat (refine ⟨by decide +kernel, ?_⟩)
    refine ⟨3, ?_⟩
    decide +kernel

/-- The hypotheses of RingMembership are met, those of each clause. -/
theorem test_hypotheses_RingMembership :
    (∃ (s : State) (t : Nat) (w : Word64) (x : State), Stores s t Reg.RNG_CTL 0 w x ∧ Fld.RNG_CTL_join.get (BitVec.toNat w) = 1 ∧ Fld.RNG_CTL_leave.get
    (BitVec.toNat w) = 0 ∧ s.links.record.ringEnable = true ∧ s.ring.joined = false) ∧
    (∃ (s : State) (t : Nat) (w : Word64) (x : State), Stores s t Reg.RNG_CTL 0 w x ∧ Fld.RNG_CTL_join.get (BitVec.toNat w) = 0 ∧ Fld.RNG_CTL_leave.get
    (BitVec.toNat w) = 1 ∧ s.ring.joined = true ∧ s.ring.leaving = none) ∧
    (∃ (s : State) (g : Nat), s.ring.leaving = some g ∧ (s.ring.commit = none ∨ g + 4 ≤ s.clock.grid) ∧ s.links.record.ringEnable = true) := by
  repeat' refine And.intro ?_ ?_
  · refine ⟨{ world with links := { world.links with record := { world.links.record with ringEnable := true } } }, 3, wordOf [(Fld.RNG_CTL_join, 1)],
        stored ({ world with links := { world.links with record := { world.links.record with ringEnable := true } } }) 3 .RNG_CTL 0 (wordOf [(Fld.RNG_CTL_join,
        1)]), ?_⟩
    (first | decide +kernel | (unfold Stores; decide +kernel))
  · refine ⟨ringWorld, 3, wordOf [(Fld.RNG_CTL_leave, 1)], stored (ringWorld) 3 .RNG_CTL 0 (wordOf [(Fld.RNG_CTL_leave, 1)]), ?_⟩
    (first | decide +kernel | (unfold Stores; decide +kernel))
  · refine ⟨{ ringWorld with ring := { ringWorld.ring with leaving := some 9 } }, 9, ?_⟩
    decide +kernel

/-- The hypotheses of HostRings are met, those of each clause. -/
theorem test_hypotheses_HostRings :
    (∃ (s : State) (t : Nat) (fn : Nat) (slot : Nat) (data : Bytes), let r := 16 * fn + slot; let x := s.hostRing r; let idx := fieldLE data 0 4; (s.at
    t).intakeStopped = false ∧ s.power.state = 0 ∧ 8 ≤ List.length data ∧ slot < 16 ∧ s.hasFunction fn = true ∧ (s.function fn).flr = false ∧
    s.host.linkUp = true ∧ x.state = RingState.active ∧ s.doorbellOk r idx = true ∧ s.ringKind r = 0) ∧
    (∃ (s : State) (t : Nat) (fn : Nat) (slot : Nat) (data : Bytes), let r := 16 * fn + slot; let x := s.hostRing r; let idx := fieldLE data 0 4; (s.at
    t).intakeStopped = false ∧ s.power.state = 0 ∧ 8 ≤ List.length data ∧ slot < 16 ∧ s.hasFunction fn = true ∧ (s.function fn).flr = false ∧
    s.host.linkUp = true ∧ x.state = RingState.active ∧ s.doorbellOk r idx = true ∧ s.ringKind r ≠ 0 ∧ (byteAt data 4).testBit 0 = true) ∧
    (∃ (s : State) (t : Nat) (fn : Nat) (slot : Nat) (data : Bytes), let r := 16 * fn + slot; let x := s.hostRing r; let idx := fieldLE data 0 4; (s.at
    t).intakeStopped = false ∧ s.power.state = 0 ∧ 8 ≤ List.length data ∧ slot < 16 ∧ s.hasFunction fn = true ∧ (s.function fn).flr = false ∧
    s.host.linkUp = true ∧ x.state = RingState.active ∧ s.doorbellOk r idx = false) ∧
    (∃ (s : State) (t : Nat) (fn : Nat) (w : Word64) (x : State) (fixed : List Nat), let r := s.ringSel fn; s.hasFunction fn = true ∧ (s.at t).served
    Reg.HST_RING_CTL 0 = true ∧ (fixed = if s.bit Fld.HST_RING_CTL_en r = true then ringFixed else []) ∧ (s.at t).storeFields Reg.HST_RING_CTL r
    (BitVec.toNat w) (fullMask - 1) fixed = (x, false, false) ∧ BitVec.toNat w % 2 = 1 ∧ Fld.HST_RING_CTL_reset.get (BitVec.toNat w) = 0 ∧ s.bit
    Fld.HST_RING_CTL_en r = false ∧ x.mayEnable fn r = true) ∧
    (∃ (s : State) (t : Nat) (fn : Nat) (w : Word64) (x : State) (fixed : List Nat), let r := s.ringSel fn; s.hasFunction fn = true ∧ (s.at t).served
    Reg.HST_RING_CTL 0 = true ∧ (fixed = if s.bit Fld.HST_RING_CTL_en r = true then ringFixed else []) ∧ (s.at t).storeFields Reg.HST_RING_CTL r
    (BitVec.toNat w) (fullMask - 1) fixed = (x, false, false) ∧ Fld.HST_RING_CTL_reset.get (BitVec.toNat w) = 1) ∧
    (∃ (s : State) (r : Nat) (w : RingWrite) (rest : List RingWrite), s.scribes.reports = [] ∧ s.observe.buffer = [] ∧ let x := s.hostRing r;
    let n := (List.length w.bytes + 63) / 64; x.writes = w :: rest ∧ s.host.linkUp = true ∧ x.state = RingState.active ∧
    (match w.kind with | RingWriteKind.reply reserved => n ≤ s.ringFree r + x.reserved | x => n ≤ s.ringFree r) ∧ x.armed = none) ∧
    (∃ (s : State) (r : Nat) (w : RingWrite) (rest : List RingWrite), s.scribes.reports = [] ∧ s.observe.buffer = [] ∧ let x := s.hostRing r;
    let n := (List.length w.bytes + 63) / 64; let dev := (x.devIndex + n) % 2 ^ 32; x.writes = w :: rest ∧ s.host.linkUp = true ∧ x.state =
    RingState.active ∧ (match w.kind with | RingWriteKind.reply reserved => n ≤ s.ringFree r + x.reserved | x => n ≤ s.ringFree r) ∧ ∃ (c : Nat),
    x.armed = some c ∧ 0 < (dev + 2 ^ 32 - c) % 2 ^ 32 ∧ (dev + 2 ^ 32 - c) % 2 ^ 32 < 2 ^ 31) := by
  repeat' refine And.intro ?_ ?_
  · refine ⟨withRing 6 0 { HostRing.reset with state := .active }, 3, 0, 3, leBytes 5 8, ?_⟩
    decide +kernel
  · refine ⟨withRing 6 1 { HostRing.reset with state := .active, devIndex := 5 }, 3, 0, 3, leBytes (2 ^ 32 + 5) 8, ?_⟩
    decide +kernel
  · refine ⟨withRing 6 0 { HostRing.reset with state := .active }, 3, 0, 3, leBytes 65 8, ?_⟩
    decide +kernel
  · refine ⟨((({ world with host := { world.host with rings := [(3, HostRing.reset)] } } : State).setFld Fld.HST_RING_CTL_en 0 3).setFld Fld.HST_RING_SEL_ring 3),
        3, 0, wordOf [(Fld.HST_RING_CTL_en, 1), (Fld.HST_RING_CTL_size_log2, 6)],
        (((((({ world with host := { world.host with rings := [(3, HostRing.reset)] } } : State).setFld Fld.HST_RING_CTL_en 0 3).setFld Fld.HST_RING_SEL_ring 3)).at 3).storeFields .HST_RING_CTL 3 (wordOf [(Fld.HST_RING_CTL_en,
        1), (Fld.HST_RING_CTL_size_log2, 6)]).toNat (fullMask - 1) []).1, [], ?_⟩
    decide +kernel
  · refine ⟨((withRing 6 1 { HostRing.reset with state := .active }).setFld Fld.HST_RING_SEL_ring 3), 3, 0, wordOf [(Fld.HST_RING_CTL_reset, 1),
        (Fld.HST_RING_CTL_size_log2, 6), (Fld.HST_RING_CTL_kind, 1)],
        (((((withRing 6 1 { HostRing.reset with state := .active }).setFld Fld.HST_RING_SEL_ring 3)).at 3).storeFields .HST_RING_CTL 3 (wordOf [(Fld.HST_RING_CTL_reset,
        1), (Fld.HST_RING_CTL_size_log2, 6), (Fld.HST_RING_CTL_kind, 1)]).toNat (fullMask - 1) ringFixed).1, ringFixed, ?_⟩
    decide +kernel
  · refine ⟨withRing 6 1 { HostRing.reset with state := .active, reserved := 1, armed := none, writes := [⟨.reply 1, zeros 48⟩] }, 3, ⟨.reply 1,
        zeros 48⟩, [], ?_⟩
    decide +kernel
  · refine ⟨withRing 6 1 { HostRing.reset with state := .active, reserved := 1, armed := some 0, writes := [⟨.reply 1, zeros 48⟩] }, 3, ⟨.reply 1,
        zeros 48⟩, [], ?_⟩
    repeat (refine ⟨by decide +kernel, ?_⟩)
    refine ⟨0, ?_⟩
    decide +kernel

/-- The hypotheses of FunctionsAndDataLink are met, those of each clause. -/
theorem test_hypotheses_FunctionsAndDataLink :
    (∃ (s : State) (t : Nat) (w : Word64) (x : State), Stores s t Reg.HST_WIN_CTL 0 w x ∧ Fld.HST_WIN_CTL_commit.get (BitVec.toNat w) = 1 ∧
    s.host.winPending = false ∧ x.stagedOk = true) ∧
    (∃ (s : State) (t : Nat) (w : Word64) (x : State), Stores s t Reg.HST_WIN_CTL 0 w x ∧ Fld.HST_WIN_CTL_commit.get (BitVec.toNat w) = 1 ∧
    s.host.winPending = false ∧ x.stagedOk = false) ∧
    (∃ (s : State) (n : Nat), s.host.linkUp = true ∧ s.recovery = false ∧ s.host.numVfs = 0 ∧ n ≤ s.host.pcie.totalVfs) ∧
    (∃ (s : State), s.host.linkUp = true ∧ s.recovery = false) ∧
    (∃ (s : State) (fn : Nat), fn ≠ 0 ∧ s.hasFunction fn = true ∧ s.host.linkUp = true) ∧
    (∃ (s : State) (fn : Nat), (s.function fn).flr = true) ∧
    (∃ (s : State) (gen : Nat) (width : Nat) (flit : Bool), s.pcieRuns = true ∧ s.host.linkUp = false ∧ s.linkAllowed gen width flit = true) ∧
    (∃ (s : State), s.host.linkUp = true) ∧
    (∃ (s : State), True) := by
  repeat' refine And.intro ?_ ?_
  · refine ⟨world, 3, wordOf [(Fld.HST_WIN_CTL_commit, 1)], stored (world) 3 .HST_WIN_CTL 0 (wordOf [(Fld.HST_WIN_CTL_commit, 1)]), ?_⟩
    (first | decide +kernel | (unfold Stores; decide +kernel))
  · refine ⟨((world.setFld Fld.HST_WIN_NEXT_function 9 2).setFld Fld.HST_WIN_NEXT_en 1 2), 3, wordOf [(Fld.HST_WIN_CTL_commit, 1)],
        stored (((world.setFld Fld.HST_WIN_NEXT_function 9 2).setFld Fld.HST_WIN_NEXT_en 1 2)) 3 .HST_WIN_CTL 0 (wordOf [(Fld.HST_WIN_CTL_commit,
        1)]), ?_⟩
    (first | decide +kernel | (unfold Stores; decide +kernel))
  · refine ⟨{ world with host := { world.host with numVfs := 0 } }, 3, ?_⟩
    decide +kernel
  · refine ⟨world, ?_⟩
    decide +kernel
  · refine ⟨world, 2, ?_⟩
    decide +kernel
  · refine ⟨{ world with host := { world.host with functions := [(2, ⟨true, 0, ⟨0, 0, 0, 0, 0⟩⟩)] } }, 2, ?_⟩
    decide +kernel
  · refine ⟨{ world with host := { world.host with linkUp := false } }, 6, 8, true, ?_⟩
    decide +kernel
  · refine ⟨world, ?_⟩
    decide +kernel
  · refine ⟨world, ?_⟩
    decide +kernel

/-- The hypotheses of HostAccesses are met, those of each clause. -/
theorem test_hypotheses_HostAccesses :
    (∃ (s : State) (r : Nat), s.fetchOut r = true) ∧
    (∃ (s : State), s.host.flashBusy = true) ∧
    (∃ (s : State) (fn : Nat), s.host.linkUp = true ∧ s.hasFunction fn = true) ∧
    (∃ (s : State), s.host.abandoned ≠ 0) ∧
    (∃ (s : State), s.host.abandoned = 0) ∧
    (∃ (s : State) (addr : Nat) (len : Nat), s.host.linkUp = true ∧ s.clockRuns = true ∧ captureAddr ≤ addr ∧ addr + len ≤ dramEnd) ∧
    (∃ (s : State) (addr : Nat) (data : Bytes), s.host.linkUp = true ∧ s.clockRuns = true ∧ hostDmaAddr ≤ addr ∧ addr + List.length data ≤ dramEnd) ∧
    (∃ (s : State) (addr : Nat) (data : Bytes), s.host.linkUp = true ∧ s.clockRuns = true ∧ (addr < hostDmaAddr ∨ dramEnd < addr + List.length data)) := by
  repeat' refine And.intro ?_ ?_
  · refine ⟨withRing 6 0 { HostRing.reset with state := .active, hostIndex := 1 }, 3, ?_⟩
    decide +kernel
  · refine ⟨{ world with host := { world.host with flashBusy := true } }, ?_⟩
    decide +kernel
  · refine ⟨world, 2, ?_⟩
    decide +kernel
  · refine ⟨{ world with host := { world.host with abandoned := 1 } }, ?_⟩
    decide +kernel
  · refine ⟨world, ?_⟩
    decide +kernel
  · refine ⟨world, captureAddr, 8, ?_⟩
    decide +kernel
  · refine ⟨world, hostDmaAddr, zeros 8, ?_⟩
    decide +kernel
  · refine ⟨world, 0, zeros 8, ?_⟩
    decide +kernel

/-- The hypotheses of PowerRequests are met, those of each clause. -/
theorem test_hypotheses_PowerRequests :
    (∃ (s : State) (t : Nat) (src : Source) (c : Cmd) (rest : List Cmd), let body := cmdBody c.record; Clears s t src c rest 67 false false
    Right.supervisor ∧ List.length body = 8 ∧ zerosAt body 2 6 = true ∧ byteAt body 0 = 1 ∧ 2 ≤ byteAt body 1 ∧ byteAt body 1 ≤ 5 ∧ s.lowRefused ≠ 0) ∧
    (∃ (s : State) (t : Nat) (src : Source) (c : Cmd) (rest : List Cmd), let body := cmdBody c.record; Clears s t src c rest 67 false false
    Right.supervisor ∧ List.length body = 8 ∧ zerosAt body 2 6 = true ∧ byteAt body 0 = 1 ∧ 2 ≤ byteAt body 1 ∧ byteAt body 1 ≤ 5 ∧ s.lowRefused = 0) ∧
    (∃ (s : State) (t : Nat) (src : Source) (c : Cmd) (rest : List Cmd), let body := cmdBody c.record; Clears s t src c rest 67 false false
    Right.supervisor ∧ List.length body = 8 ∧ zerosAt body 2 6 = true ∧ byteAt body 0 = 1 ∧ byteAt body 1 = 1 ∧ s.powerPending = false) ∧
    (∃ (s : State) (t : Nat) (src : Source) (c : Cmd) (rest : List Cmd), let body := cmdBody c.record; Clears s t src c rest 67 false false
    Right.supervisor ∧ List.length body = 8 ∧ zerosAt body 2 6 = true ∧ byteAt body 0 = 2 ∧ byteAt body 1 < 30 ∧ s.resetCheck (byteAt body 1)
    (fromHost src) = 0 ∧ s.power.domainReset = none) ∧
    (∃ (s : State) (t : Nat) (w : Word64) (x : State), Stores s t Reg.PWR_STATE_CTL 0 w x ∧ Fld.PWR_STATE_CTL_go.get (BitVec.toNat w) = 1 ∧
    let target := x.fld Fld.PWR_STATE_CTL_target; s.cmdAuth = false ∧ 2 ≤ target ∧ target ≤ 5 ∧ s.mode.pending = none ∧ s.powerPending = false ∧
    s.boot.glyphDone = true ∧ s.boot.seedDone = true ∧ s.host.flashBusy = false) ∧
    (∃ (s : State) (t : Nat) (w : Word64) (x : State), Stores s t Reg.PWR_STATE_CTL 0 w x ∧ Fld.PWR_STATE_CTL_go.get (BitVec.toNat w) = 1 ∧
    let target := x.fld Fld.PWR_STATE_CTL_target; s.cmdAuth = false ∧ 2 ≤ target ∧ target ≤ 5 ∧ (s.mode.pending ≠ none ∨ s.powerPending = true)) ∧
    (∃ (s : State) (t : Nat) (w : Word64) (x : State), Stores s t Reg.PWR_STATE_CTL 0 w x ∧ Fld.PWR_STATE_CTL_go.get (BitVec.toNat w) = 1 ∧
    let target := x.fld Fld.PWR_STATE_CTL_target; s.cmdAuth = false ∧ 2 ≤ target ∧ target ≤ 5 ∧ s.mode.pending = none ∧ s.powerPending = false ∧
    (s.boot.glyphDone = false ∨ s.boot.seedDone = false)) ∧
    (∃ (s : State) (t : Nat) (w : Word64) (x : State), Stores s t Reg.PWR_STATE_CTL 0 w x ∧ Fld.PWR_STATE_CTL_go.get (BitVec.toNat w) = 1 ∧
    let target := x.fld Fld.PWR_STATE_CTL_target; s.cmdAuth = false ∧ 2 ≤ target ∧ target ≤ 5 ∧ s.mode.pending = none ∧ s.powerPending = false ∧
    s.boot.glyphDone = true ∧ s.boot.seedDone = true ∧ s.host.flashBusy = true) ∧
    (∃ (s : State) (t : Nat) (w : Word64) (x : State), Stores s t Reg.PWR_STATE_CTL 0 w x ∧ Fld.PWR_STATE_CTL_go.get (BitVec.toNat w) = 1 ∧
    let target := x.fld Fld.PWR_STATE_CTL_target; s.cmdAuth = false ∧ target = 1 ∧ s.powerPending = false) ∧
    (∃ (s : State) (t : Nat) (w : Word64) (x : State), Stores s t Reg.PWR_STATE_CTL 0 w x ∧ Fld.PWR_STATE_CTL_go.get (BitVec.toNat w) = 1 ∧
    let target := x.fld Fld.PWR_STATE_CTL_target; target = 0 ∧ s.power.state = 2 ∧ s.power.entry = none ∧ s.power.exit = none ∧ s.power.tamperHold =
    false ∧ s.power.vddAon = true ∧ s.power.halted = false) ∧
    (∃ (s : State) (t : Nat) (w : Word64) (x : State), Stores s t Reg.PWR_DOMAIN_RESET 0 w x ∧ Fld.PWR_DOMAIN_RESET_go.get (BitVec.toNat w) = 1 ∧
    s.cmdAuth = false ∧ s.power.domainReset = none ∧ let d := x.fld Fld.PWR_DOMAIN_RESET_domain; s.resetCheck d true = 0) ∧
    (∃ (s : State) (t : Nat) (w : Word64) (x : State), Stores s t Reg.PWR_DOMAIN_RESET 0 w x ∧ Fld.PWR_DOMAIN_RESET_go.get (BitVec.toNat w) = 1 ∧
    s.cmdAuth = false ∧ s.power.domainReset = none ∧ let d := x.fld Fld.PWR_DOMAIN_RESET_domain; s.resetCheck d true ≠ 0) ∧
    (∃ (s : State) (d : Nat) (x : DomainReset), s.power.domainReset = some x ∧ x.started = true ∧ x.domain = d ∧ x.command = none ∧ s.clock.stroke = 0 ∧ d
    = 25) ∧
    (∃ (s : State) (d : Nat) (x : DomainReset), s.power.domainReset = some x ∧ x.started = true ∧ x.domain = d ∧ x.command = none ∧ s.clock.stroke = 0 ∧
    (d = 4 ∨ d = 5)) ∧
    (∃ (s : State) (d : Nat) (x : DomainReset), s.power.domainReset = some x ∧ x.started = true ∧ x.domain = d ∧ x.command = none ∧ s.clock.stroke = 0 ∧
    (d = 2 ∨ d = 3 ∨ 20 ≤ d ∧ d ≤ 24 ∨ d = 28 ∨ d = 29)) := by
  repeat' refine And.intro ?_ ?_
  · refine ⟨withCmd ({ world with mode := { world.mode with pending := some 5, preparing := true } }) (cmd 0x43 0 0 (leBytes (1 + 256 * 2) 8)), 3, cmdSrc,
        cmd 0x43 0 0 (leBytes (1 + 256 * 2) 8), [], ?_⟩
    (first | decide +kernel | (unfold Clears; decide +kernel))
  · refine ⟨withCmd (world) (cmd 0x43 0 0 (leBytes (1 + 256 * 2) 8)), 3, cmdSrc, cmd 0x43 0 0 (leBytes (1 + 256 * 2) 8), [], ?_⟩
    (first | decide +kernel | (unfold Clears; decide +kernel))
  · refine ⟨withCmd (world) (cmd 0x43 0 0 (leBytes (1 + 256 * 1) 8)), 3, cmdSrc, cmd 0x43 0 0 (leBytes (1 + 256 * 1) 8), [], ?_⟩
    (first | decide +kernel | (unfold Clears; decide +kernel))
  · refine ⟨withCmd (world) (cmd 0x43 0 0 (leBytes (2 + 256 * 25) 8)), 3, cmdSrc, cmd 0x43 0 0 (leBytes (2 + 256 * 25) 8), [], ?_⟩
    (first | decide +kernel | (unfold Clears; decide +kernel))
  · refine ⟨world, 3, wordOf [(Fld.PWR_STATE_CTL_idle_tides, 64), (Fld.PWR_STATE_CTL_go, 1), (Fld.PWR_STATE_CTL_target, 2)],
        stored (world) 3 .PWR_STATE_CTL 0 (wordOf [(Fld.PWR_STATE_CTL_idle_tides, 64), (Fld.PWR_STATE_CTL_go, 1), (Fld.PWR_STATE_CTL_target, 2)]), ?_⟩
    (first | decide +kernel | (unfold Stores; decide +kernel))
  · refine ⟨{ world with mode := { world.mode with pending := some 5, preparing := true } }, 3, wordOf [(Fld.PWR_STATE_CTL_idle_tides, 64),
        (Fld.PWR_STATE_CTL_go, 1), (Fld.PWR_STATE_CTL_target, 2)],
        stored ({ world with mode := { world.mode with pending := some 5, preparing := true } }) 3 .PWR_STATE_CTL 0 (wordOf [(Fld.PWR_STATE_CTL_idle_tides,
        64), (Fld.PWR_STATE_CTL_go, 1), (Fld.PWR_STATE_CTL_target, 2)]), ?_⟩
    (first | decide +kernel | (unfold Stores; decide +kernel))
  · refine ⟨{ world with boot := { world.boot with seedDone := false } }, 3, wordOf [(Fld.PWR_STATE_CTL_idle_tides, 64), (Fld.PWR_STATE_CTL_go, 1),
        (Fld.PWR_STATE_CTL_target, 2)],
        stored ({ world with boot := { world.boot with seedDone := false } }) 3 .PWR_STATE_CTL 0 (wordOf [(Fld.PWR_STATE_CTL_idle_tides, 64),
        (Fld.PWR_STATE_CTL_go, 1), (Fld.PWR_STATE_CTL_target, 2)]), ?_⟩
    (first | decide +kernel | (unfold Stores; decide +kernel))
  · refine ⟨{ world with host := { world.host with flashBusy := true } }, 3, wordOf [(Fld.PWR_STATE_CTL_idle_tides, 64), (Fld.PWR_STATE_CTL_go, 1),
        (Fld.PWR_STATE_CTL_target, 2)],
        stored ({ world with host := { world.host with flashBusy := true } }) 3 .PWR_STATE_CTL 0 (wordOf [(Fld.PWR_STATE_CTL_idle_tides, 64),
        (Fld.PWR_STATE_CTL_go, 1), (Fld.PWR_STATE_CTL_target, 2)]), ?_⟩
    (first | decide +kernel | (unfold Stores; decide +kernel))
  · refine ⟨world, 3, wordOf [(Fld.PWR_STATE_CTL_idle_tides, 64), (Fld.PWR_STATE_CTL_go, 1), (Fld.PWR_STATE_CTL_target, 1)],
        stored (world) 3 .PWR_STATE_CTL 0 (wordOf [(Fld.PWR_STATE_CTL_idle_tides, 64), (Fld.PWR_STATE_CTL_go, 1), (Fld.PWR_STATE_CTL_target, 1)]), ?_⟩
    (first | decide +kernel | (unfold Stores; decide +kernel))
  · refine ⟨inPower 2, 3, wordOf [(Fld.PWR_STATE_CTL_idle_tides, 64), (Fld.PWR_STATE_CTL_go, 1), (Fld.PWR_STATE_CTL_target, 0)],
        stored (inPower 2) 3 .PWR_STATE_CTL 0 (wordOf [(Fld.PWR_STATE_CTL_idle_tides, 64), (Fld.PWR_STATE_CTL_go, 1), (Fld.PWR_STATE_CTL_target, 0)]),
        ?_⟩
    (first | decide +kernel | (unfold Stores; decide +kernel))
  · refine ⟨world, 3, wordOf [(Fld.PWR_DOMAIN_RESET_go, 1), (Fld.PWR_DOMAIN_RESET_domain, 25)],
        stored (world) 3 .PWR_DOMAIN_RESET 0 (wordOf [(Fld.PWR_DOMAIN_RESET_go, 1), (Fld.PWR_DOMAIN_RESET_domain, 25)]), ?_⟩
    (first | decide +kernel | (unfold Stores; decide +kernel))
  · refine ⟨world, 3, wordOf [(Fld.PWR_DOMAIN_RESET_go, 1), (Fld.PWR_DOMAIN_RESET_domain, 24)],
        stored (world) 3 .PWR_DOMAIN_RESET 0 (wordOf [(Fld.PWR_DOMAIN_RESET_go, 1), (Fld.PWR_DOMAIN_RESET_domain, 24)]), ?_⟩
    (first | decide +kernel | (unfold Stores; decide +kernel))
  · refine ⟨{ world with power := { world.power with domainReset := some ⟨25, true, 9, none⟩ } }, 25, ⟨25, true, 9, none⟩, ?_⟩
    decide +kernel
  · refine ⟨{ world with power := { world.power with domainReset := some ⟨4, true, 9, none⟩ } }, 4, ⟨4, true, 9, none⟩, ?_⟩
    decide +kernel
  · refine ⟨{ world with power := { world.power with domainReset := some ⟨24, true, 9, none⟩ } }, 24, ⟨24, true, 9, none⟩, ?_⟩
    decide +kernel

/-- The hypotheses of PowerEntries are met, those of each clause. -/
theorem test_hypotheses_PowerEntries :
    (∃ (s : State), s.clock.stroke = 0 ∧ s.serving = true ∧ s.power.state = 0 ∧ s.bit Fld.PWR_STATE_CTL_auto_idle = true ∧ s.fld
    Fld.PWR_STATE_CTL_idle_tides ≤ s.power.quietTides ∧ s.power.entry = none ∧ s.power.exit = none ∧ s.power.idleAt = none) ∧
    (∃ (s : State), s.power.state = 1) ∧
    (∃ (s : State) (e : PowerEntry), s.power.entry = some e ∧ e.step = 1 ∧ e.lastRecord + 65 ≤ s.clock.grid ∧ s.drained = true ∧ s.ring.joined = false) ∧
    (∃ (s : State) (e : PowerEntry), s.power.entry = some e ∧ e.step = 3 ∧ s.ring.joined = false ∧ e.target = 4 ∧ e.folded = false ∧ s.counters.places =
    [] ∧ s.counters.foldQueue = [] ∧ s.counters.held = [] ∧ ∃ (reads : List StripeRead), True) ∧
    (∃ (s : State) (e : PowerEntry), s.power.entry = some e ∧ e.step = 3 ∧ s.ring.joined = false ∧ s.power.heldWake = none ∧ e.target = 2) ∧
    (∃ (s : State) (e : PowerEntry), s.power.entry = some e ∧ e.step = 3 ∧ s.ring.joined = false ∧ s.power.heldWake = none ∧ e.target = 3) ∧
    (∃ (s : State) (e : PowerEntry), s.power.entry = some e ∧ e.step = 3 ∧ s.ring.joined = false ∧ s.power.heldWake = none ∧ e.target = 4 ∧ e.folded =
    true ∧ s.scrub.unsettled = [] ∧ s.cmds.journal = []) ∧
    (∃ (s : State) (e : PowerEntry), s.power.entry = some e ∧ e.step = 3 ∧ s.ring.joined = false ∧ s.power.heldWake = none ∧ e.target = 5) := by
  repeat' refine And.intro ?_ ?_
  · refine ⟨({ world with power := { world.power with quietTides := 2000 } } : State).setFld Fld.PWR_STATE_CTL_auto_idle 1, ?_⟩
    decide +kernel
  · refine ⟨inPower 1, ?_⟩
    decide +kernel
  · refine ⟨{ entering ⟨2, 1, 9, 9, false⟩ with clock := { world.clock with grid := 100 } }, ⟨2, 1, 9, 9, false⟩, ?_⟩
    decide +kernel
  · refine ⟨entering ⟨4, 3, 9, 9, false⟩, ⟨4, 3, 9, 9, false⟩, ?_⟩
    repeat (refine ⟨by decide +kernel, ?_⟩)
    refine ⟨[], ?_⟩
    decide +kernel
  · refine ⟨entering ⟨2, 3, 9, 9, false⟩, ⟨2, 3, 9, 9, false⟩, ?_⟩
    decide +kernel
  · refine ⟨entering ⟨3, 3, 9, 9, false⟩, ⟨3, 3, 9, 9, false⟩, ?_⟩
    decide +kernel
  · refine ⟨entering ⟨4, 3, 9, 9, true⟩, ⟨4, 3, 9, 9, true⟩, ?_⟩
    decide +kernel
  · refine ⟨entering ⟨5, 3, 9, 9, false⟩, ⟨5, 3, 9, 9, false⟩, ?_⟩
    decide +kernel

/-- The hypotheses of WakesAndExits are met, those of each clause. -/
theorem test_hypotheses_WakesAndExits :
    (∃ (s : State), s.power.tamperHold = false ∧ s.power.vddAon = true ∧ s.power.halted = false ∧
    let asleep := s.power.state = 3 ∧ s.power.entry = none ∧ s.power.exit = none; ∃ (count : Nat), count = s.fld Fld.PWR_WAKE_CTL_alarm ∧ s.bit
    Fld.PWR_WAKE_CTL_alarm_en = true ∧ asleep) ∧
    (∃ (s : State), s.power.tamperHold = false ∧ s.power.vddAon = true ∧ s.power.halted = false ∧ ∃ (count : Nat), count = s.fld Fld.PWR_WAKE_CTL_alarm ∧
    s.bit Fld.PWR_WAKE_CTL_alarm_en = true ∧ s.power.entry ≠ none) ∧
    (∃ (s : State), s.power.tamperHold = false ∧ s.power.vddAon = true ∧ s.power.halted = false ∧
    let asleep := s.power.state = 3 ∧ s.power.entry = none ∧ s.power.exit = none; s.bit Fld.PWR_WAKE_CTL_perst_en = true ∧ asleep) ∧
    (∃ (s : State), s.power.tamperHold = false ∧ s.power.vddAon = true ∧ s.power.halted = false ∧ s.bit Fld.PWR_WAKE_CTL_perst_en = true ∧ s.power.entry ≠
    none) ∧
    (∃ (s : State), s.power.tamperHold = false ∧ s.power.vddAon = true ∧ s.power.halted = false ∧
    let asleep := s.power.state = 3 ∧ s.power.entry = none ∧ s.power.exit = none; s.bit Fld.PWR_WAKE_CTL_smbus_en = true ∧ asleep) ∧
    (∃ (s : State), s.power.tamperHold = false ∧ s.power.vddAon = true ∧ s.power.halted = false ∧ s.bit Fld.PWR_WAKE_CTL_smbus_en = true ∧ s.power.entry ≠
    none) ∧
    (∃ (s : State) (src : Nat), s.power.exit = some src ∧ s.power.state = 2 ∧ s.host.heldWrites = [] ∧ s.host.heldDoorbells = [] ∧ s.host.heldTlps = []) ∧
    (∃ (s : State) (src : Nat), s.power.exit = some src ∧ (s.power.state = 3 ∨ s.power.state = 4)) ∧
    (∃ (s : State) (t : Nat) (p : Port), (s.link p).state = LinkState.align ∧ (s.link p).since + 1500000 ≤ (s.at t).now) := by
  repeat' refine And.intro ?_ ?_
  · refine ⟨((inPower 3).setFld Fld.PWR_WAKE_CTL_alarm_en 1), ?_⟩
    repeat (refine ⟨by decide +kernel, ?_⟩)
    refine ⟨0, ?_⟩
    decide +kernel
  · refine ⟨((entering ⟨3, 1, 9, 9, false⟩).setFld Fld.PWR_WAKE_CTL_alarm_en 1), ?_⟩
    repeat (refine ⟨by decide +kernel, ?_⟩)
    refine ⟨0, ?_⟩
    decide +kernel
  · refine ⟨((inPower 3).setFld Fld.PWR_WAKE_CTL_perst_en 1), ?_⟩
    decide +kernel
  · refine ⟨((entering ⟨3, 1, 9, 9, false⟩).setFld Fld.PWR_WAKE_CTL_perst_en 1), ?_⟩
    decide +kernel
  · refine ⟨((inPower 3).setFld Fld.PWR_WAKE_CTL_smbus_en 1), ?_⟩
    decide +kernel
  · refine ⟨((entering ⟨3, 1, 9, 9, false⟩).setFld Fld.PWR_WAKE_CTL_smbus_en 1), ?_⟩
    decide +kernel
  · refine ⟨{ inPower 2 with power := { (inPower 2).power with exit := some 1 } }, 1, ?_⟩
    decide +kernel
  · refine ⟨{ inPower 3 with power := { (inPower 3).power with exit := some 1 } }, 1, ?_⟩
    decide +kernel
  · refine ⟨lateQuay { upQuay with state := .align }, 3, .quay 0, ?_⟩
    decide +kernel

/-- The hypotheses of FaultsAndRestarts are met, those of each clause. -/
theorem test_hypotheses_FaultsAndRestarts :
    (∃ (s : State) (t : Nat) (r : FaultRec) (rest : List FaultRec), s.faults.held = r :: rest ∧ ∃ (byte : Nat) (size : Nat), (s.at t).served Reg.FLT_WIN3
    0 = true ∧ s.fld Fld.FLT_CTL_dest = 0 ∧ 8 ≤ byte + size) ∧
    (∃ (s : State) (r : FaultRec) (rest : List FaultRec), s.faults.held = r :: rest ∧ s.fld Fld.FLT_CTL_dest = 1 ∧ s.bit Fld.FLT_CTL_en = true ∧
    List.length r.bytes = 32 ∧ let n := s.fld Fld.FLT_CTL_dest_index; let x := s.hostRing n; s.ringKind n = 2 ∧ x.writes = [] ∧ s.eventRoom n r.bytes
    = true) ∧
    (∃ (s : State) (t : Nat), (s.at t).coreRuns = true) ∧
    (∃ (s : State) (temps : List Int), s.power.vddAon = true ∧ temps.length = 8 ∧ s.logRuns = true ∧ (hottest temps).fst ≤ 1680 ∧ s.service.dieHot =
    false) ∧
    (∃ (s : State) (temps : List Int), s.power.vddAon = true ∧ temps.length = 8 ∧ s.logRuns = true ∧ 1680 < (hottest temps).fst ∧ s.service.dieHot =
    false) ∧
    (∃ (s : State) (s' : State) (c : Instr) (rest : List Instr), s.pending = c :: rest ∧ step s = Host.Outcome.next s' ∧
    let low := (∃ (n : Nat), n < 5 ∧ (s'.fld Fld.FLT_STATUS_pending).testBit n = true ∧ (s'.fld Fld.FLT_ROUTE_route).testBit (8 * n) = true) ∨ s'.power.tamperHold = true ∨ (∃ (x : Stack), x ∈ s'.dramCtl.stackStates ∧ x.hot = true) ∨ s'.power.halted = true;
    low) ∧
    (∃ (s : State) (s' : State) (c : Instr) (rest : List Instr), s.pending = c :: rest ∧ step s = Host.Outcome.next s') := by
  repeat' refine And.intro ?_ ?_
  · refine ⟨{ world with faults := ⟨[⟨2000, 4, 1, 0x40 :: zeros 31⟩], [], none⟩ }, 3, ⟨2000, 4, 1, 0x40 :: zeros 31⟩, [], ?_⟩
    repeat (refine ⟨by decide +kernel, ?_⟩)
    refine ⟨0, 8, ?_⟩
    decide +kernel
  · refine ⟨((((({ withRing 6 2 { HostRing.reset with state := .active } with faults := ⟨[⟨2000, 4, 1, 0x40 :: zeros 31⟩], [], none⟩ } : State).setFld Fld.FLT_CTL_dest 1).setFld Fld.FLT_CTL_dest_index 3).setFld Fld.FLT_CTL_en 1)),
        ⟨2000, 4, 1, 0x40 :: zeros 31⟩, [], ?_⟩
    decide +kernel
  · refine ⟨world, 3, ?_⟩
    decide +kernel
  · refine ⟨world, List.replicate 8 800, ?_⟩
    decide +kernel
  · refine ⟨world, List.replicate 8 1700, ?_⟩
    decide +kernel
  · refine ⟨{ world with power := { world.power with halted := true }, pending := [.tideBoundary] }, ?_⟩
    refine ⟨_, .tideBoundary, [], rfl, rfl, Or.inr (Or.inr (Or.inr ?_))⟩; decide +kernel
  · refine ⟨{ world with pending := [.tideBoundary] }, ?_⟩
    refine ⟨_, .tideBoundary, [], rfl, rfl⟩

end Sys2Proof.Tests
end

section
/-! The memories keep their canonical form (R9, R41 to R43) under the operations that the commands which write DRAM from outside the array
are made of. Most of them leave the three memories as they were; the others write bytes or zero a range. -/
namespace Sys2Proof.Machine

variable {s : State}

/-- A state with the same memories. -/
theorem MemoryForm.of_eq {x : State} (h : MemoryForm s) (hd : x.dram = s.dram) (hi : x.diram = s.diram) (hs : x.scratch = s.scratch) :
    MemoryForm x := by
  unfold MemoryForm
  rw [hd, hi, hs]
  exact h

/-- Only DRAM changes, to a memory of canonical form. -/
theorem MemoryForm.withDram (h : MemoryForm s) {m : Memory} (hm : m.wf = true) : MemoryForm { s with dram := m } :=
  ⟨hm, h.2⟩

theorem MemoryForm.ite {x y : State} {c : Prop} [Decidable c] (hx : MemoryForm x) (hy : MemoryForm y) :
    MemoryForm (if c then x else y) := by
  split <;> assumption

theorem MemoryForm.each {α : Type} (h : MemoryForm s) (xs : List α) {f : State → α → State}
    (hf : ∀ x a, MemoryForm x → MemoryForm (f x a)) : MemoryForm (s.each xs f) := by
  unfold State.each
  induction xs generalizing s with
  | nil => exact h
  | cons a xs ih => exact ih (hf s a h)

/-! Counts, events and the queues of the pseudo-channels. -/

theorem MemoryForm.at (h : MemoryForm s) (t : Nat) : MemoryForm (s.at t) := h

theorem MemoryForm.withPower (h : MemoryForm s) {p : Power} : MemoryForm { s with power := p } := h

theorem MemoryForm.setFld (h : MemoryForm s) (f : Fld) (v i : Nat) : MemoryForm (s.setFld f v i) := h

theorem MemoryForm.bump (h : MemoryForm s) (f : Fld) (n i : Nat) : MemoryForm (s.bump f n i) :=
  h.of_eq (by simp) (by simp) (by simp)

theorem MemoryForm.bumpHold (h : MemoryForm s) (f : Fld) (n i : Nat) : MemoryForm (s.bumpHold f n i) :=
  h.of_eq (by simp) (by simp) (by simp)

theorem MemoryForm.raise (h : MemoryForm s) (f : Fld) (i : Nat) : MemoryForm (s.raise f i) := h

theorem MemoryForm.logAccess (h : MemoryForm s) (fn off reason : Nat) : MemoryForm (s.logAccess fn off reason) :=
  h.of_eq (by simp) (by simp) (by simp)

theorem MemoryForm.holdWrite (h : MemoryForm s) (fn : Nat) (r : Reg) (w mask : Nat) : MemoryForm (s.holdWrite fn r w mask) :=
  h.of_eq (by simp) (by simp) (by simp)

theorem MemoryForm.violation (h : MemoryForm s) (m cause cookie : Nat) : MemoryForm (s.violation m cause cookie) :=
  h.of_eq (by simp) (by simp) (by simp)

theorem MemoryForm.memoryEvent (h : MemoryForm s) (event cls pc info addr temp : Nat) :
    MemoryForm (s.memoryEvent event cls pc info addr temp) :=
  h.of_eq (by simp [State.memoryEvent]) (by simp [State.memoryEvent]) (by simp [State.memoryEvent])

theorem MemoryForm.countEnd (h : MemoryForm s) (a : Nat) (e : DramEnd) : MemoryForm (s.countEnd a e) := by
  cases e with
  | direct => exact h
  | reconstructed => exact h.bumpHold _ _ _
  | columnCorrected => exact ((h.bump _ _ _).raise _ _).memoryEvent ..
  | uncorrectable => exact ((h.bump _ _ _).raise _ _).memoryEvent ..

theorem MemoryForm.countFlags (h : MemoryForm s) (stripe : Nat) (how : DramRead) : MemoryForm (s.countFlags stripe how) :=
  h.each _ fun _ _ hx => hx.bumpHold _ _ _

theorem MemoryForm.countRead (h : MemoryForm s) (a : Nat) (how : DramRead) : MemoryForm (s.countRead a how) :=
  (h.countFlags _ _).countEnd _ _

theorem MemoryForm.issueWhile (h : MemoryForm s) (n : Nat) (p : PcQueue → Bool) (fuel : Nat) :
    MemoryForm (s.issueWhile n p fuel) := by
  induction fuel generalizing s with
  | zero => exact h
  | succ fuel ih =>
    unfold State.issueWhile
    dsimp only
    split
    · apply ih
      split <;> exact h
    · exact h

theorem MemoryForm.queueRead (h : MemoryForm s) (port n column : Nat) : MemoryForm (s.queueRead port n column) := h

theorem MemoryForm.queueWrite (h : MemoryForm s) (port n column : Nat) : MemoryForm (s.queueWrite port n column) :=
  h.issueWhile _ _ _

theorem MemoryForm.queueStripe (h : MemoryForm s) (port a n stripe : Nat) : MemoryForm (s.queueStripe port a n stripe) := by
  have hr := h.each (touched stripe a n ++ [8, 9]) (f := fun x c => x.queueRead port (columnPc stripe c) (32 * (stripe / 6)))
    fun _ _ hx => hx.queueRead _ _ _
  exact (MemoryForm.ite h hr).each _ fun _ _ hx => hx.queueWrite _ _ _

theorem MemoryForm.dramReturn (h : MemoryForm s) (port a n : Nat) : MemoryForm (s.dramReturn port a n) :=
  h.each _ fun _ _ hx => hx.issueWhile _ _ _

/-! Writes of DRAM. -/

/-- Writing bytes at several places keeps the canonical form. -/
theorem Memory.wf_foldl_write {α : Type} (xs : List α) (at_ : α → Nat) (bs : α → Bytes) (m : Memory) (h : m.wf = true) :
    (xs.foldl (fun m c => m.write (at_ c) (bs c)) m).wf = true := by
  induction xs generalizing m with
  | nil => exact h
  | cons c xs ih => exact ih _ (Memory.wf_write m _ _ h)

theorem MemoryForm.spoilStripe (h : MemoryForm s) (a n stripe : Nat) : MemoryForm (s.spoilStripe a n stripe) := by
  exact .ite h ((h.withDram (Memory.wf_foldl_write _ _ _ _ h.1)).countEnd _ _)

theorem MemoryForm.spoil (h : MemoryForm s) (a n : Nat) : MemoryForm (s.spoil a n) := by
  exact .ite h (h.each _ fun _ _ hx => hx.spoilStripe _ _ _)

/-- A write of DRAM keeps the canonical form (R41, R548). -/
theorem MemoryForm.dramWrite (h : MemoryForm s) (a : Nat) (bs : Bytes) : MemoryForm (s.dramWrite a bs) := by
  have hq := (h.spoil a bs.length).each (stripesOf a bs.length)
    (f := fun x k => x.queueStripe (dramPort a) a bs.length k) fun _ _ hx => hx.queueStripe _ _ _ _
  exact hq.withDram (Memory.wf_write _ _ _ hq.1)

theorem MemoryForm.setWide (h : MemoryForm s) (len v : Nat) : MemoryForm (s.setWide len v) := h.dramWrite _ _

theorem MemoryForm.writeStream (h : MemoryForm s) (n : Nat) (bs : Bytes) : MemoryForm (s.writeStream n bs) := h.dramWrite _ _

theorem MemoryForm.beginLoad (h : MemoryForm s) (set addr len : Nat) (expected : Option Bytes) (command : Option Nat)
    (byRegister : Bool) : MemoryForm (s.beginLoad set addr len expected command byRegister) :=
  h.withDram (Memory.wf_write _ _ _ (Memory.wf_clear _ _ _ h.1))

/-! The counters. -/

theorem MemoryForm.writeCount (h : MemoryForm s) (len v : Nat) : MemoryForm (s.writeCount len v) := by
  unfold State.writeCount
  dsimp only
  split
  · exact h
  · apply MemoryForm.setWide
    exact h

theorem MemoryForm.hostCount (h : MemoryForm s) (len v : Nat) : MemoryForm (s.hostCount len v) := by
  exact .ite (h.writeCount _ _) h

theorem MemoryForm.freePlace (h : MemoryForm s) (len : Nat) : MemoryForm (s.freePlace len) := by
  unfold State.freePlace
  dsimp only
  split
  · exact h
  · apply MemoryForm.writeCount
    exact h

theorem MemoryForm.telCntWrite (h : MemoryForm s) (fn w mask : Nat) : MemoryForm (s.telCntWrite fn w mask) := by
  unfold State.telCntWrite
  dsimp only
  refine .ite (h.holdWrite ..) (.ite (h.logAccess _ _ _) (.ite (h.logAccess _ _ _) (.ite ((h.raise _ _).logAccess _ _ _)
    (.ite (h.logAccess _ _ _) ?_))))
  split
  · exact h.hostCount _ _
  · exact h.raise _ _

theorem MemoryForm.foldStripe (h : MemoryForm s) (r : StripeRead) : MemoryForm (s.foldStripe r) := by
  have hc := (h.countFlags r.stripe r.how).countEnd (r.stripe * 256) (s.stripeEnd r.stripe r.how)
  exact .ite h (.ite (hc.each _ fun _ _ hx => hx.setWide _ _) hc)

theorem MemoryForm.setNarrow (h : MemoryForm s) (len v : Nat) : MemoryForm (s.setNarrow len v) := h

theorem MemoryForm.bulkFold (h : MemoryForm s) (reads : List StripeRead) : MemoryForm (s.bulkFold reads) := by
  have hr := h.each reads (f := State.foldStripe) fun _ r hx => hx.foldStripe r
  unfold State.bulkFold
  exact hr.each _ fun _ _ hx => (hx.setWide _ _).setNarrow _ _

/-! Commands and register writes. -/

theorem MemoryForm.accept (h : MemoryForm s) (src : Source) (c : Cmd) (n : Nat) (b : Bool)
    (r : Option (Nat × Nat × Nat × Nat × Bytes)) (p : Option Nat) : MemoryForm (s.accept src c n b r p) :=
  h.of_eq (by simp) (by simp) (by simp)

theorem MemoryForm.refuse (h : MemoryForm s) (src : Source) (c : Cmd) (result handle : Nat) (payload : Bytes) :
    MemoryForm (s.refuse src c result handle payload) := h.accept ..

theorem MemoryForm.noteTurn (h : MemoryForm s) (src : Source) : MemoryForm (s.noteTurn src) := by
  unfold State.noteTurn
  dsimp only
  split <;> exact h

/-- A command at the head of a FIFO keeps the form where its own effect does. -/
theorem MemoryForm.atHead (h : MemoryForm s) (t : Nat) (src : Source) (ops : Nat → Bool) {body : State → Cmd → State}
    (hb : ∀ x c, MemoryForm x → MemoryForm (body x c)) : MemoryForm (s.atHead t src ops body) := by
  unfold State.atHead
  dsimp only
  split
  · exact h
  · split
    · exact (hb (s.at t) _ h).noteTurn src
    · exact h

/-- The shared checks of R176 keep the form where the rest of the command does. -/
theorem MemoryForm.checked (h : MemoryForm s) (src : Source) (c : Cmd) (ut uh form : Bool) (need : Right)
    (early : State → Option Nat) {rest : State → State} (hr : ∀ x, MemoryForm x → MemoryForm (rest x)) :
    MemoryForm (s.checked src c ut uh form need early rest) := by
  have hn : MemoryForm (s.noteCookie src c) := h.of_eq (by simp) (by simp) (by simp)
  unfold State.checked
  dsimp only
  refine .ite (h.refuse ..) (.ite ((h.refuse ..).violation _ _ _) ?_)
  split
  · exact hn.refuse ..
  · split
    · exact .ite (hn.refuse ..) ((hn.refuse ..).violation _ _ _)
    · exact (hr _ hn).of_eq (by simp) (by simp) (by simp)

theorem MemoryForm.storeFields (h : MemoryForm s) (r : Reg) (i w mask : Nat) (fixed : List Nat) :
    MemoryForm (s.storeFields r i w mask fixed).1 := by
  rw [State.storeFields_regs]
  exact h

/-- A write to a register with a go bit keeps the form where its refusal and its work do. -/
theorem MemoryForm.goBit (h : MemoryForm s) (fn w mask : Nat) (r : Reg) (i : Nat) (go : Fld) {closed : State → Option State}
    (busy : State → Bool) {act : State → State} (hc : ∀ x y, MemoryForm x → closed x = some y → MemoryForm y)
    (ha : ∀ x, MemoryForm x → MemoryForm (act x)) : MemoryForm (s.goBit fn w mask r i go closed busy act) := by
  have hx := h.storeFields r i w mask []
  unfold State.goBit
  refine .ite (h.holdWrite ..) (.ite (h.logAccess _ _ _) (.ite (h.logAccess _ _ _) ?_))
  extract_lets x s1
  have h1 : MemoryForm s1 := .ite (hx.logAccess _ _ _) hx
  refine .ite h1 ?_
  split
  next y hy => exact (hc _ y hx hy).logAccess _ _ _
  next => exact .ite (hx.logAccess _ _ _) (ha _ h1)

/-- The same where the refusal only writes a field. -/
theorem MemoryForm.goClosed (h : MemoryForm s) (fn w mask : Nat) (r : Reg) (i : Nat) (go : Fld) {closed : State → State}
    (busy : State → Bool) {act : State → State} (hc : ∀ x, MemoryForm x → MemoryForm (closed x))
    (ha : ∀ x, MemoryForm x → MemoryForm (act x)) : MemoryForm (s.goClosed fn w mask r i go closed busy act) := by
  refine h.goBit _ _ _ _ _ _ _ (fun x y hx hy => ?_) ha
  obtain ⟨-, rfl⟩ : x.cmdAuth = true ∧ closed x = y := by simpa using hy
  exact hc x hx

/-! The glyphs and the streams. -/

theorem MemoryForm.defer (h : MemoryForm s) (c : Change) : MemoryForm (s.defer c) := h.of_eq (by simp) (by simp) (by simp)

theorem MemoryForm.glyphGo (h : MemoryForm s) : MemoryForm s.glyphGo := by
  unfold State.glyphGo
  extract_lets set len addr result
  have hr : ∀ n, MemoryForm (result n) := fun n => h.setFld _ _ _
  split
  · exact .ite (hr 2) (.ite (hr 1) (h.beginLoad ..))
  · exact .ite (hr 1) ((hr 0).defer _)
  · exact h

theorem MemoryForm.writeGlyphCtl (h : MemoryForm s) (fn w mask : Nat) : MemoryForm (s.writeGlyphCtl fn w mask) := by
  have hl := h.logAccess fn Reg.SCB_GLYPH_CTL.offset 2
  unfold State.writeGlyphCtl
  exact .ite (h.holdWrite ..) (.ite (.ite (hl.setFld _ _ _) hl)
    (h.goClosed _ _ _ _ _ _ _ (fun _ hx => hx.setFld _ _ _) fun _ hx => hx.glyphGo))

theorem MemoryForm.deny (h : MemoryForm s) (src : Source) (c : Cmd) : MemoryForm (s.deny src c) :=
  (h.refuse ..).violation _ _ _

theorem MemoryForm.takeStream (h : MemoryForm s) (n set : Nat) : MemoryForm (s.takeStream n set).1 := h

theorem MemoryForm.setMaster (h : MemoryForm s) (m : Nat) (x : Master) : MemoryForm (s.setMaster m x) := h

theorem MemoryForm.setScribe (h : MemoryForm s) (x : Nat) (v : Scribe) : MemoryForm (s.setScribe x v) := h

theorem MemoryForm.changeWork (h : MemoryForm s) (x : Nat) (p : Assigned → Bool) (f : Assigned → Assigned) :
    MemoryForm (s.changeWork x p f) := h.setScribe _ _

theorem MemoryForm.endChunk (h : MemoryForm s) (x status cause : Nat) : MemoryForm (s.endChunk x status cause) := by
  unfold State.endChunk
  extract_lets running
  split
  · exact h
  · extract_lets st d s1
    exact (MemoryForm.ite (h.bump _ _ _) (.ite (h.bump _ _ _) h)).changeWork _ _ _

theorem MemoryForm.finishChunk (h : MemoryForm s) (x : Nat) (a : Assigned) (n : Nat) : MemoryForm (s.finishChunk x a n) := by
  unfold State.finishChunk
  extract_lets
  split
  exact (h.bump Fld.SCB_COUNT0_chunks_done 1 0).changeWork _ _ _

theorem MemoryForm.flagStream (h : MemoryForm s) (n : Nat) (frozen : Bool) : MemoryForm (s.flagStream n frozen) :=
  h.writeStream _ _

theorem MemoryForm.runChunk (h : MemoryForm s) (x : Nat) : MemoryForm (s.runChunk x) := by
  unfold State.runChunk
  split
  · exact h
  · exact .ite (h.endChunk _ _ _) (.ite (h.endChunk _ _ _) (.ite (h.endChunk _ _ _)
      (.ite (((h.endChunk _ _ _).flagStream _ _).violation _ _ _) (.ite (h.endChunk _ _ _) (h.finishChunk _ _ _)))))

theorem MemoryForm.faultEvent (h : MemoryForm s) (code cls block object a b : Nat) :
    MemoryForm (s.faultEvent code cls block object a b) :=
  h.of_eq (by simp) (by simp) (by simp)

theorem MemoryForm.watchdogChunk (h : MemoryForm s) (x : Nat) : MemoryForm (s.watchdogChunk x) := by
  unfold State.watchdogChunk
  split
  · exact h
  · exact ((((h.endChunk _ _ _).writeStream _ _).setScribe _ _).raise _ _).faultEvent ..

/-! The commands. -/

/-- A command of which every next state has memories of canonical form where the state before it had. -/
def KeepsForm (c : Instr) : Prop := ∀ s s' : State, MemoryForm s → exec c s = .next s' → MemoryForm s'

/-- A command keeps the form where the state that it settles has it. -/
theorem KeepsForm.of_settled {c : Instr} (h : ∀ s, MemoryForm s → ∃ x : State, exec c s = .next x.settle ∧ MemoryForm x) :
    KeepsForm c := by
  intro s s' hs he
  obtain ⟨x, hx, hm⟩ := h s hs
  obtain rfl : x.settle = s' := by simpa [hx] using he
  exact hm.of_eq (by simp) (by simp) (by simp)

theorem keepsForm_hostDmaAccess (t : Nat) (write : Bool) (addr len : Nat) (data : Bytes) :
    KeepsForm (.hostDmaAccess t write addr len data) :=
  .of_settled fun _ h =>
    have h0 := h.at t
    ⟨_, rfl, .ite h0 (.ite (h0.bump _ _ _) (.ite (h0.dramWrite _ _) h0))⟩

theorem keepsForm_foldReadReturn (t len : Nat) (how : DramRead) : KeepsForm (.foldReadReturn t len how) :=
  .of_settled fun s h => by
    have h0 := h.at t
    refine ⟨_, rfl, ?_⟩
    split
    · exact h0
    · exact (((h0.dramReturn ..).countRead ..).setWide ..).freePlace _

theorem keepsForm_glyphLoad (t : Nat) (src : Source) : KeepsForm (.glyphLoad t src) :=
  .of_settled fun _ h => ⟨_, rfl, h.atHead _ _ _ fun _ _ hx => hx.checked _ _ _ _ _ _ _ fun _ hy =>
    .ite (hy.refuse ..) ((hy.accept ..).beginLoad ..)⟩

theorem keepsForm_streamOpen (t : Nat) (src : Source) : KeepsForm (.streamOpen t src) :=
  .of_settled fun _ h => by
    refine ⟨_, rfl, h.atHead _ _ _ fun _ _ hx => hx.checked _ _ _ _ _ _ _ fun y hy => ?_⟩
    refine .ite (hy.deny ..) (.ite (hy.refuse ..) ?_)
    split
    · exact hy.refuse ..
    · exact (((hy.takeStream _ _).writeStream _ _).setMaster _ _).accept ..

theorem keepsForm_bulkFold (reads : List StripeRead) : KeepsForm (.bulkFold reads) :=
  .of_settled fun s h => by
    refine ⟨_, rfl, ?_⟩
    split
    · exact .ite (h.bulkFold reads).withPower h
    · exact h

/-- Settles O4: every operation that the nine commands are made of keeps the canonical form, so each of them does. -/
theorem dramKeepsItsForm : Obligations.DramKeepsItsForm := by
  unfold Obligations.DramKeepsItsForm
  intro keeps t m n src how reads data w b
  refine ⟨keepsForm_hostDmaAccess t b m n data, keepsForm_foldReadReturn t n how, ?_, keepsForm_glyphLoad t src, ?_,
    keepsForm_streamOpen t src, ?_, ?_, keepsForm_bulkFold reads⟩
  · exact KeepsForm.of_settled fun _ h => ⟨_, rfl, MemoryForm.telCntWrite (h.at t) ..⟩
  · exact KeepsForm.of_settled fun _ h => ⟨_, rfl, MemoryForm.writeGlyphCtl (h.at t) ..⟩
  · exact KeepsForm.of_settled fun _ h => ⟨_, rfl, MemoryForm.runChunk (h.at t) n⟩
  · exact KeepsForm.of_settled fun _ h => ⟨_, rfl, MemoryForm.watchdogChunk (h.at 255) n⟩

end Sys2Proof.Machine
end

section
/-! The registers one field at a time: a whole word that is written, or read, changes each field of its register by the field's access code
and no other (R11, R12, R14, R15). -/
namespace Sys2Proof.Machine

/-! The register map. -/

/-- The fields of a register share no bit. -/
theorem Reg.fields_apart (r : Reg) : r.fields.Pairwise (fun d e => e.lo + e.width ≤ d.lo ∨ d.lo + d.width ≤ e.lo) := by
  cases r <;> decide

theorem Reg.fields_within (r : Reg) : ∀ d ∈ r.fields, 0 < d.width ∧ d.lo + d.width ≤ 64 := by
  cases r <;> decide

theorem Reg.resetNat_lt (r : Reg) : r.resetNat < 2 ^ 64 := by
  cases r <;> decide

theorem Reg.offset_aligned (r : Reg) : r.offset % 8 = 0 := by
  cases r <;> rfl

/-- At the offset of a register lies that register. -/
@[simp] theorem regAt_offset (r : Reg) : regAt r.offset = some (r, 0) := by
  cases r <;> rfl

/-! A walk over the fields of a register, each step of which changes its own field alone. -/

/-- What every step leaves, the walk leaves. -/
theorem foldl_keeps {σ α β : Type} (F : σ → α → σ) (g : σ → β) (l : List α) (a : σ) (h : ∀ a, ∀ d ∈ l, g (F a d) = g a) :
    g (l.foldl F a) = g a := by
  induction l generalizing a with
  | nil => rfl
  | cons d l ih =>
    rw [List.foldl_cons, ih (F a d) fun a x hx => h a x (List.mem_cons_of_mem d hx), h a d List.mem_cons_self]

/-- Each element is changed by its own step and by no other; `P` holds along the walk. -/
theorem foldl_read_own {σ α β : Type} {F : σ → α → σ} {g : σ → α → β} {val : α → β → β} (P : σ → Prop) {R : α → α → Prop}
    (symm : ∀ d e, R d e → R e d) (keeps : ∀ a d, P a → P (F a d)) {l : List α}
    (other : ∀ a, ∀ d ∈ l, ∀ e, R d e → g (F a d) e = g a e) (same : ∀ a, ∀ d ∈ l, P a → g (F a d) d = val d (g a d))
    (hl : l.Pairwise R) {a : σ} (ha : P a) : ∀ d ∈ l, g (l.foldl F a) d = val d (g a d) := by
  induction l generalizing a with
  | nil => simp
  | cons d l ih =>
    obtain ⟨hd, hl⟩ := List.pairwise_cons.mp hl
    have other' := fun a x (hx : x ∈ l) => other a x (List.mem_cons_of_mem d hx)
    intro e he
    rw [List.foldl_cons]
    rcases List.mem_cons.mp he with rfl | he
    · rw [foldl_keeps F (g · e) l _ fun a x hx => other' a x hx e (symm _ _ (hd x hx)), same a e List.mem_cons_self ha]
    · rw [ih other' (fun a x hx => same a x (List.mem_cons_of_mem d hx)) hl (keeps a d ha) e he,
        other a d List.mem_cons_self e (hd e he)]

/-! Words and fields. -/

theorem State.fld_lt (s : State) (f : Fld) (i : Nat) : s.fld f i < 2 ^ f.width := Nat.mod_lt _ (Nat.two_pow_pos _)

/-- The fields of a register of another key read as before where its word does. -/
theorem State.fld_of_word {s x : State} {f : Fld} {i : Nat} (h : x.word f.reg i = s.word f.reg i) : x.fld f i = s.fld f i := by
  unfold State.fld
  rw [h]

theorem State.word_setFld_ne (s : State) (f : Fld) (v i : Nat) {q : Reg} {j : Nat} (h : q.key j ≠ f.reg.key i) :
    (s.setFld f v i).word q j = s.word q j := State.word_setWord_ne _ _ _ _ _ _ h

/-- A field of a register reads as it was written, when the value fits. -/
theorem State.fld_setFld_own (s : State) {r : Reg} {d : FieldDesc} (hd : d ∈ r.fields) (i : Nat) {v : Nat} (hv : v < 2 ^ d.width) :
    (s.setFld ⟨r, d.lo, d.width⟩ v i).fld ⟨r, d.lo, d.width⟩ i = v := by
  rw [State.fld_setFld_same _ _ _ _ (r.fields_within d hd).2 r.resetNat_lt, Nat.mod_eq_of_lt hv]

/-! A write of a whole word. -/

/-- What a field holds after a write of the word `w` to its register: `set` has the bits that hardware set in the stroke, `old` is what
the field held (R11, R12, R14). -/
def Reg.written (r : Reg) (set w : Nat) (d : FieldDesc) (old : Nat) : Nat :=
  let v := w / 2 ^ d.lo % 2 ^ d.width
  match d.acc with
  | .rw => if r.rangeOk d.lo v then v else old
  | .w1c => old &&& (2 ^ d.width - 1 - (v &&& (2 ^ d.width - 1 - set / 2 ^ d.lo % 2 ^ d.width)))
  | _ => old

/-- The word `w` has a value out of range for a field (R629). -/
def Reg.exceeds (r : Reg) (w : Nat) (d : FieldDesc) : Bool :=
  decide (d.acc = .rw) && !r.rangeOk d.lo (w / 2 ^ d.lo % 2 ^ d.width)

/-- The field takes a value from the word `w`. -/
def Reg.takes (r : Reg) (w : Nat) (d : FieldDesc) : Bool := (d.acc = .rw || d.acc = .w1c) && !r.exceeds w d

/-- One field's part of a write of a whole word. -/
def State.storeField (s : State) (r : Reg) (i w : Nat) (acc : State × Bool × Bool) (d : FieldDesc) : State × Bool × Bool :=
  let f : Fld := ⟨r, d.lo, d.width⟩
  (if r.takes w d then acc.1.setFld f (r.written (s.setNow r i) w d (acc.1.fld f i)) i else acc.1, acc.2.1 || r.exceeds w d, acc.2.2)

theorem Reg.written_lt (r : Reg) (set w : Nat) (d : FieldDesc) {old : Nat} (h : old < 2 ^ d.width) :
    r.written set w d old < 2 ^ d.width := by
  unfold Reg.written
  dsimp only
  split
  · split
    · exact Nat.mod_lt _ (Nat.two_pow_pos _)
    · exact h
  · exact lt_of_le_of_lt Nat.and_le_left h
  · exact h

/-- A field that takes nothing keeps its value. -/
theorem Reg.written_of_not_takes {r : Reg} {w : Nat} {d : FieldDesc} (h : r.takes w d = false) (set old : Nat) :
    r.written set w d old = old := by
  unfold Reg.written
  unfold Reg.takes Reg.exceeds at h
  dsimp only
  split <;> simp_all

/-- A write of the whole word addresses every bit of a field. -/
theorem fullMask_field {r : Reg} {d : FieldDesc} (hd : d ∈ r.fields) : fullMask / 2 ^ d.lo % 2 ^ d.width = 2 ^ d.width - 1 := by
  have hw := (r.fields_within d hd).2
  apply Nat.eq_of_testBit_eq
  intro j
  simp only [fullMask, Nat.testBit_mod_two_pow, Nat.testBit_div_two_pow, Nat.testBit_two_pow_sub_one]
  by_cases hj : j < d.width
  · simp [hj]
    omega
  · simp [hj]

/-- A write of the whole word is a walk over the fields of its register. -/
theorem State.storeFields_full (s : State) (r : Reg) (i w : Nat) :
    s.storeFields r i w fullMask [] = r.fields.foldl (s.storeField r i w) (s, false, false) := by
  unfold State.storeFields
  apply List.foldl_ext
  intro acc d hd
  have hm := fullMask_field hd
  have hw : 2 ^ d.width - 1 ≠ 0 := by
    have := Nat.one_lt_two_pow (r.fields_within d hd).1.ne'
    omega
  have hv : w / 2 ^ d.lo % 2 ^ d.width &&& (2 ^ d.width - 1) = w / 2 ^ d.lo % 2 ^ d.width := by
    rw [Nat.and_two_pow_sub_one_eq_mod, Nat.mod_mod]
  simp only [hm, hv, Nat.sub_self, Nat.and_zero, Nat.zero_or, hw, if_false, State.storeField, Reg.takes, Reg.exceeds, Reg.written,
    List.contains_nil, Bool.false_eq_true]
  obtain ⟨code, lo, width, -⟩ := d
  cases code with
  | rw => by_cases ho : r.rangeOk lo (w / 2 ^ lo % 2 ^ width) = true <;> simp [ho]
  | _ => simp

theorem State.storeField_word_ne (s : State) (r : Reg) (i w : Nat) (acc : State × Bool × Bool) (d : FieldDesc) {q : Reg} {j : Nat}
    (h : q.key j ≠ r.key i) : (s.storeField r i w acc d).1.word q j = acc.1.word q j := by
  unfold State.storeField
  dsimp only
  split
  · exact State.word_setFld_ne _ _ _ _ h
  · rfl

/-- A write of the whole word leaves every other register. -/
theorem State.storeFields_word_ne (s : State) (r : Reg) (i w : Nat) {q : Reg} {j : Nat} (h : q.key j ≠ r.key i) :
    (s.storeFields r i w fullMask []).1.word q j = s.word q j := by
  rw [State.storeFields_full]
  exact foldl_keeps (s.storeField r i w) (fun a => a.1.word q j) r.fields (s, false, false)
    fun a d _ => s.storeField_word_ne r i w a d h

/-- A write of the whole word: each field holds what the write gives it. -/
theorem State.storeFields_fld (s : State) (r : Reg) (i w : Nat) :
    ∀ d ∈ r.fields, (s.storeFields r i w fullMask []).1.fld ⟨r, d.lo, d.width⟩ i =
      r.written (s.setNow r i) w d (s.fld ⟨r, d.lo, d.width⟩ i) := by
  rw [State.storeFields_full]
  refine foldl_read_own (F := s.storeField r i w) (g := fun a d => a.1.fld ⟨r, d.lo, d.width⟩ i)
    (val := fun d => r.written (s.setNow r i) w d) (fun _ => True) (fun _ _ h => h.symm) (fun _ _ _ => trivial)
    (fun a d hd e he => ?_) (fun a d hd _ => ?_) r.fields_apart trivial
  · unfold State.storeField
    dsimp only
    split
    · exact State.fld_setFld_disjoint _ _ _ _ _ rfl (r.fields_within d hd).2 r.resetNat_lt he
    · rfl
  · unfold State.storeField
    dsimp only
    split
    · exact State.fld_setFld_own _ hd i (r.written_lt _ _ _ (State.fld_lt ..))
    next h => exact (Reg.written_of_not_takes (by simpa using h) _ _).symm

/-- Whether a value was out of range. -/
theorem State.storeFields_exceeds (s : State) (r : Reg) (i w : Nat) :
    (s.storeFields r i w fullMask []).2 = (r.fields.any (r.exceeds w), false) := by
  rw [State.storeFields_full]
  suffices h : ∀ (l : List FieldDesc) (acc : State × Bool × Bool),
      (l.foldl (s.storeField r i w) acc).2 = (acc.2.1 || l.any (r.exceeds w), acc.2.2) by simpa using h r.fields (s, false, false)
  intro l
  induction l with
  | nil => simp
  | cons d l ih => intro acc; simp [ih, State.storeField, Bool.or_assoc]

end Sys2Proof.Machine
end

section
/-! Accesses of one register. -/
namespace Sys2Proof.Machine

/-! The access log (R629). -/

/-- A word reads the register store alone. -/
theorem State.word_of_regs {s x : State} (h : x.regs = s.regs) (q : Reg) (j : Nat) : x.word q j = s.word q j := by
  unfold State.word
  rw [h]

theorem State.word_bumpHold_ne (s : State) (f : Fld) (n i : Nat) {q : Reg} {j : Nat} (h : q.key j ≠ f.reg.key i) :
    (s.bumpHold f n i).word q j = s.word q j := by
  unfold State.bumpHold
  rw [State.word_setFld_ne _ _ _ _ h]
  exact State.word_of_regs (by simp) q j

theorem State.fld_bumpHold_same (s : State) (f : Fld) (n i : Nat) (hf : f.lo + f.width ≤ 64) :
    (s.bumpHold f n i).fld f i = min (s.fld f i + n) (2 ^ f.width - 1) := by
  have := Nat.two_pow_pos f.width
  unfold State.bumpHold
  rw [State.fld_setFld_same _ _ _ _ hf f.reg.resetNat_lt, Nat.mod_eq_of_lt (by omega)]

/-- A record of an access is counted, and shown where no record of the stroke has a higher offset. -/
theorem State.logAccess_regs (s : State) (fn off reason : Nat) :
    (s.logAccess fn off reason).regs = (s.bumpHold Fld.GLB_ACCESS_LOG_count).regs ∨
    (s.logAccess fn off reason).regs = ((((s.bumpHold Fld.GLB_ACCESS_LOG_count).setFld Fld.GLB_ACCESS_LOG_function fn).setFld
      Fld.GLB_ACCESS_LOG_reason reason).setFld Fld.GLB_ACCESS_LOG_offset (off / 8)).regs := by
  unfold State.logAccess
  dsimp only
  split
  · exact .inl rfl
  · exact .inr rfl

/-- A record of an access leaves every other register. -/
theorem State.word_logAccess (s : State) (fn off reason : Nat) {q : Reg} {j : Nat} (h : q.key j ≠ Reg.key .GLB_ACCESS_LOG 0) :
    (s.logAccess fn off reason).word q j = s.word q j := by
  have hb := s.word_bumpHold_ne Fld.GLB_ACCESS_LOG_count 1 0 h
  rcases s.logAccess_regs fn off reason with e | e <;> rw [State.word_of_regs e]
  · exact hb
  · rw [State.word_setFld_ne _ _ _ _ h, State.word_setFld_ne _ _ _ _ h, State.word_setFld_ne _ _ _ _ h, hb]

/-- Each access that is recorded is counted, up to the greatest value of the count. -/
theorem State.logAccess_count (s : State) (fn off reason : Nat) :
    (s.logAccess fn off reason).fld Fld.GLB_ACCESS_LOG_count =
      min (s.fld Fld.GLB_ACCESS_LOG_count + 1) (2 ^ Fld.GLB_ACCESS_LOG_count.width - 1) := by
  have hb := s.fld_bumpHold_same Fld.GLB_ACCESS_LOG_count 1 0 (by decide)
  have hne : ∀ (x : State) (f : Fld) (v : Nat), f.reg = .GLB_ACCESS_LOG → f.lo + f.width ≤ 48 →
      (x.setFld f v).fld Fld.GLB_ACCESS_LOG_count = x.fld Fld.GLB_ACCESS_LOG_count := fun x f v hf hw =>
    State.fld_setFld_disjoint x f Fld.GLB_ACCESS_LOG_count 0 v hf.symm (by omega) f.reg.resetNat_lt (.inr hw)
  rcases s.logAccess_regs fn off reason with e | e <;> rw [State.fld_of_regs e]
  · exact hb
  · rw [hne _ _ _ rfl (by decide), hne _ _ _ rfl (by decide), hne _ _ _ rfl (by decide), hb]

theorem State.logAccess_host (s : State) (fn off reason : Nat) :
    (s.logAccess fn off reason).host = { s.host with accessAt := (s.logAccess fn off reason).host.accessAt } := by
  unfold State.logAccess
  dsimp only
  split <;> simp

/-- A record of an access changes the registers, what is noted for reads, and the stroke of the last record. -/
theorem State.logAccess_only (s : State) (fn off reason : Nat) :
    s.logAccess fn off reason = { s with
      regs := (s.logAccess fn off reason).regs, rc := (s.logAccess fn off reason).rc
      host := { s.host with accessAt := (s.logAccess fn off reason).host.accessAt } } := by
  apply State.ext
  case host => exact s.logAccess_host fn off reason
  all_goals simp

/-! An access that lies within one register. -/

theorem accessPieces_one (fuel : Nat) {off n : Nat} (hn : 0 < n) (h : off % 8 + n ≤ 8) :
    accessPieces (fuel + 2) off n = [(off - off % 8, off % 8, n)] := by
  have e : min n (8 - off % 8) = n := by omega
  simp [accessPieces, e, hn.ne']

theorem State.readBar_one {s : State} {fn off n : Nat} (hf : s.hasFunction fn = true) (hn : 0 < n) (h : off % 8 + n ≤ 8) :
    s.readBar fn off n = s.readReg fn (off - off % 8) (off % 8) n := by
  simp [State.readBar, hf, accessPieces_one _ hn h, State.each]

theorem State.writeBar_word {s : State} {fn off : Nat} {data : Bytes} (hf : s.hasFunction fn = true) (ho : off % 8 = 0)
    (hd : data.length = 8) : s.writeBar fn off data = s.writeReg fn off (leNat data) fullMask := by
  have e : data.take 8 = data := List.take_of_length_le hd.le
  have hp : accessPieces 3 off 8 = [(off, 0, 8)] := by simpa [ho] using accessPieces_one 1 (off := off) (n := 8) (by omega) (by omega)
  simp [State.writeBar, hf, hd, hp, State.each, e, fullMask]

@[simp] theorem State.hasFunction_zero (s : State) : s.hasFunction 0 = true := by simp [State.hasFunction]

@[simp] theorem State.hasFunction_at (s : State) (t fn : Nat) : (s.at t).hasFunction fn = s.hasFunction fn := rfl

end Sys2Proof.Machine
end

section
/-! What the accesses of BAR0 do to a register whose fields are only stored, and what reads return and change (R12, R15, R75, R518,
R620 to R629). -/
namespace Sys2Proof.Machine

/-! Writes. -/

/-- The state after a write of the whole word `w`, by the physical function, to a register of one copy whose fields are stored and have
no further effect. -/
def State.writeWhole (s : State) (r : Reg) (w : Nat) : State :=
  let x := s.storeFields r 0 w fullMask []
  if x.2.1 then x.1.logAccess 0 r.offset 5 else x.1

theorem State.writeReg_whole {s : State} {r : Reg} (hr : r ∈ Reg.GLB_TIDE_STATUS :: plainRegs) (hh : s.holds r = false)
    (hs : s.served r 0 = true) (w : Nat) : s.writeReg 0 r.offset w fullMask = s.writeWhole r w := by
  have hp : s.writeReg 0 r.offset w fullMask = s.plainWrite 0 r w fullMask := by
    unfold State.writeReg
    rw [regAt_offset]
    fin_cases hr <;> rfl
  have hi : s.regIndex 0 r = 0 := by fin_cases hr <;> rfl
  have hf : s.fixedFields r w fullMask = ([], 5) := by fin_cases hr <;> rfl
  have ha : ∀ x : State, x.afterStore r 0 w fullMask = x := fun x => by fin_cases hr <;> rfl
  have hx := s.storeFields_exceeds r 0 w
  rw [hp]
  simp [State.plainWrite, State.writeWhole, hh, hs, hi, hf, ha, hx]

theorem State.writeWhole_word (s : State) (r : Reg) (w : Nat) {q : Reg} {i : Nat} (h : q.key i ≠ Reg.key .GLB_ACCESS_LOG 0) :
    (s.writeWhole r w).word q i = (s.storeFields r 0 w fullMask []).1.word q i := by
  unfold State.writeWhole
  dsimp only
  split
  · exact State.word_logAccess _ _ _ _ h
  · rfl

theorem State.writeWhole_word_ne (s : State) (r : Reg) (w : Nat) {q : Reg} {i : Nat} (h : q.key i ≠ r.key 0)
    (hl : q.key i ≠ Reg.key .GLB_ACCESS_LOG 0) : (s.writeWhole r w).word q i = s.word q i := by
  rw [State.writeWhole_word _ _ _ hl, State.storeFields_word_ne _ _ _ _ h]

theorem State.writeWhole_fld (s : State) {r : Reg} (hr : r.offset ≠ Reg.offset .GLB_ACCESS_LOG) (w : Nat) :
    ∀ d ∈ r.fields, (s.writeWhole r w).fld ⟨r, d.lo, d.width⟩ =
      r.written (s.setNow r 0) w d (s.fld ⟨r, d.lo, d.width⟩) := by
  intro d hd
  rw [← State.storeFields_fld s r 0 w d hd]
  exact State.fld_of_word (State.writeWhole_word _ _ _ (Reg.key_ne 0 0 hr))

theorem State.writeWhole_count (s : State) {r : Reg} (hr : r.offset ≠ Reg.offset .GLB_ACCESS_LOG) {w : Nat}
    (h : ∃ d ∈ r.fields, r.exceeds w d = true) : (s.writeWhole r w).fld Fld.GLB_ACCESS_LOG_count =
      min (s.fld Fld.GLB_ACCESS_LOG_count + 1) (2 ^ Fld.GLB_ACCESS_LOG_count.width - 1) := by
  have hx : (s.storeFields r 0 w fullMask []).2.1 = true := by
    rw [State.storeFields_exceeds]
    exact List.any_eq_true.mpr h
  unfold State.writeWhole
  dsimp only
  rw [if_pos hx, State.logAccess_count,
    State.fld_of_word (State.storeFields_word_ne s r 0 w (q := .GLB_ACCESS_LOG) (j := 0) (Reg.key_ne 0 0 hr.symm))]

/-- Such a write changes the registers, what is noted for reads, and the stroke of the last record of an access. -/
theorem State.writeWhole_only (s : State) (r : Reg) (w : Nat) : s.writeWhole r w = { s with
    regs := (s.writeWhole r w).regs, rc := (s.writeWhole r w).rc
    host := { s.host with accessAt := (s.writeWhole r w).host.accessAt } } := by
  obtain ⟨regs, hx⟩ : ∃ regs, (s.storeFields r 0 w fullMask []).1 = { s with regs := regs } :=
    ⟨_, s.storeFields_regs r 0 w fullMask []⟩
  unfold State.writeWhole
  dsimp only
  rw [hx]
  split
  · exact State.logAccess_only _ _ _ _
  · rfl

/-- A bit that is written 1 is cleared, unless hardware set it in the same stroke (R12, R14). -/
theorem Reg.written_w1c_bit (r : Reg) {d : FieldDesc} (hacc : d.acc = .w1c) (hw : d.width = 1) (set w : Nat) {old : Nat}
    (ho : old < 2 ^ d.width) : r.written set w d old ≠ 0 ↔
      old ≠ 0 ∧ ((⟨r, d.lo, d.width⟩ : Fld).get w = 0 ∨ (⟨r, d.lo, d.width⟩ : Fld).get set = 1) := by
  have bits : ∀ old v n : Fin (2 ^ 1),
      (old.val &&& (2 ^ 1 - 1 - (v.val &&& (2 ^ 1 - 1 - n.val))) ≠ 0 ↔ old.val ≠ 0 ∧ (v.val = 0 ∨ n.val = 1)) := by decide
  simp only [Reg.written, hacc, Fld.get, hw] at ho ⊢
  exact bits ⟨old, ho⟩ ⟨_, Nat.mod_lt _ (by decide)⟩ ⟨_, Nat.mod_lt _ (by decide)⟩

/-! Reads. -/

theorem leBytes_zero (n : Nat) : leBytes 0 n = zeros n := by
  induction n with
  | zero => rfl
  | succ n ih => simp [leBytes, ih, zeros, List.replicate_succ]

theorem leBytes_drop (v m n : Nat) : (leBytes v (m + n)).drop m = leBytes (v / 256 ^ m) n := by
  induction m generalizing v with
  | zero => simp
  | succ m ih =>
    rw [Nat.add_right_comm, leBytes, List.drop_succ_cons, ih, Nat.div_div_eq_div_mul, Nat.pow_succ']

theorem State.readReg_none {s : State} {off : Nat} (h : regAt off = none) (fn byte size : Nat) :
    s.readReg fn off byte size = s.emit (.readData fn (zeros size)) := by
  simp [State.readReg, h]

theorem State.readReg_latched {s : State} {fn : Nat} {r : Reg} {l : Nat} (h : (s.function fn).latches.get r = some l)
    (byte size : Nat) : s.readReg fn r.offset byte size = s.latchRead fn r l (s.readWord fn r 0) byte size := by
  have hr : (r == .TEL_CNT_READ) = false := by
    rw [beq_eq_false_iff_ne]
    rintro rfl
    simp [Latches.get] at h
  simp [State.readReg, hr, h]

theorem Latches.get_isSome (l : Latches) (r : Reg) : (l.get r).isSome = true ↔ r ∈ latchRegs := by
  unfold Latches.get
  split <;> simp_all [latchRegs]

theorem Latches.get_load (l : Latches) {r : Reg} (h : r ∈ latchRegs) (v : Nat) : (l.load r v).get r = some v := by
  fin_cases h <;> rfl

theorem State.function_setFunction (s : State) (f : Nat) (x : Function) : (s.setFunction f x).function f = x := by
  simp [State.setFunction, State.function]

/-- A read of bytes 0 to 3 by the physical function loads its latch (R75). -/
theorem State.latchRead_low (s : State) (r : Reg) (l v : Nat) :
    s.latchRead 0 r l v 0 4 = (s.setFunction 0 { s.function 0 with latches := (s.function 0).latches.load r (v / 2 ^ 32) }).emit
      (.readData 0 ((leBytes v 8).take 4)) := by
  simp [State.latchRead]

/-- A read of bytes 4 to 7 by the physical function returns the latch (R75). -/
theorem State.latchRead_high (s : State) (r : Reg) (l v : Nat) :
    s.latchRead 0 r l v 4 4 = s.emit (.readData 0 (leBytes l 4)) := by
  have hd : (v % 2 ^ 32 + l * 2 ^ 32) / 256 ^ 4 = l := by omega
  have e : ((leBytes (v % 2 ^ 32 + l * 2 ^ 32) 8).drop 4).take 4 = leBytes l 4 := by
    rw [leBytes_drop _ 4 4, hd, List.take_of_length_le (by simp)]
  rw [← e]
  rfl

theorem State.readWord_unreached {s : State} {fn : Nat} {r : Reg} (hf : fn ≠ 0) (h : s.vfReads fn r = false) (n : Nat) :
    s.readWord fn r n = 0 := by
  simp [State.readWord, hf, h]

/-- A virtual function reads zeros where it does not reach (R518). -/
theorem State.readReg_unreached {s : State} {fn : Nat} {r : Reg} (hf : fn ≠ 0) (h : s.vfReads fn r = false)
    (hr : r ≠ .TEL_CNT_READ) : s.readReg fn r.offset 0 8 = s.emit (.readData fn (zeros 8)) := by
  cases hl : (s.function fn).latches.get r with
  | some l => simp [State.readReg_latched hl, State.latchRead, hf, h]
  | none => simp [State.readReg, hr, hl, hf, State.readWord_unreached hf h, leBytes_zero, zeros]

/-- A read of a whole register by the physical function returns its value and clears its RC fields. -/
theorem State.readReg_whole {s : State} {r : Reg} (hl : r ∉ latchRegs) (h1 : r ≠ .TEL_CNT_READ) (h2 : r ≠ .LRN_MNF_WIN3)
    (h3 : r ≠ .FLT_WIN3) (hs : s.served r (s.regIndex 0 r) = true) : s.readReg 0 r.offset 0 8 =
      (s.emit (.readData 0 (leBytes (s.readWord 0 r 0) 8))).clearRead r (s.regIndex 0 r) 0 8 := by
  have hn : (s.function 0).latches.get r = none := by
    rw [← Option.not_isSome_iff_eq_none, Latches.get_isSome]
    exact hl
  have ht : (leBytes (s.readWord 0 r 0) 8).take 8 = leBytes (s.readWord 0 r 0) 8 := List.take_of_length_le (by simp)
  simp [State.readReg, h1, hn, hs, h2, h3, ht]

/-! What a read clears. -/

theorem Table.has_modify {α : Type} (m : Table α) (k l : Nat) (f : α → α) : (m.modify k f).has l = m.has l := by
  unfold Table.has
  induction m with
  | nil => rfl
  | cons p rest ih =>
    obtain ⟨j, v⟩ := p
    have e : Table.modify ((j, v) :: rest) k f = (j, if j = k then f v else v) :: Table.modify rest k f := by
      unfold Table.modify
      rw [List.map_cons]
      split <;> rfl
    rw [e, Table.find, Table.find]
    split
    · rfl
    · exact ih

theorem State.rcKept_lt (s : State) (f : Fld) (i : Nat) : s.rcKept f i < 2 ^ f.width := by
  unfold State.rcKept
  dsimp only
  split
  · exact Nat.mod_lt _ (Nat.two_pow_pos _)
  · exact Nat.two_pow_pos _

/-- A clear of a field leaves what the clears of others keep. -/
theorem State.rcKept_clearRc (s : State) (f g : Fld) (i j : Nat) : (s.clearRc f i).rcKept g j = s.rcKept g j := by
  have hn : (s.clearRc f i).now = s.now := rfl
  have hc : (s.clearRc f i).rc = (if s.rc.at_ = s.now then
      { s.rc with before := s.rc.before.modify (f.reg.key i) (fun b => BitVec.ofNat 64 (f.into b.toNat 0)) } else s.rc) := rfl
  unfold State.rcKept
  rw [hn, hc]
  by_cases h : s.rc.at_ = s.now
  · simp only [if_pos h, Table.has_modify]
  · simp only [if_neg h]

theorem State.clearRc_word_ne (s : State) (f : Fld) (i : Nat) {q : Reg} {j : Nat} (h : q.key j ≠ f.reg.key i) :
    (s.clearRc f i).word q j = s.word q j :=
  (State.word_of_regs (s := s.setFld f (s.rcKept f i) i) rfl q j).trans (State.word_setFld_ne s f _ _ h)

/-- One field's part of a read of a whole register. -/
def State.clearField (r : Reg) (i : Nat) (s : State) (d : FieldDesc) : State :=
  if d.acc = .rc then s.clearRc ⟨r, d.lo, d.width⟩ i else s

/-- A read of a whole register is a walk over its fields. -/
theorem State.clearRead_whole (s : State) (r : Reg) (i : Nat) :
    s.clearRead r i 0 8 = r.fields.foldl (State.clearField r i) s := by
  unfold State.clearRead State.each
  apply List.foldl_ext
  intro x d hd
  have := (r.fields_within d hd).2
  by_cases h : d.acc = .rc <;> simp [State.clearField, h]
  omega

theorem State.clearRead_word_ne (s : State) (r : Reg) (i : Nat) {q : Reg} {j : Nat} (h : q.key j ≠ r.key i) :
    (s.clearRead r i 0 8).word q j = s.word q j := by
  rw [State.clearRead_whole]
  refine foldl_keeps (State.clearField r i) (fun a => a.word q j) r.fields s fun a d _ => ?_
  unfold State.clearField
  split
  · exact State.clearRc_word_ne _ _ _ h
  · rfl

/-- Of each RC field a read of the register leaves the updates of its stroke (R12, R15). -/
theorem State.clearRead_fld (s : State) (r : Reg) (i : Nat) : ∀ d ∈ r.fields, d.acc = .rc →
    (s.clearRead r i 0 8).fld ⟨r, d.lo, d.width⟩ i = s.rcKept ⟨r, d.lo, d.width⟩ i := by
  intro d hd hrc
  have h := foldl_read_own (F := State.clearField r i) (g := fun a d => a.fld ⟨r, d.lo, d.width⟩ i)
    (val := fun d old => if d.acc = .rc then s.rcKept ⟨r, d.lo, d.width⟩ i else old)
    (fun a => ∀ f, a.rcKept f i = s.rcKept f i) (fun _ _ h => h.symm) (fun a d ha f => ?_) (l := r.fields)
    (fun a d hd e he => ?_) (fun a d hd ha => ?_) r.fields_apart (a := s) (fun _ => rfl) d hd
  · rw [State.clearRead_whole, h, if_pos hrc]
  · unfold State.clearField
    split
    · rw [State.rcKept_clearRc, ha]
    · exact ha f
  · unfold State.clearField
    split
    · exact State.fld_setFld_disjoint _ _ _ _ _ rfl (r.fields_within d hd).2 r.resetNat_lt he
    · rfl
  · unfold State.clearField
    split
    · rw [← ha]
      exact State.fld_setFld_own _ hd i (State.rcKept_lt ..)
    · rfl

/-- Such a read changes the registers and what is noted for reads. -/
theorem State.clearRead_only (s : State) (r : Reg) (i : Nat) :
    s.clearRead r i 0 8 = { s with regs := (s.clearRead r i 0 8).regs, rc := (s.clearRead r i 0 8).rc } := by
  have h : { s.clearRead r i 0 8 with regs := s.regs, rc := s.rc } = s := by
    rw [State.clearRead_whole]
    refine foldl_keeps (State.clearField r i) (fun a => { a with regs := s.regs, rc := s.rc }) r.fields s fun a d _ => ?_
    unfold State.clearField
    split <;> rfl
  exact congrArg (fun x : State => { x with regs := (s.clearRead r i 0 8).regs, rc := (s.clearRead r i 0 8).rc }) h

end Sys2Proof.Machine
end

section
/-! Register accesses (R11, R12, R75, R518, R620 to R629) as commands. -/
namespace Sys2Proof.Machine

/-! What virtual functions may not write (R623). -/

section
variable {s : State} {fn w mask : Nat} (hf : fn ≠ 0)
include hf

theorem State.goBit_refused {r : Reg} (hh : s.holds r = false) (i : Nat) (go : Fld) (closed : State → Option State)
    (busy : State → Bool) (act : State → State) :
    s.goBit fn w mask r i go closed busy act = s.logAccess fn r.offset 2 := by
  simp [State.goBit, hh, hf]

theorem State.writeFlashCtl_refused (hh : s.holds .GLB_FLASH_PROG_CTL = false) :
    s.writeFlashCtl fn w mask = s.logAccess fn (Reg.offset .GLB_FLASH_PROG_CTL) 2 := by
  unfold State.writeFlashCtl State.goWrite
  exact State.goBit_refused hf hh ..

theorem State.writeDrainCtl_refused (hh : s.holds .PIL_DRAIN_CTL = false) :
    s.writeDrainCtl fn w mask = s.logAccess fn (Reg.offset .PIL_DRAIN_CTL) 2 := by
  unfold State.writeDrainCtl State.goClosed
  exact State.goBit_refused hf hh ..

theorem State.writeBistCtl_refused (hh : s.holds .ARY_BIST_CTL = false) :
    s.writeBistCtl fn w mask = s.logAccess fn (Reg.offset .ARY_BIST_CTL) 2 := by
  unfold State.writeBistCtl State.goClosed
  exact State.goBit_refused hf hh ..

theorem State.writeScribeCtl_refused (hh : s.holds .SCB_SCRIBE_CTL = false) :
    s.writeScribeCtl fn w mask = s.logAccess fn (Reg.offset .SCB_SCRIBE_CTL) 2 := by
  unfold State.writeScribeCtl State.goClosed
  exact State.goBit_refused hf hh ..

theorem State.writeWinCtl_refused (hh : s.holds .HST_WIN_CTL = false) :
    s.writeWinCtl fn w mask = s.logAccess fn (Reg.offset .HST_WIN_CTL) 2 := by
  unfold State.writeWinCtl State.goWrite
  exact State.goBit_refused hf hh ..

theorem State.writeBootCtl_refused : s.writeBootCtl fn w mask = s.logAccess fn (Reg.offset .GLB_BOOT_CTL) 2 := by
  simp [State.writeBootCtl, hf]

theorem State.writeTideCtl_refused : s.writeTideCtl fn w mask = s.logAccess fn (Reg.offset .GLB_TIDE_CTL) 2 := by
  simp [State.writeTideCtl, hf]

theorem State.writeQuyCtl_refused : s.writeQuyCtl fn w mask = s.logAccess fn (Reg.offset .QUY_CTL) 2 := by
  simp [State.writeQuyCtl, hf]

theorem State.writeRngCtl_refused : s.writeRngCtl fn w mask = s.logAccess fn (Reg.offset .RNG_CTL) 2 := by
  simp [State.writeRngCtl, hf]

theorem State.writeFilterCtl_refused (hh : s.holds .LRN_FILTER_CTL = false) :
    s.writeFilterCtl fn w mask = s.logAccess fn (Reg.offset .LRN_FILTER_CTL) 2 := by
  simp [State.writeFilterCtl, hh, hf]

theorem State.writeMnfCtl_refused (hh : s.holds .LRN_MNF_CTL = false) :
    s.writeMnfCtl fn w mask = s.logAccess fn (Reg.offset .LRN_MNF_CTL) 2 := by
  simp [State.writeMnfCtl, hh, hf]

theorem State.writeCapturePtr_refused (hh : s.holds .TEL_CAPTURE_PTR = false) :
    s.writeCapturePtr fn w mask = s.logAccess fn (Reg.offset .TEL_CAPTURE_PTR) 2 := by
  simp [State.writeCapturePtr, hh, hf]

/-- A refused go of GLB_MODE_CTL shows in its result. -/
theorem State.writeModeCtl_refused (hg : Fld.GLB_MODE_CTL_go.get (w &&& mask) = 1) :
    s.writeModeCtl fn w mask = (s.logAccess fn (Reg.offset .GLB_MODE_CTL) 2).setFld Fld.GLB_MODE_STATUS_result 7 := by
  simp [State.writeModeCtl, hg, hf]

/-- A refused go of SCB_GLYPH_CTL shows in its result. -/
theorem State.writeGlyphCtl_refused (hh : s.holds .SCB_GLYPH_CTL = false) (hg : Fld.SCB_GLYPH_CTL_go.get (w &&& mask) = 1) :
    s.writeGlyphCtl fn w mask = (s.logAccess fn (Reg.offset .SCB_GLYPH_CTL) 2).setFld Fld.SCB_GLYPH_CTL_result 7 := by
  simp [State.writeGlyphCtl, hh, hg, hf]

end

theorem State.holds_of_awake {s : State} (h : s.power.state ≠ 2) (r : Reg) : s.holds r = false := by
  simp [State.holds, h]

theorem and_fullMask (w : Word64) : w.toNat &&& fullMask = w.toNat := by
  rw [fullMask, Nat.and_two_pow_sub_one_eq_mod, Nat.mod_eq_of_lt w.isLt]

/-- The command runs to the state that it settles. -/
theorem Leaves.of_eq {c : Instr} {s x y : State} (h : exec c s = .next y.settle) (e : y = x) : Leaves c s x := by
  unfold Leaves
  rw [h, e]

theorem Answers.of_eq {c : Instr} {s x y : State} {p : State → Prop} (h : exec c s = .next y.settle) (e : y = x) (hp : p x.settle) :
    Answers c s p := ⟨x.settle, by rw [h, e], hp⟩

/-! The parts of the statement. -/

theorem registerWrite_plain (s : State) (t : Nat) {data : Bytes} (hd : data.length = 8) {r : Reg} (hr : r ∈ plainRegs)
    (hh : (s.at t).holds r = false) (hs : (s.at t).served r 0 = true) :
    let v := fun f : FieldDesc => leNat data / 2 ^ f.lo % 2 ^ f.width
    Answers (.registerWrite t 0 r.offset data) s (fun s' =>
      (∀ f ∈ r.fields, f.acc = .rw →
        s'.fld ⟨r, f.lo, f.width⟩ = (if r.rangeOk f.lo (v f) then v f else s.fld ⟨r, f.lo, f.width⟩)) ∧
      ((∃ f ∈ r.fields, f.acc = .rw ∧ r.rangeOk f.lo (v f) = false) →
        s'.fld Fld.GLB_ACCESS_LOG_count = min (s.fld Fld.GLB_ACCESS_LOG_count + 1) (2 ^ Fld.GLB_ACCESS_LOG_count.width - 1)) ∧
      (∀ (q : Reg) (i : Nat), q.key i ≠ r.key 0 → q.key i ≠ Reg.key .GLB_ACCESS_LOG 0 → s'.word q i = s.word q i) ∧
      s' = { s with
        clock := (s.at t).clock, start := (s.at t).start, regs := s'.regs, rc := s'.rc
        host := { s.host with accessAt := s'.host.accessAt }, pins := s'.pins, ring := s'.ring }) := by
  intro v
  have hl : r.offset ≠ Reg.offset .GLB_ACCESS_LOG := by fin_cases hr <;> decide
  refine Answers.of_eq rfl ((State.writeBar_word (by simp) r.offset_aligned hd).trans
    (State.writeReg_whole (List.mem_cons_of_mem _ hr) hh hs _))
    ⟨fun f hf hrw => ?_, fun ⟨f, hf, hrw, hx⟩ => ?_, fun q i h1 h2 => ?_, ?_⟩
  · rw [State.fld_settle, State.writeWhole_fld _ hl _ f hf]
    simp [Reg.written, hrw, v]
  · rw [State.fld_settle, State.writeWhole_count _ hl ⟨f, hf, by simpa [Reg.exceeds, hrw] using hx⟩, State.fld_at]
  · rw [State.word_settle, State.writeWhole_word_ne _ _ _ h1 h2, State.word_at]
  · have hw := (s.at t).writeWhole_only r (leNat data)
    generalize (s.at t).writeWhole r (leNat data) = y at hw ⊢
    generalize y.regs = regs, y.rc = rc, y.host.accessAt = last at hw
    rw [hw]
    apply State.ext <;> simp

theorem registerWrite_tideStatus (s : State) (t : Nat) {data : Bytes} (hd : data.length = 8)
    (hs : (s.at t).served .GLB_TIDE_STATUS 0 = true) : ∀ f ∈ [Fld.GLB_TIDE_STATUS_pps_lost, Fld.GLB_TIDE_STATUS_step_done],
    Answers (.registerWrite t 0 (Reg.offset .GLB_TIDE_STATUS) data) s (fun s' =>
      (s'.bit f = true ↔ s.bit f = true ∧ (f.get (leNat data) = 0 ∨ f.get ((s.at t).setNow .GLB_TIDE_STATUS 0) = 1)) ∧
      s'.fld Fld.GLB_TIDE_STATUS_phase_err = s.fld Fld.GLB_TIDE_STATUS_phase_err) := by
  intro f hf
  have hh : (s.at t).holds .GLB_TIDE_STATUS = false := by simp [State.holds, Reg.retained, Reg.offset]
  have hw := (s.at t).writeWhole_fld (r := .GLB_TIDE_STATUS) (by decide) (leNat data)
  refine Answers.of_eq rfl ((State.writeBar_word (by simp) (Reg.offset_aligned _) hd).trans
    (State.writeReg_whole List.mem_cons_self hh hs _)) ⟨?_, ?_⟩
  · obtain ⟨d, hdf, hw1c, hone, rfl⟩ : ∃ d ∈ Reg.fields .GLB_TIDE_STATUS, d.acc = .w1c ∧ d.width = 1 ∧
        f = ⟨.GLB_TIDE_STATUS, d.lo, d.width⟩ := by
      fin_cases hf
      · exact ⟨⟨.w1c, 2, 1, 0⟩, by decide, rfl, rfl, rfl⟩
      · exact ⟨⟨.w1c, 3, 1, 0⟩, by decide, rfl, rfl, rfl⟩
    rw [State.bit_settle, State.bit, hw d hdf, State.bit, bne_iff_ne, bne_iff_ne]
    exact Reg.written_w1c_bit _ hw1c hone _ _ (State.fld_lt ..)
  · rw [State.fld_settle]
    exact hw ⟨.ro, 32, 32, 0⟩ (by decide)

theorem latchedRead_low (s : State) (t : Nat) {r : Reg} (hr : r ∈ latchRegs) :
    let v := (s.at t).readWord 0 r 0
    Answers (.latchedRead t 0 r.offset 4) s (fun s' => s'.out = s.out ++ [.readData 0 ((leBytes v 8).take 4)] ∧
      (s'.function 0).latches.get r = some (v / 2 ^ 32) ∧
      s' = { s with
        clock := (s.at t).clock, start := (s.at t).start, out := s'.out, host := s'.host, pins := s'.pins, ring := s'.ring }) := by
  intro v
  obtain ⟨l, hl⟩ := Option.isSome_iff_exists.mp ((Latches.get_isSome ((s.at t).function 0).latches r).mpr hr)
  have ho := r.offset_aligned
  refine Answers.of_eq (x := ((s.at t).setFunction 0 { (s.at t).function 0 with
      latches := ((s.at t).function 0).latches.load r (v / 2 ^ 32) }).emit (.readData 0 ((leBytes v 8).take 4))) rfl
    ((State.readBar_one (by simp) (by omega) (by omega)).trans ?_) ⟨?_, ?_, ?_⟩
  · rw [ho, Nat.sub_zero, State.readReg_latched hl, State.latchRead_low]
  · simp [State.emit]
  · have hf : ∀ x : State, x.settle.function 0 = x.function 0 := fun x => by simp [State.function]
    rw [hf]
    exact (congrArg (fun y : Function => y.latches.get r) (State.function_setFunction (s.at t) 0 _)).trans (Latches.get_load _ hr _)
  · apply State.ext <;> simp

theorem latchedRead_high (s : State) (t : Nat) {r : Reg} {l : Nat} (hl : (s.function 0).latches.get r = some l) :
    Answers (.latchedRead t 0 (r.offset + 4) 4) s (fun s' => s'.out = s.out ++ [.readData 0 (leBytes l 4)] ∧
      s' = { s with clock := (s.at t).clock, start := (s.at t).start, out := s'.out, pins := s'.pins, ring := s'.ring }) := by
  have ho := r.offset_aligned
  have h4 : (r.offset + 4) % 8 = 4 := by omega
  refine Answers.of_eq (x := (s.at t).emit (.readData 0 (leBytes l 4))) rfl
    ((State.readBar_one (by simp) (by omega) (by omega)).trans ?_) ⟨?_, ?_⟩
  · rw [h4, Nat.add_sub_cancel, State.readReg_latched (s := s.at t) hl, State.latchRead_high]
  · simp [State.emit]
  · apply State.ext <;> simp

theorem rcFieldRead_whole (s : State) (t : Nat) {r : Reg} (hl : r ∉ latchRegs) (h1 : r ≠ .TEL_CNT_READ) (h2 : r ≠ .LRN_MNF_WIN3)
    (h3 : r ≠ .FLT_WIN3) (hs : (s.at t).served r (s.regIndex 0 r) = true) :
    Answers (.rcFieldRead t 0 r.offset 8) s (fun s' => s'.out = s.out ++ [.readData 0 (leBytes ((s.at t).readWord 0 r 0) 8)] ∧
      (∀ f ∈ r.fields, f.acc = .rc →
        s'.fld ⟨r, f.lo, f.width⟩ (s.regIndex 0 r) = (s.at t).rcKept ⟨r, f.lo, f.width⟩ (s.regIndex 0 r)) ∧
      (∀ (q : Reg) (i : Nat), q.key i ≠ r.key (s.regIndex 0 r) → s'.word q i = s.word q i) ∧
      s' = { s with
        clock := (s.at t).clock, start := (s.at t).start, regs := s'.regs, rc := s'.rc, out := s'.out, pins := s'.pins
        ring := s'.ring }) := by
  have ho := r.offset_aligned
  have hi : (s.at t).regIndex 0 r = s.regIndex 0 r := by cases r <;> rfl
  generalize hv : (s.at t).readWord 0 r 0 = v
  refine Answers.of_eq (x := ((s.at t).emit (.readData 0 (leBytes v 8))).clearRead r (s.regIndex 0 r) 0 8) rfl
    ((State.readBar_one (by simp) (by omega) (by omega)).trans ?_) ⟨?_, fun f hf hrc => ?_, fun q i hq => ?_, ?_⟩
  · rw [ho, Nat.sub_zero, State.readReg_whole hl h1 h2 h3 (by rw [hi]; exact hs), hi, hv]
  · rw [State.clearRead_only]
    simp [State.emit]
  · rw [State.fld_settle, State.clearRead_fld _ _ _ f hf hrc]
    rfl
  · rw [State.word_settle, State.clearRead_word_ne _ _ _ hq]
    exact State.word_of_regs (by simp) q i
  · have hc := ((s.at t).emit (.readData 0 (leBytes v 8))).clearRead_only r (s.regIndex 0 r)
    generalize ((s.at t).emit (.readData 0 (leBytes v 8))).clearRead r (s.regIndex 0 r) 0 8 = y at hc ⊢
    generalize y.regs = regs, y.rc = rc at hc
    rw [hc]
    apply State.ext <;> simp

/-- A read that returns zeros and changes nothing. -/
theorem rcFieldRead_zeros (s : State) (t : Nat) {fn off : Nat} (hf : s.hasFunction fn = true) (ho : off % 8 = 0)
    (h : (s.at t).readReg fn off 0 8 = (s.at t).emit (.readData fn (zeros 8))) :
    Answers (.rcFieldRead t fn off 8) s (fun s' => s'.out = s.out ++ [.readData fn (zeros 8)] ∧
      s' = { s with clock := (s.at t).clock, start := (s.at t).start, out := s'.out, pins := s'.pins, ring := s'.ring }) := by
  refine Answers.of_eq (x := (s.at t).emit (.readData fn (zeros 8))) rfl
    ((State.readBar_one (s := s.at t) hf (by omega) (by omega)).trans ?_) ⟨?_, ?_⟩
  · rw [ho, Nat.sub_zero, h]
  · simp [State.emit]
  · apply State.ext <;> simp

/-- Settles O14: the parts above, one for each kind of access. A write of a whole word is a walk over the fields of its register, each of
which takes what its access code allows; a read that clears is such a walk too; a virtual function is refused before either. -/
theorem registerAccess : Obligations.RegisterAccess := by
  unfold Obligations.RegisterAccess
  refine ⟨fun s t data hd => ⟨fun r hr hh hs => registerWrite_plain s t hd hr hh hs, registerWrite_tideStatus s t hd,
    fun off ho hn => ?_⟩, fun s t => ⟨fun r hr => ⟨latchedRead_low s t hr, fun l hl => latchedRead_high s t hl⟩,
    fun r _ hl h1 h2 h3 hs => rcFieldRead_whole s t hl h1 h2 h3 hs, fun fn hf hfn r _ hr hv => ?_, fun fn off hfn ho hn => ?_⟩,
    fun s t fn w hf hp => ?_⟩
  · refine Leaves.of_eq rfl ((State.writeBar_word (by simp) ho hd).trans ?_)
    simp [State.writeReg, hn]
  · exact rcFieldRead_zeros s t hfn r.offset_aligned (State.readReg_unreached hf hv hr)
  · exact rcFieldRead_zeros s t hfn ho (State.readReg_none hn _ _ _)
  · have hh := State.holds_of_awake (s := s.at t) hp
    have boot := State.writeBootCtl_refused (s := s.at t) (w := w.toNat) (mask := fullMask) hf
    have flash := State.writeFlashCtl_refused (w := w.toNat) (mask := fullMask) hf (hh _)
    have tide := State.writeTideCtl_refused (s := s.at t) (w := w.toNat) (mask := fullMask) hf
    have drain := State.writeDrainCtl_refused (w := w.toNat) (mask := fullMask) hf (hh _)
    have bist := State.writeBistCtl_refused (w := w.toNat) (mask := fullMask) hf (hh _)
    have filter := State.writeFilterCtl_refused (w := w.toNat) (mask := fullMask) hf (hh _)
    have mnf := State.writeMnfCtl_refused (w := w.toNat) (mask := fullMask) hf (hh _)
    have scribe := State.writeScribeCtl_refused (w := w.toNat) (mask := fullMask) hf (hh _)
    have capture := State.writeCapturePtr_refused (w := w.toNat) (mask := fullMask) hf (hh _)
    have quay := State.writeQuyCtl_refused (s := s.at t) (w := w.toNat) (mask := fullMask) hf
    have ring := State.writeRngCtl_refused (s := s.at t) (w := w.toNat) (mask := fullMask) hf
    have window := State.writeWinCtl_refused (w := w.toNat) (mask := fullMask) hf (hh _)
    refine ⟨.of_eq rfl boot, .of_eq rfl boot, .of_eq rfl flash, .of_eq rfl tide, .of_eq rfl drain, .of_eq rfl drain, .of_eq rfl bist,
      .of_eq rfl filter, .of_eq rfl mnf, .of_eq rfl mnf, .of_eq rfl mnf, .of_eq rfl scribe, .of_eq rfl scribe, .of_eq rfl capture,
      .of_eq rfl quay, .of_eq rfl quay, .of_eq rfl quay, .of_eq rfl ring, .of_eq rfl ring, .of_eq rfl window,
      fun h => .of_eq rfl ?_, fun h => .of_eq rfl ?_⟩
    · exact State.writeModeCtl_refused hf (by rw [and_fullMask, h])
    · exact State.writeGlyphCtl_refused hf (hh _) (by rw [and_fullMask, h])

end Sys2Proof.Machine
end

section
/-! What reads and writes of DRAM leave alone (R546 to R555): issuing commands changes the queues and the controller of the
pseudo-channels alone, and a write or a counted read changes no more than `State.dramAs` names. -/
namespace Sys2Proof.Machine

variable {s x y : State}

/-- A relation that is reflexive and transitive and holds over each action of a walk holds over the whole walk. -/
theorem State.each_of_step {α : Type} {R : State → State → Prop} (refl : ∀ s, R s s) (trans : ∀ {s x y}, R s x → R x y → R s y)
    {f : State → α → State} (hf : ∀ x a, R x (f x a)) (s : State) (xs : List α) : R s (s.each xs f) := by
  unfold State.each
  induction xs generalizing s with
  | nil => exact refl s
  | cons a xs ih => exact trans (hf s a) (ih (f s a))

/-- `s` with the queues, the open rows and the refresh generators of the pseudo-channels as `x` has them. -/
def State.issuesAs (s x : State) : State :=
  { s with
      memQueues := x.memQueues
      dramCtl := { s.dramCtl with
        openRows := x.dramCtl.openRows, generators := x.dramCtl.generators, neighbours := x.dramCtl.neighbours } }

/-- `x` differs from `s` in what commands of the pseudo-channels may change alone. -/
def IssuesOnly (s x : State) : Prop := x = s.issuesAs x

/-- `x` differs from `s` in what a write of DRAM may change alone. -/
def DramOnly (s x : State) : Prop := x = s.dramAs x

theorem IssuesOnly.of_eq (h : x = s.issuesAs x) : IssuesOnly s x := h

theorem IssuesOnly.eq (h : IssuesOnly s x) : x = s.issuesAs x := h

theorem DramOnly.of_eq (h : x = s.dramAs x) : DramOnly s x := h

theorem DramOnly.eq (h : DramOnly s x) : x = s.dramAs x := h

theorem IssuesOnly.refl (s : State) : IssuesOnly s s := rfl

theorem IssuesOnly.trans (h : IssuesOnly s x) (k : IssuesOnly x y) : IssuesOnly s y := by
  unfold IssuesOnly at *
  rw [h] at k
  exact k

theorem IssuesOnly.each {α : Type} {f : State → α → State} (hf : ∀ x a, IssuesOnly x (f x a)) (s : State) (xs : List α) :
    IssuesOnly s (s.each xs f) :=
  State.each_of_step IssuesOnly.refl IssuesOnly.trans hf s xs

theorem IssuesOnly.dram (h : IssuesOnly s x) : x.dram = s.dram := (congrArg State.dram h.eq :)

theorem IssuesOnly.out (h : IssuesOnly s x) : x.out = s.out := (congrArg State.out h.eq :)

theorem IssuesOnly.counters (h : IssuesOnly s x) : x.counters = s.counters := (congrArg State.counters h.eq :)

theorem DramOnly.refl (s : State) : DramOnly s s := rfl

theorem DramOnly.trans (h : DramOnly s x) (k : DramOnly x y) : DramOnly s y := by
  unfold DramOnly at *
  rw [h] at k
  exact k

theorem DramOnly.each {α : Type} {f : State → α → State} (hf : ∀ x a, DramOnly x (f x a)) (s : State) (xs : List α) :
    DramOnly s (s.each xs f) :=
  State.each_of_step DramOnly.refl DramOnly.trans hf s xs

theorem DramOnly.ite {c : Prop} [Decidable c] (h : DramOnly s x) (k : DramOnly s y) : DramOnly s (if c then x else y) := by
  split <;> assumption

theorem IssuesOnly.dramOnly (h : IssuesOnly s x) : DramOnly s x := by
  unfold IssuesOnly at h
  unfold DramOnly
  rw [h]
  rfl

theorem DramOnly.counters (h : DramOnly s x) : x.counters = s.counters := (congrArg State.counters h.eq :)

theorem DramOnly.hot (h : DramOnly s x) : x.hot = s.hot := (congrArg State.hot h.eq :)

/-- The known erasures of a stripe depend on the pseudo-channels and the rebuilds alone (R545). -/
theorem State.erasures_congr (hp : x.dramCtl.pcs = s.dramCtl.pcs) (hr : x.dramCtl.rebuilds = s.dramCtl.rebuilds) (k : Nat)
    (how : DramRead) : x.erasures k how = s.erasures k how := by
  simp only [State.erasures, State.pcErased, State.spareOf, State.pc, hp, hr]
  rfl

theorem State.readEnd_congr (hd : x.dram = s.dram) (hp : x.dramCtl.pcs = s.dramCtl.pcs)
    (hr : x.dramCtl.rebuilds = s.dramCtl.rebuilds) (a : Nat) (how : DramRead) : x.readEnd a how = s.readEnd a how := by
  unfold State.readEnd State.columnsEnd State.returned State.stripe
  rw [State.erasures_congr hp hr, hd]

theorem IssuesOnly.readEnd (h : IssuesOnly s x) (a : Nat) (how : DramRead) : x.readEnd a how = s.readEnd a how :=
  State.readEnd_congr h.dram (congrArg (fun y : State => y.dramCtl.pcs) h.eq :) (congrArg (fun y : State => y.dramCtl.rebuilds) h.eq :)
    a how

/-! The commands of the pseudo-channels. -/

theorem issuesOnly_issueWhile (s : State) (n : Nat) (p : PcQueue → Bool) (fuel : Nat) : IssuesOnly s (s.issueWhile n p fuel) := by
  induction fuel generalizing s with
  | zero => exact .refl s
  | succ fuel ih =>
    unfold State.issueWhile
    dsimp only
    split
    · refine IssuesOnly.trans ?_ (ih _)
      split <;> rfl
    · exact .refl s

theorem issuesOnly_queueRead (s : State) (port n column : Nat) : IssuesOnly s (s.queueRead port n column) := rfl

theorem issuesOnly_queueWrite (s : State) (port n column : Nat) : IssuesOnly s (s.queueWrite port n column) :=
  (issuesOnly_issueWhile s _ _ _).trans rfl

theorem issuesOnly_queueStripe (s : State) (port a n stripe : Nat) : IssuesOnly s (s.queueStripe port a n stripe) := by
  refine IssuesOnly.trans ?_ (.each (fun x c => issuesOnly_queueWrite x port (columnPc stripe c) _) _ _)
  split
  · exact .refl s
  · exact .each (fun x c => issuesOnly_queueRead x port (columnPc stripe c) _) s _

theorem issuesOnly_dramIssue (s : State) (port a n : Nat) : IssuesOnly s (s.dramIssue port a n) :=
  .each (fun x _ => issuesOnly_queueRead x _ _ _) s _

theorem issuesOnly_dramReturn (s : State) (port a n : Nat) : IssuesOnly s (s.dramReturn port a n) :=
  .each (fun x _ => issuesOnly_issueWhile x _ _ _) s _

/-! Counts and events. -/

theorem dramOnly_bump (s : State) (f : Fld) (n i : Nat) : DramOnly s (s.bump f n i) := .of_eq rfl

theorem dramOnly_bumpHold (s : State) (f : Fld) (n i : Nat) : DramOnly s (s.bumpHold f n i) := .of_eq rfl

theorem dramOnly_raiseBits (s : State) (f : Fld) (v i : Nat) : DramOnly s (s.raiseBits f v i) := .of_eq rfl

theorem dramOnly_postFault (s : State) (cls block : Nat) (bytes : Bytes) : DramOnly s (s.postFault cls block bytes) := by
  unfold State.postFault
  extract_lets free kept faults s1 s2 was s3
  have h1 : DramOnly s s1 := .ite (.of_eq rfl) ((dramOnly_bump ..).trans (dramOnly_raiseBits ..))
  have h3 : DramOnly s s3 := (h1.trans (dramOnly_bumpHold ..)).trans (dramOnly_raiseBits ..)
  exact .ite h3 (h3.trans (.of_eq rfl))

theorem dramOnly_countEnd (s : State) (a : Nat) (e : DramEnd) : DramOnly s (s.countEnd a e) := by
  cases e with
  | direct => exact .refl s
  | reconstructed => exact dramOnly_bumpHold ..
  | columnCorrected => exact ((dramOnly_bump ..).trans (dramOnly_raiseBits ..)).trans (dramOnly_postFault ..)
  | uncorrectable => exact ((dramOnly_bump ..).trans (dramOnly_raiseBits ..)).trans (dramOnly_postFault ..)

theorem dramOnly_countFlags (s : State) (stripe : Nat) (how : DramRead) : DramOnly s (s.countFlags stripe how) :=
  .each (fun _ _ => dramOnly_bumpHold ..) s _

theorem dramOnly_countRead (s : State) (a : Nat) (how : DramRead) : DramOnly s (s.countRead a how) :=
  (dramOnly_countFlags s _ how).trans (dramOnly_countEnd ..)

@[simp] theorem State.countEnd_dram (s : State) (a : Nat) (e : DramEnd) : (s.countEnd a e).dram = s.dram := by
  cases e <;> simp [State.countEnd, State.memoryEvent]

@[simp] theorem State.countEnd_dramCtl (s : State) (a : Nat) (e : DramEnd) : (s.countEnd a e).dramCtl = s.dramCtl := by
  cases e <;> simp [State.countEnd, State.memoryEvent]

@[simp] theorem State.countFlags_dram (s : State) (stripe : Nat) (how : DramRead) : (s.countFlags stripe how).dram = s.dram :=
  foldl_keeps _ State.dram _ _ fun _ _ _ => State.bumpHold_dram ..

@[simp] theorem State.countFlags_out (s : State) (stripe : Nat) (how : DramRead) : (s.countFlags stripe how).out = s.out :=
  foldl_keeps _ State.out _ _ fun _ _ _ => State.bumpHold_out ..

@[simp] theorem State.countRead_dram (s : State) (a : Nat) (how : DramRead) : (s.countRead a how).dram = s.dram := by
  simp [State.countRead]

/-- A read that ends directly reports nothing (R547). -/
theorem State.countRead_out {a : Nat} {how : DramRead} (h : s.readEnd a how = .direct) : (s.countRead a how).out = s.out := by
  unfold State.countRead
  rw [h]
  exact State.countFlags_out ..

/-! Writes. -/

theorem dramOnly_spoil (s : State) (a n : Nat) : DramOnly s (s.spoil a n) := by
  refine .ite (.refl s) (.each (fun x k => ?_) s _)
  exact .ite (.refl x) (DramOnly.trans (.of_eq rfl) (dramOnly_countEnd ..))

theorem dramOnly_dramWrite (s : State) (a : Nat) (bs : Bytes) : DramOnly s (s.dramWrite a bs) := by
  have h := (dramOnly_spoil s a bs.length).trans
    (IssuesOnly.each (fun x k => issuesOnly_queueStripe x (dramPort a) a bs.length k) _ (stripesOf a bs.length)).dramOnly
  exact h.trans rfl

/-- What a write leaves in DRAM: its bytes, over what it finds (R548). -/
theorem State.dramWrite_dram (s : State) (a : Nat) (bs : Bytes) : (s.dramWrite a bs).dram = (s.spoil a bs.length).dram.write a bs := by
  have h := IssuesOnly.each (fun x k => issuesOnly_queueStripe x (dramPort a) a bs.length k) (s.spoil a bs.length)
    (stripesOf a bs.length)
  exact congrArg (fun m : Memory => m.write a bs) h.dram

theorem State.spoilStripe_dramCtl (s : State) (a n k : Nat) : (s.spoilStripe a n k).dramCtl = s.dramCtl := by
  unfold State.spoilStripe
  dsimp only
  split <;> simp

theorem State.spoilStripe_dram (s : State) (a n k : Nat) : (s.spoilStripe a n k).dram =
    if (decide (a ≤ 256 * k) && decide (256 * k + 256 ≤ a + n)) ||
        (decodeStripe (s.returned k DramRead.clean) (s.erasures k DramRead.clean)).isSome then s.dram
    else ((s.erasures k DramRead.clean).filter (fun c => c < 8)).foldl (fun m c => m.write (256 * k + 32 * c) (zeros 32)) s.dram := by
  unfold State.spoilStripe
  dsimp only
  rw [apply_ite State.dram]
  simp only [State.countEnd_dram]

theorem State.spoilStripe_dram_congr (hd : x.dram = s.dram) (hc : x.dramCtl = s.dramCtl) (a n k : Nat) :
    (x.spoilStripe a n k).dram = (s.spoilStripe a n k).dram := by
  have hr : x.returned k DramRead.clean = s.returned k DramRead.clean := by
    unfold State.returned State.stripe
    rw [hd]
  rw [State.spoilStripe_dram, State.spoilStripe_dram, hr, State.erasures_congr (congrArg Dram.pcs hc) (congrArg Dram.rebuilds hc), hd]

/-- What a write finds in DRAM depends on DRAM and its controller alone. -/
theorem State.spoil_dram_congr (hd : x.dram = s.dram) (hc : x.dramCtl = s.dramCtl) (a n : Nat) :
    (x.spoil a n).dram = (s.spoil a n).dram := by
  unfold State.spoil
  rw [hc, apply_ite State.dram, apply_ite State.dram, hd]
  refine congrArg _ ?_
  unfold State.each
  generalize stripesOf a n = ks
  induction ks generalizing x s with
  | nil => exact hd
  | cons k ks ih =>
    exact ih (State.spoilStripe_dram_congr hd hc a n k) (by simp [State.spoilStripe_dramCtl, hc])

end Sys2Proof.Machine
end

section
/-! The hot store (R258 to R263): what a change of associated data that is written, a line that is written and a demotion leave, and the
five commands that make them. -/
namespace Sys2Proof.Machine

variable {s : State}

theorem Table.find_modify_same {α : Type} (m : Table α) (k : Nat) (f : α → α) : (m.modify k f).find k = (m.find k).map f := by
  induction m with
  | nil => rfl
  | cons p rest ih =>
    obtain ⟨j, v⟩ := p
    unfold Table.modify at ih ⊢
    by_cases h : j = k <;> simp [Table.find, h, ih]

/-- Settling changes the pins and the gates alone. -/
theorem State.settle_only (s : State) : s.settle = { s with pins := s.settle.pins, ring := s.settle.ring } := rfl

/-! A change of associated data. -/

theorem State.writeAd_only (s : State) (c : AdChange) : s.writeAd c = { s.dramWrite (adAddr c.len) c.data with hot := (s.writeAd c).hot } := by
  unfold State.writeAd
  dsimp only
  split <;> rfl

theorem State.writeAd_tags (s : State) (c : AdChange) : (s.writeAd c).hot.tags = s.hot.tags := by
  have h := (dramOnly_dramWrite s (adAddr c.len) c.data).hot
  unfold State.writeAd
  dsimp only
  split <;> simp [h]

/-- The entry's own line takes the new data (R262). -/
theorem State.writeAd_line {c : AdChange} {g : HotTag} {l : HotLine} (hg : s.hot.tags.find c.len = some g)
    (hl : s.hot.lines.find (hotKey (hotSet c.len) g.way) = some l) (hn : l.len = c.len) :
    (s.writeAd c).hot.lines.find (hotKey (hotSet c.len) g.way) = some { l with data := c.data } := by
  have h := (dramOnly_dramWrite s (adAddr c.len) c.data).hot
  simp [State.writeAd, hg, h, Table.find_modify_same, hl, hn]

/-- The one change that waits, when it has fallen due and its stroke has room, is written (R262). -/
theorem adChangeWrite_one (t : Nat) {c : AdChange} (hc : s.hot.adChanges = [c])
    (hlo : adWindowStart s.mode.mode ≤ ((s.at t).now : Int) - (c.tide * 256 : Nat))
    (hhi : ((s.at t).now : Int) - (c.tide * 256 : Nat) ≤ 95 ∨ c.tide < s.clock.grid)
    (hroom : s.hot.adAt = (s.at t).now → s.hot.adNow < 8) :
    ∃ n, exec (.adChangeWrite t) s = .next ({ (s.at t).writeAd c with
      hot := { ((s.at t).writeAd c).hot with adChanges := [], adAt := (s.at t).now, adNow := n } }).settle := by
  have hfits : (adWindowStart (s.at t).mode.mode ≤ ((s.at t).now : Int) - (c.tide * 256 : Nat) &&
      (((s.at t).now : Int) - (c.tide * 256 : Nat) ≤ 95 || c.tide < (s.at t).clock.grid)) = true := by
    have hg : (s.at t).clock.grid = s.clock.grid := rfl
    simp only [State.at_mode, hg, hlo, decide_true, Bool.true_and, Bool.or_eq_true, decide_eq_true_eq]
    exact hhi
  change ∃ n, execAdChangeWrite t s = _
  unfold execAdChangeWrite
  extract_lets s0 fits done out rest s1
  have hdone : ∃ n, 8 - done = n + 1 := by
    refine Nat.exists_eq_succ_of_ne_zero ?_
    unfold done
    split
    case isTrue h => have := hroom h; change 8 - s.hot.adNow ≠ 0; omega
    case isFalse => omega
  obtain ⟨n, hn⟩ := hdone
  have hout : out = [c] := by
    unfold out
    rw [hn, State.at_hot, hc, List.filter_cons_of_pos (p := fits) hfits, List.filter_nil, List.take_succ_cons, List.take_nil]
  have hrest : rest = [] := by
    unfold rest
    rw [hout, State.at_hot, hc]
    simp
  have hs1 : s1 = (s.at t).writeAd c := by
    unfold s1
    rw [hout]
    rfl
  refine ⟨done + out.length, ?_⟩
  change Host.Outcome.next ({ s1 with hot := { s1.hot with adChanges := rest, adAt := s0.now, adNow := _ } }).settle = _
  rw [hs1, hrest]

/-- The write leaves everything but the hot store and what a write of DRAM changes. -/
theorem adChangeWrite_frame {t : Nat} {x : State} (h : DramOnly (s.at t) x) (k : HotStore) :
    ({ x with hot := k }).settle = ({ s with
      clock := (s.at t).clock, start := (s.at t).start, hot := k, pins := ({ x with hot := k }).settle.pins
      ring := ({ x with hot := k }).settle.ring }).dramAs ({ x with hot := k }).settle := by
  rw [h.eq]
  rfl

theorem adChangeWrite_writes (t : Nat) {c : AdChange} (hc : s.hot.adChanges = [c])
    (hlo : adWindowStart s.mode.mode ≤ ((s.at t).now : Int) - (c.tide * 256 : Nat))
    (hhi : ((s.at t).now : Int) - (c.tide * 256 : Nat) ≤ 95 ∨ c.tide < s.clock.grid)
    (hroom : s.hot.adAt = (s.at t).now → s.hot.adNow < 8) :
    Answers (.adChangeWrite t) s (fun s' =>
      s'.hot.adChanges = [] ∧ s'.dram = ((s.at t).spoil (adAddr c.len) c.data.length).dram.write (adAddr c.len) c.data ∧
      (∀ g l, s.hot.tags.find c.len = some g → s.hot.lines.find (hotKey (hotSet c.len) g.way) = some l → l.len = c.len →
        s'.hot.lines.find (hotKey (hotSet c.len) g.way) = some { l with data := c.data }) ∧
      s'.hot.tags = s.hot.tags ∧ s' = ({ s with
        clock := (s.at t).clock, start := (s.at t).start, hot := s'.hot, pins := s'.pins, ring := s'.ring }).dramAs s') := by
  obtain ⟨n, hn⟩ := adChangeWrite_one t hc hlo hhi hroom
  refine ⟨_, hn, rfl, ?_, fun g l hg hl hlen => ?_, ?_, ?_⟩
  · rw [State.settle_dram, State.writeAd_only]
    exact State.dramWrite_dram ..
  · rw [State.settle_hot]
    exact State.writeAd_line (s := s.at t) hg hl hlen
  · rw [State.settle_hot]
    exact State.writeAd_tags ..
  · rw [State.writeAd_only]
    exact adChangeWrite_frame (dramOnly_dramWrite ..) _

/-! A line that is written, and a demotion. -/

/-- Nothing has changed but the time, the hot store, and what settles with every command. -/
def HotOnly (s s' : State) (t : Nat) : Prop :=
  s' = { s with clock := (s.at t).clock, start := (s.at t).start, hot := s'.hot, pins := s'.pins, ring := s'.ring }

/-- The entry has its line in a way, with its data in force, and its tag from the next boundary (R35, R258). -/
def State.placedIn (s : State) (len w : Nat) (pinned : Bool) (s' : State) : Prop :=
  s'.hot.lines.find (hotKey (hotSet len) w) = some ⟨len, pinned, 0, s.adFor len s.clock.grid, none⟩ ∧
  s'.hot.tags.find len = some ⟨w, s.clock.grid + 1, none⟩

theorem hotOnly_settle (s : State) (t : Nat) (k : HotStore) : HotOnly s ({ s.at t with hot := k }).settle t := rfl

theorem State.placedIn_hotWrite (s : State) (t len w : Nat) (pinned : Bool) (pinWait : List Nat) :
    let x := (s.at t).hotWrite len w pinned 0 ((s.at t).adFor len (s.at t).clock.grid)
    s.placedIn len w pinned ({ s.at t with hot := { x.hot with pinWait := pinWait } }).settle := by
  constructor
  · exact Table.find_put_same ..
  · exact Table.find_put_same ..

theorem hotPromotion_places (t : Nat) {len w : Nat} {e : Entry} {tb : TableRec} (he : s.entry len = some e)
    (ht : s.table e.tid = some tb) (hw : (s.at t).inWrite = true) (hen : s.bit Fld.PIL_HOT_CTL_auto_en = true) (hhot : tb.df.hot = 0)
    (had : tb.df.adBytes ≠ 0) (hlive : e.state = .live) (hp : s.adPending len = false) (htag : s.hot.tags.has len = false)
    (hth : s.fld Fld.PIL_HOT_CTL_promote_thresh ≤ s.hot.filter.findD len 0) (hpos : 0 < s.hot.filter.findD len 0)
    (hway : s.autoWay (hotSet len) = some w) :
    exec (.hotPromotion t len) s = .next ((s.at t).hotWrite len w false 0 ((s.at t).adFor len (s.at t).clock.grid)).settle := by
  have he' : (s.at t).entry len = some e := he
  have ht' : (s.at t).table e.tid = some tb := ht
  have hp' : (s.at t).adPending len = false := hp
  have hway' : (s.at t).autoWay (hotSet len) = some w := hway
  have hpos' : s.hot.filter.findD len 0 ≠ 0 := by omega
  change execHotPromotion t len s = _
  simp [execHotPromotion, he', ht', hw, hen, hhot, had, hlive, hp', htag, hpos', hway', Nat.not_lt.mpr hth]

theorem pinnedLineFill_places (t : Nat) {len w : Nat} (hw : (s.at t).inWrite = true)
    (hfirst : s.hot.pinWait.find? (fun n => hotSet n = hotSet len) = some len) (hp : s.adPending len = false)
    (hway : s.freeWay (hotSet len) 4 = some w) :
    let x := (s.at t).hotWrite len w true 0 ((s.at t).adFor len (s.at t).clock.grid)
    exec (.pinnedLineFill t len) s = .next
      ({ x with hot := { x.hot with pinWait := s.hot.pinWait.filter (fun n => n != len) } }).settle := by
  have hp' : (s.at t).adPending len = false := hp
  have hway' : (s.at t).freeWay (hotSet len) 4 = some w := hway
  change execPinnedLineFill t len s = _
  simp only [execPinnedLineFill, State.at_hot, hw, hfirst, hp', hway', bne_self_eq_false, Bool.not_true, Bool.or_self,
    Bool.false_eq_true, if_false]
  rfl

/-- A demotion of an entry with a tag: the tag clears, and its line may be rewritten, at the next boundary (R261). -/
theorem State.hotDemote_of_tag {len : Nat} {g : HotTag} (hg : s.hot.tags.find len = some g) :
    s.hotDemote len = { s with hot := { s.hot with
      tags := s.hot.tags.put len { g with clearFrom := some (s.clock.grid + 1) }
      lines := s.hot.lines.modify (hotKey (hotSet len) g.way) (fun l =>
        if l.len = len then { l with freeFrom := some (s.clock.grid + 1) } else l) } } := by
  simp only [State.hotDemote, hg]

theorem hotWayDemotion_demotes (t : Nat) {k : Nat} {l : HotLine} (hw : (s.at t).inWrite = true)
    (hm : s.mode.pending = some 5) (hprep : s.mode.preparing = true) (hl : s.hot.lines = [(k, l)]) (hk : 4 ≤ k % 8)
    (hfree : l.freeFrom = none) (hp : s.adPending l.len = false) :
    exec (.hotWayDemotion t) s = .next ((s.at t).hotDemote l.len).settle := by
  have hp' : (s.at t).adPending l.len = false := hp
  change execHotWayDemotion t s = _
  simp [execHotWayDemotion, hw, hm, hprep, hl, hk, hfree, hp', State.each]

/-! The end of a decay period. -/

theorem hotDecay_ends (h : s.hot.decayStart + s.decayPeriod ≤ s.clock.grid) :
    Leaves .hotDecay s { s with hot := { s.hot with
      lines := s.hot.lines.map (fun (p : Nat × HotLine) => (p.1, { p.2 with warmth := p.2.warmth / 2 })), filter := []
      decayStart := s.clock.grid } } := by
  refine Leaves.of_eq rfl (if_neg ?_)
  omega

theorem hotDecay_early (h : s.clock.grid < s.hot.decayStart + s.decayPeriod) : Leaves .hotDecay s s :=
  Leaves.of_eq rfl (if_pos h)

/-- Settles O25: each command takes the one branch of its meaning that its hypotheses name, and what that branch leaves is read off the
write of DRAM, of a line or of a tag. -/
theorem hotStore : Obligations.HotStore := by
  unfold Obligations.HotStore
  intro s t
  extract_lets only placed
  refine ⟨fun c hc hlo hhi hroom => adChangeWrite_writes t hc hlo hhi hroom,
    fun len w e tb he ht hw hen hhot had hlive hp htag hth hpos hway =>
      ⟨_, hotPromotion_places t he ht hw hen hhot had hlive hp htag hth hpos hway, ?_⟩,
    fun len w hw hfirst hp hway => ⟨_, pinnedLineFill_places t hw hfirst hp hway, ?_, rfl⟩,
    hotDecay_ends, hotDecay_early,
    fun k l g hw hm hprep hl hk hfree hp hg hkey => ⟨_, hotWayDemotion_demotes t hw hm hprep hl hk hfree hp, ?_⟩⟩
  · obtain ⟨hline, htag'⟩ := s.placedIn_hotWrite t len w false s.hot.pinWait
    exact ⟨hline, htag', hotOnly_settle ..⟩
  · obtain ⟨hline, htag'⟩ := s.placedIn_hotWrite t len w true (s.hot.pinWait.filter (fun n => n != len))
    exact ⟨hline, htag', hotOnly_settle ..⟩
  · rw [State.hotDemote_of_tag (s := s.at t) hg]
    refine ⟨?_, Table.find_put_same .., hotOnly_settle ..⟩
    simp [hl, hkey, Table.modify]
    rfl

end Sys2Proof.Machine
end

section
/-! Hit counters (R31 to R34, R370 to R377): how a narrow counter, a place and a stamp read after each operation on them, and the six
commands of the counter engine. -/
namespace Sys2Proof.Machine

variable {s x : State}

/-! The parts of a count are read from the counters, and from DRAM. -/

theorem State.narrowCount_congr (h : x.counters = s.counters) (len : Nat) : x.narrowCount len = s.narrowCount len := by
  unfold State.narrowCount
  rw [h]

theorem State.foldPlace_congr (h : x.counters = s.counters) (len : Nat) : x.foldPlace len = s.foldPlace len := by
  unfold State.foldPlace
  rw [h]

theorem State.wide_congr (h : x.dram = s.dram) (len : Nat) : x.wide len = s.wide len := by
  unfold State.wide
  rw [h]

@[simp] theorem State.narrowCount_settle (s : State) (len : Nat) : s.settle.narrowCount len = s.narrowCount len :=
  State.narrowCount_congr (State.settle_counters s) len

@[simp] theorem State.foldPlace_settle (s : State) (len : Nat) : s.settle.foldPlace len = s.foldPlace len :=
  State.foldPlace_congr (State.settle_counters s) len

@[simp] theorem State.wide_settle (s : State) (len : Nat) : s.settle.wide len = s.wide len := State.wide_congr (State.settle_dram s) len

@[simp] theorem State.countOf_settle (s : State) (len : Nat) : s.settle.countOf len = s.countOf len := by
  simp only [State.countOf, State.foldPlace_settle, State.narrowCount_settle, State.wide_settle]

@[simp] theorem State.stampOf_settle (s : State) (len : Nat) : s.settle.stampOf len = s.stampOf len := by
  unfold State.stampOf
  rw [State.settle_counters]

theorem State.countOf_of_none {len : Nat} (h : s.foldPlace len = none) : s.countOf len = (s.wide len + s.narrowCount len) % 2 ^ 64 := by
  simp only [State.countOf, h]

theorem State.countOf_of_add {len : Nat} {p : FoldPlace} (h : s.foldPlace len = some p) (hp : p.isSet = false) :
    s.countOf len = (s.wide len + p.amount + s.narrowCount len) % 2 ^ 64 := by
  simp [State.countOf, h, hp]

theorem State.countOf_of_set {len : Nat} {p : FoldPlace} (h : s.foldPlace len = some p) (hp : p.isSet = true) :
    s.countOf len = (p.amount + s.narrowCount len) % 2 ^ 64 := by
  simp [State.countOf, h, hp]

@[simp] theorem State.narrowCount_setNarrow_same (s : State) (len v : Nat) : (s.setNarrow len v).narrowCount len = v := by
  unfold State.setNarrow State.narrowCount
  by_cases h : v = 0 <;> simp [h]

theorem State.narrowCount_setNarrow_ne (s : State) {len n : Nat} (v : Nat) (h : n ≠ len) :
    (s.setNarrow len v).narrowCount n = s.narrowCount n := by
  unfold State.setNarrow State.narrowCount
  by_cases hv : v = 0
  · simp [hv, Table.findD_del_ne _ _ _ _ h]
  · simp [hv, Table.findD_put_ne _ _ _ _ _ h]

/-! Increments and stamps. -/

/-- The narrow counter after an increment: one more, or held at its greatest value with `sat` raised (R375). -/
def State.countOne (s : State) (len : Nat) : State :=
  if 65535 ≤ s.narrowCount len then s.raise Fld.TEL_CNT_STATUS_sat else s.setNarrow len (s.narrowCount len + 1)

/-- An increment counts, and may put the entry into the fold queue (R371). -/
theorem State.increment_eq (s : State) (len : Nat) : ∃ q, s.increment len =
    { s.countOne len with counters := { (s.countOne len).counters with foldQueue := q } } := by
  unfold State.increment
  extract_lets n s1
  split
  · exact ⟨_, rfl⟩
  · exact ⟨s1.counters.foldQueue, rfl⟩

theorem State.countOne_frame (s : State) (len : Nat) : (s.countOne len).counters.stamps = s.counters.stamps ∧
    (s.countOne len).counters.places = s.counters.places ∧ (s.countOne len).counters.updates = s.counters.updates ∧
    (s.countOne len).dram = s.dram ∧ (s.countOne len).numbers = s.numbers := by
  unfold State.countOne
  split <;> exact ⟨rfl, rfl, rfl, rfl, rfl⟩

theorem State.countOne_narrow_ne (s : State) {len n : Nat} (h : n ≠ len) : (s.countOne len).narrowCount n = s.narrowCount n := by
  unfold State.countOne
  split
  · rfl
  · exact s.narrowCount_setNarrow_ne _ h

theorem State.countOne_of_lt {len : Nat} (h : s.narrowCount len < 65535) : s.countOne len = s.setNarrow len (s.narrowCount len + 1) :=
  if_neg (by omega)

theorem State.countOne_of_ge {len : Nat} (h : 65535 ≤ s.narrowCount len) : s.countOne len = s.raise Fld.TEL_CNT_STATUS_sat := if_pos h

/-- An update that is applied: the entry's stamp and count. -/
theorem State.applyUpdate_current {u : HitUpdate} (h : s.numbers.gens.findD u.len 0 = u.gen) : ∃ q, s.applyUpdate u =
    { (s.stamp u.len).countOne u.len with counters := { ((s.stamp u.len).countOne u.len).counters with foldQueue := q } } := by
  unfold State.applyUpdate
  rw [if_pos h]
  exact State.increment_eq _ _

theorem State.applyUpdate_stale {u : HitUpdate} (h : s.numbers.gens.findD u.len 0 ≠ u.gen) : s.applyUpdate u = s := if_neg h

/-- What an update leaves alone, whether it is applied or discarded (R33). -/
theorem State.applyUpdate_frame (s : State) (u : HitUpdate) : (s.applyUpdate u).counters.updates = s.counters.updates ∧
    (∀ n, n ≠ u.len → (s.applyUpdate u).narrowCount n = s.narrowCount n ∧ (s.applyUpdate u).stampOf n = s.stampOf n) ∧
    (s.applyUpdate u).counters.places = s.counters.places ∧ (s.applyUpdate u).dram = s.dram ∧ (s.applyUpdate u).numbers = s.numbers := by
  by_cases h : s.numbers.gens.findD u.len 0 = u.gen
  · obtain ⟨q, hq⟩ := State.applyUpdate_current h
    obtain ⟨hstamps, hplaces, hupd, hdram, hnum⟩ := (s.stamp u.len).countOne_frame u.len
    rw [hq]
    refine ⟨hupd, fun n hn => ⟨(s.stamp u.len).countOne_narrow_ne hn, ?_⟩, hplaces, hdram, hnum⟩
    exact (congrArg (fun m : Table Nat => m.findD n 0) hstamps).trans (Table.findD_put_ne _ _ _ _ _ hn)
  · rw [State.applyUpdate_stale h]
    exact ⟨rfl, fun _ _ => ⟨rfl, rfl⟩, rfl, rfl, rfl⟩

/-- An update of the generation in force stamps the entry (R306). -/
theorem State.applyUpdate_stamp {u : HitUpdate} (h : s.numbers.gens.findD u.len 0 = u.gen) :
    (s.applyUpdate u).stampOf u.len = s.learning.epoch := by
  obtain ⟨q, hq⟩ := State.applyUpdate_current h
  rw [hq]
  exact (congrArg (fun m : Table Nat => m.findD u.len 0) ((s.stamp u.len).countOne_frame u.len).1).trans (Table.findD_put_same _ _ _ _)

/-- It counts one while the narrow counter has room (R371). -/
theorem State.applyUpdate_counts {u : HitUpdate} (h : s.numbers.gens.findD u.len 0 = u.gen) (hn : s.narrowCount u.len < 65535) :
    (s.applyUpdate u).narrowCount u.len = s.narrowCount u.len + 1 := by
  obtain ⟨q, hq⟩ := State.applyUpdate_current h
  rw [hq, State.countOne_of_lt (s := s.stamp u.len) hn]
  exact State.narrowCount_setNarrow_same (s.stamp u.len) u.len (s.narrowCount u.len + 1)

/-- Where it has none, the count stays and `sat` is raised (R375). -/
theorem State.applyUpdate_saturates {u : HitUpdate} (h : s.numbers.gens.findD u.len 0 = u.gen) (hn : 65535 ≤ s.narrowCount u.len) :
    (s.applyUpdate u).narrowCount u.len = s.narrowCount u.len ∧ (s.applyUpdate u).bit Fld.TEL_CNT_STATUS_sat = true := by
  obtain ⟨q, hq⟩ := State.applyUpdate_current h
  rw [hq, State.countOne_of_ge (s := s.stamp u.len) hn]
  constructor
  · rfl
  · exact State.bit_raise_same (s.stamp u.len) Fld.TEL_CNT_STATUS_sat 0 rfl (by decide) (by decide)

/-- The whole count of an entry without a place rises by one with its narrow counter. -/
theorem State.applyUpdate_count {u : HitUpdate} (h : s.numbers.gens.findD u.len 0 = u.gen) (hn : s.narrowCount u.len < 65535)
    (hp : s.foldPlace u.len = none) (hsum : s.wide u.len + s.narrowCount u.len + 1 < 2 ^ 64) :
    (s.applyUpdate u).countOf u.len = s.countOf u.len + 1 := by
  obtain ⟨-, -, hplaces, hdram, -⟩ := s.applyUpdate_frame u
  have hp' : (s.applyUpdate u).foldPlace u.len = none := by
    unfold State.foldPlace at hp ⊢
    rw [hplaces, hp]
  rw [State.countOf_of_none hp', State.countOf_of_none hp, State.applyUpdate_counts h hn, State.wide_congr hdram]
  omega

/-- Outside the slack the one update that waits and is due is applied (R31, R34). -/
theorem State.applyUpdates_one {u : HitUpdate} (hs : s.inSlack = false) (hu : s.counters.updates = [u]) (hdue : u.due ≤ s.now)
    (hroom : s.counters.appliedAt = s.now → s.counters.appliedNow.length < 64) :
    ∃ a, s.applyUpdates = ({ s with counters := { s.counters with
      updates := [], appliedAt := s.now, appliedNow := a } }).applyUpdate u := by
  obtain ⟨n, hn⟩ : ∃ n, 64 - (if s.counters.appliedAt = s.now then s.counters.appliedNow else []).length = n + 1 := by
    refine Nat.exists_eq_succ_of_ne_zero ?_
    split
    case isTrue h => have := hroom h; omega
    case isFalse => simp
  refine ⟨(if s.counters.appliedAt = s.now then s.counters.appliedNow else []) ++
    [if s.numbers.gens.findD u.len 0 = u.gen then u.len else 2 ^ 24], ?_⟩
  simp [State.applyUpdates, hs, hu, hdue, hn, State.each]

/-- What HIT_UPDATE_APPLY does with the one update that is due. -/
theorem hitUpdateApply_one (t : Nat) {u : HitUpdate} (hs : (s.at t).inSlack = false) (hu : s.counters.updates = [u])
    (hdue : u.due ≤ (s.at t).now) (hroom : s.counters.appliedAt = (s.at t).now → s.counters.appliedNow.length < 64) :
    Answers (.hitUpdateApply t) s (fun s' =>
      s'.counters.updates = [] ∧
      (s.numbers.gens.findD u.len 0 = u.gen → s'.stampOf u.len = s.learning.epoch ∧
        (s.narrowCount u.len < 65535 → s'.narrowCount u.len = s.narrowCount u.len + 1 ∧
          (s.foldPlace u.len = none → s.wide u.len + s.narrowCount u.len + 1 < 2 ^ 64 → s'.countOf u.len = s.countOf u.len + 1)) ∧
        (65535 ≤ s.narrowCount u.len → s'.narrowCount u.len = s.narrowCount u.len ∧ s'.bit Fld.TEL_CNT_STATUS_sat = true)) ∧
      (s.numbers.gens.findD u.len 0 ≠ u.gen → s'.stampOf u.len = s.stampOf u.len ∧ s'.narrowCount u.len = s.narrowCount u.len) ∧
      (∀ n, n ≠ u.len → s'.narrowCount n = s.narrowCount n ∧ s'.stampOf n = s.stampOf n) ∧
      s'.counters.places = s.counters.places ∧ s'.dram = s.dram ∧ s'.numbers = s.numbers) := by
  obtain ⟨a, ha⟩ := State.applyUpdates_one hs hu hdue hroom
  refine Answers.of_eq rfl ha ?_
  generalize hy : ({ s.at t with counters := { (s.at t).counters with
    updates := [], appliedAt := (s.at t).now, appliedNow := a } } : State) = y
  have hcounts : y.counters.updates = [] ∧ y.numbers = s.numbers ∧ y.learning = s.learning ∧ y.dram = s.dram ∧
      y.counters.places = s.counters.places := by
    subst hy
    exact ⟨rfl, rfl, rfl, rfl, rfl⟩
  have hreads : (∀ n, y.narrowCount n = s.narrowCount n) ∧ (∀ n, y.stampOf n = s.stampOf n) ∧ y.foldPlace u.len = s.foldPlace u.len ∧
      y.wide u.len = s.wide u.len ∧ y.countOf u.len = s.countOf u.len := by
    subst hy
    exact ⟨fun _ => rfl, fun _ => rfl, rfl, rfl, rfl⟩
  obtain ⟨hupd, hnum, hlearn, hdram, hplaces⟩ := hcounts
  obtain ⟨hnarrow, hstamp, hplace, hwide, hcount⟩ := hreads
  obtain ⟨fupd, fother, fplaces, fdram, fnum⟩ := y.applyUpdate_frame u
  rw [← hnum, ← hlearn, ← hdram, ← hplaces, ← hplace, ← hwide, ← hcount, ← hupd]
  simp only [← hnarrow, ← hstamp, State.settle_counters, State.settle_dram, State.settle_numbers, State.stampOf_settle,
    State.narrowCount_settle, State.countOf_settle, State.bit_settle]
  exact ⟨fupd, fun hg => ⟨State.applyUpdate_stamp hg,
      fun hn => ⟨State.applyUpdate_counts hg hn, State.applyUpdate_count hg hn⟩,
      State.applyUpdate_saturates hg⟩,
    fun hg => by rw [State.applyUpdate_stale hg]; exact ⟨rfl, rfl⟩, fother, fplaces, fdram, fnum⟩

/-! Folds. -/

/-- The state of a fold of an entry without a place before its count and its stroke are noted (R371). -/
def State.foldRead (s : State) (len : Nat) : State := (s.setNarrow len 0).dramIssue 5 (wideAddr len) 8

theorem State.foldRead_counters (s : State) (len : Nat) : (s.foldRead len).counters = (s.setNarrow len 0).counters :=
  (issuesOnly_dramIssue (s.setNarrow len 0) _ _ _).counters

theorem State.foldRead_dram (s : State) (len : Nat) : (s.foldRead len).dram = s.dram :=
  (issuesOnly_dramIssue (s.setNarrow len 0) _ _ _).dram

/-- In the window of folds the first entry of the queue, without a place, takes one (R371). -/
theorem fold_first (t : Nat) {len : Nat} {rest : List Nat} (hq : s.counters.foldQueue = len :: rest) (haw : s.awake = true)
    (hlo : s.params.slackAt ≤ (s.at t).clock.stroke) (hhi : (s.at t).clock.stroke < s.params.slackAt + 8)
    (hat : s.counters.foldAt ≠ some (s.at t).now) (hp : s.foldPlace len = none) (hroom : s.counters.places.length < 16) :
    ∃ a, exec (.fold t) s = .next (({ (s.at t).foldRead len with counters := { ((s.at t).foldRead len).counters with
      foldQueue := rest, places := s.counters.places ++ [FoldPlace.mk len false (s.narrowCount len) (some (s.wide len))],
      foldAt := some a } }).bump Fld.TEL_CNT_STATUS_folds).settle := by
  have haw' : (s.at t).awake = true := haw
  have hlo' : (s.at t).params.slackAt ≤ (s.at t).clock.stroke := hlo
  have hhi' : (s.at t).clock.stroke < (s.at t).params.slackAt + 8 := hhi
  have hp' : (s.at t).foldPlace len = none := hp
  refine ⟨((s.at t).foldRead len).now, ?_⟩
  change execFold t s = _
  have hopen : (!((s.at t).awake && (s.at t).params.slackAt ≤ (s.at t).clock.stroke &&
      (s.at t).clock.stroke < (s.at t).params.slackAt + 8) || s.counters.foldAt = some (s.at t).now ||
      16 ≤ s.counters.places.length) = false := by
    simp [haw', hlo', hhi', hat, hroom]
  simp only [execFold, State.at_counters, hq, hp', Option.isNone_none, Bool.true_and, if_true, hopen, Bool.false_eq_true, if_false]
  rfl

theorem fold_moves (t : Nat) {len : Nat} {rest : List Nat} (hq : s.counters.foldQueue = len :: rest) (haw : s.awake = true)
    (hlo : s.params.slackAt ≤ (s.at t).clock.stroke) (hhi : (s.at t).clock.stroke < s.params.slackAt + 8)
    (hat : s.counters.foldAt ≠ some (s.at t).now) (hp : s.foldPlace len = none) (hroom : s.counters.places.length < 16) :
    Answers (.fold t) s (fun s' => s'.counters.foldQueue = rest ∧ s'.narrowCount len = 0 ∧
      s'.foldPlace len = some ⟨len, false, s.narrowCount len, some (s.wide len)⟩ ∧ s'.countOf len = s.countOf len ∧
      s'.dram = s.dram) := by
  obtain ⟨a, ha⟩ := fold_first t hq haw hlo hhi hat hp hroom
  refine ⟨_, ha, ?_⟩
  generalize hy : ({ (s.at t).foldRead len with counters := { ((s.at t).foldRead len).counters with
    foldQueue := rest, places := s.counters.places ++ [FoldPlace.mk len false (s.narrowCount len) (some (s.wide len))],
    foldAt := some a } } : State) = y
  have hz : (y.bump Fld.TEL_CNT_STATUS_folds).settle.counters = y.counters := by simp
  have hnarrow : y.narrowCount len = 0 := by
    subst hy
    have h := congrArg Counters.narrow ((s.at t).foldRead_counters len)
    exact (congrArg (fun m : Table Nat => m.findD len 0) h).trans ((s.at t).narrowCount_setNarrow_same len 0)
  have hplace : y.foldPlace len = some ⟨len, false, s.narrowCount len, some (s.wide len)⟩ := by
    subst hy
    unfold State.foldPlace at hp ⊢
    simp [List.find?_append, hp]
  have hdram : (y.bump Fld.TEL_CNT_STATUS_folds).settle.dram = s.dram := by
    rw [State.settle_dram, State.bump_dram]
    subst hy
    exact (s.at t).foldRead_dram len
  have hplace' := (State.foldPlace_congr hz len).trans hplace
  have hnarrow' := (State.narrowCount_congr hz len).trans hnarrow
  refine ⟨?_, hnarrow', hplace', ?_, hdram⟩
  · rw [hz, ← hy]
  · rw [State.countOf_of_add hplace' rfl, State.countOf_of_none hp, State.wide_congr hdram, hnarrow', Nat.add_zero]

end Sys2Proof.Machine
end

section
/-! The counter engine's reads of DRAM, and the counts that the host writes and reads (R372 to R377). -/
namespace Sys2Proof.Machine

variable {s x : State}

/-! A place whose read of the wide counter returns. -/

/-- A place is freed while no host write waits. -/
theorem State.freePlace_of_no_held (len : Nat) (h : s.counters.held = []) :
    s.freePlace len = { s with counters := { s.counters with places := s.counters.places.filter (fun p => p.len != len) } } := by
  simp only [State.freePlace, h]

theorem State.foldPlace_freed (len : Nat) (h : s.counters.held = []) : (s.freePlace len).foldPlace len = none := by
  rw [State.freePlace_of_no_held len h]
  simp [State.foldPlace]

/-- The wide counter written by a place (R372). -/
theorem State.setWide_dram (s : State) (len v : Nat) :
    (s.setWide len v).dram = (s.spoil (wideAddr len) 8).dram.write (wideAddr len) (leBytes (v % 2 ^ 64) 8) := by
  unfold State.setWide
  rw [State.dramWrite_dram, length_leBytes]

theorem State.setWide_counters (s : State) (len v : Nat) : (s.setWide len v).counters = s.counters :=
  (dramOnly_dramWrite ..).counters

/-- A read of the wide counter that has returned and is counted: the counters and DRAM stay. -/
theorem State.wideReturned_counters (s : State) (a : Nat) (how : DramRead) :
    ((s.dramReturn 5 a 8).countRead a how).counters = s.counters :=
  ((issuesOnly_dramReturn s 5 a 8).dramOnly.trans (dramOnly_countRead ..)).counters

theorem State.wideReturned_dram (s : State) (a : Nat) (how : DramRead) : ((s.dramReturn 5 a 8).countRead a how).dram = s.dram := by
  rw [State.countRead_dram, (issuesOnly_dramReturn s 5 a 8).dram]

@[simp] theorem State.readEnd_at (s : State) (t a : Nat) (how : DramRead) : (s.at t).readEnd a how = s.readEnd a how :=
  State.readEnd_congr rfl rfl rfl a how

/-- What the returned read of a place writes (R372, R549). -/
def State.foldSum (s : State) (p : FoldPlace) (a : Nat) (how : DramRead) : Nat :=
  if p.isSet then p.amount else (if s.readEnd a how = .uncorrectable then 0 else p.wide.getD 0) + p.amount

theorem foldReadReturn_one (t : Nat) {len : Nat} {p : FoldPlace} (how : DramRead) (hp : s.foldPlace len = some p) :
    exec (.foldReadReturn t len how) s = .next ((((((s.at t).dramReturn 5 (wideAddr len) 8).countRead (wideAddr len) how).setWide len
      (s.foldSum p (wideAddr len) how)).freePlace len).settle) := by
  have hp' : (s.at t).foldPlace len = some p := hp
  change execFoldReadReturn t len how s = _
  simp only [execFoldReadReturn, hp', State.readEnd_at, beq_iff_eq]
  rfl

theorem foldReadReturn_frees (t : Nat) {len : Nat} {p : FoldPlace} (how : DramRead) (hp : s.foldPlace len = some p)
    (hh : s.counters.held = []) :
    Answers (.foldReadReturn t len how) s (fun s' => s'.foldPlace len = none ∧ s'.narrowCount len = s.narrowCount len ∧
      s'.dram = ((((s.at t).dramReturn 5 (wideAddr len) 8).countRead (wideAddr len) how).spoil (wideAddr len) 8).dram.write
        (wideAddr len) (leBytes (s.foldSum p (wideAddr len) how % 2 ^ 64) 8)) := by
  refine ⟨_, foldReadReturn_one t how hp, ?_⟩
  have hy := (s.at t).wideReturned_counters (wideAddr len) how
  generalize ((s.at t).dramReturn 5 (wideAddr len) 8).countRead (wideAddr len) how = y at hy ⊢
  have hx := (y.setWide_counters len (s.foldSum p (wideAddr len) how)).trans hy
  have hd := y.setWide_dram len (s.foldSum p (wideAddr len) how)
  generalize y.setWide len (s.foldSum p (wideAddr len) how) = x at hx hd ⊢
  have hheld : x.counters.held = [] := by rw [hx]; exact hh
  refine ⟨(State.foldPlace_settle _ len).trans (State.foldPlace_freed len hheld), ?_, ?_⟩
  · rw [State.narrowCount_settle, State.freePlace_of_no_held len hheld]
    exact State.narrowCount_congr hx len
  · rw [State.settle_dram, State.freePlace_of_no_held len hheld]
    exact hd

/-! A count that the host writes. -/

theorem updateFirst_find {α : Type} {p : α → Bool} {f : α → α} {l : List α} {a : α} (h : l.find? p = some a) (hf : p (f a) = true) :
    (updateFirst p f l).find? p = some (f a) := by
  induction l with
  | nil => simp at h
  | cons b l ih =>
    unfold updateFirst
    by_cases hb : p b = true
    · obtain rfl : b = a := by simpa [List.find?_cons_of_pos hb] using h
      simp [hb, hf]
    · rw [List.find?_cons_of_neg hb] at h
      simpa [hb] using ih h

theorem State.foldPlace_setNarrow (s : State) (len v n : Nat) : (s.setNarrow len v).foldPlace n = s.foldPlace n := rfl

/-- A written count stands in the entry's place as a set (R373). -/
theorem State.writeCount_place {len : Nat} {p : FoldPlace} (v : Nat) (hp : s.foldPlace len = some p) :
    (s.writeCount len v).foldPlace len = some { p with isSet := true, amount := v % 2 ^ 64 } := by
  have hlen : p.len = len := by simpa using List.find?_some hp
  have hp' : s.counters.places.find? (fun p => p.len = len) = some p := hp
  simp only [State.writeCount, State.foldPlace, State.setNarrow, hp']
  exact updateFirst_find hp' (by simpa using hlen)

/-- Where the entry has no place, it stands in the wide counter (R373). -/
theorem State.writeCount_dram {len : Nat} (v : Nat) (hp : s.foldPlace len = none) :
    (s.writeCount len v).dram = (s.spoil (wideAddr len) 8).dram.write (wideAddr len) (leBytes (v % 2 ^ 64) 8) := by
  have hp' : s.counters.places.find? (fun p => p.len = len) = none := hp
  simp only [State.writeCount, State.foldPlace, State.setNarrow, hp']
  exact (State.setWide_dram ..).trans (congrArg (fun m : Memory => m.write _ _) (State.spoil_dram_congr (by rfl) (by rfl) _ _))

/-- A write of TEL_CNT_WRITE of the physical function that is served, while a place is free (R373, R377). -/
theorem telCntWrite_acts (t : Nat) {len : Nat} {data : Bytes} (hd : data.length = 8) (hh : (s.at t).holds .TEL_CNT_WRITE = false)
    (hs : (s.at t).served .TEL_CNT_WRITE 0 = true) (hc : s.cmdAuth = false) (hsel : s.selectedCount 0 = some len)
    (hroom : s.counters.places.length < 16) :
    exec (.telCntWrite t 0 data) s =
      .next ((((s.at t).writeCount len (leNat data)).setNarrow len ((s.at t).appliedTo len)).settle) := by
  have hc' : (s.at t).cmdAuth = false := hc
  have hsel' : (s.at t).selectedCount 0 = some len := hsel
  have hmask : 2 ^ (8 * min data.length 8) - 1 = fullMask := by rw [hd]; rfl
  have hdata : data.take 8 = data := List.take_of_length_le (by omega)
  change execTelCntWrite t 0 data s = _
  simp [execTelCntWrite, State.telCntWrite, hh, hs, hc', hsel', hmask, hdata, State.hostCount, hroom]

theorem telCntWrite_counts (t : Nat) {len : Nat} {data : Bytes} (hd : data.length = 8) (hh : (s.at t).holds .TEL_CNT_WRITE = false)
    (hs : (s.at t).served .TEL_CNT_WRITE 0 = true) (hc : s.cmdAuth = false) (hsel : s.selectedCount 0 = some len)
    (hroom : s.counters.places.length < 16) :
    Answers (.telCntWrite t 0 data) s (fun s' =>
      s'.narrowCount len = (s.at t).appliedTo len ∧
      (s.foldPlace len = none →
        s'.dram = ((s.at t).spoil (wideAddr len) 8).dram.write (wideAddr len) (leBytes (leNat data % 2 ^ 64) 8)) ∧
      (∀ p, s.foldPlace len = some p → s'.foldPlace len = some { p with isSet := true, amount := leNat data % 2 ^ 64 } ∧
        s'.countOf len = (leNat data % 2 ^ 64 + (s.at t).appliedTo len) % 2 ^ 64)) := by
  refine ⟨_, telCntWrite_acts t hd hh hs hc hsel hroom, ?_, fun hp => ?_, fun p hp => ?_⟩
  · rw [State.narrowCount_settle, State.narrowCount_setNarrow_same]
  · rw [State.settle_dram]
    exact State.writeCount_dram (s := s.at t) _ hp
  · have hplace := State.writeCount_place (s := s.at t) (leNat data) hp
    rw [← State.foldPlace_setNarrow _ len ((s.at t).appliedTo len), ← State.foldPlace_settle] at hplace
    refine ⟨hplace, (State.countOf_of_set hplace rfl).trans ?_⟩
    rw [State.narrowCount_settle, State.narrowCount_setNarrow_same]

/-! Coherent reads. -/

/-- What a read of all of bytes 0 to 3 of TEL_CNT_READ does for a live entry, in the state after the updates of its stroke (R374). -/
theorem telCntRead_live (t : Nat) {len size : Nat} (h4 : 4 ≤ size) (hs : (s.at t).applyUpdates.served .TEL_CNT_READ 0 = true)
    (hc : (s.at t).applyUpdates.cmdAuth = false) (hsel : (s.at t).applyUpdates.selectedCount 0 = some len) :
    let x := (s.at t).applyUpdates
    let sum := fun (n : Nat) => x.counters.reads ++ [⟨len, n, x.wide len, false, 0, 0, size⟩]
    (∀ p, x.foldPlace len = some p → p.isSet = true → Answers (.telCntRead t 0 0 size) s (fun s' =>
      s'.out = x.out ++ [.readData 0 ((leBytes ((p.amount + x.narrowCount len) % 2 ^ 64) 8).take size)] ∧
      s'.counters.latched = (p.amount + x.narrowCount len) % 2 ^ 64)) ∧
    (x.counters.held = [] →
      (∀ p, x.foldPlace len = some p → p.isSet = false → Leaves (.telCntRead t 0 0 size) s
        ({ x with counters := { x.counters with reads := sum (p.amount + x.narrowCount len) } }.dramIssue 5 (wideAddr len) 8)) ∧
      (x.foldPlace len = none → Leaves (.telCntRead t 0 0 size) s
        ({ x with counters := { x.counters with reads := sum (x.narrowCount len) } }.dramIssue 5 (wideAddr len) 8))) := by
  intro x sum
  refine ⟨fun p hp hset => ⟨(x.returnCount 0 0 size ((p.amount + x.narrowCount len) % 2 ^ 64)).settle, ?_, ?_, ?_⟩,
    fun hheld => ⟨fun p hp hset => ?_, fun hp => ?_⟩⟩
  · change execTelCntRead t 0 0 size s = _
    simp [execTelCntRead, State.telCntRead, hs, hc, hsel, h4, x, hp, hset]
  · rw [State.settle_out]
    simp [State.returnCount, State.emit]
  · rw [State.settle_counters]
    rfl
  · refine Leaves.of_eq (y := (s.at t).telCntRead 0 0 size) rfl ?_
    simp [State.telCntRead, hs, hc, hsel, h4, x, hp, hset, hheld, State.readWide, sum]
  · refine Leaves.of_eq (y := (s.at t).telCntRead 0 0 size) rfl ?_
    simp [State.telCntRead, hs, hc, hsel, h4, x, hp, hheld, State.readWide, sum]

@[simp] theorem State.returnCount_counters (s : State) (fn byte size v : Nat) :
    (s.returnCount fn byte size v).counters = { s.counters with latched := v } := rfl

@[simp] theorem State.returnCount_dram (s : State) (fn byte size v : Nat) : (s.returnCount fn byte size v).dram = s.dram := rfl

@[simp] theorem State.returnCount_out (s : State) (fn byte size v : Nat) :
    (s.returnCount fn byte size v).out = s.out ++ [.readData fn (((leBytes v 8).drop byte).take size)] := rfl

/-- What a coherent read returns (R374, R549). -/
def State.coherentSum (s : State) (r : CountRead) (how : DramRead) : Nat :=
  ((if s.readEnd (wideAddr r.len) how = .uncorrectable then 0 else r.wide) + r.partialSum) % 2 ^ 64

theorem countReadReturn_first (t : Nat) {r : CountRead} {rest : List CountRead} (how : DramRead)
    (hr : s.counters.reads = r :: rest) (hb : r.behindWrite = false) :
    exec (.countReadReturn t how) s = .next (((({ s.at t with counters := { (s.at t).counters with reads := rest } }.dramReturn 5
      (wideAddr r.len) 8).countRead (wideAddr r.len) how).returnCount r.fn r.byte r.size (s.coherentSum r how)).settle) := by
  change execCountReadReturn t how s = _
  simp only [execCountReadReturn, State.at_counters, hr, hb, Bool.false_and, Bool.false_eq_true, if_false, beq_iff_eq, State.readEnd_at]
  rfl

/-- The read of a coherent read that waits behind no host write returns (R374, R549). -/
theorem countReadReturn_completes (t : Nat) {r : CountRead} {rest : List CountRead} (how : DramRead)
    (hr : s.counters.reads = r :: rest) (hb : r.behindWrite = false) :
    Answers (.countReadReturn t how) s (fun s' => s'.counters.reads = rest ∧ s'.counters.latched = s.coherentSum r how ∧
      s'.dram = s.dram ∧ (s.readEnd (wideAddr r.len) how = .direct →
        s'.out = s.out ++ [.readData r.fn (((leBytes (s.coherentSum r how) 8).drop r.byte).take r.size)])) := by
  refine ⟨_, countReadReturn_first t how hr hb, ?_⟩
  have hend : ({ s.at t with counters := { (s.at t).counters with reads := rest } } : State).readEnd (wideAddr r.len) how =
      s.readEnd (wideAddr r.len) how := s.readEnd_at t _ how
  generalize hy : ({ s.at t with counters := { (s.at t).counters with reads := rest } } : State) = y at hend ⊢
  have hyd : y.dram = s.dram ∧ y.out = s.out ∧ y.counters.reads = rest := by subst hy; exact ⟨rfl, rfl, rfl⟩
  obtain ⟨hdram, hout, hreads⟩ := hyd
  have hxc := y.wideReturned_counters (wideAddr r.len) how
  have hxd := y.wideReturned_dram (wideAddr r.len) how
  have hxo : s.readEnd (wideAddr r.len) how = .direct →
      ((y.dramReturn 5 (wideAddr r.len) 8).countRead (wideAddr r.len) how).out = s.out := fun h => by
    have hi := issuesOnly_dramReturn y 5 (wideAddr r.len) 8
    rw [State.countRead_out ((hi.readEnd _ how).trans (hend.trans h)), hi.out, hout]
  generalize (y.dramReturn 5 (wideAddr r.len) 8).countRead (wideAddr r.len) how = x at hxc hxd hxo ⊢
  simp only [State.settle_counters, State.settle_dram, State.settle_out, State.returnCount_counters, State.returnCount_dram,
    State.returnCount_out]
  exact ⟨by rw [hxc, hreads], trivial, hxd.trans hdram, fun h => by rw [hxo h]⟩

/-- Settles O31: an update, a fold, the read of a place, a write of the host and a coherent read each change the narrow counter, the place
or the wide counter of their entry, and every count is read from these three. -/
theorem hitCounters : Obligations.HitCounters := by
  unfold Obligations.HitCounters
  intro s t
  exact ⟨fun _ hs hu hdue hroom => hitUpdateApply_one t hs hu hdue hroom,
    fun _ _ hq haw hlo hhi hat hp hroom => fold_moves t hq haw hlo hhi hat hp hroom,
    fun _ _ how hp hh => foldReadReturn_frees t how hp hh,
    fun _ _ hd hh hs hc hsel hroom => telCntWrite_counts t hd hh hs hc hsel hroom,
    fun _ _ h4 hs hc hsel => telCntRead_live t h4 hs hc hsel,
    fun _ _ how hr hb => countReadReturn_completes t how hr hb⟩

end Sys2Proof.Machine
end

section
/-! Dispatch (R67 to R70, R189 to R194) and BUSY (R27): which request each class serves, what the pipe front answers, and the search that
leaves with it. -/
namespace Sys2Proof.Machine

variable {s x y : State} {r : Request}

/-! Which requests are served. -/

/-- With no ring record in the queue none is served (R67). -/
theorem State.serveRing_of_empty (h : s.ring.queue = []) (a : Filling) (n : Nat) : s.serveRing a n = (s, a) := by
  cases n with
  | zero => rfl
  | succ n => simp [State.serveRing, State.nextRing, h]

theorem State.ofSource_of_no_class {c : Nat} (h : ∀ r ∈ s.search.waiting, r.cls ≠ c) (n : Nat) : s.ofSource c n = none := by
  have hl : s.search.waiting.filter (fun r => r.cls == c && s.eligible r) = [] := by
    simpa [List.filter_eq_nil_iff] using fun r hr hc => absurd hc (h r hr)
  simp only [State.ofSource, hl, List.find?_nil, ite_self]

/-- A class of which no request waits is served none (R67). -/
theorem State.serveClass_of_no_class {c : Nat} (h : ∀ r ∈ s.search.waiting, r.cls ≠ c) (a : Filling) (n : Nat) :
    s.serveClass a c n = (s, a) := by
  cases n with
  | zero => rfl
  | succ n =>
    have hn : s.nextOf c = none := by simp [State.nextOf, State.ofSource_of_no_class h]
    simp [State.serveClass, hn]

/-- The one request that waits is found under the number of its quay, and under no other (R68). -/
theorem State.ofSource_one {q : Nat} (hw : s.search.waiting = [r]) (hsrc : r.src = .quay q) (hq : q < 48) (he : s.eligible r = true)
    (n : Nat) : s.ofSource r.cls n = if n = q then some r else none := by
  unfold State.ofSource
  simp only [hw, List.filter_cons, beq_self_eq_true, he, Bool.and_self, if_true, List.filter_nil]
  by_cases hn : n < 48
  · simp only [hn, if_true, List.find?_cons, hsrc, List.find?_nil]
    by_cases hnq : n = q
    · simp [hnq]
    · have : (Source.quay q == Source.quay n) = false := by simpa using fun h : q = n => hnq h.symm
      simp [this, hnq]
  · have hnq : n ≠ q := by omega
    simp [hn, hnq, hostIndex, hsrc]

/-- Round-robin order comes to the one request that waits, wherever the pointer of its class stands (R68). -/
theorem State.nextOf_one {q : Nat} (hw : s.search.waiting = [r]) (hsrc : r.src = .quay q) (hq : q < 48) (he : s.eligible r = true) :
    s.nextOf r.cls = some (q, r) := by
  unfold State.nextOf
  simp only [State.ofSource_one hw hsrc hq he]
  generalize s.search.pointers.getD r.cls 0 = ptr
  have hturn : (ptr + (q + 49 - ptr % 49) % 49) % 49 = q := by omega
  cases hf : (List.range 49).findSome? (fun i =>
    (if (ptr + i) % 49 = q then some r else none).map (fun x => ((ptr + i) % 49, x))) with
  | none =>
    have h := List.findSome?_eq_none_iff.mp hf ((q + 49 - ptr % 49) % 49) (List.mem_range.mpr (Nat.mod_lt _ (by decide)))
    simp [hturn] at h
  | some x =>
    obtain ⟨i, -, hi⟩ := List.exists_of_findSome?_eq_some hf
    by_cases hiq : (ptr + i) % 49 = q
    · simpa [hiq, eq_comm] using hi
    · simp [hiq] at hi

/-- The one request that waits is dispatched on the first pipe, and its class then has none (R67, R70). -/
theorem State.serveClass_one {q : Nat} (hw : s.search.waiting = [r]) (hsrc : r.src = .quay q) (hq : q < 48)
    (he : s.eligible r = true) (hpipe : 0 < s.pipesNow) {left : Nat} (hleft : s.reservation r.record ≤ left)
    (hcap : s.reservation r.record ≤ s.capNow)
    (hnone : ((s.launchSearch r 0 false).passSource r.cls q r).search.waiting = []) (n : Nat) :
    ∃ b, s.serveClass ⟨0, left, false⟩ r.cls (n + 1) = ((s.launchSearch r 0 false).passSource r.cls q r, b) := by
  have hfill : s.fill ⟨0, left, false⟩ (s.reservation r.record) = some (⟨1, left - s.reservation r.record, false⟩, false) := by
    simp [State.fill, Nat.not_le.mpr hpipe, Nat.not_lt.mpr hleft, Nat.not_lt.mpr hcap]
  refine ⟨⟨1, left - s.reservation r.record, false⟩, ?_⟩
  simp only [State.serveClass, State.nextOf_one hw hsrc hq he, hfill, Bool.false_eq_true, if_false]
  exact State.serveClass_of_no_class (by simp [hnone]) _ n

/-- A stroke in which one request of a quay waits, and its reservation fits (R67, R70). -/
theorem State.dispatchStroke_one {q : Nat} (hring : s.ring.queue = []) (hw : s.search.waiting = [r]) (hsrc : r.src = .quay q)
    (hq : q < 48) (hcls : r.cls < 4) (he : s.eligible r = true) (hpipe : 0 < s.pipesNow)
    (hfits : s.reservation r.record + s.charged s.now ≤ s.capNow)
    (hnone : ((s.launchSearch r 0 false).passSource r.cls q r).search.waiting = [])
    (hring' : ((s.launchSearch r 0 false).passSource r.cls q r).ring.queue = []) :
    s.dispatchStroke = { (s.launchSearch r 0 false).passSource r.cls q r with
      search := { ((s.launchSearch r 0 false).passSource r.cls q r).search with doneAt := some s.now } } := by
  obtain ⟨b, hb⟩ := State.serveClass_one hw hsrc hq he hpipe (left := s.capNow - s.charged s.now) (by omega) (by omega) hnone 8
  generalize (s.launchSearch r 0 false).passSource r.cls q r = x at hb hnone hring' ⊢
  have hother : ∀ c a, c ≠ r.cls → s.serveClass a c 9 = (s, a) := fun c a hc =>
    State.serveClass_of_no_class (by simpa [hw] using fun h => hc h.symm) a 9
  have hafter : ∀ c a, x.serveClass a c 9 = (x, a) := fun c a => State.serveClass_of_no_class (by simp [hnone]) a 9
  have hring0 : ∀ a n, s.serveRing a n = (s, a) := State.serveRing_of_empty hring
  have hring1 : ∀ a n, x.serveRing a n = (x, a) := State.serveRing_of_empty hring'
  obtain hc | hc | hc | hc : r.cls = 0 ∨ r.cls = 1 ∨ r.cls = 2 ∨ r.cls = 3 := by omega
  all_goals
    rw [hc] at hb hother
    simp (disch := decide) only [State.dispatchStroke, hring0, ite_self, hother, hb, hafter, hring1]

/-! The search that leaves. -/

/-- A request leaves its queue: the charge of its chain lane and its wait are noted (R190, R389). -/
def State.leaveQueue (s : State) (r : Request) (key : Nat) : State :=
  let kept : Table Nat := s.search.charges.filter (fun (p : Nat × Nat) => s.now ≤ p.1)
  ({ s with search := { s.search with
    waiting := s.search.waiting.erase r
    charges := if s.chainCharge r.record = 0 then kept
      else kept.put (s.now + 256) (s.charged (s.now + 256) + s.chainCharge r.record) } }).noteWait key (s.now - (r.s0 + 64))

/-- A search as it is dispatched (R190, R192): its stroke, pipe and mode, and what the pipe front says of it. -/
structure Search.Leaves (f : Search) (s : State) (r : Request) (pipe : Nat) (status : Option Nat) (looks : List Look) : Prop where
  req : f.req = r
  at_ : f.d = some s.now
  onPipe : f.pipe = pipe
  inMode : f.mode = s.mode.mode
  unassembled : f.assembled = none
  inactive : f.activated = false
  unresolved : f.resolved = false
  front : f.status = status
  looked : f.looks = looks
  alone : (∀ l ∈ looks, ∀ d, l.df = some d → d.ringSpan = false) → f.extra = 0

/-- The dispatch of a request of a quay: what its pipe front leaves, and its search behind the others. -/
theorem State.launchSearch_quay {q : Nat} (hsrc : r.src = .quay q) (pipe : Nat) {status : Option Nat} {looks : List Look}
    (h : (s.leaveQueue r (4 * q + r.cls)).pipeFront r = (y, status, looks)) : ∃ f : Search,
      s.launchSearch r pipe false =
        { y with search := { y.search with flights := y.search.flights ++ [f], nextId := y.search.nextId + 1 } } ∧
      f.Leaves s r pipe status looks := by
  have hkey : r.queueKey = some (4 * q + r.cls) := by simp [Request.queueKey, hsrc]
  unfold State.leaveQueue at h
  simp only [State.launchSearch, hkey, hsrc, h]
  refine ⟨_, rfl, rfl, rfl, rfl, rfl, rfl, rfl, rfl, rfl, rfl, fun hl => if_neg ?_⟩
  rw [Bool.not_eq_true, List.any_eq_false]
  intro l hmem
  cases hd : l.df with
  | none => simp
  | some d => simp [hl l hmem d hd]

/-! The pipe front. -/

@[simp] theorem State.countColour_search (s : State) (b : Nat) (c : Colour) : (s.countColour b c).search = s.search := by
  cases c <;> simp [State.countColour]

@[simp] theorem State.countColour_ring (s : State) (b : Nat) (c : Colour) : (s.countColour b c).ring = s.ring := by
  cases c <;> simp [State.countColour]

@[simp] theorem State.countColour_berths (s : State) (b : Nat) (c : Colour) : (s.countColour b c).berths = s.berths := by
  cases c <;> simp [State.countColour]

@[simp] theorem State.countColour_tables (s : State) (b : Nat) (c : Colour) : (s.countColour b c).tables = s.tables := by
  cases c <;> simp [State.countColour]

theorem State.berth_congr (h : x.berths = s.berths) (b : Nat) : x.berth b = s.berth b := by
  unfold State.berth
  rw [h]

theorem State.pipeFront_frozen (hb : r.wrongBerth = false) (hf : s.frozen r.master = true) : s.pipeFront r = (s, some 9, []) := by
  simp [State.pipeFront, hb, hf]

theorem State.pipeFront_malformed (hb : r.wrongBerth = false) (hf : s.frozen r.master = false)
    (hok : requestOk r.record r.badLength = false) : s.pipeFront r = (s, some 0xB, []) := by
  simp [State.pipeFront, hb, hf, hok]

/-- A request that comes to the shaper (R192): its berth is shaped and its colour counted. -/
structure Request.Shaped (r : Request) (s : State) : Prop where
  ownBerth : r.wrongBerth = false
  unfrozen : s.frozen r.master = false
  wellFormed : requestOk r.record r.badLength = true
  inRange : s.inRange r.master (reqBerth r.record) = true
  few : reqLooks r.record ≤ s.params.lookups

/-- The state after the shaper has let a request pass or stopped it, at no cost. -/
def State.coloured (s : State) (rec : Bytes) (c : Colour) : State :=
  (s.setBerth (reqBerth rec) (s.berth (reqBerth rec))).countColour (reqBerth rec) c

@[simp] theorem State.coloured_search (s : State) (rec : Bytes) (c : Colour) : (s.coloured rec c).search = s.search := by
  simp [State.coloured]

@[simp] theorem State.coloured_ring (s : State) (rec : Bytes) (c : Colour) : (s.coloured rec c).ring = s.ring := by
  simp [State.coloured]

@[simp] theorem State.coloured_tables (s : State) (rec : Bytes) (c : Colour) : (s.coloured rec c).tables = s.tables := by
  simp [State.coloured]

@[simp] theorem State.coloured_berth (s : State) (rec : Bytes) (c : Colour) :
    (s.coloured rec c).berth (reqBerth rec) = s.berth (reqBerth rec) := by
  rw [State.coloured, State.berth_congr (State.countColour_berths ..)]
  exact Table.findD_put_same ..

theorem Request.Shaped.red (h : r.Shaped s) (hen : (s.berth (reqBerth r.record)).record.shaperEn = true)
    (hp : (s.berth (reqBerth r.record)).levelP ≤ 0) : s.pipeFront r = (s.coloured r.record .red, some 7, []) := by
  simp [State.pipeFront, h.ownBerth, h.unfrozen, h.wellFormed, h.inRange, Nat.not_lt.mpr h.few, Berth.shape, hen, hp, State.coloured]

theorem chainSources_one {l : Look} (h : descChain l.desc = false) : chainSources [l] = [l] := by
  simp [chainSources, h]

/-- A search of one lookup, not chained, in a berth without a shaper: the pipe front of the lookup (R192, R194). -/
theorem Request.Shaped.one (h : r.Shaped s) (hen : (s.berth (reqBerth r.record)).record.shaperEn = false)
    (h1 : reqLooks r.record = 1) {l : Look} (hl : (s.coloured r.record .green).frontLook r 0 = (y, l)) (hc : descChain l.desc = false) :
    s.pipeFront r = (y, none, [l]) := by
  have hl' := hl
  unfold State.coloured at hl'
  have hfew : s.params.lookups ≠ 0 := by
    have := h.few
    omega
  simp [State.pipeFront, h.ownBerth, h.unfrozen, h.wellFormed, h.inRange, hfew, Berth.shape, hen, h1, hl', State.frontLooks,
    chainSources_one hc]


/-! The pipe front of one lookup. -/

theorem State.slotTable_congr {rec : Bytes} (hb : x.berth (reqBerth rec) = s.berth (reqBerth rec)) (ht : x.tables = s.tables) (i : Nat) :
    x.slotTable rec i = s.slotTable rec i := by
  simp only [State.slotTable, State.table, hb, ht]

/-- A lookup of a table that the berth may search and that exists: its key and its banks (R186, R198). -/
theorem State.frontLook_built {i : Nat} {g : Grant} {tb : TableRec} (hm : descMalformed r.record i = false)
    (hc : descChain (reqDesc r.record i) = false)
    (hg : (s.berth (reqBerth r.record)).record.grantAt (descSlot (reqDesc r.record i)) = some g) (hs : g.search = true)
    (ht : s.slotTable r.record i = some tb) (hd : tb.df.direct = false) (hfit : fieldFits r.record (reqDesc r.record i) tb.df = true) :
    ∃ l : Look, s.frontLook r i = (s, l) ∧ l.status = none ∧ l.df = some tb.df ∧ l.tid = g.tid ∧
      l.key = keyField r.record (descOff (reqDesc r.record i)) tb.df.units ∧ l.banks = tb.chart.banksOf l.key ∧
      l.desc = reqDesc r.record i := by
  simp [State.frontLook, hm, Look.start, hc, hg, hs, ht, hfit, State.buildKey, hd]

/-- A slot whose table does not exist (R194). -/
theorem State.frontLook_noTable {i : Nat} {g : Grant} (hm : descMalformed r.record i = false)
    (hc : descChain (reqDesc r.record i) = false)
    (hg : (s.berth (reqBerth r.record)).record.grantAt (descSlot (reqDesc r.record i)) = some g) (hs : g.search = true)
    (ht : s.slotTable r.record i = none) :
    ∃ l : Look, s.frontLook r i = (s, l) ∧ l.status = some 0xA ∧ l.df = none ∧ l.desc = reqDesc r.record i := by
  simp [State.frontLook, hm, Look.start, hc, hg, hs, ht]

/-- A slot that grants nothing is a violation (R403). -/
theorem State.frontLook_noGrant {i : Nat} (hm : descMalformed r.record i = false) (hc : descChain (reqDesc r.record i) = false)
    (hg : (s.berth (reqBerth r.record)).record.grantAt (descSlot (reqDesc r.record i)) = none) :
    ∃ l : Look, s.frontLook r i = (s.violation r.master 1 0, l) ∧ l.status = some 8 ∧ l.df = none ∧ l.desc = reqDesc r.record i := by
  simp [State.frontLook, hm, Look.start, hc, hg]

/-! The stroke of dispatch. -/

/-- One request of a quay waits in a search stroke, eligible, and its reservation fits (R27, R70). -/
structure DispatchesOne (s : State) (t q : Nat) (r : Request) : Prop where
  on : (s.at t).dispatchOn = true
  noRing : s.ring.queue = []
  waits : s.search.waiting = [r]
  fromQuay : r.src = .quay q
  quay_lt : q < 48
  cls_lt : r.cls < 4
  eligible : (s.at t).eligible r = true
  pipes : 0 < (s.at t).pipesNow
  fits : (s.at t).reservation r.record + (s.at t).charged (s.at t).now ≤ (s.at t).capNow

/-- What the statement says of every search that is dispatched, and `p` of it. -/
def Dispatched (s : State) (t : Nat) (r : Request) (p : State → Search → Prop) : Prop :=
  Answers (.dispatch t) s (fun s' => s'.search.waiting = [] ∧ s'.search.doneAt = some (s.at t).now ∧
    ∃ f : Search, s'.search.flights = s.search.flights ++ [f] ∧ f.req = r ∧ f.d = some (s.at t).now ∧ f.pipe = 0 ∧
      f.mode = s.mode.mode ∧ f.assembled = none ∧ f.activated = false ∧ f.resolved = false ∧ p s' f)

/-- The request is dispatched with what its pipe front says of it. -/
theorem DispatchesOne.dispatch {t q : Nat} (h : DispatchesOne s t q r) {status : Option Nat} {looks : List Look}
    (hp : ((s.at t).leaveQueue r (4 * q + r.cls)).pipeFront r = (y, status, looks))
    (hsearch : y.search = ((s.at t).leaveQueue r (4 * q + r.cls)).search) (hring : y.ring = s.ring) {p : State → Search → Prop}
    (hthen : ∀ (s' : State) (f : Search), s'.berths = y.berths → f.Leaves (s.at t) r 0 status looks → p s' f) :
    Dispatched s t r p := by
  obtain ⟨f, hf, hl⟩ := State.launchSearch_quay h.fromQuay 0 hp
  have hpass : ∀ x : State, x.passSource r.cls q r = { x with search := { x.search with
      pointers := (List.range 4).map (fun i => if i = r.cls then (q + 1) % 49 else x.search.pointers.getD i 0) } } := by
    simp [State.passSource, h.fromQuay, hostIndex]
  have hwait : y.search.waiting = [] := by
    rw [hsearch]
    simp [State.leaveQueue, State.noteWait, h.waits]
  have hflights : y.search.flights = s.search.flights := by
    rw [hsearch]
    rfl
  have hd := State.dispatchStroke_one (s := s.at t) h.noRing h.waits h.fromQuay h.quay_lt h.cls_lt h.eligible h.pipes h.fits
    (by rw [hpass, hf]; exact hwait) (by rw [hpass, hf]; exact (congrArg Ring.queue hring).trans h.noRing)
  rw [hpass, hf] at hd
  refine Answers.of_eq (x := _) rfl ((if_pos h.on).trans hd) ?_
  rw [State.settle_search]
  exact ⟨hwait, rfl, f, congrArg (· ++ [f]) hflights, hl.req, hl.at_, hl.onPipe, hl.inMode, hl.unassembled, hl.inactive,
    hl.unresolved, hthen _ f (State.settle_berths _) hl⟩

theorem DispatchesOne.frozen {t q : Nat} (h : DispatchesOne s t q r) (hb : r.wrongBerth = false)
    (hf : (s.at t).frozen r.master = true) : Dispatched s t r (fun _ f => f.status = some 9 ∧ f.looks = []) :=
  h.dispatch (State.pipeFront_frozen hb hf) rfl rfl fun _ _ _ hl => ⟨hl.front, hl.looked⟩

theorem DispatchesOne.malformed {t q : Nat} (h : DispatchesOne s t q r) (hb : r.wrongBerth = false)
    (hf : (s.at t).frozen r.master = false) (hok : requestOk r.record r.badLength = false) :
    Dispatched s t r (fun s' f => f.status = some 0xB ∧ f.looks = [] ∧ s'.berths = s.berths) :=
  h.dispatch (State.pipeFront_malformed hb hf hok) rfl rfl fun _ _ hbs hl => ⟨hl.front, hl.looked, hbs⟩

theorem DispatchesOne.red {t q : Nat} (h : DispatchesOne s t q r) (hsh : r.Shaped (s.at t))
    (hen : (s.berth (reqBerth r.record)).record.shaperEn = true) (hp : (s.berth (reqBerth r.record)).levelP ≤ 0) :
    Dispatched s t r (fun s' f => f.status = some 7 ∧ f.looks = [] ∧ s'.berth (reqBerth r.record) = s.berth (reqBerth r.record)) := by
  have hsh' : r.Shaped ((s.at t).leaveQueue r (4 * q + r.cls)) := ⟨hsh.1, hsh.2, hsh.3, hsh.4, hsh.5⟩
  refine h.dispatch (hsh'.red hen hp) (State.coloured_search ..) (State.coloured_ring ..) fun s' f hbs hl =>
    ⟨hl.front, hl.looked, ?_⟩
  rw [State.berth_congr hbs, State.coloured_berth]
  rfl

/-- A search of one lookup in a berth without a shaper is dispatched with what the pipe front of the lookup says. -/
theorem DispatchesOne.one {t q : Nat} (h : DispatchesOne s t q r) (hsh : r.Shaped (s.at t))
    (hen : (s.berth (reqBerth r.record)).record.shaperEn = false) (h1 : reqLooks r.record = 1) {l : Look}
    (hl : (((s.at t).leaveQueue r (4 * q + r.cls)).coloured r.record .green).frontLook r 0 = (y, l)) (hc : descChain l.desc = false)
    (hsearch : y.search = ((s.at t).leaveQueue r (4 * q + r.cls)).search) (hring : y.ring = s.ring) {p : State → Search → Prop}
    (hthen : ∀ (s' : State) (f : Search), s'.berths = y.berths → f.Leaves (s.at t) r 0 none [l] → p s' f) : Dispatched s t r p := by
  have hsh' : r.Shaped ((s.at t).leaveQueue r (4 * q + r.cls)) := ⟨hsh.1, hsh.2, hsh.3, hsh.4, hsh.5⟩
  exact h.dispatch (hsh'.one hen h1 hl hc) hsearch hring hthen

section

variable {t q : Nat} (h : DispatchesOne s t q r) (hsh : r.Shaped (s.at t))
  (hen : (s.berth (reqBerth r.record)).record.shaperEn = false) (h1 : reqLooks r.record = 1)
  (hm : descMalformed r.record 0 = false) (hc : descChain (reqDesc r.record 0) = false)
include h hsh hen h1 hm hc

theorem DispatchesOne.built {g : Grant} {tb : TableRec}
    (hg : (s.berth (reqBerth r.record)).record.grantAt (descSlot (reqDesc r.record 0)) = some g) (hs : g.search = true)
    (ht : s.slotTable r.record 0 = some tb) (hd : tb.df.direct = false) (hfit : fieldFits r.record (reqDesc r.record 0) tb.df = true)
    (hspan : tb.df.ringSpan = false) :
    Dispatched s t r (fun s' f => f.status = none ∧ f.extra = 0 ∧ s'.berth (reqBerth r.record) = s.berth (reqBerth r.record) ∧
      ∃ l, f.looks = [l] ∧ l.status = none ∧ l.df = some tb.df ∧ l.tid = g.tid ∧
        l.key = keyField r.record (descOff (reqDesc r.record 0)) tb.df.units ∧ l.banks = tb.chart.banksOf l.key ∧
        l.desc = reqDesc r.record 0) := by
  let x := (s.at t).leaveQueue r (4 * q + r.cls)
  have hb : (x.coloured r.record .green).berth (reqBerth r.record) = s.berth (reqBerth r.record) := State.coloured_berth ..
  obtain ⟨l, hl, hst, hdf, htid, hkey, hbanks, hdesc⟩ := State.frontLook_built (s := x.coloured r.record .green) hm hc
    (by rw [hb]; exact hg) hs ((State.slotTable_congr hb (State.coloured_tables ..) 0).trans ht) hd hfit
  refine h.one hsh hen h1 hl (by rw [hdesc]; exact hc) (State.coloured_search ..) (State.coloured_ring ..) fun s' f hbs hf => ?_
  refine ⟨hf.front, hf.alone ?_, (State.berth_congr hbs _).trans hb, l, hf.looked, hst, hdf, htid, hkey, hbanks, hdesc⟩
  simpa [hdf] using hspan

theorem DispatchesOne.noTable {g : Grant}
    (hg : (s.berth (reqBerth r.record)).record.grantAt (descSlot (reqDesc r.record 0)) = some g) (hs : g.search = true)
    (ht : s.slotTable r.record 0 = none) :
    Dispatched s t r (fun _ f => f.status = none ∧ ∃ l, f.looks = [l] ∧ l.status = some 0xA) := by
  let x := (s.at t).leaveQueue r (4 * q + r.cls)
  have hb : (x.coloured r.record .green).berth (reqBerth r.record) = s.berth (reqBerth r.record) := State.coloured_berth ..
  obtain ⟨l, hl, hst, -, hdesc⟩ := State.frontLook_noTable (s := x.coloured r.record .green) hm hc (by rw [hb]; exact hg) hs
    ((State.slotTable_congr hb (State.coloured_tables ..) 0).trans ht)
  exact h.one hsh hen h1 hl (by rw [hdesc]; exact hc) (State.coloured_search ..) (State.coloured_ring ..) fun _ _ _ hf =>
    ⟨hf.front, l, hf.looked, hst⟩

theorem DispatchesOne.noGrant
    (hg : (s.berth (reqBerth r.record)).record.grantAt (descSlot (reqDesc r.record 0)) = none) :
    Dispatched s t r (fun _ f => f.status = none ∧ ∃ l, f.looks = [l] ∧ l.status = some 8) := by
  let x := (s.at t).leaveQueue r (4 * q + r.cls)
  have hb : (x.coloured r.record .green).berth (reqBerth r.record) = s.berth (reqBerth r.record) := State.coloured_berth ..
  obtain ⟨l, hl, hst, -, hdesc⟩ := State.frontLook_noGrant (s := x.coloured r.record .green) hm hc (by rw [hb]; exact hg)
  refine h.one hsh hen h1 hl (by rw [hdesc]; exact hc) ?_ ?_ fun _ _ _ hf => ⟨hf.front, l, hf.looked, hst⟩
  · rw [State.violation_search, State.coloured_search]
  · rw [State.violation_ring, State.coloured_ring]
    rfl

end

/-! BUSY. -/

/-- A request that becomes BUSY leaves its queue, and its search is ended whole (R27, R191). -/
theorem State.makeBusy_search (s : State) (r : Request) : ∃ f : Search,
    (s.makeBusy r).search.waiting = s.search.waiting.erase r ∧ (s.makeBusy r).search.flights = s.search.flights ++ [f] ∧ f.req = r ∧
      f.d = none ∧ f.status = some 6 ∧ f.assembled = some (wholeResult r.record (s.modeAt ((r.s0 + 319) / 256)) 6) := by
  cases hsrc : r.src <;> simp [State.makeBusy, Request.queueKey, hsrc, State.noteWait]

/-- Where no window carried the request, no window's space is freed. -/
theorem State.makeBusy_frame (h : ∀ w, r.src ≠ .window w) : (s.makeBusy r).host = s.host ∧ (s.makeBusy r).links = s.links := by
  cases hsrc : r.src with
  | window w => exact absurd hsrc (h w)
  | quay q => simp [State.makeBusy, Request.queueKey, hsrc, State.noteWait]
  | hostRing n => simp [State.makeBusy, Request.queueKey, hsrc, State.noteWait]
  | seed => simp [State.makeBusy, Request.queueKey, hsrc]

theorem busyResult_one (t : Nat) (hw : s.search.waiting = [r]) (hlate : r.s0 + 319 < (s.at t).now) :
    Answers (.busyResult t) s (fun s' => s'.search.waiting = [] ∧ ((∀ w, r.src ≠ .window w) → s'.host = s.host ∧ s'.links = s.links) ∧
      ∃ f, s'.search.flights = s.search.flights ++ [f] ∧ f.req = r ∧ f.d = none ∧ f.status = some 6 ∧
        f.assembled = some (wholeResult r.record (s.modeAt ((r.s0 + 319) / 256)) 6)) := by
  obtain ⟨f, hwait, hflights, hf⟩ := (s.at t).makeBusy_search r
  refine Answers.of_eq (x := (s.at t).makeBusy r) rfl ?_ ⟨?_, fun h => ?_, f, ?_, hf⟩
  · simp [hw, hlate, State.each]
  · simp [hwait, hw]
  · rw [State.settle_host, State.settle_links]
    exact State.makeBusy_frame h
  · rw [State.settle_search]
    exact hflights

/-- Settles O36: the one request that waits is the one that its class serves, so the stroke is its dispatch; what the search that leaves
holds is what the pipe front answers, branch by branch in the order of R192. -/
theorem searchesDispatched : Obligations.SearchesDispatched := by
  unfold Obligations.SearchesDispatched
  refine ⟨fun s t q r => ?_, fun s t r hw hlate => busyResult_one t hw hlate⟩
  intro rec_ b look hon hring hw hsrc hq hcls he hpipe hfits
  have h : DispatchesOne s t q r := ⟨hon, hring, hw, hsrc, hq, hcls, he, hpipe, hfits⟩
  refine ⟨h.frozen, fun hb hf => ⟨h.malformed hb hf, fun hok hin hfew => ?_⟩⟩
  have hsh : r.Shaped (s.at t) := ⟨hb, hf, hok, hin, hfew⟩
  exact ⟨h.red hsh, fun hen h1 hm hc => ⟨fun g tb hg hs ht hd hfit hspan => h.built hsh hen h1 hm hc hg hs ht hd hfit hspan,
    fun g hg hs ht => h.noTable hsh hen h1 hm hc hg hs ht, h.noGrant hsh hen h1 hm hc⟩⟩

end Sys2Proof.Machine
end

section
/-! Results (R216 to R224, R457, R527): the record that assembly builds for a search of one lookup, and where a result leaves. -/
namespace Sys2Proof.Machine

variable {s x : State} {f : Search} {l : Look}

/-! Assembly. -/

/-- An action on the one flight there is, where it is picked. -/
theorem State.overFlights_one {p : Search → Bool} {act : State → Search → State × Search} {g : Search} (hf : s.search.flights = [f])
    (hp : p f = true) (ha : act s f = (x, g)) : s.overFlights p act = { x with search := { x.search with flights := [g] } } := by
  simp [State.overFlights, hf, hp, ha]

/-- A lookup of a ternary table that nothing is awaited of is closed as it is (R204). -/
theorem State.closeLooks_one {df : TableDef} (hl : f.looks = [l]) (hdf : l.df = some df) (hr : l.reading = false)
    (hd : l.disagree = false) : s.closeLooks f = (s, f) := by
  have he : ({ f with looks := [l] } : Search) = f := by rw [← hl]
  simp [State.closeLooks, hl, hdf, hd, State.lateLook, hr, he]

theorem Search.decided_one {st : Nat} (hl : f.looks = [l]) (hst : l.status = some st) : f.decided = true := by
  simp [Search.decided, hl, hst]

/-- The handle that a lookup shows: that of its winner (R220). -/
def State.winnerHandle (s : State) (l : Look) : Nat :=
  match l.winner with
  | some c => s.handle c.gen c.len
  | none => 0

/-- The data that a lookup shows: those of a hit, or of a corrected one (R220, R222). -/
def Look.shown (l : Look) (st : Nat) : Bytes := if st = 0 ∨ st = 2 then l.data else []

theorem State.answer_ternary {df : TableDef} {st : Nat} (hdf : l.df = some df) (hdir : df.direct = false) (hst : l.status = some st)
    (i : Nat) : s.answer f i l = ⟨st, s.winnerHandle l, l.shown st⟩ := by
  cases hw : l.winner <;> simp [State.answer, hst, hdf, hdir, Look.shown, State.winnerHandle, hw]

/-- The result of one decided ternary lookup, in the layout of its mode (R220, R224). -/
def State.resultOfOne (s : State) (f : Search) (l : Look) (st : Nat) : Bytes :=
  if f.mode = 7
  then resultM7 f.req.record (entryM7 st (s.winnerHandle l % 2 ^ 24) (st == 0 && l.data.length == 32) ++
    if st = 0 then l.data.take 16 else [])
  else resultRecord f.req.record st 1 f.ring
    (lookEntry st (sizeCode (l.shown st).length) (descChain l.desc) false l.tid (s.winnerHandle l) ++ l.shown st)

theorem State.resultOf_one {df : TableDef} {st : Nat} (hs : f.status = none) (hl : f.looks = [l]) (hdf : l.df = some df)
    (hdir : df.direct = false) (hst : l.status = some st) : s.resultOf f = s.resultOfOne f l st := by
  have hdirect : l.direct = false := by simp [Look.direct, hdf, hdir]
  by_cases hm : f.mode = 7
  · by_cases h0 : st = 0
    · simp [State.resultOf, State.resultOfOne, hs, hl, hm, State.answer_ternary hdf hdir hst, h0, Look.shown]
    · have hb : (st == 0) = false := by simpa using h0
      simp [State.resultOf, State.resultOfOne, hs, hl, hm, State.answer_ternary hdf hdir hst, h0, hb]
  · simp [State.resultOf, State.resultOfOne, hs, hl, hm, State.answer_ternary hdf hdir hst, hdirect]

/-- A result that M3 gives as CORRECTED or SUSPECT is counted (R289). -/
def State.countGiven (s : State) (f : Search) (st : Nat) : State :=
  if f.mode = 3 ∧ st = 2 then s.bump Fld.ARY_INTEG_COUNT2_corrected
  else if f.mode = 3 ∧ st = 3 then s.bump Fld.ARY_INTEG_COUNT2_suspect else s

/-- How many lookups are given a status that is counted, where the model counts it (R289). -/
def State.givenOf (s : State) (f : Search) (st : Nat) : Nat :=
  if f.mode != 3 || f.status.isSome then 0 else
    ((List.range f.looks.length).filter (fun i => match f.looks[i]? with
      | some l => (s.answer f i l).status == st
      | none => false)).length

/-- How many lookups end without a status of their own (R495). -/
def State.partialsOf (s : State) (f : Search) : Nat :=
  ((List.range f.looks.length).filter (fun i => match f.looks[i]? with
    | some l => f.status.isNone && l.status.isNone && (s.answer f i l).status == 5
    | none => false)).length

def State.countUp (s : State) (f : Fld) (n : Nat) : State := if n = 0 then s else s.bump f n

def State.dropLaunches (s : State) (id : Nat) : State :=
  { s with ring := { s.ring with launches := s.ring.launches.filter (fun x => x.search != id) } }

theorem State.dropLaunches_eq {id : Nat} (h : s.ring.launches = []) : s.dropLaunches id = s := by
  have hr : { s.ring with launches := s.ring.launches.filter (fun x => x.search != id) } = s.ring := by
    rw [h, List.filter_nil, ← h]
  unfold State.dropLaunches
  rw [hr]

/-- Assembly of a decided search that no data is awaited for. -/
theorem State.assembleSearch_decided (hc : s.closeLooks f = (s, f)) (hd : f.decided = true) : s.assembleSearch f =
    ((((s.countUp Fld.RNG_COUNT1_partial (s.partialsOf f)).countUp Fld.ARY_INTEG_COUNT2_corrected (s.givenOf f 2)).countUp
      Fld.ARY_INTEG_COUNT2_suspect (s.givenOf f 3)).dropLaunches f.id, { f with assembled := some (s.resultOf f) }) := by
  unfold State.assembleSearch
  rw [hc]
  show (if !f.decided then _ else _) = _
  rw [hd]
  rfl

theorem State.partialsOf_one {st : Nat} (hl : f.looks = [l]) (hst : l.status = some st) : s.partialsOf f = 0 := by
  simp [State.partialsOf, hl, hst]

theorem State.givenOf_one {df : TableDef} {st : Nat} (hs : f.status = none) (hl : f.looks = [l]) (hdf : l.df = some df)
    (hdir : df.direct = false) (hst : l.status = some st) (k : Nat) :
    s.givenOf f k = if f.mode = 3 ∧ st = k then 1 else 0 := by
  have ha : (s.answer f 0 l).status = st := by rw [State.answer_ternary hdf hdir hst]
  by_cases hm : f.mode = 3 <;> by_cases hk : st = k <;>
    simp [State.givenOf, hs, hl, hm, hk, ha]

theorem State.countUp_zero (s : State) (fld : Fld) : s.countUp fld 0 = s := rfl

theorem State.countUp_one (s : State) (fld : Fld) : s.countUp fld 1 = s.bump fld := rfl

theorem State.countGiven_eq (s : State) (f : Search) (st : Nat) :
    (s.countUp Fld.ARY_INTEG_COUNT2_corrected (if f.mode = 3 ∧ st = 2 then 1 else 0)).countUp
      Fld.ARY_INTEG_COUNT2_suspect (if f.mode = 3 ∧ st = 3 then 1 else 0) = s.countGiven f st := by
  unfold State.countGiven
  by_cases h2 : f.mode = 3 ∧ st = 2
  · have h3 : ¬ (f.mode = 3 ∧ st = 3) := by omega
    rw [if_pos h2, if_neg h3, if_pos h2, State.countUp_one, State.countUp_zero]
  · by_cases h3 : f.mode = 3 ∧ st = 3
    · rw [if_neg h2, if_pos h3, if_neg h2, if_pos h3, State.countUp_zero, State.countUp_one]
    · rw [if_neg h2, if_neg h3, if_neg h2, if_neg h3, State.countUp_zero, State.countUp_zero]

theorem State.countGiven_ring (s : State) (f : Search) (st : Nat) : (s.countGiven f st).ring = s.ring := by
  unfold State.countGiven
  split_ifs <;> simp

theorem State.assembleSearch_one {df : TableDef} {st : Nat} (hs : f.status = none) (hl : f.looks = [l]) (hdf : l.df = some df)
    (hdir : df.direct = false) (hst : l.status = some st) (hr : l.reading = false) (hd : l.disagree = false)
    (hlaunch : s.ring.launches = []) :
    s.assembleSearch f = (s.countGiven f st, { f with assembled := some (s.resultOfOne f l st) }) := by
  have hring : (s.countGiven f st).ring.launches = [] := by rw [State.countGiven_ring, hlaunch]
  rw [State.assembleSearch_decided (State.closeLooks_one hl hdf hr hd) (Search.decided_one hl hst), State.partialsOf_one hl hst,
    State.countUp_zero, State.givenOf_one hs hl hdf hdir hst, State.givenOf_one hs hl hdf hdir hst, State.countGiven_eq,
    State.dropLaunches_eq hring, State.resultOf_one hs hl hdf hdir hst]

theorem State.bump_flights (s : State) (fld : Fld) (n : Nat) (g : List Search) :
    { s.bump fld n with search := { (s.bump fld n).search with flights := g } } =
      ({ s with search := { s.search with flights := g } } : State).bump fld n := rfl

/-- Counting what M3 gives leaves the searches as they are, and does not depend on them. -/
theorem State.countGiven_search (s : State) (f : Search) (st : Nat) (g : List Search) :
    { s.countGiven f st with search := { (s.countGiven f st).search with flights := g } } =
      ({ s with search := { s.search with flights := g } } : State).countGiven f st := by
  unfold State.countGiven
  by_cases h2 : f.mode = 3 ∧ st = 2
  · rw [if_pos h2, if_pos h2]
    exact State.bump_flights s _ 1 g
  · rw [if_neg h2, if_neg h2]
    by_cases h3 : f.mode = 3 ∧ st = 3
    · rw [if_pos h3, if_pos h3]
      exact State.bump_flights s _ 1 g
    · rw [if_neg h3, if_neg h3]

/-- At its stroke of assembly the one flight gets its record (R218, R220). -/
theorem execAssembly_one {t d : Nat} {df : TableDef} {st : Nat} (hf : s.search.flights = [f]) (hfd : f.d = some d)
    (hnone : f.assembled = none) (hres : f.resolved = true) (hs : f.status = none) (hnow : d + assemblyAt f ≤ (s.at t).now)
    (hl : f.looks = [l]) (hdf : l.df = some df) (hdir : df.direct = false) (hst : l.status = some st)
    (hr : l.reading = false) (hd : l.disagree = false) (hlaunch : s.ring.launches = []) :
    Leaves (.assembly t) s (({ s.at t with search := { s.search with
      flights := [{ f with assembled := some (s.resultOfOne f l st) }] } } : State).countGiven f st) := by
  have hact : (s.at t).assembleSearch f = ((s.at t).countGiven f st, { f with assembled := some ((s.at t).resultOfOne f l st) }) :=
    State.assembleSearch_one hs hl hdf hdir hst hr hd hlaunch
  have hpick : (f.assembled.isNone && (f.resolved || f.status.isSome) && f.reached (s.at t).now (assemblyAt f)) = true := by
    simp [hnone, hres, Search.reached, hfd, hnow]
  have hover := State.overFlights_one (s := s.at t)
    (p := fun f => f.assembled.isNone && (f.resolved || f.status.isSome) && f.reached (s.at t).now (assemblyAt f)) hf hpick hact
  refine Leaves.of_eq ?_ (hover.trans (State.countGiven_search _ f st _))
  rfl

/-! Release. -/

theorem State.mirrorResult_nil {r : Request} {result : Bytes} (h : s.observe.sessions = []) : s.mirrorResult r result = s := by
  unfold State.mirrorResult
  split_ifs
  · rfl
  · rw [h]
    rfl

/-- The state that the one result there is leaves behind it. -/
def State.noFlights (s : State) : State := { s with search := { s.search with flights := [] } }

theorem State.releaseResult_one {bytes : Bytes} (hf : s.search.flights = [f]) (ha : f.assembled = some bytes)
    (ho : s.observe.sessions = []) : s.releaseResult f = match f.req.src with
      | .quay q => s.noFlights.offerResult q bytes (quayCharge f.req.record).1 (quayCharge f.req.record).2
      | .hostRing _ => s.noFlights.ringReply f.req.reply (reserveOf f.req.record) bytes
      | .window _ => s.noFlights.ringReply f.req.reply (reserveOf f.req.record) bytes
      | .seed => s.noFlights := by
  have hfl : s.search.flights.filter (fun g => g.id != f.id) = [] := by simp [hf]
  have hm : s.noFlights.mirrorResult f.req bytes = s.noFlights := State.mirrorResult_nil ho
  unfold State.releaseResult
  rw [ha]
  dsimp only
  rw [hfl]
  change (match f.req.src with
    | .quay q => (s.noFlights.mirrorResult f.req bytes).offerResult q bytes _ _
    | .hostRing _ => (s.noFlights.mirrorResult f.req bytes).ringReply _ _ bytes
    | .window _ => (s.noFlights.mirrorResult f.req bytes).ringReply _ _ bytes
    | .seed => s.noFlights.mirrorResult f.req bytes) = _
  rw [hm]

/-- The one assembled result there is leaves in its stroke (R26). -/
theorem execResultRelease_one {t : Nat} {bytes : Bytes} (hf : s.search.flights = [f]) (ha : f.assembled = some bytes)
    (hnow : releaseAt f ≤ (s.at t).now) (h : (s.at t).releaseResult f = x) : Leaves (.resultRelease t) s x := by
  have hout : ((s.at t).search.flights.filter (fun f => f.assembled.isSome && releaseAt f ≤ (s.at t).now)).foldr insertFlight [] =
      [f] := by
    change (s.search.flights.filter _).foldr insertFlight [] = [f]
    simp [hf, ha, hnow, insertFlight]
  refine Leaves.of_eq ?_ h
  change execResultRelease t s = _
  unfold execResultRelease
  dsimp only
  rw [hout]
  rfl

theorem State.offerResult_up {q pool words : Nat} {rec : Bytes} (h : (s.link (.quay q)).up = true) :
    s.offerResult q rec pool words = { s.setLink (.quay q) { s.link (.quay q) with
      tx := (s.link (.quay q)).tx ++ [⟨.result pool words, rec, 0⟩] } with out := s.out ++ [.offered q rec] } := by
  unfold State.offerResult
  dsimp only
  rw [if_pos h, State.emit, State.setLink_out]

theorem State.ringReply_held {k entries : Nat} {rec : Bytes} (hflr : (s.function (ringFn (ticketRing k))).flr = false)
    (hup : s.host.linkUp = true) (hk : s.ticketHolds k = true) (he : entries ≤ (s.hostRing (ticketRing k)).reserved) :
    s.ringReply k entries rec = s.setRing (ticketRing k) { s.hostRing (ticketRing k) with
      writes := (s.hostRing (ticketRing k)).writes ++ [⟨.reply entries, rec⟩] } := by
  have hlost : (!s.host.linkUp || !s.ticketHolds k || decide ((s.hostRing (ticketRing k)).reserved < entries)) = false := by
    simp [hup, hk, he]
  unfold State.ringReply
  dsimp only
  rw [hflr, hlost]
  rfl

/-- Settles O40: assembly of one decided ternary lookup is `State.assembleSearch_one`; a release is the offer to a quay that is up or the
reply that a ring holds entries for. -/
theorem resultsAssembledAndReleased : Obligations.ResultsAssembledAndReleased := by
  unfold Obligations.ResultsAssembledAndReleased
  refine ⟨?assembled, ?released⟩
  case assembled =>
    intro s t f d st l df hf hfd hnone hres hs hnow hl hdf hdir hst hr hd hlaunch
    exact execAssembly_one hf hfd hnone hres hs hnow hl hdf hdir hst hr hd hlaunch
  case released =>
    intro s t f bytes hf ha hnow ho
    have hrel := State.releaseResult_one (s := s.at t) hf ha ho
    refine ⟨fun q hq hup => ?_, fun n hsrc hflr hup hk he => ?_⟩
    · rw [hq] at hrel
      exact execResultRelease_one hf ha hnow (hrel.trans (State.offerResult_up hup))
    · have hreply : (s.at t).releaseResult f = (s.at t).noFlights.ringReply f.req.reply (reserveOf f.req.record) bytes := by
        obtain hsrc | hsrc := hsrc <;> rw [hrel, hsrc]
      exact execResultRelease_one hf ha hnow (hreply.trans (State.ringReply_held hflr hup hk he))

end Sys2Proof.Machine
end

section
/-! Commands that stand at the head of their FIFO (R60, R63, R176): what the shared checks answer, and what acceptance leaves, whatever the
command does first. -/
namespace Sys2Proof.Machine
variable {s x : State} {t : Nat} {src : Source} {c : Cmd} {rest : List Cmd}

/-- Only the masters stand otherwise once a verified tag has moved a cookie. -/
theorem State.noteCookie_only (s : State) (src : Source) (c : Cmd) :
    s.noteCookie src c = { s with masters := (s.noteCookie src c).masters } := by
  unfold State.noteCookie
  split <;> rfl

@[simp] theorem State.accept_flights (s : State) (src : Source) (c : Cmd) (n : Nat) (b : Bool)
    (r : Option (Nat × Nat × Nat × Nat × Bytes)) (p : Option Nat) : (s.accept src c n b r p).cmds.flights = s.cmds.flights := by
  simp [State.accept, State.popHead, State.setFifo]

/-- A command accepted from a state whose engine is unchanged but for its flights has left its FIFO and is held. -/
theorem Taken.accept (hf : (s.at t).fifo src = c :: rest) (hc : x.cmds = { s.cmds with flights := x.cmds.flights }) (hg : x.clock.grid = s.clock.grid) (n : Nat) (b : Bool)
    (r : Option (Nat × Nat × Nat × Nat × Bytes)) (p : Option Nat) {y : State} (hy : y.cmds = (x.accept src c n b r p).cmds) :
    Taken s y src c rest ⟨s.cmds.nextId, src, c.record, c.master, c.reply, s.clock.grid, n, b, r, p, 0⟩ := by
  refine ⟨?_, rfl, rfl, rfl, rfl, rfl, ?_⟩
  · rw [hy, State.accept_accepted, hc, hg]
  · have hx : x.fifo src = c :: rest := (State.fifo_of_cmds x (s.at t) (by rw [hc]; rfl) src).trans hf
    rw [State.fifo_of_cmds y (x.accept src c n b r p) (by rw [hy]), State.accept_fifo, hx]
    rfl

/-- A completion that is known when its command is accepted is posted at the boundary that R63 gives. -/
theorem Commits.accept (hf : (s.at t).fifo src = c :: rest) (hc : x.cmds = { s.cmds with flights := x.cmds.flights })
    (hk : x.clock = (s.at t).clock) (hm : x.mode = s.mode) (n result handle : Nat) (payload : Bytes) {y : State}
    (hy : y.cmds = (x.accept src c n true (some (result, handle, 0, 0, payload)) (some x.dueTide)).cmds) :
    Commits s t src c rest y result handle payload := by
  have hdue : x.dueTide = (s.at t).dueTide := by
    simp only [State.dueTide, State.inCommit, State.phase, hk, hm, State.at_mode]
  exact ⟨_, Taken.accept hf hc (by rw [hk]; rfl) _ _ _ _ hy, rfl, rfl, congrArg some hdue⟩

/-- Acceptance itself moves the engine, the place that the record held and no more. -/
theorem OnlyTaken.accept {m : Table Master} (hx : x = { s.at t with masters := m }) (n : Nat) (b : Bool)
    (r : Option (Nat × Nat × Nat × Nat × Bytes)) (p : Option Nat) : OnlyTaken s (x.accept src c n b r p).settle t := by
  subst hx
  refine ⟨?_, ?_, ?_, ?_, ?_⟩
  · apply State.ext <;> simp
  · simp
  · simp
  · simp
  · simp [State.settle, State.settleGates]

theorem OnlyDue.accept {m : Table Master} {ch : Change} (hx : x = { (s.at t).defer ch with masters := m }) (n : Nat) (b : Bool)
    (r : Option (Nat × Nat × Nat × Nat × Bytes)) (p : Option Nat) : OnlyDue s (x.accept src c n b r p).settle t ch := by
  subst hx
  refine ⟨?_, ?_, ?_, ?_, ?_⟩
  · apply State.ext <;> simp [State.defer]
  · simp
  · simp
  · simp
  · simp [State.settle, State.settleGates]

/-- What a command leaves that it has accepted or refused: its source's turn is noted. -/
theorem State.noteTurn_of_accept {y : State} {n : Nat} {b : Bool} {r : Option (Nat × Nat × Nat × Nat × Bytes)} {p : Option Nat}
    (hy : y.cmds = (x.accept src c n b r p).cmds) (hk : y.clock = x.clock) : y.noteTurn src = y := by
  apply State.noteTurn_noted
  have h : y.takenNow = (x.accept src c n b r p).takenNow := by
    simp only [State.takenNow, State.now, hy, hk, State.accept_clock]
  rw [h]
  exact State.accept_takenFrom ..

/-- Check 1 of R176 comes first. -/
theorem State.checked_malformed {ut uh : Bool} (h : c.headerOk ut uh = false) (form : Bool) (need : Right) (early : State → Option Nat)
    (act : State → State) : s.checked src c ut uh form need early act = s.refuse src c 0x0A 0 := by
  simp [State.checked, h]

/-- Check 2 of R176 comes next: a tag that does not verify is a violation (R437). -/
theorem State.checked_unauthentic {ut uh form : Bool} (h : c.headerOk ut uh = true) (hform : form = true)
    (ha : s.authFails src c = true) (need : Right) (early : State → Option Nat) (act : State → State) :
    s.checked src c ut uh form need early act = (s.refuse src c 0x0F 0).violation c.master 4 (cmdCookie c.record) := by
  simp [State.checked, h, hform, ha]

/-- Check 4 of R176: where its master may not send it, the refusal of a command is a violation (R437). -/
theorem State.checked_denied {ut uh form : Bool} {need : Right} {cause : Nat} (h : c.headerOk ut uh = true) (hform : form = true)
    (ha : s.authFails src c = false) {early : State → Option Nat} (he : early (s.noteCookie src c) = none)
    (hd : s.denied src c need = some cause) (hsrc : src ≠ .seed) (act : State → State) :
    s.checked src c ut uh form need early act =
      ((s.noteCookie src c).refuse src c 0x09 0).violation c.master cause (cmdCookie c.record) := by
  simp [State.checked, h, hform, ha, he, hd, hsrc]

/-- A violation freezes its master (R437). -/
theorem State.violation_freezes (s : State) (m cause info : Nat) : ((s.violation m cause info).master m).freeze.isSome = true := by
  unfold State.violation
  split
  · simp [State.newFreeze, State.master, State.setMaster]
  · next f hf =>
    have hkeep : (s.bumpHold Fld.SEC_FREEZE_INFO_violations 1 m).master m = s.master m := by simp [State.master]
    dsimp only
    split
    · rw [State.master_setMaster, if_pos rfl]
      rfl
    · rw [hkeep, hf]
      rfl

/-- A command that may be taken and that the body accepts, or refuses, is what the stroke does. -/
theorem State.atHead_accept {ops : Nat → Bool} {body : State → Cmd → State} {y : State} (hf : (s.at t).fifo src = c :: rest)
    (hops : ops (cmdOp c.record) = true) (ht : (s.at t).takeable src c = true) (hbody : body (s.at t) c = y) {n : Nat} {b : Bool}
    {r : Option (Nat × Nat × Nat × Nat × Bytes)} {p : Option Nat} (hy : y.cmds = (x.accept src c n b r p).cmds) (hk : y.clock = x.clock) :
    s.atHead t src ops body = y := by
  rw [State.atHead_of body hf hops ht, hbody, State.noteTurn_of_accept hy hk]

/-- The same for a command that clears the shared checks and is accepted by its own effect; the cookie that its tag has moved stands. -/
theorem Clears.atHead {op : Nat} {ut uh form : Bool} {need : Right} (h : Clears s t src c rest op ut uh need) {ops : Nat → Bool}
    {body : State → Cmd → State} {early : State → Option Nat} {act : State → State} {y : State} (hops : ops op = true)
    (hbody : body (s.at t) c = (s.at t).checked src c ut uh form need early act) (hform : form = true)
    (hearly : early ((s.at t).noteCookie src c) = none) (hact : act ((s.at t).noteCookie src c) = y)
    (hx : x.cmds = { s.cmds with flights := x.cmds.flights }) {n : Nat} {b : Bool} {r : Option (Nat × Nat × Nat × Nat × Bytes)} {p : Option Nat}
    (hy : y.cmds = (x.accept src c n b r p).cmds) (hk : y.clock = x.clock) : s.atHead t src ops body = y := by
  obtain ⟨hf, hop, ht, -⟩ := id h
  refine State.atHead_accept hf (by rw [hop]; exact hops) ht ?_ hy hk
  rw [hbody, State.checked_of h act hform hearly, hact]
  apply State.keepCookie_of_shorter
  have hfifo : x.fifo src = c :: rest := (State.fifo_of_cmds x (s.at t) (by rw [hx]; rfl) src).trans hf
  rw [State.fifo_of_cmds y (x.accept src c n b r p) (by rw [hy]), State.accept_fifo_length, hfifo, hf]
  simp

/-- What a command leaves that clears the shared checks and is accepted, or refused, by its own effect. -/
theorem Clears.answers {i : Instr} {P : State → Prop} {op : Nat} {ut uh form : Bool} {need : Right}
    (h : Clears s t src c rest op ut uh need) {ops : Nat → Bool} {body : State → Cmd → State} {early : State → Option Nat}
    {act : State → State} {y : State} (hexec : exec i s = .next (s.atHead t src ops body).settle) (hops : ops op = true)
    (hbody : body (s.at t) c = (s.at t).checked src c ut uh form need early act) (hform : form = true)
    (hearly : early ((s.at t).noteCookie src c) = none) (hact : act ((s.at t).noteCookie src c) = y)
    (hx : x.cmds = { s.cmds with flights := x.cmds.flights }) {n : Nat} {b : Bool} {r : Option (Nat × Nat × Nat × Nat × Bytes)}
    {p : Option Nat} (hy : y.cmds = (x.accept src c n b r p).cmds) (hk : y.clock = x.clock) (hp : P y.settle) : Answers i s P := by
  rw [h.atHead hops hbody hform hearly hact hx hy hk] at hexec
  exact ⟨_, hexec, hp⟩

/-- A command whose change waits for its boundary is answered OK there, and that change alone has joined those that wait (R63). -/
theorem Clears.later {op : Nat} {ut uh form : Bool} {need : Right} (h : Clears s t src c rest op ut uh need) {ops : Nat → Bool}
    {body : State → Cmd → State} {early : State → Option Nat} {act : State → State} {ch : Change} (hops : ops op = true)
    (hbody : body (s.at t) c = (s.at t).checked src c ut uh form need early act) (hform : form = true)
    (hearly : early ((s.at t).noteCookie src c) = none)
    (hact : act ((s.at t).noteCookie src c) = (((s.at t).noteCookie src c).defer ch).acceptBoundary src c 0) :
    Commits s t src c rest (s.atHead t src ops body).settle 0 0 [] ∧ OnlyDue s (s.atHead t src ops body).settle t ch := by
  rw [h.atHead hops hbody hform hearly hact (x := ((s.at t).noteCookie src c).defer ch) (by simp) rfl (by simp)]
  refine ⟨Commits.accept h.1 (x := ((s.at t).noteCookie src c).defer ch) (by simp) (by simp) (by simp) _ _ _ _ (State.settle_cmds _),
    OnlyDue.accept (m := ((s.at t).noteCookie src c).masters) ?_ _ _ _ _⟩
  conv_lhs => rw [State.noteCookie_only]
  rfl

/-- A command that its own check refuses is answered at the boundary that R63 gives, and nothing else has changed. -/
theorem Clears.refuses {op : Nat} {ut uh form : Bool} {need : Right} (h : Clears s t src c rest op ut uh need) {ops : Nat → Bool}
    {body : State → Cmd → State} {early : State → Option Nat} {act : State → State} {r hd : Nat} {payload : Bytes} (hops : ops op = true)
    (hbody : body (s.at t) c = (s.at t).checked src c ut uh form need early act) (hform : form = true)
    (hearly : early ((s.at t).noteCookie src c) = none)
    (hact : act ((s.at t).noteCookie src c) = ((s.at t).noteCookie src c).refuse src c r hd payload) :
    Commits s t src c rest (s.atHead t src ops body).settle r hd payload ∧ OnlyTaken s (s.atHead t src ops body).settle t := by
  rw [h.atHead hops hbody hform hearly hact (x := (s.at t).noteCookie src c) (by simp) rfl (by simp)]
  exact ⟨Commits.accept h.1 (x := (s.at t).noteCookie src c) (by simp) (by simp) (by simp) _ _ _ _ (State.settle_cmds _),
    OnlyTaken.accept (m := ((s.at t).noteCookie src c).masters) (State.noteCookie_only ..) _ _ _ _⟩

/-- A command that waits for its write phase is accepted for that of R61, and nothing else has changed. -/
theorem Clears.waits {op : Nat} {ut uh form : Bool} {need : Right} (h : Clears s t src c rest op ut uh need) {ops : Nat → Bool}
    {body : State → Cmd → State} {early : State → Option Nat} {act : State → State} (hops : ops op = true)
    (hbody : body (s.at t) c = (s.at t).checked src c ut uh form need early act) (hform : form = true)
    (hearly : early ((s.at t).noteCookie src c) = none)
    (hact : act ((s.at t).noteCookie src c) = ((s.at t).noteCookie src c).acceptWrite src c) :
    (∃ a, Taken s (s.atHead t src ops body).settle src c rest a ∧ a.awaits (s.at t).applyTide) ∧
      OnlyTaken s (s.atHead t src ops body).settle t := by
  rw [h.atHead hops hbody hform hearly hact (x := (s.at t).noteCookie src c) (by simp) rfl (by simp)]
  refine ⟨⟨_, Taken.accept h.1 (x := (s.at t).noteCookie src c) (by simp) (by simp; rfl) _ _ _ _ (State.settle_cmds _), rfl, ?_, rfl, rfl⟩,
    OnlyTaken.accept (m := ((s.at t).noteCookie src c).masters) (State.noteCookie_only ..) _ _ _ _⟩
  change ((s.at t).noteCookie src c).applyTide = _
  rw [State.noteCookie_only]
  rfl

end Sys2Proof.Machine
end

section
/-! Commands whose change takes effect at a boundary (R63): what their checks read, and the boundary that it is. -/
namespace Sys2Proof.Machine
variable {s x : State} {t : Nat} {src : Source} {c : Cmd} {rest : List Cmd}

/-- The checks of TABLE_CREATE do not read the masters, nor the stroke. -/
@[simp] theorem State.createCheck_noteCookie (s : State) (t : Nat) (src : Source) (c : Cmd) (body : Bytes) :
    ((s.at t).noteCookie src c).createCheck body = s.createCheck body := by
  rw [State.noteCookie_only]
  rfl

@[simp] theorem State.masterValid_noteCookie (s : State) (t : Nat) (src : Source) (c : Cmd) (body : Bytes) :
    ((s.at t).noteCookie src c).masterValid body = s.masterValid body := by
  rw [State.noteCookie_only]
  rfl

@[simp] theorem State.setStreams_noteCookie (s : State) (t : Nat) (src : Source) (c : Cmd) (set : Nat) :
    ((s.at t).noteCookie src c).setStreams set = s.setStreams set := by
  rw [State.noteCookie_only]
  rfl

@[simp] theorem State.openStream_noteCookie (s : State) (t : Nat) (src : Source) (c : Cmd) (h : Nat) :
    ((s.at t).noteCookie src c).openStream h = s.openStream h := by
  rw [State.noteCookie_only]
  rfl

@[simp] theorem State.streamState_noteCookie (s : State) (t : Nat) (src : Source) (c : Cmd) (n : Nat) :
    ((s.at t).noteCookie src c).streamState n = s.streamState n := by
  rw [State.noteCookie_only]
  rfl

@[simp] theorem State.fenceRefused_noteCookie (s : State) (t : Nat) (src : Source) (c : Cmd) (pc : Nat) :
    ((s.at t).noteCookie src c).fenceRefused pc = s.fenceRefused pc := by
  rw [State.noteCookie_only]
  rfl

@[simp] theorem State.link_noteCookie (s : State) (t : Nat) (src : Source) (c : Cmd) (p : Port) :
    ((s.at t).noteCookie src c).link p = s.link p := by
  rw [State.noteCookie_only]
  rfl

@[simp] theorem State.laneRefused_noteCookie (s : State) (t : Nat) (src : Source) (c : Cmd) (p : Port) (lane : Nat) :
    ((s.at t).noteCookie src c).laneRefused p lane = s.laneRefused p lane := by
  rw [State.noteCookie_only]
  rfl

/-- The commit phase is the last stroke of a slack, and in a slack of 32 strokes the last two (R53, R54). -/
theorem phaseOf_eq_commit (slack i : Nat) :
    phaseOf slack i = .commit ↔ (if slack = 16 then 15 else if slack = 32 then 30 else 127) ≤ i := by
  unfold phaseOf
  split_ifs <;> simp <;> omega

/-- The commit strokes of the modes (R54): stroke 255, and in M4 stroke 254 too. -/
theorem State.inCommit_iff (hs : s.clock.stroke ≤ 255) (hm : s.mode.mode < 8) :
    s.inCommit = true ↔ s.clock.stroke = 255 ∨ (s.mode.mode = 4 ∧ s.clock.stroke = 254) := by
  have key : ∀ m < 8, ∀ n ≤ 255, strokePhase m n = some .commit ↔ n = 255 ∨ (m = 4 ∧ n = 254) := by
    intro m hm n hn
    have hphase : strokePhase m n = some .commit ↔ (modeParams m).slackAt ≤ n ∧
        phaseOf (256 - (modeParams m).slackAt) (n - (modeParams m).slackAt) = .commit := by
      simp [strokePhase]
    rw [hphase, phaseOf_eq_commit]
    interval_cases m <;> simp [modeParams] <;> omega
  simpa [State.inCommit, State.phase] using key _ hm _ hs

theorem State.dueTide_eq (hs : s.clock.stroke ≤ 255) (hm : s.mode.mode < 8) : s.dueTide =
    (if s.clock.stroke = 255 ∨ (s.mode.mode = 4 ∧ s.clock.stroke = 254) then s.clock.grid + 2 else s.clock.grid + 1) := by
  simp only [State.dueTide, ← State.inCommit_iff hs hm]
  split <;> rfl

/-- Settles O16: each command clears its checks and its own form, and is then accepted with its change (`Clears.later`); the boundary is
`State.dueTide_eq`. -/
theorem boundaryCommandsAccepted : Obligations.BoundaryCommandsAccepted := by
  unfold Obligations.BoundaryCommandsAccepted
  refine ⟨fun s t src c rest => ⟨?create, ?berth, ?master, ?unload, ?close, ?reset, ?fence, ?lane⟩, fun s => State.dueTide_eq⟩
  case create =>
    intro h hlen htid hcheck
    refine ⟨_, rfl, h.later rfl rfl (by simp [hlen, htid]) rfl ?_⟩
    simp [hcheck, State.orRefuse, State.acceptId]
  case berth =>
    intro h hvalid
    have hlen : (cmdBody c.record).length = 296 := by simp [BerthRec.valid] at hvalid; tauto
    exact ⟨_, rfl, h.later rfl rfl (by simp [hlen]) rfl (if_pos hvalid)⟩
  case master =>
    intro h hvalid
    have hlen : (cmdBody c.record).length = 24 := by simp [State.masterValid] at hvalid; tauto
    exact ⟨_, rfl, h.later rfl rfl (by simp [hlen]) rfl (if_pos (by simpa using hvalid))⟩
  case unload =>
    intro h hbody hset hnone
    refine ⟨_, rfl, h.later rfl rfl (by simp [hbody, hset]) rfl ?_⟩
    simp [hnone]
  case close =>
    intro h hbody hh hopen hberth
    refine ⟨_, rfl, h.later rfl rfl (by simp [hbody, hh]) (by simp [hopen]) ?_⟩
    simp [hberth]
  case reset =>
    intro h hbody hh hopen hberth
    refine ⟨_, rfl, h.later rfl rfl (by simp [hbody, hh]) (by simp [hopen]) ?_⟩
    simp [hberth]
  case fence =>
    intro h hlen hpc hzero hok
    refine ⟨_, rfl, h.later rfl rfl (by simp [hlen, hpc, hzero]) rfl ?_⟩
    simp [hok]
  case lane =>
    intro p h hlen hp hzero hok
    refine ⟨_, rfl, h.later rfl rfl (by simp [hlen, hp, hzero]) rfl ?_⟩
    simp [hp, hok]

end Sys2Proof.Machine
end

section
/-! Commands that wait for the write phase (R61), and the refusals of the shared checks (R176, R177, R437). -/
namespace Sys2Proof.Machine
variable {s x : State} {t : Nat} {src : Source} {c : Cmd} {rest : List Cmd}

theorem State.orRefuse_none (s : State) (src : Source) (c : Cmd) (rest : State → State) : s.orRefuse src c none rest = rest s := rfl

/-- A table that is not absent is there. -/
theorem State.table_of_noTable {tid : Nat} (h : s.noTable src tid = none) : ∃ tb, s.table tid = some tb := by
  unfold State.noTable at h
  split at h
  · simp at h
  · exact ⟨_, by assumption⟩

/-- Settles O18: each command clears its checks, and is then accepted for its write phase (`Clears.waits`). -/
theorem writeCommandsAccepted : Obligations.WriteCommandsAccepted := by
  unfold Obligations.WriteCommandsAccepted
  intro s t src c rest htable
  obtain ⟨tb, htb⟩ : ∃ tb, s.table (cmdTid c.record) = some tb := State.table_of_noTable htable
  refine ⟨?delete, ?modify, ?read, ?counterRead, ?counterWrite, ?tableDelete, ?tableFlush, ?diWrite, ?diRead⟩
  case delete =>
    intro h hbody hkind hroom
    refine ⟨_, rfl, h.waits (form := (cmdBody c.record).isEmpty) rfl (if_neg ?_) (by simp [hbody]) (by simp [htable]) ?_⟩
    · cases hp : ((s.at t).target (cmdTid c.record) (cmdHandle c.record)).2 with
      | none => simp
      | some p => simp [hroom p hp]
    · simp [hkind, State.orRefuse_none]
  case modify =>
    intro h hkind hfit
    obtain ⟨hpos, hlen⟩ := hfit tb htb
    refine ⟨_, rfl, h.waits rfl rfl rfl (by simp [htable]) ?_⟩
    have hsize : tb.df.adBytes ≠ 0 := by omega
    simp [hkind, htb, hlen, hsize, State.orRefuse_none]
  case read =>
    intro h hbody hkind
    refine ⟨_, rfl, h.waits rfl rfl (by simp [hbody]) (by simp [htable]) ?_⟩
    simp [hkind, State.orRefuse_none]
  case counterRead =>
    intro h hbody hkind
    refine ⟨_, rfl, h.waits rfl rfl (by simp [hbody]) (by simp [htable]) ?_⟩
    simp [hkind, State.orRefuse_none]
  case counterWrite =>
    intro h hlen hkind
    refine ⟨_, rfl, h.waits rfl rfl (by simp [hlen]) (by simp [htable]) ?_⟩
    simp [hkind, State.orRefuse_none]
  case tableDelete =>
    intro h hbody
    exact ⟨_, rfl, h.waits rfl rfl (by simp [hbody]) (by simp [htable]) rfl⟩
  case tableFlush =>
    intro h hbody hstate
    refine ⟨_, rfl, h.waits rfl rfl (by simp [hbody]) (by simp [htable]) ?_⟩
    simp [htb, hstate tb htb, State.orRefuse_none]
  case diWrite =>
    intro h hzero hkind hfit
    have hlen := hfit tb htb
    refine ⟨_, rfl, h.waits rfl rfl (by simp [hlen, hzero]) (by simp [htable]) ?_⟩
    simp [hkind, htb, hlen, State.orRefuse_none]
  case diRead =>
    intro h hlen hzero hkind
    refine ⟨_, rfl, h.waits rfl rfl (by simp [hlen, hzero]) (by simp [htable]) ?_⟩
    simp [hkind, State.orRefuse_none]

/-- A command that is refused at its checks is answered at the boundary that R63 gives, and nothing else has changed. -/
theorem refuses_at_head (hf : (s.at t).fifo src = c :: rest) (ht : (s.at t).takeable src c = true) {ops : Nat → Bool}
    {body : State → Cmd → State} (hops : ops (cmdOp c.record) = true) {r h : Nat} (hbody : body (s.at t) c = (s.at t).refuse src c r h) :
    Commits s t src c rest (s.atHead t src ops body).settle r h [] ∧ OnlyTaken s (s.atHead t src ops body).settle t := by
  rw [State.atHead_accept (x := s.at t) hf hops ht hbody rfl (by simp)]
  exact ⟨Commits.accept (x := s.at t) hf rfl rfl rfl _ _ _ _ (State.settle_cmds _), OnlyTaken.accept (m := s.masters) rfl _ _ _ _⟩

/-- A command whose refusal is a violation is answered at the boundary that R63 gives, its master is frozen (R437), and no change joins
those that wait. -/
theorem violates_at_head (hf : (s.at t).fifo src = c :: rest) (ht : (s.at t).takeable src c = true) {ops : Nat → Bool}
    {body : State → Cmd → State} (hops : ops (cmdOp c.record) = true) (hc : x.cmds = { s.cmds with flights := x.cmds.flights })
    (hk : x.clock = (s.at t).clock) (hm : x.mode = s.mode) (hd : x.due = s.due) {r cause info : Nat}
    (hbody : body (s.at t) c = (x.refuse src c r 0).violation c.master cause info) :
    Commits s t src c rest (s.atHead t src ops body).settle r 0 [] ∧
      (((s.atHead t src ops body).settle.master c.master).freeze).isSome = true ∧ (s.atHead t src ops body).settle.due = s.due := by
  have hcmds : ((x.refuse src c r 0).violation c.master cause info).cmds =
      (x.accept src c x.clock.grid true (some (r, 0, 0, 0, [])) (some x.dueTide)).cmds := State.violation_cmds ..
  rw [State.atHead_accept hf hops ht hbody hcmds (by simp)]
  refine ⟨Commits.accept hf hc hk hm _ _ _ _ ((State.settle_cmds _).trans hcmds), ?_, by simp [hd]⟩
  exact State.violation_freezes ..

/-- Settles O8: check 1 comes first (`State.checked_malformed`), then check 2 (`State.checked_unauthentic`), then check 4
(`State.checked_denied`). -/
theorem checksRefuse : Obligations.ChecksRefuse := by
  unfold Obligations.ChecksRefuse
  intro s t src c rest hf ht
  refine ⟨fun h => ⟨?create, ?unload, ?load, ?open_⟩, fun h => ⟨?berth, ?forgive, ?master, ?thaw, ?power, ?fence, ?bank, ?scribe⟩,
    fun hop h hlen hzero hsrc => ⟨?auth, ?deny⟩⟩
  case auth =>
    intro ha
    exact ⟨_, rfl, violates_at_head hf ht (x := s.at t) (by simp [hop]) rfl rfl rfl rfl
      (State.checked_unauthentic h (by simp [hlen, hzero]) ha ..)⟩
  case deny =>
    intro cause ha hd
    exact ⟨_, rfl, violates_at_head hf ht (by simp [hop]) (by simp) (by simp) (by simp) (by simp)
      (State.checked_denied h (by simp [hlen, hzero]) ha rfl hd hsrc _)⟩
  all_goals
    intro hop
    exact ⟨_, rfl, refuses_at_head hf ht (by simp [hop]) (State.checked_malformed h ..)⟩

end Sys2Proof.Machine
end

section
/-! INSERT (R60, R176, R235, R236): what an insertion that is accepted leaves, and when it is. -/
namespace Sys2Proof.Machine
variable {s x y : State} {t n at_ : Nat} {src : Source} {c : Cmd} {rest : List Cmd} {p : Plan} {tb : TableRec} {k : Nat × Nat × Nat}

/-! What an acceptance changes beside the engine. -/

/-- Only the entries, the tables, the spans of the banks and the free values stand otherwise. -/
def PlacesOnly (s x : State) : Prop :=
  x = { s with numbers := x.numbers, tables := x.tables, arrays := { s.arrays with spans := x.arrays.spans }, freeCounter := x.freeCounter }

theorem PlacesOnly.of_eq (h : x = { s with
    numbers := x.numbers, tables := x.tables, arrays := { s.arrays with spans := x.arrays.spans }, freeCounter := x.freeCounter }) :
    PlacesOnly s x := h

theorem PlacesOnly.eq (h : PlacesOnly s x) : x = { s with
    numbers := x.numbers, tables := x.tables, arrays := { s.arrays with spans := x.arrays.spans }, freeCounter := x.freeCounter } := h

theorem PlacesOnly.refl (s : State) : PlacesOnly s s := rfl

theorem PlacesOnly.trans (h : PlacesOnly s x) (g : PlacesOnly x y) : PlacesOnly s y := by
  refine .of_eq ?_
  conv_lhs => rw [g.eq, h.eq]

theorem PlacesOnly.each {α : Type} {f : State → α → State} (hf : ∀ x a, PlacesOnly x (f x a)) (s : State) (l : List α) :
    PlacesOnly s (l.foldl f s) := State.each_of_step (R := PlacesOnly) .refl .trans hf s l

theorem PlacesOnly.cmds (h : PlacesOnly s x) : x.cmds = s.cmds := (congrArg State.cmds h.eq :)
theorem PlacesOnly.clock (h : PlacesOnly s x) : x.clock = s.clock := (congrArg State.clock h.eq :)
theorem PlacesOnly.tags (h : PlacesOnly s x) : x.arrays.tags = s.arrays.tags := (congrArg (fun y => y.arrays.tags) h.eq :)
theorem PlacesOnly.units (h : PlacesOnly s x) : x.arrays.units = s.arrays.units := (congrArg (fun y => y.arrays.units) h.eq :)

theorem placesOnly_setEntry (s : State) (len : Nat) (e : Entry) : PlacesOnly s (s.setEntry len e) := rfl
theorem placesOnly_chargeUnits (s : State) (tid w : Nat) (up : Bool) : PlacesOnly s (s.chargeUnits tid w up) := rfl
theorem placesOnly_takeSpan (s : State) (tid w bank row : Nat) : PlacesOnly s (s.takeSpan tid w bank row) := rfl
theorem placesOnly_takeNumber (s : State) (len : Nat) : PlacesOnly s (s.takeNumber len).1 := by
  unfold State.takeNumber
  exact rfl

/-- The entry of an insertion that is accepted (R139, R154, R235). -/
def placedEntry (tb : TableRec) (rec_ : Bytes) (p : Plan) (k : Nat × Nat × Nat) (gen : Nat) : Entry :=
  ⟨gen, tb.df.tid, tb.df.units, .placing, p.bank, p.row, k.1, k.2.1, tb.counter, insertValue tb.df rec_, insertMask tb.df rec_, 0, true⟩

/-- A flight joins those that are in flight. -/
def State.addFlight (s : State) (f : Insertion) : State := { s with cmds := { s.cmds with flights := s.cmds.flights ++ [f] } }

/-- An insertion that is accepted has an entry that is being placed, and a flight that is to make the first step of its plan; beside them
the engine, the entries, the tables and the spans alone have changed. -/
theorem State.launch_eq (s : State) (src : Source) (c : Cmd) (tb : TableRec) (p : Plan) (len : Nat) (k : Nat × Nat × Nat)
    (victim : Option (Nat × Entry)) (drawn at_ : Nat) : ∃ x f, PlacesOnly s x ∧
      x.entry len = some (placedEntry tb c.record p k f.gen) ∧
      s.launch src c tb p len k victim drawn at_ =
        (x.addFlight f).accept src c s.clock.grid true none none ∧
      f.id = s.cmds.nextId ∧ f.tid = tb.df.tid ∧ f.len = len ∧ f.tide = s.clock.grid ∧ f.bound = s.params.bound ∧
      f.stepTide = at_ ∧ f.nextStep = 0 ∧ f.victim = victim.map (fun v => v.1) := by
  obtain ⟨s1, gen, h1⟩ : ∃ s1 gen, s.takeNumber len = (s1, gen) := ⟨_, _, rfl⟩
  have hs1 : PlacesOnly s s1 := by
    have h := placesOnly_takeNumber s len
    rwa [h1] at h
  simp only [State.launch, h1]
  refine ⟨_, _, ?_, ?_, rfl, rfl, rfl, rfl, rfl, rfl, rfl, rfl, rfl⟩
  · refine PlacesOnly.trans ?_ (PlacesOnly.each (fun x r => placesOnly_takeSpan x _ _ _ r) _ _)
    refine PlacesOnly.trans ?_ (.of_eq rfl)
    refine PlacesOnly.trans ?_ (placesOnly_chargeUnits _ _ _ _)
    refine PlacesOnly.trans ?_ (placesOnly_setEntry _ _ _)
    refine PlacesOnly.trans (y := State.each _ _ _) ?_ (PlacesOnly.each (fun x z => ?_) _ _)
    · refine hs1.trans ?_
      split
      · exact (placesOnly_setEntry _ _ _).trans (placesOnly_chargeUnits _ _ _ _)
      · exact .refl _
    · split
      · exact placesOnly_setEntry _ _ _
      · exact .refl _
  · unfold State.entry
    rw [foldl_keeps (fun (x : State) r => x.takeSpan tb.df.tid tb.df.units p.bank r) (fun x => x.numbers) _ _ (fun _ _ _ => rfl)]
    exact Table.find_put_same ..

/-! When an insertion is accepted. -/

/-- The victim of an insertion: none where no quota binds. -/
def State.victimFor (s : State) (tb : TableRec) : Option (Nat × Entry) :=
  if ((s.quotaBinds tb).1 || (s.quotaBinds tb).2) = true then (s.chooseVictim tb).1 else none

/-- With a number, keys and a plan that the rules allow, and a victim where a quota binds, an insertion is accepted. -/
theorem State.insertPlace2_launch (hevict : ((s.quotaBinds tb).1 || (s.quotaBinds tb).2) = true → tb.df.evict ≠ 0)
    (hvictim : ((s.quotaBinds tb).1 || (s.quotaBinds tb).2) = true → (s.victimFor tb).isSome = true)
    (hroom : ∀ x, s.victimFor tb = some x → s.removalRoom x.2 s.firstStep = true) (hplan : p.noPlan = false)
    (hflights : s.cmds.flights.length < flightLimit s.mode.mode) (hlabels : s.labelsOk tb c.record p.relabel = true)
    (hn : s.nextNumber = some n) (hk : s.newKeys tb c.record n p.relabel = some k) (hat : s.firstMove p.relabel = some at_)
    (hok : s.planOk tb (insertValue tb.df c.record) (insertMask tb.df c.record) k p at_ = true) :
    ∃ drawn, s.insertPlace2 src c tb p = s.launch src c tb p n k (s.victimFor tb) drawn at_ := by
  unfold State.victimFor at *
  by_cases hfull : ((s.quotaBinds tb).1 || (s.quotaBinds tb).2) = true
  · rw [if_pos hfull] at hvictim hroom ⊢
    obtain ⟨v, hv⟩ := Option.isSome_iff_exists.mp (hvictim hfull)
    refine ⟨(s.chooseVictim tb).2, ?_⟩
    simp [State.insertPlace2, hfull, hevict hfull, hv, hroom v hv, hn, hk, hplan, hat, hflights, hlabels, hok]
  · rw [if_neg hfull]
    rw [Bool.not_eq_true] at hfull
    refine ⟨0, ?_⟩
    simp [State.insertPlace2, hfull, hn, hk, hplan, hat, hflights, hlabels, hok]

/-- Where a quota binds and the table does not evict, an insertion is refused (R168, R169). -/
theorem State.insertPlace2_full (hbinds : ((s.quotaBinds tb).1 || (s.quotaBinds tb).2) = true) (hevict : tb.df.evict = 0) :
    s.insertPlace2 src c tb p = s.refuse src c (if (s.quotaBinds tb).1 then 0x03 else 0x04) 0 := by
  unfold State.insertPlace2
  exact if_pos (by simp [hbinds, hevict])

/-! The choices of the pilot do not turn on the masters. -/

theorem State.draws_masters {α : Type} (s : State) (m : Table Master) (n free : Nat) (l : List α) :
    { s with masters := m }.draws n free l = s.draws n free l := by
  induction n generalizing free l with
  | zero => simp only [State.draws]
  | succ n ih => cases l <;> simp only [State.draws, ih]

theorem State.chooseVictim_masters (s : State) (m : Table Master) (tb : TableRec) :
    { s with masters := m }.chooseVictim tb = s.chooseVictim tb := by
  unfold State.chooseVictim
  simp only [State.draws_masters]
  rfl

theorem State.labelTides_masters (s : State) (m : Table Master) (banks : List (List Nat)) (tide : Nat) (used : Demand) (fuel : Nat) :
    { s with masters := m }.labelTides banks tide used fuel = s.labelTides banks tide used fuel := by
  have hfits : ∀ tide used banks n, { s with masters := m }.planFits tide used banks n = s.planFits tide used banks n :=
    fun _ _ _ _ => rfl
  fun_induction State.labelTides s banks tide used fuel with
  | case1 | case2 => simp only [State.labelTides]
  | case3 _ _ _ _ _ hfit ih | case4 _ _ _ _ _ hfit ih => simp [State.labelTides, hfits, hfit, ih]

theorem State.stepsFit_masters (s : State) (m : Table Master) (w bank : Nat) (steps : List (List Move)) (tide : Nat) :
    { s with masters := m }.stepsFit w bank steps tide = s.stepsFit w bank steps tide := by
  induction steps generalizing tide with
  | nil => rfl
  | cons moves steps ih =>
    simp only [State.stepsFit, ih]
    rfl

theorem State.playTides_masters (s : State) (m : Table Master) (df : TableDef) (bank : Nat)
    (tides : List (List Move × List PlacedRow × List Move)) (rows : List PlacedRow) (vacated : List Nat) :
    { s with masters := m }.playTides df bank tides rows vacated = s.playTides df bank tides rows vacated := by
  induction tides generalizing rows vacated with
  | nil => rfl
  | cons tide tides ih =>
    simp only [State.playTides, ih]
    rfl

theorem State.planOk_masters (s : State) (m : Table Master) (tb : TableRec) (value mask : Digits) (k : Nat × Nat × Nat) (p : Plan)
    (at_ : Nat) : { s with masters := m }.planOk tb value mask k p at_ = s.planOk tb value mask k p at_ := by
  simp only [State.planOk, State.planPlays, State.stepsFit_masters, State.playTides_masters]
  rfl

/-- Settles O19: the checks and the quota refuse as they do for every command; with all its conditions met an insertion is launched
(`State.insertPlace2_launch`), which leaves its entry and its flight (`State.launch_eq`). -/
theorem insertAccepted : Obligations.InsertAccepted := by
  unfold Obligations.InsertAccepted
  intro s t src c rest p tb h hform htable htb
  obtain ⟨m, hm⟩ : ∃ m, (s.at t).noteCookie src c = { s.at t with masters := m } := ⟨_, State.noteCookie_only ..⟩
  have htb' : ((s.at t).noteCookie src c).table (cmdTid c.record) = some tb := by simpa using htb
  have hquota : ((s.at t).noteCookie src c).quotaBinds tb = (s.at t).quotaBinds tb := by rw [hm]; rfl
  have hchecked : ((s.at t).noteCookie src c).insertCheck tb c.record = (s.at t).insertCheck tb c.record := by rw [hm]; rfl
  refine ⟨?checked, ?quota, ?accepted⟩
  case checked =>
    intro r hd hcheck
    refine ⟨_, rfl, h.refuses rfl rfl hform (by simp [htable]) ?_⟩
    simp only [htb', hchecked, hcheck]
  case quota =>
    intro hcheck hbinds hevict
    refine ⟨_, rfl, h.refuses rfl rfl hform (by simp [htable]) ?_⟩
    simp only [htb', hchecked, hcheck]
    rw [State.insertPlace2_full (by rw [hquota]; exact hbinds) hevict, hquota]
  case accepted =>
    intro hcheck hevict v hvictim hroom hplan hflights hlabels n k at_ hn hk hat hok
    have hv : ((s.at t).noteCookie src c).victimFor tb = v := by
      unfold State.victimFor
      rw [hquota, hm, State.chooseVictim_masters]
    have hat' : ((s.at t).noteCookie src c).firstMove p.relabel = some at_ := by
      rw [← hat, hm]
      exact State.labelTides_masters ..
    obtain ⟨drawn, hplace⟩ := State.insertPlace2_launch (s := (s.at t).noteCookie src c) (src := src) (by rw [hquota]; exact hevict)
      (by rw [hquota, hv]; exact hvictim) (by rw [hv, hm]; exact hroom) hplan (by rw [hm]; exact hflights) (by rw [hm]; exact hlabels)
      (by rw [hm]; exact hn) (by rw [hm]; exact hk) hat' (by rw [hm, State.planOk_masters]; exact hok)
    obtain ⟨x, f, hx, he, hlaunch, hid, htid, hlen, htide, hbound, hstep, hnext, hvic⟩ :=
      State.launch_eq ((s.at t).noteCookie src c) src c tb p n k (((s.at t).noteCookie src c).victimFor tb) drawn at_
    rw [hm] at hid htide hbound hx
    have hc : x.cmds = s.cmds := hx.cmds
    have hengine : (x.addFlight f).cmds = { s.cmds with flights := (x.addFlight f).cmds.flights } := by simp [State.addFlight, hc]
    refine h.answers rfl rfl rfl hform (by simp [htable]) (x := x.addFlight f)
      (y := (x.addFlight f).accept src c ((s.at t).noteCookie src c).clock.grid true none none) ?launch hengine rfl (by simp)
      ⟨⟨_, Taken.accept h.1 hengine (congrArg (·.grid) hx.clock) _ _ _ _ (State.settle_cmds _), rfl, rfl⟩,
        ⟨f, placedEntry tb c.record p k f.gen, ?flight, ?entry, hid, htid, hlen, rfl, htide, hbound, hstep, hnext, by rw [hvic, hv],
          rfl, rfl, rfl, rfl, rfl, rfl, rfl, rfl, rfl⟩, ?tags, ?units⟩
    case launch => simp only [htb', hchecked, hcheck, hplace, hlaunch]
    case flight => simp [State.addFlight, hc]
    case entry =>
      rw [← he]
      simp [State.entry, State.addFlight]
    case tags => simpa [State.addFlight] using hx.tags
    case units => simpa [State.addFlight] using hx.units

end Sys2Proof.Machine
end

section
/-! PPS_IN (R76 to R80): what an accepted edge, the loss of the edges and the arming of a step leave. -/
namespace Sys2Proof.Machine
variable {s x : State} {t : Nat}

/-- A field of another register, or one that shares no bit with the field written, reads as before. -/
theorem State.fld_setFld_apart (s : State) (f g : Fld) (v : Nat) (h : g.reg.offset ≠ f.reg.offset ∨
    g.reg = f.reg ∧ f.lo + f.width ≤ 64 ∧ (g.lo + g.width ≤ f.lo ∨ f.lo + f.width ≤ g.lo)) : (s.setFld f v).fld g = s.fld g := by
  obtain h | ⟨hreg, hin, hlo⟩ := h
  · exact State.fld_setFld_reg s f g 0 0 v h
  · exact State.fld_setFld_disjoint s f g 0 v hreg hin (Reg.resetNat_lt _) hlo

theorem State.bit_setFld_apart (s : State) (f g : Fld) (v : Nat) (h : g.reg.offset ≠ f.reg.offset ∨
    g.reg = f.reg ∧ f.lo + f.width ≤ 64 ∧ (g.lo + g.width ≤ f.lo ∨ f.lo + f.width ≤ g.lo)) : (s.setFld f v).bit g = s.bit g := by
  unfold State.bit
  rw [State.fld_setFld_apart s f g v h]

/-- A bit reads as it was written. -/
theorem State.bit_setFld_same (s : State) (f : Fld) (v : Nat) (hw : f.width = 1) (hf : f.lo + f.width ≤ 64) :
    (s.setFld f v).bit f = decide (v % 2 = 1) := by
  unfold State.bit
  rw [State.fld_setFld_same s f 0 _ hf (Reg.resetNat_lt _), hw, pow_one]
  obtain h | h := Nat.mod_two_eq_zero_or_one v <;> rw [h] <;> rfl

/-- What an accepted edge records (R76, R78). -/
def State.record (s : State) (tide stroke err : Nat) (locked : Bool) : State :=
  ((((s.setFld Fld.GLB_PPS_CAPTURE_tide tide).setFld Fld.GLB_PPS_CAPTURE_stroke stroke).setFld
    Fld.GLB_TIDE_STATUS_phase_err err).setFld Fld.GLB_TIDE_STATUS_holdover 0).setFld Fld.GLB_TIDE_STATUS_locked (b2n locked)

theorem State.record_tide (s : State) (tide stroke err : Nat) (locked : Bool) :
    (s.record tide stroke err locked).fld Fld.GLB_PPS_CAPTURE_tide = tide % 2 ^ Fld.GLB_PPS_CAPTURE_tide.width := by
  unfold State.record
  rw [State.fld_setFld_apart _ _ _ _ (by decide), State.fld_setFld_apart _ _ _ _ (by decide), State.fld_setFld_apart _ _ _ _ (by decide),
    State.fld_setFld_apart _ _ _ _ (by decide), State.fld_setFld_same _ _ _ _ (by decide) (Reg.resetNat_lt _)]

theorem State.record_stroke (s : State) (tide stroke err : Nat) (locked : Bool) :
    (s.record tide stroke err locked).fld Fld.GLB_PPS_CAPTURE_stroke = stroke % 2 ^ Fld.GLB_PPS_CAPTURE_stroke.width := by
  unfold State.record
  rw [State.fld_setFld_apart _ _ _ _ (by decide), State.fld_setFld_apart _ _ _ _ (by decide), State.fld_setFld_apart _ _ _ _ (by decide),
    State.fld_setFld_same _ _ _ _ (by decide) (Reg.resetNat_lt _)]

theorem State.record_phase (s : State) (tide stroke err : Nat) (locked : Bool) :
    (s.record tide stroke err locked).fld Fld.GLB_TIDE_STATUS_phase_err = err % 2 ^ Fld.GLB_TIDE_STATUS_phase_err.width := by
  unfold State.record
  rw [State.fld_setFld_apart _ _ _ _ (by decide), State.fld_setFld_apart _ _ _ _ (by decide),
    State.fld_setFld_same _ _ _ _ (by decide) (Reg.resetNat_lt _)]

theorem State.record_holdover (s : State) (tide stroke err : Nat) (locked : Bool) :
    (s.record tide stroke err locked).fld Fld.GLB_TIDE_STATUS_holdover = 0 := by
  unfold State.record
  rw [State.fld_setFld_apart _ _ _ _ (by decide), State.fld_setFld_same _ _ _ _ (by decide) (Reg.resetNat_lt _)]
  rfl

theorem State.record_locked (s : State) (tide stroke err : Nat) (locked : Bool) :
    (s.record tide stroke err locked).bit Fld.GLB_TIDE_STATUS_locked = locked := by
  unfold State.record
  rw [State.bit_setFld_same _ _ _ rfl (by decide)]
  cases locked <;> rfl

/-- The clock after an accepted edge (R77, R80). -/
theorem State.takeEdge_eq (s : State) : s.takeEdge = State.record { s with clock := s.takeEdge.clock } (s.clock.count % 2 ^ 56)
    s.clock.stroke (twos (phaseError s.clock.count s.clock.stroke) 32)
    (lockedAfter s.clock.goodEdges (s.bit Fld.GLB_TIDE_STATUS_locked) (phaseError s.clock.count s.clock.stroke)).2 := rfl

/-- The trim that an edge asks for lies within the limit (R77). -/
theorem natAbs_nextTrim_le (trim e : Int) (prev : Option Int) (limit : Nat) : (nextTrim trim e prev limit).natAbs ≤ 16 * limit := by
  unfold nextTrim
  dsimp only
  omega

theorem State.takeEdge_trim (s : State) (h : s.bit Fld.GLB_TIDE_CTL_lock_en = true) :
    ∃ x : Int, s.takeEdge.clock.trimNext = some x ∧ x.natAbs ≤ 16 * s.fld Fld.GLB_TIDE_CTL_trim_limit :=
  ⟨_, if_pos h, natAbs_nextTrim_le ..⟩

theorem State.takeEdge_keeps_trim (s : State) (h : s.bit Fld.GLB_TIDE_CTL_lock_en = false) :
    s.takeEdge.clock.trimNext = s.clock.trimNext := if_neg (by rw [h]; exact Bool.false_ne_true)

theorem State.takeEdge_step (s : State) (h : s.bit Fld.GLB_TIDE_CTL_step = true) : s.takeEdge.clock.stepTo =
    some (s.fld Fld.GLB_TOD_NEXT_seconds * 5859375 + (if s.clock.stroke < 128 then 1 else 0)) := by
  refine (if_pos h).trans (congrArg some ?_)
  split_ifs
  · rfl
  · exact (Nat.add_zero _).symm

/-- An error beyond 16 strokes ends the lock (R78). -/
theorem lockedAfter_far (good : Nat) (locked : Bool) {e : Int} (h : 16 < e.natAbs) : (lockedAfter good locked e).2 = false := if_pos h

/-! The loss of the edges. -/

/-- Posting a fault changes no field of a register outside the fault log. -/
theorem State.fld_postFault (s : State) (g : Fld) (cls block : Nat) (bytes : Bytes) (h1 : g.reg.offset ≠ Reg.offset .FLT_COUNT1)
    (h2 : g.reg.offset ≠ Reg.offset .FLT_STATUS) (h3 : g.reg.offset ≠ (classCount cls).reg.offset) :
    (s.postFault cls block bytes).fld g = s.fld g := by
  have hraised : ∀ (y : State) (f : Fld) (v : Nat), g.reg.offset ≠ f.reg.offset → (y.raiseBits f v).fld g = y.fld g :=
    fun y f v h => (State.fld_raiseBits y f g 0 0 v).trans (State.fld_setFld_apart y f g _ (.inl h))
  have hsent : ∀ y : State, (y.sendVector cls).fld g = y.fld g := fun y => State.fld_of_regs (State.sendVector_regs y cls) g 0
  unfold State.postFault
  dsimp only
  rw [apply_ite (fun y : State => y.fld g), hsent, ite_self, hraised _ _ _ h2, State.fld_bumpHold_reg _ _ _ _ _ _ h3,
    apply_ite (fun y : State => y.fld g), State.raise, hraised _ _ _ h2, State.fld_bump_reg _ _ _ _ _ _ h1]
  exact ite_self _

/-- What the loss of the edges shows (R78, R79). -/
def State.holdover (s : State) : State :=
  ((s.setFld Fld.GLB_TIDE_STATUS_holdover 1).setFld Fld.GLB_TIDE_STATUS_locked 0).raise Fld.GLB_TIDE_STATUS_pps_lost

theorem State.holdover_bits (s : State) : s.holdover.bit Fld.GLB_TIDE_STATUS_holdover = true ∧
    s.holdover.bit Fld.GLB_TIDE_STATUS_locked = false ∧ s.holdover.bit Fld.GLB_TIDE_STATUS_pps_lost = true := by
  have hraise : ∀ (y : State) (g : Fld), (y.raise Fld.GLB_TIDE_STATUS_pps_lost).bit g =
      (y.setFld Fld.GLB_TIDE_STATUS_pps_lost (y.fld Fld.GLB_TIDE_STATUS_pps_lost ||| 1)).bit g := fun _ _ => rfl
  refine ⟨?_, ?_, State.bit_raise_same _ _ 0 rfl (by decide) (Reg.resetNat_lt _)⟩
  · unfold State.holdover
    rw [hraise, State.bit_setFld_apart _ _ _ _ (by decide), State.bit_setFld_apart _ _ _ _ (by decide),
      State.bit_setFld_same _ _ _ rfl (by decide)]
    rfl
  · unfold State.holdover
    rw [hraise, State.bit_setFld_apart _ _ _ _ (by decide), State.bit_setFld_same _ _ _ rfl (by decide)]
    rfl

theorem State.bit_enterHoldover (s : State) {g : Fld} (hreg : g.reg = .GLB_TIDE_STATUS) : s.enterHoldover.bit g = s.holdover.bit g := by
  have hclass : (classCount 2).reg = .FLT_COUNT0 := rfl
  exact congrArg (· != 0) ((State.fld_postFault _ g 2 0 _ (by rw [hreg]; decide) (by rw [hreg]; decide) (by rw [hreg, hclass]; decide)).trans
    (State.fld_of_regs rfl g 0))

theorem State.enterHoldover_clock (s : State) : s.enterHoldover.clock = { s.clock with goodEdges := 0, prevErr := none } := by
  simp [State.enterHoldover]

/-- Only the clock, the registers, the fault log and the outbox stand otherwise. -/
def Reports (s x : State) : Prop := x = { s with
  clock := x.clock, regs := x.regs, rc := x.rc, setBits := x.setBits, setAt := x.setAt, faults := x.faults, out := x.out
  freeCounter := x.freeCounter }

theorem Reports.eq {y : State} (h : Reports s y) : y = { s with
    clock := y.clock, regs := y.regs, rc := y.rc, setBits := y.setBits, setAt := y.setAt, faults := y.faults, out := y.out
    freeCounter := y.freeCounter } := h

theorem Reports.trans {y : State} (h : Reports s x) (k : Reports x y) : Reports s y := by
  unfold Reports
  conv_lhs => rw [k.eq, h.eq]

theorem Reports.settles {y : State} (h : Reports (s.at t) y) : y.settle = { s with
    clock := y.settle.clock, start := y.settle.start, regs := y.settle.regs, rc := y.settle.rc, setBits := y.settle.setBits
    setAt := y.settle.setAt, faults := y.settle.faults, out := y.settle.out, freeCounter := y.settle.freeCounter
    pins := y.settle.pins, ring := y.settle.ring } := by
  obtain ⟨k, r, rc, bits, at_, f, o, n, rfl⟩ : ∃ k r rc bits at_ f o n, y = { s.at t with
      clock := k, regs := r, rc := rc, setBits := bits, setAt := at_, faults := f, out := o, freeCounter := n } :=
    ⟨_, _, _, _, _, _, _, _, h⟩
  rfl

theorem reports_faultEvent (s : State) (code cls block object a b : Nat) : Reports s (s.faultEvent code cls block object a b) := by
  unfold Reports
  apply State.ext <;> simp

theorem reports_setFld (s : State) (f : Fld) (v : Nat) : Reports s (s.setFld f v) := rfl

theorem reports_raise (s : State) (f : Fld) : Reports s (s.raise f) := rfl

theorem reports_clock (s : State) (k : Clock) : Reports s { s with clock := k } := rfl

theorem reports_takeEdge (s : State) : Reports s s.takeEdge := by
  rw [State.takeEdge_eq]
  exact (((((reports_clock s _).trans (reports_setFld ..)).trans (reports_setFld ..)).trans (reports_setFld ..)).trans
    (reports_setFld ..)).trans (reports_setFld ..)

theorem reports_enterHoldover (s : State) : Reports s s.enterHoldover := by
  exact ((((reports_clock s _).trans (reports_setFld ..)).trans (reports_setFld ..)).trans (reports_raise ..)).trans
    (reports_faultEvent ..)

/-! The arming of a step. -/

theorem State.setFld_settles {y : State} (hy : y = { x with clock := y.clock, regs := y.regs }) (f : Fld) (v : Nat) :
    (y.setFld f v).settle = { x with
      clock := (y.setFld f v).settle.clock, start := (y.setFld f v).settle.start, regs := (y.setFld f v).settle.regs
      pins := (y.setFld f v).settle.pins, ring := (y.setFld f v).settle.ring } := by
  obtain ⟨k, r, rfl⟩ : ∃ k r, y = { x with clock := k, regs := r } := ⟨_, _, hy⟩
  rfl

/-- A write of GLB_TIDE_CTL that arms a step (R80): beside the stored fields and the step bit, the lock bit has moved the clock, or the
holdover bit alone. -/
theorem State.writeTideCtl_arms {w : Word64} (h : Stores s t .GLB_TIDE_CTL 0 w x) (hgo : Fld.GLB_TIDE_CTL_step.get w.toNat = 1)
    (hidle : s.bit Fld.GLB_TIDE_CTL_step = false) : ∃ y : State, (s.at t).writeTideCtl 0 w.toNat fullMask = y.setFld Fld.GLB_TIDE_CTL_step 1 ∧
      y = { x with clock := y.clock, regs := y.regs } ∧ y.bit Fld.GLB_TIDE_CTL_lock_en = x.bit Fld.GLB_TIDE_CTL_lock_en := by
  obtain ⟨-, hserved, hstored⟩ := h
  let y := if x.bit Fld.GLB_TIDE_CTL_lock_en && !s.bit Fld.GLB_TIDE_CTL_lock_en then { x with clock := { x.clock with lockSince := s.clock.grid } }
      else if !x.bit Fld.GLB_TIDE_CTL_lock_en then x.setFld Fld.GLB_TIDE_STATUS_holdover 0 else x
  refine ⟨y, ?_, ?_⟩
  · unfold State.writeTideCtl
    simp only [hserved, hstored, and_fullMask, hgo, State.bit_at, hidle]
    rfl
  · unfold y
    split_ifs
    · exact ⟨rfl, rfl⟩
    · exact ⟨rfl, State.bit_setFld_apart _ _ _ _ (by decide)⟩
    · exact ⟨rfl, rfl⟩

/-- Settles O13: an accepted edge is `State.takeEdge_eq`, the loss of the edges `State.holdover_bits`, and the arming of a step
`State.writeTideCtl_arms`. -/
theorem ppsAndStep : Obligations.PpsAndStep := by
  unfold Obligations.PpsAndStep
  intro s t
  refine ⟨?edge, ?lost, ?arm⟩
  case edge =>
    intro h
    have hrec := (s.at t).takeEdge_eq
    refine Answers.of_eq rfl (if_pos h) ⟨?tide, ?stroke, ?phase, ?holdover, ?far, ?locks, ?held, ?steps, (reports_takeEdge _).settles⟩
    case tide =>
      rw [State.fld_settle, hrec, State.record_tide]
      exact Nat.mod_mod _ (2 ^ 56)
    case stroke => rw [State.fld_settle, hrec, State.record_stroke]; rfl
    case phase => rw [State.fld_settle, hrec, State.record_phase]; rfl
    case holdover => rw [State.fld_settle, hrec, State.record_holdover]
    case far =>
      intro hfar
      rw [State.bit_settle, hrec, State.record_locked, lockedAfter_far _ _ hfar]
    case locks =>
      rw [State.settle_clock]
      exact (s.at t).takeEdge_trim
    case held =>
      rw [State.settle_clock]
      exact (s.at t).takeEdge_keeps_trim
    case steps =>
      rw [State.settle_clock]
      exact (s.at t).takeEdge_step
  case lost =>
    intro h
    obtain ⟨hholdover, hlocked, hlost⟩ := (s.at t).holdover_bits
    refine Answers.of_eq rfl (if_pos h) ⟨?_, ?_, ?_, ?_, ?_, (reports_enterHoldover _).settles⟩
    · rw [State.bit_settle, State.bit_enterHoldover _ rfl, hholdover]
    · rw [State.bit_settle, State.bit_enterHoldover _ rfl, hlocked]
    · rw [State.bit_settle, State.bit_enterHoldover _ rfl, hlost]
    · rw [State.settle_clock, State.enterHoldover_clock]
      rfl
    · rw [State.settle_clock, State.enterHoldover_clock]
  case arm =>
    intro w x hstores hgo hidle
    obtain ⟨y, hwrite, hy, hlock⟩ := State.writeTideCtl_arms hstores hgo hidle
    refine Answers.of_eq rfl hwrite ⟨?_, ?_, ?_⟩
    · exact (State.bit_settle ..).trans (State.bit_setFld_same _ _ _ rfl (by decide))
    · exact (State.bit_settle ..).trans ((State.bit_setFld_apart _ _ _ _ (by decide)).trans hlock)
    · exact State.setFld_settles hy ..

end Sys2Proof.Machine
end

section
/-! Scribes and the assignment of chunks (R355 to R358, R367, R368). -/
namespace Sys2Proof.Machine
variable {s x : State} {t : Nat} {c : Chunk}

/-! The go of SCB_SCRIBE_CTL. -/

theorem State.setFld_scribe (s : State) (f : Fld) (v n : Nat) : (s.setFld f v).scribe n = s.scribe n := by simp [State.scribe]

/-- A scribe that may not go offline has the check's code as its result (R368). -/
theorem State.scribeGo_refused (hop : s.fld Fld.SCB_SCRIBE_CTL_op = 1)
    (hup : s.domainDown (26 + s.fld Fld.SCB_SCRIBE_CTL_scribe / 32) = false) (hcheck : s.offlineCheck (s.fld Fld.SCB_SCRIBE_CTL_scribe) ≠ 0) :
    s.scribeGo = s.setFld Fld.SCB_SCRIBE_CTL_result (s.offlineCheck (s.fld Fld.SCB_SCRIBE_CTL_scribe)) := by
  simp [State.scribeGo, hup, hop, hcheck]

/-- A scribe that may go offline does so at the boundary that ends the next tide (R367). -/
theorem State.scribeGo_offline (hop : s.fld Fld.SCB_SCRIBE_CTL_op = 1)
    (hup : s.domainDown (26 + s.fld Fld.SCB_SCRIBE_CTL_scribe / 32) = false) (hcheck : s.offlineCheck (s.fld Fld.SCB_SCRIBE_CTL_scribe) = 0)
    (hon : (s.scribe (s.fld Fld.SCB_SCRIBE_CTL_scribe)).offlineAt = none) :
    s.scribeGo = (s.setFld Fld.SCB_SCRIBE_CTL_result 0).setScribe (s.fld Fld.SCB_SCRIBE_CTL_scribe)
      { s.scribe (s.fld Fld.SCB_SCRIBE_CTL_scribe) with offlineAt := some (s.clock.grid + 2), onlineAt := none } := by
  simp [State.scribeGo, hup, hop, hcheck, State.takeOffline, State.setFld_scribe, hon]

theorem State.scribeGo_online (hop : s.fld Fld.SCB_SCRIBE_CTL_op = 2)
    (hup : s.domainDown (26 + s.fld Fld.SCB_SCRIBE_CTL_scribe / 32) = false) :
    s.scribeGo = (s.setFld Fld.SCB_SCRIBE_CTL_result 0).setScribe (s.fld Fld.SCB_SCRIBE_CTL_scribe)
      { s.scribe (s.fld Fld.SCB_SCRIBE_CTL_scribe) with offlineAt := none, onlineAt := some s.dueTide } := by
  have hdue : (s.setFld Fld.SCB_SCRIBE_CTL_result 0).dueTide = s.dueTide := by simp [State.dueTide, State.inCommit, State.phase]
  simp [State.scribeGo, hup, hop, State.takeOnline, State.setFld_scribe, hdue]

/-- What the go of SCB_SCRIBE_CTL does, in terms of the state before the write: the stored fields alone stand otherwise. -/
theorem Stores.scribeGo {w : Word64} (h : Stores s t .SCB_SCRIBE_CTL 0 w x) (hgo : Fld.SCB_SCRIBE_CTL_go.get w.toNat = 1)
    (hauth : s.cmdAuth = false) : (s.at t).writeScribeCtl 0 w.toNat fullMask = x.scribeGo :=
  State.goClosed_of h _ _ _ _ hgo hauth rfl

/-! Assignment. -/

theorem each_of_fixed {α : Type} {f : State → α → State} {l : List α} (h : ∀ a ∈ l, f s a = s) : s.each l f = s := by
  induction l with
  | nil => rfl
  | cons a l ih =>
    unfold State.each at ih ⊢
    rw [List.foldl_cons, h a List.mem_cons_self]
    exact ih fun b hb => h b (List.mem_cons_of_mem _ hb)

/-- A half without queued chunks assigns none. -/
theorem State.assignContinuation_of_empty (hq : s.scribes.queue = []) (half y : Nat) : s.assignContinuation half y = s := by
  have hc : s.candidates half = [] := by simp [State.candidates, hq, oldestChunks]
  unfold State.assignContinuation
  split
  · rfl
  · simp [hc]

theorem State.assignOther_of_empty (hq : s.scribes.queue = []) (half y : Nat) : s.assignOther half y = s := by
  have hc : s.nextChunk half = none := by simp [State.nextChunk, State.candidates, hq, oldestChunks]
  simp [State.assignOther, hc]

theorem State.assignHalf_of_empty (hq : s.scribes.queue = []) (half : Nat) : s.assignHalf half = s := by
  have hcont : ∀ l : List Nat, s.each l (fun x y => x.assignContinuation half y) = s :=
    fun l => each_of_fixed fun y _ => State.assignContinuation_of_empty hq half y
  unfold State.assignHalf
  dsimp only
  rw [hcont]
  exact each_of_fixed fun y _ => State.assignOther_of_empty hq half y

theorem Table.find_mem_vals {α : Type} {m : Table α} {k : Nat} {v : α} (h : m.find k = some v) : v ∈ m.vals := by
  induction m with
  | nil => simp at h
  | cons p m ih =>
    obtain ⟨j, u⟩ := p
    unfold Table.find at h
    split at h
    · obtain rfl : u = v := Option.some.inj h
      exact List.mem_cons_self
    · exact List.mem_cons_of_mem _ (ih h)

/-- Where no scribe is at work, none has a chunk. -/
theorem State.scribe_idle (h : ∀ v ∈ s.scribes.scribes.vals, v.work = []) (y : Nat) : (s.scribe y).work = [] := by
  unfold State.scribe Table.findD
  cases hv : s.scribes.scribes.find y with
  | none => rfl
  | some v => exact h v (Table.find_mem_vals hv)

theorem State.runsIn_idle (h : ∀ v ∈ s.scribes.scribes.vals, v.work = []) (n tide : Nat) : s.runsIn n tide = false := by
  unfold State.runsIn
  rw [List.any_eq_false]
  intro v hv
  simp [h v hv]

/-- The round-robin reaches the one set that there is, wherever it stands. -/
theorem nextSetOf_one {n : Nat} (hn : n < 64) (last : Nat) : nextSetOf [n] last = some n := by
  unfold nextSetOf
  cases hfind : ((List.range 64).map (fun i => (last + 1 + i) % 64)).find? (fun m => [n].contains m) with
  | none =>
    have hmem : n ∈ (List.range 64).map (fun i => (last + 1 + i) % 64) := by
      refine List.mem_map.mpr ⟨(n + 63 * (last + 1)) % 64, List.mem_range.mpr (Nat.mod_lt _ (by decide)), ?_⟩
      omega
    simpa using List.find?_eq_none.mp hfind n hmem
  | some m => simpa using List.find?_some hfind

/-- The one chunk that may be assigned is the next one: its class and its set come first, as no other has a candidate. -/
theorem State.nextChunk_one {half : Nat} (hc : s.candidates half = [c]) (hidle : ∀ v ∈ s.scribes.scribes.vals, v.work = [])
    (hcls : c.cls < 4) (hset : c.set < 64) : s.nextChunk half = some c := by
  have hfree : [c].filter (fun c => !s.runsIn c.stream s.clock.grid) = [c] := by simp [State.runsIn_idle hidle]
  have hclass : [0, 1, 2, 3].find? (fun k => [c].any (fun c => c.cls == k)) = some c.cls := by
    have hk := hcls
    interval_cases h : c.cls <;> simp [h]
  unfold State.nextChunk
  simp only [hc, hfree, hclass]
  simp [nextSetOf_one hset]

/-- What an assignment changes beside the scribes: the credit or the place that the record held, and the queues of the pseudo-channels. -/
def AssignsOnly (s x : State) : Prop := x = { s with links := x.links, host := x.host, scribes := x.scribes, memQueues := x.memQueues }

theorem AssignsOnly.trans {y : State} (h : AssignsOnly s x) (k : AssignsOnly x y) : AssignsOnly s y := by
  obtain ⟨l, ho, sc, q, rfl⟩ : ∃ l ho sc q, x = { s with links := l, host := ho, scribes := sc, memQueues := q } := ⟨_, _, _, _, h⟩
  exact k

theorem assignsOnly_creditChunk (s : State) (c : Chunk) : AssignsOnly s (s.creditChunk c) := by
  unfold State.creditChunk
  split
  · rfl
  · unfold AssignsOnly
    apply State.ext <;> simp

theorem assignsOnly_dramIssue (s : State) (port a n : Nat) : AssignsOnly s (s.dramIssue port a n) := by
  have hread : ∀ (x : State) (k : Nat), AssignsOnly x (x.queueRead port (columnPc (k / 8) (k % 8)) (32 * (k / 8 / 6))) := fun _ _ => rfl
  exact State.each_of_step (R := AssignsOnly) (fun _ => rfl) .trans hread s _

theorem State.dramIssue_scribes (s : State) (port a n : Nat) : (s.dramIssue port a n).scribes = s.scribes :=
  (congrArg State.scribes (issuesOnly_dramIssue s port a n).eq :)

theorem State.creditChunk_scribes (s : State) (c : Chunk) : (s.creditChunk c).scribes = s.scribes := by
  unfold State.creditChunk
  split
  · rfl
  · simp

/-- A chunk that is assigned leaves the queue; its scribe has it for the next tide, and its stream's state is to be read (R355, R358). -/
theorem State.assign_scribes (s : State) (y : Nat) (c : Chunk) : (s.assign y c false).scribes = { s.scribes with
    queue := s.scribes.queue.erase c
    scribes := s.scribes.scribes.put y { s.scribe y with
      work := (s.scribe y).work ++ [⟨{ c with credited := true }, s.clock.grid + 1, false, true, false, none⟩] } } := by
  simp [State.assign, State.setScribe, State.scribe, State.dramIssue_scribes, State.creditChunk_scribes]

theorem assignsOnly_assign (s : State) (y : Nat) (c : Chunk) : AssignsOnly s (s.assign y c false) := by
  have h : AssignsOnly s (({ s with scribes := { s.scribes with queue := s.scribes.queue.erase c } }.creditChunk c).dramIssue 2
      (streamAddr c.stream) 64) := by
    refine AssignsOnly.trans ?_ (assignsOnly_dramIssue _ _ _ _)
    exact AssignsOnly.trans (x := { s with scribes := _ }) rfl (assignsOnly_creditChunk _ _)
  exact h.trans rfl

/-- The scribes once the one queued chunk has gone to a free scribe of half 0 for the next tide. -/
def State.scribesWith (s : State) (y : Nat) (c : Chunk) (assignedAt : Option Nat) : Scribes := { s.scribes with
  queue := [], lastSet := s.scribes.lastSet.put (4 * 0 + c.cls) c.set, assignedAt := assignedAt
  scribes := s.scribes.scribes.put y { s.scribe y with
    work := [⟨{ c with credited := true }, s.clock.grid + 1, false, true, false, none⟩] } }

/-- The one chunk goes to a scribe that is free. -/
theorem State.assignOther_one {half y : Nat} (hidle : (s.scribe y).work = []) (hnext : s.nextChunk half = some c) :
    s.assignOther half y = { s.assign y c false with scribes := { (s.assign y c false).scribes with
      lastSet := (s.assign y c false).scribes.lastSet.put (4 * half + c.cls) c.set } } := by
  simp [State.assignOther, State.scribeTaken, hidle, hnext]

/-- The assignment of a half with one chunk that may go (R355): the first of its free scribes takes it. -/
theorem State.assignHalf_one {half y : Nat} {more : List Nat} (hq : s.scribes.queue = [c]) (hc : s.candidates half = [c])
    (hidle : ∀ v ∈ s.scribes.scribes.vals, v.work = []) (hcls : c.cls < 4) (hset : c.set < 64)
    (hfree : (s.activeNext half).filter (fun y => (s.scribe y).online && (s.scribe y).assignFrom ≤ s.clock.grid &&
      (s.scribe y).offlineAt.isNone && !s.domainDown (26 + half)) = y :: more) :
    s.assignHalf half = s.assignOther half y := by
  have hcont : ∀ l : List Nat, s.each l (fun x y => x.assignContinuation half y) = s := fun l => each_of_fixed fun z _ => by
    simp [State.assignContinuation, State.scribe_idle hidle z]
  have hempty : (s.assignOther half y).scribes.queue = [] := by
    rw [State.assignOther_one (State.scribe_idle hidle y) (State.nextChunk_one hc hidle hcls hset)]
    simp [State.assign_scribes, hq]
  unfold State.assignHalf
  dsimp only
  rw [hfree, hcont]
  exact each_of_fixed (s := s.assignOther half y) fun z _ => State.assignOther_of_empty hempty half z

/-- Settles O42: the go of SCB_SCRIBE_CTL is `State.scribeGo_refused`, `State.scribeGo_offline` and `State.scribeGo_online`; the one chunk goes
to the first free scribe of its half (`State.assignHalf_one`), and the other half has none left. -/
theorem scribesAssigned : Obligations.ScribesAssigned := by
  unfold Obligations.ScribesAssigned
  refine ⟨?go, ?assign⟩
  case go =>
    intro s t w x h hgo hauth n y hup
    have hx := h.only
    have hdown : x.domainDown (26 + n / 32) = false := by rw [hx]; exact hup
    have hcheck : x.offlineCheck n = s.offlineCheck n := by rw [hx]; rfl
    have hscribe : x.scribe n = s.scribe n := by rw [hx]; rfl
    have hgrid : x.clock.grid = s.clock.grid := by rw [hx]; rfl
    have hdue : x.dueTide = (s.at t).dueTide := by rw [hx]; rfl
    refine ⟨fun hop => ⟨fun hno => ?_, fun hok hon => ?_⟩, fun hop => ?_⟩
    · refine Leaves.of_eq rfl ((h.scribeGo hgo hauth).trans ?_)
      rw [State.scribeGo_refused hop hdown (by rw [hcheck]; exact hno), hcheck]
    · refine Leaves.of_eq rfl ((h.scribeGo hgo hauth).trans ?_)
      rw [State.scribeGo_offline hop hdown (by rw [hcheck]; exact hok) (by rw [hscribe]; exact hon), hscribe, hgrid]
    · refine Leaves.of_eq rfl ((h.scribeGo hgo hauth).trans ?_)
      rw [State.scribeGo_online hop hdown, hscribe, hdue]
  case assign =>
    intro s c y more hstroke hnot hruns hserving hawake hq hc hcls hset hidle hfree
    have hhalf := State.assignHalf_one hq hc hidle hcls hset hfree
    have hfirst : s.assignOther 0 y = { s.assign y c false with scribes := s.scribesWith y c s.scribes.assignedAt } := by
      rw [State.assignOther_one (State.scribe_idle hidle y) (State.nextChunk_one hc hidle hcls hset), State.assign_scribes, hq,
        State.scribe_idle hidle y]
      simp [State.scribesWith]
    have hother : (s.assignOther 0 y).assignHalf 1 = s.assignOther 0 y := State.assignHalf_of_empty (by rw [hfirst]; rfl) 1
    refine Answers.of_eq (x := { s.assign y c false with scribes := s.scribesWith y c (some s.clock.grid) }) rfl ?_ ⟨?_, ?_, ?_, ?_, ?_⟩
    · rw [if_pos (by simp [hstroke, hnot, hruns, hserving, hawake])]
      dsimp only
      rw [hhalf, hother, hfirst]
      rfl
    · simp [State.scribesWith]
    · simp [State.scribesWith]
    · simp [State.scribe, State.scribesWith]
    · intro z hz
      simp [State.scribe, State.scribesWith, Table.findD_put_ne _ _ _ _ _ hz]
    · obtain ⟨l, ho, sc, q, ha⟩ : ∃ l ho sc q, s.assign y c false = { s with links := l, host := ho, scribes := sc, memQueues := q } :=
        ⟨_, _, _, _, assignsOnly_assign s y c⟩
      rw [ha]
      rfl

end Sys2Proof.Machine
end

section
/-! Requests for power states and domain resets (R578, R580, R586, R593). -/
namespace Sys2Proof.Machine
variable {s x : State} {t : Nat} {src : Source} {c : Cmd} {rest : List Cmd} {command : Option Nat}

/-- The power state once an entry to Doze or below has been asked for (R581). -/
def State.powerEntering (s : State) (target : Nat) : Power :=
  { s.power with result := 0, entry := some ⟨target, 0, s.dueTide, s.clock.grid, false⟩ }

/-- A change to Doze or below is entered from the boundary that R63 gives, where R580 does not refuse it. -/
theorem State.powerRequest_low {target : Nat} (h2 : 2 ≤ target) (h5 : target ≤ 5) (h : s.lowRefused = 0) :
    s.powerRequest target command = { s with power := s.powerEntering target } := by
  obtain ⟨n, rfl⟩ : ∃ n, target = n + 2 := ⟨target - 2, by omega⟩
  have h5' : ¬ 5 < n + 2 := by omega
  simp [State.powerRequest, h5', h, State.setPowerResult, State.powerEntering]

theorem State.powerRequest_low_refused {target : Nat} (h2 : 2 ≤ target) (h5 : target ≤ 5) (h : s.lowRefused ≠ 0) :
    s.powerRequest target command = { s with power := { s.power with result := s.lowRefused } } := by
  obtain ⟨n, rfl⟩ : ∃ n, target = n + 2 := ⟨target - 2, by omega⟩
  have h5' : ¬ 5 < n + 2 := by omega
  simp [State.powerRequest, h5', h, State.setPowerResult]

/-- Idle waits for its boundary and for quiet (R578). -/
theorem State.powerRequest_idle (h : s.powerPending = false) : s.powerRequest 1 command =
    { s with power := { s.power with result := 0, idleAt := some (s.dueTide, command) } } := by
  simp [State.powerRequest, h, State.setPowerResult]

/-- A request for Run wakes a device in Doze (R586). -/
theorem State.powerRequest_wakes (hdoze : s.power.state = 2) (hentry : s.power.entry = none) (hexit : s.power.exit = none)
    (hhold : s.power.tamperHold = false) (haon : s.power.vddAon = true) (hhalt : s.power.halted = false) :
    s.powerRequest 0 command = { s with power := { s.power with result := 0, exit := some 2, wakeSrc := 2 } } := by
  simp [State.powerRequest, State.setPowerResult, State.wakeEvent, hdoze, hentry, hexit, hhold, haon, hhalt]

/-! POWER. -/

/-- A POWER that R580 refuses is answered with its cause. -/
theorem State.powerState_low_refused {target : Nat} (h2 : 2 ≤ target) (h5 : target ≤ 5) (h : s.lowRefused ≠ 0) :
    s.powerState src c target =
      { s with power := { s.power with result := s.lowRefused } }.refuse src c 0x1C 0 (leBytes s.lowRefused 8) := by
  simp [State.powerState, State.powerRequest_low_refused h2 h5 h, h, State.refusePower]

theorem State.powerState_low {target : Nat} (h2 : 2 ≤ target) (h5 : target ≤ 5) (h : s.lowRefused = 0) :
    s.powerState src c target = { s with power := s.powerEntering target }.acceptBoundary src c 0 := by
  have h1 : target ≠ 1 := by omega
  simp [State.powerState, State.powerRequest_low h2 h5 h, State.powerEntering, h1]

theorem State.powerState_idle (h : s.powerPending = false) : s.powerState src c 1 =
    { s with power := { s.power with result := 0, idleAt := some (s.dueTide, some s.cmds.nextId) } }.accept src c s.clock.grid true
      none none := by
  simp [State.powerState, State.powerRequest_idle h, State.acceptId]

theorem State.powerReset_waits {d : Nat} (h : s.resetCheck d (fromHost src) = 0) (hnone : s.power.domainReset = none) :
    s.powerReset src c d = (s.takeReset d (some s.cmds.nextId)).accept src c s.clock.grid true none none := by
  simp [State.powerReset, h, hnone, State.acceptId]

/-- POWER has the form of one of its two operations (R581, R593). -/
theorem power_form (hlen : (cmdBody c.record).length = 8) (hzero : zerosAt (cmdBody c.record) 2 6 = true)
    (hop : byteAt (cmdBody c.record) 0 = 1 ∨ byteAt (cmdBody c.record) 0 = 2 ∧ byteAt (cmdBody c.record) 1 < 30) :
    ((cmdBody c.record).length == 8 && (byteAt (cmdBody c.record) 0 == 1 || (byteAt (cmdBody c.record) 0 == 2 &&
      byteAt (cmdBody c.record) 1 < 30)) && zerosAt (cmdBody c.record) 2 6) = true := by
  obtain hop | ⟨hop, hd⟩ := hop
  · simp [hlen, hzero, hop]
  · simp [hlen, hzero, hop, hd]

/-- The state before a POWER is accepted: the masters as its tag has left them, and the power state that it brings. -/
def State.poweredTo (s : State) (m : Table Master) (p : Power) : State := { s with masters := m, power := p }

/-- What POWER does beyond the checks. -/
def State.powerAct (s : State) (src : Source) (c : Cmd) : State :=
  if byteAt (cmdBody c.record) 0 = 1 then s.powerState src c (byteAt (cmdBody c.record) 1)
  else s.powerReset src c (byteAt (cmdBody c.record) 1)

section
variable (h : Clears s t src c rest 0x43 false false .supervisor) (hlen : (cmdBody c.record).length = 8)
  (hzero : zerosAt (cmdBody c.record) 2 6 = true)
  (hop : byteAt (cmdBody c.record) 0 = 1 ∨ byteAt (cmdBody c.record) 0 = 2 ∧ byteAt (cmdBody c.record) 1 < 30)
include h hlen hzero hop

/-- A POWER whose completion is known is answered at the boundary that R63 gives. -/
theorem power_answered {m : Table Master} {p : Power} {r : Nat} {payload : Bytes}
    (hact : ((s.at t).noteCookie src c).powerAct src c = ((s.at t).poweredTo m p).refuse src c r 0 payload) :
    Answers (.power t src) s (fun s' => Commits s t src c rest s' r 0 payload ∧ s'.power = p) := by
  refine h.answers (x := (s.at t).poweredTo m p) rfl rfl rfl (power_form hlen hzero hop) rfl hact rfl rfl (by simp)
    ⟨Commits.accept (x := (s.at t).poweredTo m p) h.1 rfl rfl rfl _ _ _ _ (State.settle_cmds _), ?_⟩
  simp [State.poweredTo]

/-- A POWER whose change is awaited is held with it. -/
theorem power_held {m : Table Master} {p : Power}
    (hact : ((s.at t).noteCookie src c).powerAct src c = ((s.at t).poweredTo m p).accept src c s.clock.grid true none none) :
    Answers (.power t src) s (fun s' => (∃ a, Taken s s' src c rest a ∧ a.result = none ∧ a.postAt = none) ∧ s'.power = p) := by
  refine h.answers (x := (s.at t).poweredTo m p) rfl rfl rfl (power_form hlen hzero hop) rfl hact rfl rfl (by simp)
    ⟨⟨_, Taken.accept (x := (s.at t).poweredTo m p) h.1 rfl rfl _ _ _ _ (State.settle_cmds _), rfl, rfl⟩, ?_⟩
  simp [State.poweredTo]

end

/-! The registers. -/

/-- A go of PWR_STATE_CTL asks for its target. -/
theorem Stores.powerGo {w : Word64} (h : Stores s t .PWR_STATE_CTL 0 w x) (hgo : Fld.PWR_STATE_CTL_go.get w.toNat = 1)
    (hauth : s.cmdAuth = false ∨ x.fld Fld.PWR_STATE_CTL_target = 0 ∧ s.power.state = 2) :
    (s.at t).writePowerCtl 0 w.toNat fullMask = x.powerRequest (x.fld Fld.PWR_STATE_CTL_target) none := by
  have hx : x.cmdAuth = s.cmdAuth ∧ x.power.state = s.power.state := by
    rw [h.only]
    exact ⟨rfl, rfl⟩
  have hgoes := State.goBit_of h Fld.PWR_STATE_CTL_go (fun _ => none) (fun _ => false) State.powerGo hgo rfl rfl
  simp only [State.writePowerCtl, State.goWrite, bne_self_eq_false, Bool.false_eq_true, if_false, hgoes, State.powerGo]
  refine if_neg ?_
  rw [hx.1, hx.2]
  obtain hauth | ⟨htarget, hdoze⟩ := hauth
  · simp [hauth]
  · simp [htarget, hdoze]

/-- The domains that return to service by themselves (R593). -/
theorem State.restoreDomain_unchanged (s : State) {d : Nat} (hd : d = 2 ∨ d = 3 ∨ (20 ≤ d ∧ d ≤ 24) ∨ d = 28 ∨ d = 29) :
    s.restoreDomain d = s := by
  have h45 : ¬ ((d = 4 || d = 5) = true) := by simp; omega
  have h617 : ¬ ((6 ≤ d && d ≤ 17) = true) := by simp; omega
  have h18 : ¬ ((d = 18 || d = 19) = true) := by simp; omega
  have h25 : ¬ d = 25 := by omega
  have h26 : ¬ ((d = 26 || d = 27) = true) := by simp; omega
  rw [State.restoreDomain, if_neg h45, if_neg h617, if_neg h18, if_neg h25, if_neg h26]

/-- Settles O57: POWER is `power_answered` and `power_held`, PWR_STATE_CTL asks as `State.powerRequest` does, and a domain reset waits for its
boundary or ends. -/
theorem powerRequests : Obligations.PowerRequests := by
  unfold Obligations.PowerRequests
  refine ⟨?command, ?register, fun s => ⟨?reset, ?ended⟩⟩
  case command =>
    intro s t src c rest body held h hlen hzero
    obtain ⟨m, hm⟩ : ∃ m, (s.at t).noteCookie src c = { s.at t with masters := m } := ⟨_, State.noteCookie_only ..⟩
    refine ⟨fun hop h2 h5 => ⟨fun hno => ?_, fun hok => ?_⟩, fun hop hone hidle => ?_, fun hop hd hcheck hnone => ?_⟩
    · refine power_answered h hlen hzero (.inl hop) (m := m) ((if_pos hop).trans ?_)
      rw [hm]
      exact State.powerState_low_refused h2 h5 hno
    · refine power_answered h hlen hzero (.inl hop) (m := m) ((if_pos hop).trans ?_)
      rw [hm]
      exact State.powerState_low h2 h5 hok
    · refine power_held h hlen hzero (.inl hop) (m := m) ((if_pos hop).trans ?_)
      rw [hm, hone]
      exact State.powerState_idle hidle
    · refine power_held h hlen hzero (.inr ⟨hop, hd⟩) (m := m) ((if_neg (by rw [hop]; decide)).trans ?_)
      rw [hm]
      exact State.powerReset_waits hcheck hnone
  case register =>
    intro s t w x h hgo target due leaves
    have hpower : x.power = s.power := by rw [h.only]; rfl
    have hlow : x.lowRefused = s.lowRefused := by rw [h.only]; rfl
    have hpending : x.powerPending = s.powerPending := by rw [h.only]; rfl
    have hdue : x.dueTide = due := by rw [h.only]; rfl
    have hgrid : x.clock.grid = s.clock.grid := by rw [h.only]; rfl
    have refused : ∀ r, s.cmdAuth = false → 2 ≤ target → target ≤ 5 → s.lowRefused = r → r ≠ 0 →
        leaves (.pwrLowStateRequest t 0 w) { s.power with result := r } := by
      intro r hauth h2 h5 hr hne
      subst hr
      refine Leaves.of_eq rfl ((h.powerGo hgo (.inl hauth)).trans ?_)
      rw [State.powerRequest_low_refused h2 h5 (by rw [hlow]; exact hne), hpower, hlow]
    refine ⟨fun hauth h2 h5 => ⟨?_, ?_, ?_, ?_⟩, ?_, ?_⟩
    · intro hmode hnone hglyph hseed hflash
      refine Leaves.of_eq rfl ((h.powerGo hgo (.inl hauth)).trans ?_)
      have hok : s.lowRefused = 0 := by simp [State.lowRefused, hmode, hnone, hglyph, hseed, hflash]
      rw [State.powerRequest_low h2 h5 (hlow.trans hok), State.powerEntering, hpower, hdue, hgrid]
    · intro hany
      refine refused 1 hauth h2 h5 ?_ (by decide)
      obtain hmode | hpend := hany
      · simp [State.lowRefused, Option.isSome_iff_ne_none.mpr hmode]
      · simp [State.lowRefused, hpend]
    · intro hmode hnone hany
      refine refused 4 hauth h2 h5 ?_ (by decide)
      obtain hglyph | hseed := hany
      · simp [State.lowRefused, hmode, hnone, hglyph]
      · simp [State.lowRefused, hmode, hnone, hseed]
    · intro hmode hnone hglyph hseed hflash
      refine refused 5 hauth h2 h5 ?_ (by decide)
      simp [State.lowRefused, hmode, hnone, hglyph, hseed, hflash]
    · intro hauth hone hnone
      refine Leaves.of_eq rfl ((h.powerGo hgo (.inl hauth)).trans ?_)
      rw [show x.fld Fld.PWR_STATE_CTL_target = 1 from hone, State.powerRequest_idle (hpending.trans hnone), hpower, hdue]
    · intro hzero hdoze hentry hexit hhold haon hhalt
      refine Leaves.of_eq rfl ((h.powerGo hgo (.inr ⟨hzero, hdoze⟩)).trans ?_)
      rw [show x.fld Fld.PWR_STATE_CTL_target = 0 from hzero, State.powerRequest_wakes (by rw [hpower]; exact hdoze)
        (by rw [hpower]; exact hentry) (by rw [hpower]; exact hexit) (by rw [hpower]; exact hhold) (by rw [hpower]; exact haon)
        (by rw [hpower]; exact hhalt), hpower]
  case reset =>
    intro t w x h hgo hauth hnone d
    have hpower : x.power = s.power := by rw [h.only]; rfl
    have hcheck : x.resetCheck d true = s.resetCheck d true := by rw [h.only]; rfl
    have hdue : x.dueTide = (s.at t).dueTide := by rw [h.only]; rfl
    have hacts : (s.at t).writeDomainReset 0 w.toNat fullMask = x.resetGo := by
      simp only [State.writeDomainReset, bne_self_eq_false, Bool.false_eq_true, if_false]
      exact State.goClosed_of h _ _ (fun x => x.power.domainReset.isSome) State.resetGo hgo hauth (by rw [hpower, hnone]; rfl)
    refine ⟨fun hok => Leaves.of_eq rfl (hacts.trans ?_), fun hno => Leaves.of_eq rfl (hacts.trans ?_)⟩
    · rw [State.resetGo, if_pos (hcheck.trans hok), State.takeReset, hpower, hdue]
    · rw [State.resetGo, if_neg (by rw [hcheck]; exact hno), hpower, hcheck]
  case ended =>
    intro d x hreset hstarted hdomain hcommand hstroke y
    have hend : ∀ z, y.restoreDomain d = z → Leaves .domainResetEnd s z := by
      intro z hz
      refine Leaves.of_eq (c := .domainResetEnd) rfl ?_
      simp only [hreset, hstroke, hstarted, hcommand, hdomain]
      exact hz
    refine ⟨fun hd => hend _ ?_, fun hd => hend _ ?_, fun hd => hend _ ?_⟩
    · subst hd
      rfl
    · exact if_pos (by simpa using hd)
    · exact State.restoreDomain_unchanged y hd

end Sys2Proof.Machine
end

section
/-! Drains and returns of banks, self-tests of slots, and the rewriting of the rows of a reset quadrant (R264, R265, R290, R611 to R613). -/
namespace Sys2Proof.Machine
variable {s x y : State} {t : Nat} {w : Word64} {d : Drain}

/-! The tags of rows. -/

/-- A row's tag in a slot reads as it was written; an EMPTY tag is not listed. -/
theorem Arrays.tags_putTag (a : Arrays) (slot row : Nat) (g : Tag) : (a.putTag slot row g).tags.findD (rowKey slot row) Tag.reset = g := by
  unfold Arrays.putTag
  dsimp only
  split
  · next h => simp [eq_of_beq h]
  · simp

/-- Among the slots to which a row's tag is written, each reads it. -/
theorem Arrays.tags_putTags (g : Tag) (row slot : Nat) : ∀ (slots : List Nat) (a : Arrays), slot ∈ slots ∨
    a.tags.findD (rowKey slot row) Tag.reset = g →
    (slots.foldl (fun a k => a.putTag k row g) a).tags.findD (rowKey slot row) Tag.reset = g := by
  intro slots
  induction slots with
  | nil =>
    intro a h
    exact h.resolve_left List.not_mem_nil
  | cons k slots ih =>
    intro a h
    refine ih _ ?_
    by_cases hk : k = slot
    · subst hk
      exact .inr (Arrays.tags_putTag ..)
    · refine h.imp (fun hmem => (List.mem_cons.mp hmem).resolve_left (Ne.symm hk)) fun hold => ?_
      have hne : rowKey slot row ≠ rowKey k row := by
        unfold rowKey
        omega
      unfold Arrays.putTag
      dsimp only
      split
      · rw [Table.findD_del_ne _ _ _ _ hne, hold]
      · rw [Table.findD_put_ne _ _ _ _ _ hne, hold]

/-! What leaves the rows and the entries alone. -/

/-- The rows and the logical entry numbers stand as they did. -/
def KeepsRows (s x : State) : Prop := x.arrays = s.arrays ∧ x.numbers = s.numbers

theorem KeepsRows.refl (s : State) : KeepsRows s s := ⟨rfl, rfl⟩

theorem KeepsRows.trans (h : KeepsRows s x) (k : KeepsRows x y) : KeepsRows s y := ⟨k.1.trans h.1, k.2.trans h.2⟩

theorem DramOnly.keepsRows (h : DramOnly s x) : KeepsRows s x :=
  ⟨(congrArg State.arrays h.eq :), (congrArg State.numbers h.eq :)⟩

theorem KeepsRows.each {α : Type} {f : State → α → State} (hf : ∀ x a, KeepsRows x (f x a)) (s : State) (l : List α) :
    KeepsRows s (s.each l f) := State.each_of_step (R := KeepsRows) .refl .trans hf s l

theorem keepsRows_countSpan (s : State) (a n : Nat) (how : DramRead) : KeepsRows s (s.countSpan a n how) :=
  .each (fun _ _ => (DramOnly.trans (dramOnly_countFlags ..) (dramOnly_countEnd ..)).keepsRows) s _

theorem keepsRows_markStripe (s : State) (k : Nat) : KeepsRows s (s.markStripe k) := by
  unfold State.markStripe
  split
  · exact .refl s
  · exact ⟨rfl, rfl⟩

theorem keepsRows_markFailed (s : State) (a : Nat) (how : DramRead) : KeepsRows s (s.markFailed a how) :=
  .each (fun _ _ => keepsRows_markStripe ..) s _

theorem keepsRows_unsettlePair (s : State) (bank line n : Nat) : KeepsRows s (s.unsettlePair bank line n) :=
  .each (f := fun x b => x.unsettle b line n) (fun _ _ => ⟨rfl, rfl⟩) s _

theorem keepsRows_integrity (s : State) (cls event bank row units mirror source handle tid extra : Nat) :
    KeepsRows s (s.integrity cls event bank row units mirror source handle tid extra) := (dramOnly_postFault ..).keepsRows

theorem keepsRows_writeMeta (s : State) (len : Nat) (e : Entry) (st : Nat) : KeepsRows s (s.writeMeta len e st) := by
  unfold State.writeMeta
  exact (dramOnly_dramWrite ..).keepsRows

theorem keepsRows_loseEntry (s : State) (bank row units : Nat) : KeepsRows s (s.loseEntry bank row units) := by
  have hcounted : ∀ x : State, KeepsRows x ((x.bump Fld.ARY_INTEG_COUNT1_lost).raise Fld.ARY_SCRUB_STATUS_lost) := fun x =>
    (dramOnly_bump x _ _ _).keepsRows.trans (dramOnly_raiseBits _ _ _ _).keepsRows
  unfold State.loseEntry
  dsimp only
  split
  · exact .refl s
  next e _ =>
    split
    · exact .refl s
    · have hgone : KeepsRows s ((s.writeMeta (s.tag bank row).len e 2).unsettlePair e.bank (lineOf e.width e.row) 1) :=
        (keepsRows_writeMeta ..).trans (keepsRows_unsettlePair ..)
      generalize State.unsettlePair _ _ _ _ = x at hgone ⊢
      refine hgone.trans (KeepsRows.trans ?_ (keepsRows_integrity ..))
      refine KeepsRows.trans ?_ (hcounted _)
      exact ⟨rfl, rfl⟩

/-! The copy of a row (R264). -/

/-- A row that is copied stands in the target with the drain's tag, and the drain goes on to the next one; no entry is freed. -/
theorem State.copyRow_row (s : State) (d : Drain) (how : RowRead) :
    (s.copyRow d how).arrays.drain = some { d with copied := d.copied + 1 } ∧
    (s.copyRow d how).arrays.tags.findD (rowKey d.target d.copied) Tag.reset =
      s.drainTag d.bank d.copied (how.shadow.getD (32768 / d.total) DramRead.clean) ∧
    (s.copyRow d how).numbers = s.numbers := by
  have hunits : ∀ (l : List Nat) (f : Nat → Nat) (g : Nat → UnitBits) (a : Arrays),
      (l.foldl (fun a j => a.putUnit d.target (f j) (g j)) a).tags = a.tags := fun l f g a =>
    foldl_keeps (fun (a : Arrays) j => a.putUnit d.target (f j) (g j)) (fun a => a.tags) l a (fun _ _ _ => rfl)
  have hcounted : ∀ (l : List Nat) (f : Nat → Nat) (g : Nat → DramRead),
      KeepsRows s (s.each l fun x j => (x.countSpan (f j) 20 (g j)).markFailed (f j) (g j)) := fun l f g =>
    .each (fun _ _ => (keepsRows_countSpan ..).trans (keepsRows_markFailed ..)) s l
  unfold State.copyRow
  dsimp only
  have hlost : ∀ (c : Bool) (x : State) (units : Nat), KeepsRows x (if c = true then x else x.loseEntry d.bank d.copied units) := by
    intro c x units
    split
    · exact .refl x
    · exact keepsRows_loseEntry ..
  obtain ⟨harrays, hnumbers⟩ := hlost _ _ _
  rw [harrays, hnumbers]
  refine ⟨rfl, ?_, (hcounted _ _ _).2⟩
  refine (congrArg (fun m : Table Tag => m.findD _ _) (hunits _ _ _ _)).trans ?_
  exact Arrays.tags_putTag ..

/-! The rewriting of a row (R290). -/

/-- Only the units of the rows, and what traces and digests note of them, stand otherwise. -/
def UnitsOnly (s x : State) : Prop := x = { s with arrays := { s.arrays with units := x.arrays.units }, observe := x.observe }

theorem UnitsOnly.trans (h : UnitsOnly s x) (k : UnitsOnly x y) : UnitsOnly s y := by
  obtain ⟨u, o, rfl⟩ : ∃ u o, x = { s with arrays := { s.arrays with units := u }, observe := o } := ⟨_, _, h⟩
  exact k

theorem Arrays.putUnits_only (unit : Nat) (u : UnitBits) (slots : List Nat) (a : Arrays) : slots.foldl (fun a k => a.putUnit k unit u) a =
    { a with units := (slots.foldl (fun a k => a.putUnit k unit u) a).units } := by
  induction slots generalizing a with
  | nil => rfl
  | cons k slots ih => exact ih _

theorem Arrays.putTags_only (row : Nat) (g : Tag) (slots : List Nat) (a : Arrays) : slots.foldl (fun a k => a.putTag k row g) a =
    { a with tags := (slots.foldl (fun a k => a.putTag k row g) a).tags } := by
  induction slots generalizing a with
  | nil => rfl
  | cons k slots ih => exact ih _

theorem State.noteRow_only (s : State) (bank : Nat) (g : Tag) : s.noteRow bank g = { s with observe := (s.noteRow bank g).observe } := by
  unfold State.noteRow
  split <;> rfl

theorem unitsOnly_putUnit (s : State) (bank row unit : Nat) (u : UnitBits) : UnitsOnly s (s.putUnit bank row unit u) := by
  unfold UnitsOnly State.putUnit
  dsimp only
  rw [Arrays.putUnits_only, State.noteRow_only]

theorem State.slotOf_mem (s : State) (bank row : Nat) : s.slotOf bank ∈ s.slotsOf bank row := by
  unfold State.slotsOf
  split
  · split <;> exact List.mem_cons_self
  · exact List.mem_cons_self

theorem State.putTag_only (s : State) (bank row : Nat) (g : Tag) : s.putTag bank row g = { s with
    arrays := { s.arrays with tags := (s.putTag bank row g).arrays.tags }, observe := (s.putTag bank row g).observe } := by
  unfold State.putTag
  dsimp only
  rw [Arrays.putTags_only, State.noteRow_only, State.noteRow_only]

theorem State.tag_putTag (s : State) (bank row : Nat) (g : Tag) : (s.putTag bank row g).tag bank row = g := by
  have hslot : (s.putTag bank row g).slotOf bank = s.slotOf bank := by
    rw [State.putTag_only]
    rfl
  unfold State.tag
  rw [hslot]
  unfold State.putTag
  dsimp only
  refine Arrays.tags_putTags g row (s.slotOf bank) _ _ (.inl ?_)
  rw [State.noteRow_only, State.noteRow_only]
  exact State.slotOf_mem s bank row

/-- A row that has been rewritten does not wait any more. -/
theorem Arrays.noteRewritten_done (a : Arrays) (bank row total : Nat) :
    ((a.noteRewritten bank row total).rewriteBanks.contains bank && !(a.noteRewritten bank row total).rewritten.contains (rowKey bank row)) =
      false := by
  unfold Arrays.noteRewritten
  dsimp only
  split
  · simp
  · simp

/-- Noting a row as rewritten leaves the tags and the slots that serve the banks. -/
theorem Arrays.noteRewritten_tags (a : Arrays) (bank row total : Nat) :
    (a.noteRewritten bank row total).tags = a.tags ∧ (a.noteRewritten bank row total).served = a.served := by
  unfold Arrays.noteRewritten
  dsimp only
  split <;> exact ⟨rfl, rfl⟩

/-- A row that is rewritten with a tag. -/
def State.rewriteRow (s : State) (bank row w : Nat) (units : State → Nat → UnitBits) (tag : State → Tag) : State :=
  let s1 := s.each (List.range w) (fun z j => z.putUnit bank row (w * row + j) (units z j))
  let s2 := s1.putTag bank row (tag s1)
  let s3 := { s2 with arrays := s2.arrays.noteRewritten bank row (32768 / w) }
  (s3.touch bank (lineOf w row)).useOther [bank] w

/-- A row that has been rewritten waits no more and has its tag, and the entries stand as they did. -/
theorem State.rewriteRow_row (s : State) (bank row w : Nat) (units : State → Nat → UnitBits) (tag : State → Tag) :
    (s.rewriteRow bank row w units tag).toRewrite bank row = false ∧ (s.rewriteRow bank row w units tag).numbers = s.numbers ∧
    ∃ u o, (s.rewriteRow bank row w units tag).tag bank row = tag { s with arrays := { s.arrays with units := u }, observe := o } := by
  obtain ⟨u, o, h1⟩ : ∃ u o, s.each (List.range w) (fun z j => z.putUnit bank row (w * row + j) (units z j)) =
      { s with arrays := { s.arrays with units := u }, observe := o } :=
    ⟨_, _, State.each_of_step (R := UnitsOnly) (fun _ => rfl) .trans (fun _ _ => unitsOnly_putUnit ..) s _⟩
  unfold State.rewriteRow
  dsimp only
  rw [h1]
  refine ⟨Arrays.noteRewritten_done .., ?_, u, o, ?_⟩
  · rw [State.putTag_only]
    rfl
  · have htag := State.tag_putTag { s with arrays := { s.arrays with units := u }, observe := o } bank row
      (tag { s with arrays := { s.arrays with units := u }, observe := o })
    refine Eq.trans ?_ htag
    obtain ⟨htags, hserved⟩ := Arrays.noteRewritten_tags (State.putTag { s with arrays := { s.arrays with units := u }, observe := o } bank row
      (tag { s with arrays := { s.arrays with units := u }, observe := o })).arrays bank row (32768 / w)
    refine Eq.trans ?_ (congrArg₂ (fun (m : Table Tag) k => m.findD (rowKey k row) Tag.reset) htags
      (congrArg (fun m : Table Nat => m.findD bank (ownSlot bank)) hserved))
    rfl

/-! The registers. -/

/-- A go of PIL_DRAIN_CTL with op 1 or 2 starts what it asks for, or shows why not. -/
theorem Stores.drainGo (h : Stores s t .PIL_DRAIN_CTL 0 w x) (hgo : Fld.PIL_DRAIN_CTL_go.get w.toNat = 1) (hauth : s.cmdAuth = false)
    (hnone : s.arrays.drain = none) {op : Nat} (hop : x.fld Fld.PIL_DRAIN_CTL_op = op) (hany : op = 1 ∨ op = 2) :
    (s.at t).writeDrainCtl 0 w.toNat fullMask = match x.drainRefused (x.fld Fld.PIL_DRAIN_CTL_bank) op with
      | some r => x.endDrain r
      | none => x.startDrain (x.fld Fld.PIL_DRAIN_CTL_bank) op := by
  have hidle : x.arrays.drain.isSome = false := by
    rw [h.only]
    exact congrArg Option.isSome hnone
  refine (State.goClosed_of h _ _ _ _ hgo hauth hidle).trans ?_
  dsimp only
  rw [hop]
  exact if_neg (by obtain rfl | rfl := hany <;> decide)

/-- The tag that a row gets when it is rewritten: that of the entry that owns it, or an EMPTY one. -/
def ownedTag (owner : Option (Nat × Entry)) (z : State) : Tag :=
  match owner with
  | some (len, e) => z.armedTag len e
  | none => Tag.reset

/-- The bank whose shadows a row is rewritten from. -/
def State.homeOf (s : State) (bank row : Nat) : Nat :=
  match s.ownerOf bank row with
  | some x => x.2.bank
  | none => s.shadowBank bank row

/-- A row rewritten from the shadows of the entry that owns it, or of the bank. -/
def State.rewriteOwned (s : State) (bank row w : Nat) : State :=
  s.rewriteRow bank row w (fun z j => z.shadowUnit (s.homeOf bank row) (w * row + j)) (ownedTag (s.ownerOf bank row))

theorem State.rewriteOwned_row (s : State) (bank row w : Nat) :
    (s.rewriteOwned bank row w).toRewrite bank row = false ∧ (s.rewriteOwned bank row w).numbers = s.numbers ∧
    ∃ u o, (s.rewriteOwned bank row w).tag bank row =
      ownedTag (s.ownerOf bank row) { s with arrays := { s.arrays with units := u }, observe := o } :=
  s.rewriteRow_row bank row w _ _

theorem State.exec_quadrantRowRewrite (s : State) (t bank row : Nat) : exec (.quadrantRowRewrite t bank row) s =
    .next (if (!(s.at t).inWrite || !(s.at t).toRewrite bank row || 32768 / (s.bankWidth bank).getD 1 ≤ row ||
        !(s.at t).backRoom .free [bank] ((s.bankWidth bank).getD 1)) = true then s.at t
      else (s.at t).rewriteOwned bank row ((s.bankWidth bank).getD 1)).settle := by
  rfl

/-- Settles O26: the parts are the go of PIL_DRAIN_CTL, a row copied (`State.copyRow_row`), the latch of the switch, the go and the end of a
self-test, and a row rewritten (`State.rewriteRow_row`). -/
theorem drainsAndSelfTests : Obligations.DrainsAndSelfTests := by
  unfold Obligations.DrainsAndSelfTests
  intro s t
  refine ⟨?drain, ?copy, ?latch, ?test, ?tested, ?rewrite⟩
  case drain =>
    intro w x h hgo hauth hnone bank op hop hany c hc
    have hx := h.only
    have hrefused : x.drainRefused bank op = s.drainRefused bank op := by rw [hx]; rfl
    have harrays : x.arrays = s.arrays := by rw [hx]; rfl
    have hdue : x.dueTide = (s.at t).dueTide := by rw [hx]; rfl
    have hexec : exec c s = .next ((s.at t).writeDrainCtl 0 w.toNat fullMask).settle := by
      rw [hc]
      split <;> rfl
    have hacts := h.drainGo hgo hauth hnone hop hany
    refine ⟨fun r hr => ?_, fun hr => ?_⟩
    · rw [hrefused.trans hr] at hacts
      refine Answers.of_eq hexec hacts ⟨?_, ?_⟩
      · simp [State.endDrain, harrays]
      · rw [State.bit_settle]
        exact State.bit_raise_same _ _ _ rfl (by decide) (Reg.resetNat_lt _)
    · rw [hrefused.trans hr] at hacts
      refine Answers.of_eq hexec hacts ⟨⟨bank, op, drainTarget bank op, 32768 / (x.bankWidth bank).getD 1, 0, x.dueTide, false⟩, ?_,
        rfl, rfl, rfl, rfl, hdue, rfl⟩
      rw [State.settle_arrays, State.startDrain, harrays]
  case copy =>
    intro d how hd hwrite hstart hleft hroom
    obtain ⟨hdrain, htag, hnumbers⟩ := (s.at t).copyRow_row d how
    refine Answers.of_eq (x := (s.at t).copyRow d how) rfl ?_ ⟨?_, ?_, fun _ => ?_⟩
    · have hstarted : d.startTide ≤ (s.at t).clock.grid := hstart
      simp [hd, hwrite, hstarted, hleft, hroom]
    · simpa using hdrain
    · simpa using htag
    · simpa using hnumbers
  case latch =>
    intro d hd hstroke hcopied
    refine Leaves.of_eq rfl ?_
    simp [hd, hstroke, hcopied]
  case test =>
    intro w x h hgo hauth hnone slot hserving htesting
    have hx := h.only
    have hidle : x.bistBusy = false := by
      rw [hx]
      exact congrArg Option.isSome hnone
    have hhealth : (x.slotState slot).health = (s.slotState slot).health := by rw [hx]; rfl
    have hdue : x.dueTide = (s.at t).dueTide := by rw [hx]; rfl
    refine Leaves.of_eq rfl ((State.goClosed_of h _ _ _ _ hgo hauth hidle).trans ?_)
    refine (if_neg ?_).trans ?_
    · rw [hhealth]
      simp [hserving, htesting]
    · rw [← hdue]
      rfl
  case tested =>
    intro b count line hb hstarted hended hops hphase
    refine Leaves.of_eq rfl ?_
    have hrun : ((s.at t).inWrite || (s.at t).inScrub) = true := by simpa using hphase
    have hlast : b.opsLeft ≤ (s.at t).bistStrokes (s.at t).clock.stroke := hops
    simp [hb, hstarted, hended, hlast, hrun]
  case rewrite =>
    intro bank row hwrite hwait w hrow hroom
    have hgoes : ¬ (!(s.at t).inWrite || !(s.at t).toRewrite bank row || 32768 / w ≤ row || !(s.at t).backRoom .free [bank] w) = true := by
      have hwaits : (s.at t).toRewrite bank row = true := hwait
      simp [hwrite, hwaits, hroom, hrow]
    obtain ⟨hdone, hnumbers, u, o, htag⟩ := (s.at t).rewriteOwned_row bank row w
    have hsettled : ∀ z : State, z.settle.tag bank row = z.tag bank row := fun z => by simp [State.tag, State.slotOf]
    refine Answers.of_eq (State.exec_quadrantRowRewrite s t bank row) (if_neg hgoes) ⟨?_, ?_, fun hnone => ?_, fun len e hown => ?_⟩
    · simpa [State.toRewrite] using hdone
    · simpa using hnumbers
    · have howner : (s.at t).ownerOf bank row = none := hnone
      rw [howner] at htag
      rw [hsettled]
      exact htag
    · have howner : (s.at t).ownerOf bank row = some (len, e) := hown
      rw [howner] at htag
      rw [hsettled, htag]
      exact ⟨rfl, rfl⟩

end Sys2Proof.Machine
end

section
/-! The activation and the resolution of searches (R197 to R212): the one flight that there is, and what leaves the searches alone. -/
namespace Sys2Proof.Machine
variable {s x y : State} {t : Nat} {f g : Search} {l : Look} {df : TableDef} {tags : List TagFault}

/-! What leaves the searches, the ring's queue and the counters alone. -/

/-- The searches, the records in the ring's queue and the counters stand as they did. -/
def KeepsSearch (s x : State) : Prop := x.search = s.search ∧ x.ring.queue = s.ring.queue ∧ x.counters = s.counters

theorem KeepsSearch.refl (s : State) : KeepsSearch s s := ⟨rfl, rfl, rfl⟩

theorem KeepsSearch.trans (h : KeepsSearch s x) (k : KeepsSearch x y) : KeepsSearch s y :=
  ⟨k.1.trans h.1, k.2.1.trans h.2.1, k.2.2.trans h.2.2⟩

theorem KeepsSearch.each {α : Type} {act : State → α → State} (h : ∀ x a, KeepsSearch x (act x a)) (s : State) (l : List α) :
    KeepsSearch s (s.each l act) := State.each_of_step (R := KeepsSearch) .refl .trans h s l

theorem DramOnly.keepsSearch (h : DramOnly s x) : KeepsSearch s x :=
  ⟨(congrArg State.search h.eq :), (congrArg (fun z : State => z.ring.queue) h.eq :), (congrArg State.counters h.eq :)⟩

theorem IssuesOnly.keepsSearch (h : IssuesOnly s x) : KeepsSearch s x :=
  ⟨(congrArg State.search h.eq :), (congrArg (fun z : State => z.ring.queue) h.eq :), (congrArg State.counters h.eq :)⟩

theorem keepsSearch_queuePrio (s : State) (bank line : Nat) (verify : Bool) : KeepsSearch s (s.queuePrio bank line verify) := by
  unfold State.queuePrio
  split
  · exact (dramOnly_raiseBits _ _ _ _).keepsSearch
  · exact ⟨rfl, rfl, rfl⟩

theorem keepsSearch_queueRepair (s : State) (bank : Nat) (k : RepairKind) : KeepsSearch s (s.queueRepair bank k) := by
  unfold State.queueRepair
  split
  · exact .refl s
  · exact ⟨rfl, rfl, rfl⟩

theorem keepsSearch_tagLost (s : State) (bank row : Nat) : KeepsSearch s (s.tagLost bank row) := by
  have hnoted : KeepsSearch s (((s.raise Fld.ARY_SCRUB_STATUS_tag_lost).bump Fld.ARY_INTEG_COUNT1_tag_uncorr).queueRepair bank (.emptyRow row)) :=
    ((dramOnly_raiseBits s _ _ _).keepsSearch.trans (dramOnly_bump _ _ _ _).keepsSearch).trans (keepsSearch_queueRepair ..)
  unfold State.tagLost
  dsimp only
  split
  · exact hnoted
  · exact hnoted.trans ⟨rfl, rfl, rfl⟩

/-- Errors in the tags that activations read leave the searches alone (R267). -/
theorem keepsSearch_tagFaults (s : State) (banks : List Nat) (tags : List TagFault) : KeepsSearch s (s.tagFaults banks tags) := by
  refine .each (fun z e => ?_) s _
  split
  · exact (dramOnly_bump _ _ _ _).keepsSearch
  · exact (keepsSearch_tagLost ..).trans (keepsSearch_queuePrio ..)

theorem keepsSearch_admitRecord (s : State) (slots : List Bytes) (hold : Nat) (fill : Option Nat) :
    KeepsSearch s (s.admitRecord slots hold fill).1 := by
  unfold State.admitRecord
  dsimp only
  split
  · exact ⟨rfl, rfl, rfl⟩
  · unfold State.dropRecord
    refine KeepsSearch.trans ?_ (dramOnly_raiseBits _ _ _ _).keepsSearch
    refine KeepsSearch.trans ?_ (dramOnly_bump _ _ _ _).keepsSearch
    exact ⟨rfl, rfl, rfl⟩

theorem keepsSearch_admitLearn (s : State) (slots : List Bytes) : KeepsSearch s (s.admitLearn slots).1 := by
  unfold State.admitLearn
  refine KeepsSearch.trans ?_ (.each (fun _ _ => keepsSearch_admitRecord ..) _ _)
  exact KeepsSearch.trans (x := { s with manifest := _ }) ⟨rfl, rfl, rfl⟩ (keepsSearch_admitRecord ..)

/-- A learn notice leaves the searches alone (R297). -/
theorem keepsSearch_learnNotice (s : State) (n : Notice) : KeepsSearch s (s.learnNotice n) := by
  unfold State.learnNotice
  split
  · exact keepsSearch_admitLearn ..
  split
  · dsimp only
    split
    · exact (keepsSearch_admitLearn ..).trans ⟨rfl, rfl, rfl⟩
    · exact keepsSearch_admitLearn ..
  split
  · exact (dramOnly_bump _ _ _ _).keepsSearch
  · dsimp only
    split
    · refine KeepsSearch.trans ?_ (dramOnly_bump _ _ _ _).keepsSearch
      exact (keepsSearch_admitLearn ..).trans ⟨rfl, rfl, rfl⟩
    · exact keepsSearch_admitLearn ..

theorem keepsSearch_rtIssue (s : State) (a n : Nat) : KeepsSearch s (s.rtIssue a n) := by
  unfold State.rtIssue
  refine KeepsSearch.trans ?_ (issuesOnly_dramIssue ..).keepsSearch
  exact ⟨rfl, rfl, rfl⟩

theorem keepsSearch_countRealTime (s : State) (len : Nat) : KeepsSearch s (s.countRealTime len) := by
  unfold State.countRealTime
  split <;> exact ⟨rfl, rfl, rfl⟩

theorem keepsSearch_warm (s : State) (len : Nat) : KeepsSearch s (s.warm len) := by
  unfold State.warm
  split <;> exact ⟨rfl, rfl, rfl⟩

/-! The stages over the flights and the ring's records. -/

/-- A stage that the one flight has not come to leaves it. -/
theorem State.overFlights_skip {p : Search → Bool} {act : State → Search → State × Search} (hf : s.search.flights = [f])
    (hp : p f = false) : s.overFlights p act = s := by
  have hsame : { s.search with flights := [f] } = s.search := by rw [← hf]
  simp [State.overFlights, hf, hp, hsame]

/-- A ring without records in its queue has none to act on. -/
theorem State.overRing_empty {p : RingRec → Bool} {act : State → RingRec → State × RingRec} (hq : s.ring.queue = []) :
    s.overRing p act = s := by
  have hsame : { s.ring with queue := [] } = s.ring := by rw [← hq]
  simp [State.overRing, hq, hsame]

/-! The activation (R197 to R200). -/

theorem State.activateLooks_skip {p : Look → Bool} {lo n : Nat} {ls : List Look} (hp : p l = false) :
    s.activateLooks tags p lo n (l :: ls) = ((s.activateLooks tags p lo n ls).1, l :: (s.activateLooks tags p lo n ls).2) := by
  simp [State.activateLooks, hp]

/-- The one lookup that is picked makes the activations that the stroke has room for. -/
theorem State.activateLooks_one {p : Look → Bool} {n : Nat} (hp : p l = true) : s.activateLooks tags p 0 n [l] =
    (s.tagFaults (((s.activations l.m3 l.banks).take n).map (fun a => a.2)) tags,
      [s.activateLook tags ((s.activations l.m3 l.banks).take n) l]) := by
  simp [State.activateLooks, hp]

/-- The state once the tag faults of some activations are noted, with one flight. -/
def State.flownAs (s : State) (acts : List (Bool × Nat)) (tags : List TagFault) (g : Search) : State :=
  { s.tagFaults (acts.map (fun a => a.2)) tags with search := { s.search with flights := [g] } }

/-- The one flight makes its activations in a stage. -/
theorem State.overFlights_activates {p : Search → Bool} {act : State → Search → State × Search} {acts : List (Bool × Nat)}
    (hf : s.search.flights = [f]) (hp : p f = true) (ha : act s f = (s.tagFaults (acts.map (fun a => a.2)) tags, g)) :
    s.overFlights p act = s.flownAs acts tags g := by
  rw [State.overFlights_one hf hp ha, (keepsSearch_tagFaults ..).1]
  rfl

theorem Look.active_of {chained : Bool} (hchain : descChain l.desc = chained) (hstatus : l.status = none) (hdf : l.df = some df)
    (hdir : df.direct = false) : l.active chained = true := by
  simp [Look.active, hchain, hstatus, hdf, hdir]

/-- After a stage that activates, its flight stands alone, and the ring's queue as it did. -/
theorem State.flownAs_flights (s : State) (acts : List (Bool × Nat)) (tags : List TagFault) (g : Search) :
    (s.flownAs acts tags g).search.flights = [g] ∧ (s.flownAs acts tags g).ring.queue = s.ring.queue :=
  ⟨rfl, (keepsSearch_tagFaults ..).2.1⟩

theorem State.activateSearch_one (hsplit : f.split = false) (hlooks : f.looks = [l]) (hactive : l.active false = true)
    (hchain : descChain l.desc = false) (hroom : (s.activations l.m3 l.banks).length ≤ 128) : s.activateSearch tags f =
    (s.tagFaults ((s.activations l.m3 l.banks).map (fun a => a.2)) tags,
      { f with activated := true, looks := [s.activateLook tags (s.activations l.m3 l.banks) l] }) := by
  have hdesc : (s.activateLook tags (s.activations l.m3 l.banks) l).desc = l.desc := by
    unfold State.activateLook
    split <;> rfl
  unfold State.activateSearch
  rw [hlooks, hsplit]
  simp only [Bool.false_eq_true, if_false]
  rw [State.activateLooks_one hactive, List.take_of_length_le hroom]
  simp [hdesc, hchain]

theorem State.activateHalf_one (hlooks : f.looks = [l]) (hactive : l.active false = true) : s.activateHalf tags f =
    (s.tagFaults (((s.activations l.m3 l.banks).take f.first).map (fun a => a.2)) tags,
      { f with half := true, looks := [s.activateLook tags ((s.activations l.m3 l.banks).take f.first) l] }) := by
  unfold State.activateHalf
  rw [hlooks, State.activateLooks_one hactive]

theorem State.activateChain_one {src : Look} (hlooks : f.looks = [src, l]) (hsrc : descChain src.desc = false)
    (hactive : l.active true = true) (hfront : l.frontDone = true) (hroom : (s.activations l.m3 l.banks).length ≤ 128) :
    s.activateChain tags f = (s.tagFaults ((s.activations l.m3 l.banks).map (fun a => a.2)) tags,
      { f with chainActivated := true, looks := [src, s.activateLook tags (s.activations l.m3 l.banks) l] }) := by
  unfold State.activateChain
  rw [hlooks, State.activateLooks_skip (by simp [Look.active, hsrc]), State.activateLooks_one (by simp [hactive, hfront]),
    List.take_of_length_le hroom]

/-! The resolution (R201 to R204). -/

/-- A flight of one lookup that comes to its resolution. -/
structure ResolvesOne (s : State) (f : Search) (d now : Nat) (l : Look) (df : TableDef) : Prop where
  flights : s.search.flights = [f]
  dispatched : f.d = some d
  activated : f.activated = true
  waits : f.resolved = false
  alone : f.chainActivated = false
  reached : d + 351 ≤ now
  looks : f.looks = [l]
  pending : l.status = none
  table : l.df = some df
  ternary : df.direct = false
  inSlice : df.ringSpan = false
  source : descChain l.desc = false

/-- The state once the one lookup has been resolved. -/
def State.resolvedTo (s : State) (f : Search) (l : Look) : State :=
  { s with search := { s.search with flights := [{ f with resolved := true, looks := [l] }] } }

section
variable {d now : Nat} (h : ResolvesOne s f d now l df)
include h

theorem ResolvesOne.due : f.resolving now true ++ f.resolving now false = [⟨d + 351, f.pipe, 0, f.id⟩] := by
  simp [Search.resolving, Search.resolves, h.waits, h.activated, Search.reached, h.dispatched, h.reached, h.looks, h.source, h.pending, h.table,
    List.range_succ]

/-- The one lookup is resolved, and its search with it. -/
theorem ResolvesOne.resolves {l' : Look} (hl : s.resolveLook f d d 0 l = (x, l')) (hx : x.search = s.search) :
    s.resolveAll now = x.resolvedTo f l' := by
  have hone : s.resolveOne ⟨d + 351, f.pipe, 0, f.id⟩ = x.setLook f.id 0 l' := by
    simp [State.resolveOne, h.flights, h.looks, h.dispatched, h.source, hl]
  have hset : (x.setLook f.id 0 l').search.flights = [{ f with looks := [l'] }] := by
    simp [State.setLook, hx, h.flights, h.looks, List.range_succ]
  unfold State.resolveAll
  rw [h.flights, List.flatMap_cons, List.flatMap_nil, List.append_nil, h.due]
  dsimp only [List.foldr, insertResolving, State.each, List.foldl]
  rw [hone, hset]
  simp [Search.resolves, Search.reached, h.waits, h.activated, h.dispatched, h.reached, State.resolvedTo, State.setLook]

end

theorem resolution_one {d : Nat} {l' : Look} (h : ResolvesOne (s.at t) f d (s.at t).now l df) (hq : s.ring.queue = [])
    (hl : (s.at t).resolveLook f d d 0 l = (x, l')) (hsearch : x.search = s.search)
    (hqueue : x.ring.queue = s.ring.queue) : Leaves (.resolution t) s (x.resolvedTo f l') := by
  refine Leaves.of_eq (y := ((s.at t).resolveAll (s.at t).now).overRing
    (fun r => r.activated && !r.resolved && r.reached (s.at t).now 351) State.resolveRing) rfl ?_
  rw [h.resolves hl hsearch]
  exact State.overRing_empty (s := x.resolvedTo f l') (hqueue.trans hq)

section
variable {d i : Nat} (hdf : l.df = some df) (hdir : df.direct = false) (hspan : df.ringSpan = false)
include hdf hdir hspan

/-- A lookup whose copies agree that nothing matches misses, and one of a learning table is noticed (R201, R295). -/
theorem State.resolveLook_misses (s : State) (f : Search) (hwinner : l.winner = none) (hmirror : l.mirror = none) :
    ∃ n, s.resolveLook f d d i l = (if df.learn then s.learnNotice n else s, { l with status := some 1 }) := by
  refine ⟨⟨f.req.master, df.tid, df.units, l.key, reqBerth f.req.record, fieldLE f.req.record 5 3, i, descChain l.desc⟩, ?_⟩
  simp only [State.resolveLook, hdf, hdir, hspan, hwinner, hmirror, disagrees, Bool.false_eq_true, if_false]

/-- A lookup whose copies agree on a row has its winner. -/
theorem State.resolveLook_wins (s : State) (f : Search) {c : Cand} (hwinner : l.winner = some c) (hmirror : l.mirror = some c) :
    s.resolveLook f d d i l = s.winLook (reqNoAd f.req.record) d df l c := by
  have hagree : disagrees (some c) (some c) = false := by simp [disagrees]
  simp only [State.resolveLook, hdf, hdir, hspan, hwinner, hmirror, hagree, Bool.false_eq_true, if_false]

/-- The reads for a lookup whose copies disagree leave the searches alone (R212). -/
theorem State.resolveLook_disagrees (s : State) (f : Search) (hodd : disagrees l.winner l.mirror = true) :
    ∃ x, s.resolveLook f d d i l = (x, { l with disagree := true, reading := !(reqNoAd f.req.record || df.adBytes == 0) }) ∧
      KeepsSearch s x := by
  refine ⟨_, by simp only [State.resolveLook, hdf, hdir, hspan, hodd, Bool.false_eq_true, if_false, if_true]; rfl, ?_⟩
  have hreads : ∀ (z : State) (rs : List (Nat × Nat)), KeepsSearch z (z.each rs fun x a => x.rtIssue a.1 a.2) := fun z rs =>
    .each (fun _ _ => keepsSearch_rtIssue ..) z rs
  split
  · exact (hreads ..).trans (.each (fun _ _ => keepsSearch_countRealTime ..) _ _)
  · exact hreads ..

end

/-- A winner without data to give, or whose data stand in the hot store, makes a hit; else its data is read (R202, R203). -/
theorem State.winLook_noData {d : Nat} (s : State) {noAd : Bool} {c : Cand} (hno : (noAd || df.adBytes == 0) = true) :
    s.winLook noAd d df l c = (s.hitUpdate c (d + 351),
      { l with status := some 0, pre := if (df.hot != 2 && s.hotIn c.len ((d + 320) / 256)) = true then some 0 else none }) := by
  unfold State.winLook
  exact if_pos hno

theorem State.winLook_hot {d : Nat} (s : State) {noAd : Bool} {c : Cand} (hno : (noAd || df.adBytes == 0) = false)
    (hhot : (df.hot != 2 && s.hotIn c.len ((d + 320) / 256)) = true) : s.winLook noAd d df l c =
      ((s.hitUpdate c (d + 351)).warm c.len, { l with status := some 0, pre := some 0, data := (s.adFor c.len l.view).take df.adBytes }) := by
  unfold State.winLook
  exact (if_neg (by simp [hno])).trans (if_pos hhot)

theorem State.winLook_reads {d : Nat} (s : State) {noAd : Bool} {c : Cand} (hno : (noAd || df.adBytes == 0) = false)
    (hhot : (df.hot != 2 && s.hotIn c.len ((d + 320) / 256)) = false) :
    ∃ x, s.winLook noAd d df l c = (x, { l with reading := true, pre := none }) ∧ KeepsSearch (s.hitUpdate c (d + 351)) x := by
  refine ⟨if df.hot = 0 then ((s.hitUpdate c (d + 351)).rtIssue (adAddr c.len) 32).countRealTime c.len
    else (s.hitUpdate c (d + 351)).rtIssue (adAddr c.len) 32, ?_, ?_⟩
  · unfold State.winLook
    exact (if_neg (by simp [hno])).trans (if_neg (by simp [hhot]))
  · split
    · exact (keepsSearch_rtIssue ..).trans (keepsSearch_countRealTime ..)
    · exact keepsSearch_rtIssue ..

/-- Settles O37: the stages of ACTIVATION pass over the one flight but in the one that it has come to, and RESOLUTION resolves its one lookup. -/
theorem activatesAndResolves : Obligations.ActivatesAndResolves := by
  unfold Obligations.ActivatesAndResolves
  refine ⟨?activates, ?resolves⟩
  case activates =>
    intro s t tags f d hflies hqueue hd best after flies
    have hflights : (s.at t).search.flights = [f] := hflies
    have hlook : ∀ df l acts, l.df = some df → (s.at t).activateLook tags acts l = after df l acts := by
      intro df l acts hdf
      unfold State.activateLook
      split
      · next df' hdf' =>
        obtain rfl : df' = df := Option.some.inj (hdf'.symm.trans hdf)
        rfl
      · next hnone => exact absurd (hnone.symm.trans hdf) nofun
    have hring : ∀ {p act acts g}, (((s.at t).flownAs acts tags g).overRing p act) = (s.at t).flownAs acts tags g := fun {_ _ acts g} =>
      State.overRing_empty (((s.at t).flownAs_flights acts tags g).2.trans hqueue)
    refine ⟨?_, ?_⟩
    · intro l df hact hres hnow hlooks hstatus hdf hdir hchain acts
      refine ⟨fun hsplit hroom => ?_, fun hsplit hhalf hlate => ?_⟩
      · have hact1 := State.activateSearch_one (s := s.at t) (tags := tags) hsplit hlooks (Look.active_of hchain hstatus hdf hdir) hchain hroom
        rw [hlook df l _ hdf] at hact1
        refine Leaves.of_eq rfl ?_
        rw [State.overFlights_skip hflights (by simp [hsplit]),
          State.overFlights_activates hflights (by simp [hact, hsplit, Search.reached, hd, hnow]) hact1,
          State.overFlights_skip (State.flownAs_flights ..).1 (by simp [hres]), hring]
        rfl
      · have hact1 := State.activateHalf_one (s := s.at t) (tags := tags) hlooks (Look.active_of hchain hstatus hdf hdir)
        rw [hlook df l _ hdf] at hact1
        refine Leaves.of_eq rfl ?_
        rw [State.overFlights_activates hflights (by simp [hsplit, hhalf, Search.reached, hd, hnow]) hact1,
          State.overFlights_skip (State.flownAs_flights ..).1 (by simp [hsplit, Search.reached, hd]; omega),
          State.overFlights_skip (State.flownAs_flights ..).1 (by simp [hres]), hring]
        rfl
    · intro src l df hsplit hact hres hchained hnow hlooks hsrc hchain hstatus hfront hdf hdir hroom acts
      have hact1 := State.activateChain_one (s := s.at t) (tags := tags) hlooks hsrc (Look.active_of hchain hstatus hdf hdir) hfront hroom
      rw [hlook df l _ hdf] at hact1
      refine Leaves.of_eq rfl ?_
      rw [State.overFlights_skip hflights (by simp [hsplit]), State.overFlights_skip hflights (by simp [hact]),
        State.overFlights_activates hflights (by simp [hres, hchained, Search.reached, hd, hnow]) hact1, hring]
      rfl
  case resolves =>
    intro s t f d l df hflies hqueue hd hact hres hchained hnow hlooks hstatus hdf hdir hspan hchain flight noData
    have h : ResolvesOne (s.at t) f d (s.at t).now l df :=
      ⟨hflies, hd, hact, hres, hchained, hnow, hlooks, hstatus, hdf, hdir, hspan, hchain⟩
    have answers : ∀ {x : State} {l' : Look} {n : Counters}, Leaves (.resolution t) s (x.resolvedTo f l') → x.search = s.search →
        x.counters = n → Answers (.resolution t) s (fun s' => s'.search = flight l' ∧ s'.counters = n) := by
      intro x l' n hleaves hsearch hcounters
      refine ⟨_, hleaves, ?_, ?_⟩
      · rw [State.settle_search, State.resolvedTo, hsearch]
      · rw [State.settle_counters]
        exact hcounters
    refine ⟨fun hwinner hmirror => ?_, fun c hwinner hmirror => ?_, fun hodd => ?_⟩
    · obtain ⟨n, hlook⟩ := State.resolveLook_misses hdf hdir hspan (s.at t) f (d := d) (i := 0) hwinner hmirror
      refine ⟨fun hlearn => ?_, fun hlearn => ?_⟩
      · rw [hlearn] at hlook
        exact resolution_one h hqueue hlook rfl rfl
      · rw [hlearn] at hlook
        have hkept := keepsSearch_learnNotice (s.at t) n
        exact answers (resolution_one h hqueue hlook hkept.1 hkept.2.1) hkept.1 hkept.2.2
    · have hlook := State.resolveLook_wins hdf hdir hspan (s.at t) f (d := d) (i := 0) hwinner hmirror
      intro hot counted
      refine ⟨fun hno => ?_, fun hno => ?_⟩
      · exact resolution_one h hqueue (hlook.trans (State.winLook_noData _ hno)) rfl rfl
      · cases hhot : hot with
        | true =>
          obtain ⟨hsearch, hring, hcounters⟩ := keepsSearch_warm ((s.at t).hitUpdate c (d + 351)) c.len
          obtain ⟨s', hexec, hsearch', hcounters'⟩ :=
            answers (resolution_one h hqueue (hlook.trans (State.winLook_hot _ hno hhot)) hsearch hring) hsearch hcounters
          exact ⟨s', hexec, hcounters', fun _ => hsearch', nofun⟩
        | false =>
          obtain ⟨x, hreads, hsearch, hring, hcounters⟩ := State.winLook_reads (s.at t) hno hhot
          obtain ⟨s', hexec, hsearch', hcounters'⟩ :=
            answers (resolution_one h hqueue (hlook.trans hreads) hsearch hring) hsearch hcounters
          exact ⟨s', hexec, hcounters', nofun, fun _ => hsearch'⟩
    · obtain ⟨x, hlook, hkept⟩ := State.resolveLook_disagrees hdf hdir hspan (s.at t) f (d := d) (i := 0) hodd
      exact answers (resolution_one h hqueue hlook hkept.1 hkept.2.1) hkept.1 hkept.2.2
end Sys2Proof.Machine
end

section
/-! What leaves the time alone: the clock, the mode, the stage of the boot and the changes that wait (R46, R65, R107, R118, R646). One rule
for each operation that a boundary makes. -/
namespace Sys2Proof.Machine
variable {s x y : State}

/-- What a boundary says of the time: the clock, the mode, and the stage of the boot with the device record. -/
def timeOf (s : State) : Clock × ModeState × Nat × Bool × DeviceRec := (s.clock, s.mode, s.boot.stage, s.boot.applied, s.boot.device)

/-- The time stands as it did, and no change has been added to those that wait. -/
def KeepsTime (s x : State) : Prop := timeOf x = timeOf s ∧ x.due ⊆ s.due

theorem KeepsTime.of_eq (h : timeOf x = timeOf s) (hd : x.due = s.due) : KeepsTime s x := ⟨h, hd ▸ fun _ hmem => hmem⟩

theorem KeepsTime.refl (s : State) : KeepsTime s s := .of_eq rfl rfl

theorem KeepsTime.trans (h : KeepsTime s x) (k : KeepsTime x y) : KeepsTime s y := ⟨k.1.trans h.1, fun _ hmem => h.2 (k.2 hmem)⟩

/-- An operation that sets other fields of the state. -/
theorem KeepsTime.same (h : KeepsTime s x) (ht : timeOf y = timeOf x) (hd : y.due = x.due) : KeepsTime s y := h.trans (.of_eq ht hd)

/-- Other fields of the state are set: any but the clock, the mode, the boot and the changes that wait. -/
theorem KeepsTime.set (h : KeepsTime s x)
    {regs setBits setAt rc fuses power faults service pins berths masters security tables arrays numbers cmds hot scrub learning
    manifest search scribes counters observe links ring host dramCtl dram diram scratch memQueues start freeCounter out pending} :
    KeepsTime s { x with
      regs := regs, setBits := setBits, setAt := setAt, rc := rc, fuses := fuses, power := power, faults := faults,
      service := service, pins := pins, berths := berths, masters := masters, security := security, tables := tables,
      arrays := arrays, numbers := numbers, cmds := cmds, hot := hot, scrub := scrub, learning := learning, manifest := manifest,
      search := search, scribes := scribes, counters := counters, observe := observe, links := links, ring := ring, host := host,
      dramCtl := dramCtl, dram := dram, diram := diram, scratch := scratch, memQueues := memQueues, start := start,
      freeCounter := freeCounter, out := out, pending := pending } := h.same rfl rfl

theorem KeepsTime.each {α : Type} {f : State → α → State} {l : List α} (h : KeepsTime s x) (hf : ∀ x a, KeepsTime x (f x a)) :
    KeepsTime s (x.each l f) := h.trans (State.each_of_step (R := KeepsTime) .refl .trans hf x l)

theorem KeepsTime.when {f : State → State} {c : Bool} (h : KeepsTime s x) (k : KeepsTime x (f x)) : KeepsTime s (x.when c f) := by
  unfold State.when
  split
  · exact h.trans k
  · exact h

theorem KeepsTime.ite {c : Prop} [Decidable c] (h : KeepsTime s x) (k : KeepsTime s y) : KeepsTime s (if c then x else y) := by
  split
  · exact h
  · exact k

theorem DramOnly.keepsTime (h : DramOnly s x) : KeepsTime s x := .of_eq (congrArg timeOf h.eq :) (congrArg State.due h.eq :)

theorem IssuesOnly.keepsTime (h : IssuesOnly s x) : KeepsTime s x := .of_eq (congrArg timeOf h.eq :) (congrArg State.due h.eq :)

/-! Registers, faults and what is sent. -/

section
variable (h : KeepsTime s x) {f : Fld} {v n i cls block : Nat} {bytes : Bytes}
include h

theorem KeepsTime.setFld : KeepsTime s (x.setFld f v i) := h.same rfl rfl

theorem KeepsTime.raiseBits : KeepsTime s (x.raiseBits f v i) := h.same rfl rfl

theorem KeepsTime.raise : KeepsTime s (x.raise f i) := h.same rfl rfl

theorem KeepsTime.bump : KeepsTime s (x.bump f n i) := h.same rfl rfl

theorem KeepsTime.bumpHold : KeepsTime s (x.bumpHold f n i) := h.same rfl rfl

theorem KeepsTime.bumpMod : KeepsTime s (x.bumpMod f n i) := h.same rfl rfl

theorem KeepsTime.postFault : KeepsTime s (x.postFault cls block bytes) := h.trans (dramOnly_postFault ..).keepsTime

theorem KeepsTime.faultEvent {code object a b : Nat} : KeepsTime s (x.faultEvent code cls block object a b) := h.postFault

theorem KeepsTime.memoryEvent {event pc info addr temp : Nat} : KeepsTime s (x.memoryEvent event cls pc info addr temp) := h.postFault

theorem KeepsTime.securityRecord {event cause master info thaw : Nat} : KeepsTime s (x.securityRecord event cause master info thaw) :=
  h.postFault

theorem KeepsTime.settleGates : KeepsTime s x.settleGates := h.same rfl rfl

theorem KeepsTime.settle : KeepsTime s x.settle := h.same rfl rfl

end

/-! The DRAM. -/

section
variable (h : KeepsTime s x)
include h

theorem KeepsTime.dramWrite {a : Nat} {bs : Bytes} : KeepsTime s (x.dramWrite a bs) := h.trans (dramOnly_dramWrite ..).keepsTime

theorem KeepsTime.drainQueues : KeepsTime s x.drainQueues := by
  refine .each h fun y k => ?_
  exact (issuesOnly_issueWhile ..).keepsTime.same rfl rfl

theorem KeepsTime.idleRefresh : KeepsTime s x.idleRefresh := by
  refine .each h fun y k => ?_
  exact .ite (.of_eq rfl rfl) (.refl y)

theorem KeepsTime.stacksBoundary : KeepsTime s x.stacksBoundary := by
  refine .each h fun y n => ?_
  have hset : ∀ k, KeepsTime y (y.setStack n k) := fun _ => .of_eq rfl rfl
  exact .ite (hset _).memoryEvent (hset _)

theorem KeepsTime.fence {pc : Nat} : KeepsTime s (x.fence pc) := by
  refine h.trans ?_
  unfold State.fence
  extract_lets p place s1 needs spare s2
  have h2 : KeepsTime x s2 := by
    clear_value spare
    cases spare <;> exact .of_eq rfl rfl
  exact .ite (.refl x) (.memoryEvent (.raise h2.set))

/-! Berths, masters and tables (R78, R412, R441). -/

theorem KeepsTime.setMaster {m : Nat} {v : Master} : KeepsTime s (x.setMaster m v) := h.same rfl rfl

theorem KeepsTime.refillAll : KeepsTime s x.refillAll := h.same rfl rfl

theorem KeepsTime.newFreeze {m cause info stroke : Nat} : KeepsTime s (x.newFreeze m cause info stroke) := by
  unfold State.newFreeze
  exact h.setMaster.securityRecord

theorem KeepsTime.thawMaster {m : Nat} : KeepsTime s (x.thawMaster m) := by
  unfold State.thawMaster
  split
  · exact h
  · extract_lets info
    clear_value info
    cases info with
    | none => exact h
    | some i =>
      dsimp only
      split
      · exact h.newFreeze
      · exact h.setMaster.securityRecord

theorem KeepsTime.thawAll : KeepsTime s x.thawAll := .each h fun y _ => KeepsTime.thawMaster (.refl y)

theorem KeepsTime.writeStream {n : Nat} {bs : Bytes} : KeepsTime s (x.writeStream n bs) := h.dramWrite

theorem KeepsTime.unflagThawed {old : State} : KeepsTime s (x.unflagThawed old) := by
  refine .each h fun y _ => ?_
  exact KeepsTime.writeStream (.refl y)

theorem KeepsTime.masterRank {cs : List Change} : KeepsTime s (x.masterRank cs) := by
  refine KeepsTime.unflagThawed (.thawAll (.each h fun y c => ?_))
  cases c <;> exact .of_eq rfl rfl

theorem KeepsTime.berthRank {cs : List Change} : KeepsTime s (x.berthRank cs) := by
  refine KeepsTime.refillAll (.each (.each h fun y c => ?_) fun y c => ?_)
  · cases c <;> exact .of_eq rfl rfl
  · cases c <;> exact .of_eq rfl rfl

theorem KeepsTime.emptyTable {tid : Nat} {st : TableState} : KeepsTime s (x.emptyTable tid st) := by
  unfold State.emptyTable
  split
  · exact h
  · exact .ite h (h.same rfl rfl)

theorem KeepsTime.commitWindows : KeepsTime s x.commitWindows := by
  unfold State.commitWindows
  extract_lets s1
  have h1 : KeepsTime s s1 := .each h fun y w => .ite (.refl y) (.of_eq rfl rfl)
  exact h1.set

theorem KeepsTime.tableChange {c : Change} : KeepsTime s (x.tableChange c) := by
  unfold State.tableChange
  split
  · exact h.same rfl rfl
  · exact h.emptyTable
  · exact h.emptyTable
  · exact h.commitWindows
  · exact h

end

end Sys2Proof.Machine
end

section
/-! Streams, scribes, links and rings at a boundary leave the time alone (R350 to R368, R475 to R481, R505 to R510, R593). -/
namespace Sys2Proof.Machine
variable {s x y : State}

section
variable (h : KeepsTime s x)
include h

theorem KeepsTime.emit {e : Emit} : KeepsTime s (x.emit e) := h.same rfl rfl

theorem KeepsTime.setResult {id n : Nat} {r : Nat × Nat × Nat × Nat × Bytes} : KeepsTime s (x.setResult id r n) := h.same rfl rfl

theorem KeepsTime.setScribe {n : Nat} {v : Scribe} : KeepsTime s (x.setScribe n v) := h.same rfl rfl

theorem KeepsTime.setGlyph {n : Nat} {g : Glyph} : KeepsTime s (x.setGlyph n g) := h.same rfl rfl

theorem KeepsTime.report {r : Report} : KeepsTime s (x.report r) := h.same rfl rfl

theorem KeepsTime.setRing {r : Nat} {v : HostRing} : KeepsTime s (x.setRing r v) := h.same rfl rfl

/-! Links. -/

theorem KeepsTime.setLink {p : Port} {l : Link} : KeepsTime s (x.setLink p l) := by
  cases p with
  | quay q => exact .ite (h.same rfl rfl) h
  | east => exact h.same rfl rfl
  | west => exact h.same rfl rfl

theorem KeepsTime.redirect {origin : Nat} {isResult again : Bool} {rec : Bytes} : KeepsTime s (x.redirect origin isResult again rec).1 := by
  unfold State.redirect
  split
  · exact h
  · exact .emit (.ite h.setLink (.bump h.setLink.setLink))

theorem KeepsTime.loseRecords {q results completions : Nat} : KeepsTime s (x.loseRecords q results completions) :=
  .ite h h.bump.faultEvent

omit h in
theorem KeepsTime.redirectAll {q : Nat} {l : List TxRecord} : ∀ {x}, KeepsTime s x → KeepsTime s (x.redirectAll q l).1 := by
  induction l with
  | nil => exact fun h => h
  | cons r rest ih =>
    intro x h
    unfold State.redirectAll
    split
    · exact ih h.redirect
    · exact ih h.redirect
    · exact ih (.ite h.redirect h.redirect.loseRecords)
    · exact ih h

theorem KeepsTime.bringUp {p : Port} : KeepsTime s (x.bringUp p) := by
  unfold State.bringUp
  extract_lets l
  split
  · cases p with
    | quay q => exact h.setLink.faultEvent
    | east => exact h.setLink
    | west => exact h.setLink
  · exact h.setLink

theorem KeepsTime.linkDown {p : Port} {cause : Nat} : KeepsTime s (x.linkDown p cause) := by
  unfold State.linkDown
  extract_lets l wasUp tx src s1 ring s2
  have h1 : KeepsTime s s1 := h.setLink
  have h2 : KeepsTime s s2 := by
    cases p with
    | quay q => exact .faultEvent (.ite (.raise (.loseRecords (.redirectAll h1))) (.loseRecords (.redirectAll h1)))
    | east => exact .ite h1.set h1
    | west => exact .ite h1.set h1
  exact .ite h h2.bringUp

theorem KeepsTime.raiseQuay {p : Port} {f : Fld} : KeepsTime s (x.raiseQuay p f) := by
  cases p with
  | quay q => exact h.raise
  | east => exact h
  | west => exact h

theorem KeepsTime.retireLane {p : Port} {lane : Nat} : KeepsTime s (x.retireLane p lane) := h.setLink.raiseQuay.faultEvent

theorem KeepsTime.narrow {p : Port} {lane : Nat} : KeepsTime s (x.narrow p lane) :=
  .ite h (.ite h.setLink (.ite h.linkDown.set h.setLink))

theorem KeepsTime.retireByCommand {p : Port} {lane : Nat} : KeepsTime s (x.retireByCommand p lane) :=
  .ite (.ite h.retireLane (.ite h.setLink.retireLane h.narrow.retireLane)) (.ite h.retireLane.setLink.bringUp h.retireLane)

theorem KeepsTime.linkOff {p : Port} {cause : Nat} : KeepsTime s (x.linkOff p cause) := .ite h.linkDown.setLink h.linkDown

theorem KeepsTime.resetLink {p : Port} : KeepsTime s (x.resetLink p) := h.linkDown.setLink

theorem KeepsTime.sendEast {bs : Bytes} : KeepsTime s (x.sendEast bs) := .ite h.setLink h

theorem KeepsTime.sendCensus {m : Bytes} : KeepsTime s (x.sendCensus m) := .ite h.setLink h

theorem KeepsTime.endLeave : KeepsTime s x.endLeave := by
  unfold State.endLeave
  extract_lets s1 s2
  have h1 : KeepsTime s s1 := .each h fun y r => (KeepsTime.refl y).sendEast.setLink.bump
  exact (KeepsTime.linkOff (.linkOff (KeepsTime.settleGates h1.set)))

theorem KeepsTime.launchCommit {e : Epoch} : KeepsTime s (x.launchCommit e) := by
  unfold State.launchCommit
  exact h.set.sendCensus

theorem KeepsTime.joinRing : KeepsTime s x.joinRing := by
  unfold State.joinRing
  extract_lets src s1 up
  have h1 : KeepsTime s s1 := .settleGates (h.same rfl rfl)
  have hup : ∀ {y p}, KeepsTime s y → KeepsTime s (up y p) := fun k => .ite k.setLink.bringUp k
  exact .ite h (.ite (hup (hup h1)) h1)

theorem KeepsTime.epochTake : KeepsTime s x.epochTake := by
  unfold State.epochTake
  extract_lets src s1
  have h1 : KeepsTime s s1 := by
    dsimp only [s1]
    split
    · exact h.set.raise
    · exact h
  clear_value s1
  split
  · exact .faultEvent (.raise h1.set)
  · exact h1

theorem KeepsTime.modeCommit : KeepsTime s x.modeCommit := by
  unfold State.modeCommit
  split
  · exact .ite h.launchCommit.set h
  · exact h

/-! Rings of the host, and where a record goes. -/

theorem KeepsTime.offerCompletion {q : Nat} {rec : Bytes} : KeepsTime s (x.offerCompletion q rec) :=
  (.ite h.setLink.emit (.ite h.redirect h.redirect.loseRecords))

theorem KeepsTime.offerResult {q pool words : Nat} {rec : Bytes} : KeepsTime s (x.offerResult q rec pool words) :=
  (.ite h.setLink.emit (.ite h.redirect h.redirect.loseRecords))

theorem KeepsTime.ringReply {k entries : Nat} {rec : Bytes} : KeepsTime s (x.ringReply k entries rec) :=
  .ite h.bumpHold (.ite h.bump (h.same rfl rfl))

theorem KeepsTime.replyTo {src : Source} {ring entries : Nat} {isResult : Bool} {rec : Bytes} :
    KeepsTime s (x.replyTo src ring entries isResult rec) := by
  cases src with
  | quay q => exact .ite h.offerResult h.offerCompletion
  | hostRing _ => exact h.ringReply
  | window _ => exact h.ringReply
  | seed => exact .ite (h.same rfl rfl) h.bumpHold

theorem KeepsTime.releaseReply {src : Source} {ring entries : Nat} : KeepsTime s (x.releaseReply src ring entries) := by
  cases src with
  | quay q => exact h
  | hostRing _ => exact .ite (h.same rfl rfl) h
  | window _ => exact .ite (h.same rfl rfl) h
  | seed => exact h

theorem KeepsTime.releaseRecord {src : Source} {rec : Bytes} : KeepsTime s (x.releaseRecord src rec) := by
  cases src with
  | quay q => exact .ite h.setLink h
  | hostRing _ => exact h
  | window _ => exact h.same rfl rfl
  | seed => exact h

theorem KeepsTime.postDue : KeepsTime s x.postDue := by
  refine .each (h.same rfl rfl) fun y a => ?_
  split
  · exact .ite (.releaseReply (.refl y)) (.replyTo (.refl y))
  · exact .refl y

theorem KeepsTime.ringDisable {r : Nat} : KeepsTime s (x.ringDisable r) := .when (h.same rfl rfl) (.bump (.refl _))

theorem KeepsTime.dataLinkDown : KeepsTime s x.dataLinkDown := by
  unfold State.dataLinkDown
  extract_lets s1
  have h1 : KeepsTime s s1 := .each h fun y r => KeepsTime.setRing (.ringDisable (.refl y))
  exact .ite h (.raise h1.set)

theorem KeepsTime.hostTide : KeepsTime s x.hostTide := by
  unfold State.hostTide
  extract_lets moved s1
  have h1 : KeepsTime s s1 := .each h fun y r => .when (.of_eq rfl rfl) (.of_eq rfl rfl)
  exact h1.set

/-! Scribes and streams. -/

theorem KeepsTime.endChunk {n status cause : Nat} : KeepsTime s (x.endChunk n status cause) := by
  unfold State.endChunk
  extract_lets running
  split
  · exact h
  · exact .setScribe (.ite h.bump (.ite h.bump h))

theorem KeepsTime.watchdogChunk {n : Nat} : KeepsTime s (x.watchdogChunk n) := by
  unfold State.watchdogChunk
  split
  · exact h
  · exact .faultEvent (.raise h.endChunk.writeStream.setScribe)

theorem KeepsTime.lateRead {n tide : Nat} : KeepsTime s (x.lateRead n tide) := by
  unfold State.lateRead
  split
  · exact h
  · extract_lets v s1
    have h1 : KeepsTime s s1 := h.setScribe.bump
    exact h1.set

theorem KeepsTime.writeBackStream {a : Assigned} : KeepsTime s (x.writeBackStream a) := by
  unfold State.writeBackStream
  split
  · exact h.writeStream
  · exact h

theorem KeepsTime.discardChunk {dest index : Nat} {c : Chunk} : KeepsTime s (x.discardChunk dest index c) := by
  have hcredited : KeepsTime s (x.creditChunk c) := .ite h h.releaseRecord
  exact .ite hcredited.report (.releaseReply hcredited.report)

theorem KeepsTime.discardStream {n : Nat} : KeepsTime s (x.discardStream n) := by
  refine .each (h.same rfl rfl) fun y c => ?_
  exact .discardChunk (.refl y)

theorem KeepsTime.freeStreamNumber {n : Nat} : KeepsTime s (x.freeStreamNumber n) := by
  unfold State.freeStreamNumber
  extract_lets s1 s2
  have h2 : KeepsTime s s2 := h.discardStream.writeStream
  exact h2.set

theorem KeepsTime.scribesEnd : KeepsTime s x.scribesEnd := by
  refine .each (.each (.each h fun y n => ?_) fun y a => ?_) fun y n => ?_
  · exact .watchdogChunk (.lateRead (.refl y))
  · exact .writeBackStream (.refl y)
  · exact .freeStreamNumber (.refl y)

theorem KeepsTime.resetStream {n : Nat} : KeepsTime s (x.resetStream n) := by
  unfold State.resetStream
  split
  · exact h
  · exact h.discardStream.writeStream

theorem KeepsTime.closeStream {n : Nat} : KeepsTime s (x.closeStream n) := by
  unfold State.closeStream
  split
  · exact h
  · exact h.freeStreamNumber

theorem KeepsTime.glyphUsable {n : Nat} : KeepsTime s (x.glyphUsable n) := by
  unfold State.glyphUsable
  extract_lets g s1 s2
  have h1 : KeepsTime s s1 := h.setGlyph.raise
  have h2 : KeepsTime s s2 := by
    dsimp only [s2]
    split
    · exact h1.setResult
    · exact h1
  exact .ite (.ite h2.setFld h2) h

theorem KeepsTime.emptySlot {n : Nat} : KeepsTime s (x.emptySlot n) := by
  unfold State.emptySlot
  extract_lets g s1
  split <;> exact h.same rfl rfl

theorem KeepsTime.startBist : KeepsTime s x.startBist := by
  unfold State.startBist
  split <;> exact h.same rfl rfl

theorem KeepsTime.unitChange {c : Change} : KeepsTime s (x.unitChange c) := by
  unfold State.unitChange
  split
  · exact h.resetStream
  · exact h.closeStream
  · exact h.glyphUsable
  · exact h.emptySlot
  · exact h.fence
  · exact h.retireByCommand
  · exact h.startBist
  · exact h

end

end Sys2Proof.Machine
end

section
/-! The ranks of a boundary (R646) leave the time alone, but the one of the mode; a life-cycle change leaves the clock. -/
namespace Sys2Proof.Machine
variable {s x y : State}

section
variable (h : KeepsTime s x)
include h

/-! The end of a tide. -/

theorem KeepsTime.increment {len : Nat} : KeepsTime s (x.increment len) := by
  unfold State.increment
  extract_lets n s1
  have h1 : KeepsTime s s1 := .ite h.raise (h.same rfl rfl)
  exact .ite h1.set h1

theorem KeepsTime.updatesBeforeSlack : KeepsTime s x.updatesBeforeSlack := by
  refine .each (h.same rfl rfl) fun y u => ?_
  exact .ite (.increment (.of_eq rfl rfl)) (.refl y)

theorem KeepsTime.hotDemote {len : Nat} : KeepsTime s (x.hotDemote len) := by
  unfold State.hotDemote
  split
  · exact h
  · exact h.same rfl rfl

theorem KeepsTime.demoteGone : KeepsTime s x.demoteGone := .each h fun y _ => .hotDemote (.refl y)

theorem KeepsTime.commitStroke : KeepsTime s x.commitStroke := h.same rfl rfl

theorem KeepsTime.bistTide : KeepsTime s x.bistTide := by
  unfold State.bistTide
  split
  · exact .ite (h.same rfl rfl) h
  · exact h

/-! Rank 5: the pilot. -/

theorem KeepsTime.freeRetired : KeepsTime s x.freeRetired := by
  unfold State.freeRetired
  extract_lets gone s1
  have h1 : KeepsTime s s1 := .each h fun y p => .ite (.of_eq rfl rfl) (.refl y)
  exact h1.set

theorem KeepsTime.finishInsertions : KeepsTime s x.finishInsertions := by
  refine .each h fun y i => ?_
  extract_lets cmds s0
  have h0 : KeepsTime y s0 := .of_eq rfl rfl
  clear_value s0
  split
  · exact h0
  · have hplaced : ∀ {len e}, KeepsTime y (s0.setEntry len e) := h0.same rfl rfl
    refine .ite ?_ hplaced.setResult.bump
    split
    · exact h0.faultEvent
    · exact h0

theorem KeepsTime.admitRecord {slots : List Bytes} {hold : Nat} {fill : Option Nat} : KeepsTime s (x.admitRecord slots hold fill).1 := by
  have hdropped : KeepsTime s (x.dropRecord slots.length) := by
    unfold State.dropRecord
    exact h.set.bump.raise
  unfold State.admitRecord
  extract_lets n fits first
  split
  · exact h.same rfl rfl
  · exact hdropped

theorem KeepsTime.postEvicted {l : List Insertion} : KeepsTime s (x.postEvicted l) :=
  .each h fun y _ => .ite (.refl y) (.admitRecord (.refl y))

theorem KeepsTime.endDrain {r : Nat} : KeepsTime s (x.endDrain r) := by
  unfold State.endDrain
  exact h.set.raise

theorem KeepsTime.setSlot {n : Nat} {v : SlotState} : KeepsTime s (x.setSlot n v) := h.same rfl rfl

theorem KeepsTime.setHealth {n : Nat} {v : Health} : KeepsTime s (x.setHealth n v) := h.setSlot

theorem KeepsTime.endBist {b : Bist} {count line : Nat} {failed : Bool} : KeepsTime s (x.endBist b count line failed) := by
  have hdone : KeepsTime s ((State.setSlot { x with service := { x.service with bist := none }, arrays := x.arrays.clean b.slot }
      b.slot ⟨if failed then .failed else .free, count, line⟩).raise Fld.ARY_BIST_STATUS_done) := h.set.setSlot.raise
  exact .faultEvent (.ite hdone.raise hdone)

theorem KeepsTime.serviceBoundary : KeepsTime s x.serviceBoundary := by
  unfold State.serviceBoundary
  extract_lets arrays s1 s2 service
  have h1 : KeepsTime s s1 := by
    dsimp -zeta only [s1]
    split
    · split
      · extract_lets old served switched y
        have hy : KeepsTime s y := h.set.setHealth.setHealth.endDrain
        exact hy.set
      · exact h
    · exact h
  have h2 : KeepsTime s s2 := by
    clear_value s1
    dsimp only [s2]
    split
    · split
      · exact h1.endBist
      · exact h1
    · exact h1
  clear_value s2
  split
  · exact h2.set.setHealth
  · exact h2

theorem KeepsTime.pilotRank : KeepsTime s x.pilotRank := by
  unfold State.pilotRank
  extract_lets s1 ends n s2
  have hfilled : KeepsTime s x.fillAged := h.same rfl rfl
  have hnoted : ∀ {y}, KeepsTime s y → KeepsTime s y.noteVictims := fun k => k.same rfl rfl
  have hlabelled : ∀ {y}, KeepsTime s y → KeepsTime s y.noteLabels := fun k => k.same rfl rfl
  have hwatched : ∀ {y}, KeepsTime s y → KeepsTime s y.watchdog := fun k => k.same rfl rfl
  have hlatched : ∀ {y}, KeepsTime s y → KeepsTime s y.hotBoundary.dropOldAd.latchCharts := fun k => k.same rfl rfl
  have hfreed : ∀ {y}, KeepsTime s y → KeepsTime s y.freeSpans := fun k => k.same rfl rfl
  have h1 : KeepsTime s s1 := (hwatched (hlabelled (hnoted hfilled))).freeRetired
  have h2 : KeepsTime s s2 := hfreed (hlatched h1.finishInsertions.postEvicted).serviceBoundary
  clear_value s2
  exact h2.same rfl rfl

/-! Ranks 6 to 9. -/

theorem KeepsTime.filterRank {cs : List Change} : KeepsTime s (x.filterRank cs) := by
  have hexpired : ∀ {y}, KeepsTime s y → KeepsTime s y.expireFilter := fun k => k.same rfl rfl
  refine hexpired (.each h fun y c => ?_)
  cases c <;> exact .of_eq rfl rfl

theorem KeepsTime.epochBoundary {first : Bool} : KeepsTime s (x.epochBoundary first) := by
  unfold State.epochBoundary
  extract_lets s1 s2
  have h1 : KeepsTime s s1 := .ite (h.same rfl rfl) h
  have h2 : KeepsTime s s2 := by
    clear_value s1
    exact .ite (h1.same rfl rfl) h1
  exact .ite h h2.set

theorem KeepsTime.epochRank {cs : List Change} {first : Bool} : KeepsTime s (x.epochRank cs first) := by
  refine .epochBoundary (.each h fun y c => ?_)
  cases c <;> exact .of_eq rfl rfl

theorem KeepsTime.sampleRank {cs : List Change} : KeepsTime s (x.sampleRank cs) := by
  have hsampled : ∀ {y}, KeepsTime s y → KeepsTime s y.sampleBoundary := fun k => .ite k (k.same rfl rfl)
  refine hsampled (.each h fun y c => ?_)
  cases c <;> exact .of_eq rfl rfl

end

end Sys2Proof.Machine
end

section
/-! A whole boundary (R646): what its ranks make of the time, and the changes that it applies. -/
namespace Sys2Proof.Machine
variable {s x y : State}

section
variable (h : KeepsTime s x)
include h

/-! Domain resets and power at a boundary (R578, R582, R593). -/

theorem KeepsTime.abandonFlash : KeepsTime s x.abandonFlash := by
  unfold State.abandonFlash
  split
  · extract_lets s1
    have h1 : KeepsTime s s1 := h.setFld
    exact h1.set
  · exact h

theorem KeepsTime.abandonWrap : KeepsTime s x.abandonWrap := by
  unfold State.abandonWrap
  split
  · exact h.same rfl rfl
  · exact h

theorem KeepsTime.mgmtRestart {cause : Nat} : KeepsTime s (x.mgmtRestart cause) := by
  unfold State.mgmtRestart
  extract_lets work s1 searches scrub s2
  have h2 : KeepsTime s s2 := h.abandonFlash.abandonWrap.set
  exact h2.raise.bumpHold.faultEvent

theorem KeepsTime.admitImage {n : Nat} {copied : Bool} : KeepsTime s (x.admitImage n copied) := by
  have hset : ∀ {y g}, KeepsTime s y → KeepsTime s (y.setGlyph n g) := fun k => k.same rfl rfl
  unfold State.admitImage
  extract_lets g header code s1 s2
  have h1 : KeepsTime s s1 := .faultEvent (.raise (hset h))
  have h2 : KeepsTime s s2 := by
    dsimp only [s2]
    split
    · exact h1.setResult
    · exact h1
  exact .ite (hset (hset h)) (.ite h2.setFld h2)

theorem KeepsTime.resetQuadrant {q : Nat} : KeepsTime s (x.resetQuadrant q) := by
  unfold State.resetQuadrant
  extract_lets s1 inside banks a
  have h1 : KeepsTime s s1 := by
    dsimp only [s1]
    split
    · exact .ite h.endBist h
    · exact h
  exact h1.set

theorem KeepsTime.returnChunks {half : Nat} : KeepsTime s (x.returnChunks half) := by
  refine .each h fun y n => ?_
  exact .ite (.refl y) (.each (KeepsTime.setScribe (.refl y)) fun z a => .of_eq rfl rfl)

theorem KeepsTime.resetDomain {d : Nat} : KeepsTime s (x.resetDomain d) := by
  have hglyphs : ∀ {y}, KeepsTime s y → KeepsTime s y.abandonGlyphs := fun k => .each k fun z n => .admitImage (.refl z)
  have hlinks : KeepsTime s (x.each (x.quaysOf (d - 6)) fun t q => t.resetLink (.quay q)) := .each h fun z q => .resetLink (.refl z)
  exact .ite h.mgmtRestart (.ite (hglyphs h.abandonFlash) (.ite h.dataLinkDown.set (.ite hlinks
    (.ite h.resetLink.endLeave.set (.ite h.resetQuadrant (.ite h.returnChunks h))))))

theorem KeepsTime.resetTide : KeepsTime s x.resetTide := by
  unfold State.resetTide
  split
  · exact .ite h h.set.resetDomain.raise
  · exact h

theorem KeepsTime.enterIdle : KeepsTime s x.enterIdle := by
  unfold State.enterIdle
  extract_lets s1
  have h1 : KeepsTime s s1 := by
    dsimp only [s1]
    split
    · exact h.setResult
    · exact h
  exact h1.set

theorem KeepsTime.powerTide : KeepsTime s x.powerTide := by
  unfold State.powerTide
  extract_lets quiet power s1 s2
  have h1 : KeepsTime s s1 := h.same rfl rfl
  have h2 : KeepsTime s s2 := by
    clear_value s1
    dsimp only [s2]
    split
    · exact .ite h1.enterIdle h1
    · exact .ite h1.enterIdle h1
  clear_value s2
  split
  · exact .ite (h2.same rfl rfl) h2
  · exact h2

/-! The completions, and the end of a tide. -/

theorem KeepsTime.seedBoundary : KeepsTime s x.seedBoundary := h.same rfl rfl

theorem KeepsTime.endExit : KeepsTime s x.endExit := by
  unfold State.endExit
  split
  · exact h.set.raise
  · exact h

theorem KeepsTime.postCarried : KeepsTime s x.postCarried := by
  unfold State.postCarried
  split
  · exact h
  · exact h.set.faultEvent

theorem KeepsTime.grantCredits : KeepsTime s x.grantCredits := h.same rfl rfl

theorem KeepsTime.modeResult {result tide : Nat} {payload : Bytes} {all : Bool} : KeepsTime s (x.modeResult result payload tide all) := by
  unfold State.modeResult
  split
  · exact h
  · exact .ite h.setResult h

theorem KeepsTime.openDebug : KeepsTime s x.openDebug := by
  unfold State.openDebug State.zeroise
  exact h.set.set.securityRecord

theorem KeepsTime.placeSets {sets : List Nat} : ∀ {used0 used1 : Nat}, KeepsTime s (x.placeSets sets used0 used1) := by
  induction sets generalizing x with
  | nil => exact h
  | cons n rest ih => exact ih h.setGlyph.setGlyph

theorem KeepsTime.replacePartitions : KeepsTime s x.replacePartitions := by
  have hcancelled : KeepsTime s (x.cancelReady x.placedSets) := h.trans ⟨rfl, List.filter_subset_self _⟩
  refine .placeSets (.each hcancelled fun y n => ?_)
  exact .of_eq rfl rfl

end

theorem KeepsTime.fields (h : KeepsTime s x) : x.clock = s.clock ∧ x.mode = s.mode ∧ x.boot.stage = s.boot.stage ∧
    x.boot.applied = s.boot.applied ∧ x.boot.device = s.boot.device := by
  simpa only [timeOf, Prod.mk.injEq] using h.1

theorem KeepsTime.clock (h : KeepsTime s x) : x.clock = s.clock := h.fields.1

theorem KeepsTime.setMode (h : KeepsTime s x) (mode : ModeState) : KeepsTime { s with mode := mode } { x with mode := mode } := by
  obtain ⟨hclock, -, hstage, happlied, hdevice⟩ := h.fields
  exact ⟨by simp only [timeOf, hclock, hstage, happlied, hdevice], h.2⟩

theorem KeepsTime.setClock (h : KeepsTime s x) (clock : Clock) : KeepsTime { s with clock := clock } { x with clock := clock } := by
  obtain ⟨-, hmode, hstage, happlied, hdevice⟩ := h.fields
  exact ⟨by simp only [timeOf, hmode, hstage, happlied, hdevice], h.2⟩

/-! The mode rank (R107, R118, R129). -/

/-- The mode rank after the boot or the mode change. -/
theorem State.modeRank_keeps (s : State) :
    KeepsTime (if s.boot.stage == 4 && s.boot.applied then s.serveBegin else s.modeBoundary) s.modeRank := by
  unfold State.modeRank
  extract_lets opens s1 s2 s3
  have h2 : KeepsTime s1 s2 := .when (.refl s1) (.openDebug (.refl s1))
  have h3 : KeepsTime s1 s3 := .when h2 (.replacePartitions (.refl s2))
  exact h3.epochTake.modeCommit

/-- The state that serves in the boot mode. -/
def State.bootServed (s : State) : State := { s with
  boot := { s.boot with stage := 5, applied := false }
  mode := ⟨s.boot.device.bootMode, none, false, none, none, s.boot.device.bootMode, s.clock.grid⟩ }

/-- The boundary of the first dispatch tide serves in the boot mode (R107). -/
theorem State.serveBegin_keeps (hopens : (s.boot.stage == 4 && s.boot.applied) = true) : KeepsTime s.bootServed s.serveBegin := by
  obtain ⟨hstage, happlied⟩ := Bool.and_eq_true_iff.mp hopens
  have hstays : ¬ (s.boot.stage != 4 || !s.boot.applied) = true := by simp [eq_of_beq hstage, happlied]
  unfold State.serveBegin
  rw [if_neg hstays]
  extract_lets b noSeed boot mode tables s1 w e ring s2 s3 s4 s5
  have h2 : KeepsTime s.bootServed s2 := .of_eq rfl rfl
  have h3 : KeepsTime s.bootServed s3 := h2.setFld.grantCredits
  have h4 : KeepsTime s.bootServed s4 := .ite h3.joinRing h3
  have h5 : KeepsTime s.bootServed s5 := .ite h4.faultEvent h4
  exact h5.postCarried.endExit

/-- A change of mode comes into force at the boundary that ends its turn tide (R118). -/
theorem State.modeBoundary_takes {m turn : Nat} (hpending : s.mode.pending = some m) (hturn : s.mode.turnTide = some turn)
    (hpast : turn < s.clock.grid) :
    KeepsTime { s with mode := ⟨m, none, false, none, none, s.mode.mode, s.clock.grid⟩ } s.modeBoundary := by
  unfold State.modeBoundary
  rw [hpending, hturn]
  dsimp -zeta only
  rw [if_neg (Nat.not_le.mpr hpast)]
  extract_lets old copies s1 flights cmds arrays s2
  have h1 : KeepsTime s s1 := (KeepsTime.refl s).modeResult
  have h2 : KeepsTime { s with mode := ⟨m, none, false, none, none, s.mode.mode, s.clock.grid⟩ } s2 := (h1.setMode _).set
  exact h2.setFld.raise

/-- Before that boundary, or without a change that is pending, the mode stays. -/
theorem State.modeBoundary_rests (h : ∀ m turn, s.mode.pending = some m → s.mode.turnTide = some turn → s.clock.grid ≤ turn) :
    s.modeBoundary = s := by
  unfold State.modeBoundary
  split
  next m turn hpending hturn => exact if_pos (h m turn hpending hturn)
  next => rfl

/-- A boundary changes no more of the time than the mode. -/
theorem State.modeBoundary_keeps (s : State) : ∃ mode, KeepsTime { s with mode := mode } s.modeBoundary := by
  by_cases h : ∀ m turn, s.mode.pending = some m → s.mode.turnTide = some turn → s.clock.grid ≤ turn
  · rw [State.modeBoundary_rests h]
    exact ⟨_, .refl s⟩
  · push Not at h
    obtain ⟨m, turn, hpending, hturn, hpast⟩ := h
    exact ⟨_, State.modeBoundary_takes hpending hturn hpast⟩

/-- The mode rank leaves the clock, and adds no change to those that wait. -/
theorem State.modeRank_clock (s : State) : s.modeRank.clock = s.clock ∧ s.modeRank.due ⊆ s.due := by
  have hkeeps := s.modeRank_keeps
  split at hkeeps
  next hopens =>
    have h := (State.serveBegin_keeps hopens).trans hkeeps
    exact ⟨h.clock, h.2⟩
  next =>
    obtain ⟨mode, hmode⟩ := s.modeBoundary_keeps
    have h := hmode.trans hkeeps
    exact ⟨h.clock, h.2⟩

/-! The end of a tide and the next one. -/

theorem KeepsTime.rtcTide (h : KeepsTime s x) : KeepsTime s x.rtcTide := by
  unfold State.rtcTide
  extract_lets part
  exact .ite h.set h.set

theorem State.tideEnd_keeps (s : State) : KeepsTime (s.at 255) s.tideEnd := by
  unfold State.tideEnd
  extract_lets s0 s1
  have h1 : KeepsTime s0 s1 := .when (.refl s0) (KeepsTime.commitStroke (.demoteGone (.updatesBeforeSlack (.refl s0))))
  exact h1.scribesEnd.bistTide.drainQueues

/-- The clock moves on, and shows a step that is taken. -/
theorem State.gridMoves_keeps (s : State) : KeepsTime { s with clock := s.clock.nextTide } s.gridMoves := by
  unfold State.gridMoves
  extract_lets src s1
  have hrtc : KeepsTime s s.rtcTide := KeepsTime.rtcTide (.refl s)
  have h1 : KeepsTime { s with clock := s.clock.nextTide } s1 := hrtc.setClock s.clock.nextTide
  clear_value s1
  exact .when h1 (.raise (.bumpMod (.setFld (.refl s1))))

/-- A boundary opens the next tide (R46, R74, R77, R80). -/
theorem State.nextTide_keeps (s : State) : KeepsTime { s with clock := s.clock.nextTide } s.tideEnd.gridMoves := by
  have hclock : s.tideEnd.clock.nextTide = s.clock.nextTide := by
    rw [s.tideEnd_keeps.clock]
    rfl
  have hend := s.tideEnd_keeps.setClock s.clock.nextTide
  have hmoves := s.tideEnd.gridMoves_keeps
  rw [hclock] at hmoves
  exact (KeepsTime.of_eq rfl rfl).trans (hend.trans hmoves)

/-! The changes that are due. -/

theorem State.enterRecovery_clock (s : State) : s.enterRecovery.clock = s.clock :=
  (KeepsTime.endExit (.refl s.emptied)).clock

/-- A life-cycle change leaves the clock (R444). -/
theorem State.applyLifeCycle_clock (s : State) (new floor : Nat) (hash : Bytes) : (s.applyLifeCycle new floor hash).clock = s.clock := by
  unfold State.applyLifeCycle
  extract_lets old z f security s1 s2
  have h1 : s1.clock = s.clock := by
    dsimp only [s1, z, State.zeroise]
  have h2 : KeepsTime s1 s2 := .securityRecord (.securityRecord (.refl s1))
  clear_value s1
  clear_value s2
  exact s2.enterRecovery_clock.trans (h2.clock.trans h1)

/-- What a boundary applies before the completions. -/
def State.ranksDue (s : State) (cs : List Change) (first : Bool) : State :=
  let s4 := (((s.masterRank cs).berthRank cs).each cs State.tableChange).scribesBoundary.each cs State.unitChange
  ((((s4.pilotRank.filterRank cs).epochRank cs first).sampleRank cs).stacksBoundary.idleRefresh.hostTide).refreshNeighbours.postDue.seedBoundary

theorem KeepsTime.ranksDue (h : KeepsTime s x) {cs : List Change} {first : Bool} : KeepsTime s (x.ranksDue cs first) := by
  have hscribes : ∀ {y}, KeepsTime s y → KeepsTime s y.scribesBoundary := fun k => k.same rfl rfl
  have hrefreshed : ∀ {y}, KeepsTime s y → KeepsTime s y.refreshNeighbours := fun k => k.same rfl rfl
  unfold State.ranksDue
  extract_lets s4
  have h4 : KeepsTime s s4 := .each (hscribes (.each h.masterRank.berthRank fun y c => .tableChange (.refl y)))
    fun y c => .unitChange (.refl y)
  exact (hrefreshed h4.pilotRank.filterRank.epochRank.sampleRank.stacksBoundary.idleRefresh.hostTide).postDue.seedBoundary

/-- A change at its boundary, where it is one of the life cycle. -/
def State.cycleChange (s : State) (c : Change) : State :=
  match c with
  | .lifeCycle new floor hash => s.applyLifeCycle new floor hash
  | _ => s

/-- The changes that are due at the present tide. -/
def State.dueNow (s : State) : List Change := (s.due.filter (fun d => decide (d.tide ≤ s.clock.grid))).map (fun d => d.change)

/-- What is due is applied in the order of R646. -/
theorem State.applyDue_ranks (s : State) (first : Bool) : ∃ z, KeepsTime s z ∧
    s.applyDue first = (z.each s.dueNow State.cycleChange).resetTide.powerTide := by
  have hlater : KeepsTime s { s with due := s.due.filter (fun d => !decide (d.tide ≤ s.clock.grid)) } :=
    ⟨rfl, List.filter_subset_self _⟩
  exact ⟨_, hlater.ranksDue (cs := s.dueNow) (first := first), rfl⟩

theorem State.cycleChange_clock (s : State) (c : Change) : (s.cycleChange c).clock = s.clock := by
  unfold State.cycleChange
  split
  · exact State.applyLifeCycle_clock ..
  · rfl

/-- What is due leaves the clock. -/
theorem State.applyDue_clock (s : State) (first : Bool) : (s.applyDue first).clock = s.clock := by
  obtain ⟨z, hz, heq⟩ := s.applyDue_ranks first
  have hcycle : (z.each s.dueNow State.cycleChange).clock = z.clock :=
    foldl_keeps State.cycleChange State.clock s.dueNow z fun y c _ => y.cycleChange_clock c
  rw [heq, (KeepsTime.powerTide (.resetTide (.refl _))).clock, hcycle, hz.clock]

/-- What is due leaves the time, where no change of the life cycle is due. -/
theorem State.applyDue_keeps (s : State) (first : Bool) (hno : ∀ d ∈ s.due, ∀ new floor hash, d.change ≠ .lifeCycle new floor hash) :
    KeepsTime s (s.applyDue first) := by
  obtain ⟨z, hz, heq⟩ := s.applyDue_ranks first
  have hcycle : z.each s.dueNow State.cycleChange = z := each_of_fixed fun c hc => by
    obtain ⟨d, hd, rfl⟩ := List.mem_map.mp hc
    unfold State.cycleChange
    split
    next new floor hash hchange => exact absurd hchange (hno d (List.mem_filter.mp hd).1 new floor hash)
    next => rfl
  rw [heq, hcycle]
  exact hz.resetTide.powerTide

end Sys2Proof.Machine
end

section
/-! The tide boundary and the commit stroke (R46, R54, R65, R74, R77, R80, R107, R118, R228). -/
namespace Sys2Proof.Machine
variable {s x : State} {k : Nat} {g : Tag} {parity : Bool}

/-! The commit stroke. -/

/-- A row tag at the commit stroke of a tide (R228). -/
def Tag.turn (parity : Bool) (g : Tag) : Tag :=
  if g.ptide == parity then g
  else match g.state with
    | .armed => { g with state := .live }
    | .retiring => Tag.reset
    | _ => g

theorem Tag.turn_same (h : g.ptide = parity) : g.turn parity = g := if_pos (beq_iff_eq.mpr h)

theorem Tag.turn_armed (h : g.ptide ≠ parity) (harmed : g.state = .armed) : g.turn parity = { g with state := .live } := by
  simp [Tag.turn, h, harmed]

theorem Tag.turn_live (h : g.ptide ≠ parity) (hlive : g.state = .live) : g.turn parity = g := by
  simp [Tag.turn, h, hlive]

/-- After its commit stroke a tag of the other parity is neither ARMED nor RETIRING. -/
theorem Tag.turn_settled (h : (g.turn parity).ptide ≠ parity) (hreset : g.turn parity ≠ Tag.reset) :
    (g.turn parity).state ≠ .armed ∧ (g.turn parity).state ≠ .retiring := by
  by_cases hp : g.ptide = parity
  · exact absurd ((Tag.turn_same hp).symm ▸ hp) h
  · cases hs : g.state with
    | armed =>
      rw [Tag.turn_armed hp hs]
      exact ⟨nofun, nofun⟩
    | retiring => exact absurd (by simp [Tag.turn, hp, hs]) hreset
    | empty => simp [Tag.turn, hp, hs]
    | live => simp [Tag.turn, hp, hs]

/-- The row tags after a commit stroke. -/
def State.turnedTags (s : State) : Table Tag :=
  (s.arrays.tags.map (fun p => (p.1, p.2.turn s.parity))).filter (fun p => p.2 != Tag.reset)

theorem State.mem_turnedTags : (k, g) ∈ s.turnedTags ↔ g ≠ Tag.reset ∧ ∃ g', (k, g') ∈ s.arrays.tags ∧ g'.turn s.parity = g := by
  simp only [State.turnedTags, List.mem_filter, List.mem_map, Prod.exists, Prod.mk.injEq, bne_iff_ne, ne_eq]
  constructor
  · rintro ⟨⟨k', g', hmem, rfl, rfl⟩, hne⟩
    exact ⟨hne, g', hmem, rfl⟩
  · rintro ⟨hne, g', hmem, rfl⟩
    exact ⟨⟨k, g', hmem, rfl, rfl⟩, hne⟩

/-- A commit stroke turns the row tags and prunes and names the charts (R54, R130, R251). -/
theorem State.commitStroke_eq (s : State) :
    s.commitStroke = { s with arrays := { s.arrays with tags := s.turnedTags }, tables := s.commitStroke.tables } := rfl

theorem State.commitStroke_keys (s : State) : s.commitStroke.tables.map (fun p => p.1) = s.tables.map (fun p => p.1) := by
  simp [State.commitStroke, State.nameMirrors, State.pruneCharts, State.turnTags]

/-- A commit stroke, by its command. -/
theorem commitStroke_turns (s : State) (hawake : s.awake = true) : Answers .commitStroke s (fun s' =>
    s'.arrays.tags = s.turnedTags ∧ s'.tables.map (fun p => p.1) = s.tables.map (fun p => p.1) ∧
    s'.clock.stroke = max s.clock.stroke 255 ∧
    s' = { s with
      clock := s'.clock, start := s'.start, arrays := { s.arrays with tags := s'.arrays.tags }, tables := s'.tables, pins := s'.pins,
      ring := s'.ring }) := by
  refine Answers.of_eq (x := (s.at 255).commitStroke) rfl (if_pos hawake) ⟨?_, ?_, ?_, ?_⟩
  · rw [State.settle_arrays]
    rfl
  · rw [State.settle_tables]
    exact (s.at 255).commitStroke_keys
  · rw [State.settle_clock]
    rfl
  · rw [State.commitStroke_eq]
    exact State.settle_only ..

/-! The boundary. -/

/-- What a boundary makes of the clock (R46, R74, R77, R80). -/
theorem State.boundary_clock (s : State) : s.boundary.clock = s.clock.nextTide := by
  have hx := s.nextTide_keeps.clock
  have hmode := s.tideEnd.gridMoves.modeRank_clock.1
  have hdue := s.tideEnd.gridMoves.modeRank.applyDue_clock (s.tideEnd.gridMoves.boot.stage == 4 && s.tideEnd.gridMoves.boot.applied)
  have hsettled : ∀ y : State, y.settle.opens.clock = y.clock := fun y => (KeepsTime.settle (.refl y)).clock
  exact (hsettled _).trans (hdue.trans (hmode.trans hx))

/-- Where no change of the life cycle is due, a boundary leaves the time as the rank of the mode has left it. -/
theorem State.boundary_keeps (s : State) (hno : ∀ d ∈ s.due, ∀ new floor hash, d.change ≠ .lifeCycle new floor hash) :
    KeepsTime s.tideEnd.gridMoves.modeRank s.boundary := by
  have hdue := s.tideEnd.gridMoves.modeRank.applyDue_keeps
    (s.tideEnd.gridMoves.boot.stage == 4 && s.tideEnd.gridMoves.boot.applied)
    fun d hd => hno d (s.nextTide_keeps.2 (s.tideEnd.gridMoves.modeRank_clock.2 hd))
  have hsettled : ∀ y : State, KeepsTime y y.settle.opens := fun y => (KeepsTime.settle (.refl y)).set
  exact hdue.trans (hsettled _)

/-- The mode and the stage of the boot that a boundary brings (R65, R107, R118). -/
theorem State.boundary_mode (s : State) (hno : ∀ d ∈ s.due, ∀ new floor hash, d.change ≠ .lifeCycle new floor hash) :
    (s.boot.stage = 4 → s.boot.applied = true → s.boundary.boot.stage = 5 ∧ s.boundary.boot.applied = false ∧
      s.boundary.mode.mode = s.boot.device.bootMode) ∧
    (s.boot.stage ≠ 4 →
      (∀ m g, s.mode.pending = some m → s.mode.turnTide = some g → g ≤ s.clock.grid →
        s.boundary.mode.mode = m ∧ s.boundary.mode.pending = none ∧ s.boundary.mode.before = s.mode.mode) ∧
      (s.mode.pending = none → s.boundary.mode.mode = s.mode.mode)) := by
  obtain ⟨hclock, hmode, hstage, happlied, hdevice⟩ := s.nextTide_keeps.fields
  have hrank := s.tideEnd.gridMoves.modeRank_keeps
  have hkeeps := s.boundary_keeps hno
  generalize s.tideEnd.gridMoves = z at *
  refine ⟨fun h4 happ => ?_, fun h4 => ⟨fun m g hpending hturn hpast => ?_, fun hnone => ?_⟩⟩
  · have hopens : (z.boot.stage == 4 && z.boot.applied) = true := by simp [hstage, happlied, h4, happ]
    rw [if_pos hopens] at hrank
    obtain ⟨-, hm, hs, ha, -⟩ := ((State.serveBegin_keeps hopens).trans (hrank.trans hkeeps)).fields
    exact ⟨hs, ha, by rw [hm, ← hdevice]; rfl⟩
  · have hnot : ¬ (z.boot.stage == 4 && z.boot.applied) = true := by simp [hstage, h4]
    rw [if_neg hnot] at hrank
    have hlate : g < z.clock.grid := by
      rw [hclock]
      exact Nat.lt_succ_of_le hpast
    have htakes := State.modeBoundary_takes (s := z) (hmode ▸ hpending) (hmode ▸ hturn) hlate
    obtain ⟨-, hm, -⟩ := (htakes.trans (hrank.trans hkeeps)).fields
    rw [hm]
    exact ⟨rfl, rfl, congrArg ModeState.mode hmode⟩
  · have hnot : ¬ (z.boot.stage == 4 && z.boot.applied) = true := by simp [hstage, h4]
    have hpending : z.mode.pending = none := (congrArg ModeState.pending hmode).trans hnone
    rw [if_neg hnot, State.modeBoundary_rests (by simp [hpending])] at hrank
    rw [(hrank.trans hkeeps).fields.2.1, hmode]

/-- Settles O12: a boundary opens the next tide (`State.boundary_clock`) and its mode is that of the rank of the mode
(`State.boundary_keeps`); the commit stroke is `commitStroke_turns`. -/
theorem tideBoundaryAndCommitStroke : Obligations.TideBoundaryAndCommitStroke := by
  unfold Obligations.TideBoundaryAndCommitStroke
  refine ⟨fun s hruns => ?boundary, fun s hawake => ?commit⟩
  case boundary =>
    have hclock : s.boundary.settle.clock = s.clock.nextTide := by rw [State.settle_clock, State.boundary_clock]
    refine Answers.of_eq (x := s.boundary) rfl (if_pos hruns) ⟨?_, ?_, ?_, ?_, ?_, ?_, fun hno => ?_⟩
    · rw [hclock]
      rfl
    · rw [hclock]
      rfl
    · rw [hclock, Clock.nextTide]
      cases s.clock.stepTo <;> rfl
    · rw [hclock]
      rfl
    · rw [hclock]
      rfl
    · rw [hclock]
      rfl
    · rw [State.settle_mode, State.settle_boot]
      exact s.boundary_mode hno
  case commit =>
    obtain ⟨s', hexec, htags, hkeys, hstroke, honly⟩ := commitStroke_turns s hawake
    refine ⟨s', hexec, fun k g hmem hne => ⟨fun hp => ?_, fun hp harmed => ?_, fun hp hlive => ?_⟩, fun k g hmem => ?_, hkeys, hstroke, honly⟩
    · rw [htags]
      exact State.mem_turnedTags.mpr ⟨hne, g, hmem, Tag.turn_same hp⟩
    · rw [htags]
      exact State.mem_turnedTags.mpr ⟨nofun, g, hmem, Tag.turn_armed hp harmed⟩
    · rw [htags]
      exact State.mem_turnedTags.mpr ⟨hne, g, hmem, Tag.turn_live hp hlive⟩
    · rw [htags] at hmem
      obtain ⟨hne, g', -, rfl⟩ := State.mem_turnedTags.mp hmem
      exact ⟨hne, fun hp => Tag.turn_settled hp hne⟩

end Sys2Proof.Machine
end

section
/-! A copy of the scroll that is abandoned, and discovery (R84, R85, R103, R107, R111): what the boot holds after each. -/
namespace Sys2Proof.Machine
variable {s x y : State} {code : Nat}

/-! The stages that a boot falls back to. -/

/-- Recovery holds no copy; the codes of the copies and what PD00 holds of the boot stay (R111, R115). -/
theorem State.enterRecovery_boot (s : State) : s.enterRecovery.boot = { s.boot with
    stage := 14, copy := 0, header := none, core := [], applied := false, fromOffGuard := false, device := DeviceRec.reset,
    scrollSeq := 0, glyphDone := false, seedDone := false, seedClosed := false } := by
  unfold State.enterRecovery
  dsimp only
  rw [State.endExit_boot]
  rfl

theorem State.enterRecovery_fuses (s : State) : s.enterRecovery.fuses = s.fuses := State.endExit_fuses s.emptied

/-- The cold boot that follows a failed exit from Off-Guard: Discovery, with the codes of the copies that are recorded (R107, R117). -/
def State.coldBoot (s : State) (errA errB : Nat) : State :=
  let d := State.beginDiscovery { s with boot := { s.boot with fromOffGuard := false } }
  { d with boot := { d.boot with errA := errA, errB := errB } }

/-! The ways in which a copy is abandoned (R107, R117). -/

/-- What a copy that is abandoned with a code leaves of the boot `b`: a cold boot on exit from Off-Guard, after copy A copy B, after
copy B Recovery, with the code recorded for the copy. -/
def Abandons (b : Boot) (code : Nat) (x : State) : Prop :=
  (b.fromOffGuard = true → x.boot.stage = 1 ∧ x.boot.fromOffGuard = false) ∧
  (b.fromOffGuard = false → b.copy = 0 → x.boot.stage = 3 ∧ x.boot.copy = 1 ∧ x.boot.header = none) ∧
  (b.fromOffGuard = false → b.copy ≠ 0 → x.boot.stage = 14) ∧
  (b.copy = 0 → x.boot.errA = code ∧ x.boot.errB = b.errB) ∧
  (b.copy ≠ 0 → x.boot.errA = b.errA ∧ x.boot.errB = code) ∧
  (b.copy = 0 → x.bit Fld.GLB_BOOT_STATUS_fallback = true)

/-- On exit from Off-Guard. -/
theorem State.abandonCopy_fromOffGuard (h : s.boot.fromOffGuard = true) : Abandons s.boot code (s.abandonCopy code) := by
  by_cases hA : s.boot.copy = 0
  · have e : s.abandonCopy code = (s.coldBoot code s.boot.errB).raise Fld.GLB_BOOT_STATUS_fallback := by
      unfold State.abandonCopy
      simp only [h, hA, if_true]
      rfl
    rw [e]
    exact ⟨fun _ => ⟨rfl, rfl⟩, fun hn => absurd h (by simp [hn]), fun hn => absurd h (by simp [hn]), fun _ => ⟨rfl, rfl⟩,
      fun hB => absurd hA hB, fun _ => State.bit_raise_same _ _ 0 rfl (by decide) (Reg.resetNat_lt _)⟩
  · have e : s.abandonCopy code = s.coldBoot s.boot.errA code := by
      unfold State.abandonCopy
      simp only [h, hA, if_true, if_false]
      rfl
    rw [e]
    exact ⟨fun _ => ⟨rfl, rfl⟩, fun hn => absurd h (by simp [hn]), fun hn => absurd h (by simp [hn]), fun h0 => absurd h0 hA,
      fun _ => ⟨rfl, rfl⟩, fun h0 => absurd h0 hA⟩

/-- After copy A. -/
theorem State.abandonCopy_copyA (h : s.boot.fromOffGuard = false) (hA : s.boot.copy = 0) :
    Abandons s.boot code (s.abandonCopy code) := by
  have e : s.abandonCopy code = { s.emptied.raise Fld.GLB_BOOT_STATUS_fallback with
      boot := { s.boot with errA := code, stage := 3, copy := 1, header := none, core := [], applied := false } } := by
    simp [State.abandonCopy, h, hA]
  rw [e]
  exact ⟨fun hy => absurd h (by simp [hy]), fun _ _ => ⟨rfl, rfl, rfl⟩, fun _ hB => absurd hA hB, fun _ => ⟨rfl, rfl⟩,
    fun hB => absurd hA hB, fun _ => State.bit_raise_same s.emptied _ _ rfl (by decide) (Reg.resetNat_lt _)⟩

/-- After copy B. -/
theorem State.abandonCopy_copyB (h : s.boot.fromOffGuard = false) (hB : s.boot.copy ≠ 0) :
    Abandons s.boot code (s.abandonCopy code) := by
  have e : s.abandonCopy code = ({ s with boot := { s.boot with errB := code } } : State).enterRecovery := by
    simp [State.abandonCopy, h, hB]
  have hboot := State.enterRecovery_boot { s with boot := { s.boot with errB := code } }
  rw [e]
  refine ⟨fun hy => absurd h (by simp [hy]), fun _ hA => absurd hA hB, fun _ _ => ?_, fun hA => absurd hA hB, fun _ => ?_,
    fun hA => absurd hA hB⟩ <;> rw [hboot]
  exact ⟨rfl, rfl⟩

theorem State.abandonCopy_abandons (s : State) (code : Nat) : Abandons s.boot code (s.abandonCopy code) := by
  cases h : s.boot.fromOffGuard with
  | true => exact State.abandonCopy_fromOffGuard h
  | false =>
    by_cases hA : s.boot.copy = 0
    · exact State.abandonCopy_copyA h hA
    · exact State.abandonCopy_copyB h hA

theorem Abandons.settle {b : Boot} (h : Abandons b code x) : Abandons b code x.settle := by
  unfold Abandons
  rw [State.settle_boot, State.bit_settle]
  exact h

/-- A command that abandons the copy with a code. -/
theorem answers_abandons {c : Instr} (h : exec c s = .next (y.abandonCopy code).settle) (hy : y.boot = s.boot) :
    Answers c s (Abandons s.boot code) := ⟨_, h, hy ▸ (y.abandonCopy_abandons code).settle⟩

/-! Discovery. -/

/-- Operations on the flash device leave it one after the other. -/
theorem State.each_emit_flash (s : State) (ops : List FlashOp) :
    s.each ops (fun t op => t.emit (.flash op)) = { s with out := s.out ++ ops.map Emit.flash } := by
  induction ops generalizing s with
  | nil => simp [State.each]
  | cons op ops ih =>
    refine (ih (s.emit (.flash op))).trans ?_
    simp [State.emit]

theorem exec_discovery (d : SfdpRead) (h : s.boot.stage = 1) : exec (.discovery d) s = .next (
    if s.discovers d then
      { s with
        out := s.out ++ (s.discoverySteps d).map Emit.flash
        boot := { s.boot with
          stage := 2 + (if s.boot.fromOffGuard then s.boot.recordedCopy else 0)
          copy := if s.boot.fromOffGuard then s.boot.recordedCopy else 0, header := none, core := []
          enableCommands := if s.boot.fromOffGuard then s.boot.enableCommands else d.enableCommands } }
    else { s with
      out := s.out ++ (s.discoverySteps d).map Emit.flash, boot := { s.boot with errA := 1, errB := 1 } }.enterRecovery).settle := by
  change execDiscovery d s = _
  simp [execDiscovery, h, State.each_emit_flash]

/-- Discovery of a cold boot (R84). -/
theorem discovery_cold {d : SfdpRead} (h : s.boot.stage = 1) (hcold : s.boot.fromOffGuard = false) (hread : d.read = true)
    (hlists : d.lists8D = true) (henabled : d.enabled = true) (hagain : d.readAgain = true) :
    Leaves (.discovery d) s { s with
      out := s.out ++ [.flash .resetPulse, .flash .readSfdp, .flash (.enable d.enableCommands), .flash .readSfdpHeader]
      boot := { s.boot with stage := 2, copy := 0, header := none, core := [], enableCommands := d.enableCommands } } := by
  have hfound : s.discovers d = true := by simp [State.discovers, hread, hlists, henabled, hagain]
  refine Leaves.of_eq (exec_discovery d h) ((if_pos hfound).trans ?_)
  simp [State.discoverySteps, hcold, hread, hlists, henabled]

/-- On exit from Off-Guard steps 3 and 4 alone are repeated, with the commands that PD00 retains (R85). -/
theorem discovery_fromOffGuard {d : SfdpRead} (h : s.boot.stage = 1) (hexit : s.boot.fromOffGuard = true)
    (henabled : d.enabled = true) (hagain : d.readAgain = true) :
    Leaves (.discovery d) s { s with
      out := s.out ++ [.flash (.enable s.boot.enableCommands), .flash .readSfdpHeader]
      boot := { s.boot with stage := 2 + s.boot.recordedCopy, copy := s.boot.recordedCopy, header := none, core := [] } } := by
  have hfound : s.discovers d = true := by simp [State.discovers, hexit, henabled, hagain]
  refine Leaves.of_eq (exec_discovery d h) ((if_pos hfound).trans ?_)
  simp [State.discoverySteps, hexit, henabled]

/-- Discovery that fails ends in Recovery with code 1 for both copies (R107). -/
theorem discovery_fails {d : SfdpRead} (h : s.boot.stage = 1) (hfound : s.discovers d = false) :
    Answers (.discovery d) s (fun s' => s'.boot.stage = 14 ∧ s'.boot.errA = 1 ∧ s'.boot.errB = 1 ∧ s'.fuses = s.fuses) := by
  refine Answers.of_eq (exec_discovery d h) (if_neg (by simp [hfound])) ?_
  rw [State.settle_boot, State.settle_fuses, State.enterRecovery_boot, State.enterRecovery_fuses]
  exact ⟨rfl, rfl, rfl, rfl⟩

end Sys2Proof.Machine
end

section
/-! Apply (R107, R448, R473, R514, R559 to R568, R608, R609): what its parts leave of the boot and of the LINKS and PCIE records. -/
namespace Sys2Proof.Machine
variable {s x y : State}

/-! What the parts of Apply leave as it was. -/

/-- What Apply is to bring into force beside the tables, berths and masters: the boot, the LINKS record and the PCIE record. -/
def bootOf (s : State) : Boot × LinksRec × PcieRec := (s.boot, s.links.record, s.host.pcie)

/-- The boot, the LINKS record and the PCIE record stand as they did. -/
def KeepsBoot (s x : State) : Prop := bootOf x = bootOf s

theorem KeepsBoot.refl (s : State) : KeepsBoot s s := rfl

theorem KeepsBoot.trans (h : KeepsBoot s x) (k : KeepsBoot x y) : KeepsBoot s y := Eq.trans k h

theorem KeepsBoot.each {α : Type} {f : State → α → State} (hf : ∀ x a, KeepsBoot x (f x a)) (s : State) (l : List α) :
    KeepsBoot s (s.each l f) := State.each_of_step KeepsBoot.refl KeepsBoot.trans hf s l

theorem KeepsBoot.ite {c : Prop} [Decidable c] (h : KeepsBoot s x) (k : KeepsBoot s y) : KeepsBoot s (if c then x else y) := by
  split <;> assumption

theorem DramOnly.keepsBoot (h : DramOnly s x) : KeepsBoot s x := (congrArg bootOf h.eq :)

theorem KeepsBoot.boot (h : KeepsBoot s x) : x.boot = s.boot := congrArg Prod.fst h

theorem bootOf_eq_iff {b : Boot} {l : LinksRec} {p : PcieRec} :
    bootOf s = (b, l, p) ↔ s.boot = b ∧ s.links.record = l ∧ s.host.pcie = p := by simp [bootOf]

/-! The self-test of a boot after power-on (R608), and the DRAM (R559 to R568). -/

theorem keepsBoot_placeBank (s : State) (l : Nat) : KeepsBoot s (s.placeBank l) := .ite rfl (.ite rfl rfl)

/-- The logical banks with the slots that the self-test of a boot after power-on gives them (R608). -/
def State.slotsPlaced (s : State) (r : ApplyResult) : State :=
  if s.boot.powerOn then (s.slotsTested r.failed).each (List.range 512) State.placeBank else s

theorem keepsBoot_slotsPlaced (s : State) (r : ApplyResult) : KeepsBoot s (s.slotsPlaced r) :=
  .ite (.trans (x := s.slotsTested r.failed) rfl (.each keepsBoot_placeBank _ _)) rfl

theorem keepsBoot_bootFence (s : State) (dead : List Nat) (pc : Nat) : KeepsBoot s (s.bootFence dead pc) := by
  unfold State.bootFence
  extract_lets p s1 spares spare s2
  have h2 : KeepsBoot s s2 := by
    clear_value spare
    cases spare <;> rfl
  have hraised : KeepsBoot s2 (s2.raise Fld.MEM_STATUS_fenced) := rfl
  exact .ite rfl ((h2.trans hraised).trans (dramOnly_postFault ..).keepsBoot)

theorem keepsBoot_bootDram (s : State) (sets : Bytes) (r : ApplyResult) : KeepsBoot s (s.bootDram sets r) := by
  unfold State.bootDram
  extract_lets valid old d s1 s2
  have h1 : KeepsBoot s s1 := rfl
  have h2 : KeepsBoot s1 s2 := by
    refine .each (fun x p => ?_) s1 r.sets
    exact .ite rfl rfl
  exact h1.trans (h2.trans (.each (fun x p => keepsBoot_bootFence x r.dead p) _ _))

/-! The links (R473), the records of tables, berths and masters, and what is reported and retained. -/

theorem keepsBoot_setLink (s : State) (p : Port) (l : Link) : KeepsBoot s (s.setLink p l) := by
  cases p with
  | quay q => exact .ite rfl rfl
  | east => rfl
  | west => rfl

theorem keepsBoot_bringUp (s : State) (p : Port) : KeepsBoot s (s.bringUp p) := by
  unfold State.bringUp
  extract_lets l
  split
  · cases p with
    | quay q => exact (keepsBoot_setLink ..).trans (dramOnly_postFault ..).keepsBoot
    | east => exact keepsBoot_setLink ..
    | west => exact keepsBoot_setLink ..
  · exact keepsBoot_setLink ..

theorem keepsBoot_bootRecord (s : State) (r : Bytes) : KeepsBoot s (s.bootRecord r) := .ite rfl (.ite rfl rfl)

theorem keepsBoot_reportUnavailable (s : State) : KeepsBoot s s.reportUnavailable :=
  .each (fun _ _ => (dramOnly_postFault ..).keepsBoot) s _

/-- The links of Apply put their LINKS record in force. -/
theorem State.bootOf_bootLinks (s : State) (l : LinksRec) : bootOf (s.bootLinks l) = (s.boot, l, s.host.pcie) := by
  unfold State.bootLinks
  extract_lets quays least east west s1
  exact KeepsBoot.each (fun x q => keepsBoot_bringUp x (.quay q)) s1 _

/-- The firmware runs once CORE is copied. -/
theorem State.bootOf_stageCore (s : State) :
    bootOf s.stageCore = ({ s.boot with firmwareRuns := true }, s.links.record, s.host.pcie) :=
  KeepsBoot.trans (dramOnly_dramWrite ..).keepsBoot (dramOnly_dramWrite ..).keepsBoot

/-! Apply. -/

/-- The DEVICE and PCIE records of CORE are in force, `tail` its records behind the firmware. -/
def State.coreInForce (s : State) (dev : Bytes) (tail : List Bytes) : State :=
  { s with
    boot := { s.boot with device := DeviceRec.parse dev, powerOn := false, applied := true }
    host := { s.host with pcie := PcieRec.parse (tail.getD 1 []) } }

/-- The links, the records of tables, berths and masters, and what is reported and retained, once `s` has its DEVICE and PCIE records. -/
def State.applyTail (s : State) (tail : List Bytes) : State :=
  ((s.bootLinks (LinksRec.parse (tail.getD 0 []))).each (tail.drop 2) State.bootRecord).reportUnavailable.stageCore

theorem State.applyCore_eq {dev sets : Bytes} {rest : List Bytes} (r : ApplyResult) (h : s.boot.core = dev :: sets :: rest) :
    s.applyCore r =
      if ((s.slotsPlaced r).bootDram sets r).bootDead r.dead then ((s.slotsPlaced r).bootDram sets r).abandonCopy 0x0E
      else (((s.slotsPlaced r).bootDram sets r).coreInForce dev ((afterFirmware rest).getD [])).applyTail ((afterFirmware rest).getD []) := by
  unfold State.applyCore
  rw [h]
  rfl

theorem State.bootOf_applyTail (s : State) (tail : List Bytes) : bootOf (s.applyTail tail) =
    ({ s.boot with firmwareRuns := true }, LinksRec.parse (tail.getD 0 []), s.host.pcie) := by
  have hrecords := (KeepsBoot.each keepsBoot_bootRecord (s.bootLinks (LinksRec.parse (tail.getD 0 []))) (tail.drop 2)).trans
    (keepsBoot_reportUnavailable _)
  obtain ⟨hboot, hrecord, hpcie⟩ := bootOf_eq_iff.mp (Eq.trans hrecords (s.bootOf_bootLinks _))
  rw [State.applyTail, State.bootOf_stageCore, hboot, hrecord, hpcie]

/-- The DEVICE, LINKS and PCIE records in force, and the firmware started (R107). -/
theorem State.applyCore_applies {dev sets : Bytes} {rest : List Bytes} {r : ApplyResult} (h : s.boot.core = dev :: sets :: rest)
    (hlive : ((s.slotsPlaced r).bootDram sets r).bootDead r.dead = false) :
    bootOf (s.applyCore r) =
      ({ s.boot with device := DeviceRec.parse dev, powerOn := false, applied := true, firmwareRuns := true },
        LinksRec.parse (((afterFirmware rest).getD []).getD 0 []), PcieRec.parse (((afterFirmware rest).getD []).getD 1 [])) := by
  have hboot := ((keepsBoot_slotsPlaced s r).trans (keepsBoot_bootDram (s.slotsPlaced r) sets r)).boot
  rw [State.applyCore_eq r h, if_neg (by simp [hlive]), State.bootOf_applyTail, State.coreInForce, hboot]

/-- A pseudo-channel that no spare replaces fails the Apply (R568). -/
theorem State.applyCore_fails {dev sets : Bytes} {rest : List Bytes} {r : ApplyResult} (h : s.boot.core = dev :: sets :: rest)
    (hdead : ((s.slotsPlaced r).bootDram sets r).bootDead r.dead = true) :
    s.applyCore r = ((s.slotsPlaced r).bootDram sets r).abandonCopy 0x0E := by
  rw [State.applyCore_eq r h, if_pos hdead]

theorem exec_coreApplyComplete (r : ApplyResult) (h4 : s.boot.stage = 4) (happ : s.boot.applied = false) :
    exec (.coreApplyComplete r) s = .next (s.applyCore r).settle := by
  change execCoreApplyComplete r s = _
  simp [execCoreApplyComplete, h4, happ]

theorem coreApplyComplete_applies {dev sets : Bytes} {rest : List Bytes} (r : ApplyResult) (h4 : s.boot.stage = 4)
    (happ : s.boot.applied = false) (h : s.boot.core = dev :: sets :: rest)
    (hlive : ((s.slotsPlaced r).bootDram sets r).bootDead r.dead = false) : Answers (.coreApplyComplete r) s (fun s' =>
      s'.boot = { s.boot with device := DeviceRec.parse dev, powerOn := false, applied := true, firmwareRuns := true } ∧
      s'.links.record = LinksRec.parse (((afterFirmware rest).getD []).getD 0 []) ∧
      s'.host.pcie = PcieRec.parse (((afterFirmware rest).getD []).getD 1 [])) := by
  refine Answers.of_eq (exec_coreApplyComplete r h4 happ) rfl ?_
  rw [State.settle_boot, State.settle_links, State.settle_host]
  exact bootOf_eq_iff.mp (State.applyCore_applies h hlive)

theorem coreApplyComplete_fails {dev sets : Bytes} {rest : List Bytes} (r : ApplyResult) (h4 : s.boot.stage = 4)
    (happ : s.boot.applied = false) (h : s.boot.core = dev :: sets :: rest)
    (hdead : ((s.slotsPlaced r).bootDram sets r).bootDead r.dead = true) :
    Answers (.coreApplyComplete r) s (Abandons s.boot 0x0E) :=
  answers_abandons ((exec_coreApplyComplete r h4 happ).trans (by rw [State.applyCore_fails h hdead]))
    ((keepsBoot_slotsPlaced s r).trans (keepsBoot_bootDram _ sets r)).boot

end Sys2Proof.Machine
end

section
/-! The GLYPH and SEED sections (R91, R98, R99, R109): a record that fails its check rejects its section, one that passes is taken. -/
namespace Sys2Proof.Machine
variable {s : State} {stored contents : Bytes}

/-- A section that is rejected shows in GLB_BOOT_STATUS, beside the record of it in the fault log (R109). -/
theorem State.bit_rejected (s : State) {f : Fld} (typ index done : Nat) (hreg : f.reg = .GLB_BOOT_STATUS) (hw : f.width = 1)
    (hf : f.lo + f.width ≤ 64) : ((s.raise f).rejectSection typ index done).bit f = true := by
  have hclass : (classCount 3).reg = .FLT_COUNT0 := rfl
  have hkept : ((s.raise f).rejectSection typ index done).bit f = (s.raise f).bit f :=
    congrArg (· != 0) (State.fld_postFault _ f 3 0 _ (by rw [hreg]; decide) (by rw [hreg]; decide) (by rw [hreg, hclass]; decide))
  rw [hkept]
  exact State.bit_raise_same s f 0 hw hf (Reg.resetNat_lt _)

/-- The registers stand while the boot and the scribes change. -/
theorem State.bit_withSections (s : State) (b : Boot) (k : Scribes) (f : Fld) :
    { s with boot := b, scribes := k }.bit f = s.bit f := rfl

/-- The time of a record does not bear on what it opens to. -/
theorem State.openRecord_at (s : State) (t typ index : Nat) (stored : Bytes) :
    (s.at t).openRecord typ index stored = s.openRecord typ index stored := by
  simp only [State.openRecord, State.scrollKey, State.at_security, State.at_boot]

theorem State.sectionEnd_at (s : State) (t typ records : Nat) (stored : Bytes) :
    (s.at t).sectionEnd typ records stored = s.sectionEnd typ records stored := by
  simp only [State.sectionEnd, State.at_boot]

/-! GLYPH. -/

theorem exec_glyphRecordVerified (t : Nat) {g : GlyphRecord} (hserves : s.serving = true) (hopen : s.boot.glyphDone = false)
    (hset : g.set < 64) : exec (.glyphRecordVerified t g) s = .next ((s.at t).takeGlyph g).settle := by
  have hcond : ((s.at t).serving && !(s.at t).boot.glyphDone && decide (g.set < 64)) = true := by
    simp [show (s.at t).serving = true from hserves, hopen, hset]
  exact congrArg (fun x : State => Host.Outcome.next x.settle) (if_pos hcond)

theorem State.takeGlyph_rejects {g : GlyphRecord} (hbad : s.openRecord 2 s.boot.glyphRecord g.stored = none) :
    s.takeGlyph g = s.rejectGlyph := by
  simp only [State.takeGlyph, hbad]

theorem State.rejectGlyph_boot (s : State) : s.rejectGlyph.boot = { s.boot with glyphDone := true, sectionBytes := [] } := rfl

theorem State.rejectGlyph_bit (s : State) : s.rejectGlyph.bit Fld.GLB_BOOT_STATUS_glyph_err = true := by
  unfold State.rejectGlyph
  exact (State.bit_withSections ..).trans (s.bit_rejected 2 _ _ rfl rfl (by decide))

/-- A record that does not open rejects the section: the slots that it was loading are empty (R109). -/
theorem glyphRecordVerified_rejects (t : Nat) {g : GlyphRecord} (hserves : s.serving = true) (hopen : s.boot.glyphDone = false)
    (hset : g.set < 64) (hbad : s.openRecord 2 s.boot.glyphRecord g.stored = none) :
    Answers (.glyphRecordVerified t g) s (fun s' =>
      s'.boot = { s.boot with glyphDone := true, sectionBytes := [] } ∧ s'.bit Fld.GLB_BOOT_STATUS_glyph_err = true ∧
      s'.scribes.glyphs = s.scribes.glyphs.filter (fun (p : Nat × Glyph) => !p.2.booting) ∧ s'.dram = s.dram) := by
  refine Answers.of_eq (exec_glyphRecordVerified t hserves hopen hset) (State.takeGlyph_rejects ((s.openRecord_at ..).trans hbad)) ⟨?_, ?_, ?_, ?_⟩
  · rw [State.settle_boot, State.rejectGlyph_boot, State.at_boot]
  · rw [State.bit_settle, State.rejectGlyph_bit]
  · simp [State.rejectGlyph, State.rejectSection]
  · simp [State.rejectGlyph, State.rejectSection]

/-- A record that opens while its slot is free begins the copy of its set, whose image it is not the last of (R98). -/
theorem State.takeGlyph_begins {g : GlyphRecord} (hrecord : s.openRecord 2 s.boot.glyphRecord g.stored = some contents)
    (hmore : s.sectionEnd 2 (s.boot.glyphRecord + 1) g.stored = 0) (hidle : (s.glyph g.set).booting = false)
    (hfree : s.setBusy g.set = false) (hlast : g.lastOfSet = false) (hlen : contents.length ≤ 65536) :
    s.takeGlyph g = { (s.dramWrite (glyphAddr g.set) contents).setGlyph g.set
        { Glyph.reset with state := .loading, copying := true, imageLen := contents.length } with
      boot := { s.boot with
        glyphRecord := s.boot.glyphRecord + 1, glyphDone := false, sectionBytes := s.boot.sectionBytes ++ g.stored } } := by
  have hfits : contents.take 0x8000000 = contents := List.take_of_length_le (by omega)
  unfold State.takeGlyph
  simp only [hrecord, hmore, hidle, hfree, hlast, State.takeImage, Glyph.reset]
  simp [hfits, b2n]

theorem glyphRecordVerified_begins (t : Nat) {g : GlyphRecord} (hserves : s.serving = true) (hopen : s.boot.glyphDone = false)
    (hset : g.set < 64) (hrecord : s.openRecord 2 s.boot.glyphRecord g.stored = some contents)
    (hmore : s.sectionEnd 2 (s.boot.glyphRecord + 1) g.stored = 0) (hidle : (s.glyph g.set).booting = false)
    (hfree : s.setBusy g.set = false) (hlast : g.lastOfSet = false) (hlen : contents.length ≤ 65536) :
    Answers (.glyphRecordVerified t g) s (fun s' =>
      s'.boot = { s.boot with glyphRecord := s.boot.glyphRecord + 1, sectionBytes := s.boot.sectionBytes ++ g.stored } ∧
      s'.dram = ((s.at t).spoil (glyphAddr g.set) contents.length).dram.write (glyphAddr g.set) contents ∧
      s'.glyph g.set = { Glyph.reset with state := .loading, copying := true, imageLen := contents.length }) := by
  refine Answers.of_eq (exec_glyphRecordVerified t hserves hopen hset)
    (State.takeGlyph_begins ((s.openRecord_at ..).trans hrecord) ((s.sectionEnd_at ..).trans hmore) hidle hfree hlast hlen) ⟨?_, ?_, ?_⟩
  · rw [State.settle_boot, ← hopen]
    rfl
  · rw [State.settle_dram]
    exact State.dramWrite_dram (s.at t) ..
  · rw [State.glyph, State.settle_scribes]
    exact Table.findD_put_same ..

/-! SEED. -/

theorem exec_seedRecordVerified (t : Nat) (stored : Bytes) (ended : List Nat) (hserves : s.serving = true)
    (hglyph : s.boot.glyphDone = true) (hseed : s.boot.seedDone = false) (hclosed : s.boot.seedClosed = false) :
    exec (.seedRecordVerified t stored ended) s = .next ((s.at t).takeSeed stored ended).settle := by
  have hcond : ((s.at t).serving && (s.at t).boot.glyphDone && !(s.at t).boot.seedDone && !(s.at t).boot.seedClosed) = true := by
    simp [show (s.at t).serving = true from hserves, hglyph, hseed, hclosed]
  exact congrArg (fun x : State => Host.Outcome.next x.settle) (if_pos hcond)

/-- The SEED section is rejected: it holds no further command (R109). -/
def State.rejectSeed (s : State) : State :=
  { (s.raise Fld.GLB_BOOT_STATUS_seed_err).rejectSection 3 s.boot.seedRecord s.boot.seedInserted with
    boot := { s.boot with seedClosed := true, sectionBytes := [] } }

theorem State.rejectSeed_boot (s : State) : s.rejectSeed.boot = { s.boot with seedClosed := true, sectionBytes := [] } := rfl

theorem State.rejectSeed_bit (s : State) : s.rejectSeed.bit Fld.GLB_BOOT_STATUS_seed_err = true := by
  unfold State.rejectSeed
  exact (State.bit_withSections ..).trans (s.bit_rejected 3 _ _ rfl rfl (by decide))

theorem State.takeSeed_rejects (ended : List Nat) (hbad : s.openRecord 3 s.boot.seedRecord stored = none) :
    s.takeSeed stored ended = s.rejectSeed := by
  simp only [State.takeSeed, hbad, State.rejectSeed]

/-- A record that does not open rejects the section. -/
theorem seedRecordVerified_rejects (t : Nat) (ended : List Nat) (hserves : s.serving = true) (hglyph : s.boot.glyphDone = true)
    (hseed : s.boot.seedDone = false) (hclosed : s.boot.seedClosed = false)
    (hbad : s.openRecord 3 s.boot.seedRecord stored = none) : Answers (.seedRecordVerified t stored ended) s (fun s' =>
      s'.boot = { s.boot with seedClosed := true, sectionBytes := [] } ∧ s'.bit Fld.GLB_BOOT_STATUS_seed_err = true ∧
      s'.cmds = s.cmds) := by
  refine Answers.of_eq (exec_seedRecordVerified t stored ended hserves hglyph hseed hclosed)
    (State.takeSeed_rejects ended ((s.openRecord_at ..).trans hbad)) ⟨?_, ?_, ?_⟩
  · rw [State.settle_boot, State.rejectSeed_boot, State.at_boot]
  · rw [State.bit_settle, State.rejectSeed_bit]
  · simp [State.rejectSeed, State.rejectSection]

/-- Insertion commands enter the SEED FIFO in their order, and nothing but the command engine changes (R60, R99). -/
theorem State.each_enterCommand_seed (s : State) (records : List Bytes) :
    let x := s.each records (fun x c => x.enterCommand .seed 0 0 c false false)
    (x.fifo .seed).map (·.record) = (s.fifo .seed).map (·.record) ++ records ∧ x = { s with cmds := x.cmds } := by
  induction records generalizing s with
  | nil => exact ⟨(List.append_nil _).symm, rfl⟩
  | cons c records ih =>
    obtain ⟨hfifo, honly⟩ := ih (s.enterCommand .seed 0 0 c false false)
    have hone : ((s.enterCommand .seed 0 0 c false false).fifo .seed).map (·.record) = (s.fifo .seed).map (·.record) ++ [c] :=
      (State.fifo_setFifo_records ..).trans (List.map_append ..)
    rw [hone, List.append_assoc] at hfifo
    exact ⟨hfifo, honly⟩

theorem State.takeSeed_takes (ended : List Nat) (hrecord : s.openRecord 3 s.boot.seedRecord stored = some contents)
    (hmore : s.sectionEnd 3 (s.boot.seedRecord + 1) stored = 0) : s.takeSeed stored ended =
      { s.each (seedCommands contents.length contents) (fun x c => x.enterCommand .seed 0 0 c false false) with
        boot := { s.boot with
          seedRecord := s.boot.seedRecord + 1, seedClosed := false, seedEnded := s.boot.seedEnded ++ ended
          sectionBytes := s.boot.sectionBytes ++ stored } } := by
  unfold State.takeSeed
  simp [hrecord, hmore]

/-- A record that opens gives its commands to the SEED FIFO (R99). -/
theorem seedRecordVerified_takes (t : Nat) (ended : List Nat) (hserves : s.serving = true) (hglyph : s.boot.glyphDone = true)
    (hseed : s.boot.seedDone = false) (hclosed : s.boot.seedClosed = false)
    (hrecord : s.openRecord 3 s.boot.seedRecord stored = some contents)
    (hmore : s.sectionEnd 3 (s.boot.seedRecord + 1) stored = 0) : Answers (.seedRecordVerified t stored ended) s (fun s' =>
      s'.boot = { s.boot with
        seedRecord := s.boot.seedRecord + 1, seedEnded := s.boot.seedEnded ++ ended
        sectionBytes := s.boot.sectionBytes ++ stored } ∧
      (s'.fifo .seed).map (·.record) = (s.fifo .seed).map (·.record) ++ seedCommands contents.length contents ∧
      s'.tables = s.tables) := by
  obtain ⟨hfifo, honly⟩ := (s.at t).each_enterCommand_seed (seedCommands contents.length contents)
  refine Answers.of_eq (exec_seedRecordVerified t stored ended hserves hglyph hseed hclosed)
    (State.takeSeed_takes ended ((s.openRecord_at ..).trans hrecord) ((s.sectionEnd_at ..).trans hmore)) ⟨?_, ?_, ?_⟩
  · rw [State.settle_boot, ← hclosed]
    rfl
  · rw [State.fifo, State.settle_cmds]
    exact hfifo
  · rw [State.settle_tables]
    exact (congrArg State.tables honly :)

end Sys2Proof.Machine
end

section
/-! The reads of a boot (R103, R104, R107): a check that passes is held, one that fails abandons its copy. -/
namespace Sys2Proof.Machine
variable {s : State} {h : HeaderRead} {stored : Bytes}

/-! The header and the keys. -/

theorem exec_copyHeaderKeysReadEnd (h : HeaderRead) (hreads : s.reading = true) (hnone : s.boot.header = none) :
    exec (.copyHeaderKeysReadEnd h) s = .next (
      if s.headerCheck h = 0 then
        { s with boot := { s.boot with header := some h }, security := { s.security with keys := keysOf s.security.kek h } }
      else s.abandonCopy (s.headerCheck h)).settle := by
  change execCopyHeaderKeysReadEnd h s = _
  simp [execCopyHeaderKeysReadEnd, hreads, hnone]

/-! CORE. -/

/-- What checks 9 to 11 say of the stored bytes of CORE: 0 where all pass, else the code of the first that fails (R103). -/
def State.coreCheck (s : State) (h : HeaderRead) (stored : Bytes) : Nat :=
  if sha384 stored ≠ digestOf h 1 then 0x0B
  else if s.coreVerifies h stored = false then 0x0C
  else if s.coreOk ((s.coreRecords h stored).filterMap id) = false then 0x0D
  else 0

/-- CORE in the scratchpad, to be applied next (R104, R107). -/
def State.takeCore (s : State) (h : HeaderRead) (stored : Bytes) : State :=
  let records := (s.coreRecords h stored).filterMap id
  { s with
    boot := { s.boot with stage := 4, core := records, scrollSeq := scrollSeqOf h }
    scratch := s.scratch.write scratchCore records.flatten }

theorem exec_copyCoreReadEnd (stored : Bytes) (hreads : s.reading = true) (hheader : s.boot.header = some h) :
    exec (.copyCoreReadEnd stored) s = .next (
      if s.coreCheck h stored = 0 then s.takeCore h stored else s.abandonCopy (s.coreCheck h stored)).settle := by
  change execCopyCoreReadEnd stored s = _
  unfold execCopyCoreReadEnd State.coreCheck
  by_cases hwhole : sha384 stored = digestOf h 1
  · cases hverifies : s.coreVerifies h stored with
    | false => simp [hheader, hreads, hwhole, hverifies]
    | true =>
      cases hok : s.coreOk ((s.coreRecords h stored).filterMap id) with
      | false => simp [-id_eq, hheader, hreads, hwhole, hverifies, hok]
      | true => simp [-id_eq, hheader, hreads, hwhole, hverifies, hok, State.takeCore]
  · simp [hheader, hreads, hwhole]

theorem copyCoreReadEnd_accepts (hreads : s.reading = true) (hheader : s.boot.header = some h) (hcheck : s.coreCheck h stored = 0) :
    Leaves (.copyCoreReadEnd stored) s (s.takeCore h stored) :=
  Leaves.of_eq (exec_copyCoreReadEnd stored hreads hheader) (if_pos hcheck)

theorem copyCoreReadEnd_abandons {code : Nat} (hreads : s.reading = true) (hheader : s.boot.header = some h)
    (hcheck : s.coreCheck h stored = code) (hcode : code ≠ 0) : Answers (.copyCoreReadEnd stored) s (Abandons s.boot code) :=
  answers_abandons ((exec_copyCoreReadEnd stored hreads hheader).trans (by rw [hcheck, if_neg hcode])) rfl

/-! The clauses of the statement. -/

/-- What a copy that is being read comes to (R103, R104). -/
theorem copyRead_ends (s : State) (hreads : s.reading = true) :
    Answers .copyReadTimeout s (Abandons s.boot 0x02) ∧
    (s.boot.header = none → ∀ h : HeaderRead,
      (s.headerCheck h = 0 → Leaves (.copyHeaderKeysReadEnd h) s
        { s with boot := { s.boot with header := some h }, security := { s.security with keys := keysOf s.security.kek h } }) ∧
      (s.headerCheck h ≠ 0 → Answers (.copyHeaderKeysReadEnd h) s (Abandons s.boot (s.headerCheck h)))) ∧
    (∀ (h : HeaderRead) (stored : Bytes), s.boot.header = some h →
      let records := (s.coreRecords h stored).filterMap id
      let whole := sha384 stored = digestOf h 1
      (whole → s.coreVerifies h stored = true → s.coreOk records = true → Leaves (.copyCoreReadEnd stored) s (s.takeCore h stored)) ∧
      (¬ whole → Answers (.copyCoreReadEnd stored) s (Abandons s.boot 0x0B)) ∧
      (whole → s.coreVerifies h stored = false → Answers (.copyCoreReadEnd stored) s (Abandons s.boot 0x0C)) ∧
      (whole → s.coreVerifies h stored = true → s.coreOk records = false →
        Answers (.copyCoreReadEnd stored) s (Abandons s.boot 0x0D))) := by
  refine ⟨?timeout, fun hnone h => ⟨fun hpass => ?held, fun hfail => ?refused⟩, fun h stored hheader => ⟨?core, ?digest, ?tags, ?contents⟩⟩
  case timeout =>
    have hexec : exec .copyReadTimeout s = .next (s.abandonCopy 0x02).settle :=
      congrArg (fun x : State => Host.Outcome.next x.settle) (if_pos hreads)
    exact answers_abandons hexec rfl
  case held => exact Leaves.of_eq (exec_copyHeaderKeysReadEnd h hreads hnone) (if_pos hpass)
  case refused => exact answers_abandons ((exec_copyHeaderKeysReadEnd h hreads hnone).trans (by rw [if_neg hfail])) rfl
  case core =>
    intro hwhole hverifies hok
    exact copyCoreReadEnd_accepts hreads hheader (by simp [-id_eq, State.coreCheck, hwhole, hverifies, hok])
  case digest =>
    intro hwhole
    exact copyCoreReadEnd_abandons hreads hheader (by simp [State.coreCheck, hwhole]) (by decide)
  case tags =>
    intro hwhole hverifies
    exact copyCoreReadEnd_abandons hreads hheader (by simp [State.coreCheck, hwhole, hverifies]) (by decide)
  case contents =>
    intro hwhole hverifies hok
    exact copyCoreReadEnd_abandons hreads hheader (by simp [-id_eq, State.coreCheck, hwhole, hverifies, hok]) (by decide)

theorem applyFailure_abandons (s : State) (h4 : s.boot.stage = 4) (happ : s.boot.applied = false) :
    Answers .applyFailure s (Abandons s.boot 0x0E) := by
  have hexec : exec .applyFailure s = .next (s.abandonCopy 0x0E).settle :=
    congrArg (fun x : State => Host.Outcome.next x.settle) (if_pos (by simp [h4, happ]))
  exact answers_abandons hexec rfl

/-- Settles O10: discovery finds its copy or fails (`discovery_cold`, `discovery_fromOffGuard`, `discovery_fails`); a read ends with its
copy held or abandoned (`copyRead_ends`, `State.abandonCopy_abandons`); Apply keeps the boot but for what it brings into force
(`State.applyCore_applies`); a record of GLYPH or SEED is taken or rejects its section. -/
theorem bootReadsAndApply : Obligations.BootReadsAndApply := by
  unfold Obligations.BootReadsAndApply
  refine ⟨?discovery, ?reads, ?apply, ?sections⟩
  case discovery => exact fun s d h => ⟨discovery_cold h, discovery_fromOffGuard h, discovery_fails h⟩
  case reads => exact fun s => ⟨copyRead_ends s, applyFailure_abandons s⟩
  case apply =>
    intro s r dev sets rest h4 happ hcore
    refine ⟨coreApplyComplete_applies r h4 happ hcore, fun hdead hcold => ?_⟩
    obtain ⟨s', hexec, -, hcopyA, hcopyB, hcodeA, hcodeB, -⟩ := coreApplyComplete_fails r h4 happ hcore hdead
    exact ⟨s', hexec, fun hA => ⟨(hcopyA hcold hA).1, (hcopyA hcold hA).2.1, (hcodeA hA).1⟩, fun hB => ⟨hcopyB hcold hB, (hcodeB hB).2⟩⟩
  case sections =>
    intro s t hserves
    refine ⟨fun g hopen hset => ⟨?_, fun contents hrecord hmore hidle hfree hlast hlen => ?_⟩,
      fun stored ended hglyph hseed hclosed => ⟨?_, fun contents hrecord hmore => ?_⟩⟩
    · exact glyphRecordVerified_rejects t hserves hopen hset
    · exact glyphRecordVerified_begins t hserves hopen hset hrecord hmore hidle hfree hlast hlen
    · exact seedRecordVerified_rejects t ended hserves hglyph hseed hclosed
    · exact seedRecordVerified_takes t ended hserves hglyph hseed hclosed hrecord hmore

end Sys2Proof.Machine
end

section
/-! The boot registers and the programming of the flash (R106, R111 to R113, R623). -/
namespace Sys2Proof.Machine
variable {s x : State} {t : Nat} {w : Word64}

/-! GLB_BOOT_CTL. -/

theorem State.writeBootCtl_reboot (s : State) (hreboot : Fld.GLB_BOOT_CTL_reboot.get w.toNat = 1) :
    s.writeBootCtl 0 w.toNat fullMask = s.coldReset.raise Fld.PWR_RESET_CAUSE_reboot := by
  simp [State.writeBootCtl, and_fullMask, hreboot]

theorem State.writeBootCtl_retry (hreboot : Fld.GLB_BOOT_CTL_reboot.get w.toNat = 0) (hretry : Fld.GLB_BOOT_CTL_retry.get w.toNat = 1)
    (hrecovery : s.recovery = true) (hblank : s.fuses.lifeCycle ≠ 0) (hretired : s.fuses.lifeCycle ≠ 4) :
    s.writeBootCtl 0 w.toNat fullMask = s.beginDiscovery := by
  simp [State.writeBootCtl, and_fullMask, hreboot, hretry, hrecovery, hblank, hretired]

/-- A reboot goes back to the ROM stage with its reset cause (R106). -/
theorem glbBootReboot_resets (s : State) (t : Nat) (hreboot : Fld.GLB_BOOT_CTL_reboot.get w.toNat = 1) :
    Answers (.glbBootReboot t 0 w) s (fun s' =>
      s'.boot.stage = 0 ∧ s'.bit Fld.PWR_RESET_CAUSE_reboot = true ∧ s'.fuses = s.fuses ∧ s'.tables = [] ∧ s'.faults.held = [] ∧
      s'.power.railsValid = s.power.railsValid ∧ s'.boot.recordedCopy = s.boot.recordedCopy) := by
  refine Answers.of_eq rfl ((s.at t).writeBootCtl_reboot hreboot) ?_
  rw [State.bit_settle, State.settle_boot, State.settle_fuses, State.settle_tables, State.settle_faults, State.settle_power]
  exact ⟨rfl, State.bit_raise_same _ _ 0 rfl (by decide) (Reg.resetNat_lt _), rfl, rfl, rfl, rfl, rfl⟩

/-- A retry in Recovery begins Discovery with an empty fault log (R111, R603). -/
theorem glbBootRetry_begins (t : Nat) (hreboot : Fld.GLB_BOOT_CTL_reboot.get w.toNat = 0)
    (hretry : Fld.GLB_BOOT_CTL_retry.get w.toNat = 1) (hrecovery : s.recovery = true) (hblank : s.fuses.lifeCycle ≠ 0)
    (hretired : s.fuses.lifeCycle ≠ 4) :
    Answers (.glbBootRetry t 0 w) s (fun s' => s'.boot.stage = 1 ∧ s'.faults.held = [] ∧ s'.fuses = s.fuses) := by
  refine Answers.of_eq rfl (State.writeBootCtl_retry (s := s.at t) hreboot hretry hrecovery hblank hretired) ?_
  rw [State.settle_boot, State.settle_faults, State.settle_fuses]
  exact ⟨rfl, rfl, rfl⟩

/-! GLB_FLASH_PROG_CTL. -/

/-- A go that is served while the engine is idle acts on the stored fields (R112). -/
theorem Stores.flashGo (h : Stores s t .GLB_FLASH_PROG_CTL 0 w x) (hgo : Fld.GLB_FLASH_PROG_CTL_go.get w.toNat = 1)
    (hidle : s.host.flashBusy = false) : (s.at t).writeFlashCtl 0 w.toNat fullMask = x.flashGo := by
  have hbusy : x.host.flashBusy = false := by
    rw [h.only]
    exact hidle
  exact State.goBit_of h _ (fun _ => none) (fun y => y.host.flashBusy) State.flashGo hgo rfl hbusy

theorem flashProgGo_refused (h : Stores s t .GLB_FLASH_PROG_CTL 0 w x) (hgo : Fld.GLB_FLASH_PROG_CTL_go.get w.toNat = 1)
    (hidle : s.host.flashBusy = false) (hrefused : x.flashRefused (x.fld Fld.GLB_FLASH_PROG_CTL_flash_off) x.flashLen = true) :
    Leaves (.flashProgGo t 0 w) s (x.setFld Fld.GLB_FLASH_PROG_CTL_result 2) :=
  Leaves.of_eq rfl ((h.flashGo hgo hidle).trans (if_pos hrefused))

theorem flashProgGo_reads (h : Stores s t .GLB_FLASH_PROG_CTL 0 w x) (hgo : Fld.GLB_FLASH_PROG_CTL_go.get w.toNat = 1)
    (hidle : s.host.flashBusy = false) (hopen : x.flashRefused (x.fld Fld.GLB_FLASH_PROG_CTL_flash_off) x.flashLen = false) :
    Leaves (.flashProgGo t 0 w) s { x with
      out := x.out ++ [.hostRead (x.fld Fld.GLB_FLASH_PROG_ADDR_host_addr) x.flashLen], host := { x.host with flashBusy := true } } :=
  Leaves.of_eq rfl ((h.flashGo hgo hidle).trans (if_neg (by simp [hopen])))

/-! The end of a programming. -/

theorem exec_flashProgDone (t : Nat) (data : Option Bytes) (back : Bytes) (hbusy : s.host.flashBusy = true) :
    exec (.flashProgDone t data back) s = .next (
      match data with
      | none => { s.at t with host := { s.host with flashBusy := false } }.setFld Fld.GLB_FLASH_PROG_CTL_result 3
      | some d =>
        if d.length = s.flashLen then { s.at t with host := { s.host with flashBusy := false } }.flashProgram d back
        else s.at t).settle :=
  congrArg (fun x : State => Host.Outcome.next x.settle) (if_neg (by simp [hbusy]))

/-- What a programming whose buffer has come leaves (R112). -/
theorem State.flashProgram_eq (s : State) (data back : Bytes) : s.flashProgram data back =
    { s with
      scratch := s.scratch.write scratchFlash data
      out := s.out ++ (flashOps (s.fld Fld.GLB_FLASH_PROG_CTL_flash_off) data).map Emit.flash }.setFld Fld.GLB_FLASH_PROG_CTL_result
      (if back = data then 0 else 1) := by
  unfold State.flashProgram
  dsimp only
  rw [State.each_emit_flash]

/-- The result of a programming that is reported (R112). -/
theorem State.fld_flashResult (s : State) {v : Nat} (hv : v < 4) :
    (s.setFld Fld.GLB_FLASH_PROG_CTL_result v).fld Fld.GLB_FLASH_PROG_CTL_result = v :=
  (State.fld_setFld_same s _ 0 v (by decide) (Reg.resetNat_lt _)).trans (Nat.mod_eq_of_lt hv)

theorem flashProgDone_unread (t : Nat) (back : Bytes) (hbusy : s.host.flashBusy = true) :
    Answers (.flashProgDone t none back) s (fun s' => s'.fld Fld.GLB_FLASH_PROG_CTL_result = 3 ∧ s' = { s with
      clock := (s.at t).clock, start := (s.at t).start, regs := s'.regs, host := { s.host with flashBusy := false }, pins := s'.pins
      ring := s'.ring }) := by
  refine ⟨_, exec_flashProgDone t none back hbusy, ?_, rfl⟩
  rw [State.fld_settle]
  exact State.fld_flashResult _ (by decide)

theorem flashProgDone_programs (t : Nat) (back : Bytes) {data : Bytes} (hbusy : s.host.flashBusy = true)
    (hlen : data.length = s.flashLen) : Answers (.flashProgDone t (some data) back) s (fun s' =>
      s'.fld Fld.GLB_FLASH_PROG_CTL_result = (if back = data then 0 else 1) ∧ s' = { s with
        clock := (s.at t).clock, start := (s.at t).start, regs := s'.regs, host := { s.host with flashBusy := false }, pins := s'.pins
        ring := s'.ring, scratch := s.scratch.write scratchFlash data
        out := s.out ++ (flashOps (s.fld Fld.GLB_FLASH_PROG_CTL_flash_off) data).map Emit.flash }) := by
  have hresult : (if back = data then 0 else 1) < 4 := by split <;> decide
  refine Answers.of_eq (exec_flashProgDone t (some data) back hbusy) ((if_pos hlen).trans (State.flashProgram_eq ..)) ⟨?_, rfl⟩
  rw [State.fld_settle]
  exact State.fld_flashResult _ hresult

/-- Settles O11: GLB_BOOT_CTL is `glbBootReboot_resets` and `glbBootRetry_begins`; a go of GLB_FLASH_PROG_CTL is refused or reads the host
(`Stores.flashGo`), and the end of its work is `flashProgDone_unread` or `flashProgDone_programs`. -/
theorem rebootAndFlash : Obligations.RebootAndFlash := by
  unfold Obligations.RebootAndFlash
  intro s t
  refine ⟨fun w hreboot => glbBootReboot_resets s t hreboot,
    fun w hreboot hretry hrecovery hblank hretired => glbBootRetry_begins t hreboot hretry hrecovery hblank hretired,
    fun w x h hgo hidle => ⟨flashProgGo_refused h hgo hidle, flashProgGo_reads h hgo hidle⟩,
    fun hbusy back => ⟨flashProgDone_unread t back hbusy, fun data hlen => flashProgDone_programs t back hbusy hlen⟩⟩

end Sys2Proof.Machine
end

section
/-! Requests for a mode (R122 to R125, R436): what one that passes R123 leaves pending, by GLB_MODE_CTL and by SET_MODE. -/
namespace Sys2Proof.Machine
variable {s x s' : State} {t m : Nat} {src : Source} {c : Cmd} {rest : List Cmd} {command : Option Nat}

/-! A request that passes its checks. -/

/-- A change to a mode has nothing to prepare (R125): no line of ways 4 to 7 before M5, no mirror row before M3. -/
def State.modeReady (s : State) (m : Nat) : Bool :=
  if m = 5 then !s.highLines else if m = 3 then s.mirrorRows.isEmpty && s.mirrorBlocked.isEmpty else true

/-- The mode state once a change has been asked for (R124, R125). -/
def State.askedMode (s : State) (m : Nat) (command : Option Nat) : ModeState :=
  { s.mode with
    pending := some m, preparing := !s.modeReady m, command := command
    turnTide := if s.modeReady m then some (s.clock.grid + 1) else none }

/-- The mirror rows that a change has still to build (R130). -/
def State.askedRows (s : State) (m : Nat) : List Nat := if m = 3 then s.mirrorRows else []

/-- The state once a change has been asked for. -/
def State.withMode (s : State) (m : Nat) (command : Option Nat) : State :=
  { s with mode := s.askedMode m command, arrays := { s.arrays with mirrorBuild := s.askedRows m } }

theorem State.takeMode_other (h : m ≠ s.mode.mode) : s.takeMode m command = s.withMode m command := by
  have hready : (State.preparedNow { s with
      mode := { s.mode with pending := some m, preparing := true, turnTide := none, command := command }
      arrays := { s.arrays with mirrorBuild := s.askedRows m } }) = s.modeReady m := by
    unfold State.modeReady
    split_ifs with h5 h3
    · subst h5
      rfl
    · subst h3
      rfl
    · simp [State.preparedNow, h5, h3]
  unfold State.takeMode
  rw [if_neg h]
  refine (congrArg (fun b : Bool => if b = true then _ else _) hready).trans ?_
  unfold State.withMode State.askedMode
  cases s.modeReady m <;> rfl

/-- A request for the mode in force cancels the change that is pending (R124). -/
theorem State.takeMode_inForce (h : m = s.mode.mode) :
    (s.takeMode m command).mode.mode = m ∧ (s.takeMode m command).mode.pending = none ∧
    (s.mode.pending.isSome = true → (s.takeMode m command).mode.turnTide = none ∧ (s.takeMode m command).mode.preparing = false ∧
      (s.takeMode m command).arrays.mirrorBuild = []) := by
  have hmode : ∀ r p n b, (s.modeResult r p n b).mode = s.mode := by
    intro r p n b
    unfold State.modeResult
    split
    · rfl
    · split <;> rfl
  unfold State.takeMode
  rw [if_pos h]
  split
  · refine ⟨?_, rfl, fun _ => ⟨rfl, rfl, rfl⟩⟩
    exact (congrArg ModeState.mode (hmode _ _ _ _)).trans h.symm
  · next hnone => exact ⟨h.symm, by simpa using hnone, fun hsome => absurd hsome hnone⟩

/-- The change has been asked for: what ModeRequests says of it. -/
def State.asks (s : State) (m : Nat) (s' : State) : Prop :=
  s'.mode.pending = some m ∧ s'.mode.mode = s.mode.mode ∧ s'.fld Fld.GLB_MODE_STATUS_result = 0 ∧
  (m ≠ 3 → m ≠ 5 → s'.mode.preparing = false ∧ s'.mode.turnTide = some (s.clock.grid + 1)) ∧
  (m = 5 → s'.mode.preparing = s.highLines ∧ s'.mode.turnTide = (if s.highLines then none else some (s.clock.grid + 1))) ∧
  (m = 3 → s'.arrays.mirrorBuild = s.mirrorRows)

theorem State.asks_of (hmode : s'.mode = s.askedMode m command) (harrays : s'.arrays.mirrorBuild = s.askedRows m)
    (hresult : s'.fld Fld.GLB_MODE_STATUS_result = 0) : s.asks m s' := by
  unfold State.asks
  rw [hmode, harrays, hresult]
  refine ⟨rfl, rfl, rfl, fun h3 h5 => ?_, fun h5 => ?_, fun h3 => if_pos h3⟩
  · simp [State.askedMode, State.modeReady, h3, h5]
  · subst h5
    unfold State.askedMode State.modeReady
    cases s.highLines <;> exact ⟨rfl, rfl⟩

theorem State.modeStatus_setFld (s : State) (v : Nat) : (s.setFld Fld.GLB_MODE_STATUS_result v).fld Fld.GLB_MODE_STATUS_result =
    v % 2 ^ Fld.GLB_MODE_STATUS_result.width := State.fld_setFld_same s _ 0 v (by decide) (Reg.resetNat_lt _)

/-! GLB_MODE_CTL. -/

section
variable {w : Word64} (h : Stores s t .GLB_MODE_CTL 0 w x) (hgo : Fld.GLB_MODE_CTL_go.get w.toNat = 1) (hauth : s.cmdAuth = false)
include h hgo hauth

/-- A go of GLB_MODE_CTL shows what its checks say, and asks for its target where they pass. -/
theorem Stores.modeGo : (s.at t).writeModeCtl 0 w.toNat fullMask =
    if s.modeCheck (x.fld Fld.GLB_MODE_CTL_target) = 0
    then (x.setFld Fld.GLB_MODE_STATUS_result 0).takeMode (x.fld Fld.GLB_MODE_CTL_target) none
    else x.setFld Fld.GLB_MODE_STATUS_result (s.modeCheck (x.fld Fld.GLB_MODE_CTL_target)) := by
  have hcheck : ∀ m, x.modeCheck m = s.modeCheck m := by
    rw [h.only]
    exact fun _ => rfl
  unfold State.writeModeCtl
  refine (if_neg (by decide)).trans ((State.goClosed_of h _ _ _ _ hgo hauth rfl).trans ?_)
  dsimp only
  rw [hcheck]
  split
  · next hok => rw [hok]
  · rfl

theorem glbModeGo_refused (hno : s.modeCheck (x.fld Fld.GLB_MODE_CTL_target) ≠ 0) : Leaves (.glbModeGo t 0 w) s
    (x.setFld Fld.GLB_MODE_STATUS_result (s.modeCheck (x.fld Fld.GLB_MODE_CTL_target))) :=
  .of_eq rfl ((h.modeGo hgo hauth).trans (if_neg hno))

theorem glbModeGo_asks (hok : s.modeCheck (x.fld Fld.GLB_MODE_CTL_target) = 0) (hother : x.fld Fld.GLB_MODE_CTL_target ≠ s.mode.mode) :
    Answers (.glbModeGo t 0 w) s (s.asks (x.fld Fld.GLB_MODE_CTL_target)) := by
  have hmode : (x.setFld Fld.GLB_MODE_STATUS_result 0).mode = s.mode := by rw [h.only]; rfl
  have htaken := State.takeMode_other (command := none) (hmode.symm ▸ hother)
  refine Answers.of_eq rfl (((h.modeGo hgo hauth).trans (if_pos hok)).trans htaken) (State.asks_of (command := none) ?_ ?_ ?_)
  · rw [h.only]
    rfl
  · rw [h.only]
    rfl
  · rw [State.fld_settle]
    exact State.modeStatus_setFld x 0

theorem glbModeGo_cancels (hok : s.modeCheck (x.fld Fld.GLB_MODE_CTL_target) = 0) (hsame : x.fld Fld.GLB_MODE_CTL_target = s.mode.mode) :
    Answers (.glbModeGo t 0 w) s (fun s' => s'.mode.mode = x.fld Fld.GLB_MODE_CTL_target ∧ s'.mode.pending = none ∧
      (s.mode.pending.isSome = true → s'.mode.turnTide = none ∧ s'.mode.preparing = false ∧ s'.arrays.mirrorBuild = [])) := by
  have hmode : (x.setFld Fld.GLB_MODE_STATUS_result 0).mode = s.mode := by rw [h.only]; rfl
  have htaken := State.takeMode_inForce (command := none) (hmode.symm ▸ hsame)
  rw [hmode] at htaken
  exact Answers.of_eq rfl ((h.modeGo hgo hauth).trans (if_pos hok)) htaken

end

/-! SET_MODE. -/

/-- What SET_MODE does beyond the shared checks. -/
def State.setModeAct (s : State) (src : Source) (c : Cmd) : State :=
  let m := byteAt (cmdBody c.record) 0
  let x := s.setFld Fld.GLB_MODE_STATUS_result (s.modeCheck m)
  if s.modeCheck m != 0 then x.refuse src c 0x19 0 (leBytes (s.modeCheck m) 8)
  else
    let y := x.takeMode m (if m = x.mode.mode then none else some x.acceptId)
    if m != x.mode.mode && prepared x.mode.mode m then y.accept src c y.clock.grid true none none else y.acceptBoundary src c 0

/-- The state that shows the checks of a SET_MODE, its masters as the tag of the command has left them. -/
def State.modeShown (s : State) (masters : Table Master) (r : Nat) : State :=
  State.setFld { s with masters := masters } Fld.GLB_MODE_STATUS_result r

theorem State.setModeAct_refused {ms : Table Master} (hno : s.modeCheck (byteAt (cmdBody c.record) 0) ≠ 0) :
    State.setModeAct { s with masters := ms } src c = (s.modeShown ms (s.modeCheck (byteAt (cmdBody c.record) 0))).refuse src c 0x19 0
      (leBytes (s.modeCheck (byteAt (cmdBody c.record) 0)) 8) := if_pos (bne_iff_ne.mpr hno)

/-- A change that R125 prepares is answered when its mode takes effect, any other at the boundary that R63 gives. -/
theorem State.setModeAct_asks {ms : Table Master} (hok : s.modeCheck (byteAt (cmdBody c.record) 0) = 0)
    (hother : byteAt (cmdBody c.record) 0 ≠ s.mode.mode) : State.setModeAct { s with masters := ms } src c =
      let y := (s.modeShown ms 0).withMode (byteAt (cmdBody c.record) 0) (some s.cmds.nextId)
      if prepared s.mode.mode (byteAt (cmdBody c.record) 0) = true then y.accept src c y.clock.grid true none none
      else y.acceptBoundary src c 0 := by
  have hcheck : State.modeCheck { s with masters := ms } (byteAt (cmdBody c.record) 0) = 0 := hok
  have htaken := State.takeMode_other (s := s.modeShown ms 0) (command := some s.cmds.nextId) hother
  unfold State.setModeAct
  dsimp only
  rw [hcheck, ← htaken]
  simp [hother, State.modeShown, State.acceptId]

/-- A change that SET_MODE has asked for is pending, and the command that asked for it is noted. -/
theorem State.asks_accept {ms : Table Master} (n : Nat) (b : Bool) (r : Option (Nat × Nat × Nat × Nat × Bytes)) (p : Option Nat) :
    let s' := ((((s.at t).modeShown ms 0).withMode m command).accept src c n b r p).settle
    s.asks m s' ∧ s'.mode.command = command := by
  intro s'
  have hmode : s'.mode = s.askedMode m command := by
    rw [State.settle_mode, State.accept_mode]
    rfl
  refine ⟨State.asks_of hmode ?_ ?_, congrArg ModeState.command hmode⟩
  · rw [State.settle_arrays, State.accept_arrays]
    rfl
  · rw [State.fld_settle, State.fld_of_regs (State.accept_regs ..)]
    exact State.modeStatus_setFld ..

section
variable (h : Clears s t src c rest 0x40 false false .supervisor) (hlen : (cmdBody c.record).length = 8)
  (hzero : zerosAt (cmdBody c.record) 1 7 = true) (hlt : byteAt (cmdBody c.record) 0 < 8)
include h hlen hzero hlt

/-- A SET_MODE of the right form is held with the completion that its own effect gives it. -/
theorem setMode_taken {P : State → Prop} {n : Nat} {b : Bool} {r : Option (Nat × Nat × Nat × Nat × Bytes)} {p : Option Nat}
    (hact : ((s.at t).noteCookie src c).setModeAct src c = x.accept src c n b r p) (hx : x.cmds = s.cmds)
    (hk : x.clock.grid = s.clock.grid) (hp : P (x.accept src c n b r p).settle) :
    ∃ s', exec (.setMode t src) s = .next s' ∧ P s' ∧ ∃ a, Taken s s' src c rest a ∧ a.result = r ∧ a.postAt = p :=
  h.answers (x := x) (y := x.accept src c n b r p) (act := fun z => z.setModeAct src c)
    (form := (cmdBody c.record).length == 8 && byteAt (cmdBody c.record) 0 < 8 && zerosAt (cmdBody c.record) 1 7)
    (early := fun _ => none) rfl rfl rfl (by simp [hlen, hzero, hlt]) rfl hact (by rw [hx]) rfl (by simp)
    ⟨hp, _, Taken.accept h.1 (by rw [hx]) hk n b r p (State.settle_cmds _), rfl, rfl⟩

theorem setMode_refused (hno : s.modeCheck (byteAt (cmdBody c.record) 0) ≠ 0) : Answers (.setMode t src) s (fun s' => s'.mode = s.mode ∧
    s'.fld Fld.GLB_MODE_STATUS_result = s.modeCheck (byteAt (cmdBody c.record) 0) % 2 ^ Fld.GLB_MODE_STATUS_result.width ∧
    ∃ a, Taken s s' src c rest a ∧ a.answers 0x19 0 (leBytes (s.modeCheck (byteAt (cmdBody c.record) 0)) 8) (s.at t).dueTide) := by
  obtain ⟨ms, hm⟩ : ∃ ms, (s.at t).noteCookie src c = { s.at t with masters := ms } := ⟨_, State.noteCookie_only ..⟩
  have hact := (congrArg (fun z : State => z.setModeAct src c) hm).trans (State.setModeAct_refused (s := s.at t) (ms := ms) hno)
  obtain ⟨s', hexec, ⟨hmode, hresult⟩, a, htaken, hanswers⟩ := setMode_taken h hlen hzero hlt hact
    (P := fun s' => s'.mode = s.mode ∧
      s'.fld Fld.GLB_MODE_STATUS_result = s.modeCheck (byteAt (cmdBody c.record) 0) % 2 ^ Fld.GLB_MODE_STATUS_result.width) rfl rfl (by
    constructor
    · rw [State.settle_mode, State.accept_mode]
      rfl
    · rw [State.fld_settle, State.fld_of_regs (State.accept_regs ..)]
      exact State.modeStatus_setFld ..)
  exact ⟨s', hexec, hmode, hresult, a, htaken, hanswers⟩

theorem setMode_asks (hok : s.modeCheck (byteAt (cmdBody c.record) 0) = 0) (hother : byteAt (cmdBody c.record) 0 ≠ s.mode.mode) :
    Answers (.setMode t src) s (fun s' => s.asks (byteAt (cmdBody c.record) 0) s' ∧ s'.mode.command = some s.cmds.nextId ∧
      ∃ a, Taken s s' src c rest a ∧
        (prepared s.mode.mode (byteAt (cmdBody c.record) 0) = true → a.result = none ∧ a.postAt = none) ∧
        (prepared s.mode.mode (byteAt (cmdBody c.record) 0) = false → a.answers 0 0 [] (s.at t).dueTide)) := by
  obtain ⟨ms, hm⟩ : ∃ ms, (s.at t).noteCookie src c = { s.at t with masters := ms } := ⟨_, State.noteCookie_only ..⟩
  have hact := (congrArg (fun z : State => z.setModeAct src c) hm).trans (State.setModeAct_asks (s := s.at t) (ms := ms) hok hother)
  cases hprep : prepared s.mode.mode (byteAt (cmdBody c.record) 0) with
  | true =>
    obtain ⟨s', hexec, ⟨hasks, hcommand⟩, a, htaken, hopen⟩ :=
      setMode_taken h hlen hzero hlt (hact.trans (if_pos hprep))
        (P := fun s' => s.asks (byteAt (cmdBody c.record) 0) s' ∧ s'.mode.command = some s.cmds.nextId) rfl rfl (State.asks_accept ..)
    exact ⟨s', hexec, hasks, hcommand, a, htaken, fun _ => hopen, fun hnot => absurd hnot (by decide)⟩
  | false =>
    obtain ⟨s', hexec, ⟨hasks, hcommand⟩, a, htaken, hanswers⟩ :=
      setMode_taken h hlen hzero hlt (hact.trans (if_neg (Bool.eq_false_iff.mp hprep)))
        (P := fun s' => s.asks (byteAt (cmdBody c.record) 0) s' ∧ s'.mode.command = some s.cmds.nextId) rfl rfl (State.asks_accept ..)
    exact ⟨s', hexec, hasks, hcommand, a, htaken, fun hnot => absurd hnot (by decide), fun _ => hanswers⟩

end

/-- Settles O15: a go of GLB_MODE_CTL is `Stores.modeGo`, SET_MODE is `State.setModeAct`, and both ask as `State.takeMode_other` or
cancel as `State.takeMode_inForce`; the end of the preparation names the turn tide. -/
theorem modeRequests : Obligations.ModeRequests := by
  unfold Obligations.ModeRequests
  intro s t asked
  refine ⟨fun w x h hgo hauth => ⟨glbModeGo_refused h hgo hauth, glbModeGo_asks h hgo hauth, glbModeGo_cancels h hgo hauth⟩,
    fun src c rest h hlen hzero => fun hlt => ⟨setMode_refused h hlen hzero hlt, setMode_asks h hlen hzero hlt⟩, fun hprep hnow => ?_⟩
  have hready : ((s.at t).mode.preparing && (s.at t).preparedNow) = true := Bool.and_eq_true_iff.mpr ⟨hprep, hnow⟩
  exact .of_eq rfl (if_pos hready)

end Sys2Proof.Machine
end

section
/-! What writes of rows leave of the entries, the tables and the time (R227, R230, R242 to R245). -/
namespace Sys2Proof.Machine
variable {s x y : State} {len : Nat} {e : Entry}

/-- The entries, the tables and the time stand as they did. -/
def KeepsRecords (s x : State) : Prop := x.numbers = s.numbers ∧ x.tables = s.tables ∧ x.clock = s.clock

theorem KeepsRecords.refl (s : State) : KeepsRecords s s := ⟨rfl, rfl, rfl⟩

theorem KeepsRecords.trans (h : KeepsRecords s x) (k : KeepsRecords x y) : KeepsRecords s y := by
  obtain ⟨hn, ht, hc⟩ := h
  obtain ⟨kn, kt, kc⟩ := k
  exact ⟨kn.trans hn, kt.trans ht, kc.trans hc⟩

theorem KeepsRecords.numbers (h : KeepsRecords s x) : x.numbers = s.numbers := h.1

theorem KeepsRecords.tables (h : KeepsRecords s x) : x.tables = s.tables := h.2.1

theorem KeepsRecords.clock (h : KeepsRecords s x) : x.clock = s.clock := h.2.2

theorem KeepsRecords.entry (h : KeepsRecords s x) (n : Nat) : x.entry n = s.entry n :=
  congrArg (fun k : Numbers => k.entries.find n) h.numbers

theorem KeepsRecords.table (h : KeepsRecords s x) (tid : Nat) : x.table tid = s.table tid :=
  congrArg (fun k : Table TableRec => k.find tid) h.tables

theorem KeepsRecords.each {α : Type} {f : State → α → State} (hf : ∀ x a, KeepsRecords x (f x a)) (s : State) (l : List α) :
    KeepsRecords s (s.each l f) := State.each_of_step (R := KeepsRecords) .refl .trans hf s l

theorem DramOnly.keepsRecords (h : DramOnly s x) : KeepsRecords s x :=
  ⟨(congrArg State.numbers h.eq :), (congrArg State.tables h.eq :), (congrArg State.clock h.eq :)⟩

theorem keepsRecords_noteRow (s : State) (bank : Nat) (g : Tag) : KeepsRecords s (s.noteRow bank g) := by
  rw [State.noteRow_only]
  exact ⟨rfl, rfl, rfl⟩

theorem keepsRecords_putTag (s : State) (bank row : Nat) (g : Tag) : KeepsRecords s (s.putTag bank row g) := by
  rw [State.putTag_only]
  exact ⟨rfl, rfl, rfl⟩

theorem keepsRecords_putUnit (s : State) (bank row unit : Nat) (u : UnitBits) : KeepsRecords s (s.putUnit bank row unit u) := by
  have h : s.putUnit bank row unit u = _ := unitsOnly_putUnit ..
  rw [h]
  exact ⟨rfl, rfl, rfl⟩

theorem keepsRecords_touch (s : State) (bank line : Nat) : KeepsRecords s (s.touch bank line) := ⟨rfl, rfl, rfl⟩

theorem keepsRecords_useOther (s : State) (banks : List Nat) (n : Nat) : KeepsRecords s (s.useOther banks n) := ⟨rfl, rfl, rfl⟩

theorem keepsRecords_useWork (s : State) (bank n : Nat) : KeepsRecords s (s.useWork bank n) := ⟨rfl, rfl, rfl⟩

theorem keepsRecords_unsettlePair (s : State) (bank line n : Nat) : KeepsRecords s (s.unsettlePair bank line n) :=
  .each (f := fun x b => x.unsettle b line n) (fun _ _ => ⟨rfl, rfl, rfl⟩) s _

theorem keepsRecords_writeMeta (s : State) (n : Nat) (e : Entry) (st : Nat) : KeepsRecords s (s.writeMeta n e st) := by
  unfold State.writeMeta
  exact (dramOnly_dramWrite ..).keepsRecords

theorem keepsRecords_shadowRow (s : State) (bank w row : Nat) (e : Entry) : KeepsRecords s (s.shadowRow bank w row e) :=
  .each (fun _ _ => (dramOnly_dramWrite ..).keepsRecords) s _

theorem keepsRecords_retireRow (s : State) (bank row w : Nat) : KeepsRecords s (s.retireRow bank row w) := by
  unfold State.retireRow
  refine .trans (.each (fun z b => ?_) s _) ⟨rfl, rfl, rfl⟩
  dsimp only
  refine .trans ?_ (keepsRecords_touch ..)
  split
  · exact keepsRecords_putTag ..
  · split
    · exact keepsRecords_putTag ..
    · exact keepsRecords_putTag ..
  · exact .refl z

theorem keepsRecords_hotGone (s : State) (n : Nat) : KeepsRecords s (s.hotGone n) := by
  have hdemoted : KeepsRecords s (s.hotDemote n) := by
    unfold State.hotDemote
    split <;> exact ⟨rfl, rfl, rfl⟩
  unfold State.hotGone
  dsimp only
  split
  · exact ⟨rfl, rfl, rfl⟩
  · exact hdemoted

theorem keepsRecords_relabelRow (s : State) (n : Nat) : KeepsRecords s (s.relabelRow n) := by
  unfold State.relabelRow
  split
  · exact .refl s
  next e _ =>
    dsimp only
    refine .trans ?_ (keepsRecords_unsettlePair ..)
    refine .trans ?_ (keepsRecords_writeMeta ..)
    refine .trans ?_ (.each (fun z b => ?_) _ _)
    · exact ⟨rfl, rfl, rfl⟩
    have hrow : ∀ (y : State) (p : Nat × Tag), KeepsRecords y ((y.touch b (lineOf e.width (p.1 % 32768))).noteRow b p.2) :=
      fun y p => .trans (keepsRecords_touch ..) (keepsRecords_noteRow ..)
    exact .each hrow z _

/-! Entries that are set, placed, moved and dropped. -/

@[simp] theorem State.entry_setEntry_same (s : State) (n : Nat) (e : Entry) : (s.setEntry n e).entry n = some e :=
  Table.find_put_same ..

/-- An entry that is placed has its new home, and is the same entry. -/
theorem State.placeRow_entry (he : s.entry len = some e) (bank row : Nat) :
    (s.placeRow len bank row).entry len = some { e with bank := bank, row := row } := by
  obtain ⟨z, hz⟩ : ∃ z : State, KeepsRecords (z.setEntry len { e with bank := bank, row := row }) (s.placeRow len bank row) := by
    unfold State.placeRow
    rw [he]
    dsimp only
    refine ⟨?_, ?keeps⟩
    case keeps =>
      refine .trans ?_ (keepsRecords_unsettlePair ..)
      refine .trans ?_ (keepsRecords_writeMeta ..)
      refine .trans ?_ (keepsRecords_shadowRow ..)
      refine .each (fun z b => ?_) _ _
      refine .trans ?_ (keepsRecords_touch ..)
      refine .trans ?_ (keepsRecords_putTag ..)
      exact .each (fun _ _ => keepsRecords_putUnit ..) z _
  rw [hz.entry]
  exact State.entry_setEntry_same ..

theorem State.moveEntry_entry (he : s.entry len = some e) (m : Move) :
    (s.moveEntry len m).entry len = some { e with bank := m.bank, row := m.dst } := by
  unfold State.moveEntry
  rw [he]
  exact ((keepsRecords_retireRow ..).entry len).trans (State.placeRow_entry he ..)

theorem State.dropEntry_entry (he : s.entry len = some e) (hlive : e.state = .live) :
    (s.dropEntry len).entry len = some { e with state := .retired } := by
  have hremoved : (s.removeEntry len).entry len = some { e with state := .retired } := by
    unfold State.removeEntry
    rw [he]
    simp [hlive]
  exact ((keepsRecords_hotGone ..).entry len).trans hremoved

theorem State.renumber_entry (he : s.entry len = some e) (cls q : Nat) :
    (s.renumber cls len q).entry len = some { e with seq := q, keyLo := if cls = 1 then 0 else q } := by
  unfold State.renumber
  rw [he]
  exact State.entry_setEntry_same ..

theorem State.renumber_tables (s : State) (cls n q : Nat) : (s.renumber cls n q).tables = s.tables := by
  unfold State.renumber
  split <;> rfl

end Sys2Proof.Machine
end

section
/-! Background work on a table (R143, R162, R163, R240, R242, R254, R255): what each command leaves of it. -/
namespace Sys2Proof.Machine
variable {s : State} {t tid len : Nat} {tb : TableRec} {e : Entry}

/-! What the work reads of the state does not turn on the stroke. -/

@[simp] theorem State.tag_at (s : State) (t bank row : Nat) : (s.at t).tag bank row = s.tag bank row := rfl
@[simp] theorem State.observed_at (s : State) (t tid : Nat) : (s.at t).observed tid = s.observed tid := rfl
@[simp] theorem State.planBusy_at (s : State) (t tid bank : Nat) : (s.at t).planBusy tid bank = s.planBusy tid bank := rfl
@[simp] theorem State.rowsNow_at (s : State) (t tid bank : Nat) : (s.at t).rowsNow tid bank = s.rowsNow tid bank := rfl
@[simp] theorem State.newRows_at (s : State) (t tid bank : Nat) : (s.at t).newRows tid bank = s.newRows tid bank := rfl
@[simp] theorem State.writable_at (s : State) (t bank row : Nat) : (s.at t).writable bank row = s.writable bank row := rfl
@[simp] theorem State.pairBanks_at (s : State) (t bank : Nat) : (s.at t).pairBanks bank = s.pairBanks bank := rfl
@[simp] theorem State.maySplit_at (s : State) (t : Nat) (tb : TableRec) : (s.at t).maySplit tb = s.maySplit tb := rfl
@[simp] theorem State.wantsSplit_at (s : State) (t : Nat) (tb : TableRec) : (s.at t).wantsSplit tb = s.wantsSplit tb := rfl
@[simp] theorem State.mirrorBlocked_at (s : State) (t : Nat) : (s.at t).mirrorBlocked = s.mirrorBlocked := rfl

@[simp] theorem State.liveMoves_at (s : State) (t tid : Nat) (l : List Move) : (s.at t).liveMoves tid l = s.liveMoves tid l := rfl

@[simp] theorem State.respaces_at (s : State) (t : Nat) (df : TableDef) (bank : Nat) (rows : List PlacedRow) (l : List Move) :
    (s.at t).respaces df bank rows l = s.respaces df bank rows l := rfl

@[simp] theorem State.playStep_at (s : State) (t : Nat) (df : TableDef) (bank : Nat) (rows : List PlacedRow) (vacated : List Nat)
    (moves : List Move) (news : List PlacedRow) (later : List Move) :
    (s.at t).playStep df bank rows vacated moves news later = s.playStep df bank rows vacated moves news later := rfl

@[simp] theorem State.table_settle (s : State) (n : Nat) : s.settle.table n = s.table n := rfl

/-! Rows that take new keys, and the entries of a table that is freed. -/

/-- A live entry of a resequencing pass takes its sequence (R143). -/
theorem State.reseqRun_one (he : s.entry len = some e) (hlive : e.state = .live) (hroom : s.workRoom .renumber e.bank 1 = true)
    (cls q : Nat) : s.reseqRun cls [(len, q)] = (((s.renumber cls len q).relabelRow len).useWork e.bank 1, []) := by
  simp [State.reseqRun, he, hlive, State.stands, hroom]

/-- The row of a live entry takes its label (R242). -/
theorem State.rewriteTags_one (he : s.entry len = some e) (hlive : e.state = .live) (hroom : s.workRoom .renumber e.bank 1 = true) :
    s.rewriteTags [len] = ((s.relabelRow len).useWork e.bank 1, []) := by
  simp [State.rewriteTags, he, hlive, State.stands, hroom]

/-- A live entry of a table that is freed is dropped (R162). -/
theorem State.freeRun_one (he : s.entry len = some e) (hlive : e.state = .live)
    (hroom : s.backRoom .free (s.writeBanks e.bank e.row) 1 = true) :
    s.freeRun [len] = (s.dropEntry len).useOther (s.writeBanks e.bank e.row) 1 := by
  simp [State.freeRun, he, hlive, hroom]

/-- A table's record that is changed reads as it was changed. -/
theorem State.table_modify (h : s.table tid = some tb) (f : TableRec → TableRec) :
    State.table { s with tables := s.tables.modify tid f } tid = some (f tb) :=
  (Table.find_modify_same ..).trans (congrArg (Option.map f) h)

/-- A list of entries that holds one of a table has some of it. -/
theorem Table.any_of_find {α : Type} {m : Table α} {k : Nat} {v : α} {p : α → Bool} (h : m.find k = some v) (hp : p v = true) :
    m.any (fun x => p x.2) = true := by
  obtain ⟨x, hx, hv⟩ := List.mem_map.mp (Table.find_mem_vals h)
  exact List.any_eq_true.mpr ⟨x, hx, by rw [hv, hp]⟩

section
variable (hw : (s.at t).inWrite = true) (ht : s.table tid = some tb)

/-! Respacing (R240). -/

include ht in
theorem respacing_ends : Leaves (.respacing t tid []) s { s.at t with arrays := { s.arrays with respaceBusy := false } } := by
  refine .of_eq rfl ?_
  simp [ht]

include hw ht in
theorem respacing_moves {m : Move} (hlive : tb.state = .live) (hdirect : tb.df.direct = false) (hobs : s.observed tid = false)
    (hidle : s.planBusy tid m.bank = false) (hmoves : s.liveMoves tid [m] = [(m, len)]) (he : s.entry len = some e)
    (hopen : s.writable m.bank m.dst = true) (hspaces : s.respaces tb.df m.bank (s.rowsNow tid m.bank) [m] = true)
    (hplays : (s.playStep tb.df m.bank (s.rowsNow tid m.bank) [] [m] (s.newRows tid m.bank) []).isSome = true)
    (hroom : (s.at t).backRoom .respace (s.pairBanks m.bank) (stepOps tb.df.units [m] false) = true) :
    Answers (.respacing t tid [m]) s (fun s' => s'.arrays.respaceBusy = true ∧
      ∃ e', s'.entry len = some e' ∧ e'.bank = m.bank ∧ e'.row = m.dst ∧ e'.gen = e.gen) := by
  obtain ⟨z, hz⟩ : ∃ z, z = (s.at t).moveEntry len m := ⟨_, rfl⟩
  have hmoved : z.entry len = some { e with bank := m.bank, row := m.dst } := hz ▸ State.moveEntry_entry (s := s.at t) he m
  let x := z.useWork m.bank (stepOps tb.df.units [m] false)
  refine Answers.of_eq (x := { x with arrays := { x.arrays with respaceBusy := true } }) rfl ?_ ⟨rfl, _, hmoved, rfl, rfl, rfl⟩
  simp [ht, hw, hlive, hdirect, hobs, hidle, hmoves, hopen, hspaces, hplays, hroom, State.each, x, hz]

/-! Charts (R254, R255). -/

section
variable (hlive : tb.state = .live) (hdirect : tb.df.direct = false) (hobs : s.observed tid = false) (hwork : tb.work ≠ 1)
  (hwhole : tb.nextChart.selector.length = tb.chart.selector.length)
include hw ht hlive hdirect hobs hwork hwhole

theorem chartSplit_splits {pos : Nat} (hmay : s.maySplit tb = true) (hwants : s.wantsSplit tb = true) (hpos : pos < 80 * tb.df.units)
    (hnew : tb.nextChart.selector.contains pos = false) : Leaves (.chartSplit t tid pos) s ((s.at t).setTable { tb with
      work := 1, merged := []
      chartNext := some { tb.nextChart with
        selector := tb.nextChart.selector ++ [pos], buckets := tb.nextChart.buckets ++ tb.nextChart.buckets } }) := by
  have hgoes : (s.maySplit tb && decide (pos < 80 * tb.df.units) && !tb.nextChart.selector.contains pos && s.wantsSplit tb &&
      tb.nextChart.selector.length == tb.chart.selector.length) = true := by
    rw [hmay, hnew, hwants, hwhole, decide_eq_true hpos]
    simp
  refine .of_eq rfl ?_
  simp only [State.table_at, ht, hw, hdirect, hlive, State.observed_at, hobs, if_neg hwork, State.maySplit_at, State.wantsSplit_at, hgoes]
  rfl

/-- A merge of an idle chart goes on to the siblings that may be merged, or takes the position away (R255). -/
theorem chartMerge_acts (hsel : tb.nextChart.selector ≠ []) :
    let pairs := (List.range tb.nextChart.half).filter (s.mayMerge tb)
    exec (.chartMerge t tid) s = .next (
      if (tb.chartNext.isNone && pairs.length == tb.nextChart.half && tb.merged.length == tb.nextChart.half &&
          tb.nextChart.unite pairs == tb.nextChart) = true then
        (s.at t).setTable { tb with work := 0, merged := [], chartNext := some { tb.nextChart with
          selector := tb.nextChart.selector.dropLast, buckets := tb.nextChart.buckets.take tb.nextChart.half
          shared := if tb.nextChart.selector.length ≤ 1 then [] else tb.nextChart.shared } }
      else if pairs.isEmpty = true then (s.at t).setTable { tb with work := 0, merged := [] }
      else (s.at t).setTable { tb with
        work := 2, merged := pairs
        chartNext := if (tb.nextChart.unite pairs == tb.chart) = true then none else some (tb.nextChart.unite pairs) }).settle := by
  have hidle : (!(s.at t).inWrite || tb.df.direct || tb.state != TableState.live || (s.at t).observed tid || decide (tb.work = 1) ||
      tb.nextChart.selector.isEmpty || tb.nextChart.selector.length != tb.chart.selector.length) = false := by
    simp [hw, hdirect, hlive, hobs, hwork, hsel, hwhole]
  refine congrArg (fun x : State => Host.Outcome.next x.settle) ?_
  simp only [State.table_at, ht, hidle]
  rfl

theorem chartMerge_unites (hsel : tb.nextChart.selector ≠ [])
    (hpairs : (List.range tb.nextChart.half).filter (s.mayMerge tb) ≠ []) (hnone : tb.merged = [])
    (hdiffers : tb.nextChart.unite ((List.range tb.nextChart.half).filter (s.mayMerge tb)) ≠ tb.chart) :
    Leaves (.chartMerge t tid) s ((s.at t).setTable { tb with
      work := 2, merged := (List.range tb.nextChart.half).filter (s.mayMerge tb)
      chartNext := some (tb.nextChart.unite ((List.range tb.nextChart.half).filter (s.mayMerge tb))) }) := by
  have hhalf : tb.nextChart.half ≠ 0 := fun h0 => hpairs (by simp [h0])
  refine .of_eq (chartMerge_acts hw ht hlive hdirect hobs hwork hwhole hsel) ?_
  rw [if_neg (by simp [hnone, hhalf.symm]), if_neg (by simpa using hpairs), if_neg (by simpa using hdiffers)]

theorem chartMerge_shortens (hsel : tb.nextChart.selector ≠ []) (hnext : tb.chartNext = none)
    (hpairs : ((List.range tb.nextChart.half).filter (s.mayMerge tb)).length = tb.chart.half) (hmerged : tb.merged.length = tb.chart.half)
    (hsame : tb.chart.unite ((List.range tb.nextChart.half).filter (s.mayMerge tb)) = tb.chart) :
    Leaves (.chartMerge t tid) s ((s.at t).setTable { tb with work := 0, merged := [], chartNext := some { tb.chart with
      selector := tb.chart.selector.dropLast, buckets := tb.chart.buckets.take tb.chart.half
      shared := if tb.chart.selector.length ≤ 1 then [] else tb.chart.shared } }) := by
  have hchart : tb.nextChart = tb.chart := by simp [TableRec.nextChart, hnext]
  refine .of_eq (chartMerge_acts hw ht hlive hdirect hobs hwork hwhole hsel) ?_
  rw [hchart] at hpairs hsame ⊢
  exact if_pos (by simp [hnext, hpairs, hmerged, hsame])

end

/-! Sequences and labels (R143, R242). -/

include hw ht in
theorem resequencing_ends (htid : tb.df.tid = tid) (hlive : tb.state = .live) (hdirect : tb.df.direct = false)
    (hobs : s.observed tid = false) {q : Nat} (hreseq : tb.reseq = some ⟨[(len, q)]⟩) (he : s.entry len = some e) (helive : e.state = .live)
    (hroom : ((s.at t).setTable tb).workRoom .renumber e.bank 1 = true) : Answers (.resequencing t tid) s (fun s' =>
      (∃ x, s'.table tid = some x ∧ x.reseq = none ∧ x.counter = tb.counter) ∧
      s'.entry len = some { e with seq := q, keyLo := if tb.df.cls = 1 then 0 else q }) := by
  have he' : ((s.at t).setTable tb).entry len = some e := he
  have hrun := State.reseqRun_one he' helive hroom tb.df.cls q
  have hentry := State.renumber_entry he' tb.df.cls q
  have htables := State.renumber_tables ((s.at t).setTable tb) tb.df.cls len q
  generalize ((s.at t).setTable tb).renumber tb.df.cls len q = numbered at hrun hentry htables
  have hkeeps : KeepsRecords numbered ((numbered.relabelRow len).useWork e.bank 1) :=
    .trans (keepsRecords_relabelRow ..) (keepsRecords_useWork ..)
  generalize (numbered.relabelRow len).useWork e.bank 1 = z at hrun hkeeps
  have htable : z.table tid = some tb := by
    unfold State.table
    rw [hkeeps.tables, htables, ← htid]
    exact Table.find_put_same ..
  refine Answers.of_eq (x := { z with tables := z.tables.modify tid (fun x => { x with reseq := none }) }) rfl ?_
    ⟨⟨{ tb with reseq := none }, ?_, rfl, rfl⟩, (hkeeps.entry len).trans hentry⟩
  · simp [ht, hw, hdirect, hlive, hobs, hreseq, hrun]
  · exact (State.table_settle ..).trans (State.table_modify htable _)

include hw ht in
theorem tableRelabel_ends (hlive : tb.state = .live) (hcls : tb.df.cls = 1) (hdirect : tb.df.direct = false) {y : Nat}
    (hlabels : tb.relabel = [(len, y)]) (he : s.entry len = some e) (helive : e.state = .live)
    (hroom : (s.at t).workRoom .renumber e.bank 1 = true) : Answers (.tableRelabel t tid) s (fun s' =>
      (∃ x, s'.table tid = some x ∧ x.relabel = [] ∧ x.relabelFrom = s.clock.grid + 1) ∧ s'.entry len = some e) := by
  have he' : (s.at t).entry len = some e := he
  have hrun := State.rewriteTags_one he' helive hroom
  have hkeeps : KeepsRecords (s.at t) (((s.at t).relabelRow len).useWork e.bank 1) :=
    .trans (keepsRecords_relabelRow ..) (keepsRecords_useWork ..)
  generalize ((s.at t).relabelRow len).useWork e.bank 1 = z at hrun hkeeps
  have hgrid : z.clock.grid = (s.at t).clock.grid := congrArg Clock.grid hkeeps.clock
  refine Answers.of_eq (x := { z with tables := z.tables.modify tid (fun x => { x with
    relabel := [], relabelFrom := z.clock.grid + 1 }) }) rfl ?_
    ⟨⟨{ tb with relabel := [], relabelFrom := z.clock.grid + 1 }, ?_, rfl, congrArg (· + 1) hgrid⟩, (hkeeps.entry len).trans he⟩
  · simp [ht, hw, hdirect, hlive, hcls, hlabels, hrun]
  · exact (State.table_settle ..).trans (State.table_modify ((hkeeps.table tid).trans ht) _)

/-! Freeing (R162, R163). -/

section
variable (hstate : tb.state = .flushed ∨ tb.state = .deleted)
include hw ht hstate

theorem tableFreeing_acts : exec (.tableFreeing t tid) s = .next (
    if s.numbers.entries.any (fun p => p.2.tid == tid) = true
    then (s.at t).freeRun ((s.numbers.freeing.filter (fun p => p.1 == tid)).map (fun p => p.2))
    else if (tb.state == TableState.deleted) = true then { s.at t with tables := s.tables.del tid }
    else (s.at t).setTable { tb with state := .live }).settle := by
  have hruns : (!(s.at t).inWrite || !(tb.state == TableState.flushed || tb.state == TableState.deleted)) = false := by
    obtain h | h := hstate <;> simp [hw, h]
  refine congrArg (fun x : State => Host.Outcome.next x.settle) ?_
  simp only [State.table_at, ht, hruns]
  rfl

theorem tableFreeing_ends (htid : tb.df.tid = tid) (hnone : s.numbers.entries.any (fun p => p.2.tid == tid) = false) :
    Answers (.tableFreeing t tid) s (fun s' => (tb.state = .deleted → s'.tables = s.tables.del tid) ∧
      (tb.state = .flushed → s'.table tid = some { tb with state := .live })) := by
  have hexec := tableFreeing_acts hw ht hstate
  rw [hnone, if_neg (by decide)] at hexec
  obtain hflushed | hdeleted := hstate
  · refine Answers.of_eq hexec (if_neg (by simp [hflushed])) ⟨fun h => ?_, fun _ => ?_⟩
    · simp [hflushed] at h
    · rw [State.table_settle, ← htid]
      exact Table.find_put_same ..
  · refine Answers.of_eq hexec (if_pos (by simp [hdeleted])) ⟨fun _ => rfl, fun h => ?_⟩
    simp [hdeleted] at h

theorem tableFreeing_retires (hleft : s.numbers.freeing.filter (fun p => p.1 == tid) = [(tid, len)]) (he : s.entry len = some e)
    (hown : e.tid = tid) (helive : e.state = .live) (hroom : (s.at t).backRoom .free (s.writeBanks e.bank e.row) 1 = true) :
    Answers (.tableFreeing t tid) s (fun s' => ∃ e', s'.entry len = some e' ∧ e'.state = .retired) := by
  have he' : (s.at t).entry len = some e := he
  have hexec := tableFreeing_acts hw ht hstate
  rw [if_pos (Table.any_of_find he (p := fun x => x.tid == tid) (by simp [hown])), hleft] at hexec
  have hdropped := State.dropEntry_entry he' helive
  have hrun := State.freeRun_one he' helive hroom
  generalize (s.at t).dropEntry len = z at hdropped hrun
  exact Answers.of_eq hexec hrun ⟨_, hdropped, rfl⟩

end

end

end Sys2Proof.Machine
end

section
/-! Work on the mirror (R124, R130, R132): the copies that are written before M3, and those that are freed. -/
namespace Sys2Proof.Machine
variable {s : State} {t bank row : Nat} {e : Entry}

/-- A row's tag is read from the tags and the slots that serve the banks. -/
theorem State.tag_congr {x : State} (htags : x.arrays.tags = s.arrays.tags) (hserved : x.arrays.served = s.arrays.served)
    (bank row : Nat) : x.tag bank row = s.tag bank row := by
  unfold State.tag State.slotOf
  rw [htags, hserved]

/-- The bank and the row of a key. -/
theorem rowKey_parts (bank : Nat) (h : row < 32768) : (32768 * bank + row) / 32768 = bank ∧ (32768 * bank + row) % 32768 = row := by
  omega

/-! A copy that is written. -/

/-- The mirror copy of a row stands ARMED for the entry, and no entry has changed. -/
theorem State.copyMirror_tag (s : State) (e : Entry) (len : Nat) (h : row < 32768) :
    ((s.copyMirror (32768 * bank + row) e len).tag (partnerBank bank) row).state = .armed ∧
    ((s.copyMirror (32768 * bank + row) e len).tag (partnerBank bank) row).len = len ∧
    (s.copyMirror (32768 * bank + row) e len).numbers = s.numbers := by
  obtain ⟨hbank, hrow⟩ := rowKey_parts bank h
  unfold State.copyMirror
  rw [hbank, hrow]
  dsimp only
  obtain ⟨z, hz⟩ : ∃ z, z = s.each (List.range e.width) (fun z j =>
    z.putUnit (partnerBank bank) row (e.width * row + j) (z.unitBits bank (e.width * row + j))) := ⟨_, rfl⟩
  have hkeeps : KeepsRecords s z := hz ▸ KeepsRecords.each (fun _ _ => keepsRecords_putUnit ..) s _
  have htag := State.tag_putTag z (partnerBank bank) row (z.armedTag len e)
  have hput := keepsRecords_putTag z (partnerBank bank) row (z.armedTag len e)
  rw [← hz]
  generalize z.putTag (partnerBank bank) row (z.armedTag len e) = y at htag hput
  exact ⟨congrArg Tag.state htag, congrArg Tag.len htag, (hkeeps.trans hput).numbers⟩

/-- A state whose mirror copy of a row is kept. -/
def State.keepMirror (s : State) (bank row : Nat) : State :=
  { s with arrays := { s.arrays with mirrorFree := s.arrays.mirrorFree.filter (fun x => x != rowKey (partnerBank bank) row) } }

/-- The copy of a live row is written where its partner may be written and has room (R130). -/
theorem State.buildRun_one (h : row < 32768) (he : s.entry (s.tag bank row).len = some e) (hbank : e.bank = bank) (hrow : e.row = row)
    (hgen : e.gen = (s.tag bank row).gen) (hlive : (s.tag bank row).state = .live)
    (hfree : s.arrays.mirrorFree.contains (rowKey (partnerBank bank) row) = false) (hopen : s.tagWritable (partnerBank bank) row = true)
    (hroom : s.backRoom .build [partnerBank bank] e.width = true) : s.buildRun [32768 * bank + row] =
      (((s.keepMirror bank row).copyMirror (32768 * bank + row) e (s.tag bank row).len).useOther [partnerBank bank] e.width, []) := by
  obtain ⟨hkeyBank, hkeyRow⟩ := rowKey_parts bank h
  unfold State.buildRun
  rw [hkeyBank, hkeyRow]
  dsimp only
  rw [he]
  dsimp only
  rw [if_neg (by simp [hlive, hbank, hrow, hgen]), if_neg (by rw [hfree]; simp), if_pos (by simp [hopen, hroom])]
  rfl

section
variable (hw : (s.at t).inWrite = true) (hpending : s.mode.pending = some 3) (hprep : s.mode.preparing = true)
  (hblocked : s.mirrorBlocked = [])
include hw hpending hprep hblocked

/-- The build before M3 goes on where no entry is in its way (R130). -/
theorem mirrorBuild_runs : exec (.mirrorBuild t) s = .next (
    let x := (s.at t).buildRun s.arrays.mirrorBuild
    { x.1 with arrays := { x.1.arrays with mirrorBuild := x.2 } }).settle := by
  have hruns : (!(s.at t).inWrite || (s.at t).mode.pending != some 3 || !(s.at t).mode.preparing) = false := by
    simp [hw, hpending, hprep]
  refine congrArg (fun x : State => Host.Outcome.next x.settle) ?_
  dsimp only
  simp only [hruns, State.mirrorBlocked_at, hblocked]
  rfl

theorem mirrorBuild_done (hnone : s.arrays.mirrorBuild = []) : Leaves (.mirrorBuild t) s (s.at t) := by
  refine .of_eq (mirrorBuild_runs hw hpending hprep hblocked) ?_
  rw [hnone]
  dsimp only [State.buildRun]
  rw [State.at_arrays, ← hnone]
  rfl

theorem mirrorBuild_copies (h : row < 32768) (hkeys : s.arrays.mirrorBuild = [32768 * bank + row])
    (he : s.entry (s.tag bank row).len = some e) (hbank : e.bank = bank) (hrow : e.row = row) (hgen : e.gen = (s.tag bank row).gen)
    (hlive : (s.tag bank row).state = .live) (hfree : s.arrays.mirrorFree.contains (rowKey (partnerBank bank) row) = false)
    (hopen : s.tagWritable (partnerBank bank) row = true) (hroom : (s.at t).backRoom .build [partnerBank bank] e.width = true) :
    Answers (.mirrorBuild t) s (fun s' => s'.arrays.mirrorBuild = [] ∧ (s'.tag (partnerBank bank) row).state = .armed ∧
      (s'.tag (partnerBank bank) row).len = (s.tag bank row).len ∧ s'.numbers.entries = s.numbers.entries) := by
  have hrun := State.buildRun_one (s := s.at t) h he hbank hrow hgen hlive hfree hopen hroom
  obtain ⟨hstate, hlen, hnumbers⟩ := ((s.at t).keepMirror bank row).copyMirror_tag (bank := bank) e (s.tag bank row).len h
  rw [State.tag_at] at hrun
  generalize ((s.at t).keepMirror bank row).copyMirror _ e _ = z at hrun hstate hlen hnumbers
  have hexec := mirrorBuild_runs hw hpending hprep hblocked
  rw [hkeys, hrun] at hexec
  refine Answers.of_eq hexec rfl ⟨rfl, ?_, ?_, congrArg Numbers.entries hnumbers⟩
  · refine (congrArg Tag.state (State.tag_congr (s := z) ?_ ?_ _ _)).trans hstate <;> rfl
  · refine (congrArg Tag.len (State.tag_congr (s := z) ?_ ?_ _ _)).trans hlen <;> rfl

end

/-! A copy that is freed. -/

/-- A live copy that is searched no more is retired (R132). -/
theorem State.freeMirrors_one (h : row < 32768) (hlive : (s.tag bank row).state = .live)
    (hroom : s.backRoom .free [bank] 1 = true) : s.freeMirrors [32768 * bank + row] =
      (((s.putTag bank row { s.tag bank row with state := .retiring, ptide := s.parity }).touch bank
        (lineOf ((s.bankWidth bank).getD 1) row)).useOther [bank] 1, []) := by
  obtain ⟨hkeyBank, hkeyRow⟩ := rowKey_parts bank h
  unfold State.freeMirrors
  rw [hkeyBank, hkeyRow]
  dsimp only
  rw [if_neg (by simp [hlive]), if_pos hroom, if_neg (by simp [hlive])]
  rfl

theorem mirrorCopyFreeing_runs (hw : (s.at t).inWrite = true) : exec (.mirrorCopyFreeing t) s = .next (
    let x := (s.at t).freeMirrors s.arrays.mirrorFree
    { x.1 with arrays := { x.1.arrays with mirrorFree := x.2 } }).settle :=
  congrArg (fun x : State => Host.Outcome.next x.settle) (if_pos hw)

theorem mirrorCopyFreeing_retires (hw : (s.at t).inWrite = true) (h : row < 32768) (hkeys : s.arrays.mirrorFree = [32768 * bank + row])
    (hlive : (s.tag bank row).state = .live) (hroom : (s.at t).backRoom .free [bank] 1 = true) :
    Answers (.mirrorCopyFreeing t) s (fun s' => s'.arrays.mirrorFree = [] ∧
      s'.tag bank row = { s.tag bank row with state := .retiring, ptide := s.parity }) := by
  have hrun := State.freeMirrors_one (s := s.at t) h hlive hroom
  have htag := (s.at t).tag_putTag bank row { (s.at t).tag bank row with state := .retiring, ptide := (s.at t).parity }
  generalize (s.at t).putTag bank row _ = z at hrun htag
  have hexec := mirrorCopyFreeing_runs hw
  rw [hkeys, hrun] at hexec
  refine Answers.of_eq hexec rfl ⟨rfl, ?_⟩
  refine (State.tag_congr (s := z) ?_ ?_ _ _).trans htag <;> rfl

/-- Settles O24: the work on a table is `respacing_moves`, `chartSplit_splits`, `chartMerge_unites` and `chartMerge_shortens`,
`resequencing_ends`, `tableRelabel_ends`, and `tableFreeing_ends` and `tableFreeing_retires`; the work on the mirror is `mirrorBuild_copies`
and `mirrorCopyFreeing_retires`. -/
theorem backgroundAndMirrorWork : Obligations.BackgroundAndMirrorWork := by
  unfold Obligations.BackgroundAndMirrorWork
  refine ⟨fun s t tid tb hw ht htid => ⟨respacing_ends ht, ?respacing, ?split, ?merge, ?resequencing, ?relabel, ?freeing⟩,
    fun s t hw => ⟨fun hpending hprep hblocked => ⟨mirrorBuild_done hw hpending hprep hblocked, ?build⟩, ?copies⟩⟩
  case respacing =>
    intro m len e ⟨hlive, hdirect, hobs⟩
    exact respacing_moves hw ht hlive hdirect hobs
  case split =>
    intro ⟨hlive, hdirect, hobs⟩ hwork hmay hwants hwhole pos
    exact chartSplit_splits hw ht hlive hdirect hobs hwork hwhole hmay hwants
  case merge =>
    intro ⟨hlive, hdirect, hobs⟩ hwork hsel hwhole hpairs
    exact ⟨chartMerge_unites hw ht hlive hdirect hobs hwork hwhole hsel hpairs,
      chartMerge_shortens hw ht hlive hdirect hobs hwork hwhole hsel⟩
  case resequencing =>
    intro ⟨hlive, hdirect, hobs⟩ len q e
    exact resequencing_ends hw ht htid hlive hdirect hobs
  case relabel =>
    intro hlive hcls hdirect len y e
    exact tableRelabel_ends hw ht hlive hcls hdirect
  case freeing =>
    exact fun hstate => ⟨tableFreeing_ends hw ht hstate htid, fun len e => tableFreeing_retires hw ht hstate⟩
  case build =>
    intro bank row e h hkeys he hbank hrow hgen hlive _
    exact mirrorBuild_copies hw hpending hprep hblocked h hkeys he hbank hrow hgen hlive
  case copies =>
    exact fun bank row h hkeys hlive hroom => mirrorCopyFreeing_retires hw h hkeys hlive hroom

end Sys2Proof.Machine
end

section
/-! The winner of a ternary lookup (R140, R142, R145, R199, R201, R267): the best of a list of candidates, and what the first match of a
bank is. -/
namespace Sys2Proof.Machine
variable {s : State} {df : TableDef} {key : Digits} {tags : List TagFault} {before : Cand → Cand → Bool} {c : Cand} {l : List Cand}

/-! The best of a list. -/

/-- The better of two candidates, the first where neither precedes: the step of `bestOf`. -/
def better (before : Cand → Cand → Bool) (b x : Cand) : Cand := if before x b then x else b

theorem foldl_better_mem (c : Cand) (l : List Cand) : l.foldl (better before) c ∈ c :: l := by
  refine List.foldlRecOn (motive := (· ∈ c :: l)) l _ (List.mem_cons_self ..) fun b hb x hx => ?_
  unfold better
  split
  · exact List.mem_cons_of_mem _ hx
  · exact hb

/-- The best of a list that the order is transitive on is preceded by none: a candidate that takes the place of the best so far precedes it,
and so what would precede the new one would precede the old one too. -/
theorem foldl_better_first (hirr : ∀ x, before x x = false) (c : Cand) (l : List Cand)
    (htrans : ∀ x ∈ c :: l, ∀ y ∈ c :: l, ∀ z ∈ c :: l, before x y = true → before y z = true → before x z = true) :
    ∀ x ∈ c :: l, before x (l.foldl (better before) c) = false := by
  induction l using List.reverseRecOn with
  | nil => simp [hirr]
  | append_singleton l y ih =>
    have hsub : ∀ x ∈ c :: l, x ∈ c :: (l ++ [y]) := by simp +contextual
    have hfirst := ih fun x hx y hy z hz => htrans x (hsub x hx) y (hsub y hy) z (hsub z hz)
    have hbest := hsub _ (foldl_better_mem (before := before) c l)
    rw [List.foldl_append, List.foldl_cons, List.foldl_nil, better]
    intro x hx
    obtain hold | rfl : x ∈ c :: l ∨ x = y := by simpa [or_assoc] using hx
    · split
      case isTrue hy =>
        refine Bool.eq_false_iff.2 fun hxy => ?_
        exact Bool.false_ne_true ((hfirst x hold).symm.trans (htrans x hx y (by simp) _ hbest hxy hy))
      case isFalse => exact hfirst x hold
    · split
      case isTrue => exact hirr x
      case isFalse hx => exact Bool.eq_false_iff.2 hx

theorem bestOf_mem (h : bestOf before l = some c) : c ∈ l := by
  cases l with
  | nil => cases h
  | cons b l =>
    obtain rfl := Option.some.inj h
    exact foldl_better_mem b l

theorem bestOf_first (hirr : ∀ x, before x x = false)
    (htrans : ∀ x ∈ l, ∀ y ∈ l, ∀ z ∈ l, before x y = true → before y z = true → before x z = true) (h : bestOf before l = some c) :
    ∀ x ∈ l, before x c = false := by
  cases l with
  | nil => cases h
  | cons b l =>
    obtain rfl := Option.some.inj h
    exact foldl_better_first hirr b l htrans

theorem bestOf_isSome (h : c ∈ l) : (bestOf before l).isSome = true := by
  cases l with
  | nil => cases h
  | cons b l => rfl

/-- Equal handles answer false (R142). -/
theorem candBefore_irrefl (cls : Nat) (c : Cand) : candBefore cls c c = false := by simp [candBefore, precedes]

/-! The first match of a bank. -/

theorem State.firstMatch_some {bank tnum w : Nat} {bad : List Nat} (h : s.firstMatch bank tnum w key bad = some c) :
    c.bank = bank ∧ c.row ∉ bad ∧ (∃ tag, (c.row, tag) ∈ s.matchable bank tnum ∧ tag.len = c.len ∧ tag.gen = c.gen) ∧
      s.rowHits bank w c.row key = true := by
  obtain ⟨⟨row, tag⟩, hfind, rfl⟩ := Option.map_eq_some_iff.1 h
  obtain ⟨hbad, hhits⟩ : row ∉ bad ∧ s.rowHits bank w row key = true := by simpa using List.find?_some hfind
  exact ⟨rfl, hbad, ⟨tag, List.mem_of_find?_eq_some hfind, rfl, rfl⟩, hhits⟩

theorem State.firstMatch_isSome {bank tnum w row : Nat} {tag : Tag} {bad : List Nat} (h : (row, tag) ∈ s.matchable bank tnum)
    (hbad : row ∉ bad) (hhits : s.rowHits bank w row key = true) : (s.firstMatch bank tnum w key bad).isSome = true := by
  rw [State.firstMatch, Option.isSome_map, List.find?_isSome]
  exact ⟨(row, tag), h, by simpa using ⟨hbad, hhits⟩⟩

/-! The winner. -/

/-- The first matches of the banks of a lookup that are up (R199, R290). -/
def State.firstMatches (s : State) (df : TableDef) (key : Digits) (tags : List TagFault) (banks : List Nat) : List Cand :=
  (banks.filter (fun b => !s.bankDown b)).filterMap (fun b => s.firstMatch b (df.tid % 4096) df.units key (badRows tags b))

theorem State.mem_firstMatches {banks : List Nat} : c ∈ s.firstMatches df key tags banks ↔
    ∃ b, (b ∈ banks ∧ s.bankDown b = false) ∧ s.firstMatch b (df.tid % 4096) df.units key (badRows tags b) = some c := by
  simp [State.firstMatches]

/-- Outside M3 the winner of a lookup is the best of the first matches of its banks (R201). -/
theorem State.winners_first (banks : List Nat) : (s.winners false df key tags (s.activations false banks) (none, none)).1 =
    bestOf (candBefore df.cls) (s.firstMatches df key tags banks) := by
  simp [State.winners, State.activations, State.copyBanks, State.bestFrom, State.firstMatches, List.filter_map, Function.comp_def]

/-- Settles O38: the winner is the best of the first matches of the banks that are up (`State.winners_first`), so it is one of them
(`bestOf_mem`), none of them precedes it (`bestOf_first`), and there is one where one of these banks has a match (`bestOf_isSome`). -/
theorem winnerIsBest : Obligations.WinnerIsBest := by
  unfold Obligations.WinnerIsBest
  intro s df key banks tags up first before w
  have hfirst : ∀ c, c ∈ s.firstMatches df key tags banks ↔ first c := fun c => State.mem_firstMatches
  have hw : w = bestOf before (s.firstMatches df key tags banks) := State.winners_first banks
  refine ⟨fun c hc => ?isMatch, fun c hc htrans => ?best, fun b row tag hup hrow hbad hhits => ?someWinner⟩
  case isMatch =>
    have hmatch := (hfirst c).1 (bestOf_mem (hw.symm.trans hc))
    obtain ⟨b, hup, hb⟩ := hmatch
    obtain ⟨rfl, hbad, htag, hhits⟩ := State.firstMatch_some hb
    exact ⟨⟨c.bank, hup, hb⟩, hup, hbad, htag, hhits⟩
  case best =>
    simp only [← hfirst] at htrans ⊢
    exact bestOf_first (candBefore_irrefl df.cls) (fun x hx y hy z hz => htrans x y z hx hy hz) (hw.symm.trans hc)
  case someWinner =>
    obtain ⟨c, hc⟩ := Option.isSome_iff_exists.1 (State.firstMatch_isSome hrow hbad hhits)
    rw [hw]
    exact bestOf_isSome ((hfirst c).2 ⟨b, hup, hc⟩)

end Sys2Proof.Machine
end

section
/-! The order of sequences (R140) and direct-index lookups (R165, R187): their index, when they miss, and the bytes of a hit. -/
namespace Sys2Proof.Machine

/-- Settles O5: the difference that the model takes in the natural numbers is that of the integers, modulo 2^32. -/
theorem sequencesCompare : Obligations.SequencesCompare := by
  unfold Obligations.SequencesCompare
  intro a b
  have hdiff : (((b + 2 ^ 32 - a % 2 ^ 32) % 2 ^ 32 : Nat) : Int) = ((b : Int) - a) % 2 ^ 32 := by omega
  rw [← hdiff]
  simp only [seqEarlier, Bool.and_eq_true, decide_eq_true_eq]
  omega

/-! The index. -/

theorem leNat_take_succ (bs : Bytes) (n : Nat) : leNat (bs.take (n + 1)) = byteAt bs 0 + 256 * leNat ((bs.drop 1).take n) := by
  cases bs <;> simp [leNat, byteAt]

theorem byteAt_drop (bs : Bytes) (n i : Nat) : byteAt (bs.drop n) i = byteAt bs (n + i) := by
  simp [byteAt]

/-- A field of three bytes is little-endian (R9). -/
theorem fieldLE_three (bs : Bytes) (i : Nat) :
    fieldLE bs i 3 = byteAt bs i + 256 * byteAt bs (i + 1) + 65536 * byteAt bs (i + 2) := by
  simp only [fieldLE, leNat_take_succ, byteAt_drop, List.drop_drop, List.take_zero, leNat, Nat.add_zero, Nat.add_assoc]
  omega

/-- The index bytes stand behind the 16 bytes of the request's header (R187). -/
theorem keyIndex_eq (bs : Bytes) (off bits : Nat) : keyIndex bs off bits =
    (byteAt bs (16 + off) + 256 * byteAt bs (17 + off) + 65536 * byteAt bs (18 + off)) % 2 ^ bits := by
  have h17 : 16 + (off + 1) = 17 + off := by omega
  have h18 : 16 + (off + 2) = 18 + off := by omega
  rw [keyIndex, fieldLE_three, byteAt_drop, byteAt_drop, byteAt_drop, h17, h18]

/-! The lookup. -/

section
variable {s : State} {bs : Bytes} {m3 : Bool} {l : Look} {tb : TableRec}

/-- A direct-index lookup with index `x` misses (R165). -/
def State.directMiss (s : State) (tb : TableRec) (x : Nat) : Bool :=
  decide (tb.df.depth ≤ x) || (tb.df.zeroMiss && (s.diRead tb x).all (· = 0))

theorem State.directMiss_iff (x : Nat) :
    s.directMiss tb x = true ↔ tb.df.depth ≤ x ∨ (tb.df.zeroMiss = true ∧ ∀ b ∈ s.diRead tb x, b = 0) := by
  simp [State.directMiss]

/-- The pipe front decides a direct-index lookup (R165, R187). -/
theorem State.buildKey_direct (hdirect : tb.df.direct = true) (s : State) (bs : Bytes) (m3 : Bool) (l : Look) :
    let x := keyIndex bs (descOff l.desc) tb.df.indexBits
    s.buildKey bs m3 l tb = { l with
      df := some tb.df, index := x, data := if s.directMiss tb x then [] else s.diRead tb x, pre := some (b2n (s.directMiss tb x)) } := by
  intro x
  obtain hin | hout : x < tb.df.depth ∨ tb.df.depth ≤ x := Nat.lt_or_ge x tb.df.depth
  · simp [State.buildKey, State.directMiss, hdirect, x, hin]
  · simp [State.buildKey, State.directMiss, hdirect, x, hout]

/-- The resolution of a direct-index lookup gives it what its pipe front found, and nothing else happens (R207). -/
theorem State.resolveLook_direct (hdf : l.df = some tb.df) (hdirect : tb.df.direct = true) (s : State) (f : Search) (d base i : Nat) :
    s.resolveLook f d base i l = (s, { l with status := l.pre }) := by
  simp [State.resolveLook, hdf, hdirect]

end

/-- Settles O6: the pipe front decides the lookup (`State.buildKey_direct`), and the resolution takes over what it found
(`State.resolveLook_direct`). -/
theorem directLookups : Obligations.DirectLookups := by
  unfold Obligations.DirectLookups
  intro s bs m3 l tb hdirect off x miss y
  have hx : keyIndex bs off tb.df.indexBits = x := keyIndex_eq ..
  have hmiss : miss ↔ s.directMiss tb x = true := (State.directMiss_iff x).symm
  have hy : y = { l with
      df := some tb.df, index := x, data := if s.directMiss tb x then [] else s.diRead tb x, pre := some (b2n (s.directMiss tb x)) } :=
    hx ▸ State.buildKey_direct hdirect s bs m3 l
  clear_value y
  subst hy
  refine ⟨rfl, fun h => ?misses, fun h => ?hits, State.resolveLook_direct rfl hdirect s⟩
  case misses => simp [hmiss.1 h, b2n]
  case hits => simp [mt hmiss.2 h, b2n]

end Sys2Proof.Machine
end

section
/-! Records of a logical quay (R178, R184, R188, R352, R353, R408, R455, R465): what the charge of a record leaves, and what a record of each
type joins. -/
namespace Sys2Proof.Machine
variable {s : State} {t q : Nat} {bs : Bytes}

/-! The record on its quay. -/

/-- A peer may send records of three types (R455). -/
theorem byteAt_of_recordLength {n : Nat} (h : recordLength bs = some n) :
    byteAt bs 0 = 0x10 ∨ byteAt bs 0 = 0x20 ∨ byteAt bs 0 = 0x30 := by
  unfold recordLength at h
  split at h
  case h_1 h10 => exact .inl h10
  case h_2 h20 => exact .inr (.inl h20)
  case h_3 h30 => exact .inr (.inr h30)
  case h_4 => cases h

/-- A quay that is up is configured. -/
theorem State.hasPort_of_up (h : (s.link (.quay q)).up = true) : s.hasPort (.quay q) = true := by
  rw [State.hasPort, Table.has, Option.isSome_iff_ne_none]
  intro hnone
  have hreset : s.link (.quay q) = Link.reset := by simp [State.link, Table.findD, hnone]
  rw [hreset] at h
  exact absurd h (by decide)

theorem State.setLink_only (s : State) (p : Port) (l : Link) : s.setLink p l = { s with links := (s.setLink p l).links } := by
  cases p <;> unfold State.setLink
  case quay => dsimp only; split <;> rfl
  all_goals rfl

/-- The charge of a record fits its pool's limit (R466). -/
def Link.fits (l : Link) (bs : Bytes) : Bool :=
  creditFits (l.limits.getD (quayCharge bs).1 0) (l.charged.getD (quayCharge bs).1 0) (quayCharge bs).2

/-- The state once a record is charged to its pool and its arrival noted (R465, R578). -/
def State.chargedFor (s : State) (q : Nat) (bs : Bytes) : State :=
  (s.setLink (.quay q) ((s.link (.quay q)).charge (quayCharge bs).1 (quayCharge bs).2)).noteRecord

/-- A device that is awake and takes a record changes the quay's link and notes the arrival, and no more. -/
theorem State.charged_only (hawake : s.power.state = 0) (hup : (s.link (.quay q)).up = true) (bs : Bytes) :
    ∃ l p, s.chargedFor q bs = { s with links := l, power := p } ∧ p.accepted = true ∧
      ({ s with links := l } : State).link (.quay q) = (s.link (.quay q)).charge (quayCharge bs).1 (quayCharge bs).2 := by
  have hlink := State.link_setLink s _ ((s.link (.quay q)).charge (quayCharge bs).1 (quayCharge bs).2) (State.hasPort_of_up hup)
  unfold State.chargedFor State.noteRecord State.idleWake
  generalize (s.link (.quay q)).charge (quayCharge bs).1 (quayCharge bs).2 = c at hlink ⊢
  rw [State.setLink_only] at hlink ⊢
  exact ⟨_, _, by rw [if_neg (by simp [hawake])], rfl, hlink⟩

/-- A record of the length that its header gives comes on a quay that is up. -/
structure ComesWhole (s : State) (q : Nat) (bs : Bytes) : Prop where
  up : (s.link (.quay q)).up = true
  length : recordLength bs = some bs.length
  long : 16 ≤ bs.length

theorem ComesWhole.at (h : ComesWhole s q bs) (t : Nat) : ComesWhole (s.at t) q bs := ⟨by simpa using h.up, h.length, h.long⟩

theorem ComesWhole.receive (h : ComesWhole s q bs) {typ : Nat} (htype : byteAt bs 0 = typ) : s.receive (.quay q) typ bs =
    if (s.link (.quay q)).fits bs then
      (s.setLink (.quay q) ((s.link (.quay q)).charge (quayCharge bs).1 (quayCharge bs).2)).enter (.quay q) (quayMaster q) 0 0 bs false false
    else s.bumpHold Fld.QUY_ERR_COUNT_overrun 1 q := by
  have hshort := Nat.not_lt.2 h.long
  unfold Link.fits
  cases hfits : creditFits _ _ _ <;>
    simp only [State.receive, State.quayRecord, htype, h.up, h.length, hshort, hfits, bne_self_eq_false, Bool.false_eq_true, if_false, if_true,
      Bool.not_true, Bool.not_false, Bool.or_false]

/-! Records within their credit. -/

/-- The record is charged to its quay, and beside the time nothing has changed but the searches, the command engine and the scribes. -/
def TakenOn (s : State) (t q : Nat) (bs : Bytes) (s' : State) : Prop :=
  s'.link (.quay q) = (s.link (.quay q)).charge (quayCharge bs).1 (quayCharge bs).2 ∧ s'.power.accepted = true ∧
  s' = { s with
    clock := (s.at t).clock, start := (s.at t).start, links := s'.links, power := s'.power, search := s'.search, cmds := s'.cmds
    scribes := s'.scribes, pins := s'.pins, ring := s'.ring }

section
variable (h : ComesWhole s q bs) (hawake : s.power.state = 0) (hfits : (s.link (.quay q)).fits bs = true)
include h hawake hfits

/-- A record within its credit is charged and taken; `search`, `cmds` and `scribes` are the parts of the state that its type lets it join. -/
theorem ComesWhole.takes {c : Instr} {typ : Nat} (hrun : exec c s = .next ((s.at t).receive (.quay q) typ bs).settle)
    (htype : byteAt bs 0 = typ) {search : SearchCore} {cmds : Commands} {scribes : Scribes}
    (hjoins : ∀ (z : State) l p, z.noteRecord = { s.at t with links := l, power := p } →
      z.enter (.quay q) (quayMaster q) 0 0 bs false false =
        { s.at t with links := l, power := p, search := search, cmds := cmds, scribes := scribes }) :
    Answers c s (fun s' => TakenOn s t q bs s' ∧ s'.search = search ∧ s'.cmds = cmds ∧ s'.scribes = scribes) := by
  obtain ⟨l, p, hcharged, haccepted, hlink⟩ := (s.at t).charged_only (q := q) hawake (h.at t).up bs
  have htaken := (h.at t).receive htype
  simp only [State.link_at] at htaken hlink
  rw [if_pos hfits, hjoins _ l p (by simpa only [State.chargedFor, State.link_at] using hcharged)] at htaken
  exact Answers.of_eq hrun htaken ⟨⟨(State.link_settle ..).trans hlink, haccepted, rfl⟩, rfl, rfl, rfl⟩

/-- A search request waits in the lowest class of its own and its berth's (R188, R408). -/
theorem ComesWhole.search (htype : byteAt bs 0 = 0x10) : Answers (.searchRequest t (.quay q) bs) s (fun s' => TakenOn s t q bs s' ∧
    s'.search = { s.search with waiting := s.search.waiting ++ [⟨.quay q, quayMaster q, (s.at t).now, s.clock.count,
      max (byteAt bs 1 % 4) (s.berth (fieldLE bs 2 2 % 16384)).record.ceiling, bs, 0, false, false⟩] } ∧
    s'.cmds = s.cmds ∧ s'.scribes = s.scribes) := by
  refine h.takes hawake hfits rfl htype fun z l p hz => ?_
  simp only [State.enter, htype, hz, State.enterSearch, Nat.max_zero]
  rfl

/-- A command joins the FIFO of its quay (R178). -/
theorem ComesWhole.command (htype : byteAt bs 0 = 0x30) : Answers (.tableCommand t (.quay q) bs) s (fun s' => TakenOn s t q bs s' ∧
    s'.search = s.search ∧
    s'.cmds = ((s.at t).setFifo (.quay q)
      ((s.at t).fifo (.quay q) ++ [⟨bs, quayMaster q, (s.at t).now + 64, none, 0, false⟩])).cmds ∧
    s'.scribes = s.scribes) := by
  refine h.takes hawake hfits rfl htype fun z l p hz => ?_
  simp only [State.enter, htype, hz, State.enterCommand]
  rfl

/-- A chunk for an open stream, whose header follows its table, joins the chunk queue (R352, R353). -/
theorem ComesWhole.chunk {n : Nat} {x : Stream} (htype : byteAt bs 0 = 0x20) (hheader : chunkHeaderOk bs = true)
    (hopen : s.openStream (fieldLE bs 4 3) = some (n, x)) (hthawed : (s.at t).frozen (quayMaster q) = false) :
    Answers (.streamChunk t (.quay q) bs) s (fun s' => TakenOn s t q bs s' ∧ s'.search = s.search ∧ s'.cmds = s.cmds ∧
      s'.scribes = { s.scribes with queue := s.scribes.queue ++ [⟨.quay q, (s.at t).now,
        max (byteAt bs 1 % 4) (s.berth (fieldLE bs 12 2 % 16384)).record.ceiling, x.set, n, bs, 0, false⟩] }) := by
  refine h.takes hawake hfits rfl htype fun z l p hz => ?_
  have hopen' : ({ s.at t with links := l, power := p } : State).openStream (fieldLE bs 4 3) = some (n, x) := hopen
  have hthawed' : ({ s.at t with links := l, power := p } : State).frozen (quayMaster q) = false := hthawed
  simp only [State.enter, htype, hz, State.enterChunk, hheader, hopen', hthawed', Nat.max_zero, Bool.not_true, Bool.or_self,
    Bool.false_eq_true, if_false]
  rfl

end

theorem State.fifo_setFifo_ne (s : State) {src other : Source} (l : List Cmd) (h : sourceKey other ≠ sourceKey src) :
    (s.setFifo src l).fifo other = s.fifo other := by
  unfold State.setFifo State.fifo
  dsimp only
  split
  · exact Table.findD_del_ne _ _ _ _ h
  · exact Table.findD_put_ne _ _ _ _ _ h

/-! Records beyond their credit. -/

theorem ComesWhole.overruns {c : Instr} {typ : Nat} (h : ComesWhole s q bs) (hfits : (s.link (.quay q)).fits bs = false)
    (hrun : exec c s = .next ((s.at t).receive (.quay q) typ bs).settle) (htype : byteAt bs 0 = typ) :
    Leaves c s ((s.at t).bumpHold Fld.QUY_ERR_COUNT_overrun 1 q) := by
  refine Leaves.of_eq hrun (((h.at t).receive htype).trans (if_neg ?_))
  simp [hfits]

/-- Settles O34: a record within its credit is taken by what its type is (`ComesWhole.search`, `ComesWhole.command`, `ComesWhole.chunk`);
beyond it, whatever its type, it is counted (`ComesWhole.overruns`). -/
theorem quayRecordsTaken : Obligations.QuayRecordsTaken := by
  unfold Obligations.QuayRecordsTaken
  intro s t q bs l charge taken hawake hup hlength hlong
  have h : ComesWhole s q bs := ⟨hup, hlength, hlong⟩
  refine ⟨fun hfits => ⟨fun htype => ?search, fun htype => ?command, fun n x htype hheader hopen hthawed => ?chunk⟩, ?overrun⟩
  case search =>
    obtain ⟨s', hrun, htaken, hsearch, hcmds, hscribes⟩ := h.search (t := t) hawake hfits htype
    exact ⟨s', hrun, htaken, hcmds, hscribes, hsearch⟩
  case command =>
    obtain ⟨s', hrun, htaken, hsearch, hcmds, hscribes⟩ := h.command (t := t) hawake hfits htype
    have hfifo := State.fifo_of_cmds s' _ (congrArg Commands.fifos hcmds)
    refine ⟨s', hrun, htaken, hsearch, hscribes, ?_, fun src hsrc => (hfifo src).trans (State.fifo_setFifo_ne _ _ hsrc)⟩
    rw [hfifo, State.fifo_setFifo_records, List.map_append]
    rfl
  case chunk => exact h.chunk hawake hfits htype hheader hopen hthawed
  case overrun =>
    intro hfits c _ hsearch hcommand hchunk
    obtain htype | htype | htype := byteAt_of_recordLength hlength
    · exact hsearch htype ▸ h.overruns hfits rfl htype
    · exact hchunk htype ▸ h.overruns hfits rfl htype
    · exact hcommand htype ▸ h.overruns hfits rfl htype

end Sys2Proof.Machine
end

section
/-! What the searches wait for after their resolution (R203 to R216, R549): the data that DRAM returns or that comes too late, the
source that decides a chained lookup, and the reads that decide a disagreement. -/
namespace Sys2Proof.Machine
variable {s x : State} {t d i : Nat} {f : Search} {l l' src : Look} {df : TableDef} {c : Cand} {how : DramRead} {v : MirrorReads}

/-! A real-time read that leaves the buffer of its stack. -/

/-- A returned real-time read changes the queues and the controller of the pseudo-channels alone (R555, R556). -/
theorem State.rtReturn_only (s : State) (a n : Nat) : s.rtReturn a n =
    { s with memQueues := (s.rtReturn a n).memQueues, dramCtl := (s.rtReturn a n).dramCtl } := by
  let y := s.setWaiting ((dramPlace a).pc / 32) ((s.stack ((dramPlace a).pc / 32)).waiting - 1)
  have hissued : y.dramReturn 1 a n = y.issuesAs (y.dramReturn 1 a n) := (issuesOnly_dramReturn y 1 a n).eq
  change (y.dramReturn 1 a n).lateRefresh _ = { s with
    memQueues := ((y.dramReturn 1 a n).lateRefresh _).memQueues, dramCtl := ((y.dramReturn 1 a n).lateRefresh _).dramCtl }
  generalize y.dramReturn 1 a n = z at hissued ⊢
  rw [hissued]
  unfold State.lateRefresh
  split <;> rfl

theorem dramOnly_rtReturn (s : State) (a n : Nat) : DramOnly s (s.rtReturn a n) := by
  rw [State.rtReturn_only]
  rfl

@[simp] theorem State.rtReturn_dram (s : State) (a n : Nat) : (s.rtReturn a n).dram = s.dram :=
  (congrArg State.dram (s.rtReturn_only a n) :)

@[simp] theorem State.rtReturn_regs (s : State) (a n : Nat) : (s.rtReturn a n).regs = s.regs :=
  (congrArg State.regs (s.rtReturn_only a n) :)

theorem keepsSearch_rtReturn (s : State) (a n : Nat) : KeepsSearch s (s.rtReturn a n) := (dramOnly_rtReturn ..).keepsSearch

/-- A read that does not decode is shown in MEM_STATUS (R549). -/
theorem State.countEnd_uncorrectable_shown (s : State) (a : Nat) :
    (s.countEnd a .uncorrectable).bit Fld.MEM_STATUS_uncorrectable = true := by
  have hposted : ∀ (y : State) (bytes : Bytes),
      (y.postFault 3 0xB bytes).bit Fld.MEM_STATUS_uncorrectable = y.bit Fld.MEM_STATUS_uncorrectable := fun y bytes =>
    congrArg (· != 0) (State.fld_postFault y _ 3 0xB bytes (by decide) (by decide) (by decide))
  exact (hposted ..).trans (State.bit_raise_same _ _ 0 rfl (by decide) (Reg.resetNat_lt _))

/-! A lookup that changes. -/

theorem filterMap_range_getElem? {α β : Type} (g : Nat → α → β) (xs : List α) :
    (List.range xs.length).filterMap (fun j => (xs[j]?).map (g j)) = xs.mapIdx g := by
  induction xs generalizing g with
  | nil => rfl
  | cons a xs ih => simp [List.range_succ_eq_map, List.mapIdx_cons, ← ih, List.filterMap_map]

theorem mapIdx_ite_eq_set {α : Type} (xs : List α) (i : Nat) (a : α) :
    xs.mapIdx (fun j b => if j = i then a else b) = xs.set i a := by
  refine List.ext_getElem (by simp) fun j h _ => ?_
  simp [List.getElem_set, eq_comm]

/-- The searches with one lookup of the search `id` changed. -/
def State.searchWith (s : State) (id i : Nat) (l : Look) : SearchCore :=
  { s.search with flights := s.search.flights.map (fun g => if g.id = id then { g with looks := g.looks.set i l } else g) }

theorem State.setLook_of_search (h : x.search = s.search) (id i : Nat) (l : Look) :
    x.setLook id i l = { x with search := s.searchWith id i l } := by
  simp only [State.setLook, State.searchWith, h, filterMap_range_getElem?, mapIdx_ite_eq_set]

/-! The data of a winner (R203 to R205, R219, R549). -/

/-- A lookup whose copies agree waits for its winner's data. -/
structure AwaitsData (f : Search) (d : Nat) (l : Look) (df : TableDef) (c : Cand) : Prop where
  dispatched : f.d = some d
  reading : l.reading = true
  agreed : l.disagree = false
  winner : l.winner = some c
  table : l.df = some df

/-- Beside the time nothing has changed but the searches and what reads of DRAM change, and DRAM holds what it held. -/
def ReadsOnly (s s' : State) (t : Nat) : Prop := s'.dram = s.dram ∧
  s' = ({ s with clock := (s.at t).clock, start := (s.at t).start, search := s'.search, pins := s'.pins, ring := s'.ring }).dramAs s'

theorem DramOnly.readsOnly (h : DramOnly (s.at t) x) (hdram : x.dram = s.dram) (core : SearchCore) :
    ReadsOnly s ({ x with search := core }).settle t := by
  refine ⟨hdram, ?_⟩
  rw [h.eq]
  rfl

@[simp] theorem State.adFor_at (s : State) (t len view : Nat) : (s.at t).adFor len view = s.adFor len view := rfl

/-- What a lookup holds once the read of its winner's data has come back (R204, R549). -/
def State.dataLook (s : State) (l : Look) (df : TableDef) (c : Cand) (how : DramRead) : Look :=
  if s.readEnd (adAddr c.len) how = .uncorrectable then { l with reading := false, status := some 4 }
  else { l with reading := false, status := some 0, data := (s.adFor c.len l.view).take df.adBytes }

/-- The state once a real-time read of associated data is counted and has left its buffer. -/
def State.dataRead (s : State) (c : Cand) (how : DramRead) : State := (s.countRead (adAddr c.len) how).rtReturn (adAddr c.len) 32

theorem dramOnly_dataRead (s : State) (c : Cand) (how : DramRead) : DramOnly s (s.dataRead c how) :=
  (dramOnly_countRead ..).trans (dramOnly_rtReturn ..)

theorem State.dataRead_dram (s : State) (c : Cand) (how : DramRead) : (s.dataRead c how).dram = s.dram := by simp [State.dataRead]

theorem State.dataRead_shown (h : s.readEnd (adAddr c.len) how = .uncorrectable) :
    (s.dataRead c how).bit Fld.MEM_STATUS_uncorrectable = true := by
  refine (State.bit_of_regs (State.rtReturn_regs ..) _ _).trans ?_
  rw [State.countRead, h]
  exact State.countEnd_uncorrectable_shown ..

/-- A read that returns within its window gives its lookup what it brings. -/
theorem AwaitsData.returns (h : AwaitsData f d l df c) (hfind : s.search.flights.find? (fun g => g.id == f.id) = some f)
    (hlook : f.looks[i]? = some l) (hissued : d + (if descChain l.desc then 608 else 352) ≤ (s.at t).now)
    (hopen : (s.at t).now ≤ d + windowEnd f.mode) : Answers (.realTimeReadReturn t f.id i how) s (fun s' => ReadsOnly s s' t ∧
      s'.search = s.searchWith f.id i (s.dataLook l df c how) ∧
      (s.readEnd (adAddr c.len) how = .uncorrectable → s'.bit Fld.MEM_STATUS_uncorrectable = true)) := by
  have honly := dramOnly_dataRead (s.at t) c how
  have hset := State.setLook_of_search (s := s) (honly.keepsSearch.1 :) f.id i (s.dataLook l df c how)
  refine Answers.of_eq rfl (Eq.trans ?_ hset) ⟨honly.readsOnly (State.dataRead_dram ..) _, rfl, fun hbad => ?_⟩
  · have hin : ¬ (d + windowEnd f.mode < (s.at t).now ∨ (s.at t).now < d + (if descChain l.desc then 608 else 352)) := by omega
    simp [hfind, hlook, h.dispatched, h.winner, h.table, h.reading, h.agreed, hin, State.dataLook, State.dataRead]
  · rw [State.bit_settle]
    exact State.dataRead_shown (s := s.at t) (by rwa [State.readEnd_at])

/-- A read that is still out when the window has ended makes its lookup late (R204, R219). -/
theorem State.lateSearch_one (h : AwaitsData f d l df c) (hlooks : f.looks = [l]) : s.lateSearch f =
    (s.rtReturn (adAddr c.len) 32, { f with looks := [{ l with reading := false, status := some 4 }] }) := by
  simp [State.lateSearch, hlooks, State.lateLook, h.reading, h.agreed, h.winner]

theorem AwaitsData.late (h : AwaitsData f d l df c) (hflights : s.search.flights = [f]) (hlooks : f.looks = [l])
    (hres : f.resolved = true) (hnone : f.assembled = none) (hend : d + windowEnd f.mode + 1 ≤ (s.at t).now) :
    Answers (.dataLate t) s (fun s' => ReadsOnly s s' t ∧
      s'.search = { s.search with flights := [{ f with looks := [{ l with reading := false, status := some 4 }] }] }) := by
  refine Answers.of_eq rfl (State.overFlights_one (s := s.at t) hflights ?_ (State.lateSearch_one h hlooks))
    ⟨(dramOnly_rtReturn ..).readsOnly (State.rtReturn_dram ..) _, ?_⟩
  · have hreached : d + (windowEnd f.mode + 1) ≤ (s.at t).now := hend
    simp [hres, hnone, Search.reached, h.dispatched, hreached]
  · rw [State.settle_search, (keepsSearch_rtReturn ..).1]
    rfl

/-! A chained lookup decided from its source (R208 to R211). -/

/-- A flight of two lookups that comes to its chained pipe front: the second lookup has the first for its source. -/
structure ChainsOne (s : State) (f : Search) (d now : Nat) (src l : Look) : Prop where
  flights : s.search.flights = [f]
  dispatched : f.d = some d
  resolved : f.resolved = true
  unended : f.status = none
  unassembled : f.assembled = none
  reached : d + 360 ≤ now
  looks : f.looks = [src, l]
  source : descChain src.desc = false
  chained : descChain l.desc = true
  first : descSrc l.desc = 0
  pending : l.status = none
  waits : l.frontDone = false

/-- The chained lookup alone passes its front. -/
theorem ChainsOne.chainSearch {now : Nat} (h : ChainsOne s f d now src l) (hl : s.chainFront f l src = (x, l')) :
    s.chainSearch f = (x, { f with looks := [src, l'] }) := by
  simp [State.chainSearch, h.looks, h.source, h.chained, h.first, h.pending, h.waits, hl]

/-- The state once the chained lookup of the one flight has passed its front. -/
def State.chainedTo (s : State) (f : Search) (src l : Look) : State :=
  { s with search := { s.search with flights := [{ f with looks := [src, l] }] } }

theorem ChainsOne.front (h : ChainsOne (s.at t) f d (s.at t).now src l) (hl : (s.at t).chainFront f l src = (x, l')) :
    Leaves (.chainedPipeFront t) s (x.chainedTo f src l') := by
  refine Leaves.of_eq rfl (State.overFlights_one (s := s.at t) h.flights ?_ (h.chainSearch hl))
  simp [h.resolved, h.unended, h.unassembled, Search.reached, h.dispatched, h.reached]

/-- A chained lookup that its source ends with a status (R211). -/
def Look.chainEnd (l : Look) (st : Nat) : Look := { l with status := some st, tid := 0, df := none }

/-- A source that has missed (R211, case 1). -/
theorem State.chainFront_misses (hmiss : src.status = some 1) : s.chainFront f l src = (s, l.chainEnd 1) := by
  simp [State.chainFront, hmiss, Look.chainEnd]

/-- A source of a table that has hit, or that is still open. -/
structure HasHit (src : Look) (df : TableDef) : Prop where
  table : src.df = some df
  good : src.status = none ∨ src.status = some 0

/-- What the view of a chain word decides (R210, R211, cases 4 to 8). -/
def State.wordOutcome (s : State) (f : Search) (l : Look) : State × Look :=
  match l.df, l.pre with
  | none, some 8 => (s.violation f.req.master 1 0, { l with status := some 8 })
  | none, some n => (s, { l with status := some n })
  | none, none => (s, { l with status := some 1 })
  | some _, _ => (s, { l with frontDone := true })

theorem State.wordOutcome_goesOn {ldf : TableDef} (hdf : l.df = some ldf) : s.wordOutcome f l = (s, { l with frontDone := true }) := by
  simp only [State.wordOutcome, hdf]

theorem State.wordOutcome_denied (hdf : l.df = none) (hpre : l.pre = some 8) :
    s.wordOutcome f l = (s.violation f.req.master 1 0, { l with status := some 8 }) := by
  simp only [State.wordOutcome, hdf, hpre]

theorem State.wordOutcome_noTable (hdf : l.df = none) (hpre : l.pre = some 0xA) : s.wordOutcome f l = (s, { l with status := some 0xA }) := by
  simp [State.wordOutcome, hdf, hpre]

/-- A hit of a ternary table whose copies disagree (R211, case 2). -/
theorem HasHit.suspect (h : HasHit src df) (hodd : src.disagree = true) (hwinner : src.winner ≠ none) (hdir : df.direct = false) :
    s.chainFront f l src = (s, l.chainEnd 3) := by
  have hsome := Option.isSome_iff_ne_none.2 hwinner
  obtain hst | hst := h.good <;> simp [State.chainFront, h.table, hst, hodd, hsome, hdir, Look.chainEnd]

section
variable (h : HasHit src df) (hagree : src.disagree = false)
include h hagree

/-- A hit of a ternary table without associated data holds no chain word: no identifier (R211, case 4). -/
theorem HasHit.noWord (hdir : df.direct = false) (hwinner : src.winner ≠ none) (hno : df.adBytes = 0) :
    s.chainFront f l src = (s, l.chainEnd 0xB) := by
  have hsome := Option.isSome_iff_ne_none.2 hwinner
  obtain hst | hst := h.good <;> simp [State.chainFront, h.table, hst, hagree, hsome, hdir, hno, Look.chainEnd]

/-- A hit of a ternary table whose data the hot store did not give (R211, case 3). -/
theorem HasHit.late (hdir : df.direct = false) (hwinner : src.winner ≠ none) (had : df.adBytes ≠ 0) (hpre : src.pre = none) :
    s.chainFront f l src = (s, l.chainEnd 4) := by
  have hsome := Option.isSome_iff_ne_none.2 hwinner
  obtain hst | hst := h.good <;> simp [State.chainFront, h.table, hst, hagree, hsome, hdir, had, hpre, Look.chainEnd]

/-- A source that gave its chain word in time. -/
theorem HasHit.given (hword : if df.direct then src.pre = some 0 else src.winner ≠ none ∧ src.pre = some 0 ∧ df.adBytes ≠ 0) :
    s.chainFront f l src = s.wordOutcome f l := by
  cases hdir : df.direct with
  | true =>
    have hpre : src.pre = some 0 := by simpa [hdir] using hword
    obtain hst | hst := h.good <;> simp [State.chainFront, h.table, hst, hagree, hdir, hpre] <;> rfl
  | false =>
    obtain ⟨hwinner, hpre, had⟩ : src.winner ≠ none ∧ src.pre = some 0 ∧ df.adBytes ≠ 0 := by simpa [hdir] using hword
    have hsome := Option.isSome_iff_ne_none.2 hwinner
    obtain hst | hst := h.good <;> simp [State.chainFront, h.table, hst, hagree, hdir, hpre, hsome, had] <;> rfl

end

/-! A disagreement decided in its stage (R212 to R215). -/

/-- The report of a disagreement leaves the searches and the counters alone (R215, R289). -/
theorem keepsSearch_reportDisagree (s : State) (df : TableDef) (p m w : Option Cand) (status : Nat) :
    KeepsSearch s (s.reportDisagree df p m w status) := by
  unfold State.reportDisagree State.integrity
  refine KeepsSearch.trans ?_ (dramOnly_postFault ..).keepsSearch
  exact .each (fun _ _ => (keepsSearch_queuePrio ..).trans (keepsSearch_queuePrio ..)) s _

/-- The winner of one copy validates (R213). -/
def State.validWinner (s : State) (df : TableDef) (l : Look) (pass : Bool) (c : Cand) : Bool :=
  s.validates df l.key pass (s.shadowBank c.bank c.row) c

/-- A lookup whose validation gave it a winner, with its data or without (R214). -/
def State.validLook (s : State) (l : Look) (df : TableDef) (c : Cand) (lost : Bool) : Look :=
  { l with
    status := some (if lost then 4 else 2), winner := some c, mirror := some c, reading := false
    data := if l.reading && !lost then (s.adFor c.len l.view).take df.adBytes else [] }

/-- A lookup of which no winner validates (R214). -/
def Look.suspect (l : Look) : Look := { l with status := some 3, winner := none, mirror := none, reading := false }

/-- The reads of a validation, and its report, leave the searches and the counters alone. -/
theorem keepsSearch_validation (s : State) (df : TableDef) (l : Look) (w : Option Cand) (status : Nat) :
    KeepsSearch s ((s.each (s.lookReads df l) fun x a => x.rtReturn a.1 a.2).reportDisagree df l.winner l.mirror w status) :=
  (KeepsSearch.each (fun _ _ => keepsSearch_rtReturn ..) s _).trans (keepsSearch_reportDisagree ..)

/-- A stamp and an increment that fall due join those that waited. -/
theorem KeepsSearch.hitUpdate_updates (h : KeepsSearch s x) (n : Nat) :
    (x.hitUpdate c n).counters.updates = queueUpdate ⟨c.len, c.gen, n⟩ s.counters.updates := by
  rw [State.hitUpdate, h.2.2]

/-- The one winner that validates is the lookup's, and its update falls due (R214, R215). -/
theorem State.decideMirror_one {p m : Option Cand} {came : Bool} (hp : l.winner.filter (s.validWinner df l v.primaryPass) = p)
    (hm : l.mirror.filter (s.validWinner df l v.mirrorPass) = m)
    (hone : p = some c ∧ m = none ∧ came = v.primaryData ∨ p = none ∧ m = some c ∧ came = v.mirrorData) :
    ∃ x, s.decideMirror d df l v = (x.hitUpdate c (d + 1376), s.validLook l df c (l.reading && !came)) ∧ KeepsSearch s x := by
  unfold State.validWinner at hp hm
  have hlost : (!l.reading || came) = !(l.reading && !came) := by simp
  generalize (l.reading && !came) = lost at hlost ⊢
  refine ⟨_, ?_, keepsSearch_validation s df l (some c) (if lost then 4 else 2)⟩
  obtain ⟨rfl, rfl, rfl⟩ | ⟨rfl, rfl, rfl⟩ := hone
  · cases lost <;> simp [State.decideMirror, hp, hm, bestOf, State.validLook, hlost]
  · cases lost <;> simp [State.decideMirror, hp, hm, bestOf, State.validLook, hlost]

/-- Where no winner validates, the lookup has none (R214). -/
theorem State.decideMirror_none (hp : l.winner.filter (s.validWinner df l v.primaryPass) = none)
    (hm : l.mirror.filter (s.validWinner df l v.mirrorPass) = none) :
    ∃ x, s.decideMirror d df l v = (x, l.suspect) ∧ KeepsSearch s x := by
  unfold State.validWinner at hp hm
  refine ⟨_, ?_, keepsSearch_validation s df l none 3⟩
  simp [State.decideMirror, hp, hm, bestOf, Look.suspect]

/-- A lookup of a search stands in its validation stage, its copies in disagreement (R212, R218). -/
structure Validating (s : State) (f : Search) (d i now : Nat) (l : Look) (df : TableDef) : Prop where
  found : s.search.flights.find? (fun g => g.id == f.id) = some f
  dispatched : f.d = some d
  look : f.looks[i]? = some l
  odd : l.disagree = true
  pending : l.status = none
  table : l.df = some df
  opened : d + 1120 ≤ now
  closes : now < d + 1376

/-- The validation leaves the lookup as it is decided, and what the decision has left. -/
theorem Validating.decides (h : Validating s f d i (s.at t).now l df) (hl : (s.at t).decideMirror d df l v = (x, l'))
    (hx : x.search = s.search) {p : State → Prop} (hp : p { x with search := s.searchWith f.id i l' }.settle) :
    Answers (.mirrorValidation t f.id i v) s p := by
  refine Answers.of_eq rfl (Eq.trans ?_ (State.setLook_of_search hx f.id i l')) hp
  simp [h.found, h.look, h.dispatched, h.table, h.odd, h.pending, h.opened, h.closes, hl]

/-- Settles O39: a read that returns is `AwaitsData.returns`, one that is still out `AwaitsData.late`; the chained pipe front is
`ChainsOne.front` with the case of R211 that `State.chainFront` comes to; and a validation is `Validating.decides` with what
`State.decideMirror` answers. -/
theorem dataChainsAndMirrors : Obligations.DataChainsAndMirrors := by
  unfold Obligations.DataChainsAndMirrors
  refine ⟨?data, ?chains, ?mirrors⟩
  case data =>
    intro s t f d l df c hd hreading hagree hwinner hdf only
    have h : AwaitsData f d l df c := ⟨hd, hreading, hagree, hwinner, hdf⟩
    refine ⟨?_, h.late⟩
    intro i how hfind hlook hissued hopen flights
    obtain ⟨s', hrun, honly, hsearch, hshown⟩ := h.returns (how := how) hfind hlook hissued hopen
    refine ⟨fun hgood => ⟨s', hrun, honly, ?_⟩, fun hbad => ⟨s', hrun, honly, ?_, hshown hbad⟩⟩
    · rw [hsearch, State.dataLook, if_neg hgood]
      rfl
    · rw [hsearch, State.dataLook, if_pos hbad]
      rfl
  case chains =>
    intro s t f d src l hflights hd hres hstatus hnone hnow hlooks hsrc hchain hfirst hpending hwaits becomes ends
    have h : ChainsOne (s.at t) f d (s.at t).now src l :=
      ⟨hflights, hd, hres, hstatus, hnone, hnow, hlooks, hsrc, hchain, hfirst, hpending, hwaits⟩
    refine ⟨fun hmiss => h.front (State.chainFront_misses hmiss), fun df hdf hgood => ?_⟩
    have hit : HasHit src df := ⟨hdf, hgood⟩
    refine ⟨fun hodd hwinner hdir => h.front (hit.suspect hodd hwinner hdir), fun hagree hword => ?given,
      fun hagree hdir hwinner hno => h.front (hit.noWord hagree hdir hwinner hno),
      fun hagree hdir hwinner had hpre => h.front (hit.late hagree hdir hwinner had hpre)⟩
    have hview := hit.given (s := s.at t) (f := f) (l := l) hagree hword
    exact ⟨fun ldf hldf => h.front (hview.trans (State.wordOutcome_goesOn hldf)),
      fun hldf hpre => h.front (hview.trans (State.wordOutcome_noTable hldf hpre)),
      fun hldf hpre => ⟨_, h.front (hview.trans (State.wordOutcome_denied hldf hpre)), rfl⟩⟩
  case mirrors =>
    intro s t f d i l df v hd hfind hlook hodd hpending hdf hopened hcloses ok none_ flights decided
    have h : Validating s f d i (s.at t).now l df := ⟨hfind, hd, hlook, hodd, hpending, hdf, hopened, hcloses⟩
    have hnone : ∀ {pass w}, none_ pass w → w.filter ((s.at t).validWinner df l pass) = none := fun hw =>
      Option.filter_eq_none_iff.2 fun c hc => Bool.eq_false_iff.1 (hw c hc)
    have hsome : ∀ {pass w c}, w = some c → ok pass c = true → w.filter ((s.at t).validWinner df l pass) = some c := fun hw hc =>
      hw ▸ Option.filter_some_pos hc
    have hdecided : ∀ {c lost}, (∃ x, (s.at t).decideMirror d df l v = (x.hitUpdate c (d + 1376), (s.at t).validLook l df c lost) ∧
        KeepsSearch (s.at t) x) → decided c lost := fun ⟨x, hx, hkeep⟩ =>
      h.decides hx hkeep.1 ⟨rfl, hkeep.hitUpdate_updates _⟩
    refine ⟨fun p hp hok hm => hdecided (State.decideMirror_one (hsome hp hok) (hnone hm) (.inl ⟨rfl, rfl, rfl⟩)),
      fun m hm hok hp => hdecided (State.decideMirror_one (hnone hp) (hsome hm hok) (.inr ⟨rfl, rfl, rfl⟩)), fun hp hm => ?_⟩
    obtain ⟨x, hx, hkeep⟩ := State.decideMirror_none (d := d) (hnone hp) (hnone hm)
    exact h.decides hx hkeep.1 ⟨rfl, hkeep.2.2⟩

end Sys2Proof.Machine
end

section
/-! What errors in the tags that activations read leave alone, with the lines and the repairs that they queue (R266, R275, R278, R283). -/
namespace Sys2Proof.Machine
variable {s x y : State}

/-- Only the scrubber, and what is counted and shown, stand otherwise. -/
def ScrubNotes (s x : State) : Prop := x = { s with
  regs := x.regs, rc := x.rc, setAt := x.setAt, setBits := x.setBits, freeCounter := x.freeCounter, scrub := x.scrub }

theorem ScrubNotes.eq (h : ScrubNotes s x) : x = { s with
    regs := x.regs, rc := x.rc, setAt := x.setAt, setBits := x.setBits, freeCounter := x.freeCounter, scrub := x.scrub } := h

theorem ScrubNotes.refl (s : State) : ScrubNotes s s := rfl

theorem ScrubNotes.trans (h : ScrubNotes s x) (k : ScrubNotes x y) : ScrubNotes s y := by
  unfold ScrubNotes at *
  rw [h] at k
  exact k

theorem scrubNotes_bump (s : State) (f : Fld) (n i : Nat) : ScrubNotes s (s.bump f n i) := rfl

theorem scrubNotes_raise (s : State) (f : Fld) (i : Nat) : ScrubNotes s (s.raise f i) := rfl

theorem scrubNotes_queuePrio (s : State) (bank line : Nat) (verify : Bool) : ScrubNotes s (s.queuePrio bank line verify) := by
  unfold State.queuePrio
  split <;> rfl

theorem scrubNotes_queueRepair (s : State) (bank : Nat) (k : RepairKind) : ScrubNotes s (s.queueRepair bank k) := by
  unfold State.queueRepair
  split <;> rfl

theorem scrubNotes_tagLost (s : State) (bank row : Nat) : ScrubNotes s (s.tagLost bank row) := by
  have hnoted := ((scrubNotes_raise s Fld.ARY_SCRUB_STATUS_tag_lost 0).trans
    (scrubNotes_bump _ Fld.ARY_INTEG_COUNT1_tag_uncorr 1 0)).trans (scrubNotes_queueRepair _ bank (.emptyRow row))
  unfold State.tagLost
  dsimp only
  split
  · exact hnoted
  · exact hnoted.trans rfl

/-- Errors in the tags that activations read are counted and queued for the scrubber alone (R266, R283). -/
theorem scrubNotes_tagFaults (s : State) (banks : List Nat) (tags : List TagFault) : ScrubNotes s (s.tagFaults banks tags) := by
  refine State.each_of_step (R := ScrubNotes) .refl .trans (fun z e => ?_) s _
  split
  · exact scrubNotes_bump ..
  · exact (scrubNotes_tagLost ..).trans (scrubNotes_queuePrio ..)

theorem ScrubNotes.observe (h : ScrubNotes s x) : x.observe = s.observe := (congrArg State.observe h.eq :)

theorem ScrubNotes.cmds (h : ScrubNotes s x) : x.cmds = s.cmds := (congrArg State.cmds h.eq :)

theorem State.tagFaults_nil (s : State) (banks : List Nat) : s.tagFaults banks [] = s := rfl

end Sys2Proof.Machine
end

section
/-! Traces (R381 to R384): the banks that an activation visits, the rows that it finds, and the completion of a trace that has visited all. -/
namespace Sys2Proof.Machine
variable {s : State} {t : Nat} {tags : List TagFault} {x : Trace} {tb : TableRec} {df : TableDef}

/-- The rows that a trace finds in a bank: none in one that is down. -/
def State.foundIn (s : State) (df : TableDef) (tags : List TagFault) (key mask : Digits) (bank : Nat) : List TraceRow :=
  if s.bankDown bank = true then [] else s.traceRows bank df.units df.tid key mask (badRows tags bank)

/-- A trace that has visited some more banks. -/
def State.visit (s : State) (df : TableDef) (tags : List TagFault) (x : Trace) (banks : List Nat) : Trace :=
  { x with
    rows := x.rows ++ banks.flatMap (s.foundIn df tags x.key x.mask)
    more := x.more || banks.any (fun b => (s.foundIn df tags x.key x.mask b).length == 64)
    visited := x.visited ++ banks }

theorem State.foldl_traceBank (h : x.last = s.clock.grid) (banks : List Nat) :
    banks.foldl (fun y b => s.traceBank df tags y b) x = s.visit df tags x banks := by
  induction banks generalizing x with
  | nil => simp [State.visit]
  | cons b banks ih =>
    rw [List.foldl_cons, ih rfl]
    simp [State.visit, State.traceBank, State.foundIn, ← h, Bool.or_assoc]

/-- A trace at its first activation: its banks are those that the chart lists now. -/
def State.startTrace (s : State) (tb : TableRec) (x : Trace) : Trace :=
  { x with
    banks := some (tb.chart.traceBanks x.key x.mask), first := s.clock.grid, last := s.clock.grid, version := tb.chart.version }

/-- The state after the activations of the first `n` banks, with the tag errors that they have read. -/
def State.activated (s : State) (tags : List TagFault) (banks : List Nat) (n : Nat) : State :=
  (s.useTrace n).tagFaults ((banks.take n).filter (fun b => !s.bankDown b)) tags

/-- A first activation visits as many banks as there are operations left; the trace ends with the last bank. -/
theorem State.runTrace_starts (ht : s.table x.tid = some tb) (hnone : x.banks = none) {banks : List Nat}
    (hbanks : tb.chart.traceBanks x.key x.mask = banks) {n : Nat} (hn : min s.traceLeft banks.length = n) : s.runTrace tags x =
      if banks.length ≤ n then (s.activated tags banks n).setResult x.id
        (0, 0, 0, 0, (s.visit tb.df tags (s.startTrace tb x) (banks.take n)).payload tb.df.cls) (s.clock.grid + 1)
      else { s.activated tags banks n with observe := { (s.activated tags banks n).observe with
        traces := (s.activated tags banks n).observe.traces ++
          [{ s.visit tb.df tags (s.startTrace tb x) (banks.take n) with banks := some (banks.drop n) }] } } := by
  unfold State.runTrace
  rw [ht]
  dsimp only
  rw [if_neg (show ¬ x.banks.isSome = true by simp [hnone]), State.foldl_traceBank rfl]
  subst hbanks hn
  rfl

/-- A state in which no trace is held. -/
def State.noTraces (s : State) : State := { s with observe := { s.observe with traces := [] } }

theorem exec_traceActivation_one (hin : (s.at t).inTrace = true) (hone : s.observe.traces = [x]) :
    exec (.traceActivation t tags) s = .next ((s.at t).noTraces.runTrace tags x).settle := by
  have hx : (s.at t).observe.traces = [x] := hone
  refine congrArg (fun y : State => Host.Outcome.next y.settle) ?_
  dsimp only
  rw [if_pos hin, hx]
  rfl

end Sys2Proof.Machine
end

section
/-! A trace activation as a command (R381 to R384). -/
namespace Sys2Proof.Machine
variable {s : State} {t : Nat} {tags : List TagFault} {x : Trace} {tb : TableRec} {banks : List Nat} {n : Nat}

theorem State.activated_notes (s : State) (tags : List TagFault) (banks : List Nat) (n : Nat) :
    ScrubNotes (s.useTrace n) (s.activated tags banks n) := scrubNotes_tagFaults ..

variable (hin : (s.at t).inTrace = true) (hone : s.observe.traces = [x]) (htable : s.table x.tid = some tb) (hnone : x.banks = none)
  (hbanks : tb.chart.traceBanks x.key x.mask = banks)
include hin hone htable hnone hbanks

/-- With an operation for each bank left, the trace ends, and its completion is due at the next boundary. -/
theorem traceActivation_ends (hn : banks.length ≤ (s.at t).traceLeft) : exec (.traceActivation t tags) s = .next
    (((s.at t).noTraces.activated tags banks banks.length).setResult x.id (0, 0, 0, 0,
      ((s.at t).noTraces.visit tb.df tags ((s.at t).noTraces.startTrace tb x) banks).payload tb.df.cls) (s.clock.grid + 1)).settle := by
  rw [exec_traceActivation_one hin hone,
    State.runTrace_starts (s := (s.at t).noTraces) htable hnone hbanks (Nat.min_eq_right hn), if_pos le_rfl, List.take_length]
  rfl

/-- With operations for `n` banks left, fewer than there are, the trace is held with the banks from the `n`th on. -/
theorem traceActivation_goesOn (hn : (s.at t).traceLeft = n) (hlt : n < banks.length) : exec (.traceActivation t tags) s = .next
    (let z := (s.at t).noTraces.activated tags banks n
     { z with observe := { z.observe with traces := z.observe.traces ++
        [{ (s.at t).noTraces.visit tb.df tags ((s.at t).noTraces.startTrace tb x) (banks.take n) with
          banks := some (banks.drop n) }] } }).settle := by
  rw [exec_traceActivation_one hin hone,
    State.runTrace_starts (s := (s.at t).noTraces) htable hnone hbanks
      ((Nat.min_eq_left (hn.symm ▸ hlt.le : (s.at t).traceLeft ≤ banks.length)).trans hn), if_neg (by omega)]

end Sys2Proof.Machine
end

section
/-! Digests (R385, R387, R393): the lines that they read, and the record of one that has read its last. -/
namespace Sys2Proof.Machine
variable {s x : State} {t k : Nat} {tags : List TagFault} {how : List RowRead} {d : Digest} {rest : List Digest} {left : List Nat}
  {tb : TableRec}

/-- The rows of a line that a table can match. -/
def State.lineRows (s : State) (df : TableDef) (k : Nat) : List (Nat × Tag) :=
  (s.matchable (k / 8192) (df.tid % 4096)).filter (fun p => lineOf df.units p.1 == k % 8192)

/-- Of the rows of a line those whose tags do not read uncorrectable. -/
def State.goodRows (s : State) (df : TableDef) (tags : List TagFault) (k : Nat) : List (Nat × Tag) :=
  (s.lineRows df k).filter (fun p => !(badRows tags (k / 8192)).contains p.1)

/-- The state once the tags of a line are read. -/
def State.lineRead (s : State) (df : TableDef) (tags : List TagFault) (k : Nat) : State :=
  (s.useTrace 1).tagFaults [k / 8192] (tags.filter (fun x => (s.lineRows df k).any (fun p => p.1 == x.row)))

/-- The state once the associated data of the rows of a line are asked for. -/
def State.dataAsked (s : State) (df : TableDef) (tags : List TagFault) (k : Nat) : State :=
  if df.adBytes = 0 then s.lineRead df tags k
  else (s.lineRead df tags k).each (s.goodRows df tags k) (fun y p => y.dramIssue 4 (adAddr p.2.len) df.adBytes)

/-- A digest that has read a line. -/
def Digest.past (d : Digest) (k : Nat) (left : List Nat) : Digest :=
  { d with lines := some left, visited := if d.visited.contains (k / 8192) then d.visited else d.visited ++ [k / 8192] }

/-- The digest held first goes on with a line of its table, whose chart has not changed. -/
structure ReadsLine (s : State) (d : Digest) (rest : List Digest) (tb : TableRec) (k : Nat) (left : List Nat) : Prop where
  first : s.observe.digests = d :: rest
  table : s.table d.tid = some tb
  stable : tb.chart.version = d.version
  lines : d.lines = some (k :: left)

/-- The digest goes on with the lines left, or its record is posted. -/
def State.digestOn (s : State) (d : Digest) (rest : List Digest) (left : List Nat) : State :=
  if left.isEmpty then { s with observe := { s.observe with digests := rest } }.postGeneral true (s.digestRecord d)
  else { s with observe := { s.observe with digests := d :: rest } }

theorem State.digestOn_of_ne (h : left ≠ []) (s : State) (d : Digest) (rest : List Digest) :
    s.digestOn d rest left = { s with observe := { s.observe with digests := d :: rest } } :=
  if_neg (by simpa using h)

/-- A digest whose chart has changed is unstable (R387); with the chart as it was it is as it stands. -/
theorem ReadsLine.start (h : ReadsLine s d rest tb k left) :
    { d with unstable := d.unstable || tb.chart.version != d.version } = d := by
  simp [h.stable]

/-- The digest once the rows of a line are read, in their order (R387). -/
def State.rowsRead (s : State) (df : TableDef) (how : List RowRead) (tags : List TagFault) (d : Digest) (k : Nat) : State × Digest :=
  let rows := s.goodRows df tags k
  (List.range rows.length).foldl (fun acc i => match rows[i]? with
    | some r => acc.1.digestRow df acc.2 (k / 8192) r how[i]?
    | none => acc) (s.dataAsked df tags k, d)

/-- A digest reads the rows of its next line, and goes on. -/
theorem ReadsLine.reads (h : ReadsLine s d rest tb k left) : s.digestRead how tags =
    (s.rowsRead tb.df how tags d k).1.digestOn ((s.rowsRead tb.df how tags d k).2.past k left) rest left := by
  unfold State.digestRead
  rw [h.first]
  dsimp only
  rw [h.table]
  dsimp only
  rw [if_pos (by simp [h.lines]), h.start, h.lines]
  rfl

theorem State.rowsRead_none {df : TableDef} (hrows : s.goodRows df tags k = []) :
    s.rowsRead df how tags d k = (s.lineRead df tags k, d) := by
  have hdata : s.dataAsked df tags k = s.lineRead df tags k := by
    unfold State.dataAsked
    rw [hrows]
    exact ite_self _
  unfold State.rowsRead
  rw [hrows, hdata]
  rfl

theorem State.rowsRead_one {df : TableDef} {r : Nat × Tag} {hr : RowRead} (hrows : s.goodRows df tags k = [r]) :
    s.rowsRead df [hr] tags d k = (s.dataAsked df tags k).digestRow df d (k / 8192) r (some hr) := by
  unfold State.rowsRead
  rw [hrows]
  rfl

/-- A row whose units are all well read adds the hash of its entry (R385), and nothing is queued or counted. -/
theorem State.digestRow_added {df : TableDef} {bank : Nat} {r : Nat × Tag} {e : Entry} {hr : RowRead} (he : s.entry r.2.len = some e)
    (hunits : ∀ j, j < df.units → hr.units.getD j true = true) : s.digestRow df d bank r (some hr) =
      (s, { d with sum := (d.sum + s.entryHash df r.2.len e) % 2 ^ 128, entries := d.entries + 1 }) := by
  unfold State.digestRow
  dsimp only
  have hall : ∀ j ∈ List.range df.units, hr.units.getD j true = true := fun j hj => hunits j (List.mem_range.mp hj)
  have hbad : (List.range df.units).any (fun j => !hr.units.getD j true) = false := by
    simpa [List.any_eq_false] using hunits
  have hlost : ∀ f : Nat → Bool, (List.range df.units).any (fun j => !hr.units.getD j true && !f j) = false := by
    intro f
    simp only [List.any_eq_false]
    intro j hj
    simp only [hall j hj, Bool.not_true, Bool.false_and]
    decide
  rw [hbad, hlost, if_neg (by decide), each_of_fixed (fun j hj => if_pos (hall j hj)), he]
  rfl

/-- The hash of an entry depends on its associated data alone (R385). -/
theorem State.entryHash_congr (hsearch : x.search = s.search) (hhot : x.hot = s.hot) (hdram : x.dram = s.dram)
    (hclock : x.clock = s.clock) (df : TableDef) (len : Nat) (e : Entry) : x.entryHash df len e = s.entryHash df len e := by
  unfold State.entryHash State.adFor
  rw [hsearch, hhot, hdram, hclock]

theorem length_digestRecord (s : State) (d : Digest) : (s.digestRecord d).length = 48 := by
  simp [State.digestRecord, State.telHeader]

/-- A record whose quay has no room is held (R393). -/
theorem State.postGeneral_held {bs : Bytes} (hbuffer : s.observe.buffer = []) (hdest : s.fld Fld.TEL_DEST_CTL_dest = 2)
    (hroom : s.quayRoom (s.fld Fld.TEL_DEST_CTL_dest_index) (bs.length / 8) = false) : s.postGeneral true bs =
      { s with observe := { s.observe with
        buffer := [⟨2, s.fld Fld.TEL_DEST_CTL_dest_index, false, true, bs⟩] } } := by
  have hsent : ∀ y : State, y.links = s.links →
      y.sendTel ⟨2, s.fld Fld.TEL_DEST_CTL_dest_index, false, true, bs⟩ = none := by
    intro y hy
    have hroom' : y.quayRoom (s.fld Fld.TEL_DEST_CTL_dest_index) (bs.length / 8) = false := by
      rw [← hroom]
      unfold State.quayRoom State.secondaryWords State.link
      rw [hy]
    unfold State.sendTel
    simp [hroom']
  unfold State.postGeneral State.postTel
  dsimp only
  rw [hdest, hbuffer]
  simp [State.flushTel, State.sendTels, hsent]

end Sys2Proof.Machine
end

section
/-! Traces and digests as commands (R381 to R387, R390, R393). -/
namespace Sys2Proof.Machine
variable {s : State} {t k : Nat} {tags : List TagFault} {d : Digest} {rest : List Digest} {left : List Nat} {tb : TableRec}

/-- Reading the tags of a line and asking for its data leaves the entries, their data and the time. -/
theorem State.dataAsked_keeps (s : State) (df : TableDef) (tags : List TagFault) (k : Nat) :
    (s.dataAsked df tags k).numbers = s.numbers ∧ (s.dataAsked df tags k).search = s.search ∧ (s.dataAsked df tags k).hot = s.hot ∧
    (s.dataAsked df tags k).dram = s.dram ∧ (s.dataAsked df tags k).clock = s.clock := by
  have hread : ScrubNotes (s.useTrace 1) (s.lineRead df tags k) := scrubNotes_tagFaults ..
  have hasked : IssuesOnly (s.lineRead df tags k) (s.dataAsked df tags k) := by
    unfold State.dataAsked
    split
    · exact .refl _
    · exact .each (fun _ _ => issuesOnly_dramIssue ..) _ _
  rw [hasked.eq, hread.eq]
  exact ⟨rfl, rfl, rfl, rfl, rfl⟩

theorem exec_digestRead_first (hin : (s.at t).inTrace = true) (hnone : s.observe.traces = []) (hleft : 0 < (s.at t).traceLeft)
    (how : List RowRead) (tags : List TagFault) :
    exec (.digestRead t how tags) s = .next ((s.at t).digestRead how tags).settle :=
  congrArg (fun y : State => Host.Outcome.next y.settle) (if_pos (by simp [hin, hnone, hleft]))

/-- The last line of a digest has been read, without a row, and the record finds no room. -/
theorem State.digestOn_held {x : State} (hbuffer : x.observe.buffer = []) (hdest : x.fld Fld.TEL_DEST_CTL_dest = 2)
    (hroom : x.quayRoom (x.fld Fld.TEL_DEST_CTL_dest_index) 6 = false) : x.digestOn d rest [] =
      { x with observe := { x.observe with
        digests := rest, buffer := [⟨2, x.fld Fld.TEL_DEST_CTL_dest_index, false, true, x.digestRecord d⟩] } } := by
  refine (if_pos rfl).trans ?_
  refine State.postGeneral_held (s := { x with observe := { x.observe with digests := rest } }) hbuffer hdest ?_
  rw [length_digestRecord]
  exact hroom

/-- Settles O32: a trace is `traceActivation_ends` or `traceActivation_goesOn`, with the tag errors it reads as `State.activated_notes` has
them; a digest is `ReadsLine.reads` with no row, one row, or no row in its last line. -/
theorem tracesAndDigests : Obligations.TracesAndDigests := by
  unfold Obligations.TracesAndDigests
  refine ⟨?traces, ?digests⟩
  case traces =>
    intro s t tags x tb hin hone htable hnone banks n found
    have hrows : (s.at t).noTraces.foundIn tb.df tags x.key x.mask = found := rfl
    have hnotes := (s.at t).noTraces.activated_notes tags banks
    refine ⟨fun hn => ?ends, fun hlt => ?goesOn⟩
    case ends =>
      have hexec := traceActivation_ends (tags := tags) hin hone htable hnone rfl hn
      have hobserve := (hnotes banks.length).observe
      have hcmds := (hnotes banks.length).cmds
      refine Answers.of_eq hexec rfl ⟨?_, (s.at t).noTraces.visit tb.df tags ((s.at t).noTraces.startTrace tb x) banks,
        rfl, rfl, rfl, rfl, rfl, rfl, ?_, fun htags => ?_⟩
      · exact congrArg Observe.traces hobserve
      · unfold State.setResult
        rw [State.settle_cmds, hcmds]
        rfl
      · subst htags
        rfl
    case goesOn =>
      have hexec := traceActivation_goesOn (tags := tags) hin hone htable hnone rfl rfl hlt
      have hobserve := (hnotes n).observe
      refine Answers.of_eq hexec rfl ⟨(hnotes n).cmds,
        { (s.at t).noTraces.visit tb.df tags ((s.at t).noTraces.startTrace tb x) (banks.take n) with banks := some (banks.drop n) },
        ?_, rfl, rfl, rfl, rfl, fun htags => ?_⟩
      · exact congrArg (fun o : Observe => o.traces ++ [_]) hobserve
      · subst htags
        rfl
  case digests =>
    intro s t tags d rest tb k left hin hnone hops hfirst htable hstable hlines bank inLine rows next read
    have h : ReadsLine (s.at t) d rest tb k left := ⟨hfirst, htable, hstable, hlines⟩
    refine ⟨fun how hrows hleft => ?none, fun row tag e hr hrows he hunits hleft => ?one, fun how hrows hleft htags hbuffer hdest hroom => ?last⟩
    case none =>
      have hread := State.rowsRead_none (s := s.at t) (how := how) (d := d) hrows
      refine Leaves.of_eq (exec_digestRead_first hin hnone hops how tags) ?_
      rw [h.reads, hread, State.digestOn_of_ne hleft]
      rfl
    case one =>
      obtain ⟨hnumbers, hsearch, hhot, hdram, hclock⟩ := (s.at t).dataAsked_keeps tb.df tags k
      have hdata : (s.at t).dataAsked tb.df tags k = if tb.df.adBytes = 0 then read else read.dramIssue 4 (adAddr tag.len) tb.df.adBytes := by
        unfold State.dataAsked
        rw [show (s.at t).goodRows tb.df tags k = [(row, tag)] from hrows]
        rfl
      have hhash := State.entryHash_congr hsearch hhot hdram hclock tb.df tag.len e
      have hentry : ((s.at t).dataAsked tb.df tags k).entry tag.len = some e := (congrArg (fun n : Numbers => n.entries.find tag.len) hnumbers).trans he
      refine Leaves.of_eq (exec_digestRead_first hin hnone hops [hr] tags) ?_
      rw [h.reads, State.rowsRead_one (s := s.at t) hrows, State.digestRow_added hentry hunits, State.digestOn_of_ne hleft, hhash, hdata]
      rfl
    case last =>
      subst hleft htags
      have hread := State.rowsRead_none (s := s.at t) (how := how) (d := d) hrows
      refine Leaves.of_eq (exec_digestRead_first hin hnone hops how []) ?_
      rw [h.reads, hread]
      exact State.digestOn_held (x := (s.at t).lineRead tb.df [] k) hbuffer hdest hroom

end Sys2Proof.Machine
end

section
/-! The scrubber's reads (R272, R273, R275) and its comparisons (R274, R276, R277). -/
namespace Sys2Proof.Machine
variable {s x y : State} {t : Nat} {p : PrioLine} {r : ScrubRead} {rest : List ScrubRead} {c : LineCheck}

/-! A line that is read. -/

/-- Only the queues of the pseudo-channels stand otherwise. -/
def QueuesOnly (s x : State) : Prop := x = { s with memQueues := x.memQueues }

theorem QueuesOnly.eq (h : QueuesOnly s x) : x = { s with memQueues := x.memQueues } := h

theorem QueuesOnly.trans (h : QueuesOnly s x) (k : QueuesOnly x y) : QueuesOnly s y := by
  unfold QueuesOnly at *
  rw [h] at k
  exact k

theorem QueuesOnly.each {α : Type} {f : State → α → State} (hf : ∀ x a, QueuesOnly x (f x a)) (s : State) (l : List α) :
    QueuesOnly s (s.each l f) := State.each_of_step (R := QueuesOnly) (fun _ => rfl) .trans hf s l

/-- Reads that are issued enter the queues of their pseudo-channels and change nothing else (R550). -/
theorem queuesOnly_dramIssue (s : State) (port a n : Nat) : QueuesOnly s (s.dramIssue port a n) :=
  .each (f := fun x k => x.queueRead port (columnPc (k / 8) (k % 8)) (32 * (k / 8 / 6))) (fun _ _ => rfl) s _

/-- A line that is read joins those that are to be compared (R273, R274). -/
theorem State.readLine_only (s : State) (bank line : Nat) (verify : Bool) : s.readLine bank line verify = { s with
    scrub := { s.scrub with reads := s.scrub.reads ++ [⟨bank, line, verify, s.unsettledLine bank line⟩] }
    memQueues := (s.readLine bank line verify).memQueues } :=
  QueuesOnly.each (fun _ _ => queuesOnly_dramIssue ..)
    { s with scrub := { s.scrub with reads := s.scrub.reads ++ [⟨bank, line, verify, s.unsettledLine bank line⟩] } }
    (State.lineReads { s with scrub := { s.scrub with reads := s.scrub.reads ++ [⟨bank, line, verify, s.unsettledLine bank line⟩] } } bank line)

theorem linesPerStroke_pos (mode : Nat) : 0 < linesPerStroke mode := by
  unfold linesPerStroke
  split_ifs <;> decide

/-- The one line that waits is read where its bank is not down. -/
theorem State.prioTake_one (hup : s.bankDown p.bank = false) {n : Nat} (hn : 0 < n) : s.prioTake n [] [p] = [p] := by
  cases n with
  | zero => exact absurd hn (by decide)
  | succ n =>
    unfold State.prioTake
    rw [if_neg (by simp [hup])]
    cases n <;> rfl

/-- The state in which a scrub stroke has taken the priority queue. -/
def State.prioTaken (s : State) : State := { s with scrub := { s.scrub with readAt := some s.now, prio := [] } }

/-- With one line waiting and no pass enabled, a scrub stroke reads that line. -/
theorem exec_scrubRead_one (hin : (s.at t).inScrub = true) (hserves : s.serving = true) (hdomain : s.domainDown 25 = false)
    (hfirst : s.scrub.readAt ≠ some (s.at t).now) (hprio : s.scrub.prio = [p]) (hstripes : s.scrub.stripeReads = [])
    (hup : s.bankDown p.bank = false) (hen : s.bit Fld.ARY_SCRUB_CTL_scrub_en = false) :
    exec (.scrubRead t) s = .next ((s.at t).prioTaken.readLine p.bank p.line p.verify).settle := by
  have hlines : (s.at t).prioLines = [p] := by
    unfold State.prioLines
    rw [State.at_scrub, hprio, hstripes]
    rfl
  have htake := State.prioTake_one (s := s.at t) hup (linesPerStroke_pos (s.at t).mode.mode)
  have hoff : ((s.at t).prioTaken.readLine p.bank p.line p.verify).bit Fld.ARY_SCRUB_CTL_scrub_en = false := by
    rw [State.readLine_only]
    exact hen
  have hgoes : ¬ (!(s.at t).inScrub || !(s.at t).serving || (s.at t).domainDown 25 ||
      decide ((s.at t).scrub.readAt = some (s.at t).now)) = true := by
    have hdown : (s.at t).domainDown 25 = false := hdomain
    simp [hin, hserves, hdown, hfirst]
  have hfilter : [p].filter (fun q => ! [p].contains q) = [] := by simp
  have hkeep : ∀ f, s.scrub.stripeReads.filter f = s.scrub.stripeReads := fun f => by simp [hstripes]
  refine congrArg (fun y : State => Host.Outcome.next y.settle) ?_
  dsimp only
  rw [if_neg hgoes, hlines, htake, State.at_scrub, hprio, hfilter, hkeep]
  exact if_neg fun h => Bool.false_ne_true (hoff.symm.trans (Bool.and_eq_true_iff.mp h).1)

/-! A line whose reads have returned. -/

/-- The state in which the reads of the oldest line have returned (R274). -/
def State.lineReturned (s : State) (r : ScrubRead) (rest : List ScrubRead) : State :=
  ({ s with scrub := { s.scrub with reads := rest } }).each (s.lineReads r.bank r.line) (fun x p => x.dramReturn 4 p.1 p.2)

theorem State.lineReturned_issues (s : State) (r : ScrubRead) (rest : List ScrubRead) :
    IssuesOnly { s with scrub := { s.scrub with reads := rest } } (s.lineReturned r rest) :=
  .each (fun _ _ => issuesOnly_dramReturn ..) _ _

/-- A comparison of a line that was written to since it was read is discarded, and the line is queued again (R274). -/
theorem exec_scrubCompare_dirty (hreads : s.scrub.reads = r :: rest) (hdirty : r.dirty = true) : exec (.scrubCompare t c) s = .next
    ((((s.at t).lineReturned r rest).bump Fld.ARY_INTEG_COUNT0_discarded).queuePrio r.bank r.line r.verify).settle := by
  have h : (s.at t).scrub.reads = r :: rest := hreads
  refine congrArg (fun y : State => Host.Outcome.next y.settle) ?_
  dsimp only
  rw [h]
  exact if_pos hdirty

theorem exec_scrubCompare_clean (hreads : s.scrub.reads = r :: rest) (hdirty : r.dirty = false) : exec (.scrubCompare t c) s = .next
    (let z := ((s.at t).lineReturned r rest).each (List.range 4) (fun x j => x.settleUnit r.bank r.line c j)
     z.each (List.range (4 / (((s.at t).lineReturned r rest).bankWidth r.bank).getD 1)) (fun x i => x.settleTag r.bank r.line c i)).settle := by
  have h : (s.at t).scrub.reads = r :: rest := hreads
  refine congrArg (fun y : State => Host.Outcome.next y.settle) ?_
  dsimp only
  rw [h]
  exact if_neg (by simp [hdirty])

/-! Reads that find nothing wrong, while no pseudo-channel is known but by its reset state. -/

theorem State.pcErased_quiet (hpcs : s.dramCtl.pcs = []) (n k : Nat) : s.pcErased n k = false := by
  have hpc : s.pc n = Pseudo.reset n := by
    unfold State.pc
    rw [hpcs]
    rfl
  have hstate : ((Pseudo.reset n).state == .fenced) = false := by
    unfold Pseudo.reset
    dsimp only
    split <;> rfl
  unfold State.pcErased
  rw [hpc]
  dsimp only
  rw [hstate]
  rfl

theorem State.columnsEnd_quiet (hpcs : s.dramCtl.pcs = []) (k : Nat) (cols : List Nat) : s.columnsEnd k cols DramRead.clean = .direct := by
  have hnone : s.erasures k DramRead.clean = [] := by
    simp [State.erasures, DramRead.clean, State.pcErased_quiet hpcs]
  unfold State.columnsEnd
  rw [hnone]
  exact if_pos (by simp)

theorem State.readParts_quiet (hpcs : s.dramCtl.pcs = []) (a n : Nat) : ∀ q ∈ s.readParts a n DramRead.clean, q.2 = .direct := by
  intro q hq
  obtain ⟨i, -, rfl⟩ := List.mem_map.mp hq
  exact State.columnsEnd_quiet hpcs ..

theorem State.spanEnd_quiet (hpcs : s.dramCtl.pcs = []) (a n : Nat) : s.spanEnd a n DramRead.clean = .direct := by
  have hno : ∀ e : DramEnd, e ≠ .direct → ((s.readParts a n DramRead.clean).map (fun q => q.2)).contains e = false := by
    intro e he
    simp only [List.contains_eq_mem, decide_eq_false_iff_not, List.mem_map, not_exists, not_and]
    exact fun q hq heq => he (heq.symm.trans (State.readParts_quiet hpcs a n q hq))
  unfold State.spanEnd
  dsimp only
  rw [hno _ (by decide), hno _ (by decide)]
  rfl

theorem State.countSpan_quiet (hpcs : s.dramCtl.pcs = []) (a n : Nat) : s.countSpan a n DramRead.clean = s := by
  refine each_of_fixed fun q hq => ?_
  rw [State.readParts_quiet hpcs a n q hq]
  rfl

/-! A unit and a tag that are found right. -/

theorem State.rightItem_quiet (h : s.scrub.verifying = []) (bank line item row event source : Nat) :
    s.rightItem bank line item row event source = s := if_neg (by simp [h])

/-- A unit that agrees with its shadow, neither of which reports an error, needs nothing (R276). -/
theorem State.settleUnit_agrees {bank line j : Nat} (hpcs : s.dramCtl.pcs = []) (hverifying : s.scrub.verifying = [])
    (hagree : s.unitBits bank (4 * line + j) =
      s.shadowUnit (s.shadowBank bank ((4 * line + j) / (s.bankWidth bank).getD 1)) (4 * line + j)) :
    s.settleUnit bank line ⟨[], [], [], []⟩ j = s := by
  unfold State.settleUnit
  dsimp only [List.getD_nil]
  rw [State.countSpan_quiet hpcs, State.spanEnd_quiet hpcs, if_pos (by decide), if_pos (by simpa using hagree)]
  simp only [State.rightItem_quiet hverifying]

/-- An EMPTY row needs nothing (R277). -/
theorem State.settleTag_empty {bank line i : Nat} (hempty : (s.tag bank (4 * line / (s.bankWidth bank).getD 1 + i)).state = .empty) :
    s.settleTag bank line ⟨[], [], [], []⟩ i = s := by
  unfold State.settleTag
  dsimp only [List.getD_nil]
  rw [hempty]
  rfl

/-! The statements. -/

theorem scrubCompare_agrees (hreads : s.scrub.reads = r :: rest) (hdirty : r.dirty = false) (hwidth : s.bankWidth r.bank = some 1)
    (hverifying : s.scrub.verifying = []) (hpcs : s.dramCtl.pcs = [])
    (hagree : ∀ i, i < 4 → (s.tag r.bank (4 * r.line + i)).state = .empty ∧ s.unitBits r.bank (4 * r.line + i) =
      s.shadowUnit (s.shadowBank r.bank (4 * r.line + i)) (4 * r.line + i)) :
    exec (.scrubCompare t ⟨[], [], [], []⟩) s = .next ((s.at t).lineReturned r rest).settle := by
  have hreturned := (s.at t).lineReturned_issues r rest
  have hsame : ∀ i, i < 4 → (((s.at t).lineReturned r rest).tag r.bank (4 * r.line + i)).state = .empty ∧
      ((s.at t).lineReturned r rest).unitBits r.bank (4 * r.line + i) = ((s.at t).lineReturned r rest).shadowUnit
        (((s.at t).lineReturned r rest).shadowBank r.bank (4 * r.line + i)) (4 * r.line + i) := by
    rw [hreturned.eq]
    exact hagree
  have hwidth' : ((s.at t).lineReturned r rest).bankWidth r.bank = some 1 := by
    rw [hreturned.eq]
    exact hwidth
  have hverifying' : ((s.at t).lineReturned r rest).scrub.verifying = [] := by
    rw [hreturned.eq]
    exact hverifying
  have hpcs' : ((s.at t).lineReturned r rest).dramCtl.pcs = [] := by
    rw [hreturned.eq]
    exact hpcs
  rw [exec_scrubCompare_clean hreads hdirty]
  generalize (s.at t).lineReturned r rest = z at *
  have hunits : z.each (List.range 4) (fun x j => x.settleUnit r.bank r.line ⟨[], [], [], []⟩ j) = z :=
    each_of_fixed fun j hj => State.settleUnit_agrees hpcs' hverifying'
      (by rw [hwidth', Option.getD_some, Nat.div_one]; exact (hsame j (List.mem_range.mp hj)).2)
  dsimp only
  rw [hunits, hwidth']
  refine congrArg (fun y : State => Host.Outcome.next y.settle) (each_of_fixed fun i hi => State.settleTag_empty ?_)
  rw [hwidth', Option.getD_some, Nat.div_one]
  exact (hsame i (List.mem_range.mp hi)).1

end Sys2Proof.Machine
end

section
/-! The bits of ARY_SCRUB_STATUS, and the rows, under what a repair is counted, reported and verified by (R278, R284, R285, R293). -/
namespace Sys2Proof.Machine
variable {s x y : State} {f : Fld}

/-! The bits of ARY_SCRUB_STATUS. -/

theorem State.bit_raise_on (s : State) (hw : f.width = 1) (hf : f.lo + f.width ≤ 64) : (s.raise f).bit f = true :=
  State.bit_raise_same _ _ _ hw hf (Reg.resetNat_lt _)

theorem State.scrubBit_bump (hreg : f.reg = .ARY_SCRUB_STATUS) (s : State) {g : Fld} (n : Nat)
    (hg : g.reg.offset ≠ Reg.offset .ARY_SCRUB_STATUS) : (s.bump g n).bit f = s.bit f :=
  congrArg (· != 0) (State.fld_bump_reg s g f n 0 0 (by rw [hreg]; exact hg.symm))

/-- A bit of a register stands as it did when another bit of it is raised. -/
theorem State.bit_raise_apart (s : State) (g : Fld) (hreg : f.reg = g.reg) (hg : g.lo + g.width ≤ 64)
    (hlo : f.lo + f.width ≤ g.lo ∨ g.lo + g.width ≤ f.lo) : (s.raise g).bit f = s.bit f :=
  State.bit_setFld_apart s g f _ (.inr ⟨hreg, hg, hlo⟩)

theorem State.scrubBit_integrity (hreg : f.reg = .ARY_SCRUB_STATUS) (s : State)
    (cls event bank row units mirror source handle tid extra : Nat) :
    (s.integrity cls event bank row units mirror source handle tid extra).bit f = s.bit f := by
  have hclass : Reg.offset .ARY_SCRUB_STATUS ≠ (classCount cls).reg.offset := by
    unfold classCount
    split <;> decide
  exact congrArg (· != 0) (State.fld_postFault s f cls _ _ (by rw [hreg]; decide) (by rw [hreg]; decide) (by rw [hreg]; exact hclass))

theorem State.scrubBit_rowEvent (hreg : f.reg = .ARY_SCRUB_STATUS) (s : State) (cls event bank row units source extra : Nat) :
    (s.rowEvent cls event bank row units source extra).bit f = s.bit f := State.scrubBit_integrity hreg ..

theorem State.scrubBit_autoDrain (hreg : f.reg = .ARY_SCRUB_STATUS) (s : State) (bank : Nat) : (s.autoDrain bank).bit f = s.bit f := by
  unfold State.autoDrain
  split
  · exact State.scrubBit_integrity hreg ..
  · rfl

/-! What leaves the rows and the repairs that wait alone. -/

/-- The rows stand as they did, and the same repairs wait. -/
def KeepsRepairs (s x : State) : Prop :=
  x.scrub.repairs = s.scrub.repairs ∧ x.arrays.tags = s.arrays.tags ∧ x.arrays.units = s.arrays.units ∧ x.arrays.served = s.arrays.served

theorem KeepsRepairs.refl (s : State) : KeepsRepairs s s := ⟨rfl, rfl, rfl, rfl⟩

theorem KeepsRepairs.trans (h : KeepsRepairs s x) (k : KeepsRepairs x y) : KeepsRepairs s y := by
  obtain ⟨hrepairs, htags, hunits, hserved⟩ := h
  obtain ⟨krepairs, ktags, kunits, kserved⟩ := k
  exact ⟨krepairs.trans hrepairs, ktags.trans htags, kunits.trans hunits, kserved.trans hserved⟩

theorem KeepsRepairs.repairs (h : KeepsRepairs s x) : x.scrub.repairs = s.scrub.repairs := h.1

theorem KeepsRepairs.tag (h : KeepsRepairs s x) (bank row : Nat) : x.tag bank row = s.tag bank row := by
  obtain ⟨-, htags, -, hserved⟩ := h
  exact State.tag_congr htags hserved bank row

theorem KeepsRepairs.unitBits (h : KeepsRepairs s x) (bank unit : Nat) : x.unitBits bank unit = s.unitBits bank unit := by
  obtain ⟨-, -, hunits, hserved⟩ := h
  unfold State.unitBits State.slotOf
  rw [hunits, hserved]

theorem DramOnly.keepsRepairs (h : DramOnly s x) : KeepsRepairs s x := by
  rw [h.eq]
  exact .refl s

theorem keepsRepairs_touch (s : State) (bank line : Nat) : KeepsRepairs s (s.touch bank line) := ⟨rfl, rfl, rfl, rfl⟩

theorem keepsRepairs_queuePrio (s : State) (bank line : Nat) (verify : Bool) : KeepsRepairs s (s.queuePrio bank line verify) := by
  unfold State.queuePrio
  split <;> exact ⟨rfl, rfl, rfl, rfl⟩

theorem keepsRepairs_autoDrain (s : State) (bank : Nat) : KeepsRepairs s (s.autoDrain bank) := by
  unfold State.autoDrain
  split
  · exact KeepsRepairs.trans (x := s.startDrain bank 1) ⟨rfl, rfl, rfl, rfl⟩ (dramOnly_postFault ..).keepsRepairs
  · exact .refl s

theorem keepsRepairs_noteRepair (s : State) (bank : Nat) : KeepsRepairs s (s.noteRepair bank) := by
  unfold State.noteRepair
  dsimp only
  split
  · exact KeepsRepairs.trans (by exact ⟨rfl, rfl, rfl, rfl⟩) (keepsRepairs_autoDrain ..)
  · exact ⟨rfl, rfl, rfl, rfl⟩

/-- A repair that is counted shows in ARY_SCRUB_STATUS (R285). -/
theorem State.noteRepair_shown (s : State) (bank : Nat) : (s.noteRepair bank).bit Fld.ARY_SCRUB_STATUS_repaired = true := by
  unfold State.noteRepair
  dsimp only
  split
  · exact (State.scrubBit_autoDrain rfl ..).trans (State.bit_raise_on _ rfl (by decide))
  · exact State.bit_raise_on _ rfl (by decide)

theorem keepsRepairs_verifyItem (s : State) (bank line item : Nat) : KeepsRepairs s (s.verifyItem bank line item) := by
  have hqueued := (keepsRepairs_noteRepair s bank).trans (keepsRepairs_queuePrio _ bank line true)
  unfold State.verifyItem
  dsimp only
  split
  · exact hqueued
  · exact hqueued.trans ⟨rfl, rfl, rfl, rfl⟩

/-- An item that is put up for its verify read shows as repaired, whether or not the priority queue takes its line (R275, R278). -/
theorem State.verifyItem_shown (s : State) (bank line item : Nat) :
    (s.verifyItem bank line item).bit Fld.ARY_SCRUB_STATUS_repaired = true := by
  have hqueued : ((s.noteRepair bank).queuePrio bank line true).bit Fld.ARY_SCRUB_STATUS_repaired = true := by
    refine Eq.trans ?_ (State.noteRepair_shown s bank)
    unfold State.queuePrio
    split
    · exact State.bit_raise_apart _ Fld.ARY_SCRUB_STATUS_prio_drop rfl (by decide) (by decide)
    · rfl
  unfold State.verifyItem
  dsimp only
  split <;> exact hqueued

end Sys2Proof.Machine
end

section
/-! Repair writes (R278 to R283): a unit that takes its shadow, a row written EMPTY, and a tag without an entry that is retired. -/
namespace Sys2Proof.Machine
variable {s : State} {t : Nat} {r : Repair}

/-! The units of rows. -/

/-- A unit in a slot reads as it was written; one of canonical zeros is not listed. -/
theorem Arrays.units_putUnit (a : Arrays) (slot unit : Nat) (u : UnitBits) :
    (a.putUnit slot unit u).units.findD (rowKey slot unit) UnitBits.reset = u := by
  unfold Arrays.putUnit
  dsimp only
  split
  · next h => simp [eq_of_beq h]
  · simp

theorem Arrays.units_putUnit_ne (a : Arrays) {slot k : Nat} (unit : Nat) (u : UnitBits) (h : slot ≠ k) :
    (a.putUnit k unit u).units.findD (rowKey slot unit) UnitBits.reset = a.units.findD (rowKey slot unit) UnitBits.reset := by
  have hne : rowKey slot unit ≠ rowKey k unit := by
    unfold rowKey
    omega
  unfold Arrays.putUnit
  dsimp only
  split
  · exact Table.findD_del_ne _ _ _ _ hne
  · exact Table.findD_put_ne _ _ _ _ _ hne

/-- Among the slots to which a unit is written, each reads it. -/
theorem Arrays.units_putUnits (u : UnitBits) (unit slot : Nat) (slots : List Nat) (a : Arrays)
    (h : slot ∈ slots ∨ a.units.findD (rowKey slot unit) UnitBits.reset = u) :
    (slots.foldl (fun a k => a.putUnit k unit u) a).units.findD (rowKey slot unit) UnitBits.reset = u := by
  induction slots generalizing a with
  | nil => exact h.resolve_left List.not_mem_nil
  | cons k slots ih =>
    refine ih _ ?_
    by_cases hk : slot = k
    · subst hk
      exact .inr (Arrays.units_putUnit ..)
    · exact h.imp (fun hmem => (List.mem_cons.mp hmem).resolve_left hk) (Arrays.units_putUnit_ne a unit u hk).trans

theorem State.putUnit_only (s : State) (bank row unit : Nat) (u : UnitBits) : s.putUnit bank row unit u = { s with
    arrays := { s.arrays with units := (s.putUnit bank row unit u).arrays.units }
    observe := (s.putUnit bank row unit u).observe } := unitsOnly_putUnit ..

theorem State.unitBits_putUnit (s : State) (bank row unit : Nat) (u : UnitBits) :
    (s.putUnit bank row unit u).unitBits bank unit = u := by
  have hslot : (s.putUnit bank row unit u).slotOf bank = s.slotOf bank := by
    rw [State.putUnit_only]
    rfl
  have hmem : s.slotOf bank ∈ (s.noteRow bank (s.tag bank row)).slotsOf bank row := by
    rw [State.noteRow_only]
    exact State.slotOf_mem s bank row
  unfold State.unitBits
  rw [hslot]
  exact Arrays.units_putUnits u unit (s.slotOf bank) _ _ (.inl hmem)

theorem State.putUnit_repairs (s : State) (bank row unit : Nat) (u : UnitBits) :
    (s.putUnit bank row unit u).scrub.repairs = s.scrub.repairs := by
  rw [State.putUnit_only]

theorem State.putTag_repairs (s : State) (bank row : Nat) (g : Tag) : (s.putTag bank row g).scrub.repairs = s.scrub.repairs := by
  rw [State.putTag_only]

/-! The repairs. -/

/-- A unit that is repaired holds what it is written with, and its repair shows (R276, R278). -/
theorem State.repairUnit_writes (s : State) (bank unit item : Nat) (u : UnitBits) :
    (s.repairUnit bank unit item u).scrub.repairs = s.scrub.repairs ∧ (s.repairUnit bank unit item u).unitBits bank unit = u ∧
    (s.repairUnit bank unit item u).bit Fld.ARY_SCRUB_STATUS_repaired = true := by
  have hput := State.unitBits_putUnit s bank (unit / (s.bankWidth bank).getD 1) unit u
  have hrepairs := State.putUnit_repairs s bank (unit / (s.bankWidth bank).getD 1) unit u
  have hrepair : s.repairUnit bank unit item u = (((s.putUnit bank (unit / (s.bankWidth bank).getD 1) unit u).touch bank
    (unit / 4)).bump Fld.ARY_INTEG_COUNT0_unit_repairs).verifyItem bank (unit / 4) item := rfl
  rw [hrepair]
  generalize s.putUnit bank _ unit u = z at hput hrepairs ⊢
  have hcounted := (keepsRepairs_touch z bank (unit / 4)).trans (dramOnly_bump _ Fld.ARY_INTEG_COUNT0_unit_repairs 1 0).keepsRepairs
  have hkeeps := hcounted.trans (keepsRepairs_verifyItem _ bank (unit / 4) item)
  exact ⟨hkeeps.repairs.trans hrepairs, (hkeeps.unitBits bank unit).trans hput, State.verifyItem_shown ..⟩

/-- A unit that disagrees takes its shadow (R276). -/
theorem State.repair_unitFix (s : State) (bank u : Nat) : (s.repair ⟨bank, .unitFix u⟩).scrub.repairs = s.scrub.repairs ∧
    (s.repair ⟨bank, .unitFix u⟩).unitBits bank u = s.shadowUnit (s.shadowBank bank (u / (s.bankWidth bank).getD 1)) u ∧
    (s.repair ⟨bank, .unitFix u⟩).bit Fld.ARY_SCRUB_STATUS_repaired = true := State.repairUnit_writes ..

/-- A row whose tag is lost is written EMPTY (R283). -/
theorem State.repair_emptyRow (s : State) (bank row : Nat) : (s.repair ⟨bank, .emptyRow row⟩).scrub.repairs = s.scrub.repairs ∧
    (s.repair ⟨bank, .emptyRow row⟩).tag bank row = Tag.reset := by
  have hposted : KeepsRepairs s (s.integrity 1 0x06 bank row 0 (b2n (s.shadowBank bank row != bank)) 0 0 0 0) :=
    (dramOnly_postFault ..).keepsRepairs
  have hrepair : s.repair ⟨bank, .emptyRow row⟩ = ((s.integrity 1 0x06 bank row 0 (b2n (s.shadowBank bank row != bank)) 0 0 0 0).putTag
    bank row Tag.reset).touch bank (lineOf ((s.bankWidth bank).getD 1) row) := rfl
  rw [hrepair]
  generalize s.integrity _ _ _ _ _ _ _ _ _ _ = z at hposted ⊢
  have htouched := keepsRepairs_touch (z.putTag bank row Tag.reset) bank (lineOf ((s.bankWidth bank).getD 1) row)
  exact ⟨htouched.repairs.trans ((State.putTag_repairs ..).trans hposted.repairs), (htouched.tag bank row).trans (State.tag_putTag ..)⟩

/-- A live row whose tag no metadata line owns is retired, and that shows as a repair (R277). -/
theorem State.repair_orphan {bank row : Nat} (hlive : (s.tag bank row).state = .live) :
    (s.repair ⟨bank, .orphan row⟩).scrub.repairs = s.scrub.repairs ∧
    (s.repair ⟨bank, .orphan row⟩).tag bank row = { s.tag bank row with state := .retiring, ptide := s.parity } ∧
    (s.repair ⟨bank, .orphan row⟩).bit Fld.ARY_SCRUB_STATUS_repaired = true := by
  have hposted : KeepsRepairs s (s.rowEvent 0 0x03 bank row 0 0 0) := (dramOnly_postFault ..).keepsRepairs
  have hretires : (if ((s.tag bank row).state == .armed && (s.tag bank row).ptide == s.parity) = true then Tag.reset
      else { s.tag bank row with state := .retiring, ptide := s.parity }) =
      { s.tag bank row with state := .retiring, ptide := s.parity } := if_neg (by simp [hlive])
  have hrepair : s.repair ⟨bank, .orphan row⟩ = (((s.rowEvent 0 0x03 bank row 0 0 0).putTag bank row
      (if ((s.tag bank row).state == .armed && (s.tag bank row).ptide == s.parity) = true then Tag.reset
        else { s.tag bank row with state := .retiring, ptide := s.parity })).touch bank
      (lineOf ((s.bankWidth bank).getD 1) row)).noteRepair bank := rfl
  rw [hrepair, hretires]
  generalize s.rowEvent _ _ _ _ _ _ _ = z at hposted ⊢
  generalize { s.tag bank row with state := .retiring, ptide := s.parity } = g
  have hnoted := (keepsRepairs_touch (z.putTag bank row g) bank (lineOf ((s.bankWidth bank).getD 1) row)).trans
    (keepsRepairs_noteRepair _ bank)
  exact ⟨hnoted.repairs.trans ((State.putTag_repairs ..).trans hposted.repairs), (hnoted.tag bank row).trans (State.tag_putTag ..),
    State.noteRepair_shown ..⟩

/-! The command. -/

/-- A state in which no repair waits. -/
def State.noRepairs (s : State) : State := { s with scrub := { s.scrub with repairs := [] } }

/-- The state in which the one repair has been taken and the turns of its banks used. -/
def State.repairTaken (s : State) (r : Repair) : State :=
  s.noRepairs.useOther (s.noRepairs.repairBanks r) (s.noRepairs.repairStrokes r)

theorem State.repairTaken_repairs (s : State) (r : Repair) : (s.repairTaken r).scrub.repairs = [] := rfl

theorem State.repairTaken_tag (s : State) (r : Repair) (bank row : Nat) : (s.repairTaken r).tag bank row = s.tag bank row := rfl

theorem State.repairTaken_parity (s : State) (r : Repair) : (s.repairTaken r).parity = s.parity := rfl

theorem State.repairTaken_shadow (s : State) (r : Repair) (bank u : Nat) : (s.repairTaken r).shadowUnit ((s.repairTaken r).shadowBank bank
    (u / ((s.repairTaken r).bankWidth bank).getD 1)) u = s.shadowUnit (s.shadowBank bank (u / (s.bankWidth bank).getD 1)) u := rfl

theorem State.at_shadow (s : State) (t bank u : Nat) : (s.at t).shadowUnit ((s.at t).shadowBank bank
    (u / ((s.at t).bankWidth bank).getD 1)) u = s.shadowUnit (s.shadowBank bank (u / (s.bankWidth bank).getD 1)) u := rfl

/-- The one repair that waits is made where it is not barred and has room. -/
theorem exec_repairWrite_one (hin : (s.at t).inWrite = true) (hone : s.scrub.repairs = [r]) (hfree : s.repairBarred r = false)
    (hroom : (s.at t).noRepairs.roomFor .repair ((s.at t).noRepairs.repairBanks r) ((s.at t).noRepairs.repairStrokes r) = true) :
    exec (.repairWrite t) s = .next (((s.at t).repairTaken r).repair r).settle := by
  have hrun : (s.at t).noRepairs.repairRun [r] = (((s.at t).repairTaken r).repair r, []) := by
    have hfree' : (s.at t).noRepairs.repairBarred r = false := hfree
    unfold State.repairRun
    rw [if_neg (by simp [hfree']), if_pos hroom]
    rfl
  refine congrArg (fun y : State => Host.Outcome.next y.settle) ?_
  dsimp only
  rw [if_pos hin, State.at_scrub, hone]
  unfold State.repairTaken State.noRepairs at hrun ⊢
  rw [State.at_scrub] at hrun ⊢
  rw [hrun]
  rfl

end Sys2Proof.Machine
end

section
/-! Metadata lines that failed (R280, R282) and tags that were lost (R283): what the rebuilding of a line, the withholding of a number and the
end of a search leave. -/
namespace Sys2Proof.Machine
variable {s x : State} {t len p : Nat} {e : Entry}

/-! A pending number that is settled. -/

theorem DramOnly.numbers (h : DramOnly s x) : x.numbers = s.numbers := (congrArg State.numbers h.eq :)

theorem State.metaSettled_numbers (s : State) (len : Nat) :
    (s.metaSettled len).numbers = { s.numbers with pendingMeta := s.numbers.pendingMeta.del len } := by
  unfold State.metaSettled
  dsimp only
  split
  · rfl
  · exact State.bump_numbers ..

theorem State.metaSettled_dram (s : State) (len : Nat) : (s.metaSettled len).dram = s.dram := by
  unfold State.metaSettled
  dsimp only
  split
  · rfl
  · exact State.bump_dram ..

theorem State.metaSettled_shown (s : State) (len : Nat) : (s.metaSettled len).bit Fld.ARY_SCRUB_STATUS_rebuilt = true := by
  unfold State.metaSettled
  dsimp only
  split
  · exact State.bit_raise_on _ rfl (by decide)
  · exact (State.scrubBit_bump rfl _ 1 (by decide)).trans (State.bit_raise_on _ rfl (by decide))

theorem State.unsettlePair_dram (s : State) (bank line n : Nat) : (s.unsettlePair bank line n).dram = s.dram :=
  foldl_keeps _ State.dram _ _ fun _ _ _ => rfl

/-- The metadata line of a pending number is rebuilt from the tag of its row, which names it (R280). -/
theorem exec_metaRebuild_named (he : s.entry len = some e) (hpending : s.numbers.pendingMeta.has len = true)
    (hseen : s.scrub.metaSeen.contains len = true) (hlen : (s.tag e.bank e.row).len = len) (hgen : (s.tag e.bank e.row).gen = e.gen)
    (hstate : (s.tag e.bank e.row).state = .live ∨ (s.tag e.bank e.row).state = .armed) : exec (.metaRebuild t len) s = .next
      (((((s.at t).writeMeta len { e with keyHi := (s.tag e.bank e.row).keyHi, keyLo := (s.tag e.bank e.row).keyLo } 1).unsettlePair
        e.bank (lineOf e.width e.row) 1).metaSettled len).rowEvent 0 0x05 e.bank e.row 0 4 0).settle := by
  have he' : (s.at t).entry len = some e := he
  have hnamed : len ∈ s.scrub.metaSeen := by simpa using hseen
  refine congrArg (fun y : State => Host.Outcome.next y.settle) ?_
  dsimp only
  rw [he']
  exact if_pos (by simp [hpending, hnamed, hlen, hgen, hstate])

theorem metaRebuild_rebuilds (he : s.entry len = some e) (hpending : s.numbers.pendingMeta.has len = true)
    (hseen : s.scrub.metaSeen.contains len = true) (hlen : (s.tag e.bank e.row).len = len) (hgen : (s.tag e.bank e.row).gen = e.gen)
    (hstate : (s.tag e.bank e.row).state = .live ∨ (s.tag e.bank e.row).state = .armed) : Answers (.metaRebuild t len) s (fun s' =>
      s'.numbers = { s.numbers with pendingMeta := s.numbers.pendingMeta.del len } ∧
      s'.dram = ((s.at t).writeMeta len { e with keyHi := (s.tag e.bank e.row).keyHi, keyLo := (s.tag e.bank e.row).keyLo } 1).dram ∧
      s'.bit Fld.ARY_SCRUB_STATUS_rebuilt = true) := by
  refine Answers.of_eq (exec_metaRebuild_named he hpending hseen hlen hgen hstate) rfl ?_
  have hwritten := keepsRecords_writeMeta (s.at t) len { e with keyHi := (s.tag e.bank e.row).keyHi, keyLo := (s.tag e.bank e.row).keyLo } 1
  generalize (s.at t).writeMeta len _ 1 = w at hwritten ⊢
  have hunsettled := hwritten.trans (keepsRecords_unsettlePair w e.bank (lineOf e.width e.row) 1)
  have hdram := State.unsettlePair_dram w e.bank (lineOf e.width e.row) 1
  generalize w.unsettlePair e.bank (lineOf e.width e.row) 1 = z at hunsettled hdram ⊢
  refine ⟨?_, ?_, ?_⟩
  · rw [State.settle_numbers, State.rowEvent, State.integrity, State.postFault_numbers, State.metaSettled_numbers, hunsettled.numbers]
    rfl
  · rw [State.settle_dram, State.rowEvent, State.integrity, State.postFault_dram, State.metaSettled_dram, hdram]
  · rw [State.bit_settle, State.scrubBit_rowEvent rfl, State.metaSettled_shown]

/-! A number that is withheld. -/

/-- The state in which a number has lost its entry and is withheld (log 32). -/
def State.withhold (s : State) (len : Nat) : State := { s with numbers := { s.numbers with
  entries := s.numbers.entries.del len, withheld := s.numbers.withheld ++ [len], freed := s.numbers.freed.filter (fun x => x.1 != len) } }

/-- The units of the entry that a number holds leave the quota of its table (R167). -/
def State.uncharged (s : State) (len : Nat) : State :=
  match s.entry len with
  | some e => if e.charged then s.chargeUnits e.tid e.width false else s
  | none => s

theorem State.uncharged_numbers (s : State) (len : Nat) : (s.uncharged len).numbers = s.numbers := by
  unfold State.uncharged
  split
  · split <;> rfl
  · rfl

theorem exec_lenWithheld_due (hpending : s.numbers.pendingMeta.find len = some p) (hunseen : s.scrub.metaSeen.contains len = false)
    (hdue : p + 2 ≤ s.scrub.passes) : exec (.lenWithheld t len) s = .next
      ((((((s.at t).uncharged len).withhold len).dramWrite (metaAddr len) (metaLine 0 0 0 0 3 0 0 0)).metaSettled len).raise
        Fld.ARY_SCRUB_STATUS_withheld |>.integrity 3 0x0C 0 0 0 0 0 0 0 0).settle := by
  have hp : (s.at t).numbers.pendingMeta.find len = some p := hpending
  refine congrArg (fun y : State => Host.Outcome.next y.settle) ?_
  dsimp only
  rw [hp]
  refine (if_neg ?_).trans rfl
  have hunnamed : len ∉ s.scrub.metaSeen := by simpa using hunseen
  have hwaited : ¬ s.scrub.passes < p + 2 := by omega
  simp [hunnamed, hwaited]

theorem lenWithheld_withholds (hpending : s.numbers.pendingMeta.find len = some p) (hunseen : s.scrub.metaSeen.contains len = false)
    (hdue : p + 2 ≤ s.scrub.passes) : Answers (.lenWithheld t len) s (fun s' => s'.numbers.withheld = s.numbers.withheld ++ [len] ∧
      s'.entry len = none ∧ s'.numbers.pendingMeta = s.numbers.pendingMeta.del len ∧ s'.bit Fld.ARY_SCRUB_STATUS_withheld = true) := by
  refine Answers.of_eq (exec_lenWithheld_due hpending hunseen hdue) rfl ?_
  have hwritten := (dramOnly_dramWrite (((s.at t).uncharged len).withhold len) (metaAddr len) (metaLine 0 0 0 0 3 0 0 0)).numbers
  have hnumbers : ((((((s.at t).uncharged len).withhold len).dramWrite (metaAddr len) (metaLine 0 0 0 0 3 0 0 0)).metaSettled len).raise
      Fld.ARY_SCRUB_STATUS_withheld |>.integrity 3 0x0C 0 0 0 0 0 0 0 0).numbers = { s.numbers with
        entries := s.numbers.entries.del len, withheld := s.numbers.withheld ++ [len]
        freed := s.numbers.freed.filter (fun x => x.1 != len), pendingMeta := s.numbers.pendingMeta.del len } := by
    rw [State.integrity, State.postFault_numbers, State.raise_numbers, State.metaSettled_numbers, hwritten, State.withhold,
      State.uncharged_numbers]
    rfl
  have hshown : ∀ y : State, ((y.raise Fld.ARY_SCRUB_STATUS_withheld).integrity 3 0x0C 0 0 0 0 0 0 0 0).bit
      Fld.ARY_SCRUB_STATUS_withheld = true := fun y =>
    (State.scrubBit_integrity rfl ..).trans (State.bit_raise_on y rfl (by decide))
  refine ⟨?_, ?_, ?_, (State.bit_settle ..).trans (hshown _)⟩
  · rw [State.settle_numbers, hnumbers]
  · unfold State.entry
    rw [State.settle_numbers, hnumbers]
    exact Table.find_del_same ..
  · rw [State.settle_numbers, hnumbers]

/-! A search that ends. -/

theorem State.queueRepair_mem (s : State) (bank : Nat) (k : RepairKind) : ⟨bank, k⟩ ∈ (s.queueRepair bank k).scrub.repairs := by
  unfold State.queueRepair
  split
  · next hqueued =>
    obtain ⟨r, hr, heq⟩ := List.any_eq_true.mp hqueued
    obtain ⟨hbank, hkind⟩ := Bool.and_eq_true_iff.mp heq
    rw [← eq_of_beq hbank, ← eq_of_beq hkind]
    exact hr
  · exact List.mem_append_right _ List.mem_cons_self

variable {q : TagSearch} {rest : List TagSearch}

/-- A state in which the first search has ended. -/
def State.searchEnded (s : State) (rest : List TagSearch) : State := { s with scrub := { s.scrub with tagSearches := rest } }

theorem exec_tagRestoreSearchEnd_owned (hfirst : s.scrub.tagSearches = q :: rest)
    (howner : s.numbers.entries.find? (fun p => p.2.state == .live && p.2.row == q.row &&
      (p.2.bank == q.bank || (s.mode.mode == 3 && p.2.bank == partnerBank q.bank))) = some (len, e)) (pass : Bool) :
    exec (.tagRestoreSearchEnd t pass) s = .next (if pass = true then ((s.at t).searchEnded rest).queueRepair q.bank (.restore q.row len q.tide)
      else (s.at t).searchEnded rest).settle := by
  have hq : (s.at t).scrub.tagSearches = q :: rest := hfirst
  refine congrArg (fun y : State => Host.Outcome.next y.settle) ?_
  dsimp only
  rw [hq]
  dsimp only
  rw [State.at_numbers, State.at_mode, howner]
  rfl

/-- The restoring of a lost tag's row is queued where its entry passes (R283). -/
theorem tagRestoreSearchEnd_passes (hfirst : s.scrub.tagSearches = q :: rest)
    (howner : s.numbers.entries.find? (fun p => p.2.state == .live && p.2.row == q.row &&
      (p.2.bank == q.bank || (s.mode.mode == 3 && p.2.bank == partnerBank q.bank))) = some (len, e)) :
    Answers (.tagRestoreSearchEnd t true) s (fun s' => s'.scrub.tagSearches = rest ∧
      ⟨q.bank, .restore q.row len q.tide⟩ ∈ s'.scrub.repairs ∧ s'.arrays = s.arrays) := by
  have hsearches : ∀ y : State, (y.queueRepair q.bank (.restore q.row len q.tide)).scrub.tagSearches = y.scrub.tagSearches := by
    intro y
    unfold State.queueRepair
    split <;> rfl
  have harrays : ∀ y : State, (y.queueRepair q.bank (.restore q.row len q.tide)).arrays = y.arrays := fun y =>
    (congrArg State.arrays (scrubNotes_queueRepair y q.bank (.restore q.row len q.tide)).eq :)
  exact Answers.of_eq (exec_tagRestoreSearchEnd_owned hfirst howner true) (if_pos rfl)
    ⟨hsearches _, State.queueRepair_mem .., harrays _⟩

end Sys2Proof.Machine
end

section
/-! The rebuilding of a stripe of the array shadow (R279): only bytes of the stripe are written. -/
namespace Sys2Proof.Machine
variable {s x y : State} {t stripe : Nat}

/-- Only bytes of a stripe are written. -/
def StripeWritten (stripe : Nat) (m m' : Memory) : Prop :=
  m.wf = true → m'.wf = true ∧ ∀ a, (a < 256 * stripe ∨ 256 * stripe + 256 ≤ a) → m'.get a = m.get a

theorem StripeWritten.refl (m : Memory) : StripeWritten stripe m m := fun h => ⟨h, fun _ _ => rfl⟩

theorem StripeWritten.trans {m m' m'' : Memory} (h : StripeWritten stripe m m') (k : StripeWritten stripe m' m'') :
    StripeWritten stripe m m'' := by
  intro hm
  obtain ⟨hm', hget⟩ := h hm
  obtain ⟨hm'', hget'⟩ := k hm'
  exact ⟨hm'', fun a ha => (hget' a ha).trans (hget a ha)⟩

theorem stripeWritten_write (m : Memory) {a : Nat} {bs : Bytes} (hlo : 256 * stripe ≤ a) (hhi : a + bs.length ≤ 256 * stripe + 256) :
    StripeWritten stripe m (m.write a bs) :=
  fun hm => ⟨Memory.wf_write m a bs hm, fun b hb => Memory.get_write_outside m a b bs hm (by omega)⟩

/-- Columns of a stripe that are set to zero lie in the stripe (R548). -/
theorem stripeWritten_zeros (cs : List Nat) (hcs : ∀ c ∈ cs, c < 8) (m : Memory) :
    StripeWritten stripe m (cs.foldl (fun m c => m.write (256 * stripe + 32 * c) (zeros 32)) m) := by
  induction cs generalizing m with
  | nil => exact .refl m
  | cons c cs ih =>
    have hc := hcs c List.mem_cons_self
    have hfirst : StripeWritten stripe m (m.write (256 * stripe + 32 * c) (zeros 32)) :=
      stripeWritten_write m (by omega) (by rw [length_zeros]; omega)
    rw [List.foldl_cons]
    exact hfirst.trans (ih (fun d hd => hcs d (List.mem_cons_of_mem c hd)) _)

theorem stripeWritten_spoilStripe (s : State) (a n : Nat) : StripeWritten stripe s.dram (s.spoilStripe a n stripe).dram := by
  rw [State.spoilStripe_dram]
  split
  · exact .refl _
  · exact stripeWritten_zeros _ (fun c hc => of_decide_eq_true (List.mem_filter.mp hc).2) _

/-- Bytes within a stripe lie in no other. -/
theorem stripesOf_within {a n : Nat} (hlo : 256 * stripe ≤ a) (hhi : a + n ≤ 256 * stripe + 256) :
    ∀ k ∈ stripesOf a n, k = stripe := by
  intro k hk
  unfold stripesOf at hk
  split at hk
  · exact absurd hk List.not_mem_nil
  · obtain ⟨i, hi, rfl⟩ := List.mem_map.mp hk
    have := List.mem_range.mp hi
    omega

theorem stripeWritten_spoil (s : State) {a n : Nat} (hlo : 256 * stripe ≤ a) (hhi : a + n ≤ 256 * stripe + 256) :
    StripeWritten stripe s.dram (s.spoil a n).dram := by
  have hall := stripesOf_within hlo hhi
  unfold State.spoil
  split
  · exact .refl _
  next hsome =>
    clear hsome
    generalize stripesOf a n = ks at hall
    unfold State.each
    induction ks generalizing s with
    | nil => exact .refl _
    | cons k ks ih =>
      obtain rfl := hall k List.mem_cons_self
      exact (stripeWritten_spoilStripe s a n).trans (ih _ fun j hj => hall j (List.mem_cons_of_mem k hj))

/-- A write of bytes within a stripe. -/
theorem stripeWritten_dramWrite (s : State) {a : Nat} {bs : Bytes} (hlo : 256 * stripe ≤ a)
    (hhi : a + bs.length ≤ 256 * stripe + 256) : StripeWritten stripe s.dram (s.dramWrite a bs).dram := by
  rw [State.dramWrite_dram]
  exact (stripeWritten_spoil s hlo hhi).trans (stripeWritten_write _ hlo hhi)

/-! The units of a stripe. -/

/-- The bytes of a unit whose shadow starts at `a` that lie in a stripe. -/
def UnitBits.inStripe (u : UnitBits) (stripe a : Nat) : Bytes :=
  ((leBytes u.value.toNat 10 ++ leBytes u.mask.toNat 10).take (256 * stripe + 256 - a)).drop (256 * stripe - a)

theorem UnitBits.inStripe_within (u : UnitBits) {a : Nat} (hlo : 256 * stripe < a + 20) (hhi : a < 256 * stripe + 256) :
    max a (256 * stripe) + (u.inStripe stripe a).length ≤ 256 * stripe + 256 := by
  simp only [UnitBits.inStripe, List.length_drop, List.length_take, List.length_append, length_leBytes]
  omega

/-- The shadow of the units of a stripe, from the `first` on, written from the arrays (R279). -/
def State.stripeShadow (s : State) (stripe first : Nat) (ks : List Nat) : State :=
  s.each ks (fun x k => x.dramWrite (max (20 * (first + k)) (256 * stripe))
    ((s.unitBits ((first + k) / 32768) ((first + k) % 32768)).inStripe stripe (20 * (first + k))))

theorem State.stripeShadow_written (s : State) (stripe : Nat) {first : Nat} (ks : List Nat)
    (hks : ∀ k ∈ ks, 256 * stripe < 20 * (first + k) + 20 ∧ 20 * (first + k) < 256 * stripe + 256) :
    DramOnly s (s.stripeShadow stripe first ks) ∧ StripeWritten stripe s.dram (s.stripeShadow stripe first ks).dram := by
  refine ⟨.each (fun _ _ => dramOnly_dramWrite ..) _ _, ?_⟩
  unfold State.stripeShadow State.each
  generalize s.unitBits = units
  induction ks generalizing s with
  | nil => exact .refl _
  | cons k ks ih =>
    obtain ⟨hlo, hhi⟩ := hks k List.mem_cons_self
    refine .trans ?_ (ih _ fun j hj => hks j (List.mem_cons_of_mem k hj))
    exact stripeWritten_dramWrite s (Nat.le_max_right ..) (UnitBits.inStripe_within _ hlo hhi)

/-! The command. -/

/-- The number of units whose shadows a stripe holds, in part or whole. -/
def stripeUnits (stripe : Nat) : Nat := (256 * stripe + 255) / 20 + 1 - 256 * stripe / 20

/-- A stripe that has been written from its units is rebuilt, which is counted and reported (R279). -/
def State.stripeRebuilt (s : State) (stripe : Nat) : State :=
  let first := 256 * stripe / 20
  let z := s.stripeShadow stripe first (List.range (stripeUnits stripe))
  let z2 := { z with scrub := { z.scrub with stripes := z.scrub.stripes.filter (fun k => k != stripe) } }
  ((z2.bump Fld.ARY_INTEG_COUNT1_stripe_rebuilds).raise Fld.ARY_SCRUB_STATUS_rebuilt).rowEvent 0 0x04 (first / 32768)
    (first % 32768 / (z2.bankWidth (first / 32768)).getD 1) 0 3 0

/-- Writing each unit of a stripe in turn writes its shadow. -/
theorem State.each_stripeShadow (s : State) (stripe first : Nat) (ks : List Nat) (f : State → Nat → State)
    (hf : ∀ x, ∀ k ∈ ks, f x k = x.dramWrite (max (20 * (first + k)) (256 * stripe))
      ((s.unitBits ((first + k) / 32768) ((first + k) % 32768)).inStripe stripe (20 * (first + k)))) :
    s.each ks f = s.stripeShadow stripe first ks := List.foldl_ext _ _ _ hf

/-- Outside M3 a unit that passes its check is taken for its stripe (R279). -/
theorem State.rebuildUnit_passes (hmode : s.mode.mode ≠ 3) (bank unit : Nat) (mirror : Bool) :
    s.rebuildUnit bank unit true mirror = some (s.unitBits bank unit, false) := if_neg hmode

theorem State.repairCopy_same (s : State) (bank unit : Nat) (own : Bool) : s.repairCopy bank unit own own = s :=
  if_neg (by simp)

theorem exec_shadowStripeRebuild_passes (hmarked : s.scrub.stripes.contains stripe = true)
    (hread : s.scrub.stripeReads.any (fun x => x.1 == stripe) = false) (hmode : s.mode.mode ≠ 3) :
    exec (.shadowStripeRebuild t stripe []) s = .next ((s.at t).stripeRebuilt stripe).settle := by
  have htaken : (List.range (stripeUnits stripe)).map (fun k => (s.at t).rebuildUnit ((256 * stripe / 20 + k) / 32768)
      ((256 * stripe / 20 + k) % 32768) true true) = (List.range (stripeUnits stripe)).map (fun k =>
        some ((s.at t).unitBits ((256 * stripe / 20 + k) / 32768) ((256 * stripe / 20 + k) % 32768), false)) :=
    List.map_congr_left fun k _ => State.rebuildUnit_passes hmode _ _ true
  have hno : ¬ (!(s.at t).scrub.stripes.contains stripe || (s.at t).scrub.stripeReads.any (fun x => x.1 == stripe)) = true := by
    rw [State.at_scrub, hmarked, hread]
    decide
  refine congrArg (fun y : State => Host.Outcome.next y.settle) ?_
  unfold stripeUnits at htaken
  dsimp only [List.getD_nil]
  rw [if_neg hno, htaken, State.each_stripeShadow (s.at t) stripe (256 * stripe / 20) _ _ ?each, if_neg ?source]
  · rfl
  case each =>
    intro x k hk
    rw [List.getD_eq_getElem?_getD, List.getElem?_map, List.getElem?_range (List.mem_range.mp hk)]
    exact State.repairCopy_same ..
  case source => simp

end Sys2Proof.Machine
end

section
/-! O28: the scrubber. -/
namespace Sys2Proof.Machine
variable {s : State} {t : Nat} {r : ScrubRead} {rest : List ScrubRead}

/-! The line that is queued again. -/

theorem State.queuePrio_room (h : s.scrub.prio.length < 64) (bank line : Nat) (verify : Bool) : s.queuePrio bank line verify =
    { s with scrub := { s.scrub with prio := s.scrub.prio ++ [⟨bank, line, verify⟩] } } := if_neg (by omega)

/-- A line that is not compared is in the priority queue, and no repair and no row changes (R274). -/
theorem scrubCompare_discards {c : LineCheck} (hreads : s.scrub.reads = r :: rest) (hdirty : r.dirty = true)
    (hroom : s.scrub.prio.length < 64) : Answers (.scrubCompare t c) s (fun s' => s'.scrub.reads = rest ∧
      (∃ p ∈ s'.scrub.prio, p.bank = r.bank ∧ p.line = r.line) ∧ s'.arrays = s.arrays ∧ s'.scrub.repairs = s.scrub.repairs) := by
  have hbumped : (((s.at t).lineReturned r rest).bump Fld.ARY_INTEG_COUNT0_discarded).scrub = { s.scrub with reads := rest } ∧
      (((s.at t).lineReturned r rest).bump Fld.ARY_INTEG_COUNT0_discarded).arrays = s.arrays := by
    rw [State.bump_scrub, State.bump_arrays, ((s.at t).lineReturned_issues r rest).eq]
    exact ⟨rfl, rfl⟩
  obtain ⟨hscrub, harrays⟩ := hbumped
  refine Answers.of_eq (exec_scrubCompare_dirty hreads hdirty) (State.queuePrio_room (by rw [hscrub]; exact hroom) ..) ?_
  rw [hscrub]
  exact ⟨rfl, ⟨_, List.mem_append_right _ List.mem_cons_self, rfl, rfl⟩, harrays, rfl⟩

/-! The one repair that is made. -/

theorem State.unitFixed_settle {z : State} {bank u : Nat} {b : UnitBits} (h : z.scrub.repairs = [] ∧ z.unitBits bank u = b ∧
    z.bit Fld.ARY_SCRUB_STATUS_repaired = true) : z.settle.scrub.repairs = [] ∧ z.settle.unitBits bank u = b ∧
    z.settle.bit Fld.ARY_SCRUB_STATUS_repaired = true := by
  rw [State.bit_settle]
  exact h

theorem State.rowWritten_settle {z : State} {bank row : Nat} {g : Tag} (h : z.scrub.repairs = [] ∧ z.tag bank row = g) :
    z.settle.scrub.repairs = [] ∧ z.settle.tag bank row = g := h

theorem State.rowRetired_settle {z : State} {bank row : Nat} {g : Tag} (h : z.scrub.repairs = [] ∧ z.tag bank row = g ∧
    z.bit Fld.ARY_SCRUB_STATUS_repaired = true) : z.settle.scrub.repairs = [] ∧ z.settle.tag bank row = g ∧
    z.settle.bit Fld.ARY_SCRUB_STATUS_repaired = true := by
  rw [State.bit_settle]
  exact h

/-- The unit takes its shadow. -/
theorem repairWrite_unitFix {bank u : Nat} (hin : (s.at t).inWrite = true) (hone : s.scrub.repairs = [⟨bank, .unitFix u⟩])
    (hfree : s.repairBarred ⟨bank, .unitFix u⟩ = false) (hroom : (s.at t).noRepairs.roomFor .repair
      ((s.at t).noRepairs.repairBanks ⟨bank, .unitFix u⟩) ((s.at t).noRepairs.repairStrokes ⟨bank, .unitFix u⟩) = true) :
    Answers (.repairWrite t) s (fun s' => s'.scrub.repairs = [] ∧
      s'.unitBits bank u = s.shadowUnit (s.shadowBank bank (u / (s.bankWidth bank).getD 1)) u ∧
      s'.bit Fld.ARY_SCRUB_STATUS_repaired = true) := by
  have hfixed := ((s.at t).repairTaken ⟨bank, .unitFix u⟩).repair_unitFix bank u
  rw [State.repairTaken_repairs, State.repairTaken_shadow, State.at_shadow] at hfixed
  exact Answers.of_eq (exec_repairWrite_one hin hone hfree hroom) rfl (State.unitFixed_settle hfixed)

/-- The row is EMPTY. -/
theorem repairWrite_emptyRow {bank row : Nat} (hin : (s.at t).inWrite = true) (hone : s.scrub.repairs = [⟨bank, .emptyRow row⟩])
    (hfree : s.repairBarred ⟨bank, .emptyRow row⟩ = false) (hroom : (s.at t).noRepairs.roomFor .repair
      ((s.at t).noRepairs.repairBanks ⟨bank, .emptyRow row⟩) ((s.at t).noRepairs.repairStrokes ⟨bank, .emptyRow row⟩) = true) :
    Answers (.repairWrite t) s (fun s' => s'.scrub.repairs = [] ∧ s'.tag bank row = Tag.reset) := by
  have hemptied := State.repair_emptyRow ((s.at t).repairTaken ⟨bank, .emptyRow row⟩) bank row
  rw [State.repairTaken_repairs] at hemptied
  exact Answers.of_eq (exec_repairWrite_one hin hone hfree hroom) rfl (State.rowWritten_settle hemptied)

/-- The row is retired. -/
theorem repairWrite_orphan {bank row : Nat} (hin : (s.at t).inWrite = true) (hone : s.scrub.repairs = [⟨bank, .orphan row⟩])
    (hfree : s.repairBarred ⟨bank, .orphan row⟩ = false) (hroom : (s.at t).noRepairs.roomFor .repair
      ((s.at t).noRepairs.repairBanks ⟨bank, .orphan row⟩) ((s.at t).noRepairs.repairStrokes ⟨bank, .orphan row⟩) = true)
    (hlive : (s.tag bank row).state = .live) : Answers (.repairWrite t) s (fun s' => s'.scrub.repairs = [] ∧
      s'.tag bank row = { s.tag bank row with state := .retiring, ptide := s.parity } ∧
      s'.bit Fld.ARY_SCRUB_STATUS_repaired = true) := by
  have hretired := State.repair_orphan (s := (s.at t).repairTaken ⟨bank, .orphan row⟩) hlive
  rw [State.repairTaken_tag, State.repairTaken_parity, State.repairTaken_repairs] at hretired
  exact Answers.of_eq (exec_repairWrite_one hin hone hfree hroom) rfl (State.rowRetired_settle hretired)

/-! The stripe that is rebuilt. -/

theorem stripeUnits_within (stripe : Nat) : ∀ k ∈ List.range (stripeUnits stripe),
    256 * stripe < 20 * (256 * stripe / 20 + k) + 20 ∧ 20 * (256 * stripe / 20 + k) < 256 * stripe + 256 := by
  intro k hk
  have hlt := List.mem_range.mp hk
  unfold stripeUnits at hlt
  omega

/-- A rebuilt stripe is no longer marked, and no byte outside it is written (R279). -/
theorem State.stripeRebuilt_leaves (s : State) (stripe : Nat) :
    (s.stripeRebuilt stripe).scrub = { s.scrub with stripes := s.scrub.stripes.filter (fun k => k != stripe) } ∧
    (s.stripeRebuilt stripe).bit Fld.ARY_SCRUB_STATUS_rebuilt = true ∧ (s.stripeRebuilt stripe).arrays = s.arrays ∧
    StripeWritten stripe s.dram (s.stripeRebuilt stripe).dram := by
  obtain ⟨honly, hwritten⟩ := s.stripeShadow_written stripe _ (stripeUnits_within stripe)
  unfold State.stripeRebuilt
  dsimp only
  generalize s.stripeShadow stripe _ _ = z at honly hwritten ⊢
  refine ⟨?_, (State.scrubBit_rowEvent rfl ..).trans (State.bit_raise_on _ rfl (by decide)), ?_, ?_⟩
  · rw [State.rowEvent, State.integrity, State.postFault_scrub, State.raise_scrub, State.bump_scrub, honly.eq]
    rfl
  · rw [State.rowEvent, State.integrity, State.postFault_arrays, State.raise_arrays, State.bump_arrays, honly.eq]
    rfl
  · rw [State.rowEvent, State.integrity, State.postFault_dram, State.raise_dram, State.bump_dram]
    exact hwritten

/-! The statement. -/

/-- Settles O28: each command is taken to the branch that the premises select, and what it then does to the queues of the scrubber, to the
rows and to DRAM is read off the lemma about its one operation. -/
theorem scrubberWorks : Obligations.ScrubberWorks := by
  unfold Obligations.ScrubberWorks
  intro s t
  refine ⟨?read, ?compare, ?repair, ?rebuild, ?withheld, ?search, ?stripe, ?complete⟩
  case read =>
    intro p hin hserves hdomain hfirst hprio hstripes hup hen
    refine Answers.of_eq (exec_scrubRead_one hin hserves hdomain hfirst hprio hstripes hup hen) (State.readLine_only ..) ?_
    exact ⟨rfl, rfl⟩
  case compare =>
    intro r rest hreads
    refine ⟨fun c hdirty hroom => scrubCompare_discards hreads hdirty hroom, fun hclean hwidth hverifying hpcs hagree => ?_⟩
    refine Answers.of_eq (scrubCompare_agrees hreads hclean hwidth hverifying hpcs hagree) ((s.at t).lineReturned_issues r rest).eq ?_
    exact ⟨rfl, rfl⟩
  case repair =>
    rintro ⟨bank, kind⟩ hin hone hfree s0 hroom
    refine ⟨?unit, ?empty, ?orphan⟩
    case unit =>
      rintro u rfl
      exact repairWrite_unitFix hin hone hfree hroom
    case empty =>
      rintro row rfl
      exact repairWrite_emptyRow hin hone hfree hroom
    case orphan =>
      rintro row rfl hlive
      exact repairWrite_orphan hin hone hfree hroom hlive
  case rebuild =>
    intro len e he hpending hseen g hlen hgen hstate
    exact metaRebuild_rebuilds he hpending hseen hlen hgen hstate
  case withheld =>
    intro len p hpending hunseen hdue
    exact lenWithheld_withholds hpending hunseen hdue
  case search =>
    intro x rest len e hfirst howner
    exact ⟨tagRestoreSearchEnd_passes hfirst howner,
      Leaves.of_eq (exec_tagRestoreSearchEnd_owned hfirst howner false) (if_neg Bool.false_ne_true)⟩
  case stripe =>
    intro stripe hmarked hread hmode
    obtain ⟨hscrub, hshown, harrays, hwritten⟩ := (s.at t).stripeRebuilt_leaves stripe
    refine Answers.of_eq (exec_shadowStripeRebuild_passes hmarked hread hmode) rfl ?_
    rw [State.settle_scrub, hscrub, State.settle_arrays, State.settle_dram]
    exact ⟨rfl, rfl, (State.bit_settle ..).trans hshown, harrays, fun a hwf ha => (hwritten hwf).2 a ha⟩
  case complete =>
    intro bank line n hcount
    refine congrArg (fun y : State => Host.Outcome.next y.settle) ?_
    dsimp only
    rw [State.at_scrub, hcount]

end Sys2Proof.Machine
end

section
/-! The output pins and the lock gates (R325, R508, R606, R632): what a state that has settled drives, and that every command ends in one. -/
namespace Sys2Proof.Machine
variable {s : State} {c : Instr}

/-! What settling leaves of the conditions, and what it drives. -/

@[simp] theorem State.settle_alertWanted (s : State) : s.settle.alertWanted = s.alertWanted := rfl
@[simp] theorem State.settle_gatesWanted (s : State) : s.settle.gatesWanted = s.gatesWanted := rfl
@[simp] theorem State.settle_strokesPass (s : State) : s.settle.strokesPass = s.strokesPass := rfl
@[simp] theorem State.settle_showsManifest (s : State) : s.settle.showsManifest = s.showsManifest := rfl

@[simp] theorem State.settle_gatesOpen (s : State) : s.settle.ring.gatesOpen = s.gatesWanted := rfl
@[simp] theorem State.settle_lgHoldE (s : State) : s.settle.pins.lgHoldE = s.gatesWanted := rfl
@[simp] theorem State.settle_lgHoldW (s : State) : s.settle.pins.lgHoldW = s.gatesWanted := rfl

@[simp] theorem State.settle_alert (s : State) :
    s.settle.pins.alert = (s.alertWanted || (s.strokesPass && s.pinsNow.alert)) := rfl

@[simp] theorem State.settle_nextAlert (s : State) : s.settle.pins.nextAlert = s.alertWanted := rfl

@[simp] theorem State.settle_mnfXoff (s : State) : s.settle.pins.mnfXoff =
    if s.strokesPass then s.pinsNow.mnfXoff else s.mnfLevel s.pinsNow.mnfXoff := rfl

@[simp] theorem State.settle_nextMnf (s : State) : s.settle.pins.nextMnf = s.mnfLevel s.pinsNow.mnfXoff := rfl

/-! The level of MNF_XOFF (R325, R632). -/

/-- While the manifest queue is shown, the guard of `State.mnfLevel` is down. -/
theorem State.showsManifest_eq (s : State) : s.showsManifest =
    !(!s.serving || !s.power.railsValid || decide (3 ≤ s.power.state) || s.power.tamperHold) := by
  have hstate : decide (s.power.state ≤ 2) = !decide (3 ≤ s.power.state) := by
    rw [← decide_not]
    exact decide_eq_decide.mpr (by omega)
  simp [State.showsManifest, hstate]

theorem State.mnfLevel_hidden (h : s.showsManifest = false) (was : Bool) : s.mnfLevel was = true := by
  rw [State.showsManifest_eq, Bool.not_eq_false'] at h
  exact if_pos h

theorem State.mnfLevel_shown (h : s.showsManifest = true) (was : Bool) : s.mnfLevel was =
    if s.fld Fld.LRN_MNF_WM_high ≤ s.manifest.occupancy then true
    else if s.fld Fld.LRN_MNF_WM_low < s.fld Fld.LRN_MNF_WM_high then
      (if s.manifest.occupancy ≤ s.fld Fld.LRN_MNF_WM_low then false else was)
    else false := by
  rw [State.showsManifest_eq, Bool.not_eq_true'] at h
  exact if_neg (Bool.eq_false_iff.mp h)

theorem State.mnfLevel_high (h : s.showsManifest = true) (hocc : s.fld Fld.LRN_MNF_WM_high ≤ s.manifest.occupancy) (was : Bool) :
    s.mnfLevel was = true := by
  rw [State.mnfLevel_shown h, if_pos hocc]

theorem State.mnfLevel_low (h : s.showsManifest = true) (hlow : s.manifest.occupancy ≤ s.fld Fld.LRN_MNF_WM_low)
    (hhigh : s.manifest.occupancy < s.fld Fld.LRN_MNF_WM_high) (was : Bool) : s.mnfLevel was = false := by
  rw [State.mnfLevel_shown h, if_neg (Nat.not_le.mpr hhigh), if_pos hlow, ite_self]

/-! Every command. -/

/-- A state that has settled drives its pins and gates as its conditions give. -/
theorem pinsFollow_settle (s : State) : PinsFollow s.settle := by
  unfold PinsFollow
  simp only [State.settle_alertWanted, State.settle_gatesWanted, State.settle_strokesPass, State.settle_showsManifest,
    State.settle_gatesOpen, State.settle_lgHoldE, State.settle_lgHoldW, State.settle_alert, State.settle_nextAlert, State.settle_mnfXoff,
    State.settle_nextMnf, State.fld_settle, State.settle_manifest]
  refine ⟨fun h => ?alert, trivial, trivial, trivial, trivial, fun h => State.mnfLevel_hidden h _,
    fun h => ⟨fun hhigh => State.mnfLevel_high h hhigh _, fun hlow hhigh => State.mnfLevel_low h hlow hhigh _⟩, fun h => ?still⟩
  case alert => rw [h, Bool.true_or]
  case still => simp [h]

/-- The reset state with PD00's supplies as they are drives its pins and gates as its conditions give. -/
theorem pinsFollow_fresh (s : State) (vddAon mainEn : Bool) : PinsFollow (State.opens { State.reset with
    clock := { Clock.reset with grid := s.clock.grid + 1 }, fuses := s.fuses, freeCounter := s.freeCounter, out := s.out
    pending := s.pending, power := { Power.reset with vddAon := vddAon, mainEn := mainEn } }) := by
  generalize hx : State.opens _ = x
  have halert : x.alertWanted = false := by
    have hsame : x.alertWanted = State.reset.alertWanted := hx ▸ rfl
    exact hsame.trans (by decide)
  have hgates : x.gatesWanted = false := hx ▸ rfl
  have hshown : x.showsManifest = false := hx ▸ rfl
  have hring : x.ring = Ring.reset := hx ▸ rfl
  have hpins : x.pins = Snapshot.reset.pins := hx ▸ rfl
  unfold PinsFollow
  rw [halert, hgates, hshown, hring, hpins]
  simp [Ring.reset, Snapshot.reset]

/-- Every command but the two that bring the reset state ends in a state whose pins and gates have settled. -/
theorem exec_settles (hreset : c ≠ .powerOnReset) (hremoved : c ≠ .vddAonRemoved) (s : State) :
    ∃ x : State, exec c s = .next x.settle := by
  cases c
  case powerOnReset => exact absurd rfl hreset
  case vddAonRemoved => exact absurd rfl hremoved
  all_goals exact ⟨_, rfl⟩

/-- Every command is answered with a next state, whose pins and gates follow it. -/
theorem exec_pinsFollow (c : Instr) (s : State) : Answers c s PinsFollow := by
  by_cases hreset : c = .powerOnReset
  · subst hreset
    exact ⟨_, rfl, pinsFollow_fresh s true true⟩
  · by_cases hremoved : c = .vddAonRemoved
    · subst hremoved
      exact ⟨_, rfl, pinsFollow_fresh s false false⟩
    · obtain ⟨x, hx⟩ := exec_settles hreset hremoved s
      exact ⟨_, hx, pinsFollow_settle x⟩

/-- Settles O2: a step that runs a command ends as `exec_pinsFollow` has it, and one that idles leaves the state as it was. -/
theorem pinsFollowEveryStep : Obligations.PinsFollowEveryStep := by
  unfold Obligations.PinsFollowEveryStep
  intro s h
  unfold step
  split
  · exact ⟨s, rfl, h⟩
  · next c rest _ => exact exec_pinsFollow c { s with pending := rest }

end Sys2Proof.Machine
end

section
/-! The fault log and the management core (R594, R600, R604 to R606, R641): what posting a record, delivering one to a ring, and a restart of the
management core leave, and when ALERT_N is driven low. -/
namespace Sys2Proof.Machine
variable {s s' : State} {t n : Nat} {r : FaultRec} {rest : List FaultRec} {c : Instr} {waiting : List Instr}

/-! ALERT_N. -/

/-- Bit 0 of the byte of a class in FLT_ROUTE. -/
theorem State.route_alert (s : State) (cls : Nat) : (s.route cls).testBit 0 = (s.fld Fld.FLT_ROUTE_route).testBit (8 * cls) := by
  unfold State.route
  rw [show (256 : Nat) = 2 ^ 8 from rfl, Nat.testBit_mod_two_pow, Nat.testBit_div_two_pow]
  simp

theorem State.alertWanted_iff (s : State) : s.alertWanted = true ↔
    (∃ n, n < 5 ∧ (s.fld Fld.FLT_STATUS_pending).testBit n = true ∧ (s.fld Fld.FLT_ROUTE_route).testBit (8 * n) = true) ∨
      s.power.tamperHold = true ∨ (∃ x ∈ s.dramCtl.stackStates, x.hot = true) ∨ s.power.halted = true := by
  simp only [State.alertWanted, State.route_alert, Bool.or_eq_true, List.any_eq_true, List.mem_range, Bool.and_eq_true, or_assoc]

/-- After every step ALERT_N is low where its condition holds, and its next level is that condition. -/
theorem step_alert (hfront : s.pending = c :: waiting) (hstep : step s = .next s') :
    (s'.alertWanted = true → s'.pins.alert = true) ∧ s'.pins.nextAlert = s'.alertWanted := by
  obtain ⟨x, hx, hlow, hnext, -⟩ := exec_pinsFollow c { s with pending := waiting }
  unfold step at hstep
  rw [hfront] at hstep
  obtain rfl : x = s' := by simpa [hx] using hstep
  exact ⟨hlow, hnext⟩

/-! A record that is posted. -/

theorem State.testBit_pending_raiseBits (s : State) {cls : Nat} (h : cls < 5) :
    ((s.raiseBits Fld.FLT_STATUS_pending (2 ^ cls)).fld Fld.FLT_STATUS_pending).testBit cls = true := by
  rw [State.fld_raiseBits, State.fld_setFld_same _ _ _ _ (by decide) (Reg.resetNat_lt _), Nat.testBit_mod_two_pow, Nat.testBit_or,
    Nat.testBit_two_pow_self]
  exact Bool.and_eq_true_iff.mpr ⟨decide_eq_true h, Bool.or_true _⟩

/-- A record that is posted leaves its class pending (R600). -/
theorem State.testBit_pending_postFault (s : State) {cls : Nat} (h : cls < 5) (block : Nat) (bytes : Bytes) :
    ((s.postFault cls block bytes).fld Fld.FLT_STATUS_pending).testBit cls = true := by
  unfold State.postFault
  extract_lets free kept faults s1 s2 was s3
  have hraised := s2.testBit_pending_raiseBits h
  split
  · exact hraised
  · rwa [State.fld_of_regs (State.sendVector_regs s3 cls)]

theorem State.testBit_pending_faultEvent (s : State) (code : Nat) {cls : Nat} (h : cls < 5) (block object a b : Nat) :
    ((s.faultEvent code cls block object a b).fld Fld.FLT_STATUS_pending).testBit cls = true := s.testBit_pending_postFault h _ _

/-! A restart of the management core. -/

theorem State.abandonFlash_only (s : State) :
    s.abandonFlash = { s with regs := s.abandonFlash.regs, host := { s.host with flashBusy := false } } := by
  unfold State.abandonFlash
  split
  · rfl
  · next h =>
    rw [← Bool.eq_false_iff.mpr h]

theorem State.abandonWrap_only (s : State) :
    s.abandonWrap = { s with cmds := s.abandonWrap.cmds, security := { s.security with keyWrap := none } } := by
  unfold State.abandonWrap
  split
  · rfl
  · next h => rw [← h]

/-- The KEY_WRAP that ran has KEY_REFUSED as its result (R594, R597). -/
theorem State.abandonWrap_result {id : Nat} (h : s.security.keyWrap = some id) :
    ∀ a ∈ s.abandonWrap.cmds.accepted, a.id = id → a.result = some (0x1B, 0, 0, 0, []) := by
  have hcmds : s.abandonWrap.cmds = (s.setResult id (0x1B, 0, 0, 0, []) s.dueTide).cmds := by simp [State.abandonWrap, h]
  rw [hcmds]
  intro a ha
  obtain ⟨b, -, rfl⟩ := List.mem_map.mp ha
  by_cases hb : b.id = id <;> simp [hb]

/-- The work that a restart ends has ended (R594). -/
def State.workEnded (s : State) : State :=
  let x := s.abandonFlash.abandonWrap
  { x with scrub := { x.scrub with tagSearches := x.scrub.tagSearches.map (fun k => { k with grid := x.clock.grid }) } }

theorem State.workEnded_only (s : State) : s.workEnded = { s with
    regs := s.workEnded.regs, cmds := s.workEnded.cmds, scrub := s.workEnded.scrub, host := { s.host with flashBusy := false }
    security := { s.security with keyWrap := none } } := by
  unfold State.workEnded
  dsimp only
  rw [State.abandonWrap_only, State.abandonFlash_only]

/-- The restart is recorded once the work has ended. -/
theorem State.mgmtRestart_eq (s : State) (cause : Nat) : ∃ work, s.mgmtRestart cause = ((s.workEnded.raise
    Fld.PWR_RESET_CAUSE_watchdog).bumpHold Fld.PWR_RESET_CAUSE_watchdog_restarts).faultEvent 0x0A 1 0x0 0 cause work := ⟨_, rfl⟩

theorem reports_bumpHold (s : State) (f : Fld) (n i : Nat) : Reports s (s.bumpHold f n i) := rfl

theorem reports_mgmtRestart (s : State) (cause : Nat) : Reports s.workEnded (s.mgmtRestart cause) :=
  ((reports_raise ..).trans (reports_bumpHold ..)).trans (reports_faultEvent ..)

theorem State.watchdog_faultEvent (s : State) (code block object a b : Nat) :
    (((s.raise Fld.PWR_RESET_CAUSE_watchdog).bumpHold Fld.PWR_RESET_CAUSE_watchdog_restarts).faultEvent code 1 block object a b).bit
      Fld.PWR_RESET_CAUSE_watchdog = true := by
  have hcounted : ∀ x : State, (x.bumpHold Fld.PWR_RESET_CAUSE_watchdog_restarts).bit Fld.PWR_RESET_CAUSE_watchdog =
      x.bit Fld.PWR_RESET_CAUSE_watchdog := fun x => State.bit_setFld_apart (x.noteRc _ _ _) _ _ _ (by decide)
  have hclass : (classCount 1).reg = .FLT_COUNT0 := rfl
  have hreported := State.fld_postFault ((s.raise Fld.PWR_RESET_CAUSE_watchdog).bumpHold Fld.PWR_RESET_CAUSE_watchdog_restarts)
    Fld.PWR_RESET_CAUSE_watchdog 1 block
  calc _ = ((s.raise Fld.PWR_RESET_CAUSE_watchdog).bumpHold Fld.PWR_RESET_CAUSE_watchdog_restarts).bit Fld.PWR_RESET_CAUSE_watchdog :=
        congrArg (· != 0) (hreported _ (by decide) (by decide) (by rw [hclass]; decide))
    _ = (s.raise Fld.PWR_RESET_CAUSE_watchdog).bit Fld.PWR_RESET_CAUSE_watchdog := hcounted _
    _ = true := State.bit_raise_on _ rfl (by decide)

theorem mgmtWatchdog_restarts (hruns : (s.at t).coreRuns = true) : Answers (.mgmtWatchdog t) s (fun s' =>
    s'.host.flashBusy = false ∧ s'.security.keyWrap = none ∧ s'.bit Fld.PWR_RESET_CAUSE_watchdog = true ∧
    (s'.fld Fld.FLT_STATUS_pending).testBit 1 = true ∧
    (∀ id, s.security.keyWrap = some id → ∀ a ∈ s'.cmds.accepted, a.id = id → a.result = some (0x1B, 0, 0, 0, [])) ∧
    s'.tables = s.tables ∧ s'.dram = s.dram) := by
  obtain ⟨work, hrestart⟩ := (s.at t).mgmtRestart_eq 1
  have hreports := reports_mgmtRestart (s.at t) 1
  refine Answers.of_eq rfl (if_pos hruns) ⟨?flash, ?wrap, ?cause, ?pending, ?refused, ?tables, ?dram⟩
  case flash => rw [State.settle_host, hreports.eq, State.workEnded_only]
  case wrap => rw [State.settle_security, hreports.eq, State.workEnded_only]
  case cause =>
    rw [State.bit_settle, hrestart]
    exact State.watchdog_faultEvent ..
  case pending =>
    rw [State.fld_settle, hrestart]
    exact State.testBit_pending_faultEvent _ _ (by decide) ..
  case refused =>
    intro id hid
    rw [State.settle_cmds, hreports.eq]
    refine State.abandonWrap_result (s := (s.at t).abandonFlash) ?_
    rw [State.abandonFlash_only]
    exact hid
  case tables =>
    rw [State.settle_tables, hreports.eq, State.workEnded_only]
    rfl
  case dram =>
    rw [State.settle_dram, hreports.eq, State.workEnded_only]
    rfl

/-! The die sensors. -/

section
variable {temps : List Int}

/-- The state that holds new readings. -/
def State.withReadings (s : State) (temps : List Int) : State := { s with service := { s.service with dieTemps := temps } }

/-- The event of a hot sensor has been reported (R641). -/
def State.markHot (s : State) : State := { s with service := { s.service with dieHot := true } }

/-- A reading above 105 °C is reported (R641). -/
def State.dieOverheats (s : State) (temps : List Int) : State :=
  (s.wholeDegrees (hottest temps).1).2.markHot.faultEvent 0x16 2 0xC (hottest temps).2 (s.wholeDegrees (hottest temps).1).1
    (s.wholeDegrees (hottest temps).1).2.mode.mode

theorem State.wholeDegrees_service (s : State) (x : Int) : (s.wholeDegrees x).2.service = s.service := by
  unfold State.wholeDegrees
  split <;> rfl

theorem State.dieOverheats_service (s : State) (temps : List Int) :
    (s.dieOverheats temps).service = { s.service with dieHot := true } := by
  unfold State.dieOverheats
  rw [State.faultEvent_service, State.markHot, State.wholeDegrees_service]

theorem State.dieOverheats_pending (s : State) (temps : List Int) :
    ((s.dieOverheats temps).fld Fld.FLT_STATUS_pending).testBit 2 = true := by
  unfold State.dieOverheats
  exact State.testBit_pending_faultEvent _ _ (by decide) ..

section
variable (hvdd : s.power.vddAon = true) (hlen : temps.length = 8) (hruns : s.logRuns = true) (hcool : s.service.dieHot = false)
include hvdd hlen hruns hcool

/-- What new readings lead to while the fault log takes records and no sensor is known to be hot (R641). -/
theorem exec_dieTempReadout (t : Nat) : exec (.dieTempReadout t temps) s = .next (State.settle
    (if 1680 < (hottest temps).1 then ((s.at t).withReadings temps).dieOverheats temps else (s.at t).withReadings temps)) := by
  have hpower : ((s.at t).withReadings temps).power.vddAon = true := hvdd
  have hlog : ((s.at t).withReadings temps).logRuns = true := hruns
  have hknown : ((s.at t).withReadings temps).service.dieHot = false := hcool
  refine Eq.trans (b := .next (State.settle
    (if !((s.at t).withReadings temps).power.vddAon || temps.length != 8 then s.at t
    else if !((s.at t).withReadings temps).logRuns then (s.at t).withReadings temps
    else if 1680 < (hottest temps).1 && !((s.at t).withReadings temps).service.dieHot then
      ((s.at t).withReadings temps).dieOverheats temps
    else if (hottest temps).1 ≤ 1600 && ((s.at t).withReadings temps).service.dieHot then _
    else (s.at t).withReadings temps))) rfl ?_
  simp [hpower, hlog, hknown, hlen]

theorem dieTempReadout_below (hlow : (hottest temps).1 ≤ 1680) : Leaves (.dieTempReadout t temps) s { s.at t with
    service := { s.service with dieTemps := temps } } :=
  .of_eq (exec_dieTempReadout hvdd hlen hruns hcool t) (if_neg (Int.not_lt.mpr hlow))

theorem dieTempReadout_above (hhigh : 1680 < (hottest temps).1) : Answers (.dieTempReadout t temps) s (fun s' =>
    s'.service = { s.service with dieTemps := temps, dieHot := true } ∧ (s'.fld Fld.FLT_STATUS_pending).testBit 2 = true) := by
  refine Answers.of_eq (exec_dieTempReadout hvdd hlen hruns hcool t) (if_pos hhigh) ⟨?_, ?_⟩
  · rw [State.settle_service, State.dieOverheats_service]
    rfl
  · rw [State.fld_settle, State.dieOverheats_pending]
end

end

/-! The window of the fault log. -/

theorem fltWinRead_frees (hheld : s.faults.held = r :: rest) {byte size : Nat} (hserved : (s.at t).served .FLT_WIN3 0 = true)
    (hdest : s.fld Fld.FLT_CTL_dest = 0) (hlast : 8 ≤ byte + size) : Leaves (.fltWinRead t 0 byte size) s { s.at t with
      faults := { s.faults with held := rest, lastTaken := r.bytes }
      out := s.out ++ [.readData 0 (((leBytes ((s.at t).opening.fltWindow 3) 8).drop byte).take size)] } := by
  have hfreed : (s.at t).fltRead byte size = { s.at t with faults := { s.faults with held := rest, lastTaken := r.bytes } } := by
    have hfirst : (s.at t).fltRecord = r.bytes := by simp [State.fltRecord, hheld]
    have hguard : ((s.at t).fld Fld.FLT_CTL_dest = 0 && 8 ≤ byte + size && !(s.at t).faults.held.isEmpty) = true := by
      simp [hdest, hlast, hheld]
    refine (if_pos hguard).trans ?_
    unfold State.freeFault
    rw [hfirst, State.at_faults, hheld]
    rfl
  refine .of_eq rfl ((if_neg (by simp [hserved])).trans ?_)
  rw [hfreed]
  rfl

/-! A record that is written to a host ring. -/

theorem State.hostRing_setRing (s : State) (n : Nat) (x : HostRing) : (s.setRing n x).hostRing n = x := by
  simp [State.hostRing, State.setRing]

theorem State.each_emit {α : Type} (s : State) (l : List α) (e : α → Emit) :
    s.each l (fun x a => x.emit (e a)) = { s with out := s.out ++ l.map e } := by
  induction l generalizing s with
  | nil => simp [State.each]
  | cons a l ih =>
    refine (ih (s.emit (e a))).trans ?_
    simp [State.emit]

/-- A record of one entry is written in one piece (R521). -/
theorem ringPieces_one (base : Nat) {size : Nat} (dev : Nat) {bytes : Bytes} (hsize : 0 < size) (hlen : bytes.length = 32) :
    ringPieces base size dev bytes = [(base + 64 * (dev % size), bytes ++ zeros 32)] := by
  have hentries : ringEntries bytes = 1 := by simp [ringEntries, hlen]
  have hlt := Nat.mod_lt dev hsize
  have hfits : (bytes ++ zeros 32).length ≤ 64 * (size - dev % size) := by
    simp [zeros, hlen]
    omega
  unfold ringPieces
  rw [hentries, hlen]
  exact if_pos hfits

/-- In `y` the first waiting record of the ring has been written, of so many bytes, and the records `ws` wait on (R527). -/
def State.wroteFirst (s : State) (n : Nat) (bytes : Bytes) (ws : List RingWrite) (y : State) : Prop :=
  y.faults = s.faults ∧ (y.hostRing n).writes = ws ∧ (y.hostRing n).devIndex = ((s.hostRing n).devIndex + ringEntries bytes) % 2 ^ 32 ∧
  ∀ p ∈ ringPieces (s.fld Fld.HST_RING_BASE_base n * 4096) (s.ringSize n) (s.hostRing n).devIndex bytes, Emit.hostWrite p.1 p.2 ∈ y.out

/-- What leaves the device after it changes none of this. -/
theorem State.wroteFirst.emit {bytes : Bytes} {ws : List RingWrite} {y : State} (h : s.wroteFirst n bytes ws y) (e : Emit) :
    s.wroteFirst n bytes ws (y.emit e) := by
  obtain ⟨hfaults, hwrites, hdev, hout⟩ := h
  exact ⟨hfaults, hwrites, hdev, fun p hp => List.mem_append_left _ (hout p hp)⟩

theorem State.wroteFirst.ite {bytes : Bytes} {ws : List RingWrite} {y z : State} {p : Prop} [Decidable p]
    (hy : s.wroteFirst n bytes ws y) (hz : s.wroteFirst n bytes ws z) : s.wroteFirst n bytes ws (if p then y else z) := by
  split <;> assumption

/-- An event record that waits first is written where its ring is up and has room. -/
theorem State.ringWrite_event {bytes : Bytes} {ws : List RingWrite} (hfirst : (s.hostRing n).writes = ⟨.event, bytes⟩ :: ws)
    (hup : s.host.linkUp = true) (hactive : (s.hostRing n).state = .active) (hroom : ringEntries bytes ≤ s.ringFree n) :
    s.wroteFirst n bytes ws (s.ringWrite n) := by
  have hguard : (!s.host.linkUp || (s.hostRing n).state != .active || !decide (ringEntries bytes ≤ s.ringFree n)) = false := by
    simp [hup, hactive, hroom]
  have hwrite : ∀ x : HostRing, x.writes = ws →
      x.devIndex = ((s.hostRing n).devIndex + ringEntries bytes) % 2 ^ 32 →
      s.wroteFirst n bytes ws ((s.each (ringPieces (s.fld Fld.HST_RING_BASE_base n * 4096) (s.ringSize n) (s.hostRing n).devIndex bytes)
        (fun t p => t.emit (.hostWrite p.1 p.2))).setRing n x) := by
    intro x hwrites hdev
    rw [State.each_emit]
    refine ⟨rfl, by rwa [State.hostRing_setRing], by rwa [State.hostRing_setRing], fun p hp => ?_⟩
    exact List.mem_append_right _ (List.mem_map_of_mem hp)
  unfold State.ringWrite
  dsimp only
  rw [hfirst]
  dsimp only
  rw [if_neg (Bool.eq_false_iff.mp hguard)]
  refine .ite (((hwrite _ ?_ ?_).emit _).emit _) ((hwrite _ ?_ ?_).emit _) <;> rfl

/-! The delivery of the fault log. -/

theorem State.hostRing_ringQueue (s : State) (n : Nat) (kind : RingWriteKind) (bytes : Bytes) :
    (s.ringQueue n kind bytes).hostRing n = { s.hostRing n with writes := (s.hostRing n).writes ++ [⟨kind, bytes⟩] } :=
  State.hostRing_setRing ..

/-- Where no other record waits for the ring, the room for an event record is that for its entries (R528). -/
theorem State.room_of_eventRoom {bytes : Bytes} (hempty : (s.hostRing n).writes = []) (h : s.eventRoom n bytes = true) :
    s.host.linkUp = true ∧ (s.hostRing n).state = .active ∧ ringEntries bytes ≤ s.ringFree n := by
  simpa [State.eventRoom, hempty, and_assoc] using h

/-- A record that alone is queued for a ring with room is written at once. -/
theorem State.ringQueue_ringWrite {bytes : Bytes} (hempty : (s.hostRing n).writes = []) (h : s.eventRoom n bytes = true) :
    s.wroteFirst n bytes [] ((s.ringQueue n .event bytes).ringWrite n) := by
  obtain ⟨hup, hactive, hroom⟩ := State.room_of_eventRoom hempty h
  have hqueued := s.hostRing_ringQueue n .event bytes
  rw [hempty, List.nil_append] at hqueued
  have hfree : (s.ringQueue n .event bytes).ringFree n = s.ringFree n := by
    unfold State.ringFree
    rw [hqueued]
    rfl
  have hwritten := State.ringWrite_event (s := s.ringQueue n .event bytes) (ws := []) (by rw [hqueued]) hup (by rw [hqueued]; exact hactive)
    (hfree ▸ hroom)
  unfold State.wroteFirst at hwritten
  rw [hqueued] at hwritten
  exact hwritten

theorem faultLogDelivery_writes (hheld : s.faults.held = r :: rest) (hdest : s.fld Fld.FLT_CTL_dest = 1)
    (hen : s.bit Fld.FLT_CTL_en = true) (hlen : r.bytes.length = 32) :
    let n := s.fld Fld.FLT_CTL_dest_index
    let x := s.hostRing n
    s.ringKind n = 2 → x.writes = [] → s.eventRoom n r.bytes = true → Answers (.faultLogDelivery t) s (fun s' =>
      s'.faults.held = rest ∧ s'.faults.lastTaken = r.bytes ∧ (s'.hostRing n).devIndex = (x.devIndex + 1) % 2 ^ 32 ∧
      (s'.hostRing n).writes = [] ∧
      Emit.hostWrite (s.fld Fld.HST_RING_BASE_base n * 4096 + 64 * (x.devIndex % s.ringSize n)) (r.bytes ++ zeros 32) ∈ s'.out) := by
  intro n x hkind hempty hroom
  have hguard : (decide ((s.at t).fld Fld.FLT_CTL_dest = 1) && (s.at t).bit Fld.FLT_CTL_en && (s.at t).ringKind n == 2 &&
      ((s.at t).hostRing n).writes.isEmpty && (s.at t).eventRoom n r.bytes) = true := by
    simp only [Bool.and_eq_true, decide_eq_true_eq, beq_iff_eq, List.isEmpty_iff]
    exact ⟨⟨⟨⟨hdest, hen⟩, hkind⟩, hempty⟩, hroom⟩
  have hentries : ringEntries r.bytes = 1 := by simp [ringEntries, hlen]
  obtain ⟨hfaults, hwrites, hdev, hout⟩ := State.ringQueue_ringWrite (s := s.at t) (n := n) (bytes := r.bytes) hempty hroom
  rw [hentries] at hdev
  have hpiece := ringPieces_one (s.fld Fld.HST_RING_BASE_base n * 4096) (size := s.ringSize n) x.devIndex (Nat.two_pow_pos _) hlen
  have hexec : exec (.faultLogDelivery t) s =
      .next (State.settle (((s.at t).ringQueue n .event r.bytes).ringWrite n).freeFault) := by
    simp only [exec, execFaultLogDelivery, State.at_faults, hheld]
    exact congrArg (fun y : State => Host.Outcome.next y.settle) (if_pos hguard)
  refine Answers.of_eq hexec rfl ?_
  generalize ((s.at t).ringQueue n .event r.bytes).ringWrite n = y at hfaults hwrites hdev hout
  have hfirst : y.fltRecord = r.bytes := by
    unfold State.fltRecord
    rw [hfaults, State.at_faults, hheld]
  have hrest : y.faults.held.drop 1 = rest := by
    rw [hfaults, State.at_faults, hheld]
    rfl
  exact ⟨hrest, hfirst, hdev, hwrites, hout (_, _) (hpiece ▸ List.mem_singleton_self _)⟩

/-! The statement. -/

/-- Settles O60: the window is `fltWinRead_frees`, the delivery `faultLogDelivery_writes`, the restart `mgmtWatchdog_restarts`, the readings
`dieTempReadout_below` and `dieTempReadout_above`; the level of ALERT_N after a step is `step_alert`. -/
theorem faultsAndRestarts : Obligations.FaultsAndRestarts := by
  unfold Obligations.FaultsAndRestarts
  refine ⟨fun s t => ⟨fun r rest hheld => ⟨fun byte size => fltWinRead_frees hheld, faultLogDelivery_writes hheld⟩,
    mgmtWatchdog_restarts, fun temps hvdd hlen hruns => ⟨fun hlow hcool => dieTempReadout_below hvdd hlen hruns hcool hlow,
      fun hhigh hcool => dieTempReadout_above hvdd hlen hruns hcool hhigh⟩⟩, ?_⟩
  intro s s' c rest hfront hstep low
  obtain ⟨hdriven, hnext⟩ := step_alert hfront hstep
  rw [hnext]
  exact ⟨fun h => hdriven (s'.alertWanted_iff.mpr h), s'.alertWanted_iff⟩

end Sys2Proof.Machine
end

section
/-! LRN_MNF_CTL while the manifest queue is enabled (R322, R629): a write that names another destination has its release act, and is
recorded in GLB_ACCESS_LOG, whose count is an RC field. What a stroke adds to RC fields stands in the component `rc` of the state. -/
namespace Sys2Proof.Machine

/-- A serving device with its manifest queue enabled and empty and no destination. -/
def enabledQueue : State :=
  { State.reset with
    boot := { Boot.reset with stage := 5, powerOn := false }
    power := { Power.reset with railsValid := true, pcieReset := false } }

/-- A word of LRN_MNF_CTL that keeps the queue enabled, releases, and names a host ring as the destination. -/
def releaseToRing : Word64 := 0x19

/-- The write is served, and the queue is enabled without a destination. -/
theorem enabledQueue_served : (enabledQueue.at 3).holds .LRN_MNF_CTL = false ∧ (enabledQueue.at 3).served .LRN_MNF_CTL 0 = true ∧
    enabledQueue.bit Fld.LRN_MNF_CTL_en = true ∧ enabledQueue.fld Fld.LRN_MNF_CTL_dest = 0 := by decide

theorem releaseToRing_bits : Fld.LRN_MNF_CTL_release.get releaseToRing.toNat = 1 ∧
    Fld.LRN_MNF_CTL_rewind.get releaseToRing.toNat = 0 ∧ Fld.LRN_MNF_CTL_mark.get releaseToRing.toNat = 0 := by decide

/-- The destination keeps its value, so the write is counted, and the count notes its update for a read in the stroke (R15, R629). -/
theorem enabledQueue_notes_access :
    ((enabledQueue.at 3).writeMnfCtl 0 releaseToRing.toNat (2 ^ 64 - 1)).rc ≠ enabledQueue.rc := by decide

/-- Refutes O29: a release that also names another destination is recorded in GLB_ACCESS_LOG, and `rc`, which the clause of the release says
is unchanged, has noted the update of its count. -/
theorem not_manifestQueue : ¬ Obligations.ManifestQueue := by
  unfold Obligations.ManifestQueue
  intro h
  obtain ⟨hheld, hserved, hen, hdest⟩ := enabledQueue_served
  obtain ⟨-, -, hconsumer, -⟩ := h enabledQueue 3
  obtain ⟨hrelease, -⟩ := hconsumer releaseToRing hheld hserved hen hdest
  obtain ⟨s', hexec, hidle, -⟩ := hrelease releaseToRing_bits
  obtain rfl : ((enabledQueue.at 3).writeMnfCtl 0 releaseToRing.toNat (2 ^ 64 - 1)).settle = s' := by
    simpa only [exec, execManifestRelease, Host.Outcome.next.injEq] using hexec
  exact enabledQueue_notes_access (congrArg State.rc hidle :)

end Sys2Proof.Machine
end

section
/-! Supervisor and service commands that change state when they are accepted (R367, R368, R414, R425, R440, R444, R615). -/
namespace Sys2Proof.Machine
variable {s x : State} {t : Nat} {src : Source} {c : Cmd} {rest : List Cmd}

/-- The boundary that R63 gives depends on the stroke and the mode alone. -/
theorem State.dueTide_congr (hk : x.clock = s.clock) (hm : x.mode = s.mode) : x.dueTide = s.dueTide := by
  unfold State.dueTide State.inCommit State.phase
  rw [hk, hm]

/-- A command whose effect `x` leaves the engine and the time alone is answered OK at the boundary that R63 gives. -/
theorem Clears.commits {i : Instr} {P : State → Prop} {op : Nat} {ut uh form : Bool} {need : Right}
    (h : Clears s t src c rest op ut uh need) {ops : Nat → Bool} {body : State → Cmd → State} {early : State → Option Nat}
    {act : State → State} (hexec : exec i s = .next (s.atHead t src ops body).settle) (hops : ops op = true)
    (hbody : body (s.at t) c = (s.at t).checked src c ut uh form need early act) (hform : form = true)
    (hearly : early ((s.at t).noteCookie src c) = none)
    (hact : act ((s.at t).noteCookie src c) = x.acceptBoundary src c 0)
    (hx : (x.cmds, x.clock, x.mode) = (s.cmds, (s.at t).clock, s.mode)) (hp : P (x.acceptBoundary src c 0).settle) :
    Answers i s (fun s' => Commits s t src c rest s' 0 0 [] ∧ P s') := by
  simp only [Prod.mk.injEq] at hx
  obtain ⟨hc, hk, hm⟩ := hx
  have hengine : x.cmds = { s.cmds with flights := x.cmds.flights } := by rw [hc]
  exact h.answers hexec hops hbody hform hearly hact hengine rfl (by simp)
    ⟨Commits.accept h.1 hengine hk hm _ _ _ _ (State.settle_cmds _), hp⟩

/-! Berths and masters. -/

theorem State.berth_setBerth (s : State) (b k : Nat) (y : Berth) : (s.setBerth b y).berth k = if k = b then y else s.berth k := by
  unfold State.setBerth State.berth
  split
  · subst_vars
    exact Table.findD_put_same ..
  · exact Table.findD_put_ne _ _ _ _ _ (by assumption)

/-- The cookie of a master is no part of its freeze. -/
theorem State.freeze_noteCookie (s : State) (src : Source) (c : Cmd) (m : Nat) :
    ((s.noteCookie src c).master m).freeze = (s.master m).freeze := by
  unfold State.noteCookie
  split
  · rfl
  · rw [State.master_setMaster]
    split <;> simp_all

/-- A thaw of a frozen master is accepted once, for the boundary that R63 gives (R440). -/
theorem State.thawRequest_frozen {m info : Nat} {f : Freeze} (hf : (s.master m).freeze = some f) (hnot : f.thawAccepted = none) :
    ((s.thawRequest m info).master m).freeze = some { f with thawAccepted := some (s.dueTide, s.now, info) } := by
  simp [State.thawRequest, hf, hnot, State.master_setMaster]

theorem State.thawRequest_free {m info : Nat} (hf : (s.master m).freeze = none) : s.thawRequest m info = s := by
  simp [State.thawRequest, hf]

theorem State.master_congr (h : x.masters = s.masters) (m : Nat) : x.master m = s.master m := by
  simp only [State.master, h]

/-! What acceptance and settling leave of a berth, a master and a scribe. -/

@[simp] theorem State.berth_settle (s : State) (b : Nat) : s.settle.berth b = s.berth b := State.berth_congr (by simp) b

@[simp] theorem State.berth_acceptBoundary (s : State) (src : Source) (c : Cmd) (r : Nat) (p : Bytes) (b : Nat) :
    (s.acceptBoundary src c r p).berth b = s.berth b := State.berth_congr (by simp) b

@[simp] theorem State.master_settle (s : State) (m : Nat) : s.settle.master m = s.master m := State.master_congr (by simp) m

@[simp] theorem State.master_acceptBoundary (s : State) (src : Source) (c : Cmd) (r : Nat) (p : Bytes) (m : Nat) :
    (s.acceptBoundary src c r p).master m = s.master m := State.master_congr (by simp) m

theorem State.scribe_setScribe (s : State) (n k : Nat) (v : Scribe) : (s.setScribe n v).scribe k = if k = n then v else s.scribe k := by
  unfold State.setScribe State.scribe
  split
  · subst_vars
    exact Table.findD_put_same ..
  · exact Table.findD_put_ne _ _ _ _ _ (by assumption)

theorem State.scribe_congr (h : x.scribes = s.scribes) (n : Nat) : x.scribe n = s.scribe n := by
  simp only [State.scribe, h]

@[simp] theorem State.scribe_settle (s : State) (n : Nat) : s.settle.scribe n = s.scribe n := State.scribe_congr (by simp) n

@[simp] theorem State.scribe_acceptBoundary (s : State) (src : Source) (c : Cmd) (r : Nat) (p : Bytes) (n : Nat) :
    (s.acceptBoundary src c r p).scribe n = s.scribe n := State.scribe_congr (by simp) n

/-- A scribe with no offline request pending takes one (R367). -/
theorem State.takeOffline_eq {n : Nat} (h : (s.scribe n).offlineAt = none) :
    s.takeOffline n = s.setScribe n { s.scribe n with offlineAt := some (s.clock.grid + 2), onlineAt := none } := by
  simp [State.takeOffline, h]

/-! BANK_SERVICE (R615, R616). -/

theorem State.serviceTest_accepted {slot : Nat} (hidle : s.service.bist = none) (hserving : (s.slotState slot).health ≠ .serving)
    (htesting : (s.slotState slot).health ≠ .testing) :
    s.serviceTest src c slot = (s.requestBist slot).acceptBoundary src c 0 := by
  simp [State.serviceTest, State.bistBusy, hidle, hserving, htesting]

theorem State.serviceDrain_accepted {bank op : Nat} (hidle : s.arrays.drain = none) (hok : s.drainRefused bank op = none) :
    s.serviceDrain src c bank op = (s.startDrain bank op).acceptBoundary src c 0 := by
  simp [State.serviceDrain, hidle, hok]

/-- Settles O17: each command clears its checks and its own form and has its effect at once (`Clears.commits`); a key wrap is only
accepted, and its end gives the command its result. -/
theorem serviceCommandsAct : Obligations.ServiceCommandsAct := by
  unfold Obligations.ServiceCommandsAct
  intro s t src c rest body due ok
  obtain ⟨m, hm⟩ : ∃ m, (s.at t).noteCookie src c = { s.at t with masters := m } := ⟨_, State.noteCookie_only ..⟩
  have hdue : ((s.at t).noteCookie src c).dueTide = due := State.dueTide_congr (by simp) (by simp)
  refine ⟨?forgive, ?thaw, ?lifeCycle, ?wrap, ?wrapped, ?scribe, ?bank⟩
  case forgive =>
    intro h hlen hberth hzero
    refine h.commits (x := ((s.at t).noteCookie src c).takeForgive (fieldLE body 0 2)) rfl rfl rfl (by simp [body, hlen, hberth, hzero])
      rfl rfl (by simp [State.takeForgive]) ⟨?_, ?_, fun b hb => ?_⟩
    · rw [State.settle_due, State.acceptBoundary_due, hm]
      rfl
    all_goals rw [State.berth_settle, State.berth_acceptBoundary, State.takeForgive, hm]
    · exact (State.berth_setBerth ..).trans (if_pos rfl)
    · exact (State.berth_setBerth ..).trans (if_neg hb)
  case thaw =>
    intro h hlen hzero
    refine h.commits (x := ((s.at t).noteCookie src c).thawRequest (fieldLE body 0 4) 1) rfl rfl rfl (by simp [body, hlen, hzero])
      rfl rfl (by simp) ⟨fun f hf hnot => ?_, fun hf => ?_, by simp⟩
    all_goals
      rw [State.master_settle, State.master_acceptBoundary]
      replace hf := (State.freeze_noteCookie (s.at t) src c (fieldLE body 0 4)).trans hf
    · rw [State.thawRequest_frozen hf hnot, hdue]
      simp [State.now]
    · rwa [State.thawRequest_free hf]
  case lifeCycle =>
    intro ownerKeyA h hform hallowed htoken hpending
    have hok : (!s.lcAllowed c (byteAt body 0) || (s.fuses.lifeCycle != 0 && !s.tokenOk ownerKeyA body) || s.security.lcPending) =
        false := by
      by_cases hblank : s.fuses.lifeCycle = 0
      · simp [hallowed, hpending, hblank]
      · simp [hallowed, hpending, htoken hblank]
    refine h.commits (form := (s.at t).lcForm body) rfl rfl rfl hform rfl (if_neg (by rw [hm]; exact Bool.eq_false_iff.mp hok)) (by simp)
      ⟨by simp, by simp, ?_⟩
    rw [State.settle_due, State.acceptBoundary_due, hm]
    rfl
  case wrap =>
    intro h hform hok hidle
    have hrefused : ((s.at t).noteCookie src c).wrapRefused body = false := by rw [hm]; exact hok
    let y := ((s.at t).noteCookie src c).accept src c ((s.at t).noteCookie src c).clock.grid true none none
    refine h.answers (x := (s.at t).noteCookie src c) (y := { y with security := { y.security with keyWrap := some s.cmds.nextId } })
      rfl rfl rfl hform rfl ?_ (by simp) rfl (by simp [y]) ⟨by simp [y], by simp [y], ?_⟩
    · refine (if_neg (by rw [hrefused]; decide)).trans ((if_neg (by simp [hidle])).trans ?_)
      simp [y, State.acceptId]
    · exact ⟨_, Taken.accept h.1 (x := (s.at t).noteCookie src c) (by simp) (by simp; rfl) _ _ _ _ (State.settle_cmds _), rfl, rfl⟩
  case wrapped =>
    intro a id hid ha
    let y : State := { s.at t with freeCounter := s.freeCounter + 1, security := { s.security with keyWrap := none } }
    refine Answers.of_eq (x := y.setResult id (0, 0, 0, 0, s.wrapPayload (cmdBody a.record)) due) rfl ?_ ⟨by simp [y], by simp [y], ?_⟩
    · simp only [State.at_security, State.at_cmds, hid, ha]
      rfl
    · rw [State.settle_cmds]
      rfl
  case scribe =>
    intro h hlen hx hzero
    refine ⟨fun hop => ?_, fun hop hcheck hon => ?_⟩
    · refine h.commits (x := ((s.at t).noteCookie src c).takeOnline (byteAt body 1)) rfl rfl rfl (by simp [body, hlen, hx, hzero, hop])
        rfl (if_pos hop) (by rw [hm]; rfl) ?_
      rw [State.scribe_settle, State.scribe_acceptBoundary, State.takeOnline, State.scribe_setScribe, if_pos rfl, hdue, hm]
      rfl
    · have hcheck' : ((s.at t).noteCookie src c).offlineCheck (byteAt body 1) = 0 := by rw [hm]; exact hcheck
      have hoff := State.takeOffline_eq (s := (s.at t).noteCookie src c) (n := byteAt body 1) (by rw [hm]; exact hon)
      refine h.commits (x := ((s.at t).noteCookie src c).takeOffline (byteAt body 1)) rfl rfl rfl (by simp [body, hlen, hx, hzero, hop])
        rfl ((if_neg (by rw [hop]; decide)).trans (if_pos hcheck')) (by rw [hoff, hm]; rfl) ?_
      rw [State.scribe_settle, State.scribe_acceptBoundary, hoff, State.scribe_setScribe, if_pos rfl, hm]
      rfl
  case bank =>
    intro h hform
    refine ⟨fun hop hidle => ?_, fun hop hidle hok => ?_⟩
    · intro slot hserving htesting
      have htest := State.serviceTest_accepted (s := (s.at t).noteCookie src c) (src := src) (c := c) (slot := slot)
        (by rw [hm]; exact hidle) (by rw [hm]; exact hserving) (by rw [hm]; exact htesting)
      refine h.commits rfl rfl rfl hform rfl ((if_pos hop).trans htest) (by rw [hm]; rfl) ⟨by simp [State.requestBist], ?_⟩
      rw [State.settle_due, State.acceptBoundary_due, hm]
      rfl
    · have hdrain := State.serviceDrain_accepted (s := (s.at t).noteCookie src c) (src := src) (c := c) (bank := fieldLE body 2 2)
        (op := byteAt body 0) (by rw [hm]; exact hidle) (by rw [hm]; exact hok)
      refine h.commits rfl rfl rfl hform rfl ((if_neg hop).trans hdrain) (by rw [hm]; rfl) ⟨by simp [State.startDrain], ?_⟩
      rw [State.settle_arrays, State.acceptBoundary_arrays, hm]
      exact ⟨_, rfl, rfl, rfl, rfl, rfl, rfl, rfl⟩

end Sys2Proof.Machine
end

section
/-! Commands that open what runs on (R333, R341, R345 to R347, R378, R386). -/
namespace Sys2Proof.Machine
variable {s x : State} {t : Nat} {src : Source} {c : Cmd} {rest : List Cmd}

/-- A command that is accepted, with its completion or without, from a state whose engine is unchanged: `y` is what its effect makes of
the state after acceptance, in which the engine is left alone. -/
theorem Clears.takes {i : Instr} {P : State → Prop} {op : Nat} {ut uh form : Bool} {need : Right}
    (h : Clears s t src c rest op ut uh need) {ops : Nat → Bool} {body : State → Cmd → State} {early : State → Option Nat}
    {act : State → State} {y : State} {r : Option (Nat × Nat × Nat × Nat × Bytes)} {p : Option Nat}
    (hexec : exec i s = .next (s.atHead t src ops body).settle) (hops : ops op = true)
    (hbody : body (s.at t) c = (s.at t).checked src c ut uh form need early act) (hform : form = true)
    (hearly : early ((s.at t).noteCookie src c) = none) (hact : act ((s.at t).noteCookie src c) = y)
    (hy : y.cmds = (((s.at t).noteCookie src c).accept src c ((s.at t).noteCookie src c).clock.grid true r p).cmds)
    (hk : y.clock = (s.at t).clock)
    (hp : P y.settle) : Answers i s (fun s' => (∃ a, Taken s s' src c rest a ∧ a.result = r ∧ a.postAt = p) ∧ P s') :=
  have hengine : ((s.at t).noteCookie src c).cmds = { s.cmds with flights := ((s.at t).noteCookie src c).cmds.flights } := by simp
  h.answers hexec hops hbody hform hearly hact hengine hy (by simpa using hk)
    ⟨⟨_, Taken.accept h.1 hengine (by simp; rfl) _ _ _ _ ((State.settle_cmds y).trans hy), rfl, rfl⟩, hp⟩

/-! The state of a stream. -/

theorem length_patch {bs new : Bytes} {i : Nat} (h : i + new.length ≤ bs.length) : (patch bs i new).length = bs.length := by
  simp [patch]
  omega

theorem length_sealState {bs : Bytes} (h : 60 ≤ bs.length) : (sealState bs).length = 64 := by
  simp [sealState, h]

theorem Memory.length_read (m : Memory) (a n : Nat) : (m.read a n).length = n := by
  induction n generalizing a with
  | zero => rfl
  | succ n ih => simp [Memory.read, ih]

theorem State.length_streamState (s : State) (n : Nat) : (s.streamState n).length = 64 := Memory.length_read ..

theorem State.length_startState (s : State) (set gen berth dest : Nat) (ackAll : Bool) :
    (s.startState set gen berth dest ackAll).length = 60 := by
  simp [State.startState]

/-- What a write of a stream's state leaves in DRAM, from a state whose DRAM and controller are those of `s` (R359, R548). -/
theorem State.writeStream_dram {n : Nat} {bs : Bytes} (h : 60 ≤ bs.length) (hd : x.dram = s.dram) (hc : x.dramCtl = s.dramCtl) :
    (x.writeStream n bs).dram = (s.spoil (streamAddr n) 64).dram.write (streamAddr n) (sealState bs) := by
  unfold State.writeStream
  rw [State.dramWrite_dram, length_sealState h, State.spoil_dram_congr hd hc]

theorem dramOnly_writeStream (s : State) (n : Nat) (bs : Bytes) : DramOnly s (s.writeStream n bs) := dramOnly_dramWrite ..

/-! The checks of these commands do not read the masters, nor the stroke. -/

@[simp] theorem State.berth_noteCookie (s : State) (src : Source) (c : Cmd) (b : Nat) : (s.noteCookie src c).berth b = s.berth b :=
  State.berth_congr (by simp) b

@[simp] theorem State.setUsable_noteCookie (s : State) (t : Nat) (src : Source) (c : Cmd) (set : Nat) :
    ((s.at t).noteCookie src c).setUsable set = s.setUsable set := by
  rw [State.noteCookie_only]
  rfl

@[simp] theorem State.freeStream_noteCookie (s : State) (t : Nat) (src : Source) (c : Cmd) :
    ((s.at t).noteCookie src c).freeStream = s.freeStream := by
  rw [State.noteCookie_only]
  rfl

@[simp] theorem State.setBusy_noteCookie (s : State) (t : Nat) (src : Source) (c : Cmd) (set : Nat) :
    ((s.at t).noteCookie src c).setBusy set = s.setBusy set := by
  rw [State.noteCookie_only]
  rfl

@[simp] theorem State.startState_noteCookie (s : State) (src : Source) (c : Cmd) (set gen berth dest : Nat) (ackAll : Bool) :
    (s.noteCookie src c).startState set gen berth dest ackAll = s.startState set gen berth dest ackAll := by
  rw [State.noteCookie_only]
  rfl

/-! STREAM_OPEN (R345 to R347). -/

/-- The state from which STREAM_OPEN is accepted: the stream is taken, its state written, its master free (R347, R430). -/
def State.openedStream (s : State) (n set berth dest : Nat) (ackAll : Bool) (master : Nat) : State :=
  let s2 := (s.takeStream n set).1
  let s3 := s2.writeStream n (s2.startState set (s.takeStream n set).2 berth dest ackAll)
  s3.setMaster (streamMaster n) { Master.reset with streamThawMs := s3.thawMs master }

section
variable (n set berth dest : Nat) (ackAll : Bool) (master : Nat)

theorem State.startState_takeStream (s : State) (gen : Nat) :
    (s.takeStream n set).1.startState set gen berth dest ackAll = s.startState set gen berth dest ackAll := by
  unfold State.startState
  rfl

/-- An opened stream is one that is taken, with its state written in DRAM and a free master. -/
theorem State.openedStream_eq (s : State) : ∃ y v, DramOnly (s.takeStream n set).1 y ∧
    y.dram = (s.spoil (streamAddr n) 64).dram.write (streamAddr n)
      (sealState (s.startState set (s.scribes.gens.findD n 0 % 15 + 1) berth dest ackAll)) ∧
    v.freeze = none ∧ s.openedStream n set berth dest ackAll master = y.setMaster (streamMaster n) v := by
  refine ⟨_, _, dramOnly_writeStream _ n _, ?_, ?_, rfl⟩
  · rw [State.startState_takeStream]
    exact State.writeStream_dram (by rw [State.length_startState]) rfl rfl
  · rfl

/-- An opened stream leaves the engine, the time and the arrays alone. -/
theorem State.openedStream_keeps (s : State) :
    let y := s.openedStream n set berth dest ackAll master
    y.cmds = s.cmds ∧ y.clock = s.clock ∧ y.mode = s.mode ∧ y.arrays = s.arrays ∧ y.scribes = (s.takeStream n set).1.scribes := by
  obtain ⟨y, v, hy, -, -, heq⟩ := s.openedStream_eq n set berth dest ackAll master
  rw [heq]
  exact ⟨(congrArg State.cmds hy.eq :), (congrArg State.clock hy.eq :), (congrArg State.mode hy.eq :), (congrArg State.arrays hy.eq :),
    (congrArg State.scribes hy.eq :)⟩

theorem State.openedStream_master (s : State) :
    ((s.openedStream n set berth dest ackAll master).master (streamMaster n)).freeze = none := by
  obtain ⟨y, v, -, -, hfree, heq⟩ := s.openedStream_eq n set berth dest ackAll master
  rw [heq, State.master_setMaster, if_pos rfl, hfree]

theorem State.openedStream_dram (s : State) : (s.openedStream n set berth dest ackAll master).dram =
    (s.spoil (streamAddr n) 64).dram.write (streamAddr n)
      (sealState (s.startState set (s.scribes.gens.findD n 0 % 15 + 1) berth dest ackAll)) := by
  obtain ⟨y, v, -, hdram, -, heq⟩ := s.openedStream_eq n set berth dest ackAll master
  rw [heq, ← hdram]
  rfl

end

/-! Glyph slots. -/

theorem State.glyph_congr (h : x.scribes = s.scribes) (n : Nat) : x.glyph n = s.glyph n := by
  simp only [State.glyph, h]

theorem State.glyph_setGlyph (s : State) (n k : Nat) (g : Glyph) : (s.setGlyph n g).glyph k = if k = n then g else s.glyph k := by
  unfold State.setGlyph State.glyph
  split
  · subst_vars
    exact Table.findD_put_same ..
  · exact Table.findD_put_ne _ _ _ _ _ (by assumption)

@[simp] theorem State.glyph_settle (s : State) (n : Nat) : s.settle.glyph n = s.glyph n := State.glyph_congr (by simp) n

/-- A load that begins fills its slot, whose image is being copied (R341). -/
theorem State.glyph_beginLoad (s : State) (set addr len : Nat) (expected : Option Bytes) (command : Option Nat) (byRegister : Bool)
    (k : Nat) : (s.beginLoad set addr len expected command byRegister).glyph k =
      if k = set then ⟨.loading, len, 0, 0, 0, 0, 0, true, expected, command, byRegister, 0⟩ else s.glyph k :=
  State.glyph_setGlyph ..

/-! TRACE and TABLE_DIGEST (R378, R386). -/

/-- The trace that a TRACE begins: no bank is visited yet (R378). -/
def newTrace (id tid : Nat) (df : TableDef) (body : Bytes) : Trace :=
  { id := id, tid := tid, key := digitsOf ((body.drop 8).take (10 * df.units)),
    mask := digitsOf ((body.drop (8 + df.vBytes)).take (10 * df.units)), banks := none, visited := [], first := 0, last := 0,
    rows := [], more := false, unstable := false, version := 0 }

/-- One more trace is held (R382). -/
def State.addTrace (s : State) (tr : Trace) : State := { s with observe := { s.observe with traces := s.observe.traces ++ [tr] } }

/-- One more digest is held, under the next number (R386). -/
def State.addDigest (s : State) (tid cookie : Nat) : State := { s with observe := { s.observe with
  digests := s.observe.digests ++ [⟨s.observe.nextDigest, tid, cookie, none, [], 0, 0, false, false, 0⟩]
  nextDigest := (s.observe.nextDigest + 1) % 2 ^ 32 } }

/-- Settles O21: each command clears its checks and is accepted; what it opens is `State.openedStream`, `State.beginLoad`, one more trace,
or one more digest. -/
theorem openingCommands : Obligations.OpeningCommands := by
  unfold Obligations.OpeningCommands
  intro s t src c rest body held
  have hdue : ((s.at t).noteCookie src c).dueTide = (s.at t).dueTide := State.dueTide_congr (by simp) (by simp)
  refine ⟨fun n => ?stream, ?glyph, fun tb => ?trace, ?digest⟩
  case stream =>
    intro h hlen hset hdest hack hzero hmask husable hfree
    let z := ((s.at t).noteCookie src c).openedStream n (cmdTid c.record) (cmdBerth c.record) (fieldLE body 0 2)
      ((byteAt body 2).testBit 0) c.master
    obtain ⟨hcmds, hclock, hmode, harrays, hscribes⟩ : z.cmds = _ ∧ z.clock = _ ∧ z.mode = _ ∧ z.arrays = _ ∧ z.scribes = _ :=
      State.openedStream_keeps ..
    rw [State.noteCookie_cmds] at hcmds
    rw [State.noteCookie_clock] at hclock
    rw [State.noteCookie_mode] at hmode
    have hengine : z.cmds = { s.cmds with flights := z.cmds.flights } := by rw [hcmds]; rfl
    have hmasked : ((s.at t).berth (cmdBerth c.record)).record.glyphMask.testBit (cmdTid c.record) = true := hmask
    refine h.answers (x := z) (n := z.clock.grid) rfl rfl rfl (by simp [body, hlen, hset, hdest, hack, hzero]) rfl
      ((if_neg (by simp [hmasked])).trans ((if_neg (by simp [husable])).trans ?act)) hengine rfl
      (State.accept_clock ..) ⟨Commits.accept h.1 hengine hclock hmode _ _ _ _ (State.settle_cmds _), ?_, ?_, ?_, ?_, ?_⟩
    case act =>
      have hgens : s.scribes.gens = ((s.at t).noteCookie src c).scribes.gens := by simp
      rw [State.freeStream_noteCookie, hfree, hgens]
      rfl
    · rw [State.settle_scribes, State.accept_scribes, hscribes, ← hdue]
      exact (Table.find_put_same ..).trans (by simp)
    · rw [State.settle_scribes, State.accept_scribes, hscribes]
      exact (Table.find_put_same ..).trans (by simp)
    · rw [State.master_settle, State.master_congr (State.accept_masters ..)]
      exact State.openedStream_master ..
    · rw [State.settle_arrays, State.accept_arrays, harrays, State.noteCookie_arrays]
      rfl
    · rw [State.settle_dram, State.accept_dram, State.openedStream_dram, State.startState_noteCookie,
        State.spoil_dram_congr (x := (s.at t).noteCookie src c) (s := s.at t) (by simp) (by simp), State.noteCookie_scribes,
        State.at_scribes]
  case glyph =>
    intro h hlen hset hzero hrange hfree
    refine h.takes rfl rfl rfl (by simp [body, hlen, hset, hzero, hrange]) rfl (if_neg (by simp [hfree])) rfl
      (by simp [State.beginLoad, State.setGlyph]) ⟨by simp [State.glyph_beginLoad], by simp [State.glyph_beginLoad],
        by simp [State.glyph_beginLoad, State.acceptId], by simp [State.glyph_beginLoad, body], fun g hg => ?_,
        by simp [State.beginLoad, State.setGlyph]⟩
    rw [State.glyph_settle, State.glyph_beginLoad, if_neg hg]
    exact State.glyph_congr (by simp) g
  case trace =>
    intro h hlen hzero hfew htable htb hkind hform
    let z := (s.at t).noteCookie src c
    have hbody : (decide (8 ≤ body.length) && zerosAt body 0 8) = true := by simp [hlen, hzero]
    refine h.takes (y := (z.accept src c z.clock.grid true none none).addTrace (newTrace s.cmds.nextId (cmdTid c.record) tb.df body))
      rfl rfl (if_neg (by simp [hfew])) hbody (by simp [htable]) ?act rfl (by simp [State.addTrace, z])
      ⟨_, by simp [State.addTrace, z]; rfl, rfl, rfl, rfl, rfl⟩
    case act => simp [htb, hkind, hform, body, z, State.orRefuse_none, State.addTrace, newTrace, State.acceptId]
  case digest =>
    intro h hbody hfew htable hkind
    let z := (s.at t).noteCookie src c
    have hempty : body.isEmpty = true := by simp [hbody]
    refine h.takes (y := (z.accept src c z.clock.grid true (some (0, 0, 0, s.observe.nextDigest, [])) (some (s.at t).dueTide)).addDigest
      (cmdTid c.record) (cmdCookie c.record)) rfl rfl (if_neg (by simp [hfew])) hempty (by simp [htable]) ?act rfl
      (by simp [State.addDigest, z]) (by simp [State.addDigest, z])
    case act => simp [hkind, hdue, z, State.orRefuse_none, State.addDigest]

end Sys2Proof.Machine
end

section
/-! Glyph sets (R333, R335, R336, R340 to R343): the checks that decide an image, the load of its partition, and SCB_GLYPH_CTL. -/
namespace Sys2Proof.Machine
variable {s x : State} {t set : Nat} {w : Word64}

/-! Admission. -/

/-- The slot of an image that passes its checks: its partition is placed in the half with more free granules, and is not loaded yet. -/
def State.placedGlyph (s : State) (set : Nat) : Glyph := { s.glyph set with
  hotBytes := fieldLE (s.glyphHeader set) 16 4, patterns := fieldLE (s.glyphHeader set) 12 2, admitErr := 0,
  partLog2 := partitionLog2 (fieldLE (s.glyphHeader set) 16 4), half := s.roomierHalf, copying := false, loadEnd := 0 }

theorem State.startLoad_setGlyph (s : State) (set : Nat) (g : Glyph) : (s.setGlyph set g).startLoad set =
    (s.setGlyph set g).setGlyph set { g with loadEnd := (s.setGlyph set g).loaderFree g.half + (g.hotBytes + 255) / 256 } := by
  unfold State.startLoad
  rw [State.glyph_setGlyph, if_pos rfl]

/-- An image that passes all checks is placed, and goes on loading (R336). -/
theorem State.admitImage_passes (h : s.admitCheck set true = 0) : s.admitImage set true =
    (s.setGlyph set (s.placedGlyph set)).setGlyph set { s.placedGlyph set with
      loadEnd := (s.setGlyph set (s.placedGlyph set)).loaderFree (s.placedGlyph set).half + ((s.placedGlyph set).hotBytes + 255) / 256 } :=
  (if_pos h).trans (State.startLoad_setGlyph ..)

/-- The slot of an image that fails a check (R340). -/
def Glyph.fails (g : Glyph) (code : Nat) : Glyph :=
  { g with state := .failed, admitErr := code, copying := false, expected := none, command := none }

/-- The report of a failed admission: SCB_STATUS.admit_fail and a record in the fault log (R340). -/
def State.reportAdmission (s : State) (set code : Nat) : State :=
  ((s.setGlyph set ((s.glyph set).fails code)).raise Fld.SCB_STATUS_admit_fail).faultEvent 0x0D 2 0x4 set code 0

/-- The load of a command ends with LOAD_ERROR and the check's code (R340). -/
def State.endLoad (s : State) (command : Option Nat) (code due : Nat) : State :=
  match command with
  | some id => s.setResult id (0x18, 0, 0, 0, leBytes code 8) due
  | none => s

/-- A load whose image fails a check ends (R340). -/
def State.failLoad (s : State) (set code : Nat) : State :=
  let y := (s.reportAdmission set code).endLoad (s.glyph set).command code (s.reportAdmission set code).dueTide
  if (s.glyph set).byRegister then y.setFld Fld.SCB_GLYPH_CTL_result 3 else y

theorem State.admitImage_fails {code : Nat} (h : s.admitCheck set true = code) (hne : code ≠ 0) :
    s.admitImage set true = s.failLoad set code := by
  subst h
  exact if_neg hne

theorem State.endLoad_scribes (s : State) (command : Option Nat) (code due : Nat) : (s.endLoad command code due).scribes = s.scribes := by
  cases command <;> rfl

theorem State.endLoad_regs (s : State) (command : Option Nat) (code due : Nat) : (s.endLoad command code due).regs = s.regs := by
  cases command <;> rfl

/-- A failed load has its slot FAILED, and every other slot as it was. -/
theorem State.glyph_failLoad (s : State) (set code k : Nat) :
    (s.failLoad set code).glyph k = if k = set then (s.glyph set).fails code else s.glyph k := by
  have h : (s.failLoad set code).scribes = (s.setGlyph set ((s.glyph set).fails code)).scribes := by
    unfold State.failLoad
    dsimp only
    rw [apply_ite State.scribes, State.setFld_scribes, ite_self, State.endLoad_scribes]
    simp [State.reportAdmission]
  rw [State.glyph_congr h, State.glyph_setGlyph]

theorem State.bit_failLoad (s : State) (set code : Nat) : (s.failLoad set code).bit Fld.SCB_STATUS_admit_fail = true := by
  have hclass : (classCount 2).reg = .FLT_COUNT0 := rfl
  have hreport : (s.reportAdmission set code).bit Fld.SCB_STATUS_admit_fail = true :=
    (congrArg (· != 0) (State.fld_postFault _ _ 2 0x4 _ (by decide) (by decide) (by rw [hclass]; decide))).trans
      (State.bit_raise_on _ rfl (by decide))
  unfold State.failLoad
  dsimp only
  rw [apply_ite (fun y : State => y.bit Fld.SCB_STATUS_admit_fail), State.bit_setFld_apart _ _ _ _ (by decide), ite_self,
    State.bit_of_regs (State.endLoad_regs ..)]
  exact hreport

/-- The command of a failed load has its completion at the boundary that R63 gives. -/
theorem State.failLoad_accepted {id code : Nat} (h : (s.glyph set).command = some id) :
    (s.failLoad set code).cmds.accepted = s.cmds.accepted.map (fun a => if a.id = id then
      { a with result := some (0x18, 0, 0, 0, leBytes code 8), postAt := some s.dueTide, applied := true } else a) := by
  have hdue : (s.reportAdmission set code).dueTide = s.dueTide :=
    State.dueTide_congr (by simp [State.reportAdmission, State.setGlyph]) (by simp [State.reportAdmission, State.setGlyph])
  have hcmds : (s.reportAdmission set code).cmds = s.cmds := by simp [State.reportAdmission, State.setGlyph]
  unfold State.failLoad
  dsimp only
  rw [apply_ite State.cmds, State.setFld_cmds, ite_self, h, hdue]
  simp only [State.endLoad, State.setResult, hcmds]

/-! SCB_GLYPH_CTL. -/

/-- What the go of SCB_GLYPH_CTL does, in terms of the stored fields. -/
theorem Stores.glyphGo (h : Stores s t .SCB_GLYPH_CTL 0 w x) (hgo : Fld.SCB_GLYPH_CTL_go.get w.toNat = 1)
    (hauth : s.cmdAuth = false) (hidle : x.glyphBusy = false) : (s.at t).writeGlyphCtl 0 w.toNat fullMask = x.glyphGo :=
  (if_neg (by rw [h.1]; decide)).trans ((if_neg (by decide)).trans (State.goClosed_of h _ _ _ _ hgo hauth hidle))

/-- The go of a load (R341): from outside the host's DRAM region it has result 2, into a slot in use result 1. -/
theorem State.glyphGo_load (hop : s.fld Fld.SCB_GLYPH_CTL_op = 1) : s.glyphGo =
    if !dmaRange (s.fld Fld.SCB_GLYPH_ADDR_addr) (s.fld Fld.SCB_GLYPH_CTL_length) then s.setFld Fld.SCB_GLYPH_CTL_result 2
    else if s.setBusy (s.fld Fld.SCB_GLYPH_CTL_set) then s.setFld Fld.SCB_GLYPH_CTL_result 1
    else s.beginLoad (s.fld Fld.SCB_GLYPH_CTL_set) (s.fld Fld.SCB_GLYPH_ADDR_addr) (s.fld Fld.SCB_GLYPH_CTL_length) none none true := by
  unfold State.glyphGo
  dsimp only
  rw [hop]
  rfl

/-- The go of an unload (R343): of a set with open streams it has result 1. -/
theorem State.glyphGo_unload (hop : s.fld Fld.SCB_GLYPH_CTL_op = 2) : s.glyphGo =
    if s.setStreams (s.fld Fld.SCB_GLYPH_CTL_set) != 0 then s.setFld Fld.SCB_GLYPH_CTL_result 1
    else (s.setFld Fld.SCB_GLYPH_CTL_result 0).defer (.glyphUnload (s.fld Fld.SCB_GLYPH_CTL_set)) := by
  unfold State.glyphGo
  dsimp only
  rw [hop]
  rfl

/-! The statement. -/

/-- Settles O41: an image that has been copied is placed (`State.admitImage_passes`) or its load fails (`State.admitImage_fails`), and the
go of SCB_GLYPH_CTL is `State.glyphGo_load` or `State.glyphGo_unload`. -/
theorem glyphSets : Obligations.GlyphSets := by
  unfold Obligations.GlyphSets
  refine ⟨fun s t set => ?image, fun s t w x h hgo hauth hidle => ?go⟩
  case image =>
    intro g
    refine ⟨fun hloading hcopying => ?copied, fun hstate hend hnone => ?loaded⟩
    case copied =>
      intro hd code half placed
      have hcopy : (g.state == .loading && g.copying) = true := by simp [hloading, hcopying]
      have hcode : (s.at t).admitCheck set true = code := rfl
      refine ⟨fun hpass => ?passes, fun hfail => ?fails⟩
      case passes =>
        refine Answers.of_eq rfl ((if_pos hcopy).trans (State.admitImage_passes (hcode.trans hpass))) ⟨?_, fun n hn => ?_, rfl⟩
        · rw [State.glyph_settle, State.glyph_setGlyph, if_pos rfl]
          rfl
        · rw [State.glyph_settle, State.glyph_setGlyph, if_neg hn, State.glyph_setGlyph, if_neg hn]
          rfl
      case fails =>
        have hslot := State.glyph_failLoad (s.at t) set code
        refine Answers.of_eq rfl ((if_pos hcopy).trans (State.admitImage_fails (code := code) hcode hfail))
          ⟨?_, ?_, ?_, fun n hn => ?_, fun id hid => ?_⟩
        · rw [State.glyph_settle]
          exact congrArg (·.state) ((hslot set).trans (if_pos rfl))
        · rw [State.glyph_settle]
          exact congrArg (·.admitErr) ((hslot set).trans (if_pos rfl))
        · rw [State.bit_settle]
          exact State.bit_failLoad ..
        · rw [State.glyph_settle]
          exact (hslot n).trans (if_neg hn)
        · rw [State.settle_cmds]
          exact State.failLoad_accepted hid
    case loaded =>
      have hloads : (g.state == .reloading || (g.state == .loading && !g.copying)) = true := by
        obtain h | ⟨h, hcopied⟩ := hstate
        · simp [h]
        · simp [h, hcopied]
      have hready : ((g.state == .reloading || (g.state == .loading && !g.copying)) &&
          !s.due.any (fun d => d.change == Change.glyphReady set) && decide (g.loadEnd ≤ (s.at t).now)) = true := by
        rw [hloads, hnone]
        simp [hend]
      exact Leaves.of_eq rfl (if_pos hready)
  case go =>
    intro set len addr result
    have hx := h.only
    have hset : x.setBusy set = s.setBusy set := by rw [hx]; rfl
    have hstreams : x.setStreams set = s.setStreams set := by rw [hx]; rfl
    have hdram : x.dram = s.dram := by rw [hx]; rfl
    have hact := h.glyphGo hgo hauth hidle
    refine ⟨fun hop => ?load, fun hop => ?unload⟩
    case load =>
      rw [State.glyphGo_load hop] at hact
      refine ⟨fun hrange => .of_eq rfl (hact.trans ?_), fun hrange hbusy => .of_eq rfl (hact.trans ?_),
        fun hrange hfree => .of_eq rfl (hact.trans ?_)⟩
      · exact if_pos (by rw [show dmaRange _ _ = _ from hrange]; rfl)
      · exact (if_neg (by rw [show dmaRange _ _ = _ from hrange]; decide)).trans (if_pos (hset.trans hbusy))
      · refine (if_neg (by rw [show dmaRange _ _ = _ from hrange]; decide)).trans ((if_neg ?_).trans ?_)
        · rw [show x.setBusy _ = _ from hset.trans hfree]
          decide
        · rw [State.beginLoad, hdram]
    case unload =>
      rw [State.glyphGo_unload hop] at hact
      have hdue : (x.setFld Fld.SCB_GLYPH_CTL_result 0).dueTide = (s.at t).dueTide :=
        (State.dueTide_congr (State.setFld_clock ..) (State.setFld_mode ..)).trans (by rw [hx]; rfl)
      refine ⟨fun hopen => .of_eq rfl (hact.trans ?_), fun hclosed => .of_eq rfl (hact.trans ?_)⟩
      · exact if_pos (by rw [show x.setStreams _ = _ from hstreams]; simp [hopen])
      · refine (if_neg (by rw [show x.setStreams _ = _ from hstreams.trans hclosed]; decide)).trans ?_
        rw [State.defer, hdue, State.setFld_due, show x.due = s.due by rw [hx]; rfl]

end Sys2Proof.Machine
end

section
/-! The end of a chunk without a match, and the watchdog of stroke 255 (R360, R362). -/
namespace Sys2Proof.Machine
variable {s y : State} {t x : Nat} {a : Assigned}

/-! The one chunk that a scribe is at work on. -/

theorem updateFirst_one {α : Type} {p : α → Bool} {f : α → α} {b : α} (h : p b = true) : updateFirst p f [b] = [f b] := by
  simp [updateFirst, h]

theorem find_one {α : Type} {p : α → Bool} {b : α} (h : p b = true) : [b].find? p = some b := by
  simp [h]

/-- A change of the work of a scribe that has one chunk. -/
theorem State.changeWork_one {p : Assigned → Bool} {f : Assigned → Assigned} (hw : (s.scribe x).work = [a]) (hp : p a = true) :
    s.changeWork x p f = s.setScribe x { s.scribe x with work := [f a] } := by
  unfold State.changeWork
  dsimp only
  rw [hw, updateFirst_one hp]

@[simp] theorem State.scribe_at (s : State) (t n : Nat) : (s.at t).scribe n = s.scribe n := rfl

@[simp] theorem State.streamState_at (s : State) (t n : Nat) : (s.at t).streamState n = s.streamState n := rfl

theorem State.streamState_congr (h : y.dram = s.dram) (n : Nat) : y.streamState n = s.streamState n := by
  simp only [State.streamState, h]

@[simp] theorem State.setScribe_dram (s : State) (n : Nat) (v : Scribe) : (s.setScribe n v).dram = s.dram := rfl

/-! A chunk that ends. -/

/-- The count of a chunk that ends: faulted or out of sequence (R358, R360, R362). -/
def State.countEnded (s : State) (status : Nat) : State :=
  if status = 4 then s.bump Fld.SCB_COUNT1_faulted else if status = 3 then s.bump Fld.SCB_COUNT1_out_of_seq else s

/-- The end of a chunk without a match: its destination is that of its stream (R363). -/
def State.bareEnd (s : State) (n status cause : Nat) : ChunkEnd :=
  ⟨status, cause, [], 0, s.clock.count, fieldLE (s.streamState n) 14 2 / 16384, fieldLE (s.streamState n) 14 2 % 4096,
    (byteAt (s.streamState n) 11).testBit 3, none⟩

theorem dramOnly_countEnded (s : State) (status : Nat) : DramOnly s (s.countEnded status) :=
  .ite (dramOnly_bump ..) (.ite (dramOnly_bump ..) (.refl s))

theorem State.countEnded_dram (s : State) (status : Nat) : (s.countEnded status).dram = s.dram := by
  unfold State.countEnded
  split_ifs <;> simp

theorem State.countEnded_dramCtl (s : State) (status : Nat) : (s.countEnded status).dramCtl = s.dramCtl := by
  unfold State.countEnded
  split_ifs <;> simp

section
variable (hw : (s.scribe x).work = [a]) (hrun : a.runTide = s.clock.grid) (hend : a.ended = none)
include hw hrun hend

/-- The running chunk of a scribe ends without a match. -/
theorem State.endChunk_one (status cause : Nat) : s.endChunk x status cause =
    (s.countEnded status).setScribe x { s.scribe x with work := [{ a with ended := some (s.bareEnd a.chunk.stream status cause) }] } := by
  have hp : (a.runTide == s.clock.grid && a.ended.isNone) = true := by simp [hrun, hend]
  have hscribe : (s.countEnded status).scribe x = s.scribe x :=
    State.scribe_congr (congrArg State.scribes (dramOnly_countEnded s status).eq) x
  unfold State.endChunk
  extract_lets running
  rw [hw, find_one (p := running) hp]
  rw [← hscribe] at hw
  exact (State.changeWork_one hw hp).trans (by rw [hscribe]; rfl)

theorem State.endChunk_work (status cause : Nat) : ((s.endChunk x status cause).scribe x).work =
    [{ a with ended := some (s.bareEnd a.chunk.stream status cause) }] := by
  rw [State.endChunk_one hw hrun hend, State.scribe_setScribe, if_pos rfl]

theorem State.endChunk_scribe (status cause : Nat) {k : Nat} (hk : k ≠ x) : (s.endChunk x status cause).scribe k = s.scribe k := by
  rw [State.endChunk_one hw hrun hend, State.scribe_setScribe, if_neg hk]
  exact State.scribe_congr (congrArg State.scribes (dramOnly_countEnded s status).eq) k

theorem State.endChunk_dram (status cause : Nat) : (s.endChunk x status cause).dram = s.dram := by
  rw [State.endChunk_one hw hrun hend, State.setScribe_dram, State.countEnded_dram]

theorem State.endChunk_dramCtl (status cause : Nat) : (s.endChunk x status cause).dramCtl = s.dramCtl := by
  rw [State.endChunk_one hw hrun hend]
  exact State.countEnded_dramCtl s status

end

/-! The watchdog (R362). -/

/-- The state of a faulted chunk's stream is written with its failed bit set. -/
def State.failStream (s : State) (n : Nat) : State :=
  s.writeStream n (patch (s.streamState n) 11 (leBytes (setBit (byteAt (s.streamState n) 11) 1 true) 1))

/-- A scribe waits after a fault: it is assignable again in the third tide. -/
def State.restScribe (s : State) (x : Nat) : State := s.setScribe x { s.scribe x with assignFrom := s.clock.grid + 3 }

theorem State.failStream_scribe (s : State) (n k : Nat) : (s.failStream n).scribe k = s.scribe k :=
  State.scribe_congr (congrArg State.scribes (dramOnly_writeStream ..).eq) k

theorem State.failStream_dram (hd : y.dram = s.dram) (hc : y.dramCtl = s.dramCtl) (n : Nat) :
    (y.failStream n).dram = (s.spoil (streamAddr n) 64).dram.write (streamAddr n)
      (sealState (patch (s.streamState n) 11 (leBytes (setBit (byteAt (s.streamState n) 11) 1 true) 1))) := by
  have hlen (v : Nat) : (patch (s.streamState n) 11 (leBytes v 1)).length = 64 := by
    rw [length_patch (by simp [State.length_streamState]), State.length_streamState]
  unfold State.failStream
  rw [State.streamState_congr hd, State.writeStream_dram (by rw [hlen]; decide) hd hc]

theorem State.bit_fault_faultEvent (s : State) (object infoA infoB : Nat) :
    ((s.raise Fld.SCB_STATUS_fault).faultEvent 0x06 1 0x4 object infoA infoB).bit Fld.SCB_STATUS_fault = true := by
  have hclass : (classCount 1).reg = .FLT_COUNT0 := rfl
  exact (congrArg (· != 0) (State.fld_postFault _ _ 1 0x4 _ (by decide) (by decide) (by rw [hclass]; decide))).trans
    (State.bit_raise_on _ rfl (by decide))

section
variable (hw : (s.scribe x).work = [a]) (hrun : a.runTide = s.clock.grid) (hend : a.ended = none)
include hw hrun hend

theorem State.watchdogChunk_one : s.watchdogChunk x =
    ((((s.endChunk x 4 1).failStream a.chunk.stream).restScribe x).raise Fld.SCB_STATUS_fault).faultEvent 0x06 1 0x4
      (fieldLE a.chunk.record 4 3) x (fieldLE a.chunk.record 8 4) := by
  have hfind : [a].find? (fun b => b.runTide == s.clock.grid && b.ended.isNone) = some a := find_one (by simp [hrun, hend])
  have hclock : ((s.endChunk x 4 1).failStream a.chunk.stream).clock = s.clock :=
    (KeepsTime.writeStream (KeepsTime.endChunk (.refl s))).clock
  unfold State.watchdogChunk
  rw [hw, hfind, State.restScribe, hclock]
  rfl

/-- A chunk that has not completed in stroke 255 is faulted, its stream with it, and its scribe waits (R362). -/
theorem chunkWatchdog_faults : Answers (.chunkWatchdog x) s (fun s' =>
    (∃ e, (s'.scribe x).work = [{ a with ended := some e }] ∧ e.status = 4 ∧ e.cause = 1 ∧ e.reported = []) ∧
    (s'.scribe x).assignFrom = s.clock.grid + 3 ∧ s'.bit Fld.SCB_STATUS_fault = true ∧
    s'.dram = ((s.at 255).spoil (streamAddr a.chunk.stream) 64).dram.write (streamAddr a.chunk.stream) (sealState
      (patch (s.streamState a.chunk.stream) 11 (leBytes (setBit (byteAt (s.streamState a.chunk.stream) 11) 1 true) 1))) ∧
    (∀ k, k ≠ x → s'.scribe k = s.scribe k)) := by
  let z := ((s.at 255).endChunk x 4 1).failStream a.chunk.stream
  have hclock : z.clock = (s.at 255).clock := (KeepsTime.writeStream (KeepsTime.endChunk (.refl (s.at 255)))).clock
  have hscribe : ∀ k, (((z.restScribe x).raise Fld.SCB_STATUS_fault).faultEvent 0x06 1 0x4 (fieldLE a.chunk.record 4 3) x
      (fieldLE a.chunk.record 8 4)).settle.scribe k = (z.restScribe x).scribe k := fun k => State.scribe_congr (by simp) k
  refine Answers.of_eq rfl (State.watchdogChunk_one hw hrun hend)
    ⟨⟨(s.at 255).bareEnd a.chunk.stream 4 1, ?_, rfl, rfl, rfl⟩, ?_, ?_, ?_, fun k hk => ?_⟩
  · rw [hscribe, State.restScribe, State.scribe_setScribe, if_pos rfl]
    exact (congrArg (·.work) (State.failStream_scribe ..)).trans (State.endChunk_work (s := s.at 255) hw hrun hend 4 1)
  · rw [hscribe, State.restScribe, State.scribe_setScribe, if_pos rfl, hclock]
    rfl
  · rw [State.bit_settle]
    exact State.bit_fault_faultEvent ..
  · rw [State.settle_dram, State.faultEvent_dram, State.raise_dram, State.restScribe, State.setScribe_dram]
    exact State.failStream_dram (s := s.at 255) (State.endChunk_dram (s := s.at 255) hw hrun hend 4 1)
      (State.endChunk_dramCtl (s := s.at 255) hw hrun hend 4 1) a.chunk.stream
  · rw [hscribe, State.restScribe, State.scribe_setScribe, if_neg hk]
    exact (State.failStream_scribe ..).trans (State.endChunk_scribe (s := s.at 255) hw hrun hend 4 1 hk)

end

end Sys2Proof.Machine
end

section
/-! The reads of the states of the chunks' streams, and the reports of the chunks that have ended (R358, R363, R364). -/
namespace Sys2Proof.Machine
variable {s y : State} {t x : Nat} {a : Assigned}

/-! The read of the state of a chunk's stream (R358). -/

theorem dramOnly_countSpan (s : State) (b n : Nat) (how : DramRead) : DramOnly s (s.countSpan b n how) :=
  .each (fun _ _ => DramOnly.trans (dramOnly_countFlags ..) (dramOnly_countEnd ..)) s _

@[simp] theorem State.countSpan_dram (s : State) (b n : Nat) (how : DramRead) : (s.countSpan b n how).dram = s.dram :=
  foldl_keeps _ State.dram _ _ fun _ _ _ => by simp

/-- A read of a stream's state does not decode, or its check fails. -/
def State.stateLost (s : State) (n : Nat) (how : DramRead) : Bool :=
  s.spanEnd (streamAddr n) 64 how == DramEnd.uncorrectable || s.streamState n != sealState (s.streamState n)

/-- The read of a stream's state has come back and its bytes are counted. -/
def State.stateRead (s : State) (n : Nat) (how : DramRead) : State :=
  (s.dramReturn 2 (streamAddr n) 64).countSpan (streamAddr n) 64 how

theorem dramOnly_stateRead (s : State) (n : Nat) (how : DramRead) : DramOnly s (s.stateRead n how) :=
  (issuesOnly_dramReturn ..).dramOnly.trans (dramOnly_countSpan ..)

theorem State.stateRead_dram (s : State) (n : Nat) (how : DramRead) : (s.stateRead n how).dram = s.dram := by
  rw [State.stateRead, State.countSpan_dram, (issuesOnly_dramReturn ..).dram]

/-- After a read of DRAM a scribe is replaced: what the command leaves. -/
theorem DramOnly.setScribe_frame (h : DramOnly (s.at t) y) (v : Scribe) :
    let s' := (y.setScribe x v).settle
    s' = ({ s with
      clock := (s.at t).clock, start := (s.at t).start, scribes := s'.scribes, pins := s'.pins, ring := s'.ring }).dramAs s' := by
  rw [h.eq]
  rfl

theorem DramOnly.scribes (h : DramOnly s y) : y.scribes = s.scribes := (congrArg State.scribes h.eq :)

/-- A scribe gives its chunk back to the head of the chunk's stream, and the late read is counted (R358). -/
def State.sendBack (s : State) (x : Nat) (c : Chunk) : State :=
  let z := (s.setScribe x { s.scribe x with work := [] }).bump Fld.SCB_COUNT1_state_late
  { z with scribes := { z.scribes with queue := requeue c z.scribes.queue } }

theorem State.sendBack_scribe (s : State) (x : Nat) (c : Chunk) (k : Nat) :
    (s.sendBack x c).scribe k = if k = x then { s.scribe x with work := [] } else s.scribe k := by
  change (State.sendBack s x c).scribes.scribes.findD k Scribe.reset = _
  simp only [State.sendBack, State.bump_scribes]
  exact State.scribe_setScribe ..

theorem State.sendBack_queue (s : State) (x : Nat) (c : Chunk) : (s.sendBack x c).scribes.queue = requeue c s.scribes.queue := by
  simp only [State.sendBack, State.bump_scribes]
  rfl

theorem State.sendBack_dram (s : State) (x : Nat) (c : Chunk) : (s.sendBack x c).dram = s.dram := by
  simp [State.sendBack]

theorem State.sendBack_clock (s : State) (x : Nat) (c : Chunk) : (s.sendBack x c).clock = s.clock := by
  simp only [State.sendBack, State.bump_clock]
  rfl

section
variable (hw : (s.scribe x).work = [a]) (hrun : a.runTide = s.clock.grid + 1) (hread : a.reading = true)
include hw hrun hread

/-- A state read that returns is noted, with the check of its bytes (R358). -/
theorem streamStateRead_returns (t : Nat) (how : DramRead) : Answers (.streamStateReadReturn t x how) s (fun s' =>
    s'.scribe x = { s.scribe x with work := [{ a with reading := false, badState := s.stateLost a.chunk.stream how }] } ∧
    (∀ m, m ≠ x → s'.scribe m = s.scribe m) ∧ s'.scribes.queue = s.scribes.queue ∧ s'.dram = s.dram ∧
    s' = ({ s with
      clock := (s.at t).clock, start := (s.at t).start, scribes := s'.scribes, pins := s'.pins, ring := s'.ring }).dramAs s') := by
  have hp : readingFor (s.clock.grid + 1) a = true := by simp [readingFor, hrun, hread]
  have honly := dramOnly_stateRead (s.at t) a.chunk.stream how
  have hscribe : ∀ k, ((s.at t).stateRead a.chunk.stream how).scribe k = s.scribe k :=
    fun k => State.scribe_congr (s := s.at t) honly.scribes k
  have hrun : exec (.streamStateReadReturn t x how) s = .next (((s.at t).stateRead a.chunk.stream how).changeWork x
      (readingFor (s.clock.grid + 1)) (fun b => { b with reading := false, badState := s.stateLost a.chunk.stream how })).settle := by
    change execStreamStateReadReturn t x how s = _
    have hfind : ((s.at t).scribe x).work.find? (readingFor ((s.at t).clock.grid + 1)) = some a := by
      rw [State.scribe_at, hw]
      exact find_one hp
    unfold execStreamStateReadReturn
    dsimp only
    rw [hfind]
    rfl
  refine Answers.of_eq hrun (State.changeWork_one ((congrArg (·.work) (hscribe x)).trans hw) hp)
    ⟨?_, fun m hm => ?_, ?_, ?_, honly.setScribe_frame _⟩
  · rw [State.scribe_settle, State.scribe_setScribe, if_pos rfl, hscribe]
  · rw [State.scribe_settle, State.scribe_setScribe, if_neg hm, hscribe]
  · rw [State.settle_scribes]
    exact congrArg (·.queue) honly.scribes
  · rw [State.settle_dram, State.setScribe_dram, State.stateRead_dram]
    rfl

theorem State.lateRead_one : s.lateRead x (s.clock.grid + 1) = s.sendBack x a.chunk := by
  have hp : readingFor (s.clock.grid + 1) a = true := by simp [readingFor, hrun, hread]
  have hfind : [a].find? (readingFor (s.clock.grid + 1)) = some a := find_one hp
  have hleft : [a].filter (fun b => !readingFor (s.clock.grid + 1) b) = [] := by simp [hp]
  unfold State.lateRead
  dsimp only
  rw [hw, hfind, hleft, State.sendBack]

/-- A state read still out at the end of the tide sends its chunk back to the head of its stream (R358). -/
theorem streamStateRead_late : Answers (.streamStateReadLate x) s (fun s' => (s'.scribe x).work = [] ∧
    s'.scribes.queue = requeue a.chunk s.scribes.queue ∧ (∀ m, m ≠ x → s'.scribe m = s.scribe m) ∧ s'.dram = s.dram ∧
    s'.clock = (s.at 255).clock) := by
  refine Answers.of_eq rfl (State.lateRead_one (s := s.at 255) hw hrun hread) ⟨?_, ?_, fun m hm => ?_, ?_, ?_⟩
  · rw [State.scribe_settle, State.sendBack_scribe, if_pos rfl]
  · rw [State.settle_scribes, State.sendBack_queue]
    rfl
  · rw [State.scribe_settle, State.sendBack_scribe, if_neg hm, State.scribe_at]
  · rw [State.settle_dram, State.sendBack_dram]
    rfl
  · rw [State.settle_clock, State.sendBack_clock]

end

/-! The report of a chunk that has ended (R363, R364). -/

/-- The matches of a chunk that found none are counted. -/
def State.countNone (s : State) : State := (s.bump Fld.SCB_COUNT0_matches 0).bump Fld.SCB_COUNT1_unreported 0

/-- A scribe has ended its work. -/
def State.workDone (s : State) (x : Nat) : State := (s.setScribe x { s.scribe x with work := [] }).countNone

theorem State.workDone_scribes (s : State) (x : Nat) :
    (s.workDone x).scribes = (s.setScribe x { s.scribe x with work := [] }).scribes := by
  simp [State.workDone, State.countNone]

theorem State.workDone_work (s : State) (x : Nat) : ((s.workDone x).scribe x).work = [] := by
  rw [State.scribe_congr (s.workDone_scribes x), State.scribe_setScribe, if_pos rfl]

theorem State.workDone_reports (s : State) (x : Nat) : (s.workDone x).scribes.reports = s.scribes.reports :=
  congrArg (·.reports) (s.workDone_scribes x)

theorem State.workDone_out (s : State) (x : Nat) : (s.workDone x).out = s.out := by
  simp only [State.workDone, State.countNone, State.bump_out]
  rfl

theorem State.workDone_links (s : State) (x : Nat) : (s.workDone x).links = s.links := by
  simp only [State.workDone, State.countNone, State.bump_links]
  rfl

theorem State.quayRoom_congr (h : y.links = s.links) (q words : Nat) : y.quayRoom q words = s.quayRoom q words := by
  unfold State.quayRoom State.secondaryWords State.link
  rw [h]

/-- No record waits: the match buffers deliver nothing. -/
theorem State.flushReports_none (h : s.scribes.reports = []) : s.flushReports = s := by
  rw [State.flushReports, h, State.sendReports]

/-- A record to a quay that has room is the first to go. -/
theorem State.sendReport_quay {r : Report} (hdest : r.dest = 2) (hroom : s.quayRoom r.index (r.bytes.length / 8) = true) :
    s.sendReport r = some (s.offerSecondary r.index .secondary r.bytes) := by
  simp [State.sendReport, hdest, hroom]

theorem State.offerSecondary_scribes (s : State) (q : Nat) (kind : TxKind) (bytes : Bytes) :
    (s.offerSecondary q kind bytes).scribes = s.scribes := by
  simp [State.offerSecondary]

theorem State.offerSecondary_out (s : State) (q : Nat) (kind : TxKind) (bytes : Bytes) :
    (s.offerSecondary q kind bytes).out = s.out ++ [.offered q bytes] := by
  simp [State.offerSecondary, State.emit]

/-- A record to a quay that has room leaves at once, where no other waits. -/
theorem State.flushReports_one {r : Report} (h : s.scribes.reports = []) (hdest : r.dest = 2)
    (hroom : s.quayRoom r.index (r.bytes.length / 8) = true) : (s.report r).flushReports.scribes = s.scribes ∧
      (s.report r).flushReports.out = s.out ++ [.offered r.index r.bytes] := by
  have hone : (s.report r).scribes = { s.scribes with reports := [r] } := by simp [State.report, h]
  have hsend := State.sendReport_quay (s := s.report r) hdest ((State.quayRoom_congr rfl ..).trans hroom)
  let z := (s.report r).offerSecondary r.index .secondary r.bytes
  have hflush : (s.report r).flushReports = { z with scribes := { z.scribes with reports := z.scribes.reports.erase r } } := by
    rw [State.flushReports, hone, State.sendReports, hsend]
    rfl
  have hscribes : z.scribes = { s.scribes with reports := [r] } := (State.offerSecondary_scribes ..).trans hone
  refine ⟨?_, ?_⟩
  · rw [hflush, hscribes, List.erase_cons_head, ← h]
  · rw [hflush]
    exact State.offerSecondary_out ..

/-- The status record of an ended chunk without matches. -/
def endStatus (a : Assigned) (e : ChunkEnd) : Bytes :=
  chunkStatus a.chunk.record e.status (if e.status = 0 then fieldLE a.chunk.record 2 2 else 0) e.cause 0 e.tide

/-- An ended chunk wants an answer (R363). -/
def wantsAnswer (a : Assigned) (e : ChunkEnd) : Bool :=
  e.status != 0 || (byteAt a.chunk.record 1).testBit 3 || (byteAt a.chunk.record 1).testBit 2 || e.ackAll

section
variable {e : ChunkEnd} {q : Nat} (hw : (s.scribe x).work = [a]) (hended : a.ended = some e) (hlate : a.runTide < s.clock.grid)
  (hreported : e.reported = []) (hfound : e.found = 0) (hsrc : a.chunk.src = .quay q)

include hreported hfound hsrc in
theorem State.reportChunk_none : s.reportChunk a e = if wantsAnswer a e then
    s.countNone.postStatus a.chunk e.dest e.index (endStatus a e) else s.countNone := by
  unfold State.reportChunk
  rw [hreported, hfound]
  have hquiet : s.countNone.releaseReply a.chunk.src a.chunk.reply 1 = s.countNone := by
    rw [hsrc]
    rfl
  exact congrArg (ite _ _) hquiet

include hw hended hlate in
theorem exec_chunkReport : exec (.chunkReport x) s =
    .next ((s.setScribe x { s.scribe x with work := [] }).reportChunk a e).flushReports.settle := by
  have hfind : [a].find? (fun b => decide (b.runTide < s.clock.grid) && b.ended.isSome) = some a :=
    find_one (by simp [hlate, hended])
  have hrest : [a].filter (fun b => decide (b ≠ a)) = [] := by simp
  change execChunkReport x s = _
  unfold execChunkReport
  dsimp only
  rw [hw, hfind]
  dsimp only
  rw [hended, hrest]

include hw hended hlate hreported hfound hsrc

/-- A chunk that asks for no answer and found nothing leaves without a record (R363). -/
theorem chunkReport_quiet (hreports : s.scribes.reports = []) (hwants : wantsAnswer a e = false) : Answers (.chunkReport x) s
    (fun s' => (s'.scribe x).work = [] ∧ s'.scribes.reports = [] ∧ s'.out = s.out ∧ s'.links = s.links) := by
  have hreports' := (s.workDone_reports x).trans hreports
  have hleft : ((s.setScribe x { s.scribe x with work := [] }).reportChunk a e).flushReports = s.workDone x := by
    rw [State.reportChunk_none hreported hfound hsrc, hwants]
    exact State.flushReports_none hreports'
  refine Answers.of_eq (exec_chunkReport hw hended hlate) hleft ⟨?_, ?_, ?_, ?_⟩
  · rw [State.scribe_settle, State.workDone_work]
  · rw [State.settle_scribes, hreports']
  · rw [State.settle_out, State.workDone_out]
  · rw [State.settle_links, State.workDone_links]

/-- The status of a chunk that ends without a run goes to the carrier's quay (R363). -/
theorem chunkReport_status (hreports : s.scribes.reports = []) (hstatus : e.status ≠ 0) (hdest : e.dest = 0)
    (hlen : 12 ≤ a.chunk.record.length) (hroom : s.quayRoom q 3 = true) : Answers (.chunkReport x) s
    (fun s' => (s'.scribe x).work = [] ∧ s'.scribes.reports = [] ∧
      s'.out = s.out ++ [.offered q (chunkStatus a.chunk.record e.status 0 e.cause 0 e.tide)]) := by
  let r : Report := ⟨(s.workDone x).halfOf a.chunk.set, 2, q, chunkStatus a.chunk.record e.status 0 e.cause 0 e.tide, 0⟩
  have hwords : r.bytes.length / 8 = 3 := by
    simp [r, chunkStatus, length_leBytes]
    omega
  have hreports' := (s.workDone_reports x).trans hreports
  have hroom' : (s.workDone x).quayRoom r.index (r.bytes.length / 8) = true := by
    rw [hwords]
    exact (State.quayRoom_congr (s.workDone_links x) q 3).trans hroom
  obtain ⟨hscribes, hout⟩ := State.flushReports_one (r := r) hreports' rfl hroom'
  have hleft : ((s.setScribe x { s.scribe x with work := [] }).reportChunk a e).flushReports =
      ((s.workDone x).report r).flushReports := by
    have hwants : wantsAnswer a e = true := by simp [wantsAnswer, hstatus]
    rw [State.reportChunk_none hreported hfound hsrc, hwants, if_pos rfl, State.postStatus, hdest, hsrc, endStatus, if_neg hstatus]
    rfl
  refine Answers.of_eq (exec_chunkReport hw hended hlate) hleft ⟨?_, ?_, ?_⟩
  · rw [State.scribe_settle, State.scribe_congr hscribes, State.workDone_work]
  · rw [State.settle_scribes, hscribes, hreports']
  · rw [State.settle_out, hout, State.workDone_out]

end

/-- Settles O43: a state read that returns is noted and a late one gives its chunk back; the watchdog faults a chunk that is not complete;
and an ended chunk's status leaves through the carrier's quay, where an answer is wanted. -/
theorem chunksReadAndEnd : Obligations.ChunksReadAndEnd := by
  unfold Obligations.ChunksReadAndEnd
  refine ⟨fun s t n a hw hrun hread => ⟨streamStateRead_returns hw hrun hread t, streamStateRead_late hw hrun hread⟩,
    fun s x a hw => ⟨chunkWatchdog_faults hw, fun e q hended hlate hreported hfound hsrc hreports => ⟨?_, ?_⟩⟩⟩
  · intro hstatus hack heos hall
    exact chunkReport_quiet hw hended hlate hreported hfound hsrc hreports (by simp [wantsAnswer, hstatus, hack, heos, hall])
  · exact chunkReport_status hw hended hlate hreported hfound hsrc hreports

end Sys2Proof.Machine
end

section
/-! The run of a chunk, and what ends it before (R329 to R331, R350, R358 to R361). -/
namespace Sys2Proof.Machine
variable {s y : State} {t x : Nat} {a : Assigned}

/-! Fields of a record that is put together from parts (R9). -/

theorem leNat_leBytes_mod (v n : Nat) : leNat (leBytes v n) = v % 256 ^ n := by
  induction n generalizing v with
  | zero => simp [leBytes, leNat, Nat.mod_one]
  | succ n ih =>
    have hsplit : v % 256 ^ (n + 1) = v % 256 + 256 * (v / 256 % 256 ^ n) := by rw [Nat.pow_succ', Nat.mod_mul]
    simp [leBytes, leNat, ih, hsplit]

theorem fieldLE_leBytes (v n : Nat) : fieldLE (leBytes v n) 0 n = v % 256 ^ n := by
  rw [fieldLE, List.drop_zero, List.take_of_length_le (by simp), leNat_leBytes_mod]

theorem fieldLE_append_left {bs cs : Bytes} {i n : Nat} (h : i + n ≤ bs.length) : fieldLE (bs ++ cs) i n = fieldLE bs i n := by
  rw [fieldLE, fieldLE, List.drop_append_of_le_length (by omega), List.take_append_of_le_length (by simp; omega)]

theorem fieldLE_append_right {bs cs : Bytes} {i n : Nat} (h : bs.length ≤ i) : fieldLE (bs ++ cs) i n = fieldLE cs (i - bs.length) n := by
  rw [fieldLE, fieldLE, List.drop_append, List.drop_eq_nil_of_le h, List.nil_append]

theorem fieldLE_slice (bs : Bytes) {i j n k : Nat} (h : i + n ≤ k) : fieldLE ((bs.drop j).take k) i n = fieldLE bs (j + i) n := by
  rw [fieldLE, fieldLE, List.drop_take, List.take_take, List.drop_drop, Nat.min_eq_left (by omega)]

/-- The state of a stream after a run (R359, R361): `st` was its state before. -/
def ranState (st : Bytes) (state stop seq count : Nat) (counters : Bytes) (now : Nat) : Bytes :=
  leBytes state 4 ++ leBytes stop 6 ++ (st.drop 10).take 6 ++ leBytes seq 4 ++ (st.drop 20).take 4 ++ leBytes count 8 ++
    (counters ++ zeros (16 - counters.length)) ++ leBytes now 8 ++ zeros 4

/-- Each field of the new state lies within one of its parts. -/
theorem ranState_fields {st : Bytes} (hst : st.length = 64) (state stop seq count : Nat) (counters : Bytes) (now : Nat) :
    let new := ranState st state stop seq count counters now
    fieldLE new 0 4 = state % 2 ^ 32 ∧ fieldLE new 4 6 = stop % 2 ^ 48 ∧ fieldLE new 12 2 = fieldLE st 12 2 ∧
      fieldLE new 16 4 = seq % 2 ^ 32 ∧ fieldLE new 24 8 = count % 2 ^ 64 := by
  simp only [ranState, List.append_assoc]
  refine ⟨?_, ?_, ?_, ?_, ?_⟩ <;>
    simp [fieldLE_append_left, fieldLE_append_right, fieldLE_leBytes, fieldLE_slice, hst]

/-! The run. -/

/-- A chunk's berth is not that of its stream, or the chunk's set is out of the berth's mask (R360). -/
def State.wrongBerth (s : State) (a : Assigned) : Bool :=
  let berth := fieldLE a.chunk.record 12 2 % 16384
  berth != fieldLE (s.streamState a.chunk.stream) 12 2 % 16384 || !(s.berth berth).record.glyphMask.testBit a.chunk.set

theorem State.wrongBerth_iff : s.wrongBerth a = true ↔
    fieldLE a.chunk.record 12 2 % 16384 ≠ fieldLE (s.streamState a.chunk.stream) 12 2 % 16384 ∨
      (s.berth (fieldLE a.chunk.record 12 2 % 16384)).record.glyphMask.testBit a.chunk.set = false := by
  simp [State.wrongBerth]

theorem State.wrongBerth_eq_false (hberth : fieldLE a.chunk.record 12 2 % 16384 = fieldLE (s.streamState a.chunk.stream) 12 2 % 16384)
    (hmask : (s.berth (fieldLE a.chunk.record 12 2 % 16384)).record.glyphMask.testBit a.chunk.set = true) : s.wrongBerth a = false := by
  rw [State.wrongBerth, hmask, hberth]
  simp

/-- What the automaton makes of a chunk: its state, its counters and the matches within the bytes (R329 to R331). -/
def State.walked (s : State) (a : Assigned) : Nat × Bytes × List (Nat × Nat × Bool) :=
  let st := s.streamState a.chunk.stream
  walk (s.hotImage a.chunk.set) ((a.chunk.record.drop 16).take (fieldLE a.chunk.record 2 2)) (fieldLE st 4 6) (fieldLE st 0 4)
    ((st.drop 32).take 16) []

/-- The offset in a stream after a chunk. -/
def State.runStop (s : State) (a : Assigned) : Nat := fieldLE (s.streamState a.chunk.stream) 4 6 + fieldLE a.chunk.record 2 2

/-- The matches of a chunk: those within its bytes, and at the end of the stream those that close it (R331). -/
def State.ranMatches (s : State) (a : Assigned) : List (Nat × Nat × Bool) :=
  (s.walked a).2.2 ++ if (byteAt a.chunk.record 1).testBit 2 = true ∧ 0 < s.runStop a then
    ((Config.closing (s.hotImage a.chunk.set) (s.walked a).1 (s.walked a).2.1).foldr insertUp []).map
      (fun p => (s.runStop a - 1, p % 32768, true)) else []

/-- The end of a chunk that has run (R350, R361). -/
def State.ranEnd (s : State) (a : Assigned) : ChunkEnd :=
  let st := s.streamState a.chunk.stream
  ⟨0, 0, (s.ranMatches a).take 64, (s.ranMatches a).length, s.clock.count, fieldLE st 14 2 / 16384, fieldLE st 14 2 % 4096,
    (byteAt st 11).testBit 3, some (ranState st (s.walked a).1 (s.runStop a) (fieldLE a.chunk.record 8 4 + 1)
      (fieldLE st 24 8 + ((s.ranMatches a).take 64).length) (s.walked a).2.1 s.clock.count)⟩

section
variable (hw : (s.scribe x).work = [a]) (hrun : a.runTide = s.clock.grid) (hend : a.ended = none)
include hw hrun hend

theorem State.finishChunk_one : s.finishChunk x a a.chunk.stream = (s.bump Fld.SCB_COUNT0_chunks_done).setScribe x
    { s.scribe x with work := [{ a with ended := some (s.ranEnd a) }] } := by
  have hp : (a.runTide == s.clock.grid && a.ended.isNone) = true := by simp [hrun, hend]
  have hscribe : (s.bump Fld.SCB_COUNT0_chunks_done).scribe x = s.scribe x := State.scribe_congr (by simp) x
  rw [← hscribe] at hw
  have hone := State.changeWork_one (s := s.bump Fld.SCB_COUNT0_chunks_done)
    (p := fun b => b.runTide == s.clock.grid && b.ended.isNone) (f := fun b => { b with ended := some (s.ranEnd a) }) hw hp
  rw [hscribe] at hone
  refine Eq.trans ?_ hone
  simp only [State.ranEnd, State.ranMatches, ranState]
  unfold State.finishChunk
  simp only [Bool.and_eq_true, decide_eq_true_eq]
  rfl

/-- The chunk that a scribe runs is checked in the order of R358 and R360, and runs where it passes. -/
theorem State.runChunk_one (hread : a.reading = false) : s.runChunk x =
    let n := a.chunk.stream
    let st := s.streamState n
    if s.frozen (streamMaster n) then s.endChunk x 1 0
    else if a.badState then s.endChunk x 4 2
    else if (byteAt st 11).testBit 1 then s.endChunk x 4 3
    else if s.wrongBerth a then
      ((s.endChunk x 6 0).flagStream n true).violation (streamMaster n) 6 0
    else if fieldLE a.chunk.record 8 4 != fieldLE st 16 4 then s.endChunk x 3 0
    else s.finishChunk x a n := by
  unfold State.runChunk
  rw [hw, find_one (by simp [hrun, hend, hread])]
  rfl

end

/-- After the run command the one chunk of the scribe has ended, in this tide and towards its stream's destination, as `p` says. -/
def RunEnds (s : State) (t x : Nat) (a : Assigned) (p : State → ChunkEnd → Prop) : Prop :=
  Answers (.chunkRun t x) s (fun s' => ∃ e, (s'.scribe x).work = [{ a with ended := some e }] ∧ e.tide = s.clock.count ∧
    e.dest = fieldLE (s.streamState a.chunk.stream) 14 2 / 16384 ∧ e.index = fieldLE (s.streamState a.chunk.stream) 14 2 % 4096 ∧ p s' e)

/-- The chunk has ended with a status, without a match, and DRAM is as it was. -/
def Bare (s : State) (status cause : Nat) (s' : State) (e : ChunkEnd) : Prop :=
  e.status = status ∧ e.cause = cause ∧ e.reported = [] ∧ e.found = 0 ∧ e.after = none ∧ s'.dram = s.dram

section
variable (hw : (s.scribe x).work = [a]) (hrun : a.runTide = s.clock.grid) (hend : a.ended = none)
include hw hrun hend

theorem runEnds_bare {status cause : Nat} (h : (s.at t).runChunk x = (s.at t).endChunk x status cause) :
    RunEnds s t x a (Bare s status cause) := by
  refine Answers.of_eq rfl h ⟨(s.at t).bareEnd a.chunk.stream status cause, ?_, rfl, rfl, rfl, rfl, rfl, rfl, rfl, rfl, ?_⟩
  · rw [State.scribe_settle]
    exact State.endChunk_work (s := s.at t) hw hrun hend status cause
  · rw [State.settle_dram]
    exact State.endChunk_dram (s := s.at t) hw hrun hend status cause

/-- A chunk of the wrong berth freezes its stream, and its master's violation counts (R360, R439). -/
theorem runEnds_violation (h : (s.at t).runChunk x =
    (((s.at t).endChunk x 6 0).flagStream a.chunk.stream true).violation (streamMaster a.chunk.stream) 6 0) :
    RunEnds s t x a (fun _ e => e.status = 6 ∧ e.reported = [] ∧ e.after = none) := by
  refine Answers.of_eq rfl h ⟨(s.at t).bareEnd a.chunk.stream 6 0, ?_, rfl, rfl, rfl, rfl, rfl, rfl⟩
  have hflag : (((s.at t).endChunk x 6 0).flagStream a.chunk.stream true).scribes = ((s.at t).endChunk x 6 0).scribes :=
    (dramOnly_writeStream ..).scribes
  rw [State.scribe_settle, State.scribe_congr ((State.violation_scribes ..).trans hflag)]
  exact State.endChunk_work (s := s.at t) hw hrun hend 6 0

theorem runEnds_ran (h : (s.at t).runChunk x = (s.at t).finishChunk x a a.chunk.stream) :
    RunEnds s t x a (fun s' e => s'.dram = s.dram ∧ e = (s.at t).ranEnd a) := by
  refine Answers.of_eq rfl (h.trans (State.finishChunk_one (s := s.at t) hw hrun hend))
    ⟨(s.at t).ranEnd a, ?_, rfl, rfl, rfl, ?_, rfl⟩
  · rw [State.scribe_settle, State.scribe_setScribe, if_pos rfl]
  · rw [State.settle_dram, State.setScribe_dram, State.bump_dram]
    rfl

end
theorem RunEnds.imp {p q : State → ChunkEnd → Prop} (h : RunEnds s t x a p) (hpq : ∀ s' e, p s' e → q s' e) : RunEnds s t x a q := by
  obtain ⟨s', hs', e, hwork, htide, hdest, hindex, hp⟩ := h
  exact ⟨s', hs', e, hwork, htide, hdest, hindex, hpq s' e hp⟩

/-- The state that is to be written for a chunk that has run (R350, R361). -/
theorem State.ranEnd_new (s : State) (a : Assigned) : let st := s.streamState a.chunk.stream
    ∃ new, (s.ranEnd a).after = some new ∧ fieldLE new 0 4 = (s.walked a).1 % 2 ^ 32 ∧ fieldLE new 4 6 = s.runStop a % 2 ^ 48 ∧
      fieldLE new 12 2 = fieldLE st 12 2 ∧ fieldLE new 16 4 = (fieldLE a.chunk.record 8 4 + 1) % 2 ^ 32 ∧
      fieldLE new 24 8 = (fieldLE st 24 8 + (s.ranEnd a).reported.length) % 2 ^ 64 :=
  ⟨_, rfl, ranState_fields (s.length_streamState _) ..⟩

/-- Settles O44: each check of R358 and R360 that fails ends the chunk as it is, in their order; a chunk that passes runs. -/
theorem chunksRun : Obligations.ChunksRun := by
  unfold Obligations.ChunksRun
  intro s t x a hw hrun hend hread
  dsimp only
  have hone := State.runChunk_one (s := s.at t) hw hrun hend hread
  dsimp only at hone
  refine ⟨fun hfrozen => ?_, fun hfrozen => ⟨fun hbad => ?_, fun hbad hfailed => ?_,
    fun hbad hfailed => ⟨fun hwrong => ?_, fun hberth hmask => ?_⟩⟩⟩
  · exact runEnds_bare hw hrun hend (hone.trans (by simp [hfrozen]))
  · exact runEnds_bare hw hrun hend (hone.trans (by simp [hfrozen, hbad]))
  · exact runEnds_bare hw hrun hend (hone.trans (by simp [hfrozen, hbad, hfailed]))
  · have hwrong' : (s.at t).wrongBerth a = true := State.wrongBerth_iff.mpr hwrong
    exact runEnds_violation hw hrun hend (hone.trans (by simp [hfrozen, hbad, hfailed, hwrong']))
  · have hright : (s.at t).wrongBerth a = false := State.wrongBerth_eq_false hberth hmask
    refine ⟨fun hseq => ?_, fun hseq => ?_⟩
    · exact runEnds_bare hw hrun hend (hone.trans (by simp [hfrozen, hbad, hfailed, hright, hseq]))
    · refine (runEnds_ran hw hrun hend (hone.trans (by simp [hfrozen, hbad, hfailed, hright, hseq]))).imp ?_
      rintro s' e ⟨hdram, rfl⟩
      obtain ⟨new, hafter, hstate, hoff, hdest, hnext, hcount⟩ := (s.at t).ranEnd_new a
      rw [hseq] at hnext
      exact ⟨rfl, rfl, rfl, rfl, hdram, new, hafter, hstate, hoff, hdest, hnext, hcount⟩

end Sys2Proof.Machine
end

section
/-! Telemetry records on their way (R393): the one record that is held goes to its ring, its quay or the capture buffer, or stays. -/
namespace Sys2Proof.Machine
variable {s x y : State} {t : Nat} {r : TelRecord}

theorem State.sendTel_ring (hdest : r.dest = 1) (hroom : s.eventRoom r.index r.bytes = true) :
    s.sendTel r = some (s.ringQueue r.index .event r.bytes) := by
  simp [State.sendTel, hdest, hroom]

theorem State.sendTel_quay (hdest : r.dest = 2) (hroom : s.quayRoom r.index (r.bytes.length / 8) = true) :
    s.sendTel r = some (s.offerSecondary r.index .secondary r.bytes) := by
  simp [State.sendTel, hdest, hroom]

theorem State.offerSecondary_observe (s : State) (q : Nat) (kind : TxKind) (bytes : Bytes) :
    (s.offerSecondary q kind bytes).observe = s.observe := by
  simp [State.offerSecondary]

/-- What is offered to a quay does not turn on what is observed. -/
theorem State.offerSecondary_withObserve (s : State) (q : Nat) (kind : TxKind) (bytes : Bytes) (o : Observe) :
    { s with observe := o }.offerSecondary q kind bytes = { s.offerSecondary q kind bytes with observe := o } := by
  unfold State.offerSecondary State.setLink
  dsimp only
  split <;> rfl

theorem State.sendTel_noQuay (hdest : r.dest = 2) (hroom : s.quayRoom r.index (r.bytes.length / 8) = false) : s.sendTel r = none := by
  simp [State.sendTel, hdest, hroom]

theorem State.sendTel_capture (hdest : r.dest = 0) : s.sendTel r = some (s.capture r.bytes) := by
  simp [State.sendTel, hdest]

/-- The one record held is sent, and nothing is held. -/
theorem State.flushTel_sent (hone : s.observe.buffer = [r]) (hsent : s.sendTel r = some y) (hheld : y.observe.buffer = [r]) :
    s.flushTel = { y with observe := { y.observe with buffer := [] } } := by
  have herase : y.observe.buffer.erase r = [] := by rw [hheld, List.erase_cons_head]
  simp [State.flushTel, hone, State.sendTels, hsent, herase]

/-- The one record held finds no room, and stays. -/
theorem State.flushTel_stuck (hone : s.observe.buffer = [r]) (hstuck : s.sendTel r = none) : s.flushTel = s := by
  simp [State.flushTel, hone, State.sendTels, hstuck]

/-- A record posted to an empty buffer is held until the buffer delivers it. -/
theorem State.postTel_empty (hempty : s.observe.buffer = []) (r : TelRecord) :
    s.postTel r = { s with observe := { s.observe with buffer := [r] } }.flushTel := by
  simp [State.postTel, hempty]

/-- A stopped capture buffer drops the record and counts it (R394). -/
theorem State.capture_stopped (h : s.observe.captureStopped = true) (bytes : Bytes) :
    s.capture bytes = s.bump Fld.TEL_DROP_COUNT_sample := if_pos h

theorem telemetryDelivery_sent (hone : s.observe.buffer = [r]) (hsent : (s.at t).sendTel r = some y) (hheld : y.observe.buffer = [r]) :
    exec (.telemetryDelivery t) s = .next ({ y with observe := { y.observe with buffer := [] } } : State).settle :=
  congrArg (fun z : State => Host.Outcome.next z.settle) (State.flushTel_sent (s := s.at t) hone hsent hheld)

theorem telemetryDelivery_stuck (hone : s.observe.buffer = [r]) (hstuck : (s.at t).sendTel r = none) :
    exec (.telemetryDelivery t) s = .next (s.at t).settle :=
  congrArg (fun z : State => Host.Outcome.next z.settle) (State.flushTel_stuck (s := s.at t) hone hstuck)

end Sys2Proof.Machine
end

section
/-! The capture buffer (R394): the words of a record are written from the pointer on, and a write of 0 to stop starts it again. -/
namespace Sys2Proof.Machine
variable {s x y : State} {t n : Nat} {r : TelRecord}

theorem Memory.write_append (m : Memory) (a : Nat) (bs cs : Bytes) : m.write a (bs ++ cs) = (m.write a bs).write (a + bs.length) cs := by
  induction bs generalizing m a with
  | nil => rfl
  | cons b bs ih =>
    rw [List.length_cons, Nat.add_comm bs.length 1, ← Nat.add_assoc]
    exact ih (m.set a b) (a + 1)

theorem DramOnly.observe (h : DramOnly s x) : x.observe = s.observe := (congrArg State.observe h.eq :)

theorem State.spoil_quiet (hpcs : s.dramCtl.pcs = []) (a n : Nat) : s.spoil a n = s := if_pos (by simp [hpcs])

/-- A write makes no pseudo-channel known that was not. -/
theorem State.dramWrite_quiet (hpcs : s.dramCtl.pcs = []) (a : Nat) (bs : Bytes) : (s.dramWrite a bs).dramCtl.pcs = [] := by
  have hissued := IssuesOnly.each (fun x k => issuesOnly_queueStripe x (dramPort a) a bs.length k) (s.spoil a bs.length)
    (stripesOf a bs.length)
  rw [State.spoil_quiet hpcs] at hissued
  have hkept := congrArg (fun z : State => z.dramCtl.pcs) hissued.eq
  unfold State.dramWrite
  dsimp only
  rw [State.spoil_quiet hpcs]
  exact hkept.trans hpcs

/-- The capture pointer of `y` stands at a word. -/
def State.capturedTo (y : State) (word : Nat) : State := { y with observe := { y.observe with captureWord := word } }

/-- A word below the end of the buffer is written and the pointer goes on (R394). -/
theorem State.captureWords_succ (hrun : s.observe.captureStopped = false) (hend : s.observe.captureWord + 1 < 2 ^ 30) (n : Nat)
    (bs : Bytes) : s.captureWords (n + 1) bs = ((s.dramWrite (captureAddr + 8 * s.observe.captureWord) (bs.take 8)).capturedTo
      (s.observe.captureWord + 1)).captureWords n (bs.drop 8) := by
  have hobserve := (dramOnly_dramWrite s (captureAddr + 8 * s.observe.captureWord) (bs.take 8)).observe
  have hwrap : (s.observe.captureWord + 1 == 2 ^ 30) = false := by simpa using hend.ne
  conv_lhs => unfold State.captureWords
  simp only [hrun, hwrap, Bool.false_and, Bool.false_eq_true, if_false, Nat.mod_eq_of_lt hend, State.capturedTo, hobserve]

/-- The words that fit before the end of the buffer are written from the pointer on, and the pointer stands behind them (R394). -/
theorem State.captureWords_fit {bs : Bytes} (hrun : s.observe.captureStopped = false) (hlen : bs.length = 8 * n)
    (hfit : s.observe.captureWord + n < 2 ^ 30) : ∃ x, DramOnly s x ∧
      (s.dramCtl.pcs = [] → x.dram = s.dram.write (captureAddr + 8 * s.observe.captureWord) bs) ∧
      s.captureWords n bs = x.capturedTo (s.observe.captureWord + n) := by
  induction n generalizing s bs with
  | zero =>
    obtain rfl := List.eq_nil_of_length_eq_zero hlen
    exact ⟨s, .refl s, fun _ => rfl, rfl⟩
  | succ n ih =>
    let a := captureAddr + 8 * s.observe.captureWord
    let w := s.dramWrite a (bs.take 8)
    let y := w.capturedTo (s.observe.captureWord + 1)
    have hw : DramOnly s w := dramOnly_dramWrite ..
    have hobserve : w.observe = s.observe := hw.observe
    have hyrun : y.observe.captureStopped = false := (congrArg Observe.captureStopped hobserve).trans hrun
    have hyfit : y.observe.captureWord + n < 2 ^ 30 := by
      change s.observe.captureWord + 1 + n < 2 ^ 30
      omega
    obtain ⟨x, hx, hdram, hwords⟩ := ih (s := y) hyrun (bs := bs.drop 8) (by rw [List.length_drop]; omega) hyfit
    refine ⟨{ x with observe := s.observe }, hw.trans ?_, fun hpcs => ?_, ?_⟩
    · rw [← hobserve, hx.eq]
      rfl
    · have hword : w.dram = s.dram.write a (bs.take 8) := by
        rw [State.dramWrite_dram, State.spoil_quiet hpcs]
      have hnext : captureAddr + 8 * (s.observe.captureWord + 1) = a + (bs.take 8).length := by
        rw [List.length_take_of_le (by omega)]
        ring
      calc x.dram = w.dram.write (captureAddr + 8 * (s.observe.captureWord + 1)) (bs.drop 8) := hdram (State.dramWrite_quiet hpcs ..)
        _ = (s.dram.write a (bs.take 8)).write (a + (bs.take 8).length) (bs.drop 8) := by rw [hword, hnext]
        _ = s.dram.write a bs := by rw [← Memory.write_append, List.take_append_drop]
    · rw [State.captureWords_succ hrun (by omega), hwords]
      have hword : y.observe.captureWord + n = s.observe.captureWord + (n + 1) := by
        change s.observe.captureWord + 1 + n = _
        omega
      have hkept : x.observe = { s.observe with captureWord := s.observe.captureWord + 1 } := by
        rw [hx.observe, ← hobserve]
        exact congrArg (fun k => { w.observe with captureWord := k + 1 }) (congrArg Observe.captureWord hobserve.symm)
      rw [hword]
      unfold State.capturedTo
      rw [hkept]

/-- The one record held is written to the capture buffer (R394). -/
theorem telemetryDelivery_captures (hone : s.observe.buffer = [r]) (hdest : r.dest = 0) (hrun : s.observe.captureStopped = false)
    (hlen : r.bytes.length = 8 * n) (hfit : s.observe.captureWord + n < 2 ^ 30) :
    Answers (.telemetryDelivery t) s (fun s' =>
      s'.observe = { s.observe with buffer := [], captureWord := s.observe.captureWord + n } ∧
      (s.dramCtl.pcs = [] → s'.dram = s.dram.write (captureAddr + 8 * s.observe.captureWord) r.bytes) ∧
      s' = ({ s.at t with observe := s'.observe, pins := s'.pins, ring := s'.ring }).dramAs s') := by
  obtain ⟨x, hx, hdram, hwords⟩ := State.captureWords_fit (s := s.at t) hrun hlen hfit
  have hobserve : x.observe = s.observe := hx.observe
  have hcapture : (s.at t).capture r.bytes = x.capturedTo (s.observe.captureWord + n) := by
    have hn : r.bytes.length / 8 = n := by omega
    have hstop : ¬ (s.at t).observe.captureStopped = true := by simp [hrun]
    rw [State.capture, if_neg hstop, hn]
    exact hwords
  have hsent : (s.at t).sendTel r = some (x.capturedTo (s.observe.captureWord + n)) :=
    (State.sendTel_capture hdest).trans (congrArg some hcapture)
  have hheld : (x.capturedTo (s.observe.captureWord + n)).observe.buffer = [r] := (congrArg Observe.buffer hobserve).trans hone
  refine Answers.of_eq (telemetryDelivery_sent hone hsent hheld) rfl ⟨?_, fun hpcs => ?_, ?_⟩
  · rw [State.settle_observe, State.capturedTo, hobserve]
  · rw [State.settle_dram]
    exact hdram hpcs
  · rw [hx.eq]
    rfl

/-- A write of 0 to stop starts the capture again at word 0 (R394). -/
theorem Stores.captureRestart {w : Word64} (h : Stores s t .TEL_CAPTURE_PTR 0 w x) (hstop : Fld.TEL_CAPTURE_PTR_stop.get w.toNat = 0) :
    (s.at t).writeCapturePtr 0 w.toNat fullMask =
      { x with observe := { x.observe with captureWord := 0, captureWraps := 0, captureStopped := false } } := by
  obtain ⟨hheld, hserved, hstored⟩ := h
  have hmask : bitOf fullMask 33 = true := by decide
  have hzero : bitOf w.toNat 33 = false := by
    have hbit : w.toNat / 2 ^ 33 % 2 = 0 := hstop
    rw [bitOf, Nat.testBit_eq_decide_div_mod_eq, hbit]
    rfl
  unfold State.writeCapturePtr
  simp [hheld, hserved, hstored, hmask, hzero]

end Sys2Proof.Machine
end

section
/-! Queue samples (R389, R390): what a boundary takes of each quay and each active ring, and the records that the samples become. -/
namespace Sys2Proof.Machine
variable {s x y : State} {t : Nat} {r : TelRecord}

/-- The requests of a class that wait on a quay. -/
def State.quayDepth (s : State) (q c : Nat) : Nat := (s.search.waiting.filter (fun r => r.src == Source.quay q && r.cls == c)).length

/-- What the sampler takes of a quay (R389). -/
def State.quaySample (s : State) (q : Nat) : Sample :=
  { isRing := false, queue := q, tide := s.clock.count, depths := (List.range 4).map (s.quayDepth q)
    waits := (List.range 4).map (fun c => s.observe.waits.findD (4 * q + c) 0), cls := 0 }

/-- What the sampler takes of a host ring (R389). -/
def State.ringSample (s : State) (n : Nat) (x : HostRing) : Sample :=
  { isRing := true, queue := n, tide := s.clock.count
    depths := [if s.ringKind n = 0 then x.posted else (x.devIndex + 2 ^ 32 - x.hostIndex) % 2 ^ 32]
    waits := [s.observe.waits.findD (1000 + n) 0], cls := s.fld Fld.HST_RING_CTL_class n }

/-- What the sampler takes at a boundary: every quay, then every active ring (R389). -/
def State.boundarySamples (s : State) : List Sample :=
  s.links.quays.map (fun p => s.quaySample p.1) ++
    (s.host.rings.filter (fun p => p.2.state == RingState.active)).map (fun p => s.ringSample p.1 p.2)

/-- At its boundary the sampler takes the depths and the waits, and the waits start again (R389). -/
theorem State.sampleBoundary_takes (hen : s.observe.sampleEn = true) (hdue : s.clock.count % 2 ^ s.observe.sampleK = 0)
    (hnew : s.observe.capturedAt ≠ s.clock.grid) (hstroke : s.clock.stroke = 0) : s.sampleBoundary = { s with observe :=
      { s.observe with samples := s.observe.samples ++ s.boundarySamples, waits := [], capturedAt := s.clock.grid } } := by
  have hnow : ¬ (!s.observe.sampleEn || s.clock.count % 2 ^ s.observe.sampleK != 0 || s.observe.capturedAt = s.clock.grid ||
      s.clock.stroke != 0) = true := by
    simp [hen, hdue, hnew, hstroke]
  refine (if_neg hnow).trans ?_
  rw [List.append_assoc]
  rfl

theorem State.quaySample_mem {q : Nat} {x : Link} (h : (q, x) ∈ s.links.quays) : s.quaySample q ∈ s.boundarySamples :=
  List.mem_append_left _ (List.mem_map_of_mem (f := fun p : Nat × Link => s.quaySample p.1) h)

theorem State.ringSample_mem {n : Nat} {x : HostRing} (h : (n, x) ∈ s.host.rings) (hactive : x.state = .active) :
    s.ringSample n x ∈ s.boundarySamples :=
  List.mem_append_right _ (List.mem_map_of_mem (f := fun p : Nat × HostRing => s.ringSample p.1 p.2)
    (List.mem_filter.mpr ⟨h, by simp [hactive]⟩))

/-- The samples still to post, and the tide in which samples were posted last. -/
def State.sampling (s : State) : List Sample × Nat := (s.observe.samples, s.observe.samplesTide)

theorem DramOnly.sampling (h : DramOnly s x) : x.sampling = s.sampling :=
  congrArg (fun o : Observe => (o.samples, o.samplesTide)) h.observe

theorem State.captureWords_sampling (s : State) (n : Nat) (bs : Bytes) : (s.captureWords n bs).sampling = s.sampling := by
  induction n generalizing s bs with
  | zero => rfl
  | succ n ih =>
    unfold State.captureWords
    dsimp only
    split
    · rfl
    · exact ih _ _

/-- A record that is sent leaves the samples as they were. -/
theorem State.sendTel_sampling (h : s.sendTel r = some y) : y.sampling = s.sampling := by
  unfold State.sendTel at h
  split at h
  · split at h
    · cases h
      rfl
    · cases h
  · split at h
    · cases h
      exact congrArg (fun o : Observe => (o.samples, o.samplesTide)) (State.offerSecondary_observe ..)
    · cases h
  · cases h
    unfold State.capture
    split
    · exact (dramOnly_bump ..).sampling
    · exact State.captureWords_sampling ..

theorem State.sendTels_sampling (s : State) (rs : List TelRecord) (stuck : List (Nat × Nat)) :
    (s.sendTels rs stuck).sampling = s.sampling := by
  induction rs generalizing s stuck with
  | nil => rfl
  | cons r rs ih =>
    unfold State.sendTels
    dsimp only
    split
    next y hsent =>
      have hkept : y.sampling = s.sampling := by
        split at hsent
        · cases hsent
        · exact State.sendTel_sampling hsent
      exact (ih ..).trans hkept
    next => exact ih ..

theorem State.postTel_sampling (s : State) (r : TelRecord) : (s.postTel r).sampling = s.sampling := by
  unfold State.postTel
  dsimp only
  split
  · exact (dramOnly_bump ..).sampling
  · split
    · exact (dramOnly_bump ..).sampling
    · exact State.sendTels_sampling ..

theorem length_sampleRecord (s : State) (x : Sample) : (s.sampleRecord x).length = 32 := by
  cases h : x.isRing <;> simp [State.sampleRecord, State.telHeader, h, List.range_succ]

/-- The samples that a tide does not post are held on (R390). -/
def State.samplesLeft (s : State) : State :=
  { s with observe := { s.observe with samples := s.observe.samples.drop 64, samplesTide := s.clock.grid } }

/-- The first 64 samples of a tide become records (R390). -/
def State.samplesPosted (s : State) : State :=
  s.samplesLeft.each (s.observe.samples.take 64) (fun x r => x.postGeneral false (x.sampleRecord r))

theorem State.samplesPosted_sampling (s : State) : s.samplesPosted.sampling = s.samplesLeft.sampling :=
  foldl_keeps _ State.sampling _ _ fun _ _ _ => State.postTel_sampling ..

theorem samplePost_posts (hnew : s.observe.samplesTide ≠ s.clock.grid) (hsome : s.observe.samples ≠ []) (t : Nat) :
    exec (.samplePost t) s = .next (s.at t).samplesPosted.settle := by
  have hnew' : (s.at t).observe.samplesTide ≠ (s.at t).clock.grid := hnew
  exact congrArg (fun z : State => Host.Outcome.next z.settle) (if_neg (by simpa [hsome] using hnew'))

/-- The one sample becomes a record that its quay has no room for (R390, R393). -/
theorem State.samplesPosted_held {v : Sample} (hone : s.observe.samples = [v]) (hempty : s.observe.buffer = [])
    (hdest : s.fld Fld.TEL_DEST_CTL_dest = 2) (hroom : s.quayRoom (s.fld Fld.TEL_DEST_CTL_dest_index) 4 = false) :
    s.samplesPosted.observe.buffer = [⟨2, s.fld Fld.TEL_DEST_CTL_dest_index, false, false, s.sampleRecord v⟩] := by
  let r : TelRecord := ⟨2, s.fld Fld.TEL_DEST_CTL_dest_index, false, false, s.sampleRecord v⟩
  let y : State := { s.samplesLeft with observe := { s.samplesLeft.observe with buffer := [r] } }
  have hroomY : y.quayRoom r.index (r.bytes.length / 8) = false := by
    rw [length_sampleRecord]
    exact (State.quayRoom_congr rfl ..).trans hroom
  have hposted : s.samplesPosted = s.samplesLeft.postTel r := by
    unfold State.samplesPosted
    rw [hone]
    change s.samplesLeft.postTel ⟨s.fld Fld.TEL_DEST_CTL_dest, s.fld Fld.TEL_DEST_CTL_dest_index, false, false, s.sampleRecord v⟩ = _
    rw [hdest]
  rw [hposted, State.postTel_empty (s := s.samplesLeft) hempty, State.flushTel_stuck (r := r) rfl (State.sendTel_noQuay (s := y) rfl hroomY)]

end Sys2Proof.Machine
end

section
/-! Telemetry records and queue samples (R389, R390, R393, R394). -/
namespace Sys2Proof.Machine

/-- Settles O33: the one record held is sent, captured, dropped or stuck by its destination (`State.flushTel_sent`,
`telemetryDelivery_captures`, `State.flushTel_stuck`); a boundary takes `State.boundarySamples`, and `State.samplesPosted` posts them. -/
theorem telemetryAndSamples : Obligations.TelemetryAndSamples := by
  unfold Obligations.TelemetryAndSamples
  refine ⟨fun s t => ⟨fun r hone => ?records, fun w x hstores hstop => ?restart⟩,
    fun s => ⟨fun hen hdue hnew hstroke => ?capture, fun t hnew hsome => ?post⟩⟩
  case records =>
    refine ⟨fun hdest hroom => ?ring, fun hdest hroom => ?quay, fun hdest hroom => ?stuck, fun n hdest hrun hlen hfit => ?captured,
      fun hdest hstopped => ?dropped⟩
    case ring => exact Leaves.of_eq (telemetryDelivery_sent hone (State.sendTel_ring (s := s.at t) hdest hroom) hone) rfl
    case quay =>
      refine Leaves.of_eq (telemetryDelivery_sent hone (State.sendTel_quay (s := s.at t) hdest hroom) ?held) ?_
      case held => exact (congrArg Observe.buffer (State.offerSecondary_observe ..)).trans hone
      rw [State.offerSecondary_observe]
      exact (State.offerSecondary_withObserve ..).symm
    case stuck => exact Leaves.of_eq (telemetryDelivery_stuck hone (State.sendTel_noQuay (s := s.at t) hdest hroom)) rfl
    case captured => exact telemetryDelivery_captures hone hdest hrun hlen hfit
    case dropped =>
      have hsent := (State.sendTel_capture (s := s.at t) hdest).trans
        (congrArg some (State.capture_stopped (s := s.at t) hstopped r.bytes))
      refine Leaves.of_eq (telemetryDelivery_sent hone hsent ?_) rfl
      rw [State.bump_observe]
      exact hone
  case restart => exact congrArg (fun z : State => Host.Outcome.next z.settle) (hstores.captureRestart hstop)
  case capture =>
    refine Answers.of_eq rfl (State.sampleBoundary_takes hen hdue hnew hstroke)
      ⟨⟨s.boundarySamples, rfl, fun q x hq => ?_, fun n x hn hactive => ?_⟩, rfl, rfl, rfl⟩
    · refine ⟨s.quaySample q, State.quaySample_mem hq, rfl, rfl, rfl, fun c hc => ⟨?_, ?_⟩⟩
      · simp [State.quaySample, State.quayDepth, List.getElem?_range hc]
      · simp [State.quaySample, List.getElem?_range hc]
    · refine ⟨s.ringSample n x, State.ringSample_mem hn hactive, rfl, rfl, rfl, rfl, fun hkind => ?_⟩
      simp [State.ringSample, hkind]
  case post =>
    have hsampling := (s.at t).samplesPosted_sampling
    refine Answers.of_eq (samplePost_posts hnew hsome t) rfl ⟨?_, ?_, fun x hone hempty hdest hroom => ?_⟩
    · rw [State.settle_observe]
      exact congrArg Prod.fst hsampling
    · rw [State.settle_observe]
      exact congrArg Prod.snd hsampling
    · rw [State.settle_observe]
      exact State.samplesPosted_held (s := s.at t) hone hempty hdest hroom

end Sys2Proof.Machine
end

section
/-! The step of the block and its reset state (R590, R606). -/
namespace Sys2Proof.Machine

/-- Settles O1: both halves are `step` at the two forms of the queue. -/
theorem stepTakesTheFront : Obligations.StepTakesTheFront := by
  unfold Obligations.StepTakesTheFront
  refine ⟨fun s c rest hpending => ?runs, fun s hpending => ?idles⟩
  case runs => simp only [step, hpending]
  case idles => simp only [step, hpending]

/-- Settles O3: no class is pending, the gates are closed and the manifest queue is empty at reset, and every memory is empty. -/
theorem resetMeetsInvariants : Obligations.ResetMeetsInvariants := by
  unfold Obligations.ResetMeetsInvariants
  refine ⟨?pins, rfl, rfl, rfl⟩
  have halert : State.reset.alertWanted = false := by decide
  have hgates : State.reset.gatesWanted = false := rfl
  have hshown : State.reset.showsManifest = false := rfl
  have hring : State.reset.ring = Ring.reset := rfl
  have hpins : State.reset.pins = Snapshot.reset.pins := rfl
  unfold PinsFollow
  rw [halert, hgates, hshown, hring, hpins]
  simp [Ring.reset, Snapshot.reset]

end Sys2Proof.Machine
end

section
/-! The TAP and the SMBus target (R445, R630, R642). -/
namespace Sys2Proof.Machine
variable {s : State}

/-- The TAP is not restricted where debug is open, or the device serves without the debug lock (R445). -/
theorem State.tapRestricted_eq_false :
    s.tapRestricted = false ↔ s.security.debugOpen = true ∨ (s.boot.device.debugLock = false ∧ s.serving = true) := by
  unfold State.tapRestricted
  cases s.security.debugOpen <;> simp

/-- What a loaded instruction becomes, by its kind (R445). -/
theorem State.tapLoads_eq (s : State) (ir : Nat) : s.tapLoads ir =
    (if Config.tapKind ir = 0 ∨ (Config.tapKind ir = 1 ∧ (s.boot.stage = 14 ∨ s.boot.stage = 15)) ∨
      (Config.tapKind ir = 2 ∧ (s.security.debugOpen = true ∨ (s.boot.device.debugLock = false ∧ s.serving = true)))
      then ir else 0xFF) := by
  simp only [← State.tapRestricted_eq_false]
  unfold State.tapLoads
  split
  next hpublic => rw [if_pos (.inl hpublic)]
  next hscan => simp [hscan]
  next hdebug => cases h : s.tapRestricted <;> simp [hdebug]
  next hpublic hscan hdebug =>
    refine (if_neg ?_).symm
    rintro (h | ⟨h, -⟩ | ⟨h, -⟩)
    exacts [hpublic h, hscan h, hdebug h]

/-- The SMBus target answers while VDD_AON is up. -/
theorem State.smbus_on (h : s.power.vddAon = true) (bs : Bytes) : s.smbus bs = { s with out := s.out ++ [.smbus bs] } := if_pos h

/-- Settles O46: `State.tapLoads_eq` for the TAP, and `State.smbus_on` for each read of the SMBus target. -/
theorem tapAndSmbus : Obligations.TapAndSmbus := by
  unfold Obligations.TapAndSmbus
  refine ⟨fun s hon => ⟨fun ir => ?load, ?reset⟩, fun s hon => ⟨?ident, ?state, ?die, ?both, ?tamper⟩⟩
  case load =>
    refine Answers.of_eq rfl (if_pos hon) ⟨?_, rfl⟩
    rw [State.settle_service]
    exact s.tapLoads_eq (ir % 256)
  case reset =>
    refine Answers.of_eq rfl (if_pos hon) ⟨?_, rfl, rfl⟩
    rw [State.bit_settle]
    exact State.bit_raise_on s (f := Fld.TST_TAP_STATUS_tap_reset) rfl (by decide)
  case ident => exact Leaves.of_eq rfl (State.smbus_on hon _)
  case state => exact Leaves.of_eq rfl (State.smbus_on hon _)
  case die => exact Leaves.of_eq rfl (State.smbus_on hon _)
  case both => exact Leaves.of_eq rfl (State.smbus_on hon _)
  case tamper => exact Leaves.of_eq rfl (State.smbus_on hon _)

end Sys2Proof.Machine
end

section
/-! The rail sequencer and the ROM stage that valid rails end (R443, R590 to R592). -/
namespace Sys2Proof.Machine
variable {s x : State}

/-- The main rails are valid and their failures forgotten (R591, R592). -/
def State.withRails (s : State) : State := { s with power := { s.power with railsValid := true, railFails := 0, state := 0 } }

theorem State.enterRecovery_power (s : State) : s.enterRecovery.power.railsValid = s.power.railsValid ∧
    s.enterRecovery.power.railFails = s.power.railFails ∧ s.enterRecovery.power.state = s.power.state := State.endExit_power s.emptied

theorem State.enterRecovery_security (s : State) : s.enterRecovery.security =
    { s.security with sessions := [], keyWrap := none, lcPending := false } := State.endExit_security s.emptied

theorem State.enterRecovery_dramCtl (s : State) : s.enterRecovery.dramCtl = s.dramCtl := State.endExit_dramCtl s.emptied

/-- Valid rails that end the ROM stage (R107, R592). -/
theorem mainRailsValid_boots (ok : Bool) (hon : s.power.vddAon = true) (hen : s.power.mainEn = true) (hrun : s.power.halted = false)
    (hrom : s.boot.stage = 0) (hfree : s.power.tamperHold = false) :
    exec (.mainRailsValid ok) s = .next (s.withRails.resumeBoot.romEnd ok).settle := by
  refine congrArg (fun z : State => Host.Outcome.next z.settle) ((if_pos ?_).trans (if_neg ?_))
  · simp [hon, hen, hrun, hrom]
  · simp [hfree]

theorem State.romEnd_failed (s : State) :
    s.romEnd false = { s with boot := { s.boot with stage := 15, errA := 0x0F, errB := 0x0F } } := rfl

theorem State.romEnd_recovers (h : s.fuses.lifeCycle = 0 ∨ s.fuses.lifeCycle = 4) : s.romEnd true = s.drawNonce.enterRecovery := by
  unfold State.romEnd
  rcases h with h | h <;> simp [h]

theorem State.romEnd_discovers (h0 : s.fuses.lifeCycle ≠ 0) (h4 : s.fuses.lifeCycle ≠ 4) : s.romEnd true = s.drawNonce.beginDiscovery := by
  unfold State.romEnd
  simp [h0, h4]

/-- Settles O9: the two resets are `execPowerOnReset` and `execVddAonRemoved` themselves; valid rails end the ROM stage by
`State.romEnd`. -/
theorem powerOnAndRails : Obligations.PowerOnAndRails := by
  unfold Obligations.PowerOnAndRails
  refine ⟨fun s => ⟨rfl, rfl, rfl, rfl, rfl⟩, fun s => ⟨fun ok hon hen hrun hrom => ⟨fun hhold => ?held, fun hfree => ?boots⟩,
    fun hen hinvalid hrun => ?timeout, fun hon hoff hrun hfailed => ?retry⟩⟩
  case held => exact Leaves.of_eq rfl ((if_pos (by simp [hon, hen, hrun, hrom])).trans (if_pos hhold))
  case boots =>
    have hexec := mainRailsValid_boots ok hon hen hrun hrom hfree
    obtain ⟨hrails, hfails, hstate⟩ := s.withRails.resumeBoot_power
    have hfuses : s.withRails.resumeBoot.fuses = s.fuses := State.resumeBoot_fuses _
    have hdram : s.withRails.resumeBoot.dramCtl = s.dramCtl := State.resumeBoot_dramCtl _
    have hboot : s.withRails.resumeBoot.boot = s.boot := State.resumeBoot_boot _
    generalize s.withRails.resumeBoot = x at hexec hrails hfails hstate hfuses hdram hboot
    cases ok with
    | false => exact Answers.of_eq hexec x.romEnd_failed ⟨hrails, hfails, hstate, hfuses, hdram, fun _ => ⟨rfl, rfl, rfl⟩, nofun⟩
    | true =>
      by_cases hcycle : s.fuses.lifeCycle = 0 ∨ s.fuses.lifeCycle = 4
      · obtain ⟨hkeptRails, hkeptFails, hkeptState⟩ := x.drawNonce.enterRecovery_power
        have hsecurity := x.drawNonce.enterRecovery_security
        exact Answers.of_eq hexec (State.romEnd_recovers (by rwa [hfuses])) ⟨hkeptRails.trans hrails, hkeptFails.trans hfails,
          hkeptState.trans hstate, (State.enterRecovery_fuses _).trans hfuses, (State.enterRecovery_dramCtl _).trans hdram, nofun,
          fun _ => ⟨congrArg Security.rootKeys hsecurity, congrArg Security.selfTestOk hsecurity, fun _ => ⟨rfl, rfl⟩,
            fun h0 h4 => (hcycle.elim h0 h4).elim⟩⟩
      · obtain ⟨h0, h4⟩ := not_or.mp hcycle
        have hguard : x.boot.fromOffGuard = s.boot.fromOffGuard := congrArg Boot.fromOffGuard hboot
        exact Answers.of_eq hexec (State.romEnd_discovers (by rwa [hfuses]) (by rwa [hfuses])) ⟨hrails, hfails, hstate, hfuses, hdram,
          nofun, fun _ => ⟨rfl, rfl, fun h => absurd h hcycle, fun _ _ => ⟨rfl, rfl, hguard⟩⟩⟩
  case timeout => exact Leaves.of_eq rfl (if_pos (by simp [hen, hinvalid, hrun]))
  case retry => exact Leaves.of_eq rfl (if_pos (by simp [hon, hoff, hrun, hfailed]))

end Sys2Proof.Machine
end

section
/-! The thaws of a boundary (R440, R441): each master whose thaw is due is free again, or frozen anew where a violation has come since. -/
namespace Sys2Proof.Machine
variable {s x : State} {f : Freeze} {m n : Nat}

/-- The thaw of a freeze is due at the boundary that opens the present grid tide (R440). -/
def State.thawDue (s : State) (f : Freeze) : Prop := f.thawAt = some s.clock.grid ∨ ∃ a, f.thawAccepted = some a ∧ a.1 ≤ s.clock.grid

/-- No thaw of a master is due. -/
def State.keepsFreeze (s : State) (x : Master) : Prop := ∀ f, x.freeze = some f → ¬ s.thawDue f

/-- Why the thaw of a freeze is due at this boundary, as the record of R442 codes it: by command, by register or by the timer. -/
def State.thawCause (s : State) (f : Freeze) : Option Nat :=
  let timer := if f.thawAt == some s.clock.grid then some 3 else none
  match f.thawAccepted with
  | some (tide, _, i) => if tide ≤ s.clock.grid then some i else timer
  | none => timer

theorem State.thawCause_isSome : (s.thawCause f).isSome = true ↔ s.thawDue f := by
  unfold State.thawCause State.thawDue
  cases f.thawAccepted with
  | none => by_cases hat : f.thawAt = some s.clock.grid <;> simp [hat]
  | some a => by_cases hat : f.thawAt = some s.clock.grid <;> by_cases hle : a.1 ≤ s.clock.grid <;> simp [hat, hle]

theorem State.thawMaster_free (h : (s.master m).freeze = none) : s.thawMaster m = s := by
  unfold State.thawMaster
  rw [h]

theorem State.thawMaster_frozen (h : (s.master m).freeze = some f) : s.thawMaster m = match s.thawCause f, f.again with
    | none, _ => s
    | some _, some (cause, cookie) => s.newFreeze m cause cookie s.now
    | some i, none => (s.setMaster m { s.master m with freeze := none }).securityRecord 0x02 0 m i 0 := by
  unfold State.thawMaster
  rw [h]
  change (match s.thawCause f with | none => s | some i => _) = _
  cases s.thawCause f with
  | none => rfl
  | some i => cases f.again <;> rfl

theorem State.thawMaster_held (h : (s.master m).freeze = some f) (hdue : ¬ s.thawDue f) : s.thawMaster m = s := by
  have hcause : s.thawCause f = none := by simpa [← State.thawCause_isSome] using hdue
  rw [State.thawMaster_frozen h, hcause]

/-- A thaw that is due freezes the master anew, or frees it. -/
theorem State.thawMaster_due (h : (s.master m).freeze = some f) (hdue : s.thawDue f) :
    (f.again = none → ∃ info, s.thawMaster m = (s.setMaster m { s.master m with freeze := none }).securityRecord 0x02 0 m info 0) ∧
    (∀ p, f.again = some p → s.thawMaster m = s.newFreeze m p.1 p.2 s.now) := by
  obtain ⟨i, hi⟩ := Option.isSome_iff_exists.mp (State.thawCause_isSome.mpr hdue)
  rw [State.thawMaster_frozen h, hi]
  exact ⟨fun hagain => ⟨i, by rw [hagain]⟩, fun p hagain => by rw [hagain]⟩

/-- The freeze that begins at a stroke (R437, R440). -/
def State.freezeFrom (s : State) (m cause stroke : Nat) : Freeze :=
  let at_ := stroke / 256 + thawTides (s.thawMs m) + 1
  { cause := cause, since := stroke / 256, thawAt := if s.thawMs m = 0 then none else some at_,
    thawCount := if s.thawMs m = 0 then 0xFFFFFFFF else (s.clock.count + (at_ - s.clock.grid)) % 2 ^ 64 % 2 ^ 32,
    fromStroke := stroke, thawAccepted := none, again := none }

theorem State.newFreeze_master (s : State) (m cause info stroke k : Nat) : (s.newFreeze m cause info stroke).master k =
    if k = m then { s.master m with freeze := some (s.freezeFrom m cause stroke) } else s.master k := by
  unfold State.newFreeze
  exact (State.master_congr (State.securityRecord_masters ..) k).trans (State.master_setMaster ..)

/-- The thaw of one master leaves every other as it was. -/
theorem State.thawMaster_other (h : n ≠ m) : (s.thawMaster m).master n = s.master n := by
  cases hf : (s.master m).freeze with
  | none => rw [State.thawMaster_free hf]
  | some f =>
    by_cases hdue : s.thawDue f
    · obtain ⟨hfrees, hfreezes⟩ := State.thawMaster_due hf hdue
      cases hagain : f.again with
      | none =>
        obtain ⟨info, hx⟩ := hfrees hagain
        rw [hx, State.master_congr (State.securityRecord_masters ..), State.master_setMaster, if_neg h]
      | some p => rw [hfreezes p hagain, State.newFreeze_master, if_neg h]
    · rw [State.thawMaster_held hf hdue]

theorem State.thawMaster_clock (s : State) (m : Nat) : (s.thawMaster m).clock = s.clock := by
  unfold State.thawMaster
  repeat' split
  all_goals simp

theorem State.thawDue_congr (h : x.clock = s.clock) (f : Freeze) : x.thawDue f ↔ s.thawDue f := by
  unfold State.thawDue
  rw [h]

theorem State.thawMaster_freed (h : (s.master m).freeze = some f) (hdue : s.thawDue f) (hagain : f.again = none) :
    (s.thawMaster m).master m = { s.master m with freeze := none } := by
  obtain ⟨info, hx⟩ := (State.thawMaster_due h hdue).1 hagain
  rw [hx, State.master_congr (State.securityRecord_masters ..), State.master_setMaster, if_pos rfl]

/-- A master frozen anew at a boundary (R441): its freeze begins there, and its thaw lies beyond it. -/
theorem State.thawMaster_refreezes (h : (s.master m).freeze = some f) (hdue : s.thawDue f) {p : Nat × Nat} (hagain : f.again = some p)
    (hstroke : s.clock.stroke = 0) : ∃ f', ((s.thawMaster m).master m).freeze = some f' ∧ f'.cause = p.1 ∧ f'.since = s.clock.grid ∧
      f'.fromStroke = s.now ∧ f'.again = none ∧ ¬ s.thawDue f' := by
  have hgrid : s.now / 256 = s.clock.grid := by
    unfold State.now
    omega
  have hfreezes := (State.thawMaster_due h hdue).2 p hagain
  rw [hfreezes, State.newFreeze_master, if_pos rfl]
  refine ⟨_, rfl, rfl, hgrid, rfl, rfl, ?_⟩
  rintro (hat | ⟨a, ha, -⟩)
  · unfold State.freezeFrom at hat
    dsimp only at hat
    rw [hgrid] at hat
    split at hat
    · cases hat
    · have := Option.some.inj hat
      omega
  · cases ha

/-- After its thaw nothing more is due for a master. -/
theorem State.thawMaster_keepsFreeze (hstroke : s.clock.stroke = 0) : s.keepsFreeze ((s.thawMaster m).master m) := by
  intro g hg
  cases hf : (s.master m).freeze with
  | none =>
    rw [State.thawMaster_free hf, hf] at hg
    cases hg
  | some f =>
    by_cases hdue : s.thawDue f
    · cases hagain : f.again with
      | none =>
        rw [State.thawMaster_freed hf hdue hagain] at hg
        cases hg
      | some p =>
        obtain ⟨f', hf', -, -, -, -, hlater⟩ := State.thawMaster_refreezes hf hdue hagain hstroke
        rw [hf'] at hg
        cases hg
        exact hlater
    · rw [State.thawMaster_held hf hdue, hf] at hg
      cases hg
      exact hdue

/-- The thaws of a boundary leave a master as it is for which none is due. -/
theorem State.each_thawMaster_keeps (ms : List Nat) (h : s.keepsFreeze (s.master n)) :
    (s.each ms State.thawMaster).master n = s.master n := by
  induction ms generalizing s with
  | nil => rfl
  | cons m ms ih =>
    have hone : (s.thawMaster m).master n = s.master n := by
      by_cases hm : n = m
      · subst hm
        cases hf : (s.master n).freeze with
        | none => rw [State.thawMaster_free hf]
        | some f => rw [State.thawMaster_held hf (h f hf)]
      · exact State.thawMaster_other hm
    refine (ih (s := s.thawMaster m) fun f hf => ?_).trans hone
    rw [hone] at hf
    rw [State.thawDue_congr (State.thawMaster_clock s m)]
    exact h f hf

/-- Among the thaws of a boundary a master has its own, at the clock of that boundary. -/
theorem State.each_thawMaster_thaws {ms : List Nat} (hn : n ∈ ms) (hstroke : s.clock.stroke = 0) :
    ∃ x : State, x.clock = s.clock ∧ x.master n = s.master n ∧ (s.each ms State.thawMaster).master n = (x.thawMaster n).master n := by
  induction ms generalizing s with
  | nil => cases hn
  | cons m ms ih =>
    have hclock := State.thawMaster_clock s m
    by_cases hm : n = m
    · subst hm
      refine ⟨s, rfl, rfl, State.each_thawMaster_keeps ms fun f hf => ?_⟩
      rw [State.thawDue_congr hclock]
      exact State.thawMaster_keepsFreeze hstroke f hf
    · obtain ⟨x, hx, hmaster, heach⟩ := ih (s := s.thawMaster m) ((List.mem_cons.mp hn).resolve_left hm) (by rwa [hclock])
      exact ⟨x, hx.trans hclock, hmaster.trans (State.thawMaster_other hm), heach⟩

theorem Table.mem_keys_of_find {α : Type} {m : Table α} {k : Nat} {v : α} (h : m.find k = some v) : k ∈ m.keys := by
  induction m with
  | nil => cases h
  | cons p rest ih =>
    obtain ⟨j, u⟩ := p
    unfold Table.find at h
    split at h
    · subst_vars
      exact List.mem_cons_self
    · exact List.mem_cons_of_mem _ (ih h)

/-- A frozen master is listed. -/
theorem State.frozen_mem_keys (h : (s.master n).freeze = some f) : n ∈ s.masters.keys := by
  cases hfind : s.masters.find n with
  | some v => exact Table.mem_keys_of_find hfind
  | none => simp [State.master, Table.findD, hfind, Master.reset] at h

/-- The thaws of a boundary, master by master (R440, R441). -/
theorem State.thawAll_master (hstroke : s.clock.stroke = 0) (n : Nat) :
    ((s.master n).freeze = none → s.thawAll.master n = s.master n) ∧
    (∀ f, (s.master n).freeze = some f →
      (¬ s.thawDue f → s.thawAll.master n = s.master n) ∧
      (s.thawDue f → f.again = none → s.thawAll.master n = { s.master n with freeze := none }) ∧
      (∀ p, s.thawDue f → f.again = some p → ∃ f', (s.thawAll.master n).freeze = some f' ∧ f'.cause = p.1 ∧ f'.since = s.clock.grid ∧
        f'.fromStroke = s.now ∧ f'.again = none)) := by
  refine ⟨fun hfree => State.each_thawMaster_keeps _ fun f hf => ?_, fun f hf => ⟨fun hdue => ?_, ?_⟩⟩
  · rw [hfree] at hf
    cases hf
  · refine State.each_thawMaster_keeps _ fun g hg => ?_
    rw [hf] at hg
    cases hg
    exact hdue
  · obtain ⟨x, hclock, hmaster, hthaw⟩ := State.each_thawMaster_thaws (State.frozen_mem_keys hf) hstroke
    have hxf : (x.master n).freeze = some f := by rw [hmaster, hf]
    have hnow : x.now = s.now := by rw [State.now, State.now, hclock]
    have hdue := State.thawDue_congr hclock f
    unfold State.thawAll
    rw [hthaw, ← hmaster, ← hnow, ← hclock]
    refine ⟨fun h hagain => State.thawMaster_freed hxf (hdue.mpr h) hagain, fun p h hagain => ?_⟩
    obtain ⟨f', hf', hcause, hsince, hfrom, hnone, -⟩ := State.thawMaster_refreezes hxf (hdue.mpr h) hagain (by rwa [hclock])
    exact ⟨f', hf', hcause, hsince, hfrom, hnone⟩

end Sys2Proof.Machine
end

section
/-! What the bits of W1C registers hold after a raise that a record of the fault log follows (R600). -/
namespace Sys2Proof.Machine
variable {f : Fld}

/-- The registers of the fault log, which posting a record changes. -/
def faultLogRegs : List Reg := [.FLT_COUNT0, .FLT_COUNT1, .FLT_STATUS]

theorem classCount_reg (cls : Nat) : (classCount cls).reg = .FLT_COUNT0 := by
  unfold classCount
  split <;> rfl

/-- Posting a record changes no field of another register. -/
theorem State.fld_postFault_apart (s : State) (i cls block : Nat) (bytes : Bytes) (h : ∀ r ∈ faultLogRegs, f.reg.offset ≠ r.offset) :
    (s.postFault cls block bytes).fld f i = s.fld f i := by
  have hraised : ∀ (y : State) (v : Nat), (y.raiseBits Fld.FLT_STATUS_pending v).fld f i = y.fld f i := fun y v =>
    (State.fld_raiseBits y Fld.FLT_STATUS_pending f 0 i v).trans (State.fld_setFld_reg y _ f 0 i _ (h .FLT_STATUS (by decide)))
  have hoverflow : ∀ y : State, (y.raise Fld.FLT_STATUS_overflow).fld f i = y.fld f i := fun y =>
    (State.fld_raise y Fld.FLT_STATUS_overflow f 0 i).trans (State.fld_setFld_reg y _ f 0 i _ (h .FLT_STATUS (by decide)))
  have hclass : f.reg.offset ≠ (classCount cls).reg.offset := by
    rw [classCount_reg]
    exact h .FLT_COUNT0 (by decide)
  have hsent : ∀ y : State, (y.sendVector cls).fld f i = y.fld f i := fun y => State.fld_of_regs (State.sendVector_regs y cls) f i
  unfold State.postFault
  dsimp only
  rw [apply_ite (fun y : State => y.fld f i), hsent, ite_self, hraised, State.fld_bumpHold_reg _ _ _ _ _ _ hclass,
    apply_ite (fun y : State => y.fld f i), hoverflow, State.fld_bump_reg _ _ _ _ _ _ (h .FLT_COUNT1 (by decide))]
  exact ite_self _

theorem State.bit_postFault_apart (s : State) (i cls block : Nat) (bytes : Bytes) (h : ∀ r ∈ faultLogRegs, f.reg.offset ≠ r.offset) :
    (s.postFault cls block bytes).bit f i = s.bit f i := congrArg (· != 0) (s.fld_postFault_apart i cls block bytes h)

/-- A bit that is raised stands while a record is posted. -/
theorem State.bit_raise_postFault (s : State) (i cls block : Nat) (bytes : Bytes) (hw : f.width = 1) (hf : f.lo + f.width ≤ 64)
    (h : ∀ r ∈ faultLogRegs, f.reg.offset ≠ r.offset) : ((s.raise f i).postFault cls block bytes).bit f i = true :=
  (State.bit_postFault_apart _ i cls block bytes h).trans (State.bit_raise_same s f i hw hf (Reg.resetNat_lt _))

end Sys2Proof.Machine
end

section
/-! Forgiving and thawing by register, tamper, the entropy source and debug (R414, R416, R420, R422, R440 to R443, R446). -/
namespace Sys2Proof.Machine
variable {s : State}

/-- The seal store holds nothing (R422). -/
def State.sealEmpty (s : State) : Prop :=
  s.security.keys = [] ∧ s.security.rootKeys = false ∧ s.security.sessions = [] ∧ s.security.bootNonce = 0 ∧
    s.security.kek = zeros 32 ∧ s.security.transport = 0

theorem State.sealEmpty_settle : s.settle.sealEmpty ↔ s.sealEmpty := by
  unfold State.sealEmpty
  rw [State.settle_security]

theorem State.zeroise_sealEmpty (s : State) : s.zeroise.sealEmpty := ⟨rfl, rfl, rfl, rfl, rfl, rfl⟩

/-- A forgive of the selected berth waits for its boundary (R414, R416). -/
theorem State.writeShaperCtl_forgives {w : Word64} (hheld : s.holds .BTH_SHAPER_CTL = false) (hserved : s.served .BTH_SHAPER_CTL 0 = true)
    (hgo : Fld.BTH_SHAPER_CTL_forgive.get w.toNat = 1) (hauth : s.cmdAuth = false)
    (hidle : (s.berth (s.fld Fld.BTH_SEL_berth 0)).forgivePending = false) :
    s.writeShaperCtl 0 w.toNat fullMask = s.takeForgive (s.fld Fld.BTH_SEL_berth 0) := by
  unfold State.writeShaperCtl
  simp [and_fullMask, hheld, hserved, hgo, hauth, hidle]

/-- A thaw by register, while cmd_auth is 0 (R440). -/
theorem State.writeSecThaw_open {w : Word64} (hserved : s.served .SEC_THAW 0 = true) (hauth : s.cmdAuth = false) :
    s.writeSecThaw 0 w.toNat fullMask = s.thawRequest (w.toNat % 2 ^ 32) 2 := by
  have hmask : fullMask % 4294967296 = 4294967295 := by decide
  unfold State.writeSecThaw
  simp [hserved, hauth, hmask]

/-- While cmd_auth is 1 a thaw by register is refused (R440). -/
theorem State.writeSecThaw_refused {w : Word64} (hserved : s.served .SEC_THAW 0 = true) (hauth : s.cmdAuth = true) :
    s.writeSecThaw 0 w.toNat fullMask = (s.logAccess 0 Reg.SEC_THAW.offset 3).raise Fld.SEC_STATUS_thaw_refused := by
  unfold State.writeSecThaw
  simp [hserved, hauth]

theorem State.thawRequest_accepts {m info : Nat} {f : Freeze} (hf : (s.master m).freeze = some f) (hnot : f.thawAccepted = none) :
    s.thawRequest m info = s.setMaster m { s.master m with freeze := some { f with thawAccepted := some (s.dueTide, s.now, info) } } := by
  simp [State.thawRequest, hf, hnot]

/-- What a tamper event leaves (R422, R443). -/
theorem State.tamper_leaves (s : State) (causes : Nat) :
    (s.tamper causes).sealEmpty ∧ (s.tamper causes).power.tamperHold = true ∧
    (s.tamper causes).security.tamperCause = causes ∧
    (s.tamper causes).security.tamperEvents = min 65535 (s.security.tamperEvents + 1) ∧
    (s.tamper causes).fuses = s.fuses ∧ (s.tamper causes).tables = State.reset.tables ∧ (s.tamper causes).dram = [] ∧
    (s.tamper causes).search = State.reset.search ∧ (s.tamper causes).cmds = State.reset.cmds :=
  ⟨⟨rfl, rfl, rfl, rfl, rfl, rfl⟩, rfl, rfl, rfl, rfl, rfl, rfl, rfl, rfl⟩

/-- A tamper hold drives ALERT_N (R443). -/
theorem State.alertWanted_of_tamperHold (h : s.power.tamperHold = true) : s.alertWanted = true := by
  simp [State.alertWanted, h]

theorem State.settle_alert_of_wanted (h : s.alertWanted = true) : s.settle.pins.alert = true := by
  rw [State.settle_alert, h]
  rfl

/-- The state in which the ROM stage runs again at the end of a tamper hold. -/
def State.holdEnded (s : State) : State := ({ s with power := { s.power with tamperHold := false } } : State).resumeBoot.drawNonce.enterRecovery

theorem State.resumeBoot_tamperHold (s : State) : s.resumeBoot.power.tamperHold = s.power.tamperHold := by
  unfold State.resumeBoot
  split <;> rfl

theorem State.resumeBoot_keys (s : State) : s.resumeBoot.security.keys = s.security.keys := by
  unfold State.resumeBoot
  split <;> rfl

theorem State.endExit_tamperHold (s : State) : s.endExit.power.tamperHold = s.power.tamperHold := by
  unfold State.endExit
  split <;> simp

theorem State.holdEnded_leaves (s : State) : s.holdEnded.power.tamperHold = false ∧ s.holdEnded.boot.stage = 14 ∧
    s.holdEnded.security.rootKeys = true ∧ s.holdEnded.security.keys = s.security.keys := by
  unfold State.holdEnded
  generalize hx : ({ s with power := { s.power with tamperHold := false } } : State) = x
  have hheld : x.power.tamperHold = false := by rw [← hx]
  have hkeys : x.security.keys = s.security.keys := by rw [← hx]
  have hsecurity := State.enterRecovery_security x.resumeBoot.drawNonce
  exact ⟨(State.endExit_tamperHold _).trans ((State.resumeBoot_tamperHold x).trans hheld),
    congrArg Boot.stage (State.enterRecovery_boot _), congrArg Security.rootKeys hsecurity,
    (congrArg Security.keys hsecurity).trans ((State.resumeBoot_keys x).trans hkeys)⟩

/-- What debug that opens leaves (R446). -/
theorem State.openDebug_leaves (s : State) :
    s.openDebug.sealEmpty ∧ s.openDebug.security.debugOpen = true ∧ s.openDebug.fuses = s.fuses := by
  have hsecurity : s.openDebug.security = { s.zeroise.security with debugOpen := true } := State.securityRecord_security ..
  have hfuses : s.openDebug.fuses = s.fuses := State.securityRecord_fuses ..
  unfold State.sealEmpty
  rw [hsecurity]
  exact ⟨s.zeroise_sealEmpty, rfl, hfuses⟩

/-- A token that verifies opens debug in state Returned (R446). -/
theorem debugToken_opens (t : Nat) {key sig : Bytes} (hreturned : s.fuses.lifeCycle = 3) (hclosed : s.security.debugOpen = false)
    (htoken : s.debugTokenOk key sig = true) : exec (.debugToken t key sig) s = .next (s.at t).openDebug.settle := by
  have hsame : (s.at t).debugTokenOk key sig = true := by
    simpa only [State.debugTokenOk, State.at_fuses, State.at_security] using htoken
  refine congrArg (fun z : State => Host.Outcome.next z.settle) (if_pos ?_)
  rw [State.at_fuses, State.at_security, hreturned, hclosed, hsame]
  rfl

theorem tamperHoldEnd_recovers (hhold : s.power.tamperHold = true) (hrails : s.power.railsValid = true) : exec .tamperHoldEnd s =
    .next ((s.holdEnded.raise Fld.SEC_STATUS_tamper_seen).securityRecord 0x03 s.holdEnded.security.tamperCause 0 0 0).settle :=
  congrArg (fun z : State => Host.Outcome.next z.settle) (if_pos (by simp [hhold, hrails]))

/-- Settles O45: the registers by `State.thawRequest` and `State.takeForgive`, the boundary by `State.thawAll_master`, a trip by
`State.tamper_leaves`. -/
theorem freezesAndSealStore : Obligations.FreezesAndSealStore := by
  unfold Obligations.FreezesAndSealStore
  refine ⟨fun s t w => ⟨fun hheld hserved hgo hauth hidle => ?forgive, fun hserved hauth => ⟨fun f hf hnot => ?thaw, fun hfree => ?free⟩,
    fun hserved hauth => ?refused, fun hstroke => ?boundary⟩,
    fun s t => ⟨fun causes hon harmed => ?trip, fun hhold hrails => ?holdEnd, fun hkeys => ?entropy,
      fun key sig hreturned hclosed htoken => ?debug⟩⟩
  case forgive => exact Leaves.of_eq rfl (State.writeShaperCtl_forgives (s := s.at t) hheld hserved hgo hauth hidle)
  case thaw => exact Leaves.of_eq rfl ((State.writeSecThaw_open (s := s.at t) hserved hauth).trans (State.thawRequest_accepts hf hnot))
  case free => exact Leaves.of_eq rfl ((State.writeSecThaw_open (s := s.at t) hserved hauth).trans (State.thawRequest_free hfree))
  case refused =>
    refine Answers.of_eq rfl (State.writeSecThaw_refused (s := s.at t) hserved hauth) ⟨?_, by simp, by simp⟩
    rw [State.bit_settle]
    exact State.bit_raise_on _ rfl (by decide)
  case boundary =>
    refine Answers.of_eq rfl (if_pos hstroke) fun n => ?_
    rw [State.master_settle]
    exact State.thawAll_master hstroke n
  case trip =>
    obtain ⟨hseal, hhold, hcause, hevents, hfuses, htables, hdram, hsearch, hcmds⟩ := (s.at t).tamper_leaves (s.armed causes)
    refine Answers.of_eq (x := (s.at t).tamper (s.armed causes)) rfl (if_pos ?_) ⟨hseal, hhold,
      State.settle_alert_of_wanted (State.alertWanted_of_tamperHold hhold), hcause, hevents, ?_, hfuses, htables, hdram, hsearch, hcmds⟩
    · simp only [State.at_power, hon, Bool.true_and, bne_iff_ne]
      exact harmed
    · rw [State.bit_settle]
      exact State.bit_raise_on _ rfl (by decide)
  case holdEnd =>
    obtain ⟨hheld, hstage, hroot, hkeys⟩ := s.holdEnded_leaves
    refine Answers.of_eq (tamperHoldEnd_recovers hhold hrails) rfl ⟨?_, ?_, ?_, ?_, ?_⟩
    · simpa using hheld
    · simpa using hstage
    · rw [State.bit_settle]
      exact State.bit_raise_postFault _ _ _ _ _ rfl (by decide) (by decide)
    · simpa using hroot
    · simpa using hkeys
  case entropy =>
    refine Answers.of_eq rfl (if_pos hkeys) ⟨by simp, ?_⟩
    rw [State.bit_settle]
    exact State.bit_raise_postFault _ _ _ _ _ rfl (by decide) (by decide)
  case debug =>
    obtain ⟨hseal, hopened, hfuses⟩ := (s.at t).openDebug_leaves
    exact Answers.of_eq (debugToken_opens t hreturned hclosed htoken) rfl
      ⟨State.sealEmpty_settle.mpr hseal, by rwa [State.settle_security], by rwa [State.settle_fuses]⟩

end Sys2Proof.Machine
end

section
/-! What a link that goes down, or that redirects its records, changes (R480, R481): the links, the fault log, counts and status bits. -/
namespace Sys2Proof.Machine
variable {s x y : State}

/-- `s` with the links, the ring, the fault log and the registers as `x` has them, and what has left the device. -/
def State.linksAs (s x : State) : State :=
  { s with
      regs := x.regs, setBits := x.setBits, setAt := x.setAt, rc := x.rc, faults := x.faults, links := x.links, ring := x.ring
      freeCounter := x.freeCounter, out := x.out }

/-- `x` differs from `s` in what the links may change alone. -/
def LinksOnly (s x : State) : Prop := x = s.linksAs x

theorem LinksOnly.of_eq (h : x = s.linksAs x) : LinksOnly s x := h

theorem LinksOnly.eq (h : LinksOnly s x) : x = s.linksAs x := h

theorem LinksOnly.refl (s : State) : LinksOnly s s := rfl

theorem LinksOnly.trans (h : LinksOnly s x) (k : LinksOnly x y) : LinksOnly s y := by
  unfold LinksOnly at *
  rw [h] at k
  exact k

theorem LinksOnly.ite {c : Prop} [Decidable c] (h : LinksOnly s x) (k : LinksOnly s y) : LinksOnly s (if c then x else y) := by
  split <;> assumption

theorem LinksOnly.each {α : Type} {f : State → α → State} (hf : ∀ x a, LinksOnly x (f x a)) (s : State) (xs : List α) :
    LinksOnly s (s.each xs f) :=
  State.each_of_step LinksOnly.refl LinksOnly.trans hf s xs

theorem linksOnly_setLink (s : State) (p : Port) (l : Link) : LinksOnly s (s.setLink p l) := by
  cases p with
  | quay q => exact .ite rfl rfl
  | east => rfl
  | west => rfl

theorem linksOnly_bump (s : State) (f : Fld) (n i : Nat) : LinksOnly s (s.bump f n i) := rfl

theorem linksOnly_bumpHold (s : State) (f : Fld) (n i : Nat) : LinksOnly s (s.bumpHold f n i) := rfl

theorem linksOnly_raiseBits (s : State) (f : Fld) (v i : Nat) : LinksOnly s (s.raiseBits f v i) := rfl

theorem linksOnly_postFault (s : State) (cls block : Nat) (bytes : Bytes) : LinksOnly s (s.postFault cls block bytes) := by
  unfold State.postFault
  extract_lets free kept faults s1 s2 was s3
  have h1 : LinksOnly s s1 := .ite rfl ((linksOnly_bump ..).trans (linksOnly_raiseBits ..))
  have h3 : LinksOnly s s3 := (h1.trans (linksOnly_bumpHold ..)).trans (linksOnly_raiseBits ..)
  exact .ite h3 (h3.trans rfl)

theorem linksOnly_redirect (s : State) (origin : Nat) (isResult again : Bool) (rec : Bytes) :
    LinksOnly s (s.redirect origin isResult again rec).1 := by
  unfold State.redirect
  split
  · exact .refl s
  · extract_lets l s1 o s2
    have h1 : LinksOnly s s1 := linksOnly_setLink ..
    have h2 : LinksOnly s s2 := .ite h1 (h1.trans ((linksOnly_setLink ..).trans (linksOnly_bump ..)))
    exact h2.trans rfl

theorem linksOnly_loseRecords (s : State) (q results completions : Nat) : LinksOnly s (s.loseRecords q results completions) :=
  .ite (.refl s) ((linksOnly_bump ..).trans (linksOnly_postFault ..))

theorem linksOnly_redirectAll (s : State) (q : Nat) (rs : List TxRecord) : LinksOnly s (s.redirectAll q rs).1 := by
  induction rs generalizing s with
  | nil => exact .refl s
  | cons r rest ih =>
    unfold State.redirectAll
    split
    · exact (linksOnly_redirect ..).trans (ih _)
    · exact (linksOnly_redirect ..).trans (ih _)
    · exact (LinksOnly.ite (linksOnly_redirect ..) ((linksOnly_redirect ..).trans (linksOnly_loseRecords ..))).trans (ih _)
    · exact ih s

theorem linksOnly_bringUp (s : State) (p : Port) : LinksOnly s (s.bringUp p) := by
  unfold State.bringUp
  extract_lets l
  split
  · cases p with
    | quay q => exact (linksOnly_setLink ..).trans (linksOnly_postFault ..)
    | east => exact linksOnly_setLink ..
    | west => exact linksOnly_setLink ..
  · exact linksOnly_setLink ..

/-- A link that goes DOWN: its session ends, and it keeps its secondary records (R480, R481). -/
def Link.down (l : Link) (now : Nat) : Link :=
  { l.clearSession with state := .down, tx := keptSecondary l.tx, ctl := [], since := now }

/-- The records of a quay that has gone down go to its group or are lost, and the quay is reported (R481). -/
def State.relayed (s : State) (q : Nat) (tx : List TxRecord) (wasUp : Bool) (cause : Nat) : State :=
  let a := s.redirectAll q tx
  let b := a.1.loseRecords q a.2.1 a.2.2
  let c := if wasUp then b.raise Fld.QUY_STATUS_went_down q else b
  c.faultEvent 0x01 1 0x8 q cause (c.link (.quay q)).redirected

/-- A ring port that has left UP puts the member into its solo epoch (R504). -/
def State.soloAfter (s : State) (wasUp : Bool) : State :=
  if wasUp && s.ring.joined && !s.ring.solo then { s with ring := { s.ring with soloNext := some 1 } } else s

/-- The state in which a link that has gone down begins to train. -/
def State.afterDown (s : State) (p : Port) (cause : Nat) : State :=
  let x := s.setLink p ((s.link p).down s.now)
  match p with
  | .quay q => x.relayed q (s.link p).tx (s.link p).up cause
  | _ => x.soloAfter (s.link p).up

theorem State.linkDown_eq {p : Port} (hoff : (s.link p).state ≠ .off) (hfailed : (s.link p).state ≠ .failed) (cause : Nat) :
    s.linkDown p cause = (s.afterDown p cause).bringUp p := by
  refine (if_neg ?_).trans ?_
  · simp [hoff, hfailed]
  · cases p <;> rfl

theorem State.linkDown_none {p : Port} (h : (s.link p).state = .off ∨ (s.link p).state = .failed) (cause : Nat) :
    s.linkDown p cause = s := if_pos (by simpa using h)

theorem linksOnly_relayed (s : State) (q : Nat) (tx : List TxRecord) (wasUp : Bool) (cause : Nat) :
    LinksOnly s (s.relayed q tx wasUp cause) := by
  unfold State.relayed
  extract_lets a b c
  have hb : LinksOnly s b := (linksOnly_redirectAll s q tx).trans (linksOnly_loseRecords ..)
  have hc : LinksOnly s c := .ite (hb.trans (linksOnly_raiseBits ..)) hb
  exact hc.trans (linksOnly_postFault ..)

theorem linksOnly_afterDown (s : State) (p : Port) (cause : Nat) : LinksOnly s (s.afterDown p cause) := by
  cases p with
  | quay q => exact (linksOnly_setLink ..).trans (linksOnly_relayed ..)
  | east => exact (linksOnly_setLink s .east _).trans (.ite rfl rfl)
  | west => exact (linksOnly_setLink s .west _).trans (.ite rfl rfl)

theorem linksOnly_linkDown (s : State) (p : Port) (cause : Nat) : LinksOnly s (s.linkDown p cause) := by
  by_cases h : (s.link p).state = .off ∨ (s.link p).state = .failed
  · rw [State.linkDown_none h]
    exact .refl s
  · obtain ⟨hoff, hfailed⟩ := not_or.mp h
    rw [State.linkDown_eq hoff hfailed]
    exact (linksOnly_afterDown ..).trans (linksOnly_bringUp ..)

theorem LinksOnly.clock (h : LinksOnly s x) : x.clock = s.clock := (congrArg State.clock h.eq :)

theorem LinksOnly.now (h : LinksOnly s x) : x.now = s.now := by rw [State.now, State.now, h.clock]

end Sys2Proof.Machine
end

section
/-! Redirecting records leaves every link as it was but for the records that wait on it and their count (R481). -/
namespace Sys2Proof.Machine
variable {s x y : State} {l : Link} {p : Port} {q : Nat}

/-- `l` with other records that wait, and another count of those redirected. -/
def Link.carrying (l : Link) (tx : List TxRecord) (redirected : Nat) : Link := { l with tx := tx, redirected := redirected }

/-- The links of `x` differ from those of `s` in the records that wait and in their count alone. -/
structure Relays (s x : State) : Prop where
  link : ∀ p, ∃ tx n, x.link p = (s.link p).carrying tx n

theorem Relays.of_eq (h : ∀ p, x.link p = s.link p) : Relays s x := ⟨fun p => ⟨(s.link p).tx, (s.link p).redirected, h p⟩⟩

theorem Relays.refl (s : State) : Relays s s := .of_eq fun _ => rfl

theorem Relays.trans (h : Relays s x) (k : Relays x y) : Relays s y := by
  refine ⟨fun p => ?_⟩
  obtain ⟨tx, n, hx⟩ := h.link p
  obtain ⟨tx', n', hy⟩ := k.link p
  exact ⟨tx', n', by rw [hy, hx]; rfl⟩

theorem Relays.ite {c : Prop} [Decidable c] (h : Relays s x) (k : Relays s y) : Relays s (if c then x else y) := by
  split <;> assumption

/-- A link reads as it was set, or as before where its quay is not configured. -/
theorem State.link_setLink_or (s : State) (p : Port) (l : Link) : (s.setLink p l).link p = l ∨ s.setLink p l = s := by
  by_cases h : s.hasPort p = true
  · exact .inl (State.link_setLink s p l h)
  · cases p with
    | quay q => exact .inr (if_neg h)
    | east => exact .inl rfl
    | west => exact .inl rfl

/-- A port that is not OFF reads the link that was set. -/
theorem State.link_setLink_on (h : (s.link p).state ≠ .off) (l : Link) : (s.setLink p l).link p = l := by
  cases p with
  | quay q =>
    refine State.link_setLink s _ l ?_
    rw [State.hasPort, Table.has, Option.isSome_iff_ne_none]
    intro hnone
    refine h ?_
    simp [State.link, Table.findD, hnone, Link.reset]
  | east => rfl
  | west => rfl

theorem relays_setLink {tx : List TxRecord} {n : Nat} : Relays s (s.setLink p ((s.link p).carrying tx n)) := by
  refine ⟨fun k => ?_⟩
  by_cases hk : k = p
  · subst hk
    rcases State.link_setLink_or s k ((s.link k).carrying tx n) with h | h
    · exact ⟨tx, n, h⟩
    · exact ⟨(s.link k).tx, (s.link k).redirected, by rw [h]; rfl⟩
  · exact ⟨(s.link k).tx, (s.link k).redirected, State.link_setLink_ne s p k _ hk⟩

theorem relays_redirect (s : State) (origin : Nat) (isResult again : Bool) (rec : Bytes) :
    Relays s (s.redirect origin isResult again rec).1 := by
  unfold State.redirect
  split
  · exact .refl s
  · extract_lets l s1 o s2
    have h1 : Relays s s1 := relays_setLink (tx := l.tx ++ _) (n := l.redirected)
    have h2 : Relays s s2 := by
      refine h1.trans ?_
      unfold s2
      split
      · exact .refl s1
      · have hset : Relays s1 (s1.setLink (.quay origin) { s1.link (.quay origin) with redirected := (s1.link (.quay origin)).redirected + 1 }) :=
          relays_setLink (tx := (s1.link (.quay origin)).tx)
        exact hset.trans (.of_eq fun p => State.link_bump ..)
    exact h2.trans (.of_eq fun p => State.link_emit ..)

theorem relays_loseRecords (s : State) (q results completions : Nat) : Relays s (s.loseRecords q results completions) := by
  unfold State.loseRecords
  split
  · exact .refl s
  · exact .of_eq fun p => by rw [State.link_faultEvent, State.link_bump]

theorem relays_redirectAll (s : State) (q : Nat) (rs : List TxRecord) : Relays s (s.redirectAll q rs).1 := by
  induction rs generalizing s with
  | nil => exact .refl s
  | cons r rest ih =>
    unfold State.redirectAll
    split
    · exact (relays_redirect ..).trans (ih _)
    · exact (relays_redirect ..).trans (ih _)
    · exact (Relays.ite (relays_redirect ..) ((relays_redirect ..).trans (relays_loseRecords ..))).trans (ih _)
    · exact ih s

/-- The member that takes the records of a quay is another quay. -/
theorem State.failover_ne {t : Nat} (h : s.failover q = some t) : t ≠ q := by
  unfold State.failover at h
  split at h
  · cases h
  · obtain ⟨p, hp, ht⟩ := Option.map_eq_some_iff.mp h
    have hpass := (List.mem_filter.mp (List.mem_of_mem_head? hp)).2
    simp only [Bool.and_eq_true, bne_iff_ne] at hpass
    exact ht ▸ hpass.2

/-- A quay's own records go out on other quays. -/
theorem State.redirect_tx (s : State) (q : Nat) (isResult again : Bool) (rec : Bytes) :
    ((s.redirect q isResult again rec).1.link (.quay q)).tx = (s.link (.quay q)).tx := by
  unfold State.redirect
  split
  · rfl
  next t ht =>
    have hne : Port.quay q ≠ Port.quay t := fun h => State.failover_ne ht (Port.quay.inj h).symm
    extract_lets l s1 o s2
    have h1 : (s1.link (.quay q)).tx = (s.link (.quay q)).tx := congrArg Link.tx (State.link_setLink_ne s _ _ _ hne)
    have h2 : (s2.link (.quay q)).tx = (s1.link (.quay q)).tx := by
      unfold s2
      split
      · rfl
      · rw [State.link_bump]
        rcases State.link_setLink_or s1 (.quay q)
          { s1.link (.quay q) with redirected := (s1.link (.quay q)).redirected + 1 } with h | h <;> rw [h]
    rw [State.link_emit, h2, h1]

theorem State.redirectAll_tx (s : State) (q : Nat) {rs : List TxRecord} (h : ∀ r ∈ rs, ∀ a b i j, r.kind ≠ .redirect a b i j) :
    ((s.redirectAll q rs).1.link (.quay q)).tx = (s.link (.quay q)).tx := by
  induction rs generalizing s with
  | nil => rfl
  | cons r rest ih =>
    have hrest := fun x : State => ih x fun r hr => h r (List.mem_cons_of_mem _ hr)
    unfold State.redirectAll
    split
    · exact (hrest _).trans (State.redirect_tx ..)
    · exact (hrest _).trans (State.redirect_tx ..)
    next a b i j hkind => exact absurd hkind (h r List.mem_cons_self a b i j)
    · exact hrest s

end Sys2Proof.Machine
end

section
/-! The link that has gone down, and what is reported of it (R479, R480, R481). -/
namespace Sys2Proof.Machine
variable {s x : State} {p k : Port} {f : Fld}

theorem relays_relayed (s : State) (q : Nat) (tx : List TxRecord) (wasUp : Bool) (cause : Nat) : Relays s (s.relayed q tx wasUp cause) := by
  unfold State.relayed
  extract_lets a b c
  have hb : Relays s b := (relays_redirectAll s q tx).trans (relays_loseRecords ..)
  have hc : Relays s c := .ite (hb.trans (.of_eq fun p => State.link_raise ..)) hb
  exact hc.trans (.of_eq fun p => State.link_faultEvent ..)

theorem State.relayed_tx (s : State) (q : Nat) {tx : List TxRecord} (wasUp : Bool) (cause : Nat)
    (h : ∀ r ∈ tx, ∀ a b i j, r.kind ≠ .redirect a b i j) : ((s.relayed q tx wasUp cause).link (.quay q)).tx = (s.link (.quay q)).tx := by
  have hlose : ∀ (y : State) (n m : Nat), (y.loseRecords q n m).link (.quay q) = y.link (.quay q) := fun y n m => by
    unfold State.loseRecords
    split
    · rfl
    · rw [State.link_faultEvent, State.link_bump]
  unfold State.relayed
  dsimp only
  rw [State.link_faultEvent, apply_ite (fun y : State => y.link (.quay q)), State.link_raise, ite_self, hlose, State.redirectAll_tx s q h]

theorem State.link_soloAfter (s : State) (wasUp : Bool) (k : Port) : (s.soloAfter wasUp).link k = s.link k := by
  unfold State.soloAfter
  split <;> cases k <;> rfl

/-- The link that went down holds its secondary records; its count of redirected records goes on. -/
theorem State.afterDown_link (hoff : (s.link p).state ≠ .off) (cause : Nat) :
    ∃ tx n, (s.afterDown p cause).link p = ((s.link p).down s.now).carrying tx n ∧
      ((∀ r ∈ (s.link p).tx, ∀ a b i j, r.kind ≠ .redirect a b i j) → tx = keptSecondary (s.link p).tx) := by
  have hset := State.link_setLink_on hoff ((s.link p).down s.now)
  cases p with
  | quay q =>
    obtain ⟨tx, n, hlink⟩ := (relays_relayed (s.setLink (.quay q) _) q (s.link (.quay q)).tx (s.link (.quay q)).up cause).link (.quay q)
    refine ⟨tx, n, hlink.trans (by rw [hset]), fun h => ?_⟩
    have htx := State.relayed_tx (s.setLink (.quay q) ((s.link (.quay q)).down s.now)) q (s.link (.quay q)).up cause h
    rw [hlink, hset] at htx
    exact htx
  | east => exact ⟨_, _, (State.link_soloAfter ..).trans hset, fun _ => rfl⟩
  | west => exact ⟨_, _, (State.link_soloAfter ..).trans hset, fun _ => rfl⟩

/-- Another link is as it was but for the records that wait on it. -/
theorem State.afterDown_other (h : k ≠ p) (cause : Nat) : ∃ tx n, (s.afterDown p cause).link k = (s.link k).carrying tx n := by
  have hset := State.link_setLink_ne s p k ((s.link p).down s.now) h
  cases p with
  | quay q =>
    obtain ⟨tx, n, hlink⟩ := (relays_relayed (s.setLink (.quay q) ((s.link (.quay q)).down s.now)) q (s.link (.quay q)).tx
      (s.link (.quay q)).up cause).link k
    exact ⟨tx, n, hlink.trans (by rw [hset])⟩
  | east => exact ⟨(s.link k).tx, (s.link k).redirected, (State.link_soloAfter ..).trans hset⟩
  | west => exact ⟨(s.link k).tx, (s.link k).redirected, (State.link_soloAfter ..).trans hset⟩

/-- A link that begins to train in the widest block of its lanes, or fails (R479). -/
def Link.broughtUp (l : Link) (now : Nat) : Link :=
  match l.choose with
  | none => { l with state := .failed, width := 0, since := now }
  | some (lo, w) => { l with
      state := .train, lo := lo, width := w, since := now,
      lanes := l.lanes.map (fun x => { x with locked := false, retraining := false }) }

theorem State.bringUp_eq (s : State) (p : Port) : s.bringUp p = s.setLink p ((s.link p).broughtUp s.now) ∨
    ∃ q, p = .quay q ∧ s.bringUp p =
      (s.setLink p ((s.link p).broughtUp s.now)).faultEvent 0x02 2 0x8 q (s.link p).retiredMask 0 := by
  unfold State.bringUp Link.broughtUp
  dsimp only
  cases (s.link p).choose with
  | none =>
    cases p with
    | quay q => exact .inr ⟨q, rfl, rfl⟩
    | east => exact .inl rfl
    | west => exact .inl rfl
  | some b => exact .inl rfl

theorem State.bringUp_link (hoff : (s.link p).state ≠ .off) : (s.bringUp p).link p = (s.link p).broughtUp s.now := by
  rcases s.bringUp_eq p with h | ⟨q, -, h⟩
  · rw [h, State.link_setLink_on hoff]
  · rw [h, State.link_faultEvent, State.link_setLink_on hoff]

theorem State.bringUp_other (h : k ≠ p) : (s.bringUp p).link k = s.link k := by
  rcases s.bringUp_eq p with hx | ⟨q, -, hx⟩
  · rw [hx, State.link_setLink_ne s p k _ h]
  · rw [hx, State.link_faultEvent, State.link_setLink_ne s p k _ h]

/-- Beginning to train keeps the bits outside the fault log. -/
theorem State.bit_bringUp (s : State) (p : Port) (i : Nat) (h : ∀ r ∈ faultLogRegs, f.reg.offset ≠ r.offset) :
    (s.bringUp p).bit f i = s.bit f i := by
  rcases s.bringUp_eq p with hx | ⟨q, -, hx⟩
  · rw [hx, State.bit_of_regs (State.setLink_regs ..)]
  · rw [hx]
    exact (State.bit_postFault_apart _ i _ _ _ h).trans (State.bit_of_regs (State.setLink_regs ..) f i)

/-- A class that is pending stays pending while a record is posted. -/
theorem State.pending_postFault {n : Nat} (s : State) (cls block : Nat) (bytes : Bytes)
    (h : (s.fld Fld.FLT_STATUS_pending).testBit n = true) :
    ((s.postFault cls block bytes).fld Fld.FLT_STATUS_pending).testBit n = true := by
  have hn : n < 5 := by
    by_contra hle
    rw [Nat.testBit_lt_two_pow] at h
    · cases h
    · exact lt_of_lt_of_le (State.fld_lt s Fld.FLT_STATUS_pending 0) (Nat.pow_le_pow_right (by decide) (by omega : 5 ≤ n))
  have hor : ∀ (y : State) (v : Nat), (y.fld Fld.FLT_STATUS_pending).testBit n = true →
      ((y.raiseBits Fld.FLT_STATUS_pending v).fld Fld.FLT_STATUS_pending).testBit n = true := fun y v hy => by
    rw [State.fld_raiseBits, State.fld_setFld_same _ _ _ _ (by decide) (Reg.resetNat_lt _), Nat.testBit_mod_two_pow, Nat.testBit_or, hy]
    exact Bool.and_eq_true_iff.mpr ⟨decide_eq_true hn, rfl⟩
  have hoverflow : ∀ y : State, (y.raise Fld.FLT_STATUS_overflow).fld Fld.FLT_STATUS_pending = y.fld Fld.FLT_STATUS_pending := fun y =>
    (State.fld_raise ..).trans (State.fld_setFld_disjoint y _ _ 0 _ rfl (by decide) (Reg.resetNat_lt _) (by decide))
  unfold State.postFault
  extract_lets free kept faults s1 s2 was s3
  have h1 : s1.fld Fld.FLT_STATUS_pending = s.fld Fld.FLT_STATUS_pending := by
    unfold s1
    split
    · rfl
    · rw [hoverflow, State.fld_bump_reg _ _ _ _ _ _ (by decide)]
  have h2 : s2.fld Fld.FLT_STATUS_pending = s1.fld Fld.FLT_STATUS_pending :=
    State.fld_bumpHold_reg _ _ _ _ _ _ (by rw [classCount_reg]; decide)
  have h3 : (s3.fld Fld.FLT_STATUS_pending).testBit n = true := hor s2 _ (by rwa [h2, h1])
  split
  · exact h3
  · rwa [State.fld_of_regs (State.sendVector_regs s3 cls)]

theorem State.pending_bringUp {n : Nat} (p : Port) (h : (s.fld Fld.FLT_STATUS_pending).testBit n = true) :
    ((s.bringUp p).fld Fld.FLT_STATUS_pending).testBit n = true := by
  have hset : ((s.setLink p ((s.link p).broughtUp s.now)).fld Fld.FLT_STATUS_pending).testBit n = true := by
    rwa [State.fld_of_regs (State.setLink_regs ..)]
  rcases s.bringUp_eq p with hx | ⟨q, -, hx⟩
  · rwa [hx]
  · rw [hx]
    exact State.pending_postFault _ _ _ _ hset

/-- A quay that goes down is reported, and noted where it was UP (R480). -/
theorem State.relayed_reports (s : State) (q : Nat) (tx : List TxRecord) (wasUp : Bool) (cause : Nat) :
    ((s.relayed q tx wasUp cause).fld Fld.FLT_STATUS_pending).testBit 1 = true ∧
    (wasUp = true → (s.relayed q tx wasUp cause).bit Fld.QUY_STATUS_went_down q = true) := by
  refine ⟨State.testBit_pending_faultEvent _ _ (by decide) .., fun hup => ?_⟩
  unfold State.relayed
  dsimp only
  rw [if_pos hup]
  exact State.bit_raise_postFault _ _ _ _ _ rfl (by decide) (by decide)

/-- What is left of a link that has gone down, with the block `choose` of lanes for its training, seen in the state `x`. -/
structure WentDown (s x : State) (p : Port) : Prop where
  state : (x.link p).state = if (s.link p).choose.isSome = true then .train else .failed
  rxExpect : (x.link p).rxExpect = 0
  txNext : (x.link p).txNext = 0
  replay : (x.link p).replay = []
  widthTo : (x.link p).widthTo = none
  tx : (∀ r ∈ (s.link p).tx, ∀ a b i j, r.kind ≠ .redirect a b i j) → (x.link p).tx = keptSecondary (s.link p).tx
  block : ∀ lo w, (s.link p).choose = some (lo, w) → (x.link p).lo = lo ∧ (x.link p).width = w
  reported : ∀ q, p = .quay q → (x.fld Fld.FLT_STATUS_pending).testBit 1 = true ∧
    ((s.link p).up = true → x.bit Fld.QUY_STATUS_went_down q = true)

theorem State.linkDown_wentDown (hoff : (s.link p).state ≠ .off) (hfailed : (s.link p).state ≠ .failed) (cause : Nat) :
    WentDown s (s.linkDown p cause) p := by
  rw [State.linkDown_eq hoff hfailed]
  obtain ⟨tx, n, hlink, htx⟩ := State.afterDown_link hoff cause
  have hon : ((s.afterDown p cause).link p).state ≠ .off := by
    rw [hlink]
    nofun
  have hup := State.bringUp_link hon
  have hchoose : (((s.link p).down s.now).carrying tx n).choose = (s.link p).choose := rfl
  rw [hlink] at hup
  unfold Link.broughtUp at hup
  rw [hchoose] at hup
  have hreported : ∀ q, p = .quay q → (((s.afterDown p cause).bringUp p).fld Fld.FLT_STATUS_pending).testBit 1 = true ∧
      ((s.link p).up = true → ((s.afterDown p cause).bringUp p).bit Fld.QUY_STATUS_went_down q = true) := by
    rintro q rfl
    obtain ⟨hpending, hdown⟩ := State.relayed_reports (s.setLink (.quay q) ((s.link (.quay q)).down s.now)) q (s.link (.quay q)).tx
      (s.link (.quay q)).up cause
    exact ⟨State.pending_bringUp _ hpending, fun h => (State.bit_bringUp _ _ _ (by decide)).trans (hdown h)⟩
  cases hc : (s.link p).choose with
  | none =>
    rw [hc] at hup
    exact ⟨by rw [hup, hc]; rfl, by rw [hup]; rfl, by rw [hup]; rfl, by rw [hup]; rfl, by rw [hup]; rfl,
      fun h => by rw [hup]; exact htx h, fun lo w h => (nomatch hc.symm.trans h), hreported⟩
  | some b =>
    rw [hc] at hup
    refine ⟨by rw [hup, hc]; rfl, by rw [hup]; rfl, by rw [hup]; rfl, by rw [hup]; rfl, by rw [hup]; rfl,
      fun h => by rw [hup]; exact htx h, fun lo w h => ?_, hreported⟩
    rw [hc] at h
    cases h
    rw [hup]
    exact ⟨rfl, rfl⟩

end Sys2Proof.Machine
end

section
/-! The lanes of a link: the half that serves without a lane, retraining and retiring (R477, R478, R479). -/
namespace Sys2Proof.Machine
variable {s x : State} {p : Port} {l : Link} {lane : Nat} {v : Lane}

theorem Link.laneBase_le (h : l.lane lane = some v) : l.laneBase ≤ lane := by
  unfold Link.lane at h
  split at h
  · cases h
  · omega

/-- A lane that is changed reads as changed. -/
theorem Link.lane_mapLane (h : l.lane lane = some v) (f : Lane → Lane) : (l.mapLane lane f).lane lane = some (f v) := by
  have hle := Link.laneBase_le h
  unfold Link.lane at h ⊢
  unfold Link.mapLane
  dsimp only
  rw [if_neg (by omega)] at h ⊢
  rw [getElem?_mapFrom, h, show l.laneBase + (lane - l.laneBase) = lane by omega]
  exact congrArg some (if_pos rfl)

theorem Link.lane_congr {k : Link} (hbase : k.laneBase = l.laneBase) (hlanes : k.lanes = l.lanes) (lane : Nat) :
    k.lane lane = l.lane lane := by
  unfold Link.lane
  rw [hbase, hlanes]

/-! Narrowing. -/

theorem Link.target_steady (h : l.widthTo = none) : l.target = (l.lo, l.width) := by
  unfold Link.target
  rw [h]

/-- The half without a lane that the link carries, while no width change waits (R477). -/
theorem Link.otherHalf_steady (h : l.widthTo = none) (hcarries : l.carries lane = true) :
    l.otherHalf lane = (if lane < l.laneBase + l.lo + l.width / 2 then l.lo + l.width / 2 else l.lo, l.width / 2) := by
  have hin : ¬ (lane < l.laneBase + l.lo ∨ l.laneBase + l.lo + l.width ≤ lane) := by
    simp only [Link.carries, Bool.and_eq_true, decide_eq_true_eq] at hcarries
    omega
  unfold Link.otherHalf
  rw [Link.target_steady h]
  exact if_neg (by simpa using hin)

/-- A lane that is lost while the other half serves is given up for that half and retrained (R477). -/
theorem State.narrow_halves {lo half : Nat} (hup : (s.link p).up = true) (hcarries : (s.link p).carries lane = true)
    (hwait : (s.link p).widthTo = none) (hhalf : (s.link p).otherHalf lane = (lo, half)) (hsome : half ≠ 0)
    (hleast : (s.link p).minWidth ≤ half) (husable : (s.link p).blockUsable lo half = true) :
    s.narrow p lane = s.setLink p ({ s.link p with
      widthTo := some (lo, half, ((s.link p).cwNum + 16) % 65536), widthAcked := false }.mapLane lane (fun x => x.retrain s.now)) := by
  have hwidth : half = (s.link p).width / 2 := by
    rw [Link.otherHalf_steady hwait hcarries] at hhalf
    exact (Prod.mk.inj hhalf).2.symm
  have hless : ((s.link p).otherHalf lane == (s.link p).target) = false := by
    rw [hhalf, Link.target_steady hwait, beq_eq_false_iff_ne]
    intro h
    have := (Prod.mk.inj h).2
    omega
  have hserves : (s.link p).narrows lane = true := by
    unfold Link.narrows
    rw [hhalf]
    simp [hsome, hleast, husable]
  have hto : (s.link p).narrowTo lane = { s.link p with
      widthTo := some (lo, half, ((s.link p).cwNum + 16) % 65536), widthAcked := false } := by
    unfold Link.narrowTo
    rw [hhalf]
  unfold State.narrow
  simp only [hup, hcarries, hless, hserves, hto, Bool.not_true, Bool.or_false, Bool.false_eq_true, if_false]

/-! Retiring. -/

theorem State.link_raiseQuay (s : State) (p k : Port) (f : Fld) : (s.raiseQuay p f).link k = s.link k := by
  cases p with
  | quay q => exact State.link_raise ..
  | east => rfl
  | west => rfl

/-- A retired lane (R478). -/
def Lane.retire (v : Lane) : Lane := { v with locked := false, retired := true, retraining := false }

theorem State.link_retireLane (hon : (s.link p).state ≠ .off) (lane : Nat) :
    (s.retireLane p lane).link p = (s.link p).mapLane lane Lane.retire := by
  unfold State.retireLane
  dsimp only
  rw [State.link_faultEvent, State.link_raiseQuay, State.link_setLink_on hon]
  rfl

/-- A link in TRAIN that takes a narrower block, or fails, keeps its lanes. -/
theorem State.trainNarrower_lanes (hon : (s.link p).state ≠ .off) :
    ((s.trainNarrower p).link p).laneBase = (s.link p).laneBase ∧ ((s.trainNarrower p).link p).lanes = (s.link p).lanes := by
  unfold State.trainNarrower
  dsimp only
  cases hc : (s.link p).choose with
  | none =>
    have hset := State.link_setLink_on hon { s.link p with state := .down }
    have hup := State.bringUp_link (s := s.setLink p { s.link p with state := .down }) (p := p) (by rw [hset]; nofun)
    have hnone : ({ s.link p with state := .down } : Link).choose = none := hc
    rw [hset, Link.broughtUp, hnone] at hup
    dsimp only at hup ⊢
    rw [hup]
    exact ⟨rfl, rfl⟩
  | some b =>
    dsimp only
    rw [apply_ite (fun y : State => y.link p), State.link_raiseQuay, ite_self, State.link_setLink_on hon]
    exact ⟨rfl, rfl⟩

end Sys2Proof.Machine
end

section
/-! The commands by which links go down and lanes are given up, retired and taken back (R474 to R481). -/
namespace Sys2Proof.Machine
variable {s x : State} {p : Port} {l : Link} {lane : Nat} {v : Lane}

theorem Link.up_iff : l.up = true ↔ l.state = .up := beq_iff_eq

/-- A state that differs from the stroke's in its links alone keeps all but the links when it settles. -/
theorem State.settle_withLinks {t : Nat} (h : x = { s.at t with links := x.links }) : x.settle = { s with
    clock := (s.at t).clock, start := (s.at t).start, links := x.settle.links, pins := x.settle.pins, ring := x.settle.ring } := by
  rw [h]
  rfl

/-! Links that go down. -/

theorem WentDown.settle (h : WentDown s x p) : WentDown s x.settle p := by
  obtain ⟨hstate, hrx, htx, hreplay, hwidth, hkept, hblock, hreported⟩ := h
  refine ⟨?_, ?_, ?_, ?_, ?_, ?_, ?_, ?_⟩
  all_goals simp only [State.link_settle, State.fld_settle, State.bit_settle]; assumption

theorem WentDown.of_link {y : State} (h : WentDown y x p) (hlink : y.link p = s.link p) : WentDown s x p := by
  obtain ⟨hstate, hrx, htx, hreplay, hwidth, hkept, hblock, hreported⟩ := h
  rw [hlink] at hstate hkept hblock hreported
  exact ⟨hstate, hrx, htx, hreplay, hwidth, hkept, hblock, hreported⟩

/-- A command that takes a link down from a state that can go down. -/
theorem answers_wentDown {c : Instr} {cause : Nat} {y : State} (hexec : exec c s = .next (y.linkDown p cause).settle)
    (hlink : y.link p = s.link p) (hoff : (s.link p).state ≠ .off) (hfailed : (s.link p).state ≠ .failed) :
    Answers c s (fun s' => WentDown s s' p) :=
  ⟨_, hexec, (WentDown.of_link (State.linkDown_wentDown (by rwa [hlink]) (by rwa [hlink]) cause) hlink).settle⟩

/-- A frame replayed 16 times takes the link down (R463). -/
theorem State.replay_gives_up {f : SentFrame} {rest : List SentFrame} (hreplay : (s.link p).replay = f :: rest) (htried : 16 ≤ f.replays) :
    s.replay p f.seq = s.linkDown p 2 := by
  have hself : frameBelow f.seq f.seq = false := by
    have hzero : (f.seq + 2 ^ 24 - f.seq % 2 ^ 24) % 2 ^ 24 = 0 := by omega
    unfold frameBelow
    dsimp only
    rw [hzero]
    rfl
  unfold State.replay
  simp [hreplay, hself, htried]

/-- A write of QUY_CTL that changes no enable and asks for a retrain alone (R474). -/
theorem Stores.quyRetrain {t q : Nat} {w : Word64} (h : Stores s t .QUY_CTL q w x) (hsel : s.fld Fld.QUY_SEL_lquay 0 = q)
    (hport : s.hasPort (.quay q) = true) (hen : x.bit Fld.QUY_CTL_enable q = s.bit Fld.QUY_CTL_enable q)
    (hreset : Fld.QUY_CTL_reset.get w.toNat = 0) (hretrain : Fld.QUY_CTL_retrain.get w.toNat = 1) :
    (s.at t).writeQuyCtl 0 w.toNat fullMask = x.linkDown (.quay q) 4 := by
  obtain ⟨hheld, hserved, hstored⟩ := h
  have hsel' : (s.at t).fld Fld.QUY_SEL_lquay 0 = q := hsel
  have hwas : (s.at t).bit Fld.QUY_CTL_enable q = x.bit Fld.QUY_CTL_enable q := hen.symm
  have hx : x.hasPort (.quay q) = true := by
    rw [Stores.only ⟨hheld, hserved, hstored⟩]
    exact hport
  unfold State.writeQuyCtl
  simp [hsel', hserved, hstored, hwas, hx, and_fullMask, hreset, hretrain]

end Sys2Proof.Machine
end

section
/-! Lanes that are lost, retired and taken back. -/
namespace Sys2Proof.Machine
variable {s x : State} {p : Port} {l : Link} {lane : Nat} {v : Lane}

theorem Answers.imp {c : Instr} {q r : State → Prop} (h : Answers c s q) (hqr : ∀ s', q s' → r s') : Answers c s r := by
  obtain ⟨s', hexec, hq⟩ := h
  exact ⟨s', hexec, hqr s' hq⟩

/-- A lane lost while the other half serves (R477). -/
theorem narrow_answers {c : Instr} {t lo half : Nat} (hexec : exec c s = .next ((s.at t).narrow p lane).settle)
    (hport : s.hasPort p = true) (hlane : (s.link p).lane lane = some v) (hup : (s.link p).up = true)
    (hcarries : (s.link p).carries lane = true) (hwait : (s.link p).widthTo = none)
    (hhalf : (s.link p).otherHalf lane = (lo, half)) (hsome : half ≠ 0) (hleast : (s.link p).minWidth ≤ half)
    (husable : (s.link p).blockUsable lo half = true) :
    Answers c s (fun s' => (s'.link p).widthTo = some (lo, half, ((s.link p).cwNum + 16) % 65536) ∧
      (s'.link p).lane lane = some (v.retrain (s.at t).now) ∧ (s'.link p).width = (s.link p).width ∧ (s'.link p).state = .up ∧
      s' = { s with clock := (s.at t).clock, start := (s.at t).start, links := s'.links, pins := s'.pins, ring := s'.ring }) := by
  have hnarrow := State.narrow_halves (s := s.at t) (p := p) (lane := lane) (lo := lo) (half := half)
    (by rwa [State.link_at]) (by rwa [State.link_at]) (by rwa [State.link_at]) (by rwa [State.link_at]) hsome
    (by rwa [State.link_at]) (by rwa [State.link_at])
  rw [State.link_at] at hnarrow
  refine Answers.of_eq hexec hnarrow ?_
  rw [State.link_settle, State.link_setLink _ _ _ (by rwa [State.hasPort_at])]
  exact ⟨rfl, Link.lane_mapLane ((Link.lane_congr rfl rfl lane).trans hlane) _, rfl, Link.up_iff.mp hup,
    State.settle_withLinks (State.setLink_only ..)⟩

/-- A lane that has not locked, as the timeout finds it (R478). -/
theorem laneLockTimeout_unlocked {t : Nat} (hlane : (s.link p).lane lane = some v) (hretired : v.retired = false)
    (hlocked : v.locked = false) : exec (.laneLockTimeout t p lane) s = .next (
      if (s.link p).state == LinkState.train then
        if v.retraining then
          if (s.at t).now < v.since + strokes5Ms then s.at t else ((s.at t).retireLane p lane).trainNarrower p
        else if (s.at t).now < (s.link p).since + strokes5Ms then s.at t
        else (s.at t).setLink p ((s.link p).mapLane lane (fun y => y.retrain (s.at t).now))
      else if (s.link p).up && v.retraining && v.since + strokes5Ms ≤ (s.at t).now then (s.at t).retireLane p lane
      else s.at t).settle := by
  unfold exec execLaneLockTimeout
  simp only [State.link_at, hlane, hretired, hlocked, Bool.or_false, Bool.false_eq_true, if_false]

/-- A lane retired in TRAIN stays retired in the block that its link takes (R478). -/
theorem State.trainNarrower_retired (hon : (s.link p).state ≠ .off) (hlane : (s.link p).lane lane = some v) :
    (((s.retireLane p lane).trainNarrower p).link p).lane lane = some v.retire := by
  have hlink := State.link_retireLane hon lane
  have hon' : ((s.retireLane p lane).link p).state ≠ .off := by
    rw [hlink]
    exact hon
  obtain ⟨hbase, hlanes⟩ := State.trainNarrower_lanes hon'
  rw [Link.lane_congr hbase hlanes, hlink]
  exact Link.lane_mapLane hlane _

end Sys2Proof.Machine
end

section
/-! Links go down; lanes are given up, retired and taken back (R475 to R481). -/
namespace Sys2Proof.Machine

/-- Settles O48: a link goes down as `State.linkDown_wentDown` gives, a lane is given up by `narrow_answers`, and
`laneLockTimeout_unlocked` is the table of R478 for a lane that has not locked. -/
theorem lanesAndLinksGoDown : Obligations.LanesAndLinksGoDown := by
  unfold Obligations.LanesAndLinksGoDown
  refine ⟨fun s t p => ?down, fun s t lane p v hport hlane => ⟨fun hup hwait hlo hhi hsome hleast husable c hc => ?lost,
    fun hretired hlocked => ⟨fun htrain hfirst hlate => ?retrain, fun htrain hagain hlate => ?retire, fun hup hagain hlate => ?retireUp⟩,
    fun lo w cw hup hwait => ?ack, fun hup hretraining hintime => ⟨fun hmore => ?still, fun lo w hdone hchoose hother => ?widest⟩⟩⟩
  case down =>
    intro l now down
    have hall : ∀ {c : Instr}, Answers c s (fun s' => WentDown s s' p) → Answers c s down := fun h =>
      h.imp fun s' ⟨hstate, hrx, htx, hreplay, hwidth, hkept, hblock, hreported⟩ =>
        ⟨hstate, hrx, htx, hreplay, hwidth, hkept, hblock, hreported⟩
    have hup : (s.link p).up = true → (s.link p).state ≠ .off ∧ (s.link p).state ≠ .failed := fun h => by
      rw [Link.up_iff.mp h]
      exact ⟨nofun, nofun⟩
    have hlink := State.link_at s t p
    refine ⟨fun halign hlate => ?_, fun hinit hlate => ?_, fun hlive hlate => ?_, fun f rest hlive hreplay hlate htried => ?_,
      fun q w x hq hsel hport hstores hen hreset hretrain hoff hfailed => ?_⟩
    · refine hall (answers_wentDown (congrArg (fun z : State => Host.Outcome.next z.settle) (if_pos ?_)) hlink ?_ ?_)
      · simp only [hlink, Bool.and_eq_true, beq_iff_eq, decide_eq_true_eq]; exact ⟨halign, hlate⟩
      · rw [halign]; nofun
      · rw [halign]; nofun
    · refine hall (answers_wentDown (congrArg (fun z : State => Host.Outcome.next z.settle) (if_pos ?_)) hlink ?_ ?_)
      · simp only [hlink, Bool.and_eq_true, beq_iff_eq, decide_eq_true_eq]; exact ⟨hinit, hlate⟩
      · rw [hinit]; nofun
      · rw [hinit]; nofun
    · refine hall (answers_wentDown (congrArg (fun z : State => Host.Outcome.next z.settle) (if_pos ?_)) hlink (hup hlive).1 (hup hlive).2)
      simp only [hlink, Bool.and_eq_true, decide_eq_true_eq]; exact ⟨hlive, hlate⟩
    · refine hall (answers_wentDown (cause := 2) (congrArg (fun z : State => Host.Outcome.next z.settle) ?_) hlink
        (hup hlive).1 (hup hlive).2)
      simp only [hlink, show (s.link p).replay = f :: rest from hreplay]
      refine (if_pos ?_).trans (State.replay_gives_up (by rw [hlink]; exact hreplay) htried)
      rw [Bool.and_eq_true, decide_eq_true_eq]
      exact ⟨hlive, hlate⟩
    · subst hq
      refine hall (answers_wentDown (congrArg (fun z : State => Host.Outcome.next z.settle)
        (hstores.quyRetrain hsel hport hen hreset hretrain)) ?_ hoff hfailed)
      rw [hstores.only]
      exact hlink
  case lost =>
    have hle := Link.laneBase_le hlane
    have hcarries : (s.link p).carries lane = true := by
      simp only [Link.carries, Bool.and_eq_true, decide_eq_true_eq]
      omega
    have hhalf := Link.otherHalf_steady hwait hcarries
    simp only [show lane < (s.link p).laneBase + (s.link p).lo + (s.link p).width / 2 ↔
      lane - (s.link p).laneBase < (s.link p).lo + (s.link p).width / 2 by omega] at hhalf
    have hanswer : ∀ {c : Instr}, exec c s = .next ((s.at t).narrow p lane).settle → Answers c s _ := fun hexec =>
      narrow_answers hexec hport hlane hup hcarries hwait hhalf hsome hleast husable
    simp only [List.mem_cons, List.not_mem_nil, or_false] at hc
    obtain rfl | rfl | rfl := hc
    · exact hanswer rfl
    · exact hanswer rfl
    · refine hanswer (congrArg (fun n => Host.Outcome.next ((s.at t).narrow p n).settle) ?_)
      rw [State.link_at]
      omega
  case retrain =>
    refine Answers.of_eq (laneLockTimeout_unlocked hlane hretired hlocked)
      ((if_pos (by rw [htrain]; rfl)).trans ((if_neg (by simp [hfirst])).trans (if_neg (not_lt.mpr hlate)))) ?_
    rw [State.link_settle, State.link_setLink _ _ _ (by rwa [State.hasPort_at])]
    refine ⟨(Link.lane_mapLane hlane _).trans ?_, htrain⟩
    rw [Lane.retrain, hlocked]
  case retire =>
    have hon : ((s.at t).link p).state ≠ .off := by
      rw [State.link_at, htrain]
      nofun
    refine Answers.of_eq (laneLockTimeout_unlocked hlane hretired hlocked)
      ((if_pos (by rw [htrain]; rfl)).trans ((if_pos hagain).trans (if_neg (not_lt.mpr hlate)))) ?_
    rw [State.link_settle, State.trainNarrower_retired hon (by rwa [State.link_at])]
    exact ⟨_, rfl, rfl⟩
  case retireUp =>
    have hstate := Link.up_iff.mp hup
    have hon : ((s.at t).link p).state ≠ .off := by
      rw [State.link_at, hstate]
      nofun
    refine Answers.of_eq (laneLockTimeout_unlocked hlane hretired hlocked)
      ((if_neg (by rw [hstate]; nofun)).trans (if_pos (by simp [hup, hagain, strokes5Ms, hlate]))) ?_
    rw [State.link_settle, State.link_retireLane hon, State.link_at]
    exact ⟨Link.lane_mapLane hlane _, hstate⟩
  case ack =>
    have hlink := State.link_at s t p
    refine Leaves.of_eq rfl ((if_pos ?_).trans ?_)
    · simp [hlink, hup, hwait]
    · rw [hlink]
  case still =>
    have hlate : ¬ v.since + strokes5Ms < (s.at t).now := not_lt.mpr hintime
    refine Leaves.of_eq rfl ?_
    simp only [State.link_at, hlane, hup, hretraining, Bool.not_true, Bool.false_or]
    rw [if_neg (by simpa using hlate)]
    exact if_pos hmore
  case widest =>
    have hlate : ¬ v.since + strokes5Ms < (s.at t).now := not_lt.mpr hintime
    refine Leaves.of_eq rfl ?_
    simp only [State.link_at, hlane, hup, hretraining, Bool.not_true, Bool.false_or]
    rw [if_neg (by simpa using hlate), if_neg (by rw [hdone]; nofun), hchoose]
    refine congrArg ((s.at t).setWidth p) (if_neg ?_)
    simp only [Bool.and_eq_true, decide_eq_true_eq]
    tauto

end Sys2Proof.Machine
end

section
/-! One frame received in UP (R453 to R461). -/
namespace Sys2Proof.Machine
variable {s x : State} {p : Port} {f : Bytes}

theorem Table.put_put {α : Type} (m : Table α) (k : Nat) (v w : α) : (m.put k v).put k w = m.put k w := by
  have hself : ¬ k < k := lt_irrefl k
  induction m with
  | nil => simp [Table.put]
  | cons b rest ih =>
    obtain ⟨j, u⟩ := b
    by_cases hlt : k < j
    · simp [Table.put, hlt]
    · by_cases heq : k = j
      · simp [Table.put, heq]
      · simp [Table.put, hlt, heq, ih]

theorem Table.has_put {α : Type} (m : Table α) (k : Nat) (v : α) : (m.put k v).has k = true := by
  rw [Table.has, Table.find_put_same]
  rfl

/-- The last link that is set stands. -/
theorem State.setLink_setLink (s : State) (p : Port) (a b : Link) : (s.setLink p a).setLink p b = s.setLink p b := by
  cases p with
  | quay q =>
    by_cases h : s.links.quays.has q = true
    · simp only [State.setLink, h, if_true, Table.has_put, Table.put_put]
    · rw [show s.setLink (.quay q) a = s from if_neg h]
  | east => rfl
  | west => rfl

/-- The symbols that were corrected are counted on a quay (R447). -/
def State.countCorrected (s : State) (p : Port) (errors : Nat) : State :=
  match p with
  | .quay q => if errors = 0 then s else s.bump Fld.QUY_CORR_COUNT_corrected errors q
  | _ => s

theorem State.link_countCorrected (s : State) (p k : Port) (n : Nat) : (s.countCorrected p n).link k = s.link k := by
  unfold State.countCorrected
  split
  · split
    · rfl
    · exact State.link_bump ..
  · rfl

theorem State.hasPort_countCorrected (s : State) (p k : Port) (n : Nat) : (s.countCorrected p n).hasPort k = s.hasPort k := by
  unfold State.countCorrected
  split
  · split
    · rfl
    · exact State.hasPort_bump ..
  · rfl

/-- A frame of an UP link whose codeword decodes. -/
theorem frameReceive_decodes {t errors : Nat} (hup : (s.link p).up = true) (hlength : f.length = 320) (herrors : errors ≤ 15) :
    exec (.frameReceive t p errors f) s = .next (((s.at t).countCorrected p errors).frameIn p f).settle := by
  refine congrArg (fun z : State => Host.Outcome.next z.settle) ((if_neg ?_).trans ((if_neg (not_lt.mpr herrors)).trans (if_neg ?_)))
  · rw [State.link_at, hup]
    nofun
  · rw [hlength]
    nofun

/-- A codeword that does not decode, or a frame whose check fails, asks for a replay (R453, R459). -/
theorem frameReceive_fails {t errors : Nat} (hport : s.hasPort p = true) (hup : (s.link p).up = true) (hlength : f.length = 320)
    (hbad : 15 < errors ∨ ¬ crc32 (f.take 316) = fieldLE f 316 4) :
    Answers (.frameReceive t p errors f) s (fun s' => s'.link p = { s.link p with nak := true }) := by
  have hfail : ∀ y : State, y.link p = s.link p → y.hasPort p = true →
      (y.frameFail p).settle.link p = { s.link p with nak := true } := fun y hlink hy => by
    rw [State.link_settle, State.frameFail, State.link_setLink _ _ _ hy, hlink]
  by_cases herrors : 15 < errors
  · refine Answers.of_eq rfl ((if_neg ?_).trans (if_pos herrors)) (hfail _ ?_ ?_)
    · rw [State.link_at, hup]
      nofun
    · cases p with
      | quay q => rw [State.link_bump, State.link_at]
      | east => rfl
      | west => rfl
    · cases p with
      | quay q => rwa [State.hasPort_bump, State.hasPort_at]
      | east => exact hport
      | west => exact hport
  · refine Answers.of_eq (frameReceive_decodes hup hlength (not_lt.mp herrors))
      ((if_neg (by rw [hlength]; nofun)).trans (if_neg (hbad.resolve_left herrors))) (hfail _ ?_ ?_)
    · cases p with
      | quay q => rw [State.link_bump, State.link_countCorrected, State.link_at]
      | east => rfl
      | west => rfl
    · cases p with
      | quay q => rwa [State.hasPort_bump, State.hasPort_countCorrected, State.hasPort_at]
      | east => exact hport
      | west => exact hport

/-- A link that has heard a passing frame (R460, R461, R468). -/
def Link.heard (l : Link) (f : Bytes) (now : Nat) : Link :=
  { l.acked (fieldLE f 3 3) with lastFrame := now, peerLimit := if byteAt f 6 / 8 % 8 = 0 then fieldLE f 8 2 else l.peerLimit }

/-- What a link `l` of the state does with the DATA of a frame that has passed (R458, R459). -/
def State.takeData (s : State) (l : Link) (p : Port) (f : Bytes) : State :=
  if byteAt f 6 % 4 != 1 || !l.up then s
  else if fieldLE f 0 3 != l.rxExpect then
    if frameBelow (fieldLE f 0 3) l.rxExpect then s.raiseQuay p Fld.QUY_STATUS_replay else s.setLink p { l with nak := true }
  else
    let (k, recs) := l.delimit p f
    let taken := s.setLink p { k with rxExpect := (l.rxExpect + 1) % 2 ^ 24, nak := false }
    let noted := if l.nak then taken.raiseQuay p Fld.QUY_STATUS_replay else taken
    let spoiled := match p with
      | .quay q => if l.excess f then noted.spoilLast q l.afterRecord else noted
      | _ => noted
    spoiled.each recs (fun x r => x.portRecord p r.1 r.2)

/-- A passing frame without nak is heard, then its DATA is taken. -/
theorem State.framePass_heard (hport : s.hasPort p = true) (hnak : (byteAt f 6).testBit 2 = false) :
    s.framePass p f = (s.setLink p ((s.link p).heard f s.now)).takeData ((s.link p).heard f s.now) p f := by
  have htake : ∀ y : State, y = s.setLink p ((s.link p).heard f s.now) →
      y.takeData (y.link p) p f = (s.setLink p ((s.link p).heard f s.now)).takeData ((s.link p).heard f s.now) p f := fun y hy => by
    rw [hy, State.link_setLink s p _ hport]
  exact htake _ (if_neg (by rw [hnak]; nofun))

/-- The next DATA frame in sequence gives the record that it ends to its quay (R454, R458). -/
theorem State.takeData_record {q : Nat} {l k : Link} {rec : Bytes} (hup : l.up = true) (hdata : byteAt f 6 % 4 = 1)
    (hseq : fieldLE f 0 3 = l.rxExpect) (hexcess : l.excess f = false) (hdelimit : l.delimit (.quay q) f = (k, [(rec, false)])) :
    let y := s.setLink (.quay q) { k with rxExpect := (l.rxExpect + 1) % 2 ^ 24, nak := false }
    s.takeData l (.quay q) f = (if l.nak then y.raiseQuay (.quay q) Fld.QUY_STATUS_replay else y).quayRecord q rec false := by
  refine (if_neg (by simp [hdata, hup])).trans ((if_neg (by simpa using hseq)).trans ?_)
  rw [hdelimit]
  dsimp only
  rw [hexcess]
  rfl

end Sys2Proof.Machine
end

section
/-! Frames received (R453 to R461). -/
namespace Sys2Proof.Machine

/-- Settles O49, by `State.framePass_heard`, which says what a passing frame does, and `frameReceive_fails`. -/
theorem framesReceived : Obligations.FramesReceived := by
  unfold Obligations.FramesReceived
  intro s t p f hport hup hlength
  refine ⟨fun errors hbad => frameReceive_fails hport hup hlength hbad, fun errors herrors hok hnak => ?_⟩
  have hpass : ∀ {y : State}, ((s.at t).countCorrected p errors).framePass p f = y → Leaves (.frameReceive t p errors f) s y := fun h =>
    Leaves.of_eq (frameReceive_decodes hup hlength herrors) (((if_neg (by rw [hlength]; nofun)).trans (if_pos hok)).trans h)
  have hports : ((s.at t).countCorrected p errors).hasPort p = true := by rwa [State.hasPort_countCorrected, State.hasPort_at]
  have hframe := State.framePass_heard hports hnak
  have hnow : ((s.at t).countCorrected p errors).now = (s.at t).now := by
    cases p with
    | quay q => exact apply_ite State.now .. |>.trans (ite_self _)
    | east => rfl
    | west => rfl
  rw [State.link_countCorrected, State.link_at, hnow] at hframe
  have hlive : ((s.link p).heard f (s.at t).now).up = true := hup
  refine ⟨fun hidle => hpass (hframe.trans (if_pos (by simp [hidle]))), fun hdata hseq hbeyond => hpass (hframe.trans ?beyond),
    fun hdata hseq hbelow => hpass (hframe.trans ?before), fun q l3 rec hq hdata hseq hexcess hdelimit => hpass (hframe.trans ?taken)⟩
  case beyond =>
    exact ((if_neg (by simp [hdata, hlive])).trans ((if_pos (bne_iff_ne.mpr hseq)).trans (if_neg (Bool.eq_false_iff.mp hbeyond)))).trans
      (State.setLink_setLink ..)
  case before => exact (if_neg (by simp [hdata, hlive])).trans ((if_pos (bne_iff_ne.mpr hseq)).trans (if_pos hbelow))
  case taken =>
    subst hq
    rw [State.takeData_record hlive hdata hseq hexcess hdelimit, State.setLink_setLink]
    rfl

end Sys2Proof.Machine
end

section
/-! The codewords that a link sends, and what a receiver takes from one (R449 to R454, R461, R462). -/
namespace Sys2Proof.Machine
variable {s x : State} {p : Port} {l : Link}

/-- A receiver takes the number, the width code and the frames of a codeword from its data bits (R449, R451). -/
theorem codewordRead_codewordData (num width : Nat) (f0 f1 : Bytes) :
    codewordRead (codewordData num width f0 f1) = (num % 65536, width % 4, leNat (f0 ++ f1)) := by
  have hcontrol := codewordControl_lt num width
  have hframes : codewordData num width f0 f1 / 2 ^ 20 = leNat (f0 ++ f1) ^^^ scrambler num := by
    unfold codewordData
    omega
  have hnum : codewordData num width f0 f1 % 65536 = num % 65536 := by
    unfold codewordData codewordControl
    omega
  have hwidth : codewordData num width f0 f1 / 65536 % 4 = width % 4 := by
    unfold codewordData codewordControl
    omega
  unfold codewordRead
  dsimp only
  rw [hnum, hwidth, hframes, scrambler_mod, scrambler_twice]

theorem State.link_withOut (s : State) (es : List Emit) (p : Port) : { s with out := es }.link p = s.link p := by
  cases p <;> rfl

theorem State.bit_withOut (s : State) (es : List Emit) (f : Fld) (i : Nat) : { s with out := es }.bit f i = s.bit f i :=
  State.bit_of_regs rfl f i

theorem State.flushTel_none (h : s.observe.buffer = []) : s.flushTel = s := by
  rw [State.flushTel, h, State.sendTels]

/-! The frames of one codeword. -/

/-- A link with nothing to send turns its credit rotation on with an IDLE frame (R454). -/
def Link.turned (l : Link) : Link := { l with rotation := (l.rotation + 1) % 6 }

theorem Link.takeWidth_steady (h : l.widthTo = none) : l.takeWidth = l := by
  unfold Link.takeWidth
  rw [h]

theorem Link.control_none (hup : l.up = true) (hctl : l.ctl = []) (hwidth : l.widthTo = none) : l.control = none := by
  unfold Link.control
  rw [Link.up_iff.mp hup]
  dsimp only
  rw [hctl, hwidth, ite_self]

theorem Link.pack_idle (htx : l.tx = []) (fuel at_ : Nat) : l.pack fuel at_ = (l, [], 0) := by
  cases fuel with
  | zero => rfl
  | succ n => simp [Link.pack, htx, pickFirst]

theorem Link.nextFrame_idle (hcontrol : l.control = none) (htx : l.tx = []) (now : Nat) :
    l.nextFrame now = (l.turned, l.frame 0 l.txNext 0 []) := by
  unfold Link.nextFrame
  rw [hcontrol, Link.pack_idle htx]
  exact ite_self _

/-- A codeword of a link whose width stays (R449). -/
theorem frameTransmit_codeword {t : Nat} {k m : Link} {f0 f1 : Bytes} (hport : s.hasPort p = true) (hup : (s.link p).up = true)
    (hwidth : (s.link p).widthTo = none) (hreports : s.scribes.reports = []) (hbuffer : s.observe.buffer = [])
    (hintake : (s.at t).intakeStopped = false) (hfirst : (s.link p).nextFrame (s.at t).now = (k, f0))
    (hsecond : k.nextFrame (s.at t).now = (m, f1)) (hsame : m.width = (s.link p).width) :
    Leaves (.frameTransmit t p) s { (s.at t).setLink p { m with cwNum := ((s.link p).cwNum + 1) % 65536 } with
      out := s.out ++ [.codeword p (s.link p).cwNum (widthCode (s.link p).width) f0 f1] } := by
  refine Leaves.of_eq rfl ?_
  have hflush : (s.at t).flushReports.flushTel = s.at t := by
    rw [State.flushReports_none (by rwa [State.at_scribes]), State.flushTel_none (by rwa [State.at_observe])]
  have hsends : (s.link p).sends = true := by
    unfold Link.sends
    rw [Link.up_iff.mp hup]
    rfl
  rw [hflush]
  unfold State.transmit
  simp only [State.link_at, Link.takeWidth_steady hwidth, hintake, Bool.false_eq_true, if_false, State.hasPort_at, hport, hsends,
    Bool.not_true, Bool.or_self, hfirst, hsecond]
  have hset : (s.at t).setWidth p { m with cwNum := ((s.link p).cwNum + 1) % 65536 } =
      (s.at t).setLink p { m with cwNum := ((s.link p).cwNum + 1) % 65536 } := if_neg (by rw [State.link_at]; exact not_lt.mpr hsame.ge)
  rw [hset, State.emit, State.setLink_out, State.at_out]

theorem Link.pack_result_step {pool words fuel at_ : Nat} {r : TxRecord} (hkind : r.kind = .result pool words) (htx : l.tx = [r]) :
    l.pack (fuel + 1) at_ =
      let q := (if r.bytes.length ≤ 8 * (r.sent + 1) then { l with tx := [] }.returnCredit pool words
        else { l with tx := [{ r with sent := r.sent + 1 }] }).pack fuel (at_ + 1)
      (q.1, (r.bytes.drop (8 * r.sent)).take 8 :: q.2.1, q.2.2 + if r.sent = 0 then 2 ^ at_ else 0) := by
  have hsendable : l.sendable r = true := by
    unfold Link.sendable
    simp [hkind]
  have huncharged : (TxKind.result pool words).charged = false := rfl
  have hbegun : pickFirst (fun r : TxRecord => decide (0 < r.sent)) l.tx = if 0 < r.sent then some (r, []) else none := by
    rw [htx]
    simp [pickFirst]
  have hready : pickFirst l.sendable l.tx = some (r, []) := by
    rw [htx]
    simp [pickFirst, hsendable]
  rw [Link.pack, hbegun, hready]
  by_cases hsent : 0 < r.sent
  · simp only [hsent, if_true, huncharged, hkind, Bool.and_false, Bool.false_eq_true, if_false]
  · simp only [hsent, if_false, huncharged, hkind, Bool.and_false, Bool.false_eq_true]

theorem frameTransmit_leaves {t : Nat} {m : Link} {e : Emit} (hport : s.hasPort p = true)
    (h : Leaves (.frameTransmit t p) s { (s.at t).setLink p m with out := s.out ++ [e] }) :
    Answers (.frameTransmit t p) s (fun s' => s'.link p = m ∧ s'.out = s.out ++ [e]) := by
  refine Answers.of_eq h rfl ⟨?_, State.settle_out _⟩
  rw [State.link_settle]
  exact (State.link_withOut ..).trans (State.link_setLink _ _ _ (by rwa [State.hasPort_at]))

/-- A result that waits alone is packed word by word, and its credit returns (R454, R465). -/
theorem Link.pack_result {pool words : Nat} : ∀ (n : Nat) {l : Link} {r : TxRecord} {fuel at_ : Nat}, r.kind = .result pool words →
    r.bytes.length = 8 * (r.sent + n + 1) → n < fuel → l.tx = [r] →
    ∃ ws, l.pack fuel at_ = ({ l with tx := [] }.returnCredit pool words, ws, if r.sent = 0 then 2 ^ at_ else 0) ∧ ws ≠ [] ∧
      ws.flatten = r.bytes.drop (8 * r.sent) := by
  intro n
  induction n with
  | zero =>
    intro l r fuel at_ hkind hlength hfuel htx
    obtain ⟨fuel, rfl⟩ := Nat.exists_eq_succ_of_ne_zero hfuel.ne'
    rw [Link.pack_result_step hkind htx, if_pos hlength.le, Link.pack_idle rfl]
    refine ⟨[(r.bytes.drop (8 * r.sent)).take 8], by simp, by simp, ?_⟩
    rw [List.flatten_singleton, List.take_of_length_le]
    rw [List.length_drop]
    omega
  | succ n ih =>
    intro l r fuel at_ hkind hlength hfuel htx
    obtain ⟨fuel, rfl⟩ := Nat.exists_eq_succ_of_ne_zero (Nat.ne_zero_of_lt hfuel)
    obtain ⟨ws, hpack, -, hbytes⟩ := ih (l := { l with tx := [{ r with sent := r.sent + 1 }] }) (r := { r with sent := r.sent + 1 })
      (fuel := fuel) (at_ := at_ + 1) hkind (by dsimp only; omega) (by omega) rfl
    rw [Link.pack_result_step hkind htx, if_neg (by omega), hpack]
    refine ⟨(r.bytes.drop (8 * r.sent)).take 8 :: ws, by simp, by simp, ?_⟩
    rw [List.flatten_cons, hbytes, show 8 * (r.sent + 1) = 8 * r.sent + 8 by omega, ← List.drop_drop, List.take_append_drop]

/-- A link that has put the last word of its only result into the DATA frame `f` (R462, R465). -/
def Link.resultSent (l : Link) (pool words now : Nat) (f : Bytes) : Link :=
  { ({ l with tx := [] }.returnCredit pool words).turned with
    txNext := (l.txNext + 1) % 2 ^ 24, replay := l.replay ++ [⟨l.txNext, f, now, 0⟩] }

theorem Link.resultSent_turned_width (l : Link) (pool words now : Nat) (f : Bytes) :
    (l.resultSent pool words now f).turned.width = l.width := rfl

/-- The DATA frame of a result that waits alone (R454, R462). -/
theorem Link.nextFrame_result {pool words k now : Nat} {r : TxRecord} (hcontrol : l.control = none) (hup : l.up = true) (htx : l.tx = [r])
    (hkind : r.kind = .result pool words) (hsent : r.sent = 0) (hlength : r.bytes.length = 8 * k) (hsome : 1 ≤ k) (hfits : k ≤ 37)
    (hroom : l.replay.length < l.replayPart) :
    let f := (l.returnCredit pool words).frame 1 l.txNext 1 r.bytes
    l.nextFrame now = (l.resultSent pool words now f, f) := by
  intro f
  obtain ⟨ws, hpack, hne, hbytes⟩ := Link.pack_result (k - 1) (fuel := 37) (at_ := 0) hkind (by omega) (by omega) htx
  rw [hsent, if_pos rfl] at hpack
  rw [hsent, Nat.mul_zero, List.drop_zero] at hbytes
  unfold Link.nextFrame
  rw [hcontrol, hpack]
  simp only [hup, hroom, decide_true, Bool.and_self, if_true, List.isEmpty_eq_false_iff.mpr hne, hbytes]
  rfl

/-! A replay: the frames not acknowledged leave again, two to a codeword (R449, R461). -/

theorem Link.resend_fst (l : Link) (f : Bytes) : (l.resend f).1 = l.turned := rfl

/-- A replay turns the rotation and numbers its codewords on; the link stays as it was otherwise. -/
theorem Link.resendAll_link (p : Port) : ∀ (fs : List Bytes) {l : Link}, l.widthTo = none →
    (l.resendAll p fs).1 = { l with rotation := (l.resendAll p fs).1.rotation, cwNum := (l.resendAll p fs).1.cwNum }
  | [], _, _ => rfl
  | [f], l, h => by
    rw [Link.resendAll, Link.takeWidth_steady h]
    rfl
  | f :: g :: rest, l, h => by
    rw [Link.resendAll, Link.takeWidth_steady h]
    exact Link.resendAll_link p rest h

theorem Link.resendAll_cwNum (p : Port) : ∀ (fs : List Bytes) {l : Link}, l.widthTo = none → fs ≠ [] →
    (l.resendAll p fs).1.cwNum = (l.cwNum + (fs.length + 1) / 2) % 65536
  | [], _, _, h => absurd rfl h
  | [f], l, _, _ => by simp [Link.resendAll]
  | [f, g], l, _, _ => by simp [Link.resendAll]
  | f :: g :: h :: rest, l, hwidth, _ => by
    rw [Link.resendAll, Link.takeWidth_steady hwidth]
    refine (Link.resendAll_cwNum p (h :: rest)
      (l := { ((l.resend f).1.resend g).1 with cwNum := (l.cwNum + 1) % 65536 }) hwidth (by simp)).trans ?_
    simp only [List.length_cons]
    omega

theorem Link.resendAll_codewords (p : Port) : ∀ (fs : List Bytes) {l : Link}, l.widthTo = none →
    (l.resendAll p fs).2.length = (fs.length + 1) / 2 ∧
    ∀ e ∈ (l.resendAll p fs).2, ∃ num f0 f1, e = .codeword p num (widthCode l.width) f0 f1
  | [], _, _ => ⟨rfl, nofun⟩
  | [f], l, h => by
    rw [Link.resendAll, Link.takeWidth_steady h]
    exact ⟨by simp, fun e he => ⟨_, _, _, List.mem_singleton.mp he⟩⟩
  | f :: g :: rest, l, h => by
    rw [Link.resendAll, Link.takeWidth_steady h]
    obtain ⟨hlength, hword⟩ := Link.resendAll_codewords p rest
      (l := { ((l.resend f).1.resend g).1 with cwNum := (l.cwNum + 1) % 65536 }) h
    refine ⟨?_, fun e he => ?_⟩
    · rw [List.length_cons, hlength, List.length_cons, List.length_cons]
      omega
    · rcases List.mem_cons.mp he with rfl | he
      · exact ⟨_, _, _, rfl⟩
      · exact hword e he

theorem frameBelow_self (n : Nat) : frameBelow n n = false := by
  have hzero : (n + 2 ^ 24 - n % 2 ^ 24) % 2 ^ 24 = 0 := by omega
  unfold frameBelow
  dsimp only
  rw [hzero]
  rfl

/-- A link after a replay from frame `n`: what was sent again is counted (R461). -/
def Link.replayed (l : Link) (p : Port) (n now : Nat) : Link :=
  { (l.resendAll p ((l.replay.filter (fun f => !frameBelow f.seq n)).map (·.bytes))).1 with
    replayFrom := some (n, now)
    replay := l.replay.map (fun f => if frameBelow f.seq n then f else { f with sentAt := now, replays := f.replays + 1 }) }

/-- A replay is noted on a quay (R461). -/
def State.countReplay (s : State) (p : Port) : State :=
  match p with
  | .quay q => (s.raiseQuay p Fld.QUY_STATUS_replay).bump Fld.QUY_ERR_COUNT_replays 1 q
  | _ => s.raiseQuay p Fld.QUY_STATUS_replay

theorem State.countReplay_out (s : State) (p : Port) : (s.countReplay p).out = s.out := by
  cases p with
  | quay q => exact (State.bump_out ..).trans (State.raise_out ..)
  | east => rfl
  | west => rfl

theorem State.link_countReplay (s : State) (p k : Port) : (s.countReplay p).link k = s.link k := by
  cases p with
  | quay q => exact (State.link_bump ..).trans (State.link_raise ..)
  | east => rfl
  | west => rfl

theorem State.bit_countReplay (s : State) (q : Nat) : (s.countReplay (.quay q)).bit Fld.QUY_STATUS_replay q = true := by
  unfold State.countReplay State.bit
  rw [State.fld_bump_reg _ _ _ _ _ _ (by decide)]
  exact State.bit_raise_same s Fld.QUY_STATUS_replay q rfl (by decide) (by decide)

/-- A replay of frames that have been sent again fewer than 16 times (R461). -/
theorem State.replay_resends {n : Nat} (hwidth : (s.link p).widthTo = none)
    (hsome : (s.link p).replay.filter (fun f => !frameBelow f.seq n) ≠ []) (hfew : ∀ g ∈ (s.link p).replay, g.replays < 16) :
    s.replay p n = { (s.setLink p ((s.link p).replayed p n s.now)).countReplay p with
      out := s.out ++ ((s.link p).resendAll p (((s.link p).replay.filter (fun f => !frameBelow f.seq n)).map (·.bytes))).2 } := by
  have hlink := Link.resendAll_link p (((s.link p).replay.filter (fun f => !frameBelow f.seq n)).map (·.bytes)) hwidth
  have htries : ((s.link p).replay.filter (fun f => !frameBelow f.seq n)).any (fun f => decide (16 ≤ f.replays)) = false := by
    rw [List.any_eq_false]
    intro g hg
    simpa using hfew g (List.mem_of_mem_filter hg)
  have hset : s.setWidth p ((s.link p).replayed p n s.now) = s.setLink p ((s.link p).replayed p n s.now) :=
    if_neg (not_lt.mpr (congrArg Link.width hlink).ge)
  have hout : ∀ (y : State) (es : List Emit), y = s.setLink p ((s.link p).replayed p n s.now) →
      { y.countReplay p with out := (y.countReplay p).out ++ es } =
        { (s.setLink p ((s.link p).replayed p n s.now)).countReplay p with out := s.out ++ es } := fun y es hy => by
    rw [hy, State.countReplay_out, State.setLink_only]
  unfold State.replay
  refine (if_neg (by simpa using hsome)).trans ((if_neg (by rw [htries]; nofun)).trans ?_)
  cases p <;> exact hout _ _ hset

end Sys2Proof.Machine
end

section
/-! Codewords sent (R449, R451, R453, R454, R461, R462). -/
namespace Sys2Proof.Machine

/-- Settles O50: a codeword takes the frames of `Link.nextFrame_idle` and `Link.nextFrame_result`, a replay those of
`Link.resendAll_codewords`; `codewordRead_codewordData` is the receiver. -/
theorem codewordsSent : Obligations.CodewordsSent := by
  unfold Obligations.CodewordsSent
  refine ⟨fun s t p hport hup hctl hwidth hreports hbuffer hintake => ?_, codewordRead_codewordData⟩
  have hcontrol := Link.control_none hup hctl hwidth
  refine ⟨fun htx => ?idle, fun r pool words k htx hkind hsent hlength hsome hfits hroom => ?result, fun f rest hreplay hlate hfew => ?replay⟩
  case idle =>
    have hturned : (s.link p).turned.control = none := hcontrol
    exact frameTransmit_codeword hport hup hwidth hreports hbuffer hintake (Link.nextFrame_idle hcontrol htx _)
      (Link.nextFrame_idle hturned htx _) rfl
  case result =>
    have hfirst := Link.nextFrame_result (now := (s.at t).now) hcontrol hup htx hkind hsent hlength hsome hfits hroom
    have hsecond := Link.nextFrame_idle (l := (s.link p).resultSent pool words (s.at t).now
      (((s.link p).returnCredit pool words).frame 1 (s.link p).txNext 1 r.bytes)) (Link.control_none hup hctl hwidth) rfl (s.at t).now
    have hleaves := frameTransmit_codeword hport hup hwidth hreports hbuffer hintake hfirst hsecond (Link.resultSent_turned_width ..)
    refine (frameTransmit_leaves hport hleaves).imp fun s' ⟨hlink, hout⟩ => ?_
    rw [hlink, hout]
    exact ⟨rfl, rfl, rfl, rfl, _, rfl⟩
  case replay =>
    have hkept : (s.link p).replay.filter (fun g => !frameBelow g.seq f.seq) ≠ [] := by
      rw [hreplay, List.filter_cons_of_pos (by rw [frameBelow_self]; rfl)]
      exact List.cons_ne_nil _ _
    have hagain := State.replay_resends (s := s.at t) (p := p) (n := f.seq) (by rwa [State.link_at]) (by rwa [State.link_at])
      (by rwa [State.link_at])
    rw [State.link_at, State.at_out] at hagain
    obtain ⟨hcount, hword⟩ := Link.resendAll_codewords p (((s.link p).replay.filter (fun g => !frameBelow g.seq f.seq)).map (·.bytes)) hwidth
    have hlink := Link.resendAll_link p (((s.link p).replay.filter (fun g => !frameBelow g.seq f.seq)).map (·.bytes)) hwidth
    have hnum := Link.resendAll_cwNum p (((s.link p).replay.filter (fun g => !frameBelow g.seq f.seq)).map (·.bytes)) hwidth
      (by simpa using hkept)
    rw [List.length_map] at hcount hnum
    refine Answers.of_eq rfl (Eq.trans ?_ hagain) ?_
    · simp only [State.link_at, hreplay]
      refine if_pos ?_
      rw [Bool.and_eq_true, decide_eq_true_eq]
      exact ⟨hup, hlate⟩
    · rw [State.settle_out, State.link_settle, State.link_withOut, State.link_countReplay,
        State.link_setLink _ _ _ (by rwa [State.hasPort_at])]
      refine ⟨rfl, ?_, rfl, fun q hq => ?_, hnum, _, rfl, hcount, hword⟩
      · exact (congrArg Link.state hlink).trans (Link.up_iff.mp hup)
      · subst hq
        rw [State.bit_settle, State.bit_withOut]
        exact State.bit_countReplay ..

end Sys2Proof.Machine
end

section
/-! Ring search records at their origin and at the other members (R491 to R498). -/
namespace Sys2Proof.Machine
variable {s x : State} {bs : Bytes} {t : Nat}

/-! Settling sets the lock gates and the solo epoch that follows, and nothing else of the ring. -/

@[simp] theorem State.settle_ring_launches (s : State) : s.settle.ring.launches = s.ring.launches := rfl
@[simp] theorem State.settle_ring_queue (s : State) : s.settle.ring.queue = s.ring.queue := rfl
@[simp] theorem State.settle_ring_epoch (s : State) : s.settle.ring.epoch = s.ring.epoch := rfl
@[simp] theorem State.settle_ring_probe (s : State) : s.settle.ring.probe = s.ring.probe := rfl
@[simp] theorem State.settle_ring_forced (s : State) : s.settle.ring.forced = s.ring.forced := rfl
@[simp] theorem State.settle_ring_commit (s : State) : s.settle.ring.commit = s.ring.commit := rfl
@[simp] theorem State.settle_ring_lastCommit (s : State) : s.settle.ring.lastCommit = s.ring.lastCommit := rfl
@[simp] theorem State.settle_ring_lastCensus (s : State) : s.settle.ring.lastCensus = s.ring.lastCensus := rfl
@[simp] theorem State.settle_ring_epochNext (s : State) : s.settle.ring.epochNext = s.ring.epochNext := rfl

/-! The ports of the ring. -/

theorem State.counted_at (s : State) (t m : Nat) : (s.at t).counted m = s.counted m := rfl

theorem State.idleWake_awake (h : s.power.state = 0) : s.idleWake = s := if_neg (by rw [h]; nofun)

theorem State.sendEast_up (h : s.links.east.up = true) (bs : Bytes) : s.sendEast bs =
    { s with links := { s.links with east := { s.links.east with tx := s.links.east.tx ++ [⟨.secondary, bs, 0⟩] } } } := if_pos h

/-- A ring search record accepted on the west port, charged to its credit (R486, R492). -/
def State.westTaken (s : State) : State :=
  { s with power := { s.power with accepted := true }, links := { s.links with west := s.links.west.charge 0 8 } }

/-- A ring search record of another member, its hop counted (R492, R498). -/
def memberRecord (bs : Bytes) (now : Nat) : RingRec :=
  ⟨setByte bs 1 (byteAt bs 1 + 32), now, none, false, none, 0, [], false, none, none, false, false, none⟩

/-- A record taken on the west port of a device that is awake, by its origin, its hops and its epoch (R492, R493, R497). -/
theorem State.ringReceive_taken (hpower : s.power.state = 0) (htype : byteAt bs 0 = 0x18) (hlength : bs.length = 64)
    (hopen : s.ring.gatesOpen = true) (hup : s.links.west.up = true) :
    s.ringReceive bs =
      if byteAt bs 1 / 4 % 8 = s.member then s.westTaken.ringReturn bs
      else if byteAt bs 1 / 32 % 8 = 7 || !s.counted (byteAt bs 1 / 4 % 8) then (s.westTaken.bump Fld.RNG_COUNT1_discarded).returnWest
      else if s.searchable (setByte bs 1 (byteAt bs 1 + 32)) then
        { s.westTaken with ring := { s.ring with queue := s.ring.queue ++ [memberRecord bs s.now] } }
      else
        { s.westTaken with ring := { s.ring with
            queue := s.ring.queue ++ [{ memberRecord bs s.now with passThrough := true, sendAt := some (s.now + 48) }] } }.bump
          Fld.RNG_COUNT1_passed := by
  refine (if_neg ?_).trans ?_
  · simp [htype, hlength, hopen, hup]
  · rw [State.idleWake_awake hpower]
    rfl

/-- The record of the one launch comes back in time (R494). -/
theorem State.ringReturn_merges {l : Launch} (hone : s.ring.launches = [l]) (htag : fieldLE bs 8 4 = l.tag) (hsent : l.sent = true)
    (hopen : l.merged = none) (hintime : s.pastMerge l 1 = false) :
    s.ringReturn bs = { s with ring := { s.ring with launches := [{ l with merged := some bs }] } }.returnWest := by
  have hfits : (l.tag == fieldLE bs 8 4 && l.sent && l.merged.isNone && !s.pastMerge l 1) = true := by
    simp [htag, hsent, hopen, hintime]
  unfold State.ringReturn
  simp only [hone, List.any_cons, List.any_nil, Bool.or_false, List.map_cons, List.map_nil, hfits, if_true]

end Sys2Proof.Machine
end

section
/-! Ring lookups (R486, R491 to R498). -/
namespace Sys2Proof.Machine

/-- Settles O51: `State.ringReceive_taken` says what a record on the west port meets, `State.ringReturn_merges` what its origin does. -/
theorem ringLookups : Obligations.RingLookups := by
  unfold Obligations.RingLookups
  refine ⟨fun s t x hone => ⟨fun hsent hcome hup => ?launch, fun bs hpower htype hlength hopen hup horigin htag hsent hmerged hintime => ?merge,
    fun f hmerged hmem hid hreached => ?late⟩, fun s t => ⟨fun bs hpower htype hlength hopen hup horigin =>
      ⟨fun hhops hcounted => ⟨fun hsearch => ?search, fun hpass => ?pass⟩, fun hdiscard => ?discard⟩, fun r hone hready hup => ?forward⟩⟩
  case launch =>
    have hsend := State.sendEast_up (s := { s.at t with ring := { s.ring with launches := [{ x with sent := true }] } }) hup x.own
    refine Answers.of_eq rfl (Eq.trans ?_ (congrArg (fun z : State => z.bump Fld.RNG_COUNT0_launched) hsend)) ?_
    · simp only [State.at_ring, hone, List.filter_cons, List.filter_nil, List.map_cons, List.map_nil, hsent, hcome, Bool.not_false,
        decide_true, Bool.and_self, if_true]
      rfl
    · simp only [State.settle_ring_launches, State.settle_ring_epoch, State.settle_ring_queue, State.settle_links, State.settle_search]
      exact ⟨⟨rfl, rfl, rfl⟩, rfl, rfl⟩
  case merge =>
    refine Answers.of_eq rfl ((State.ringReceive_taken (s := s.at t) hpower htype hlength hopen hup).trans ((if_pos horigin).trans
      (State.ringReturn_merges (s := (s.at t).westTaken) hone htag hsent hmerged hintime))) ?_
    simp only [State.settle_ring_launches, State.settle_ring_epoch, State.settle_ring_queue, State.settle_links, State.settle_search]
    exact ⟨⟨rfl, rfl, rfl⟩, rfl, rfl⟩
  case late =>
    have hlate : (s.at t).pastMerge x 0 = true := by
      unfold State.pastMerge
      rw [hmerged, Option.isNone_none, Bool.true_and, List.any_eq_true]
      exact ⟨f, hmem, by simp [hid, hreached]⟩
    refine Leaves.of_eq rfl ?_
    simp only [State.at_ring, hone, List.map_cons, List.map_nil, hlate, if_true]
  case search =>
    refine Answers.of_eq rfl ((State.ringReceive_taken (s := s.at t) hpower htype hlength hopen hup).trans ((if_neg horigin).trans
      ((if_neg ?_).trans (if_pos hsearch)))) ?_
    · rw [decide_eq_false hhops, State.counted_at, hcounted]
      nofun
    · rw [State.settle_ring_queue, State.settle_links]
      exact ⟨rfl, rfl⟩
  case pass =>
    refine Answers.of_eq rfl ((State.ringReceive_taken (s := s.at t) hpower htype hlength hopen hup).trans ((if_neg horigin).trans
      ((if_neg ?_).trans (if_neg (Bool.eq_false_iff.mp hpass))))) ?_
    · rw [decide_eq_false hhops, State.counted_at, hcounted]
      nofun
    · rw [State.settle_ring_queue, State.settle_links]
      exact ⟨rfl, rfl⟩
  case discard =>
    refine Answers.of_eq rfl ((State.ringReceive_taken (s := s.at t) hpower htype hlength hopen hup).trans ((if_neg horigin).trans (if_pos ?_))) ?_
    · rw [State.counted_at, Bool.or_eq_true, decide_eq_true_eq, Bool.not_eq_true']
      exact hdiscard
    · rw [State.settle_ring_queue, State.settle_links]
      exact ⟨rfl, rfl⟩
  case forward =>
    refine Leaves.of_eq rfl ?_
    simp only [State.at_ring, hone, List.filter_cons, List.filter_nil, hready, Bool.not_true, Bool.false_eq_true, if_true, if_false]
    exact congrArg State.returnWest (State.sendEast_up (s := { s.at t with ring := { s.ring with queue := [] } }) hup r.bytes)

end Sys2Proof.Machine
end

section
/-! The census of the ring (R500 to R504). -/
namespace Sys2Proof.Machine
variable {s x : State} {m : Bytes} {t : Nat}

theorem State.settle_soloNext (h : s.gatesWanted = true) : s.settle.ring.soloNext = s.ring.soloNext := by
  refine if_neg ?_
  rw [h]
  nofun

theorem State.sendCensus_up (h : s.links.east.up = true) (m : Bytes) :
    s.sendCensus m = { s with links := { s.links with east := { s.links.east with ctl := s.links.east.ctl ++ [m] } } } := if_pos h

/-- A CENSUS message is heard in a tide (R503). -/
def State.censusHeard (s : State) : State := { s with ring := { s.ring with lastCensus := s.clock.grid } }

/-- A CENSUS message of the west port, by its commit bit and its launcher (R500 to R503). -/
theorem State.censusReceive_heard (htype : byteAt m 0 = 6) (hopen : s.ring.gatesOpen = true) (hup : s.links.west.up = true) :
    s.censusReceive m =
      if (byteAt m 1).testBit 0 then
        if byteAt m 1 / 4 % 8 = s.member then s.censusHeard.commitReturn ⟨fieldLE m 2 2, byteAt m 4, byteAt m 5⟩
        else s.censusHeard.commitSeen m (byteAt m 1 / 4 % 8) ⟨fieldLE m 2 2, byteAt m 4, byteAt m 5⟩
      else if byteAt m 1 / 4 % 8 = s.member then s.censusHeard.probeReturn ((byteAt m 1).testBit 1) (byteAt m 4) (byteAt m 5)
      else if (s.ring.probe.isSome || s.ring.forced.isSome) && s.member < byteAt m 1 / 4 % 8 then s.censusHeard
      else s.censusHeard.sendCensus (censusMessage false ((byteAt m 1).testBit 1) (byteAt m 1 / 4 % 8) (fieldLE m 2 2)
        (byteAt m 4 ||| s.ownBits.1) (byteAt m 5 ||| s.ownBits.2)) := by
  refine (if_neg ?_).trans rfl
  simp [htype, hopen, hup]

/-- A probe that is out is held back from a higher launcher (R501, R503). -/
theorem probeHeld_iff (p f : Option Nat) (a b : Nat) :
    ((p.isSome || f.isSome) && decide (a < b)) = true ↔ (p ≠ none ∨ f ≠ none) ∧ a < b := by
  rw [Bool.and_eq_true, Bool.or_eq_true, decide_eq_true_eq, Option.isSome_iff_ne_none, Option.isSome_iff_ne_none]

/-- A probe that has come back and is let go (R502). -/
def State.probeDone (s : State) (force : Bool) : State :=
  { s with ring := if force then { s.ring with forced := none } else { s.ring with probe := none } }

/-- A probe that shows other members than the epoch's leads to a commit (R502, R503). -/
theorem State.probeReturn_commits {force : Bool} {present weight2 : Nat} (hup : s.links.east.up = true)
    (hother : force = true ∨ present ||| s.ownBits.1 ≠ s.ring.epoch.present ∨ weight2 ||| s.ownBits.2 ≠ s.ring.epoch.weight2) :
    let new : Epoch := ⟨(s.ring.epoch.number + 1) % 65536, present ||| s.ownBits.1, weight2 ||| s.ownBits.2⟩
    let y := s.probeDone force
    s.probeReturn force present weight2 = { y with
      ring := { y.ring with commit := some new, lastCommit := some (new.number, s.member) }
      links := { s.links with east := { s.links.east with
        ctl := s.links.east.ctl ++ [censusMessage true false s.member new.number new.present new.weight2] } } } := by
  intro new y
  refine (if_pos ?_).trans (if_pos hup)
  simpa [or_assoc] using hother

/-- A later commit of another launcher is taken and goes on (R502, R503). -/
theorem State.commitSeen_taken {launcher : Nat} {e : Epoch} (hup : s.links.east.up = true)
    (hlater : epochLater e.number s.ring.epoch.number = true)
    (hfirst : ∀ other, s.ring.lastCommit = some (e.number, other) → launcher < other) :
    s.commitSeen m launcher e = { s with
      ring := { s.ring with epochNext := some e, lastCommit := some (e.number, launcher) }
      links := { s.links with east := { s.links.east with ctl := s.links.east.ctl ++ [m] } } } := by
  have hbeaten : (match s.ring.lastCommit with
      | some (n, l) => n == e.number && decide (l ≤ launcher)
      | none => false) = false := by
    split
    next n l hlast =>
      rw [Bool.and_eq_false_iff, decide_eq_false_iff_not, not_le]
      by_cases hn : n = e.number
      · exact .inr (hfirst l (hn ▸ hlast))
      · exact .inl (beq_eq_false_iff_ne.mpr hn)
    · rfl
  refine (if_neg ?_).trans (if_pos hup)
  rw [hlater]
  exact Bool.eq_false_iff.mp hbeaten

/-- A commit of this member has come back (R502, R503): taken while its epoch is later and no other launcher has committed its number. -/
theorem State.commitReturn_own {c e : Epoch} (hcommit : s.ring.commit = some c) (hnumber : c.number = e.number) :
    s.commitReturn e = { s with ring := { s.ring with
      commit := none
      epochNext := if epochLater e.number s.ring.epoch.number = true ∧ s.ring.lastCommit = some (e.number, s.member) then some e
        else s.ring.epochNext } } := by
  unfold State.commitReturn
  rw [hcommit]
  refine (if_neg (by simp [hnumber])).trans ?_
  by_cases hlater : epochLater e.number s.ring.epoch.number = true ∧ s.ring.lastCommit = some (e.number, s.member)
  · rw [if_pos hlater, if_pos (by simpa using hlater)]
  · rw [if_neg hlater, if_neg (by simpa using hlater)]

/-- A force probe is launched (R503). -/
theorem State.launchProbe_force (hup : s.links.east.up = true) : s.launchProbe true = { s with
    ring := { s.ring with forced := some s.clock.grid, lastCensus := s.clock.grid }
    links := { s.links with east := { s.links.east with
      ctl := s.links.east.ctl ++ [censusMessage false true s.member s.ring.epoch.number 0 0] } } } := if_pos hup

end Sys2Proof.Machine
end

section
/-! The census (R500 to R504). -/
namespace Sys2Proof.Machine

/-- Settles O52: `State.censusReceive_heard` says what a message meets, `State.probeReturn_commits` and `State.commitSeen_taken` what a
probe that comes back and a commit that goes on do. -/
theorem ringCensus : Obligations.RingCensus := by
  unfold Obligations.RingCensus
  intro s t east e hopen hup
  refine ⟨fun hstroke heven hleader => ?launch, fun m htype hwest => ⟨fun hprobe hother hfree => ?onward, fun hprobe hhigher hout => ?held,
    fun hprobe hown hchanged => ?back, fun hcommit hother hlater hfirst => ?commit, fun c hcommit hown hc hnumber => ?taken⟩,
    fun hsilent hnone => ?timeout, fun g hforced hlate hsolo hwanted => ?solo⟩
  case launch =>
    refine Answers.of_eq rfl ((if_pos ?_).trans (if_pos hup)) ?_
    · simp [hstroke, heven, hopen, hleader]
    · simp only [State.settle_ring_probe, State.settle_ring_forced]
      exact ⟨rfl, rfl, rfl⟩
  case onward =>
    refine Answers.of_eq rfl ((State.censusReceive_heard (s := s.at t) htype hopen hwest).trans ((if_neg (by rw [hprobe]; nofun)).trans
      ((if_neg hother).trans ((if_neg ?_).trans (if_pos hup))))) ?_
    · rw [probeHeld_iff]
      rintro ⟨hout, hlt⟩
      rcases hfree with ⟨hp, hf⟩ | hlower
      · exact hout.elim (· hp) (· hf)
      · exact absurd hlt (not_lt.mpr hlower.le)
    · simp only [State.settle_ring_lastCensus, State.settle_ring_probe, State.settle_ring_epoch]
      exact ⟨rfl, rfl, rfl, rfl⟩
  case held =>
    exact Leaves.of_eq rfl ((State.censusReceive_heard (s := s.at t) htype hopen hwest).trans ((if_neg (by rw [hprobe]; nofun)).trans
      ((if_neg hhigher.ne').trans (if_pos ((probeHeld_iff ..).mpr ⟨hout, hhigher⟩)))))
  case back =>
    refine Answers.of_eq rfl ((State.censusReceive_heard (s := s.at t) htype hopen hwest).trans ((if_neg (by rw [hprobe]; nofun)).trans
      ((if_pos hown).trans (State.probeReturn_commits (s := (s.at t).censusHeard) hup hchanged)))) ?_
    simp only [State.settle_ring_commit, State.settle_ring_probe, State.settle_ring_forced]
    refine ⟨rfl, fun hforce => ?_, fun hforce => ?_, rfl⟩ <;> rw [hforce] <;> rfl
  case commit =>
    refine Answers.of_eq rfl ((State.censusReceive_heard (s := s.at t) htype hopen hwest).trans ((if_pos hcommit).trans
      ((if_neg hother).trans (State.commitSeen_taken (s := (s.at t).censusHeard) hup hlater hfirst)))) ?_
    rw [State.settle_ring_epochNext, State.settle_ring_lastCommit, State.settle_ring_epoch]
    exact ⟨rfl, rfl, rfl, congrArg Links.east (State.settle_links _)⟩
  case taken =>
    have hreturn := State.commitReturn_own (s := (s.at t).censusHeard) (e := ⟨fieldLE m 2 2, byteAt m 4, byteAt m 5⟩) hc hnumber
    refine Answers.of_eq rfl ((State.censusReceive_heard (s := s.at t) htype hopen hwest).trans ((if_pos hcommit).trans
      ((if_pos hown).trans hreturn))) ?_
    rw [State.settle_ring_commit, State.settle_ring_epoch, State.settle_ring_epochNext, hnumber]
    exact ⟨rfl, rfl, rfl⟩
  case timeout =>
    let z := ((s.at t).raise Fld.RNG_STATUS_census_timeout).faultEvent 0x07 1 0x9 s.member e.number 0
    have hlinks : z.links = s.links := (State.faultEvent_links ..).trans ((State.raise_links ..).trans (State.at_links ..))
    have hring : z.ring = s.ring := (State.faultEvent_ring ..).trans ((State.raise_ring ..).trans (State.at_ring ..))
    have hclock : z.clock.grid = (s.at t).clock.grid := congrArg Clock.grid ((State.faultEvent_clock ..).trans (State.raise_clock ..))
    have hmember : z.member = s.member := by
      unfold State.member
      rw [hlinks]
    have hnoted : z.bit Fld.RNG_STATUS_census_timeout = true :=
      State.bit_raise_postFault _ _ _ _ _ rfl (by decide) (by decide)
    refine Answers.of_eq rfl ((if_neg ?_).trans (State.launchProbe_force (s := z) (by rwa [hlinks]))) ⟨?_, ?_, ?_⟩
    · simp only [State.at_ring, hopen, hnone, Bool.not_true, Bool.false_or, Option.isSome_none, Bool.or_false, decide_eq_true_eq]
      exact not_lt.mpr hsilent
    · rw [State.settle_ring_forced]
      exact congrArg some hclock
    · rw [State.bit_settle]
      exact hnoted
    · refine (congrArg Links.east (State.settle_links _)).trans ?_
      dsimp only
      rw [hmember, hring, hlinks]
  case solo =>
    refine Answers.of_eq rfl (x := { s.at t with ring := { s.ring with forced := none, soloNext := some 3 } }) ?_ ?_
    · simp only [State.at_ring, hforced, hsolo]
      exact if_pos hlate
    · exact ⟨rfl, State.settle_soloNext hwanted⟩

end Sys2Proof.Machine
end

section
/-! Host rings: one ring set, the others kept; a doorbell; a ring that goes to ERROR or is disabled (R520 to R531). -/
namespace Sys2Proof.Machine
variable {s x : State} {t fn slot r : Nat} {data : Bytes}

theorem State.hostRing_setRing_ne {n : Nat} (s : State) (x : HostRing) (h : n ≠ r) : (s.setRing r x).hostRing n = s.hostRing n :=
  Table.findD_put_ne _ _ _ _ _ h

theorem State.hostRing_of_host (h : x.host = s.host) (n : Nat) : x.hostRing n = s.hostRing n := by rw [State.hostRing, State.hostRing, h]

theorem State.hostRing_settle (s : State) (n : Nat) : s.settle.hostRing n = s.hostRing n := State.hostRing_of_host (State.settle_host s) n

/-! A doorbell (R530, R531). -/

theorem State.idleWake_host (s : State) : s.idleWake.host = s.host := by
  unfold State.idleWake
  split <;> rfl

theorem State.idleWake_regs (s : State) : s.idleWake.regs = s.regs := by
  unfold State.idleWake
  split <;> rfl

/-- A doorbell that no function and no link keeps back: ignored, out of range, or taken. -/
theorem doorbell_exec (hintake : (s.at t).intakeStopped = false) (hslot : slot < 16) (hfn : s.hasFunction fn = true)
    (hflr : (s.function fn).flr = false) (hlink : s.host.linkUp = true) :
    let r := 16 * fn + slot
    let idx := fieldLE data 0 4
    let y := (s.at t).idleWake
    exec (.doorbell t fn slot data) s = .next (
      if data.length < 8 ∨ (s.hostRing r).state ≠ .active then y
      else if s.doorbellOk r idx = false then y.ringError r 4
      else y.setRing r { s.hostRing r with
        hostIndex := idx, armed := if s.ringKind r != 0 && (byteAt data 4).testBit 0 then some idx else (s.hostRing r).armed }).settle := by
  intro r idx y
  have hhost : y.host = s.host := State.idleWake_host _
  have hregs : y.regs = s.regs := State.idleWake_regs _
  have hring : ∀ n, y.hostRing n = s.hostRing n := State.hostRing_of_host hhost
  have hkind : y.ringKind r = s.ringKind r := State.fld_of_regs hregs _ _
  have hok : y.doorbellOk r idx = s.doorbellOk r idx := by
    unfold State.doorbellOk State.ringSize
    rw [hkind, hring, State.fld_of_regs hregs]
  have hignored : (decide (data.length < 8) || decide (16 ≤ slot) || !y.hasFunction fn || (y.function fn).flr || !y.host.linkUp ||
      !y.ringActive r) = decide (data.length < 8 ∨ (s.hostRing r).state ≠ .active) := by
    have hfn' : y.hasFunction fn = true := by rwa [State.hasFunction, hhost]
    have hflr' : (y.function fn).flr = false := by rwa [State.function, hhost]
    have hactive : y.ringActive r = decide ((s.hostRing r).state = .active) := by rw [State.ringActive, hring, beq_eq_decide]
    rw [hfn', hflr', hhost, hlink, hactive, decide_eq_false (not_le.mpr hslot), Bool.decide_or]
    simp [decide_not]
  refine congrArg (fun z : State => Host.Outcome.next z.settle) ((if_neg (by rw [hintake]; nofun)).trans ?_)
  unfold State.doorbellTake
  dsimp only
  rw [show (s.at t).idleWake = y from rfl, hignored, hok, hkind, hring]
  simp only [decide_eq_true_eq, Bool.not_eq_true']
  rfl

/-- A ring in ERROR (R526, R530). -/
theorem State.hostRing_ringError (s : State) (r cause : Nat) :
    (s.ringError r cause).hostRing r = { s.hostRing r with state := .error, cause := cause } := by
  unfold State.ringError
  dsimp only
  rw [State.hostRing_of_host (State.faultEvent_host ..), State.hostRing_of_host (State.emit_host ..), State.hostRing_setRing]

/-- A doorbell out of range puts its ring in ERROR (R530). -/
theorem doorbell_error (hintake : (s.at t).intakeStopped = false) (hslot : slot < 16) (hfn : s.hasFunction fn = true)
    (hflr : (s.function fn).flr = false) (hlink : s.host.linkUp = true) (hlength : 8 ≤ data.length)
    (hactive : (s.hostRing (16 * fn + slot)).state = .active) (hbeyond : s.doorbellOk (16 * fn + slot) (fieldLE data 0 4) = false) :
    Answers (.doorbell t fn slot data) s (fun s' =>
      s'.hostRing (16 * fn + slot) = { s.hostRing (16 * fn + slot) with state := .error, cause := 4 } ∧
      (s'.fld Fld.FLT_STATUS_pending).testBit 1 = true) := by
  refine Answers.of_eq (doorbell_exec hintake hslot hfn hflr hlink) ((if_neg (not_or.mpr ⟨not_lt.mpr hlength, not_not.mpr hactive⟩)).trans
    (if_pos hbeyond)) ⟨?_, ?_⟩
  · rw [State.hostRing_settle, State.hostRing_ringError, State.hostRing_of_host (State.idleWake_host _)]
    rfl
  · rw [State.fld_settle]
    exact State.testBit_pending_faultEvent _ _ (by decide) ..

end Sys2Proof.Machine
end

section
/-! Doorbells out of range (R530). -/
namespace Sys2Proof.Machine

/-- Settles O7, by the cases of a doorbell (`doorbell_exec`, `doorbell_error`). -/
theorem doorbellsOutOfRange : Obligations.DoorbellsOutOfRange := by
  unfold Obligations.DoorbellsOutOfRange
  intro s t fn slot data hintake hlink hfn hflr hslot
  refine ⟨fun hignored => ?_, fun hlength hactive hfar => ?_⟩
  · refine Answers.of_eq (doorbell_exec hintake hslot hfn hflr hlink) (if_pos hignored) ?_
    rw [State.settle_host, State.idleWake_host]
    rfl
  · have hbeyond : s.doorbellOk (16 * fn + slot) (fieldLE data 0 4) = false := by
      unfold State.doorbellOk State.ringSize
      rw [Bool.and_eq_false_iff, decide_eq_false_iff_not, decide_eq_false_iff_not, not_lt, not_le, apply_ite (fun n => n % 2 ^ 32)]
      exact hfar.symm
    obtain ⟨s', hexec, hring, -⟩ := doorbell_error hintake hslot hfn hflr hlink hlength hactive hbeyond
    exact ⟨s', hexec, by rw [hring], by rw [hring]⟩

end Sys2Proof.Machine
end

section
/-! The control of a host ring, and the records written to it (R520 to R522, R527, R531). -/
namespace Sys2Proof.Machine
variable {s x : State} {t fn r : Nat} {w : Word64}

/-- What is left of a ring that is disabled: the event records that wait (R528). -/
def HostRing.disabled (x : HostRing) : HostRing :=
  { HostRing.reset with
    writes := x.writes.filter (fun w => match w.kind with
      | .reply _ => false
      | _ => true)
    era := x.era + 1 }

theorem State.ringDisable_host (s : State) (r : Nat) : (s.ringDisable r).host = (s.setRing r (s.hostRing r).disabled).host := by
  unfold State.ringDisable State.when
  dsimp only
  split
  · exact State.bump_host ..
  · rfl

theorem State.hostRing_ringDisable (s : State) (r : Nat) : (s.ringDisable r).hostRing r = (s.hostRing r).disabled := by
  rw [State.hostRing_of_host (s.ringDisable_host r), State.hostRing_setRing]

theorem State.hostRing_ringDisable_ne {n : Nat} (s : State) (h : n ≠ r) : (s.ringDisable r).hostRing n = s.hostRing n := by
  rw [State.hostRing_of_host (s.ringDisable_host r), State.hostRing_setRing_ne s _ h]

theorem State.logAccess_hostRing (s : State) (fn off reason n : Nat) : (s.logAccess fn off reason).hostRing n = s.hostRing n := by
  rw [State.hostRing, s.logAccess_host]
  rfl

theorem storeFields_host {reg : Reg} {i n mask : Nat} {fixed : List Nat} {a b : Bool}
    (h : (s.at t).storeFields reg i n mask fixed = (x, a, b)) : x.host = s.host := by
  have hregs := congrArg State.host ((s.at t).storeFields_regs reg i n mask fixed)
  rwa [h] at hregs

/-- A write of HST_RING_CTL whose fields but en are stored without fault: reset, en cleared, en set, or neither (R522). -/
theorem writeRingCtl_stored {fixed : List Nat} (hfn : s.hasFunction fn = true) (hserved : (s.at t).served .HST_RING_CTL 0 = true)
    (hfixed : fixed = if s.bit Fld.HST_RING_CTL_en (s.ringSel fn) = true then ringFixed else [])
    (hstored : (s.at t).storeFields .HST_RING_CTL (s.ringSel fn) w.toNat (fullMask - 1) fixed = (x, false, false)) :
    let r := s.ringSel fn
    let was := s.bit Fld.HST_RING_CTL_en r
    let en := decide (w.toNat % 2 = 1)
    let refused := en && !was && !x.mayEnable fn r
    let y := if refused then x.logAccess fn Reg.HST_RING_CTL.offset 5 else x
    (s.at t).writeRingCtl fn w.toNat fullMask =
      if Fld.HST_RING_CTL_reset.get w.toNat = 1 then (y.ringDisable r).setFld Fld.HST_RING_CTL_en 0 r
      else if was && !en then (y.ringOff r).setFld Fld.HST_RING_CTL_en 0 r
      else if en && !was && !refused then (y.ringOn r).setFld Fld.HST_RING_CTL_en 1 r
      else y := by
  have hodd : fullMask % 2 = 1 := by decide
  have hsel : (s.at t).ringSel fn = s.ringSel fn := rfl
  have hwas : (s.at t).bit Fld.HST_RING_CTL_en (s.ringSel fn) = s.bit Fld.HST_RING_CTL_en (s.ringSel fn) := rfl
  have hfn' : (s.at t).hasFunction fn = true := hfn
  unfold State.writeRingCtl
  simp only [hfn', hserved, Bool.not_true, Bool.false_eq_true, if_false, hodd, if_true, hsel, hwas, ← hfixed, hstored,
    Bool.false_or, and_fullMask]

/-- A ring of the device has room for its first waiting record (R527). -/
def State.hasRingRoom (s : State) (r : Nat) (w : RingWrite) : Prop :=
  match w.kind with
  | .reply _ => ringEntries w.bytes ≤ s.ringFree r + (s.hostRing r).reserved
  | _ => ringEntries w.bytes ≤ s.ringFree r

/-- The reserved entries that a record takes in its ring (R527). -/
def RingWrite.reserved (w : RingWrite) : Nat :=
  match w.kind with
  | .reply e => e
  | _ => 0

/-- A ring with an index reached calls for its vector (R531). -/
def armedFires (armed : Option Nat) (dev : Nat) : Bool :=
  match armed with
  | some c => decide (0 < (dev + 2 ^ 32 - c) % 2 ^ 32) && decide ((dev + 2 ^ 32 - c) % 2 ^ 32 < 2 ^ 31)
  | none => false

/-- A ring after its first waiting record is written (R527, R531). -/
def HostRing.written (x : HostRing) (w : RingWrite) (rest : List RingWrite) (dev : Nat) : HostRing :=
  { x with
    devIndex := dev, reserved := x.reserved - w.reserved, writes := rest
    armed := if armedFires x.armed dev then none else x.armed }

theorem HostRing.written_quiet {x : HostRing} {w : RingWrite} {rest : List RingWrite} {dev : Nat} (h : armedFires x.armed dev = false) :
    x.written w rest dev = { x with devIndex := dev, reserved := x.reserved - w.reserved, writes := rest } := by
  unfold HostRing.written
  rw [if_neg (Bool.eq_false_iff.mp h)]

theorem HostRing.written_fires {x : HostRing} {w : RingWrite} {rest : List RingWrite} {dev : Nat} (h : armedFires x.armed dev = true) :
    x.written w rest dev = { x with devIndex := dev, reserved := x.reserved - w.reserved, writes := rest, armed := none } := by
  unfold HostRing.written
  rw [if_pos h]

/-- A ring is set, after `es` has left the device, and its index is written back (R522). -/
def State.writtenBack (s : State) (r : Nat) (y : HostRing) (es : List Emit) : State := (State.setRing { s with out := es } r y).writeBack r

theorem State.writtenBack_eq (s : State) (r : Nat) (y : HostRing) (es : List Emit) : s.writtenBack r y es = { s.setRing r y with
    out := es ++ [Emit.hostWrite (s.fld Fld.HST_RING_WB_addr r * 8) (leBytes y.devIndex 4 ++ leBytes s.clock.count 4)] } := by
  unfold State.writtenBack State.writeBack
  rw [State.hostRing_setRing]
  rfl

/-- The first waiting record of an ACTIVE ring with room: its data, the write-back word, then the vector of an armed ring (R527, R531). -/
theorem State.ringWrite_first {w : RingWrite} {rest : List RingWrite} (hwrites : (s.hostRing r).writes = w :: rest)
    (hup : s.host.linkUp = true) (hactive : (s.hostRing r).state = .active) (hroom : s.hasRingRoom r w) :
    let x := s.hostRing r
    let dev := (x.devIndex + ringEntries w.bytes) % 2 ^ 32
    s.ringWrite r = { s.setRing r (x.written w rest dev) with
      out := s.out ++ (ringPieces (s.fld Fld.HST_RING_BASE_base r * 4096) (s.ringSize r) x.devIndex w.bytes).map (fun p => Emit.hostWrite p.1 p.2) ++
        (Emit.hostWrite (s.fld Fld.HST_RING_WB_addr r * 8) (leBytes dev 4 ++ leBytes s.clock.count 4) ::
          if armedFires x.armed dev then [Emit.msix (ringFn r) (s.fld Fld.HST_RING_CTL_vector r) (s.now + 1)] else []) } := by
  intro x dev
  unfold State.ringWrite
  dsimp only
  rw [hwrites]
  dsimp only
  refine (if_neg ?_).trans ?_
  · have hguard : (match w.kind with
        | .reply _ => decide (ringEntries w.bytes ≤ s.ringFree r + (s.hostRing r).reserved)
        | _ => decide (ringEntries w.bytes ≤ s.ringFree r)) = true := by
      unfold State.hasRingRoom at hroom
      split <;> simpa [*] using hroom
    simp only [hup, hactive, Bool.not_true, Bool.false_or, bne_self_eq_false, Bool.not_eq_true', Bool.not_eq_false]
    exact hguard
  · rw [State.each_emit]
    refine (show _ = if armedFires x.armed dev then (State.writtenBack s r (x.written w rest dev) _).emit _ else
      State.writtenBack s r (x.written w rest dev) _ from rfl).trans ?_
    rw [State.writtenBack_eq]
    by_cases hfire : armedFires x.armed dev = true
    · rw [if_pos hfire, if_pos hfire]
      exact congrArg (fun es : List Emit => { s.setRing r (x.written w rest dev) with out := es }) (List.append_assoc ..)
    · rw [if_neg hfire, if_neg hfire]
      rfl

/-- The same where no vector is called for. -/
theorem State.ringWrite_quiet {w : RingWrite} {rest : List RingWrite} (hwrites : (s.hostRing r).writes = w :: rest)
    (hup : s.host.linkUp = true) (hactive : (s.hostRing r).state = .active) (hroom : s.hasRingRoom r w)
    (hquiet : armedFires (s.hostRing r).armed (((s.hostRing r).devIndex + ringEntries w.bytes) % 2 ^ 32) = false) :
    let x := s.hostRing r
    let dev := (x.devIndex + ringEntries w.bytes) % 2 ^ 32
    s.ringWrite r = { s.setRing r { x with devIndex := dev, reserved := x.reserved - w.reserved, writes := rest } with
      out := s.out ++ (ringPieces (s.fld Fld.HST_RING_BASE_base r * 4096) (s.ringSize r) x.devIndex w.bytes).map (fun p => Emit.hostWrite p.1 p.2) ++
        [Emit.hostWrite (s.fld Fld.HST_RING_WB_addr r * 8) (leBytes dev 4 ++ leBytes s.clock.count 4)] } := by
  intro x dev
  rw [State.ringWrite_first hwrites hup hactive hroom, HostRing.written_quiet hquiet, if_neg (Bool.eq_false_iff.mp hquiet)]

/-- The same where the ring is armed for an index that is passed. -/
theorem State.ringWrite_fires {w : RingWrite} {rest : List RingWrite} (hwrites : (s.hostRing r).writes = w :: rest)
    (hup : s.host.linkUp = true) (hactive : (s.hostRing r).state = .active) (hroom : s.hasRingRoom r w)
    (hfires : armedFires (s.hostRing r).armed (((s.hostRing r).devIndex + ringEntries w.bytes) % 2 ^ 32) = true) :
    let x := s.hostRing r
    let dev := (x.devIndex + ringEntries w.bytes) % 2 ^ 32
    s.ringWrite r = { s.setRing r { x with devIndex := dev, reserved := x.reserved - w.reserved, writes := rest, armed := none } with
      out := s.out ++ (ringPieces (s.fld Fld.HST_RING_BASE_base r * 4096) (s.ringSize r) x.devIndex w.bytes).map (fun p => Emit.hostWrite p.1 p.2) ++
        [Emit.hostWrite (s.fld Fld.HST_RING_WB_addr r * 8) (leBytes dev 4 ++ leBytes s.clock.count 4),
          Emit.msix (ringFn r) (s.fld Fld.HST_RING_CTL_vector r) (s.now + 1)] } := by
  intro x dev
  rw [State.ringWrite_first hwrites hup hactive hroom, HostRing.written_fires hfires, if_pos hfires]

end Sys2Proof.Machine
end

section
/-! Host rings (R520 to R522, R527, R530, R531). -/
namespace Sys2Proof.Machine

/-- Settles O54, by the cases of a doorbell (`doorbell_exec`), of a write of HST_RING_CTL (`writeRingCtl_stored`) and of the record that is
written (`State.ringWrite_first`). -/
theorem hostRings : Obligations.HostRings := by
  unfold Obligations.HostRings
  refine ⟨fun s t => ⟨fun fn slot data hintake hpower hlength hslot hfn hflr hlink hactive => ⟨fun hok => ?inRange, fun hbeyond => ?beyond⟩,
    fun fn w x fixed hfn hserved hfixed hstored => ⟨fun hen hreset hwas hmay => ?enable, fun hreset => ?reset⟩⟩,
    fun s t r w rest hreports hbuffer hwrites hup hactive hroom => ?write⟩
  case inRange =>
    have htaken : ∀ {y : HostRing}, { s.hostRing (16 * fn + slot) with
          hostIndex := fieldLE data 0 4
          armed := if s.ringKind (16 * fn + slot) != 0 && (byteAt data 4).testBit 0 then some (fieldLE data 0 4)
            else (s.hostRing (16 * fn + slot)).armed } = y →
        Leaves (.doorbell t fn slot data) s ((s.at t).setRing (16 * fn + slot) y) := by
      rintro y rfl
      have h := doorbell_exec (data := data) hintake hslot hfn hflr hlink
      dsimp only at h
      rw [State.idleWake_awake (s := s.at t) hpower] at h
      exact Leaves.of_eq h ((if_neg (not_or.mpr ⟨not_lt.mpr hlength, not_not.mpr hactive⟩)).trans
        (if_neg (by rw [hok]; nofun)))
    refine ⟨fun hsubmit => htaken ?_, fun hdevice harm => htaken ?_⟩
    · simp [hsubmit]
    · simp [hdevice, harm]
  case beyond => exact doorbell_error hintake hslot hfn hflr hlink hlength hactive hbeyond
  case enable =>
    have hx : x.host = s.host := storeFields_host hstored
    refine Leaves.of_eq rfl ((writeRingCtl_stored hfn hserved hfixed hstored).trans ((if_neg (by rw [hreset]; nofun)).trans
      ((if_neg (by rw [hwas]; nofun)).trans ((if_pos (by simp [hen, hwas, hmay])).trans ?_))))
    rw [if_neg (by simp [hmay]), State.ringOn, State.hostRing_of_host hx]
    rfl
  case reset =>
    have hx : x.host = s.host := storeFields_host hstored
    have hy : ∀ {c : Bool} (n : Nat), State.hostRing (if c then x.logAccess fn Reg.HST_RING_CTL.offset 5 else x) n = s.hostRing n := by
      intro c n
      rw [apply_ite (fun y : State => y.hostRing n), State.logAccess_hostRing, ite_self, State.hostRing_of_host hx]
    refine Answers.of_eq rfl ((writeRingCtl_stored hfn hserved hfixed hstored).trans (if_pos hreset)) ?_
    simp only [State.hostRing_settle, State.hostRing_of_host (State.setFld_host ..), State.fld_settle, State.hostRing_ringDisable]
    refine ⟨rfl, rfl, rfl, rfl, ?_, fun n hn => ?_⟩
    · exact State.fld_setFld_same _ _ _ _ (by decide) (by decide)
    · rw [State.hostRing_ringDisable_ne _ hn, hy]
  case write =>
    have hroom' : (s.at t).hasRingRoom r w := hroom
    have hflush : (s.at t).flushReports.flushTel = s.at t := by
      rw [State.flushReports_none (by rwa [State.at_scribes]), State.flushTel_none (by rwa [State.at_observe])]
    have hexec : exec (.hostRingWrite t r) s = .next ((s.at t).ringWrite r).settle :=
      congrArg (fun z : State => Host.Outcome.next (z.ringWrite r).settle) hflush
    refine ⟨fun harmed => Leaves.of_eq hexec (State.ringWrite_quiet (s := s.at t) hwrites hup hactive hroom' ?_),
      fun c harmed hpast hnear => Leaves.of_eq hexec (State.ringWrite_fires (s := s.at t) hwrites hup hactive hroom' ?_)⟩
    · rw [show ((s.at t).hostRing r).armed = none from harmed]
      rfl
    · rw [show ((s.at t).hostRing r).armed = some c from harmed, armedFires, Bool.and_eq_true, decide_eq_true_eq, decide_eq_true_eq]
      exact ⟨hpast, hnear⟩

end Sys2Proof.Machine
end

section
/-! What the resets of functions and the loss of the data link change: the host's rings, functions and windows, the commands that wait, and
registers; a ring stays as it was in state, or is DISABLED (R539, R540). -/
namespace Sys2Proof.Machine
variable {s x y : State} {f n : Nat}

/-- `s` with the host's rings, functions and windows, the FIFOs and the registers as `x` has them. -/
def State.hostAs (s x : State) : State :=
  { s with
      regs := x.regs, setBits := x.setBits, setAt := x.setAt, rc := x.rc, cmds := { s.cmds with fifos := x.cmds.fifos }
      host := { s.host with rings := x.host.rings, functions := x.host.functions, windows := x.host.windows }
      freeCounter := x.freeCounter }

/-- `x` comes of `s` by changes of that kind, and no ring has left DISABLED. -/
structure Calms (s x : State) : Prop where
  only : x = s.hostAs x
  ring : ∀ r, (x.hostRing r).state = (s.hostRing r).state ∨ (x.hostRing r).state = .disabled

theorem Calms.refl (s : State) : Calms s s := ⟨rfl, fun _ => .inl rfl⟩

theorem Calms.trans (h : Calms s x) (k : Calms x y) : Calms s y := by
  refine ⟨?_, fun r => ?_⟩
  · have hy := k.only
    rw [h.only] at hy
    exact hy
  · rcases k.ring r with hk | hk
    · rw [hk]
      exact h.ring r
    · exact .inr hk

theorem Calms.ite {c : Prop} [Decidable c] (h : Calms s x) (k : Calms s y) : Calms s (if c then x else y) := by
  split <;> assumption

theorem Calms.each {α : Type} {g : State → α → State} (hg : ∀ x a, Calms x (g x a)) (s : State) (xs : List α) : Calms s (s.each xs g) :=
  State.each_of_step Calms.refl Calms.trans hg s xs

/-- A ring that is DISABLED stays so. -/
theorem Calms.disabled {r : Nat} (h : Calms s x) (hr : (s.hostRing r).state = .disabled) : (x.hostRing r).state = .disabled := by
  rcases h.ring r with hk | hk
  · rw [hk, hr]
  · exact hk

theorem calms_setRing {r : Nat} {v : HostRing} (h : v.state = (s.hostRing r).state ∨ v.state = .disabled) : Calms s (s.setRing r v) := by
  refine ⟨rfl, fun k => ?_⟩
  by_cases hk : k = r
  · subst hk
    rwa [State.hostRing_setRing]
  · rw [State.hostRing_setRing_ne s v hk]
    exact .inl rfl

theorem calms_bump (s : State) (f : Fld) (n i : Nat) : Calms s (s.bump f n i) := ⟨rfl, fun _ => .inl rfl⟩

theorem calms_bumpHold (s : State) (f : Fld) (n i : Nat) : Calms s (s.bumpHold f n i) := ⟨rfl, fun _ => .inl rfl⟩

theorem calms_raise (s : State) (f : Fld) (i : Nat) : Calms s (s.raise f i) := ⟨rfl, fun _ => .inl rfl⟩

theorem calms_dropCommands (s : State) (f : Nat) : Calms s (s.dropCommands f) := ⟨rfl, fun _ => .inl rfl⟩

theorem calms_setFunction (s : State) (f : Nat) (v : Function) : Calms s (s.setFunction f v) := ⟨rfl, fun _ => .inl rfl⟩

theorem calms_windowsFresh (s : State) (fns : Nat → Bool) : Calms s (s.windowsFresh fns) := ⟨rfl, fun _ => .inl rfl⟩

/-! The rings of a function, one by one. -/

/-- The rings of a function (R519). -/
def fnRings (f : Nat) : List Nat := (List.range 16).map (fun i => 16 * f + i)

theorem mem_fnRings {i : Nat} (h : i < 16) : 16 * f + i ∈ fnRings f := List.mem_map.mpr ⟨i, List.mem_range.mpr h, rfl⟩

/-- The records of a ring that are no replies. -/
def HostRing.events (x : HostRing) : List RingWrite :=
  x.writes.filter (fun w => match w.kind with
    | .reply _ => false
    | _ => true)

/-- The replies that wait in a ring. -/
def HostRing.replies (x : HostRing) : List RingWrite :=
  x.writes.filter (fun w => match w.kind with
    | .reply _ => true
    | _ => false)

theorem HostRing.events_noReply {x : HostRing} {w : RingWrite} (h : w ∈ x.events) (e : Nat) : w.kind ≠ .reply e := by
  intro hk
  have hpass := (List.mem_filter.mp h).2
  rw [hk] at hpass
  exact absurd hpass Bool.false_ne_true

theorem HostRing.noReply_of_none {x : HostRing} (h : x.replies.isEmpty = true) {w : RingWrite} (hw : w ∈ x.writes) (e : Nat) :
    w.kind ≠ .reply e := by
  intro hk
  have hmem : w ∈ x.replies := List.mem_filter.mpr ⟨hw, by rw [hk]⟩
  rw [List.isEmpty_iff.mp h] at hmem
  exact absurd hmem (List.not_mem_nil)

/-- The replies of one ring are discarded and counted (R539). -/
def State.dropRing (s : State) (r : Nat) : State :=
  if (s.hostRing r).replies.isEmpty then s
  else (s.setRing r { s.hostRing r with writes := (s.hostRing r).events }).bumpHold Fld.HST_HOST_COUNT_flr_discarded
    (s.hostRing r).replies.length

theorem State.dropReplies_eq (s : State) (f : Nat) : s.dropReplies f = s.each (fnRings f) State.dropRing := rfl

/-- One ring at the end of an FLR (R539). -/
def State.freshRing (s : State) (r : Nat) : State := if s.host.rings.has r then s.setRing r (s.hostRing r).disabled else s

/-- The registers of one ring return to reset. -/
def State.ringRegsReset (s : State) (r : Nat) : State :=
  { s with regs := ((s.regs.del (Reg.key .HST_RING_BASE r)).del (Reg.key .HST_RING_WB r)).del (Reg.key .HST_RING_CTL r) }

/-- A function's copy of a select register returns to reset. -/
def State.selectReset (f : Nat) (s : State) (g : Reg) : State := { s with regs := s.regs.del (g.key f) }

theorem State.fnReset_eq (s : State) (f : Nat) : s.fnReset f =
    (((s.each (fnRings f) State.freshRing).each (fnRings f) State.ringRegsReset).each selectRegs (State.selectReset f)).setFunction f
      ⟨false, 0, ⟨0, 0, 0, 0, 0⟩⟩ := rfl

theorem calms_dropRing (s : State) (r : Nat) : Calms s (s.dropRing r) := by
  have hset : Calms s (s.setRing r { s.hostRing r with writes := (s.hostRing r).events }) := calms_setRing (.inl rfl)
  exact .ite (.refl s) (hset.trans (calms_bumpHold ..))

theorem calms_dropReplies (s : State) (f : Nat) : Calms s (s.dropReplies f) := .each calms_dropRing s _

theorem calms_freshRing (s : State) (r : Nat) : Calms s (s.freshRing r) := .ite (calms_setRing (.inr rfl)) (.refl s)

theorem calms_ringRegsReset (s : State) (r : Nat) : Calms s (s.ringRegsReset r) := ⟨rfl, fun _ => .inl rfl⟩

theorem calms_selectReset (f : Nat) (s : State) (g : Reg) : Calms s (State.selectReset f s g) := ⟨rfl, fun _ => .inl rfl⟩

theorem calms_fnReset (s : State) (f : Nat) : Calms s (s.fnReset f) := by
  rw [State.fnReset_eq]
  exact (((Calms.each calms_freshRing s _).trans (Calms.each calms_ringRegsReset _ _)).trans
    (Calms.each (calms_selectReset f) _ _)).trans (calms_setFunction _ _ _)

theorem calms_ringDisable (s : State) (r : Nat) : Calms s (s.ringDisable r) := by
  have hset : Calms s (s.setRing r (s.hostRing r).disabled) := calms_setRing (.inr rfl)
  unfold State.ringDisable State.when
  dsimp only
  split
  · exact hset.trans (calms_bump _ _ _ _)
  · exact hset

theorem State.ringOff_eq (s : State) (r : Nat) :
    s.ringOff r = (s.ringDisable r).setRing r { (s.ringDisable r).hostRing r with cause := (s.hostRing r).cause } := rfl

theorem calms_ringOff (s : State) (r : Nat) : Calms s (s.ringOff r) := by
  rw [State.ringOff_eq]
  exact (calms_ringDisable s r).trans (calms_setRing (.inl rfl))

end Sys2Proof.Machine
end

section
/-! What is reached: rings DISABLED, replies gone, functions at reset (R539, R540). -/
namespace Sys2Proof.Machine
variable {s x y : State} {f i n : Nat}

/-- What an action sets for its element, and every action keeps, holds for every element after a walk. -/
theorem State.each_reaches {α : Type} {g : State → α → State} {P : α → State → Prop} (sets : ∀ t a, P a (g t a))
    (keeps : ∀ t a b, P a t → P a (g t b)) {l : List α} {a : α} (s : State) (h : a ∈ l) : P a (s.each l g) := by
  have hkeep : ∀ (l : List α) (t : State), P a t → P a (t.each l g) := fun l => by
    induction l with
    | nil => exact fun t ht => ht
    | cons b l ih => exact fun t ht => ih (g t b) (keeps t a b ht)
  induction l generalizing s with
  | nil => exact absurd h List.not_mem_nil
  | cons b l ih =>
    rcases List.mem_cons.mp h with rfl | h
    · exact hkeep l _ (sets s a)
    · exact ih (g s b) h

/-- A walk whose actions keep the host interface keeps it. -/
theorem State.each_host {α : Type} {g : State → α → State} (hg : ∀ t a, (g t a).host = t.host) (s : State) (l : List α) :
    (s.each l g).host = s.host :=
  State.each_of_step (R := fun s x => x.host = s.host) (fun _ => rfl) (fun h k => k.trans h) hg s l

/-- A ring at the end of an FLR is DISABLED and holds nothing for replies (R539). -/
theorem State.freshRing_self (s : State) (r : Nat) :
    ((s.freshRing r).hostRing r).state = .disabled ∧ ((s.freshRing r).hostRing r).reserved = 0 := by
  unfold State.freshRing
  split
  · rw [State.hostRing_setRing]
    exact ⟨rfl, rfl⟩
  next hnone =>
    have hreset : s.hostRing r = HostRing.reset := by
      rw [Table.has, Bool.not_eq_true, Option.isSome_eq_false_iff, Option.isNone_iff_eq_none] at hnone
      rw [State.hostRing, Table.findD, hnone]
      rfl
    rw [hreset]
    exact ⟨rfl, rfl⟩

theorem State.freshRing_other {r k : Nat} (s : State) (h : r ≠ k) : (s.freshRing k).hostRing r = s.hostRing r := by
  unfold State.freshRing
  split
  · exact State.hostRing_setRing_ne s _ h
  · rfl

theorem State.hostRing_setFunction (s : State) (f : Nat) (v : Function) (n : Nat) : (s.setFunction f v).hostRing n = s.hostRing n := rfl

theorem State.ringRegsReset_host (s : State) (r : Nat) : (s.ringRegsReset r).host = s.host := rfl

theorem State.selectReset_host (f : Nat) (s : State) (g : Reg) : (State.selectReset f s g).host = s.host := rfl

theorem State.freshRings_ring (s : State) {l : List Nat} {r : Nat} (h : r ∈ l) :
    ((s.each l State.freshRing).hostRing r).state = .disabled ∧ ((s.each l State.freshRing).hostRing r).reserved = 0 := by
  refine State.each_reaches (P := fun r t => (t.hostRing r).state = .disabled ∧ (t.hostRing r).reserved = 0) State.freshRing_self
    (fun t a b ht => ?_) s h
  by_cases hab : a = b
  · rw [hab]
    exact t.freshRing_self b
  · rwa [t.freshRing_other hab]

theorem State.fnReset_ring (s : State) (f : Nat) (hi : i < 16) :
    ((s.fnReset f).hostRing (16 * f + i)).state = .disabled ∧ ((s.fnReset f).hostRing (16 * f + i)).reserved = 0 := by
  rw [State.fnReset_eq, State.hostRing_setFunction, State.hostRing_of_host (State.each_host (State.selectReset_host f) _ _),
    State.hostRing_of_host (State.each_host State.ringRegsReset_host _ _)]
  exact s.freshRings_ring (mem_fnRings hi)

theorem State.fnReset_function (s : State) (f : Nat) : ((s.fnReset f).function f).flr = false := by
  rw [State.fnReset_eq, State.function_setFunction]

/-- No reply waits in a ring whose replies are discarded (R539). -/
theorem State.dropRing_self (s : State) (r : Nat) : ∀ w ∈ ((s.dropRing r).hostRing r).writes, ∀ e, w.kind ≠ .reply e := by
  unfold State.dropRing
  split
  next h => exact fun w hw => HostRing.noReply_of_none h hw
  · intro w hw
    rw [State.hostRing_of_host (x := State.bumpHold _ _ _ _) (s := s.setRing r { s.hostRing r with writes := (s.hostRing r).events })
      rfl, State.hostRing_setRing] at hw
    exact HostRing.events_noReply hw

theorem State.dropRing_other {r k : Nat} (s : State) (h : r ≠ k) : (s.dropRing k).hostRing r = s.hostRing r := by
  unfold State.dropRing
  split
  · rfl
  · exact State.hostRing_setRing_ne s _ h

theorem State.dropReplies_ring (s : State) (f : Nat) (hi : i < 16) :
    ∀ w ∈ ((s.dropReplies f).hostRing (16 * f + i)).writes, ∀ e, w.kind ≠ .reply e := by
  rw [State.dropReplies_eq]
  refine State.each_reaches (P := fun r t => ∀ w ∈ (t.hostRing r).writes, ∀ e, w.kind ≠ .reply e) State.dropRing_self
    (fun t a b ht => ?_) s (mem_fnRings hi)
  by_cases hab : a = b
  · rw [hab]
    exact t.dropRing_self b
  · rwa [t.dropRing_other hab]

/-- The waiting commands of a function are dropped from the FIFOs of the host (R539). -/
theorem State.dropCommands_fifos (s : State) (f : Nat) :
    ∀ p ∈ (s.dropCommands f).cmds.fifos, 64 ≤ p.1 → p.1 < 9000 → ∀ c ∈ p.2, c.master ≠ f := by
  intro p hp hlo hhi c hc
  obtain ⟨q, -, hq⟩ := List.mem_map.mp hp
  by_cases hhost : (64 ≤ q.1 && decide (q.1 < 9000)) = true
  · rw [if_pos hhost] at hq
    subst hq
    simpa using (List.mem_filter.mp hc).2
  · rw [if_neg hhost] at hq
    subst hq
    exact absurd (by simp [hlo, hhi]) hhost

/-- The data link goes down: every ring is DISABLED (R540). -/
theorem State.ringsOff_disabled (s : State) (r : Nat) : ((s.each s.host.rings.keys State.ringOff).hostRing r).state = .disabled := by
  by_cases hr : r ∈ s.host.rings.keys
  · refine State.each_reaches (P := fun r t => (t.hostRing r).state = .disabled) (fun t a => ?_)
      (fun t a b ht => (calms_ringOff t b).disabled ht) s hr
    rw [State.ringOff_eq, State.hostRing_setRing, State.hostRing_ringDisable]
    rfl
  · refine (Calms.each calms_ringOff s _).disabled ?_
    have hnone : s.host.rings.find r = none := by
      by_contra hsome
      obtain ⟨v, hv⟩ := Option.ne_none_iff_exists'.mp hsome
      exact hr (Table.mem_keys_of_find hv)
    rw [State.hostRing, Table.findD, hnone]
    rfl

/-- What every function at reset leaves of the device (R539). -/
structure HostCleared (s x : State) : Prop where
  linkUp : x.host.linkUp = s.host.linkUp
  numVfs : x.host.numVfs = 0
  winPending : x.host.winPending = false
  tables : x.tables = s.tables
  dram : x.dram = s.dram
  clock : x.clock = s.clock
  power : x.power = s.power

/-- The functions of the host and its windows are cleared (R539). -/
def State.hostClear (s : State) : State :=
  State.windowsFresh { s with
    host := { s.host with winPending := false, numVfs := 0 }, due := s.due.filter (fun d => d.change != .winCommit) } (fun _ => true)

theorem Calms.cleared (h : Calms s x) : HostCleared s x.hostClear :=
  ⟨(congrArg (fun z : State => z.host.linkUp) h.only :), rfl, rfl, (congrArg State.tables h.only :), (congrArg State.dram h.only :),
    (congrArg State.clock h.only :), (congrArg State.power h.only :)⟩

/-- The commands and the replies of a function that wait are dropped (R539). -/
def State.dropWaiting (s : State) (f : Nat) : State := (s.dropCommands f).dropReplies f

theorem calms_dropWaiting (s : State) (f : Nat) : Calms s (s.dropWaiting f) := (calms_dropCommands s f).trans (calms_dropReplies _ f)

theorem State.hostFresh_eq (s : State) : s.hostFresh =
    ((s.each (List.range (s.host.numVfs + 1)) State.dropWaiting).each
      (List.range ((s.each (List.range (s.host.numVfs + 1)) State.dropWaiting).host.numVfs + 1)) State.fnReset).hostClear := rfl

theorem State.hostFresh_cleared (s : State) : HostCleared s s.hostFresh := by
  rw [State.hostFresh_eq]
  exact ((Calms.each calms_dropWaiting s _).trans (Calms.each calms_fnReset _ _)).cleared

end Sys2Proof.Machine
end

section
/-! Windows and functions; the data link (R512 to R516, R532, R539, R540). -/
namespace Sys2Proof.Machine

theorem Calms.link_numVfs {s x : State} (h : Calms s x) : x.host.linkUp = s.host.linkUp ∧ x.host.numVfs = s.host.numVfs :=
  ⟨(congrArg (fun z : State => z.host.linkUp) h.only :), (congrArg (fun z : State => z.host.numVfs) h.only :)⟩

theorem State.function_settle (s : State) (f : Nat) : s.settle.function f = s.function f := by
  rw [State.function, State.settle_host]
  rfl

theorem Calms.accepted {s x : State} (h : Calms s x) : x.cmds.accepted = s.cmds.accepted :=
  (congrArg (fun z : State => z.cmds.accepted) h.only :)

theorem State.function_raise (s : State) (g : Fld) (i f : Nat) : (s.raise g i).function f = s.function f := by
  rw [State.function, State.raise_host]
  rfl

theorem State.function_windowsFresh (s : State) (fns : Nat → Bool) (f : Nat) : (s.windowsFresh fns).function f = s.function f := rfl

theorem State.hostRing_windowsFresh (s : State) (fns : Nat → Bool) (r : Nat) : (s.windowsFresh fns).hostRing r = s.hostRing r := rfl

theorem State.setFunction_numVfs (s : State) (f : Nat) (v : Function) : (s.setFunction f v).host.numVfs = s.host.numVfs := rfl

theorem State.flrBegin_eq (s : State) (f : Nat) :
    s.flrBegin f = (s.dropWaiting f).setFunction f { (s.dropWaiting f).function f with flr := true } := rfl

theorem State.dropRing_cmds (s : State) (r : Nat) : (s.dropRing r).cmds = s.cmds := by
  unfold State.dropRing
  split <;> rfl

theorem State.dropReplies_cmds (s : State) (f : Nat) : (s.dropReplies f).cmds = s.cmds :=
  State.each_of_step (R := fun s x => x.cmds = s.cmds) (fun _ => rfl) (fun h k => k.trans h) State.dropRing_cmds s (fnRings f)

/-- The data link goes down (R540). -/
theorem State.dataLinkDown_up {s : State} (h : s.host.linkUp = true) :
    let x := s.each s.host.rings.keys State.ringOff
    s.dataLinkDown = { x with host := { x.host with
      linkUp := false, gen := 0, width := 0, flit := false, abandoned := 0, heldWrites := [], heldDoorbells := [], heldTlps := [] } }.raise
        Fld.HST_STATUS_link_lost := if_neg (by rw [h]; nofun)

theorem State.dataLinkDown_kept (s : State) : s.dataLinkDown.host.linkUp = false ∧ s.dataLinkDown.tables = s.tables ∧
    s.dataLinkDown.dram = s.dram ∧ s.dataLinkDown.clock = s.clock := by
  by_cases h : s.host.linkUp = true
  · have hcalm := Calms.each calms_ringOff s s.host.rings.keys
    rw [State.dataLinkDown_up h]
    exact ⟨rfl, (congrArg State.tables hcalm.only :), (congrArg State.dram hcalm.only :), (congrArg State.clock hcalm.only :)⟩
  · have hdown : s.dataLinkDown = s := if_pos (by simpa using h)
    rw [hdown]
    exact ⟨Bool.eq_false_iff.mpr h, rfl, rfl, rfl⟩

/-- A write of HST_WIN_CTL that commits (R532). -/
theorem Stores.winCommit {s x : State} {t : Nat} {w : Word64} (h : Stores s t .HST_WIN_CTL 0 w x)
    (hcommit : Fld.HST_WIN_CTL_commit.get w.toNat = 1) (hpending : s.host.winPending = false) :
    (s.at t).writeWinCtl 0 w.toNat fullMask =
      (if x.stagedOk then { x with host := { x.host with winPending := true, winResult := 0 }, due := s.due ++ [⟨(s.at t).dueTide, .winCommit⟩] }
        else { x with host := { x.host with winResult := 1 } }) := by
  have hx : x.host.winPending = false := by
    rw [h.only]
    exact hpending
  have hdue : x.due = s.due := (congrArg State.due h.only :)
  have htide : x.dueTide = (s.at t).dueTide := (congrArg State.dueTide h.only :)
  refine (State.goBit_of h Fld.HST_WIN_CTL_commit (fun _ => none) (fun x => x.host.winPending) State.requestCommit hcommit rfl hx).trans
    ((if_neg (by rw [hx]; nofun)).trans ?_)
  rw [← hdue, ← htide]
  rfl

/-- Settles O55: `Calms` says what a reset of functions can change, `State.fnReset_ring`, `State.dropReplies_ring` and
`State.ringsOff_disabled` what it reaches, `State.hostFresh_cleared` what a reset of the host leaves. -/
theorem functionsAndDataLink : Obligations.FunctionsAndDataLink := by
  unfold Obligations.FunctionsAndDataLink
  refine ⟨fun s t => ⟨fun w x hstores hcommit hpending => ⟨fun hok => ?commit, fun hbad => ?reject⟩,
    fun n hlink hrecovery => ⟨fun hnone hfits => ?enable, ?vfsGone⟩, fun fn hne hfn hlink => ?flr, fun fn hflr => ?flrEnd⟩,
    fun s => ⟨fun gen width flit hruns hdown hallowed => ?up, fun hlink => ⟨?down, ?hot⟩, ?perst⟩⟩
  case commit =>
    have hwrite := hstores.winCommit hcommit hpending
    exact Leaves.of_eq (congrArg (fun z : State => Host.Outcome.next z.settle) hwrite) (if_pos hok)
  case reject =>
    have hwrite := hstores.winCommit hcommit hpending
    exact Leaves.of_eq (congrArg (fun z : State => Host.Outcome.next z.settle) hwrite) (if_neg (Bool.eq_false_iff.mp hbad))
  case enable => exact Leaves.of_eq rfl ((if_neg (by simp [hlink, hrecovery])).trans ((if_pos rfl).trans (if_pos (by simp [hnone, hfits]))))
  case vfsGone =>
    have hcalm : Calms s (s.each ((List.range s.host.numVfs).map (fun i => i + 1)) (fun t f => (t.dropWaiting f).fnReset f)) :=
      Calms.each (fun t f => (calms_dropWaiting t f).trans (calms_fnReset _ f)) s _
    refine Answers.of_eq rfl ((if_neg (by simp [hlink, hrecovery])).trans (if_neg (by decide))) ?_
    rw [State.settle_host]
    refine ⟨rfl, hcalm.link_numVfs.1.trans hlink, fun f i hlo hhi hi => ?_⟩
    rw [State.hostRing_settle]
    refine State.each_reaches (P := fun f t => (t.hostRing (16 * f + i)).state = .disabled) (fun t a => (State.fnReset_ring _ a hi).1)
      (fun t a b ht => ((calms_dropWaiting t b).trans (calms_fnReset _ b)).disabled ht) s
      (List.mem_map.mpr ⟨f - 1, List.mem_range.mpr (by omega), by omega⟩)
  case flr =>
    have hcalm := calms_dropWaiting (s.at t) fn
    refine Answers.of_eq rfl ((if_neg (by simp [hlink, show (s.at t).hasFunction fn = true from hfn])).trans (if_neg hne)) ?_
    rw [State.flrBegin_eq, State.function_settle, State.settle_host, State.settle_cmds, State.setFunction_numVfs, State.setFunction_cmds,
      State.function_setFunction]
    refine ⟨rfl, hcalm.link_numVfs.2, hcalm.accepted, fun p hp => ?_, fun i hi => ?_⟩
    · rw [State.dropWaiting, State.dropReplies_cmds] at hp
      exact State.dropCommands_fifos (s.at t) fn p hp
    · rw [State.hostRing_settle, State.hostRing_setFunction]
      exact State.dropReplies_ring _ fn hi
  case flrEnd =>
    refine Answers.of_eq rfl (if_pos hflr) ?_
    refine ⟨?_, ?_, fun i hi => ?_⟩
    · rw [State.function_settle, State.function_raise, State.function_windowsFresh]
      exact s.fnReset_function fn
    · rw [State.bit_settle]
      exact State.bit_raise_same _ _ _ rfl (by decide) (by decide)
    · rw [State.hostRing_settle, State.hostRing_of_host (State.raise_host ..), State.hostRing_windowsFresh]
      exact State.fnReset_ring s fn hi
  case up =>
    obtain ⟨hlinkUp, hvfs, hwin, htables, hdram, hclock, hpower⟩ := s.hostFresh_cleared
    refine Answers.of_eq rfl (if_pos (by simp [hruns, hdown, hallowed])) ?_
    rw [State.settle_host, State.settle_power]
    exact ⟨rfl, rfl, rfl, rfl, rfl, hvfs⟩
  case down =>
    have hcalm := Calms.each calms_ringOff s s.host.rings.keys
    refine Answers.of_eq rfl (State.dataLinkDown_up hlink) ?_
    rw [State.settle_host, State.settle_search, State.settle_dram, State.bit_settle]
    refine ⟨rfl, rfl, rfl, State.bit_raise_same _ _ _ rfl (by decide) (by decide), fun r => ?_, hcalm.link_numVfs.2,
      (congrArg State.search hcalm.only :), (congrArg State.dram hcalm.only :)⟩
    rw [State.hostRing_settle]
    exact s.ringsOff_disabled r
  case hot =>
    obtain ⟨hlinkUp, hvfs, hwin, htables, hdram, hclock, hpower⟩ := s.hostFresh_cleared
    refine Answers.of_eq rfl (if_pos hlink) ?_
    rw [State.settle_host, State.settle_tables, State.settle_dram, State.bit_settle]
    exact ⟨hlinkUp.trans hlink, hvfs, hwin, State.bit_raise_same _ _ _ rfl (by decide) (by decide), htables, hdram⟩
  case perst =>
    obtain ⟨hlinkUp, hvfs, hwin, htables, hdram, hclock, hpower⟩ := s.dataLinkDown.hostFresh_cleared
    obtain ⟨hdown, htables', hdram', hclock'⟩ := s.dataLinkDown_kept
    refine Answers.of_eq rfl rfl ?_
    generalize s.dataLinkDown.hostFresh = y at *
    rw [State.settle_host, State.settle_power, State.settle_tables, State.settle_dram, State.settle_clock, State.bit_settle]
    exact ⟨hlinkUp.trans hdown, rfl, hvfs, State.bit_raise_same y Fld.PWR_RESET_CAUSE_perst 0 rfl (by decide) (by decide),
      htables.trans htables', hdram.trans hdram', hclock.trans hclock'⟩

end Sys2Proof.Machine
end

section
/-! Records of host rings and peer windows (R523 to R525, R533 to R536). -/
namespace Sys2Proof.Machine
variable {s x : State} {t r w off : Nat} {rec data : Bytes}

/-- The arrival of a record noted (R578, R582). -/
def Power.noted (p : Power) (grid : Nat) : Power :=
  { p with accepted := true, entry := p.entry.map (fun (e : PowerEntry) => { e with lastRecord := grid }) }

theorem State.noteRecord_awake (h : s.power.state = 0) : s.noteRecord = { s with power := s.power.noted s.clock.grid } := by
  unfold State.noteRecord
  rw [State.idleWake_awake h]
  rfl

/-- A search request as it waits, taken under a function and at least in a class (R188, R408, R524). -/
def State.waitingSearch (s : State) (src : Source) (master reply ringClass : Nat) (rec : Bytes) : Request :=
  ⟨src, master, s.now, s.clock.count, max (max (byteAt rec 1 % 4) ringClass) (s.berth (fieldLE rec 2 2 % 16384)).record.ceiling, rec, reply,
    false, false⟩

/-- A search request enters a device that is awake. -/
theorem State.enter_search (hawake : s.power.state = 0) (htype : byteAt rec 0 = 0x10) (src : Source) (master reply ringClass : Nat) :
    s.enter src master reply ringClass rec false false = { s with
      power := s.power.noted s.clock.grid
      search := { s.search with waiting := s.search.waiting ++ [s.waitingSearch src master reply ringClass rec] } } := by
  unfold State.enter
  rw [htype, State.noteRecord_awake hawake]
  rfl

theorem State.settle_fetched {h : HostIf} {p : Power} {q : SearchCore} {o : List Emit}
    (e : x = { s.at t with host := h, power := p, search := q, out := o }) : x.settle = { s with
      clock := (s.at t).clock, start := (s.at t).start, host := x.settle.host, power := x.settle.power, search := x.settle.search
      out := x.settle.out, pins := x.settle.pins, ring := x.settle.ring } := by
  subst e
  rfl

theorem State.settle_windowed {h : HostIf} {p : Power} {q : SearchCore} (e : x = { s.at t with host := h, power := p, search := q }) :
    x.settle = { s with
      clock := (s.at t).clock, start := (s.at t).start, host := x.settle.host, power := x.settle.power, search := x.settle.search
      pins := x.settle.pins, ring := x.settle.ring } := by
  subst e
  rfl

/-! A SUBMIT ring (R523, R524). -/

/-- A record taken from a SUBMIT ring: the device index passes it, its reply's entries are reserved, and its read leaves (R523). -/
def State.fetched (s : State) (r : Nat) (rec : Bytes) : State :=
  ((s.setRing r { s.hostRing r with
    devIndex := ((s.hostRing r).devIndex + (rec.length + 63) / 64) % 2 ^ 32, moved := true }).reserve (s.ringPair r) (reserveOf rec)).emit
      (.hostRead (s.fld Fld.HST_RING_BASE_base r * 4096 + 64 * ((s.hostRing r).devIndex % s.ringSize r)) rec.length)

theorem State.fetched_only (s : State) (r : Nat) (rec : Bytes) :
    s.fetched r rec = { s with host := (s.fetched r rec).host, out := (s.fetched r rec).out } := rfl

/-- A whole search request that waits on a SUBMIT ring, with room for its reply, is fetched. -/
theorem State.fetchRecord_search (hopen : s.intakeOpen = true) (hup : s.host.linkUp = true) (hactive : (s.hostRing r).state = .active)
    (hkind : s.ringKind r = 0) (hflr : (s.function (ringFn r)).flr = false) (htype : byteAt rec 0 = 0x10)
    (hlength : hostRecordLength rec = some rec.length) (hwhole : (rec.length + 63) / 64 ≤ (s.hostRing r).posted)
    (hposted : 0 < (s.hostRing r).posted) (hpair : s.ringActive (s.ringPair r) = true) (hpairKind : s.ringKind (s.ringPair r) = 1)
    (hroom : reserveOf rec ≤ s.ringFree (s.ringPair r)) :
    s.fetchRecord r rec = (s.fetched r rec).enter (.hostRing r) (ringFn r) (s.ticket (s.ringPair r)) (s.fld Fld.HST_RING_CTL_class r) rec
      false false := by
  have hshort : rec.length ≤ 1024 := by
    unfold hostRecordLength at hlength
    rw [htype] at hlength
    have := Option.some.inj hlength
    omega
  have hhalf : s.chunkHeld rec = false := by
    unfold State.chunkHeld
    rw [htype]
    rfl
  unfold State.fetchRecord
  dsimp only
  rw [hlength]
  dsimp only
  rw [List.take_length]
  refine (if_neg ?_).trans ((if_neg (not_lt.mpr hshort)).trans (if_neg ?_))
  · simp [hopen, hup, hactive, hkind, hflr, hposted.ne']
  · simp [hwhole, hpair, hpairKind, hroom, hhalf]

theorem State.fetched_rings (hne : s.ringPair r ≠ r) (rec : Bytes) :
    (s.fetched r rec).hostRing r = { s.hostRing r with
      devIndex := ((s.hostRing r).devIndex + (rec.length + 63) / 64) % 2 ^ 32, moved := true } ∧
    (s.fetched r rec).hostRing (s.ringPair r) = { s.hostRing (s.ringPair r) with
      reserved := (s.hostRing (s.ringPair r)).reserved + reserveOf rec } ∧
    ∀ n, n ≠ r → n ≠ s.ringPair r → (s.fetched r rec).hostRing n = s.hostRing n := by
  unfold State.fetched State.reserve
  simp only [State.hostRing_of_host (State.emit_host ..)]
  refine ⟨?_, ?_, fun n hn hp => ?_⟩
  · rw [State.hostRing_setRing_ne _ _ hne.symm, State.hostRing_setRing]
  · rw [State.hostRing_setRing, State.hostRing_setRing_ne _ _ hne]
  · rw [State.hostRing_setRing_ne _ _ hp, State.hostRing_setRing_ne _ _ hn]

/-! A peer window (R533 to R536). -/

/-- A record takes its bytes of the window's space and reserves its reply's entries (R535, R536). -/
def State.windowTaken (s : State) (w : Nat) (rec : Bytes) : State :=
  (s.setWindow w { s.window w with held := (s.window w).held + rec.length }).reserve
    (16 * (s.window w).active.fn + (s.window w).active.slot) (reserveOf rec)

theorem State.windowTaken_only (s : State) (w : Nat) (rec : Bytes) : s.windowTaken w rec = { s with host := (s.windowTaken w rec).host } := rfl

theorem State.window_setRing (s : State) (n w : Nat) (v : HostRing) : (s.setRing n v).window w = s.window w := rfl

theorem State.window_setWindow (s : State) (w : Nat) (v : Window) : (s.setWindow w v).window w = v := Table.findD_put_same ..

theorem State.window_settle (s : State) (w : Nat) : s.settle.window w = s.window w := by
  rw [State.window, State.settle_host]
  rfl

theorem State.windowTaken_window (s : State) (w : Nat) (rec : Bytes) :
    (s.windowTaken w rec).window w = { s.window w with held := (s.window w).held + rec.length } := by
  unfold State.windowTaken State.reserve
  rw [State.window_setRing, State.window_setWindow]

theorem State.windowTaken_ring (s : State) (w : Nat) (rec : Bytes) :
    ((s.windowTaken w rec).hostRing (16 * (s.window w).active.fn + (s.window w).active.slot)).reserved =
      (s.hostRing (16 * (s.window w).active.fn + (s.window w).active.slot)).reserved + reserveOf rec := by
  unfold State.windowTaken State.reserve
  rw [State.hostRing_setRing]
  rfl

/-- A write of one search request under the window's berth, that its space holds (R534, R535). -/
theorem State.windowTlp_search (hawake : s.power.state = 0) (hbar : s.host.pcie.bar2 = true) (hruns : s.engineRuns = true)
    (hwindow : s.noWindow (off / 0x100000 % 16) off data.length = false) (hsplit : splitRecords (data.length / 8 + 1) data = some [data])
    (htype : byteAt data 0 = 0x10) (hberth : fieldLE data 2 2 % 16384 = (s.window (off / 0x100000 % 16)).active.berth)
    (hspace : (s.window (off / 0x100000 % 16)).held + data.length ≤ 16384) :
    let w := off / 0x100000 % 16
    let a := (s.window w).active
    s.windowTlp off data = (s.windowTaken w data).enter (.window w) a.fn (s.ticket (16 * a.fn + a.slot)) 0 data false false := by
  intro w a
  have hberth' : recordBerth data = a.berth := by
    unfold recordBerth
    rw [htype]
    exact hberth
  unfold State.windowTlp
  dsimp only
  rw [State.idleWake_awake hawake, hsplit]
  refine (if_neg (by simp [hbar, hruns])).trans ((if_neg (by rw [hwindow]; nofun)).trans ((if_neg (not_lt.mpr hspace)).trans ?_))
  exact if_pos hberth'

end Sys2Proof.Machine
end

section
/-! Records fetched and TLPs of the peer windows (R523 to R525, R533 to R536). -/
namespace Sys2Proof.Machine

/-- Settles O35: a record fetched is `State.fetchRecord_search` and one written to a window `State.windowTlp_search`; both enter by
`State.enter_search`. -/
theorem ringsFetchedAndWindows : Obligations.RingsFetchedAndWindows := by
  unfold Obligations.RingsFetchedAndWindows
  refine ⟨fun s t r rec => ⟨fun hnone => ?nothing, fun hopen hawake hup hactive hkind hflr htype hlength hwhole hposted hne hpair hpairKind
    hroom => ?fetch⟩, fun s t off data hbar hlink => ⟨?credit, fun hsome hawake hintake hruns => ⟨fun hwindow hsplit htype hberth hspace => ?write,
      fun hwindow => ?outside⟩⟩⟩
  case nothing =>
    refine Leaves.of_eq rfl (if_pos ?_)
    rw [Bool.or_eq_true, decide_eq_true_eq]
    exact .inr hnone
  case fetch =>
    have hfetch := State.fetchRecord_search (s := s.at t) hopen hup hactive hkind hflr htype hlength hwhole hposted hpair hpairKind hroom
    have henter := State.enter_search (s := (s.at t).fetched r rec) hawake htype (.hostRing r) (ringFn r) ((s.at t).ticket (s.ringPair r))
      ((s.at t).fld Fld.HST_RING_CTL_class r)
    obtain ⟨hself, hother, hrest⟩ := State.fetched_rings (s := s.at t) hne rec
    refine Answers.of_eq rfl (hfetch.trans henter) ?_
    refine ⟨(State.hostRing_settle ..).trans hself, (State.hostRing_settle ..).trans hother,
      fun n hn hp => (State.hostRing_settle ..).trans (hrest n hn hp), State.settle_out _, State.settle_search _, State.settle_fetched rfl⟩
  case credit =>
    exact Leaves.of_eq rfl ((if_neg (by simp [hbar, hlink])).trans (if_pos rfl))
  case write =>
    have hwrite := State.windowTlp_search (s := s.at t) hawake hbar hruns hwindow hsplit htype hberth hspace
    have henter := State.enter_search (s := (s.at t).windowTaken (off / 0x100000 % 16) data) hawake htype (.window (off / 0x100000 % 16))
      (s.window (off / 0x100000 % 16)).active.fn ((s.at t).ticket (16 * (s.window (off / 0x100000 % 16)).active.fn +
        (s.window (off / 0x100000 % 16)).active.slot)) 0
    refine Answers.of_eq rfl ((if_neg (by simp [hbar, hlink])).trans ((if_neg (by simpa using hsome)).trans ((if_neg (by simp [hintake])).trans
      (hwrite.trans henter)))) ⟨?_, ?_, ?_, State.settle_windowed rfl⟩
    · exact (State.window_settle ..).trans (State.windowTaken_window ..)
    · exact (congrArg HostRing.reserved (State.hostRing_settle ..)).trans (State.windowTaken_ring ..)
    · rw [State.settle_search, State.waitingSearch, Nat.max_zero, ← hberth]
      rfl
  case outside =>
    refine Leaves.of_eq rfl ((if_neg (by simp [hbar, hlink])).trans ((if_neg (by simpa using hsome)).trans ((if_neg (by simp [hintake])).trans ?_)))
    unfold State.windowTlp
    dsimp only
    rw [State.idleWake_awake (s := s.at t) hawake]
    exact (if_neg (by simp [hbar, hruns])).trans (if_pos hwindow)

end Sys2Proof.Machine
end

section
/-! The pseudo-channels and the stacks: one changed, the others kept, and what is reported of them (R556 to R569). -/
namespace Sys2Proof.Machine
variable {s x : State} {pc n k t : Nat}

theorem State.pc_setPc (s : State) (n : Nat) (p : Pseudo) : (s.setPc n p).pc n = p := Table.findD_put_same ..

theorem State.pc_of_dramCtl (h : x.dramCtl = s.dramCtl) (n : Nat) : x.pc n = s.pc n := by rw [State.pc, State.pc, h]

theorem State.pc_settle (s : State) (n : Nat) : s.settle.pc n = s.pc n := State.pc_of_dramCtl (State.settle_dramCtl s) n

theorem State.memoryEvent_dramCtl (s : State) (event cls pc info addr temp : Nat) :
    (s.memoryEvent event cls pc info addr temp).dramCtl = s.dramCtl := State.postFault_dramCtl ..

theorem State.stack_of_dramCtl (h : x.dramCtl = s.dramCtl) (n : Nat) : x.stack n = s.stack n := by rw [State.stack, State.stack, h]

theorem State.stack_setStack (s : State) (hk : k < 2) (v : Stack) : (s.setStack n v).stack k = if k = n then v else s.stack k := by
  obtain rfl | rfl : k = 0 ∨ k = 1 := by omega
  · rfl
  · rfl

/-- An event of the memory that is raised and reported keeps the controller (R573). -/
theorem State.raised_dramCtl (s : State) (f : Fld) (event cls pc info addr temp : Nat) :
    ((s.raise f).memoryEvent event cls pc info addr temp).dramCtl = s.dramCtl :=
  (State.memoryEvent_dramCtl ..).trans (State.raise_dramCtl ..)

/-! A readout of the temperature of a stack (R557, R560). -/

/-- The temperature read, and the refresh rate that follows it (R557). -/
def Stack.paced (x : Stack) (temp : Int) : Stack :=
  { x with temp := temp, doubleNext := if 85 < temp then some true else if temp ≤ 83 then some false else x.doubleNext }

/-- A stack after a readout: over 95 degrees it is hot (R560). -/
def Stack.read (x : Stack) (temp : Int) : Stack :=
  if 95 < temp then { x.paced temp with hot := true, coolNext := false }
  else if temp ≤ 90 && x.hot then { x.paced temp with coolNext := true } else x.paced temp

/-- A stack over 95 degrees is reported. -/
def State.noteHot (s : State) (n : Nat) (temp : Int) : State :=
  if 95 < temp then (s.raise Fld.MEM_STATUS_hot_seen).memoryEvent 0x06 2 0 n 0 (twos temp 8) else s

theorem stackTempReadout_exec (t n : Nat) (temp : Int) :
    exec (.stackTempReadout t n temp) s = .next (((s.at t).setStack n ((s.stack n).read temp)).noteHot n temp).settle := by
  refine congrArg (fun z : State => Host.Outcome.next z.settle) ?_
  unfold State.noteHot Stack.read
  by_cases hhot : 95 < temp
  · simp only [hhot, if_true]
    rfl
  · simp only [hhot, if_false]
    exact (apply_ite ((s.at t).setStack n) ..).symm

theorem State.noteHot_dramCtl (s : State) (n : Nat) (temp : Int) : (s.noteHot n temp).dramCtl = s.dramCtl := by
  unfold State.noteHot
  split
  · exact State.raised_dramCtl ..
  · rfl

/-- ALERT_N is wanted while a stack is hot (R606). -/
theorem State.alertWanted_of_hot (h : (s.stack n).hot = true) (hn : n < s.dramCtl.stackStates.length) : s.alertWanted = true := by
  have hmem : s.stack n ∈ s.dramCtl.stackStates := by
    rw [State.stack, List.getD_eq_getElem _ _ hn]
    exact List.getElem_mem hn
  have hany : s.dramCtl.stackStates.any (·.hot) = true := List.any_eq_true.mpr ⟨_, hmem, h⟩
  unfold State.alertWanted
  rw [hany, Bool.or_true, Bool.true_or]

/-! What a readout sets. -/

theorem Stack.read_temp (x : Stack) (temp : Int) : (x.read temp).temp = temp := by
  unfold Stack.read
  split
  · rfl
  · split <;> rfl

theorem Stack.read_doubleNext (x : Stack) (temp : Int) :
    (x.read temp).doubleNext = if 85 < temp then some true else if temp ≤ 83 then some false else x.doubleNext := by
  unfold Stack.read
  split
  · rfl
  · split <;> rfl

theorem Stack.read_hot (x : Stack) (temp : Int) : (x.read temp).hot = if 95 < temp then true else x.hot := by
  unfold Stack.read
  split
  · rfl
  · split <;> rfl

theorem Stack.read_coolNext {x : Stack} {temp : Int} (hcool : temp ≤ 90) (hhot : x.hot = true) : (x.read temp).coolNext = true := by
  unfold Stack.read
  rw [if_neg (by omega), if_pos (by simp [hcool, hhot])]

/-! Refreshes, verifications and rebuilding (R556, R562 to R569). -/

/-- A refresh that falls due in this tide for the first time (R556). -/
theorem refreshDue_exec (hstroke : s.clock.stroke = 0)
    (hdue : s.clock.count % (s.stack (pc / 32)).period = pc % (s.stack (pc / 32)).period) (hnew : (s.pc pc).refreshAt ≠ some s.clock.grid) :
    let p := { s.pc pc with refreshAt := some s.clock.grid }
    exec (.refreshDue pc) s = .next (
      if s.panicking (pc / 32) && p.postponed < 8 then s.setPc pc { p with postponed := p.postponed + 1 }
      else if s.rtWaiting pc && p.postponed < 8 then s.setPc pc { p with refreshDue := true }
      else (s.setPc pc { p with refreshDue := false }).closeRows pc).settle := by
  refine congrArg (fun z : State => Host.Outcome.next z.settle) (if_neg ?_)
  simp [hstroke, hdue, hnew]

/-- A verification that has run its tides ends (R562). -/
theorem verifyEnd_exec {v : Verify} {ok : Bool} (hverify : (s.pc pc).verify = some v) (hended : v.ends ≤ s.clock.grid)
    (hfencing : (s.pc pc).fencing = false) :
    exec (.verifyEnd t pc ok) s = .next (if ok then (s.at t).verifyPass pc v else (s.at t).verifyFail pc v).settle := by
  refine congrArg (fun z : State => Host.Outcome.next z.settle) ?_
  have hverify' : ((s.at t).pc pc).verify = some v := hverify
  have hfencing' : ((s.at t).pc pc).fencing = false := hfencing
  rw [hverify']
  dsimp only
  rw [hfencing']
  refine if_neg ?_
  rw [Bool.or_false, decide_eq_true_eq]
  exact not_lt.mpr hended

/-- The watchdog's recovery is reported (R569). -/
def State.noteWatchdog (s : State) (pc : Nat) (watchdog : Bool) : State :=
  if watchdog then ((s.bump Fld.MEM_ERR_COUNT_watchdog).raise Fld.MEM_STATUS_watchdog).memoryEvent 0x05 1 pc 0 0 0 else s

theorem State.noteWatchdog_dramCtl (s : State) (pc : Nat) (watchdog : Bool) : (s.noteWatchdog pc watchdog).dramCtl = s.dramCtl := by
  unfold State.noteWatchdog
  split
  · exact (State.raised_dramCtl ..).trans (State.bump_dramCtl ..)
  · rfl

theorem State.noteWatchdog_dram (s : State) (pc : Nat) (watchdog : Bool) : (s.noteWatchdog pc watchdog).dram = s.dram := by
  unfold State.noteWatchdog
  split
  · exact (State.postFault_dram ..).trans ((State.raise_dram ..).trans (State.bump_dram ..))
  · rfl

/-- A spare begins to serve, and its rebuild starts (R566). -/
def State.startRebuild (s : State) (pc place : Nat) : State :=
  let x := s.setPc pc { s.pc pc with verify := none, state := .rebuilding, serves := place }
  { x with dramCtl := { x.dramCtl with rebuilds := x.dramCtl.rebuilds ++ [⟨place, pc, 0, 0, s.clock.grid⟩] } }

theorem State.verifyPass_spare {v : Verify} {place : Nat} (h : v.spareFor = some place) :
    s.verifyPass pc v = (s.startRebuild pc place).noteWatchdog pc v.watchdog := by
  unfold State.verifyPass
  rw [h]
  rfl

theorem State.verifyPass_plain {v : Verify} (h : v.spareFor = none) :
    s.verifyPass pc v = (s.setPc pc { s.pc pc with verify := none }).noteWatchdog pc v.watchdog := by
  unfold State.verifyPass
  rw [h]
  rfl

/-- A verification that fails tries the next valid set (R564). -/
theorem State.verifyFail_tries {v : Verify} (h : s.nextSet pc (v.failed ++ [(s.pc pc).set]) = some k) :
    s.verifyFail pc v = ((s.setPc pc { s.pc pc with
      fails := min 15 ((s.pc pc).fails + 1), set := k
      verify := some { v with
        failed := v.failed ++ [(s.pc pc).set], ends := s.clock.grid + (if s.clockRuns then 12 else 0) } }).raise
          Fld.MEM_STATUS_set_changed).memoryEvent 0x01 0 pc k 0 0 := by
  unfold State.verifyFail
  dsimp only
  rw [h]

/-- Where no set is left the pseudo-channel is fenced at the next boundary (R565). -/
theorem State.verifyFail_fences {v : Verify} (h : s.nextSet pc (v.failed ++ [(s.pc pc).set]) = none) :
    s.verifyFail pc v = { s.setPc pc { s.pc pc with
      fails := min 15 ((s.pc pc).fails + 1), fencing := true, verify := some { v with failed := v.failed ++ [(s.pc pc).set] } } with
        due := s.due ++ [⟨s.clock.grid + 1, .pcFence pc⟩] } := by
  unfold State.verifyFail
  dsimp only
  rw [h]

/-- A rebuild goes on in a new tide (R566). -/
theorem rebuildStripes_exec {r : Rebuild} {rest : List Rebuild} (hrebuilds : s.dramCtl.rebuilds = r :: rest) (hnew : r.tide ≠ s.clock.grid) :
    let m := min (min n 64) (groupStripes - r.next)
    exec (.rebuildStripes t n) s = .next (
      if groupStripes ≤ r.next + m then
        let x := { s.at t with dramCtl := { s.dramCtl with rebuilds := rest } }
        (x.setPc r.spare { x.pc r.spare with state := .inService }).memoryEvent 0x03 0 r.spare 0 0 0
      else { s.at t with dramCtl := { s.dramCtl with rebuilds := { r with next := r.next + m, tideCount := m, tide := s.clock.grid } :: rest } }).settle := by
  refine congrArg (fun z : State => Host.Outcome.next z.settle) ?_
  have hrebuilds' : (s.at t).dramCtl.rebuilds = r :: rest := hrebuilds
  have hused : (if r.tide = (s.at t).clock.grid then r.tideCount else 0) = 0 := if_neg hnew
  rw [hrebuilds']
  dsimp only
  rw [hused]
  simp only [Nat.zero_add, Nat.sub_zero]
  rfl

end Sys2Proof.Machine
end

section
/-! The care of the DRAM (R556 to R569). -/
namespace Sys2Proof.Machine

/-- Settles O27: a refresh has the cases of `refreshDue_exec`, a readout is `stackTempReadout_exec`, and a verification ends as
`State.verifyPass_plain` and `State.verifyPass_spare` give, or as it fails. -/
theorem dramCare : Obligations.DramCare := by
  unfold Obligations.DramCare
  refine fun s => ⟨fun pc hstroke hdue hnew => ⟨fun hpanic hfew => ?postponed, fun hcalm hwait hfew => ?waits, fun hissue => ?issued⟩,
    fun t n temp hn => ?temp, fun pc hcount hstate hidle hfencing hpower => ?starts,
    fun t pc v hverify hended hfencing => ⟨fun hplain hdog => ?passes, fun hplain hdog => ?resumes, fun place hspare => ?serves,
      fun k hnext => ?tries, fun hnone => ?fences⟩,
    fun t n r rest hrebuilds hnew => ⟨fun hmore => ?goesOn, fun hlast => ?ends⟩, fun t pc hfenced hspare hfencing => ?watchdog⟩
  case postponed => exact Leaves.of_eq (refreshDue_exec hstroke hdue hnew) (if_pos (by simp [hpanic, hfew]))
  case waits =>
    exact Leaves.of_eq (refreshDue_exec hstroke hdue hnew) ((if_neg (by simp [hcalm])).trans (if_pos (by simp [hwait, hfew])))
  case issued =>
    refine Leaves.of_eq (refreshDue_exec hstroke hdue hnew) ((if_neg ?_).trans (if_neg ?_))
    all_goals
      rw [Bool.and_eq_true, decide_eq_true_eq]
      rintro ⟨hyes, hfew⟩
      rcases hissue with hmany | ⟨hcalm, hquiet⟩
      · exact absurd hfew (not_lt.mpr hmany)
    · exact Bool.false_ne_true (hcalm.symm.trans hyes)
    · exact Bool.false_ne_true (hquiet.symm.trans hyes)
  case temp =>
    have hctl := State.noteHot_dramCtl ((s.at t).setStack n ((s.stack n).read temp)) n temp
    have hstack : ∀ k, k < 2 → (((s.at t).setStack n ((s.stack n).read temp)).noteHot n temp).stack k =
        if k = n then (s.stack n).read temp else s.stack k := fun k hk =>
      (State.stack_of_dramCtl hctl k).trans (State.stack_setStack (s.at t) hk _)
    have hself := hstack n hn
    have hother := hstack (1 - n) (by omega)
    rw [if_pos rfl] at hself
    rw [if_neg (by omega)] at hother
    refine Answers.of_eq (stackTempReadout_exec t n temp) rfl ?_
    rw [State.stack_of_dramCtl (State.settle_dramCtl _), State.stack_of_dramCtl (State.settle_dramCtl _), hself, hother, State.bit_settle,
      Stack.read_temp, Stack.read_doubleNext, Stack.read_hot]
    refine ⟨rfl, fun h => if_pos h, fun h => ?_, fun h => ⟨if_pos h, ?_⟩, fun h _ => ?_, fun h => if_neg (by omega),
      fun h hhot => Stack.read_coolNext h hhot, rfl⟩
    · rw [if_neg (by omega), if_pos h]
    · refine State.settle_alert_of_wanted (State.alertWanted_of_hot (n := n) ?_ ?_)
      · rw [hself, Stack.read_hot, if_pos h]
      · rw [hctl]
        exact hn
    · unfold State.noteHot
      rw [if_pos h]
      exact State.bit_raise_postFault _ _ _ _ _ rfl (by decide) (by decide)
  case starts =>
    refine Leaves.of_eq rfl (if_pos ?_)
    simpa [hcount, hidle, hfencing, hpower] using hstate
  case passes =>
    refine Leaves.of_eq (verifyEnd_exec hverify hended hfencing) ((if_pos rfl).trans ((State.verifyPass_plain hplain).trans ?_))
    rw [hdog]
    rfl
  case resumes =>
    refine Answers.of_eq (verifyEnd_exec hverify hended hfencing) ((if_pos rfl).trans (State.verifyPass_plain hplain)) ?_
    rw [hdog, State.pc_settle, State.pc_of_dramCtl (State.noteWatchdog_dramCtl ..), State.pc_setPc, State.bit_settle, State.settle_dram,
      State.noteWatchdog_dram]
    exact ⟨rfl, rfl, State.bit_raise_postFault _ _ _ _ _ rfl (by decide) (by decide), rfl⟩
  case serves =>
    refine Answers.of_eq (verifyEnd_exec hverify hended hfencing) ((if_pos rfl).trans (State.verifyPass_spare hspare)) ?_
    rw [State.pc_settle, State.pc_of_dramCtl (State.noteWatchdog_dramCtl ..), State.settle_dramCtl, State.noteWatchdog_dramCtl]
    have hpc : ((s.at t).startRebuild pc place).pc pc = { s.pc pc with verify := none, state := .rebuilding, serves := place } :=
      State.pc_setPc ..
    rw [hpc]
    exact ⟨rfl, rfl, rfl, rfl⟩
  case tries =>
    refine Answers.of_eq (verifyEnd_exec hverify hended hfencing) ((if_neg Bool.false_ne_true).trans (State.verifyFail_tries (s := s.at t) hnext)) ?_
    rw [State.pc_settle, State.pc_of_dramCtl (State.raised_dramCtl ..), State.pc_setPc, State.bit_settle, State.settle_due]
    exact ⟨rfl, rfl, ⟨_, rfl, rfl⟩, State.bit_raise_postFault _ _ _ _ _ rfl (by decide) (by decide),
      (State.postFault_due ..).trans (State.raise_due ..)⟩
  case fences =>
    refine Answers.of_eq (verifyEnd_exec hverify hended hfencing) ((if_neg Bool.false_ne_true).trans (State.verifyFail_fences (s := s.at t) hnone)) ?_
    rw [State.pc_settle, State.settle_due]
    exact ⟨congrArg Pseudo.fencing (State.pc_setPc ..), rfl⟩
  case goesOn => 
    refine Leaves.of_eq (rebuildStripes_exec hrebuilds hnew) (if_neg (not_le.mpr hmore))
  case ends =>
    refine Answers.of_eq (rebuildStripes_exec hrebuilds hnew) (if_pos hlast) ?_
    rw [State.pc_settle, State.pc_of_dramCtl (State.memoryEvent_dramCtl ..), State.pc_setPc, State.settle_dramCtl, State.memoryEvent_dramCtl]
    exact ⟨rfl, rfl⟩
  case watchdog => exact Leaves.of_eq rfl (if_neg (by simp [show ((s.at t).pc pc) = s.pc pc from rfl, hfenced, hspare, hfencing]))

end Sys2Proof.Machine
end

section
/-! Memory reads what was written, and what lies apart stays (R584). -/
namespace Sys2Proof.Machine
variable {s x : State} {k : Nat} {l : List (Nat × Nat)}

/-- Bytes read where they were written. -/
theorem Memory.read_write_same (m : Memory) (a : Nat) (bs : Bytes) (h : m.wf = true) : (m.write a bs).read a bs.length = bs := by
  induction bs generalizing m a with
  | nil => rfl
  | cons b bs ih =>
    have hset := Memory.wf_set m a b h
    have hhead : ((m.set a b).write (a + 1) bs).get a = b := by
      rw [Memory.get_write_outside _ (a + 1) a bs hset (.inl (Nat.lt_succ_self a)), Memory.get_set m a a b h, if_pos rfl]
    exact congrArg₂ List.cons hhead (ih (m.set a b) (a + 1) hset)

/-- Bytes read apart from those that were written. -/
theorem Memory.read_write_apart (m : Memory) {a b n : Nat} {bs : Bytes} (h : m.wf = true) (hab : b + n ≤ a ∨ a + bs.length ≤ b) :
    (m.write a bs).read b n = m.read b n := by
  induction n generalizing b with
  | zero => rfl
  | succ n ih =>
    exact congrArg₂ List.cons (Memory.get_write_outside m a b bs h (by omega)) (ih (by omega))

/-! The narrow counters folded into the wide ones. -/

/-- One narrow counter folded. -/
def State.foldOne (s : State) (p : Nat × Nat) : State := (s.setWide p.1 (s.wide p.1 + p.2)).setNarrow p.1 0

theorem State.bulkFold_eq (s : State) (reads : List StripeRead) :
    s.bulkFold reads = (s.each reads State.foldStripe).each (s.each reads State.foldStripe).counters.narrow State.foldOne := rfl

theorem dramOnly_foldStripe (s : State) (r : StripeRead) : DramOnly s (s.foldStripe r) := by
  unfold State.foldStripe
  extract_lets base e s1
  have h1 : DramOnly s s1 := (dramOnly_countFlags ..).trans (dramOnly_countEnd ..)
  exact .ite (.refl s) (.ite (h1.trans (.each (fun x i => dramOnly_dramWrite x _ _) s1 _)) h1)

theorem State.foldOne_narrow_same (s : State) (p : Nat × Nat) : (s.foldOne p).narrowCount p.1 = 0 :=
  State.narrowCount_setNarrow_same ..

theorem State.foldOne_narrow_other (s : State) {p : Nat × Nat} (h : k ≠ p.1) : (s.foldOne p).narrowCount k = s.narrowCount k := by
  unfold State.foldOne
  rw [State.narrowCount_setNarrow_ne _ _ h, State.narrowCount, State.setWide_counters]
  rfl

/-- Every narrow counter reads 0 after the fold. -/
theorem State.foldAll_narrow (s : State) {p : Nat × Nat} (h : p ∈ l) : (s.each l State.foldOne).narrowCount p.1 = 0 := by
  refine State.each_reaches (P := fun p t => t.narrowCount p.1 = 0) State.foldOne_narrow_same (fun t a b ht => ?_) s h
  by_cases hab : a.1 = b.1
  · rw [hab]
    exact State.foldOne_narrow_same t b
  · rw [State.foldOne_narrow_other t hab]
    exact ht

/-- No pseudo-channel can lose a column, and DRAM has its canonical form. -/
structure State.DramQuiet (s : State) : Prop where
  pcs : s.dramCtl.pcs = []
  wf : s.dram.wf = true

theorem State.DramQuiet.foldOne_dram (h : s.DramQuiet) (p : Nat × Nat) :
    (s.foldOne p).dram = s.dram.write (wideAddr p.1) (leBytes ((s.wide p.1 + p.2) % 2 ^ 64) 8) := by
  have hset : (s.foldOne p).dram = (s.setWide p.1 (s.wide p.1 + p.2)).dram := rfl
  rw [hset, State.setWide_dram, State.spoil_quiet h.pcs]

theorem State.DramQuiet.foldOne (h : s.DramQuiet) (p : Nat × Nat) : (s.foldOne p).DramQuiet :=
  ⟨State.dramWrite_quiet h.pcs _ _, by
    rw [h.foldOne_dram]
    exact Memory.wf_write _ _ _ h.wf⟩

theorem State.DramQuiet.foldOne_wide_same (h : s.DramQuiet) (p : Nat × Nat) :
    (s.foldOne p).wide p.1 = (s.wide p.1 + p.2) % 2 ^ 64 := by
  have hread := Memory.read_write_same s.dram (wideAddr p.1) (leBytes ((s.wide p.1 + p.2) % 2 ^ 64) 8) h.wf
  rw [length_leBytes] at hread
  rw [State.wide, h.foldOne_dram, hread, leNat_leBytes_mod]
  exact Nat.mod_mod _ _

theorem State.DramQuiet.foldOne_wide_other (h : s.DramQuiet) {p : Nat × Nat} (hk : k ≠ p.1) : (s.foldOne p).wide k = s.wide k := by
  rw [State.wide, h.foldOne_dram, Memory.read_write_apart s.dram h.wf]
  · rfl
  · rw [length_leBytes]
    unfold wideAddr
    omega

/-- A number that is not folded keeps its wide counter. -/
theorem State.DramQuiet.foldAll_wide_other (h : s.DramQuiet) (hk : k ∉ l.map Prod.fst) : (s.each l State.foldOne).wide k = s.wide k := by
  induction l generalizing s with
  | nil => rfl
  | cons p l ih =>
    obtain ⟨hp, hl⟩ := not_or.mp (mt List.mem_cons.mpr hk)
    exact (ih (h.foldOne p) hl).trans (h.foldOne_wide_other hp)

/-- Every number that is folded has its narrow count added (R584). -/
theorem State.DramQuiet.foldAll_wide (h : s.DramQuiet) (hl : (l.map Prod.fst).Nodup) {p : Nat × Nat} (hp : p ∈ l) :
    (s.each l State.foldOne).wide p.1 = (s.wide p.1 + p.2) % 2 ^ 64 := by
  induction l generalizing s with
  | nil => exact absurd hp List.not_mem_nil
  | cons q l ih =>
    obtain ⟨hq, hl⟩ := List.nodup_cons.mp hl
    rcases List.mem_cons.mp hp with rfl | hp
    · exact ((h.foldOne p).foldAll_wide_other hq).trans (h.foldOne_wide_same p)
    · have hne : p.1 ≠ q.1 := fun heq => hq (heq ▸ List.mem_map_of_mem hp)
      have hsum := ih (h.foldOne q) hl hp
      rw [h.foldOne_wide_other hne] at hsum
      exact hsum

end Sys2Proof.Machine
end

section
/-! The lanes of the quays go quiet at the end of an entry (R480, R582). -/
namespace Sys2Proof.Machine
variable {s x : State} {p k : Port}

theorem State.quietLink_eq (hoff : (s.link p).state ≠ .off) (hfailed : (s.link p).state ≠ .failed) :
    s.quietLink p = (s.linkDown p 4).setLink p { (s.linkDown p 4).link p with state := .down } :=
  if_neg (by simp [hoff, hfailed])

theorem State.quietLink_none (h : (s.link p).state = .off ∨ (s.link p).state = .failed) : s.quietLink p = s :=
  if_pos (by simpa using h)

theorem linksOnly_quietLink (s : State) (p : Port) : LinksOnly s (s.quietLink p) :=
  .ite (.refl s) ((linksOnly_linkDown ..).trans (linksOnly_setLink ..))

theorem State.linkDown_other (h : k ≠ p) (cause : Nat) : ((s.linkDown p cause).link k).up = (s.link k).up := by
  by_cases hp : (s.link p).state = .off ∨ (s.link p).state = .failed
  · rw [State.linkDown_none hp]
  · obtain ⟨hoff, hfailed⟩ := not_or.mp hp
    obtain ⟨tx, n, hlink⟩ := State.afterDown_other (s := s) h cause
    rw [State.linkDown_eq hoff hfailed, State.bringUp_other h, hlink]
    rfl

/-- A link that has gone quiet is not UP. -/
theorem State.quietLink_self (s : State) (p : Port) : ((s.quietLink p).link p).up = false := by
  by_cases hp : (s.link p).state = .off ∨ (s.link p).state = .failed
  · rw [State.quietLink_none hp]
    rcases hp with hp | hp <;> simp [Link.up, hp]
  · obtain ⟨hoff, hfailed⟩ := not_or.mp hp
    have hon : ((s.linkDown p 4).link p).state ≠ .off := by
      rw [(State.linkDown_wentDown hoff hfailed 4).state]
      split <;> nofun
    rw [State.quietLink_eq hoff hfailed, State.link_setLink_on hon]
    rfl

theorem State.quietLink_other (h : k ≠ p) : ((s.quietLink p).link k).up = (s.link k).up := by
  by_cases hp : (s.link p).state = .off ∨ (s.link p).state = .failed
  · rw [State.quietLink_none hp]
  · obtain ⟨hoff, hfailed⟩ := not_or.mp hp
    rw [State.quietLink_eq hoff hfailed, State.link_setLink_ne _ _ _ _ h, State.linkDown_other h]

/-- A link that is not UP is not brought up as another goes quiet. -/
theorem State.quietLink_keeps (p : Port) (h : (s.link k).up = false) : ((s.quietLink p).link k).up = false := by
  by_cases hkp : k = p
  · rw [hkp]
    exact State.quietLink_self s p
  · rw [State.quietLink_other hkp, h]

theorem linksOnly_quietQuays (s : State) : LinksOnly s s.quietQuays := .each (fun x q => linksOnly_quietLink x (.quay q)) s _

/-- No quay is UP once they have gone quiet. -/
theorem State.quietQuays_link (s : State) (q : Nat) : (s.quietQuays.link (.quay q)).up = false := by
  by_cases hq : q ∈ s.links.quays.keys
  · exact State.each_reaches (P := fun q t => (t.link (.quay q)).up = false) (fun t a => State.quietLink_self t _)
      (fun t a b ht => State.quietLink_keeps _ ht) s hq
  · have hnone : s.links.quays.find q = none := by
      by_contra hsome
      obtain ⟨v, hv⟩ := Option.ne_none_iff_exists'.mp hsome
      exact hq (Table.mem_keys_of_find hv)
    have hreset : (s.link (.quay q)).up = false := by
      rw [State.link, Table.findD, hnone]
      rfl
    exact State.each_of_step (R := fun s x => (s.link (.quay q)).up = false → (x.link (.quay q)).up = false) (fun _ h => h)
      (fun h k hs => k (h hs)) (fun x a => State.quietLink_keeps _) s _ hreset

end Sys2Proof.Machine
end

section
/-! The device at rest (R571, R572, R576, R582). -/
namespace Sys2Proof.Machine
variable {s x : State}

theorem LinksOnly.power (h : LinksOnly s x) : x.power = s.power := (congrArg State.power h.eq :)

theorem LinksOnly.host (h : LinksOnly s x) : x.host = s.host := (congrArg State.host h.eq :)

theorem LinksOnly.learning (h : LinksOnly s x) : x.learning = s.learning := (congrArg State.learning h.eq :)

theorem LinksOnly.fuses (h : LinksOnly s x) : x.fuses = s.fuses := (congrArg State.fuses h.eq :)

/-- `s` at rest in a low state. -/
def State.resting (s : State) (target : Nat) : State :=
  { s with power := { s.power with state := target, entry := none, heldWake := none, idleAt := none } }

/-- No wake event was held: the device rests. -/
theorem State.rest_eq (h : s.power.heldWake = none) (target : Nat) : s.rest target = s.resting target := by
  unfold State.rest
  simp only [h]
  rfl

/-- The end of an entry to Retain or Deep, up to its rest. -/
def State.lulled (s : State) : State := s.quietQuays.dataLinkDown.emptyHot.selfRefresh.recordTide

theorem Calms.power {s x : State} (h : Calms s x) : x.power = s.power := (congrArg State.power h.only :)

theorem Calms.links {s x : State} (h : Calms s x) : x.links = s.links := (congrArg State.links h.only :)

theorem Calms.learning {s x : State} (h : Calms s x) : x.learning = s.learning := (congrArg State.learning h.only :)

/-- What the loss of the data link leaves of the power, the links and the learning. -/
theorem State.dataLinkDown_apart (s : State) : s.dataLinkDown.power = s.power ∧ s.dataLinkDown.links = s.links ∧
    s.dataLinkDown.learning = s.learning := by
  by_cases h : s.host.linkUp = true
  · have hcalm := Calms.each calms_ringOff s s.host.rings.keys
    rw [State.dataLinkDown_up h]
    exact ⟨hcalm.power, hcalm.links, hcalm.learning⟩
  · have hdown : s.dataLinkDown = s := if_pos (by simpa using h)
    rw [hdown]
    exact ⟨rfl, rfl, rfl⟩

theorem State.recordTide_power (s : State) :
    s.recordTide.power = { s.power with tideRecord := s.clock.count, rtcRecord := s.power.rtc } := rfl

theorem State.link_of_links (h : x.links = s.links) (p : Port) : x.link p = s.link p := by
  unfold State.link
  rw [h]

/-- What the end of an entry to Retain or Deep leaves, up to its rest. -/
structure Lulled (s x : State) : Prop where
  linkUp : x.host.linkUp = false
  lines : x.hot.lines = []
  power : x.power = { s.power with tideRecord := s.clock.count, rtcRecord := s.power.rtc }
  learning : x.learning = s.learning
  link : ∀ q, (x.link (.quay q)).up = false

theorem State.lulled_lulled (s : State) : Lulled s s.lulled := by
  have hquiet := linksOnly_quietQuays s
  obtain ⟨hup, -, -, hclock⟩ := s.quietQuays.dataLinkDown_kept
  obtain ⟨hpower, hlinks, hlearning⟩ := s.quietQuays.dataLinkDown_apart
  have hrecord : s.lulled.power = { s.quietQuays.dataLinkDown.power with
      tideRecord := s.quietQuays.dataLinkDown.clock.count, rtcRecord := s.quietQuays.dataLinkDown.power.rtc } := rfl
  refine ⟨hup, rfl, ?_, hlearning.trans hquiet.learning, fun q => ?_⟩
  · rw [hrecord, hpower, hclock, hquiet.power, hquiet.clock]
  · have hlink : s.lulled.link (.quay q) = s.quietQuays.link (.quay q) := State.link_of_links hlinks (.quay q)
    rw [hlink]
    exact s.quietQuays_link q

theorem State.sleep_eq (h : s.power.heldWake = none) (target : Nat) : s.sleep target = s.lulled.resting target := by
  have hheld : s.lulled.power.heldWake = none := by
    rw [s.lulled_lulled.power]
    exact h
  exact State.rest_eq hheld target

/-- What Deep alone loses or carries (R603). -/
def State.deepening (s : State) : State :=
  { s with
      learning := { s.learning with filter := [] }
      faults := { s.faults with carried := some (s.carriedCounts, 0) } }

theorem State.sleepDeep_eq (h : s.power.heldWake = none) : s.sleepDeep = s.deepening.lulled.resting 4 :=
  State.sleep_eq (s := s.deepening) h 4

/-- The count of undelivered records reported before the rails go down (R603). -/
def State.offReport (s : State) : State := if s.undelivered = 0 then s else s.faultEvent 0x11 3 0xC 0 s.undelivered 0

/-- The tide count and the counts of the fault log recorded for Off-Guard (R82, R603). -/
def State.offRecord (s : State) : State :=
  State.recordTide { s.offReport with
    faults := { s.offReport.faults with carried := some (s.offReport.carriedCounts, s.undelivered) } }

/-- The device with its rails down and what PD00 keeps (R576). -/
def State.railsDown (s : State) (held : Option Nat) : State :=
  let x := s.offRecord.quietQuays.coldReset
  { x with
    boot := { x.boot with fromOffGuard := true, recordedCopy := s.boot.copy }
    dramCtl := { x.dramCtl with pcs := x.dramCtl.pcs.map (fun (p : Nat × Pseudo) => (p.1, { p.2 with set := (s.pc p.1).set })) }
    power := { x.power with
      tideRecord := s.offRecord.power.tideRecord, rtcRecord := s.offRecord.power.rtcRecord, mainEn := false, railsValid := false,
      heldWake := held } }

theorem State.guardOff_eq (s : State) :
    s.guardOff none = ((s.railsDown none).raise Fld.PWR_RESET_CAUSE_off_guard).resting 5 :=
  State.rest_eq (s := (s.railsDown none).raise Fld.PWR_RESET_CAUSE_off_guard) rfl 5

theorem State.offReport_clock (s : State) : s.offReport.clock = s.clock := by
  unfold State.offReport
  split
  · rfl
  · exact State.faultEvent_clock ..

theorem State.offReport_fuses (s : State) : s.offReport.fuses = s.fuses := by
  unfold State.offReport
  split
  · rfl
  · exact State.faultEvent_fuses ..

theorem State.railsDown_tideRecord (s : State) (held : Option Nat) : (s.railsDown held).power.tideRecord = s.clock.count :=
  congrArg Clock.count s.offReport_clock

theorem State.railsDown_fuses (s : State) (held : Option Nat) : (s.railsDown held).fuses = s.fuses :=
  (linksOnly_quietQuays s.offRecord).fuses.trans s.offReport_fuses

theorem State.railsDown_dram (s : State) (held : Option Nat) : (s.railsDown held).dram = [] := rfl

theorem State.bit_resting (s : State) (target : Nat) (f : Fld) (i : Nat) : (s.resting target).bit f i = s.bit f i := rfl

end Sys2Proof.Machine
end

section
/-! The commands of an entry (R578, R579, R582, R583, R584). -/
namespace Sys2Proof.Machine
variable {s : State} {e : PowerEntry} {t : Nat}

/-- A quiet device enters Idle (R578). -/
theorem autoIdleEntry_leaves (hstroke : s.clock.stroke = 0) (hserving : s.serving = true) (hstate : s.power.state = 0)
    (hauto : s.bit Fld.PWR_STATE_CTL_auto_idle = true) (hquiet : s.fld Fld.PWR_STATE_CTL_idle_tides ≤ s.power.quietTides)
    (hentry : s.power.entry = none) (hexit : s.power.exit = none) (hidle : s.power.idleAt = none) :
    Leaves .autoIdleEntry s { s with power := { s.power with state := 1 } } := by
  refine Leaves.of_eq rfl ((if_pos hstroke).trans ((if_pos ?_).trans ?_))
  · simp [hserving, hstate, hauto, hquiet, hentry, hexit]
  · unfold State.enterIdle
    rw [hidle]
    dsimp only
    rw [← hidle]

/-- An arrival wakes the device within 96 strokes (R579). -/
theorem idleWake_answers (hstate : s.power.state = 1) : Answers (.idleWake t) s (fun s' =>
    s'.power.state = 0 ∧ s'.power.clockedAt ≤ (s.at t).now + 96 ∧ (s.at t).now ≤ s'.power.clockedAt ∧ s' = { s with
      clock := (s.at t).clock, start := (s.at t).start, power := s'.power, freeCounter := s.freeCounter + 1, pins := s'.pins,
      ring := s'.ring }) := by
  refine Answers.of_eq rfl (if_pos (c := (s.at t).power.state = 1) hstate) ⟨rfl, ?_, Nat.le_add_right .., rfl⟩
  exact Nat.add_le_add_left (Nat.le_of_lt_succ (Nat.mod_lt _ (by decide))) _

/-- A device that is in no ring leaves none. -/
theorem State.leave_none (hjoined : s.ring.joined = false) (target : Nat) :
    (if target = 2 then s.clearOwnBit else s.beginLeave) = s := by
  split
  · exact if_neg (by simp [hjoined])
  · exact if_pos (by simp [hjoined])

/-- 64 tides without a record end the drain of a device that is in no ring (R582). -/
theorem entryDrainEnd_leaves (he : s.power.entry = some e) (hstep : e.step = 1) (hquiet : e.lastRecord + 65 ≤ s.clock.grid)
    (hdrained : s.drained = true) (hjoined : s.ring.joined = false) :
    Leaves .entryDrainEnd s { s with power := { s.power with entry := some { e with step := 3 } } } := by
  have hends : (decide (e.step = 1) && decide (e.lastRecord + 65 ≤ s.clock.grid) && s.drained) = true := by
    simp [hstep, hquiet, hdrained]
  refine Leaves.of_eq rfl ?_
  simp only [he, hends, if_true]
  exact State.leave_none (s := { s with power := { s.power with entry := some { e with step := 3 } } }) hjoined e.target

theorem State.ringLeft_of_apart (hstep : e.step = 3) (hjoined : s.ring.joined = false) : s.ringLeft e = true := by
  simp [State.ringLeft, hstep, hjoined]

/-- The narrow counters are folded for Deep (R584). -/
theorem bulkFold_answers (he : s.power.entry = some e) (htarget : e.target = 4) (hleft : s.ringLeft e = true)
    (hfolded : e.folded = false) (hplaces : s.counters.places = []) (hqueue : s.counters.foldQueue = [])
    (hheld : s.counters.held = []) (reads : List StripeRead) : Answers (.bulkFold reads) s (fun s' =>
      s'.power.entry = some { e with folded := true } ∧ (∀ p ∈ s.counters.narrow, s'.narrowCount p.1 = 0) ∧
      (reads = [] → s.dramCtl.pcs = [] → s.dram.wf = true → (s.counters.narrow.map (fun (p : Nat × Nat) => p.1)).Nodup →
        ∀ p ∈ s.counters.narrow, s'.wide p.1 = (s.wide p.1 + p.2) % 2 ^ 64)) := by
  have hbegins : (decide (e.target = 4) && s.ringLeft e && !e.folded && s.counters.places.isEmpty && s.counters.foldQueue.isEmpty &&
      s.counters.held.isEmpty) = true := by simp [htarget, hleft, hfolded, hplaces, hqueue, hheld]
  have hread := (DramOnly.each dramOnly_foldStripe s reads).counters
  have hfold : s.bulkFold reads = (s.each reads State.foldStripe).each s.counters.narrow State.foldOne := by
    rw [State.bulkFold_eq, hread]
  refine Answers.of_eq (x := { s.bulkFold reads with power := { s.power with entry := some { e with folded := true } } }) rfl ?_
    ⟨by rw [State.settle_power], fun p hp => ?_, ?_⟩
  · simp only [he, hbegins, if_true]
  · rw [State.narrowCount_settle]
    exact (congrArg (fun y : State => y.narrowCount p.1) hfold).trans (State.foldAll_narrow _ hp)
  · rintro rfl hpcs hwf hkeys p hp
    rw [State.wide_settle]
    exact (congrArg (fun y : State => y.wide p.1) hfold).trans (State.DramQuiet.foldAll_wide ⟨hpcs, hwf⟩ hkeys hp)

/-- The step in which the device comes to rest (R582). -/
theorem entryComplete_next (he : s.power.entry = some e) (hleft : s.ringLeft e = true) :
    exec .entryComplete s = .next (match e.target with
      | 2 => s.quietQuays.rest 2
      | 3 => s.sleep 3
      | 4 => if e.folded && s.scrub.unsettled.isEmpty && s.cmds.journal.isEmpty then s.sleepDeep else s
      | _ => s.guardOff s.power.heldWake).settle := by
  simp only [exec, execEntryComplete, he, hleft] <;> rfl

/-- The end of an entry in Doze, Retain, Deep and Off-Guard, with no wake event held (R572, R582, R583). -/
theorem entryComplete_doze (he : s.power.entry = some e) (hleft : s.ringLeft e = true) (hwake : s.power.heldWake = none)
    (htarget : e.target = 2) : Answers .entryComplete s (fun s' => s'.power.state = 2 ∧ s'.power.entry = none ∧
      s'.host.linkUp = s.host.linkUp ∧ (∀ q, (s'.link (.quay q)).up = false)) := by
  have hquiet := linksOnly_quietQuays s
  have hrest := State.rest_eq (s := s.quietQuays) (by rw [hquiet.power, hwake]) 2
  refine Answers.of_eq (entryComplete_next he hleft) (x := s.quietQuays.resting 2) ?_ ⟨?_, ?_, ?_, fun q => ?_⟩
  · rw [htarget]
    exact hrest
  · rw [State.settle_power]
    rfl
  · rw [State.settle_power]
    rfl
  · rw [State.settle_host]
    exact (congrArg (fun h => h.linkUp) hquiet.host :)
  · rw [State.link_settle]
    exact s.quietQuays_link q

theorem entryComplete_retain (he : s.power.entry = some e) (hleft : s.ringLeft e = true) (hwake : s.power.heldWake = none)
    (htarget : e.target = 3) : Answers .entryComplete s (fun s' => s'.power.state = 3 ∧ s'.power.entry = none ∧
      s'.host.linkUp = false ∧ s'.hot.lines = [] ∧ s'.power.tideRecord = s.clock.count ∧ s'.power.rtcRecord = s.power.rtc ∧
      (∀ q, (s'.link (.quay q)).up = false)) := by
  have hlulled := s.lulled_lulled
  refine Answers.of_eq (entryComplete_next he hleft) (x := s.lulled.resting 3) ?_ ⟨?_, ?_, ?_, ?_, ?_, ?_, fun q => ?_⟩
  · rw [htarget]
    exact State.sleep_eq hwake 3
  · rw [State.settle_power]
    rfl
  · rw [State.settle_power]
    rfl
  · rw [State.settle_host]
    exact hlulled.linkUp
  · rw [State.settle_hot]
    exact hlulled.lines
  · rw [State.settle_power]
    exact congrArg Power.tideRecord hlulled.power
  · rw [State.settle_power]
    exact congrArg Power.rtcRecord hlulled.power
  · rw [State.link_settle]
    exact hlulled.link q

theorem entryComplete_deep (he : s.power.entry = some e) (hleft : s.ringLeft e = true) (hwake : s.power.heldWake = none)
    (htarget : e.target = 4) (hfolded : e.folded = true) (hunsettled : s.scrub.unsettled = []) (hjournal : s.cmds.journal = []) :
    Answers .entryComplete s (fun s' => s'.power.state = 4 ∧ s'.power.tideRecord = s.clock.count ∧ s'.learning.filter = [] ∧
      s'.host.linkUp = false) := by
  have hlulled := s.deepening.lulled_lulled
  have hends : (e.folded && s.scrub.unsettled.isEmpty && s.cmds.journal.isEmpty) = true := by simp [hfolded, hunsettled, hjournal]
  refine Answers.of_eq (entryComplete_next he hleft) (x := s.deepening.lulled.resting 4) ?_ ⟨?_, ?_, ?_, ?_⟩
  · rw [htarget]
    exact (if_pos hends).trans (State.sleepDeep_eq hwake)
  · rw [State.settle_power]
    rfl
  · rw [State.settle_power]
    exact congrArg Power.tideRecord hlulled.power
  · rw [State.settle_learning]
    exact congrArg Learning.filter hlulled.learning
  · rw [State.settle_host]
    exact hlulled.linkUp

theorem entryComplete_offGuard (he : s.power.entry = some e) (hleft : s.ringLeft e = true) (hwake : s.power.heldWake = none)
    (htarget : e.target = 5) : Answers .entryComplete s (fun s' => s'.power.state = 5 ∧ s'.power.railsValid = false ∧
      s'.power.mainEn = false ∧ s'.dram = [] ∧ s'.fuses = s.fuses ∧ s'.power.tideRecord = s.clock.count ∧
      s'.bit Fld.PWR_RESET_CAUSE_off_guard = true) := by
  refine Answers.of_eq (entryComplete_next he hleft) (x := ((s.railsDown none).raise Fld.PWR_RESET_CAUSE_off_guard).resting 5) ?_
    ⟨?_, ?_, ?_, ?_, ?_, ?_, ?_⟩
  · rw [htarget, hwake]
    exact s.guardOff_eq
  · rw [State.settle_power]
    rfl
  · rw [State.settle_power]
    rfl
  · rw [State.settle_power]
    rfl
  · rw [State.settle_dram]
    exact s.railsDown_dram none
  · rw [State.settle_fuses]
    exact s.railsDown_fuses none
  · rw [State.settle_power]
    exact s.railsDown_tideRecord none
  · rw [State.bit_settle, State.bit_resting]
    exact State.bit_raise_same _ _ _ rfl (by decide) (by decide)

/-- Settles O58: with no ring to leave, an entry goes from its drain to its rest; each low state is reached through the quiet quays. -/
theorem powerEntries : Obligations.PowerEntries := by
  unfold Obligations.PowerEntries
  intro s t
  refine ⟨autoIdleEntry_leaves, idleWake_answers, fun e he => ⟨entryDrainEnd_leaves he, fun hstep hjoined => ?_⟩⟩
  have hleft : s.ringLeft e = true := State.ringLeft_of_apart hstep hjoined
  exact ⟨fun htarget hfolded hplaces hqueue hheld => bulkFold_answers he htarget hleft hfolded hplaces hqueue hheld,
    fun hwake => ⟨entryComplete_doze he hleft hwake, entryComplete_retain he hleft hwake, entryComplete_deep he hleft hwake,
      entryComplete_offGuard he hleft hwake⟩⟩

end Sys2Proof.Machine
end
